-- ==== Sys2Proof/Word.lean ====
section
/-! DEFINITION. The word types: the byte, the 32-bit register word (chapter 21: every register is 32 bits wide). -/

namespace Sys2Proof

/-- One byte. -/
abbrev Byte := BitVec 8

/-- One register word: every setup register is 32 bits wide (chapter 21, Model). -/
abbrev Word := BitVec 32

end Sys2Proof
end

