-- ==== Sys2Proof/Syntax.lean ====
section
/-! DEFINITION. The commands of the card: one constructor of `Instr` per row of the table of operations and events, with
the operands each takes. The table gives no operand fields, so the operands are what the row's rules say the event
carries; what the card holds itself (its registers, buffers, host memory) is no operand. -/

namespace Sys2Proof

/-- The units that start chunks (Table 2-1, Table 17-1). -/
inductive UnitKind where
  | append | flash | deliver | readPages | attention | search | reshard | poolXfer | tier
  deriving DecidableEq, Repr

/-- How a running chunk ended. -/
inductive ChunkRes where
  | ok
  /-- A PCIe error, IOMMU fault or poison on the descriptor's own host read (Table 20-1, INPUT). -/
  | inputFault
  deriving DecidableEq, Repr

/-- Units the card can retire (R474), with the unit kinds of Table 20-2. -/
inductive RetireUnit where
  | tile | lane | encoder | decoder | spokeBuffer | crossing
  deriving DecidableEq, Repr

/-- A descriptor with its ring position (Table 6-1): bytes 0 to 31 as fields, bytes 32 to 63 as they are. -/
structure Desc where
  tid : Nat
  sq : Nat
  /-- Free-running count of the descriptor in its SQ; its slot is the count modulo the ring length. -/
  count : Nat
  opcode : Nat
  quiet : Bool
  urgent : Bool
  resultUnits : Nat
  sid : Nat
  notBefore : Nat
  deadline : Nat
  userTag : Nat
  resultAddr : Nat
  body : List Byte
  deriving DecidableEq, Repr

/-- A Chainring frame (Table 14-3) with its CRCs valid: the header's other fields (`Machine.Frame.bytes` lays them out), and `payload`, its
LENGTH × 64 bytes or the leading ones of them that are not zero padding. -/
structure Frame where
  typ : Nat
  vc : Nat
  nak : Bool
  src : Nat
  dst : Nat
  hops : Nat
  ring : Nat
  linkSeq : Nat
  ackSeq : Nat
  credits : Nat
  creditVc : Nat
  xid : Nat
  payload : List Byte
  deriving DecidableEq, Repr

/-- A RoCEv2 packet as the rules of chapter 15 use it: addresses, UDP ports, tag and marks, BTH fields, the extended header's fields (RETH, AETH,
FLUSH or the spray header of Table 15-4) and the payload. -/
structure Packet where
  srcIp : Nat
  /-- Destination QP number on the wire. -/
  qpn : Nat
  /-- BTH opcode. -/
  opcode : Nat
  psn : Nat
  /-- The packet carries CE. -/
  ce : Bool
  /-- The packet breaks its format in a way the other fields do not show. -/
  malformed : Bool
  va : Nat
  rkey : Nat
  /-- Bytes of the whole message or of the flushed range. -/
  length : Nat
  offset : Nat
  msn : Nat
  first : Bool
  last : Bool
  path : Nat
  /-- AETH syndrome: 0 an ACK, otherwise the NAK class: 1 PSN sequence, 2 invalid request, 3 remote access, 4 remote operational. -/
  syndrome : Nat
  /-- BASE_PSN of a SPRAY_ACK (R369). -/
  basePsn : Nat
  /-- Bitmap of a SPRAY_ACK (R369). -/
  bitmap : Nat
  payload : List Byte
  /-- UDP source and destination port (R350, R366). -/
  udpSrc : Nat := 0xC000
  udpDst : Nat := 4791
  /-- The packet is marked ECT(0) (R371). -/
  ect0 : Bool := false
  /-- Its ICRC holds (R350). -/
  icrcOk : Bool := true
  /-- IEEE 802.1Q tag, source MAC address and DSCP, as the sender's registers set them (R350, R351, Table 15-9). -/
  vlan : Option Nat := none
  srcMac : Nat := 0
  dscp : Nat := 0
  /-- A FLUSH's placement type is global visibility alone, and its selectivity a memory region range (Table 15-1). -/
  globalVis : Bool := true
  regionRange : Bool := true
  deriving DecidableEq, Repr

/-- A 64-byte cascade word (R245) with a valid CRC. -/
structure CascadeWord where
  origin : Nat
  tag : Nat
  ns : Nat
  block : Nat
  key : List Byte
  /-- The best hit so far: position, die, bank, row, SID, record, MATCH_BLOCKS. -/
  hit : Option (List Nat)
  verifyMiss : Bool
  halted : Bool
  /-- The CRC-32C it carries. -/
  crc : Word
  deriving DecidableEq, Repr

/-- A serial STATUS transaction: its ARG, the cursor, and the words the host clocks after the command word (R86, R87, Table 4-6). -/
structure StatusTxn where
  cursor : Nat
  words : List Word
  deriving DecidableEq, Repr

/-- What the media answer to a NAND read (R194, R217, R218, R158, R275). -/
inductive NandRes where
  | ok
  /-- Corrected by ECC. -/
  | corrected
  /-- ECC could not correct it. -/
  | uncorrectable
  /-- The page's header disagrees with its leaf. -/
  | badPage
  /-- The page's coded form fails a check of R275. -/
  | badCode
  /-- The die failed its status check after retries. -/
  | dieDead
  deriving DecidableEq, Repr

/-- How a CXL.mem request comes (R375, R398): as Table 16-1 supports it; with a feature the card does not support; or over bad memory: a
write's data carry poison, a read meets an uncorrectable DRAM error under its line. -/
inductive CxlHow where
  | plain
  | unsupported
  | bad
  deriving DecidableEq, Repr

/-- Who sends a CXL.mem request, and how it comes. -/
structure CxlSource where
  hid : Nat
  how : CxlHow
  deriving DecidableEq, Repr

/-- The data of a line that a host gives back (R390), with poison or without it (Table 16-1). -/
structure LineData where
  bytes : List Byte
  bad : Bool
  deriving DecidableEq, Repr

/-- What a read asks for: an offset, and the access's width in bytes (R112). -/
structure Span where
  off : Nat
  bytes : Nat
  deriving DecidableEq, Repr

/-- The commands: one constructor per row of the table, in the table's order. -/
inductive Instr where
  /-- STROKE_BOUNDARY (R37): At every Stroke boundary the card takes in latched arrivals, writes completions, fires timers, admits work and refills budgets, in that order. -/
  | strokeBoundary
  /-- SHADOW_SWITCH (R52): When the count reaches an armed target, all PART shadows switch together after the capacity checks, or the switch is refused. -/
  | shadowSwitch
  /-- PERIOD_SWITCH (R27): When the count reaches an armed target, the new Stroke period takes effect, or the switch is refused. -/
  | periodSwitch
  /-- COUNTER_HALT (R30): The boundary that would begin Stroke 0xFFFF_FFFF_FFFF stops the counter and sends the card to FAULT. -/
  | counterHalt
  /-- CHUNK_START (R35): A unit starts a ready chunk once its partition holds budget for every resource the chunk draws, and the chunk draws its budget. -/
  | chunkStart (unit : UnitKind)
  /-- CHUNK_END (R35): A chunk that took time ends, and its descriptor's completion is latched if it was the last. -/
  | chunkEnd (work chunk : Nat) (res : ChunkRes)
  /-- MARK_RECEIVE (R338): A latched MARK is used to move the member's next boundary towards the pacer's and to keep or lose LOCKED. -/
  | markReceive (port : Nat) (f : Frame) (offsetNs : Int)
  /-- MARK_TIMEOUT (R337): A member that latches no MARK for twice MEMBER_TIMEOUT Strokes leaves the peloton. -/
  | markTimeout
  /-- BEAT_SEND (R336): Every 128 Strokes each member sends a BEAT to every member. -/
  | beatSend
  /-- ROSTER_TIMEOUT (R337): A member whose BEAT has not been latched within MEMBER_TIMEOUT Strokes is dropped from the roster, and the pacer may change. -/
  | rosterTimeout (member : Nat)
  /-- HELLO_SEND (R338): Every 1,024 Strokes each open ring port sends a HELLO to measure hop delay. -/
  | helloSend
  /-- JOIN (R335): A JOIN write starts the attempt to join the peloton. -/
  | joinCmd
  /-- JOIN_TIMEOUT (R335): A join whose conditions are not met within 2 s is refused with its cause. -/
  | joinTimeout
  /-- LEAVE (R337): A LEAVE write makes the card leave the peloton. -/
  | leaveCmd
  /-- POWER_INPUT_CHANGE (R495): A 12V-2x6 input enters or leaves tolerance, putting the card into or releasing it from reset and dropping the Freewheel holds. -/
  | powerInputChange (input : Nat) (inTol : Bool)
  /-- PERST_CHANGE (R54): PERST# is asserted or deasserted, holding the card in reset or ending that reset condition. -/
  | perstChange (asserted : Bool)
  /-- RESET_IN_CHANGE (R511): A recognised RESET_IN low level resets the whole card, and its deassertion ends the reset condition. -/
  | resetInChange (asserted : Bool)
  /-- HOT_RESET (R56): A PCIe hot reset is handled as a whole-card reset. -/
  | hotReset
  /-- FLR_PF0 (R56): An FLR of PF0 is handled as a whole-card reset. -/
  | flrPf0
  /-- RESET_EXIT (R54): The card leaves reset, starts the Stroke counter at 0, runs the boot ROM and begins DRAM training. -/
  | resetExit
  /-- DRAM_TRAINING_DONE (R56): A stack finishes training and zero fill and shows TRAINED, or fails training and sends the card to FAULT. -/
  | dramTrainingDone (stack : Nat) (ok : Bool)
  /-- PF0_READY (R57): PF0 becomes ready and the card enters phase LOAD. -/
  | pf0Ready
  /-- LOG_SCAN_START (R61): A START of the log scan, accepted in CONFIGURE once DRAM is trained, begins reading the flash log. -/
  | logScanStart
  /-- LOG_SCAN_DONE (R61): The scan ends, lists every region found in REGION_INFO and sets DONE. -/
  | logScanDone
  /-- REGION_ADOPT (R63): An adopt action is latched for the selected region, to run after the actions before it. -/
  | regionAdopt (tid : Nat)
  /-- REGION_SCRUB (R65): A scrub action is latched for the selected region, to run after the actions before it. -/
  | regionScrub
  /-- REGION_HOLD (R66): A hold action leaves the selected region untouched and unallocatable until the next power-up. -/
  | regionHold
  /-- REGION_ACTION_START (R62): The next latched region action starts once the previous one has ended, checking adopt conditions or writing the scrub mark. -/
  | regionActionStart
  /-- ADOPT_DONE (R63): An adopt finishes rebuilding sequences, leaves and prefix entries, and the region reads ADOPTED. -/
  | adoptDone
  /-- SCRUB_DONE (R65): The last erase of a scrubbed region ends with its mark durable, and the region reads SCRUBBED. -/
  | scrubDone
  /-- RELEASE (R67): The installer's release write requests the move to RELEASED. -/
  | releaseCmd
  /-- QUIESCE_START (R68): A QUIESCE START in RELEASED stops fetching and begins writing every DRAM-only page and CLEAN mark to flash. -/
  | quiesceStart
  /-- QUIESCE_DONE (R68): The last CLEAN mark is written and QUIESCE_STATUS.DONE is set. -/
  | quiesceDone
  /-- BAR2_WRITE (R90): A 32-bit write into the BAR2 header area or a frame slot is stored, or discarded and counted when malformed or reserved. -/
  | bar2Write (off bytes : Nat) (val : BitVec 64)
  /-- BAR2_HEADER_SUBMIT (R91): The write to 0x0_01FC copies the header area to the loader, zeroes it and puts the header through the transport checks. -/
  | bar2HeaderSubmit (val : Word)
  /-- BAR2_FRAME_SUBMIT (R91): The write to a slot's FRAME_CRC copies the slot to the loader, zeroes it and checks the frame. -/
  | bar2FrameSubmit (slot : Nat) (val : Word)
  /-- HEADER (R79): A serial HEADER transaction delivers a header that passes or fails the transport checks. -/
  | headerCmd (words : List Word) (partialWord : Bool)
  /-- FRAME (R74): A serial FRAME transaction delivers a frame that is accepted, discarded or counted. -/
  | frameCmd (arg : Nat) (words : List Word) (partialWord : Bool)
  /-- STATUS (R89): A serial STATUS transaction returns the four status words and releases SSP_ATTN_N. -/
  | statusCmd (cursor : StatusTxn)
  /-- SERIAL_ABORT (R82): A serial ABORT command acts as IMG.LOAD_CMD.ABORT. -/
  | serialAbort
  /-- SERIAL_BADCMD (R86): A serial transaction with an unknown CMD is discarded and counted. Operand: the transaction's whole words. -/
  | serialBadcmd (cmd : List Word)
  /-- HEADER_CHECK_DONE (R80): Header checking ends, moving the load to RECEIVING or REJECTED with a cause. -/
  | headerCheckDone
  /-- VERIFY_DONE (R81): The hash of the complete run of frames finishes and the load moves to APPLYING or REJECTED. -/
  | verifyDone
  /-- ABORT (R82): IMG.LOAD_CMD.ABORT ends a load in HEADER_CHECK, RECEIVING or VERIFYING with cause ABORTED. -/
  | abortCmd
  /-- SLOT_CONFIG_DONE (R94): Configuration write and readback of a slot end, and reset is released into STARTING, or the slot fails. -/
  | slotConfigDone (slot : Nat) (ok : Bool)
  /-- SLOT_READY (R319): A design raises READY, its identity block is checked, and the slot moves towards ACTIVE or HELD, or fails. -/
  | slotReady (slot : Nat) (ident : List Word)
  /-- SLOT_READY_TIMEOUT (R94): A design that does not raise READY within 64 µs puts the slot in FAILED and the load in REJECTED. -/
  | slotReadyTimeout (slot : Nat)
  /-- RECOUPLE (R94): IMG.LOAD_CMD.RECOUPLE moves every HELD slot to ACTIVE at the next boundary. -/
  | recouple
  /-- APPLY_DONE (R76): The application of a firmware, microcode or shell image ends, and the load reaches DONE or REJECTED. -/
  | applyDone (ok : Bool) (sysMask : Nat)
  /-- AUDIT_TAIL (R109): A write of ROLE.AUDIT_TAIL consumes entries when it moves TAIL forward by no more than the pending count. -/
  | auditTail (val : Word)
  /-- MAKER_LOCK (R106): Setting ROLE.MAKER_LOCK refuses every later challenge until reset and closes an open session. -/
  | makerLock
  /-- MAKER_CHALLENGE_REQUEST (R103): A maker request frame naming a scope returns a fresh nonce and the unique ID, or is refused. -/
  | makerChallengeRequest (scope : Nat)
  /-- MAKER_RESPONSE (R103): A maker response frame is verified and opens a session or counts a failure. -/
  | makerResponse (sig : List Byte)
  /-- NONCE_EXPIRY (R103): A challenge nonce expires 131,072 Strokes after it was issued. -/
  | nonceExpiry
  /-- MAKER_ACTION (R107): A maker session frame performs a maker action under the granted scope. -/
  | makerAction (scope code : Nat) (off : Nat)
  /-- REGISTER_WRITE (R483): A BAR0 write to a register with no row of its own is applied in arrival order, or ignored and counted as an illegal register sequence. -/
  | registerWrite (off bytes : Nat) (val : BitVec 64)
  /-- COUNT_LO_READ (R478): A read of a _LO register latches the high half into the path's _HI register. `path` is 0 BAR0, 1 BAR2, 2 SMBus, 3 the maker channel, from 4 up the pages of function `path - 4`. -/
  | countLoRead (path : Nat) (span : Span)
  /-- SQ_TAIL (R120): A doorbell write of SQ_TAIL replaces the recorded tail, or is discarded and counted. `q` is the tail register written; 8 stands for a write of any other kind to the page, or to the status page. -/
  | sqTail (vf q : Nat) (val : Word)
  /-- CQ_HEAD (R120): A doorbell write of CQ_HEAD releases consumed completions, or is discarded and counted. `q` is the head register written; 8 stands for a write of any other kind to the page. -/
  | cqHead (vf q : Nat) (val : Word)
  /-- FETCH_START (R123): The card begins a fetch of up to 32 descriptors from an SQ with no wait bit and pending descriptors. -/
  | fetchStart (tid q : Nat)
  /-- DESCRIPTOR_FETCHED (R126): A fetched descriptor is latched and checked for malformation, completing IGNORED when malformed. -/
  | descriptorFetched (tid q : Nat)
  /-- SQ_CTRL (R136): A write of FN.SQ_CTRL enables an SQ with its counts at 0 or disables it and discards its recorded tail. -/
  | sqCtrl (tid q : Nat) (val : Word)
  /-- CQ_CTRL (R136): A write of FN.CQ_CTRL enables or disables a CQ, subject to the bound SQs. -/
  | cqCtrl (tid q : Nat) (val : Word)
  /-- NOP (R134): NOP draws no budget and completes DONE in the Stroke of its admission. -/
  | nop (d : Desc)
  /-- FENCE (R133): FENCE holds later descriptors of its scope until every earlier fetched descriptor has completed. -/
  | fence (d : Desc)
  /-- SEQ_OPEN (R146): SEQ_OPEN creates an OPEN sequence with L = 0 and returns its SID, or completes DENIED. -/
  | seqOpen (d : Desc)
  /-- SEQ_CLOSE (R147): SEQ_CLOSE makes the sequence CLOSING, to run once earlier descriptors on it end. -/
  | seqClose (d : Desc)
  /-- CLOSE_RUN (R147): Once the last earlier descriptor ends, the close releases every page reference and pin and advances the generation. -/
  | closeRun (idx : Nat)
  /-- CLOSE_ENTRIES_REMOVED (R241): The last prefix entry of a closed sequence is removed and its index joins the free list. -/
  | closeEntriesRemoved (idx : Nat)
  /-- SEQ_FORK (R148): SEQ_FORK checks source and target and starts sharing the source's pages into the empty target. -/
  | seqFork (d : Desc)
  /-- APPEND (R181): APPEND checks its class, stride and expected length and quantises its tokens into pages, one chunk per block and layer. -/
  | append (d : Desc)
  /-- READ_PAGES (R197): READ_PAGES writes each page of its range, header included, to host memory. -/
  | readPages (d : Desc)
  /-- DELIVER (R359): DELIVER sends each page of its range as one RDMA WRITE message to the target region. -/
  | deliver (d : Desc)
  /-- PIN (R208): PIN holds each page of its range in DRAM, paging it in first, up to PIN_CAP. -/
  | pin (d : Desc)
  /-- UNPIN (R208): UNPIN releases the sequence's pin on each page of its range. -/
  | unpin (d : Desc)
  /-- SCORE_UPDATE (R207): SCORE_UPDATE sets priority, touches, passes hook hints and optionally promotes each page of its range. -/
  | scoreUpdate (d : Desc)
  /-- PREFIX_FIND (R232): PREFIX_FIND searches every key of the request, verifies the deepest hit and returns match records. -/
  | prefixFind (d : Desc)
  /-- PREFIX_NEXT (R234): PREFIX_NEXT returns further verified hits of one key below a cursor. -/
  | prefixNext (d : Desc)
  /-- PREFIX_INSERT (R238): PREFIX_INSERT writes sealed blocks of a sequence into the namespace as search entries, records and shadows. -/
  | prefixInsert (d : Desc)
  /-- PREFIX_REMOVE (R240): PREFIX_REMOVE clears the entries of a sequence's blocks from the namespace. -/
  | prefixRemove (d : Desc)
  /-- ATTN_PARTIAL (R288): ATTN_PARTIAL computes and merges per-page attention triples over the stated ranges and writes them to OUT_ADDR. -/
  | attnPartial (d : Desc)
  /-- RESHARD_MOVE (R344): A RESHARD MOVE sends each remote slice's pages to target members for the next epoch. -/
  | reshardMove (d : Desc)
  /-- RESHARD_COPY (R344): A RESHARD COPY sends each remote slice's pages to target members without removing them at the switch. -/
  | reshardCopy (d : Desc)
  /-- ADVANCE (R346): ADVANCE sends EPOCH_PREPARE to every member to switch the tenant's epoch at the switch Stroke. -/
  | advance (d : Desc)
  /-- POOL_XFER (R393): POOL_XFER copies pages between a pool region and a sequence in the chosen direction. -/
  | poolXfer (d : Desc)
  /-- REBUILD_START (R164): XLAT.REBUILD_CTRL.START begins copying one tenant's translation tree. -/
  | rebuildStart
  /-- REBUILD_COPY_DONE (R164): The copy of a rebuild ends and the tenant's fetch is stopped for the switch. -/
  | rebuildCopyDone
  /-- WALK_CACHE_FLUSH (R157): XLAT.WALK_CACHE_CTRL.FLUSH empties the walk and directory caches. -/
  | walkCacheFlush
  /-- TIER_PROBE (R222): TIER.PROBE_CTRL.GO reports the state, references and score of one page. -/
  | tierProbe
  /-- DEFINE (R167): CMPR.CLASS_CTRL.DEFINE checks and defines a sequence class, or refuses it with a cause. -/
  | defineCmd
  /-- UNDEFINE (R168): CMPR.CLASS_CTRL.UNDEFINE removes a class that has no users. -/
  | undefine
  /-- APPEND_BUCKETS (R186): A write of the append bucket edges or lanes takes effect at the next boundary, or is ignored when inconsistent. -/
  | appendBuckets (off : Nat) (val : Word)
  /-- NAND_READ_DONE (R194): A NAND page read completes into DRAM, correcting, reconstructing or marking the page LOST. -/
  | nandReadDone (op : Nat) (res : NandRes)
  /-- PROGRAM_DONE (R194): A NAND program completes, making its pages' flash copies valid and queuing their PAGE records. -/
  | programDone (op : Nat) (ok : Bool)
  /-- DIE_REBUILD_DONE (R217): The rebuild of a dead die onto a spare ends and the spare takes its place. -/
  | dieRebuildDone (group : Nat) (lost : List Nat)
  /-- OPEN_NAND_PAGE_TIMEOUT (R193): A partly filled NAND page still open LOG_FLUSH Strokes after its first sector is padded and programmed. -/
  | openNandPageTimeout (index : Nat)
  /-- EVICTION (R205): While free frames are below the levels, the tier manager drops CLEAN and demotes DIRTY candidates in band order. -/
  | eviction
  /-- SCORE_REEVALUATE (R203): The tier manager reevaluates every page's eviction score at least once every 2^AGE_SHIFT Strokes. -/
  | scoreReevaluate
  /-- LOG_FLUSH (R212): A log buffer is written as a log page when it holds 1,020 records or LOG_FLUSH Strokes after its oldest record. -/
  | logFlush (index : Nat)
  /-- COMPACTION (R215): A region whose log exceeds twice its live records is rewritten into a new chain. -/
  | compaction (index : Nat)
  /-- CASCADE_WORD (R246): A cascade word latched from the ring is searched, updated and forwarded, or taken as the origin's returned result. -/
  | cascadeWord (w : CascadeWord)
  /-- CASCADE_WAIT_EXPIRY (R248): A cascade word not returned within CASCADE_WAIT Strokes is reissued once, then counted as lost with RING_LOSS. -/
  | cascadeWaitExpiry (tag : Nat)
  /-- ENUM_DONE (R249): Local enumeration ends, setting DIES_LOCAL and ENUM_DONE. -/
  | enumDone (ring : Bool)
  /-- CASCADE_ENUM_TIMEOUT (R249): If all cascade positions have not answered within 2 s, CASCADE_INCOMPLETE is set and search runs locally. -/
  | cascadeEnumTimeout
  /-- MATCH_TOKEN (R250): A latched match token is searched on the mapped tenant's namespace and answered with the best match. -/
  | matchToken (port : Nat) (f : Frame)
  /-- MATCH_REPLY (R251): A peloton member's reply is recorded for the waiting FIND. -/
  | matchReply (port : Nat) (f : Frame)
  /-- PELOTON_WAIT_EXPIRY (R251): The FIND's reply timer fires and members without a reply get a record of KIND 4. -/
  | pelotonWaitExpiry (work : Nat)
  /-- BRAKE_SAMPLE (R252): Every 1 ms the Sprocket temperatures set the Brake step, applied at the next boundary. -/
  | brakeSample (temps : List Int)
  /-- RESHAPE (R255): SRCH.BANK_CTRL.RESHAPE begins draining a bank into its sister bank. -/
  | reshape
  /-- RESHAPE_DRAIN_DONE (R255): The drained bank is cleared and its new width takes effect at the next boundary. -/
  | reshapeDrainDone (bank : Nat)
  /-- SHADOW_TOKENS_RESTORED (R258): After an adopt, an entry's token list is read back from flash and it stops verifying on the key alone. -/
  | shadowTokensRestored (entry : Nat)
  /-- CONST_LOAD (R264): CMPR.CONST_CTRL.LOAD reads a constant set image from host memory. -/
  | constLoad
  /-- CONST_LOAD_DONE (R264): The constant set load ends LOADED with its CRC, or FAILED with a cause. -/
  | constLoadDone (ok : Bool)
  /-- CONST_UNLOAD (R264): CMPR.CONST_CTRL.UNLOAD frees a set's room when no class names it. -/
  | constUnload
  /-- HOOK_RESPONSE (R313): A slot design's response to a hook call is delivered, or fails the slot if stray or on an unimplemented hook. -/
  | hookResponse (slot hook tag : Nat) (last : Bool) (data : List Byte)
  /-- HOOK_LATENCY_TIMEOUT (R313): A call unanswered after its LATENCY fails the slot, and the burst's open calls get the fault answer. -/
  | hookLatencyTimeout (slot hook tag : Nat)
  /-- SLOT_FAULT_ASSERT (R313): A design asserting FAULT fails its slot at once. -/
  | slotFaultAssert (slot : Nat)
  /-- SLOT_WINDOW (R316): An access to GEAR.SLOT_WINDOW reaches the design's control window. `rdata` is what the design returns to a read. -/
  | slotWindow (addr : Nat) (wr : Option Word) (rdata : Word)
  /-- WINDOW_TIMEOUT (R316): A window read without WIN_ACK within 64 fabric cycles returns 0 and is counted. -/
  | windowTimeout (addr : Nat)
  /-- CFG_RD_REQ (R318): A design requests readback of one of its configuration frames. -/
  | cfgRdReq (slot frame : Nat)
  /-- CFG_READBACK_DONE (R318): A readback ends and CFG_MATCH reports whether the frame's CRC matches, failing the slot on a scrub mismatch. -/
  | cfgReadbackDone (ok : Bool)
  /-- UNLOAD (R322): GEAR.SLOT_CTRL.UNLOAD takes a slot to EMPTY through DECOUPLING. -/
  | unloadCmd
  /-- TENANT_BIND (R321): A write of GEAR.TENANT_BIND binds hooks to slots from the next boundary. -/
  | tenantBind (val : Word)
  /-- HELLO (R338): A received HELLO reveals the member across the hop, its credits and its round-trip time. -/
  | helloCmd (port : Nat) (f : Frame)
  /-- ACK (R329): A received ACK or NAK releases acknowledged frames or starts a replay, and returns credits. -/
  | ackCmd (port : Nat) (f : Frame)
  /-- BEAT (R336): A received BEAT keeps its sender in the roster. -/
  | beatCmd (port : Nat) (f : Frame)
  /-- BAD_FRAME (R328): A frame with an unknown TYPE or failing CRC is discarded, counted or answered with a NAK. -/
  | badFrame (port : Nat) (header payload : List Byte)
  /-- REPLAY_TIMEOUT (R329): Sequenced frames unacknowledged for 4 µs are replayed. -/
  | replayTimeout (port : Nat)
  /-- RESHARD_OPEN (R343): A received RESHARD_OPEN is accepted or refused by the target member. -/
  | reshardOpen (port : Nat) (f : Frame)
  /-- RESHARD_ANSWER (R343): A received RESHARD_ANSWER lets the RESHARD start chunks or ends it TARGET_REFUSED. -/
  | reshardAnswer (port : Nat) (f : Frame)
  /-- PAGE_SEG (R344): A received page segment is staged out of sight, and PLACED is answered when the page is whole. -/
  | pageSeg (port : Nat) (f : Frame)
  /-- PLACED (R344): A received PLACED completes a page of a RESHARD, latching its completion with the last one. -/
  | placed (port : Nat) (f : Frame)
  /-- EPOCH_PREPARE (R346): A received EPOCH_PREPARE is recorded and answered with READY once no MOVE or COPY for the epoch is outstanding. -/
  | epochPrepare (port : Nat) (f : Frame)
  /-- EPOCH_READY_SEND (R346): A member sends EPOCH_READY once its outstanding MOVEs and COPYs for the epoch have ended. -/
  | epochReadySend (tid : Nat)
  /-- EPOCH_READY (R346): A received EPOCH_READY is counted towards the ADVANCE's commit. -/
  | epochReady (port : Nat) (f : Frame)
  /-- ADVANCE_READY_DEADLINE (R346): At Stroke X − 2 the ADVANCE sends EPOCH_COMMIT if every READY is latched, or ends NOT_READY. -/
  | advanceReadyDeadline (work : Nat)
  /-- EPOCH_COMMIT (R346): A received EPOCH_COMMIT arms the epoch switch and is answered with COMMIT_ACK. -/
  | epochCommit (port : Nat) (f : Frame)
  /-- COMMIT_ACK (R346): A received COMMIT_ACK is recorded, ending the ADVANCE with the last one. -/
  | commitAck (port : Nat) (f : Frame)
  /-- XFER_WAIT_EXPIRY (R334): An unanswered transaction is resent once after XFER_WAIT, then fails with the effect of its request type. -/
  | xferWaitExpiry (xid : Nat)
  /-- MIRROR_WRITE (R341): A received MIRROR_WRITE is applied on the partner in XID order and acknowledged. -/
  | mirrorWrite (port : Nat) (f : Frame)
  /-- MIRROR_ACK (R401): A received MIRROR_ACK completes the waiting host write, or signals loss of the partner. -/
  | mirrorAck (port : Nat) (f : Frame)
  /-- LINK_DOWN (R333): A port loses its link: a ring port holds its frames, an Ethernet port raises PORT_DOWN and sends its QPs to ERR. -/
  | linkDown (port : Nat)
  /-- LINK_HOLD_EXPIRY (R333): After LINK_HOLD Strokes the held frames are sent the other way round the ring. -/
  | linkHoldExpiry (port : Nat)
  /-- LINK_UP (R333): A port's link comes up, replaying to the same member or restarting numbering towards a new one, or raising PORT_UP. -/
  | linkUp (port member : Nat)
  /-- FREEWHEEL_OPEN (R324): SPOKE.FREEWHEEL_CTRL.OPEN starts opening a CLOSED pair whose ports share a mode. -/
  | freewheelOpen (pair : Nat)
  /-- FREEWHEEL_CLOSE (R325): SPOKE.FREEWHEEL_CTRL.CLOSE drops the hold of an OPEN pair. -/
  | freewheelClose (pair : Nat)
  /-- FREEWHEEL_SWITCH_DONE (R325): A moving Freewheel switch reaches OPEN or CLOSED after 5 ms. -/
  | freewheelSwitchDone (pair : Nat)
  /-- QP_RESET (R356): A NEXT_STATE of RESET returns the QP and its fields to power-up values at the next boundary. -/
  | qpReset
  /-- QP_INIT (R356): A NEXT_STATE of INIT moves a RESET QP to INIT at the next boundary. -/
  | qpInit
  /-- QP_RTR (R356): A NEXT_STATE of RTR lets the QP accept inbound packets from the next boundary. -/
  | qpRtr
  /-- QP_RTS (R356): A NEXT_STATE of RTS lets DELIVER chunks start on the QP. -/
  | qpRts
  /-- QP_SQD (R356): A NEXT_STATE of SQD stops new messages and raises SQ_DRAINED when all are acknowledged. -/
  | qpSqd
  /-- QP_ERR (R357): A NEXT_STATE of ERR ends the QP's DELIVERs and abandons its incomplete inbound messages. -/
  | qpErr
  /-- COMMIT (R355): RDMA.REGION_CTRL.COMMIT makes a FREE region VALID from the next boundary. -/
  | commitCmd
  /-- REGION_RELEASE (R355): RDMA.REGION_CTRL.RELEASE moves a VALID region to DRAINING from the next boundary. -/
  | regionRelease
  /-- RDMA_WRITE (R363): An inbound RDMA WRITE packet is checked and placed in a HOST region, advancing the counter when the message is whole. -/
  | rdmaWrite (port : Nat) (p : Packet)
  /-- SPRAY_WRITE (R368): An inbound SPRAY_WRITE packet is placed by its own address and counted towards its message. -/
  | sprayWrite (port : Nat) (p : Packet)
  /-- FLUSH (R370): An inbound FLUSH is executed once earlier messages are whole and answered. -/
  | flush (port : Nat) (p : Packet)
  /-- FLUSH_RESPONSE (R361): A received FLUSH response extends a DELIVER's placed extent, or a FLUSH NAK sends the QP to ERR. -/
  | flushResponse (port : Nat) (p : Packet)
  /-- RDMA_ACK (R360): A received acknowledgement ends the page chunks it covers, or a NAK triggers go-back-N or an error. -/
  | rdmaAck (port : Nat) (p : Packet)
  /-- SPRAY_ACK (R369): A received SPRAY_ACK acknowledges messages below CUM_MSN and covers packets in its bitmap. -/
  | sprayAck (port : Nat) (p : Packet)
  /-- SPRAY_ACK_SEND (R369): The receiver sends SPRAY_ACK after 16 packets or within 2 µs of an unanswered packet. -/
  | sprayAckSend (qp : Nat)
  /-- SPRAY_TIMEOUT (R369): A packet not covered SPRAY_TIMEOUT after sending is resent on the next path and its path is retired. -/
  | sprayTimeout (qp psn : Nat)
  /-- ACK_TIMEOUT (R356): A standard QP's ACK timeout retransmits, or moves the QP to ERR after RETRY_COUNT tries. -/
  | ackTimeout (qp : Nat)
  /-- PATH_RESTORED (R369): A retired spray path returns to service after 1,024 Strokes. -/
  | pathRestored (qp path : Nat)
  /-- CNP (R371): A received CNP cuts the QP's send rate. -/
  | cnp (port : Nat) (p : Packet)
  /-- RATE_TIMER (R371): Without a CNP for RATE_TIMER the QP's rate is raised. -/
  | rateTimer (qp : Nat)
  /-- PFC_STORM (R372): Pause received continuously for 100 ms raises PFC_STORM. -/
  | pfcStorm (port : Nat)
  /-- CXL_READ_NOCACHE (R389): A host read without caching is served under the access list and directory. -/
  | cxlReadNocache (src : CxlSource) (tag dpa : Nat)
  /-- CXL_SHARED_READ (R389): A host shared read is served and adds the host as sharer. -/
  | cxlSharedRead (src : CxlSource) (tag dpa : Nat)
  /-- CXL_OWNERSHIP_READ (R389): A host ownership read recalls other holders and grants the line exclusive. -/
  | cxlOwnershipRead (src : CxlSource) (tag dpa : Nat)
  /-- CXL_WRITE (R389): A host write is applied after recalling other holders, and mirrored where the region is mirrored. -/
  | cxlWrite (src : CxlSource) (tag dpa : Nat) (data : List Byte) (mask mval : Nat)
  /-- WRITEBACK (R390): A host's writeback updates memory or serves as a recall's data. -/
  | writeback (hid dpa : Nat) (data : LineData)
  /-- SNOOP_RESPONSE (R390): A host's back-invalidation response ends its recall and lets queued requests proceed. -/
  | snoopResponse (hid dpa : Nat) (data : Option LineData) (keeps : Bool)
  /-- BI_TIMEOUT (R391): A snoop unanswered within BI_TIMEOUT fails the host's slot and poisons its exclusive lines. -/
  | biTimeout (slot dpa : Nat)
  /-- HOST_VIRAL (R391): A viral indication from a host is handled as a missed snoop. -/
  | hostViral (hid : Nat)
  /-- POOL_REQUEST_SERVE (R384): A pool request that waited for its host or partition balance is served in a later Stroke. -/
  | poolRequestServe
  /-- DC_RELEASE_ACK (R380): A host acknowledges a dynamic-capacity release, ending service of that region to it. -/
  | dcReleaseAck (hid region : Nat)
  /-- RELEASE_WAIT_EXPIRY (R380): After RELEASE_WAIT Strokes an unacknowledged release makes the host's requests to the region foreign. -/
  | releaseWaitExpiry (slot region : Nat)
  /-- CREATE (R378): POOL.REGION_CTRL.CREATE creates a pool region, or refuses it with a cause. -/
  | createCmd
  /-- DESTROY (R379): POOL.REGION_CTRL.DESTROY releases or erases a region that no host or POOL_XFER uses. -/
  | destroy
  /-- DESTROY_DONE (R379): A destroyed region's release or erase ends and it becomes FREE. -/
  | destroyDone (region : Nat)
  /-- TAKEOVER (R405): POOL.REGION_CTRL.TAKEOVER makes a STANDBY region ACTIVE on the survivor. -/
  | takeover
  /-- TAKEOVER_KV (R405): TAKEOVER_KV GO replays a KV mirror into a target tenant. -/
  | takeoverKv
  /-- TAKEOVER_KV_DONE (R405): The KV takeover replay ends, writing the SID map and the MERGED KV_DEFINE record. -/
  | takeoverKvDone
  /-- RESYNC (R406): POOL.TANDEM_CTRL.RESYNC starts filling a new partner with every mirrored page and record. -/
  | resync
  /-- RESYNC_DONE (R406): A region or tenant's last copy is acknowledged and it reads SYNC. -/
  | resyncDone (tenant : Bool) (num : Nat)
  /-- HOST_CTRL (R392): A write of POOL.HOST_CTRL enables a host slot from the next boundary, or disables it by recalling its lines. -/
  | hostCtrl (val : Word)
  /-- HOST_DRAIN_DONE (R392): The last recall of a disabled host slot ends and the slot becomes FREE. -/
  | hostDrainDone (slot : Nat)
  /-- PARTITION_CREATE (R409): PART.PARTITION_CTRL.CREATE creates a partition with zero budgets at the next boundary. -/
  | partitionCreate
  /-- PARTITION_DESTROY (R410): PART.PARTITION_CTRL.DESTROY frees a partition with no tenant and no pool region. -/
  | partitionDestroy
  /-- TENANT_CREATE (R411): PART.TENANT_CTRL.CREATE makes a FREE tenant ACTIVE at the next boundary. -/
  | tenantCreate
  /-- TENANT_DESTROY (R414): PART.TENANT_CTRL.DESTROY resets a tenant that owns nothing and then makes it FREE. -/
  | tenantDestroy
  /-- TENANT_RESET (R427): PART.TENANT_CTRL.RESET stops the tenant's fetch and chunk starts and drains its outstanding work. -/
  | tenantReset
  /-- FLR_VF (R427): An FLR of a tenant's VF starts a tenant reset. -/
  | flrVf (vf : Nat)
  /-- RESET_DRAIN_EXPIRY (R430): A drain exceeding RESET_DRAIN Strokes ends remaining descriptors ABORTED_FAULT with RESET_TIMEOUT. -/
  | resetDrainExpiry (tid : Nat)
  /-- KEY_LOAD (R417): PART.KEY_CTRL.LOAD loads the tenant's AES-256-XTS key or refuses it, then zeroes KEY_DATA. -/
  | keyLoad
  /-- KEY_CLEAR (R420): PART.KEY_CTRL.CLEAR clears a tenant key when no protected data or action needs it. -/
  | keyClear
  /-- DOMAIN_STOP (R441): CLK.DOMAIN_CTRL.STOP turns a stoppable domain OFF when its condition holds. -/
  | domainStop
  /-- DOMAIN_START (R441): CLK.DOMAIN_CTRL.START relocks an OFF domain's PLL. -/
  | domainStart
  /-- DOMAIN_RUNNING (R441): A started domain reaches RUNNING within 25 µs. -/
  | domainRunning (domain : Nat)
  /-- ISOLATE (R444): Setting or clearing CLK.DOMAIN_CTRL.ISOLATE clamps or releases a domain's crossing outputs and inputs. -/
  | isolate (set : Bool)
  /-- DOMAIN_RESET (R444): Setting or clearing CLK.DOMAIN_CTRL.RESET resets or releases the selected domain's logic. -/
  | domainReset (set : Bool)
  /-- XING_RESET (R444): Setting or clearing CLK.DOMAIN_CTRL.XING_RESET resets or releases both ends of the domain's crossings. -/
  | xingReset (set : Bool)
  /-- FLASH_GATE (R440): The flash domain enters GATED after IDLE_US with nothing outstanding. -/
  | flashGate
  /-- CROSSING_OVERRUN (R443): A crossing that can overrun loses an item and sets its overrun bit. -/
  | crossingOverrun (crossing : Nat)
  /-- SYS_CHECKIN (R450): A control core's check-in to the system watchdog is accepted, serves the period, or causes an expiry. -/
  | sysCheckin (task seq : Nat)
  /-- HOST_CHECKIN (R450): A write of WDOG.HOST_CHECKIN is accepted, serves the period, or causes an expiry. -/
  | hostCheckin (val : Word)
  /-- HOST_DISABLE (R455): The two-write key sequence to WDOG.HOST_DISABLE disables the host-liveness watchdog unless locked. -/
  | hostDisable (key : Word)
  /-- HOST_ENABLE (R454): WDOG.HOST_CTRL.ENABLE starts the host-liveness watchdog's first period. -/
  | hostEnable
  /-- WATCHDOG_TIMEOUT (R451): A watchdog period ends with an enabled task missing. -/
  | watchdogTimeout (host : Bool)
  /-- CLOCK_STOP_CHECK (R458): Every 8 ticks the monitor checks running clocks and declares a stop as a system watchdog expiry. -/
  | clockStopCheck (stopped : List Nat)
  /-- XTAL_FAIL (R459): A crystal silent for 64 RC cycles moves the always-on domain to the RC oscillator. -/
  | xtalFail
  /-- QUIESCE_LIMIT_EXPIRY (R461): An ACTION 1 power-down that reaches QUIESCE_LIMIT proceeds to the trap and crash save. -/
  | quiesceLimitExpiry
  /-- CRASH_DONE (R462): The trap handler's CRASH_DONE write makes the card write the crash header and reset. -/
  | crashDone (log : List Byte)
  /-- GRACE_EXPIRY (R462): The grace timer ends, the crash header is written and the card performs a whole-card reset. -/
  | graceExpiry
  /-- STACK_FAILURE (R472): A DRAM stack fails, its frames take the fates of Table 20-3 and DRAM capacity falls. -/
  | stackFailure (stack : Nat)
  /-- TABLE_REBUILD_DONE (R471): The rebuild of a failed stack's table copies onto a surviving stack ends. -/
  | tableRebuildDone (stack : Nat)
  /-- UNIT_FAULT (R474): An uncorrectable unit error ends the chunk on the unit and retires the unit. -/
  | unitFault (unit : RetireUnit) (index : Nat) (work chunk : Nat)
  /-- SEQ_PROBE (R476): ERR.SEQ_PROBE_CTRL.GO reports a sequence's state, length and absent pages within one Stroke. -/
  | seqProbe
  /-- OBS_START (R479): ERR.OBS_CTRL.START opens the observation window at the next boundary. -/
  | obsStart
  /-- OBS_STOP (R479): ERR.OBS_CTRL.STOP closes or cancels the observation window. -/
  | obsStop
  /-- OBS_ARM (R479): ERR.OBS_CTRL.ARM arms a window over the Strokes OBS_START to OBS_END. -/
  | obsArm
  /-- THERMAL_SAMPLE (R500): Every 1 ms the sensors are read, setting warnings or causing a thermal trip. -/
  | thermalSample (temps : List Int) (vin pin : List Nat)
  /-- SET_OFFSET (R514): The SMBus SET_OFFSET command sets the read offset. -/
  | setOffset (off : Nat)
  /-- READ_DWORD (R515): The SMBus READ_DWORD command returns an allowed register and advances the offset. -/
  | readDword
  /-- TELEMETRY (R515): The SMBus TELEMETRY command returns the 32-byte telemetry block. -/
  | telemetry
  /-- CASCADE_DOWN (R248): The sideband cascade ring breaks, for example when a cascade card is powered off or its cable is unplugged, CASCADE_UP clears and cascade namespaces are searched locally with CASCADE_DOWN. -/
  | cascadeDown
  /-- FEC_DEGRADED (R372): Corrected FEC symbols on an Ethernet-mode port exceed FEC_LIMIT per 10^6 Strokes and the card raises FEC_DEGRADED on the event rings. -/
  | fecDegraded (port count : Nat)
  deriving DecidableEq, Repr

end Sys2Proof
end

