-- ==== Sys2Proof/Machine/Crypto.lean ====
section
/-! DEFINITION. The public algorithms the spec names: CRC-32C (RFC 3720, R73), SHA-256 (the search keys of chapter 10)
and SHA-384 (R71), on lists of bytes. -/

namespace Sys2Proof.Machine

/-- One bit of the reflected CRC-32C register (polynomial 0x1EDC6F41, RFC 3720). -/
def crc32cBit (r : BitVec 32) : BitVec 32 :=
  if r.getLsbD 0 then (r >>> 1) ^^^ 0x82F63B78#32 else r >>> 1

/-- One byte taken into the CRC-32C register. -/
def crc32cByte (r : BitVec 32) (b : Byte) : BitVec 32 :=
  let r0 := r ^^^ (b.zeroExtend 32)
  crc32cBit (crc32cBit (crc32cBit (crc32cBit (crc32cBit (crc32cBit (crc32cBit (crc32cBit r0)))))))

/-- CRC-32C of a list of bytes (RFC 3720). -/
def crc32c (bs : List Byte) : BitVec 32 := ~~~ (bs.foldl crc32cByte 0xFFFFFFFF#32)

/-- `n` bytes of zero. -/
def zeros (n : Nat) : List Byte := List.replicate n 0#8

/-- The big-endian bytes of a natural, `n` of them. -/
def beBytes (n : Nat) (x : Nat) : List Byte := (List.range n).map fun i => BitVec.ofNat 8 (x / 256 ^ (n - 1 - i))

/-- The natural a list of bytes spells, big-endian. -/
def beNat (bs : List Byte) : Nat := bs.foldl (fun a b => a * 256 + b.toNat) 0

/-- The `i`-th element of a list of words, zero beyond its end. -/
def wAt {w : Nat} (l : List (BitVec w)) (i : Nat) : BitVec w := l.getD i 0#w

/-- Message padding of SHA-2: 0x80, zeros, the bit length, to a multiple of `block` bytes with `lenBytes` of length. -/
def shaPad (block lenBytes : Nat) (m : List Byte) : List Byte :=
  let r := (m.length + 1 + lenBytes) % block
  m ++ [0x80#8] ++ zeros (if r = 0 then 0 else block - r) ++ beBytes lenBytes (8 * m.length)

/-- A list cut into pieces of `n`, `k` of them. -/
def pieces {α : Type} (n : Nat) : Nat → List α → List (List α)
  | 0, _ => []
  | k + 1, l => l.take n :: pieces n k (l.drop n)

/-- Round constants of SHA-256. -/
def sha256K : List (BitVec 32) :=
  [0x428a2f98#32, 0x71374491#32, 0xb5c0fbcf#32, 0xe9b5dba5#32, 0x3956c25b#32, 0x59f111f1#32, 0x923f82a4#32, 0xab1c5ed5#32, 0xd807aa98#32, 0x12835b01#32, 0x243185be#32, 0x550c7dc3#32, 0x72be5d74#32, 0x80deb1fe#32, 0x9bdc06a7#32, 0xc19bf174#32] ++
  [0xe49b69c1#32, 0xefbe4786#32, 0x0fc19dc6#32, 0x240ca1cc#32, 0x2de92c6f#32, 0x4a7484aa#32, 0x5cb0a9dc#32, 0x76f988da#32, 0x983e5152#32, 0xa831c66d#32, 0xb00327c8#32, 0xbf597fc7#32, 0xc6e00bf3#32, 0xd5a79147#32, 0x06ca6351#32, 0x14292967#32] ++
  [0x27b70a85#32, 0x2e1b2138#32, 0x4d2c6dfc#32, 0x53380d13#32, 0x650a7354#32, 0x766a0abb#32, 0x81c2c92e#32, 0x92722c85#32, 0xa2bfe8a1#32, 0xa81a664b#32, 0xc24b8b70#32, 0xc76c51a3#32, 0xd192e819#32, 0xd6990624#32, 0xf40e3585#32, 0x106aa070#32] ++
  [0x19a4c116#32, 0x1e376c08#32, 0x2748774c#32, 0x34b0bcb5#32, 0x391c0cb3#32, 0x4ed8aa4a#32, 0x5b9cca4f#32, 0x682e6ff3#32, 0x748f82ee#32, 0x78a5636f#32, 0x84c87814#32, 0x8cc70208#32, 0x90befffa#32, 0xa4506ceb#32, 0xbef9a3f7#32, 0xc67178f2#32]

/-- Initial hash value of SHA-256. -/
def sha256H0 : List (BitVec 32) :=
  [0x6a09e667#32, 0xbb67ae85#32, 0x3c6ef372#32, 0xa54ff53a#32, 0x510e527f#32, 0x9b05688c#32, 0x1f83d9ab#32, 0x5be0cd19#32]

/-- Round constants of SHA-384 and SHA-512. -/
def sha512K : List (BitVec 64) :=
  [0x428a2f98d728ae22#64, 0x7137449123ef65cd#64, 0xb5c0fbcfec4d3b2f#64, 0xe9b5dba58189dbbc#64, 0x3956c25bf348b538#64, 0x59f111f1b605d019#64, 0x923f82a4af194f9b#64, 0xab1c5ed5da6d8118#64, 0xd807aa98a3030242#64, 0x12835b0145706fbe#64, 0x243185be4ee4b28c#64, 0x550c7dc3d5ffb4e2#64, 0x72be5d74f27b896f#64, 0x80deb1fe3b1696b1#64, 0x9bdc06a725c71235#64, 0xc19bf174cf692694#64] ++
  [0xe49b69c19ef14ad2#64, 0xefbe4786384f25e3#64, 0x0fc19dc68b8cd5b5#64, 0x240ca1cc77ac9c65#64, 0x2de92c6f592b0275#64, 0x4a7484aa6ea6e483#64, 0x5cb0a9dcbd41fbd4#64, 0x76f988da831153b5#64, 0x983e5152ee66dfab#64, 0xa831c66d2db43210#64, 0xb00327c898fb213f#64, 0xbf597fc7beef0ee4#64, 0xc6e00bf33da88fc2#64, 0xd5a79147930aa725#64, 0x06ca6351e003826f#64, 0x142929670a0e6e70#64] ++
  [0x27b70a8546d22ffc#64, 0x2e1b21385c26c926#64, 0x4d2c6dfc5ac42aed#64, 0x53380d139d95b3df#64, 0x650a73548baf63de#64, 0x766a0abb3c77b2a8#64, 0x81c2c92e47edaee6#64, 0x92722c851482353b#64, 0xa2bfe8a14cf10364#64, 0xa81a664bbc423001#64, 0xc24b8b70d0f89791#64, 0xc76c51a30654be30#64, 0xd192e819d6ef5218#64, 0xd69906245565a910#64, 0xf40e35855771202a#64, 0x106aa07032bbd1b8#64] ++
  [0x19a4c116b8d2d0c8#64, 0x1e376c085141ab53#64, 0x2748774cdf8eeb99#64, 0x34b0bcb5e19b48a8#64, 0x391c0cb3c5c95a63#64, 0x4ed8aa4ae3418acb#64, 0x5b9cca4f7763e373#64, 0x682e6ff3d6b2b8a3#64, 0x748f82ee5defb2fc#64, 0x78a5636f43172f60#64, 0x84c87814a1f0ab72#64, 0x8cc702081a6439ec#64, 0x90befffa23631e28#64, 0xa4506cebde82bde9#64, 0xbef9a3f7b2c67915#64, 0xc67178f2e372532b#64] ++
  [0xca273eceea26619c#64, 0xd186b8c721c0c207#64, 0xeada7dd6cde0eb1e#64, 0xf57d4f7fee6ed178#64, 0x06f067aa72176fba#64, 0x0a637dc5a2c898a6#64, 0x113f9804bef90dae#64, 0x1b710b35131c471b#64, 0x28db77f523047d84#64, 0x32caab7b40c72493#64, 0x3c9ebe0a15c9bebc#64, 0x431d67c49c100d4c#64, 0x4cc5d4becb3e42b6#64, 0x597f299cfc657e2a#64, 0x5fcb6fab3ad6faec#64, 0x6c44198c4a475817#64]

/-- Initial hash value of SHA-384. -/
def sha384H0 : List (BitVec 64) :=
  [0xcbbb9d5dc1059ed8#64, 0x629a292a367cd507#64, 0x9159015a3070dd17#64, 0x152fecd8f70e5939#64, 0x67332667ffc00b31#64, 0x8eb44a8768581511#64, 0xdb0c2e0d64f98fa7#64, 0x47b5481dbefa4fa4#64]

/-- The message schedule, newest word first, extended `n` times (sha256). -/
def sha256Sched : Nat → List (BitVec 32) → List (BitVec 32)
  | 0, l => l
  | n + 1, l =>
    let x := wAt l 14
    let y := wAt l 1
    let s0 := x.rotateRight 7 ^^^ x.rotateRight 18 ^^^ x >>> 3
    let s1 := y.rotateRight 17 ^^^ y.rotateRight 19 ^^^ y >>> 10
    sha256Sched n ((wAt l 15 + s0 + wAt l 6 + s1) :: l)

/-- One round on the eight working words (sha256). -/
def sha256Round (h : List (BitVec 32)) (kw : BitVec 32 × BitVec 32) : List (BitVec 32) :=
  let a := wAt h 0
  let e := wAt h 4
  let ch := (e &&& wAt h 5) ^^^ (~~~ e &&& wAt h 6)
  let maj := (a &&& wAt h 1) ^^^ (a &&& wAt h 2) ^^^ (wAt h 1 &&& wAt h 2)
  let t1 := wAt h 7 + (e.rotateRight 6 ^^^ e.rotateRight 11 ^^^ e.rotateRight 25) + ch + kw.1 + kw.2
  let t2 := (a.rotateRight 2 ^^^ a.rotateRight 13 ^^^ a.rotateRight 22) + maj
  [t1 + t2, a, wAt h 1, wAt h 2, wAt h 3 + t1, e, wAt h 5, wAt h 6]

/-- One block (sha256). -/
def sha256Block (h : List (BitVec 32)) (blk : List Byte) : List (BitVec 32) :=
  let ws := (pieces 4 16 blk).map fun b => BitVec.ofNat 32 (beNat b)
  let sched := (sha256Sched 48 ws.reverse).reverse
  let h' := (List.zip sha256K sched).foldl sha256Round h
  List.zipWith (· + ·) h h'

/-- SHA256 digest: 32 bytes. -/
def sha256 (m : List Byte) : List Byte :=
  let p := shaPad 64 8 m
  let h := (pieces 64 (p.length / 64) p).foldl sha256Block sha256H0
  (h.flatMap fun x => beBytes 4 x.toNat).take 32

/-- The message schedule, newest word first, extended `n` times (sha384). -/
def sha384Sched : Nat → List (BitVec 64) → List (BitVec 64)
  | 0, l => l
  | n + 1, l =>
    let x := wAt l 14
    let y := wAt l 1
    let s0 := x.rotateRight 1 ^^^ x.rotateRight 8 ^^^ x >>> 7
    let s1 := y.rotateRight 19 ^^^ y.rotateRight 61 ^^^ y >>> 6
    sha384Sched n ((wAt l 15 + s0 + wAt l 6 + s1) :: l)

/-- One round on the eight working words (sha384). -/
def sha384Round (h : List (BitVec 64)) (kw : BitVec 64 × BitVec 64) : List (BitVec 64) :=
  let a := wAt h 0
  let e := wAt h 4
  let ch := (e &&& wAt h 5) ^^^ (~~~ e &&& wAt h 6)
  let maj := (a &&& wAt h 1) ^^^ (a &&& wAt h 2) ^^^ (wAt h 1 &&& wAt h 2)
  let t1 := wAt h 7 + (e.rotateRight 14 ^^^ e.rotateRight 18 ^^^ e.rotateRight 41) + ch + kw.1 + kw.2
  let t2 := (a.rotateRight 28 ^^^ a.rotateRight 34 ^^^ a.rotateRight 39) + maj
  [t1 + t2, a, wAt h 1, wAt h 2, wAt h 3 + t1, e, wAt h 5, wAt h 6]

/-- One block (sha384). -/
def sha384Block (h : List (BitVec 64)) (blk : List Byte) : List (BitVec 64) :=
  let ws := (pieces 8 16 blk).map fun b => BitVec.ofNat 64 (beNat b)
  let sched := (sha384Sched 64 ws.reverse).reverse
  let h' := (List.zip sha512K sched).foldl sha384Round h
  List.zipWith (· + ·) h h'

/-- SHA384 digest: 48 bytes. -/
def sha384 (m : List Byte) : List Byte :=
  let p := shaPad 128 16 m
  let h := (pieces 128 (p.length / 128) p).foldl sha384Block sha384H0
  (h.flatMap fun x => beBytes 8 x.toNat).take 48

end Sys2Proof.Machine
end

