-- ==== Sys2Proof/Config.lean ====
section
/-! DEFINITION. What an implementation fixes (fuses, ROM keys) and the free values: constants and functions without a
body, so that nothing can evaluate them or prove a value of them. -/

namespace Sys2Proof.Config

/-- SYS.REVISION.STEPPING, fused: 0 A0, 1 A1, 2 B0 (Table 21-20). -/
opaque stepping : Nat

/-- SYS.REVISION.ROM_KEYS_REVOKED, fused: bits 3:0 the image keys, bits 5:4 the maker keys (Table 21-20). -/
opaque romKeysRevoked : Nat

/-- SYS.REVISION.ROM_VERSION, fixed by the boot ROM (Table 21-20). -/
opaque romVersion : Nat

/-- WDOG.FUSE_INFO.WINDOW_LOG2, fused (Table 19-5). -/
opaque windowLog2 : Nat

/-- The fused 16-byte unique ID, by byte (R103, Table 21-20). -/
opaque uniqueId : Nat → Byte

/-- Byte of the boot ROM's Hywajan image key of an index, a P-384 point x then y (Table 4-5). The ROM keys are no part of the spec. -/
opaque imageKeyByte : Nat → Nat → Byte

/-- Byte of the boot ROM's maker key of an index, 0 or 1, a P-384 point x then y (R103). -/
opaque makerKeyByte : Nat → Nat → Byte

/-- The `n`-th fresh 32-byte random nonce, by byte (R103). -/
opaque nonceByte : Nat → Nat → Byte

/-- The action code in SUBJECT of a maker session's audit entry, by happening: 0 opened, 1 closed, 2 refused (Table 5-4
gives the field and not its values). -/
opaque sessionCode : Nat → Nat

/-- The word of ENG.PROG_INFO that a microcode payload's program of an index shows, programs 1 to 31 (R296). -/
opaque progInfo : List Byte → Nat → Word

/-- PROG_USER_ID of a microcode payload's program of an index, programs 1 to 31 (R297). -/
opaque progUserId : List Byte → Nat → Word

/-- What a core holds at the `n`-th trap, by core and byte of its record (Table 19-4): the spec gives no core a state. -/
opaque coreRecord : Nat → Nat → Nat → Byte

/-- The bits of a NaN that FP32 work produces after an overflow: the spec states none. -/
opaque nan32 : BitVec 32

/-- Units in the last place by which the card's exponential of an FP32 differs from the rounded exact one, taken modulo 5, less 2
(R288: accurate to 2 ulp). -/
opaque expUlp : BitVec 32 → Nat

/-- Pages (16 KiB) of an erase block, less one: the spec gives no size of an erase block. -/
opaque blockNandPages : Nat

/-- Channel group of a NAND page, by its address in 16 KiB units, taken modulo 16 (R192: the placement is the card's). -/
opaque nandGroup : Nat → Nat

/-- Die within its group of a NAND page, taken modulo 18 (R192). -/
opaque nandDie : Nat → Nat

/-- Place in its group's stripes of a log page's copy, by sector and group, taken modulo 16 (R210; the spec does not place it). -/
opaque logDie : Nat → Nat → Nat

/-- Place in its group's stripes of an anchor slot's erase block, by slot, taken modulo 16 (R216; the spec names the group only). -/
opaque anchorDie : Nat → Nat

/-- Stack of a DRAM frame, taken modulo 8: the spec does not place frames on stacks. -/
opaque frameStack : Nat → Nat

/-- Stack on which a swap-cache page lies, by its pool page key, taken modulo 8: the spec does not place them. -/
opaque swapStack : Nat → Nat

/-- Which of the walk cache's leaves a full cache drops, by the count of free values taken (R157 gives no policy). -/
opaque walkVictim : Nat → Nat

/-- Which of the directory cache's entries a full cache drops, by the count of free values taken (R157 gives no policy). -/
opaque dirVictim : Nat → Nat

/-- Card DRAM address of a table in 4 KiB units, by tenant, tree, level and number: bits 50:12 of the entry that points to it (R154, R164;
the spec does not place tables). -/
opaque tableAddr : Nat → Nat → Nat → Nat → Nat

/-- Index of a page's share record, FRAME of the leaves that point to it (R155; the spec does not place records). -/
opaque recordIndex : Nat → Nat

/-- Which sub-streams of a page that came from flash fail the checks of R275, by the count of free values taken: a mask of 16 bits (the
command says only that some do). -/
opaque badSubs : Nat → Nat

/-- The free DRAM frame that a chunk takes, by the count of free values taken: an index into the free frames (R155). -/
opaque frameChoice : Nat → Nat

/-- Word `k` of the triple (m, S, V[0] upward) that a program other than 0 computes of a page (R296: its arithmetic is in its release
notes), as a function of what R289 lets it depend on: [PROG_INFO with the program's version, program, Q_FORMAT, query heads per KV head,
FIRST_QHEAD, head index, SCALE], the constant set, the page's header and payload, the query row, the attended positions with their biases,
`k`. -/
opaque progWord : List Nat → List Byte → List Byte → List Word → List (Nat × Word) → Nat → BitVec 32

/-- WIN_RDATA of a slot design that a BAR0 read finds, by the count of free values taken (R316: the word is the design's). -/
opaque winData : Nat → Word

/-- Byte of a slot's block memory as its image initialised it and as its design then left it, by the image's stamp and address (R304: the
contents are the design's). -/
opaque blockByte : Nat → Nat → Byte

/-- The reading of the card's nanosecond clock when it is read, by the count of free values taken (R338: the model holds no time). -/
opaque nanoTime : Nat → Nat

/-- A byte whose content the spec leaves undefined, by the count of free values taken and its place. -/
opaque undefByte : Nat → Nat → BitVec 8

/-- The directory set of a pool line, taken modulo 2^20 (R388: the spec does not place lines in sets). -/
opaque dirSet : Nat → Nat

/-- The one UDP source port of a standard QP (R365). -/
opaque udpPort : Nat → Nat

/-- Bytes of a QP that the inbound buffer may still hold at a packet's arrival, by the count of free values taken and QP (R364: the spec does not
say when the buffer drains). -/
opaque stillHeld : Nat → Nat → Nat

/-- Whether a member that acknowledged a COMMIT had its epoch at e already, by the count of free values taken (R346: no frame says so). -/
opaque alreadyAt : Nat → Bool

/-- Whether the source's page of a target page was read as UNWRITTEN by a MOVE or COPY, by the count of free values taken, target sequence
and page (R344: nothing is sent for it). -/
opaque sourceUnwritten : Nat → Nat → Nat → Bool

end Sys2Proof.Config
end

