-- ==== Sys2Proof/Machine/Regs.lean ====
section
/-! DEFINITION. The register map of chapter 21 (R481 to R490) with the field tables of every chapter: for each
register its BAR0 offset, how many consecutive words it has, the SELECT register that chooses its instance, and each
field's place, access code (Table 0-2, R9) and value after power-up. The names are the spec's: `BLOCK.REGISTER.FIELD`
(R5) is the field, `BLOCK.REGISTER.off` the offset. -/

namespace Sys2Proof.Machine

/-- Access codes of Table 0-2 (R9). -/
inductive Acc where
  | ro | rw | wo | w1c | w1s | rwl
  deriving DecidableEq, Repr

/-- One field of a register, where it lies: BAR0 offset of its word, lowest bit, width (R4, R5). -/
structure Fld where
  off : Nat
  lo  : Nat
  w   : Nat
  deriving DecidableEq, Repr

/-- One field's row of a register table: place, access code and value after power-up. -/
structure FieldRow where
  lo  : Nat
  w   : Nat
  acc : Acc
  rst : Nat
  deriving DecidableEq, Repr

/-- One register's row: offset, consecutive words, governing SELECT register's offset (Sel. of the block maps). -/
structure RegRow where
  off    : Nat
  words  : Nat
  sel    : Option Nat
  fields : List FieldRow
  deriving DecidableEq, Repr

/-- The `i`-th word of a register held in several words (R489). -/
def Fld.word (f : Fld) (i : Nat) : Fld := { f with off := f.off + 4 * i }

abbrev SYS.IDENTITY.off : Nat := 0x000000
abbrev SYS.IDENTITY.FAMILY : Fld := ⟨0x000000, 0, 12⟩
abbrev SYS.IDENTITY.DIE_CODE : Fld := ⟨0x000000, 12, 8⟩
abbrev SYS.REVISION.off : Nat := 0x000004
abbrev SYS.REVISION.STEPPING : Fld := ⟨0x000004, 0, 3⟩
abbrev SYS.REVISION.ROM_KEYS_REVOKED : Fld := ⟨0x000004, 8, 8⟩
abbrev SYS.REVISION.ROM_VERSION : Fld := ⟨0x000004, 16, 16⟩
abbrev SYS.UNIQUE_ID.off : Nat := 0x000008
abbrev SYS.UNIQUE_ID.ID : Fld := ⟨0x000008, 0, 32⟩
abbrev SYS.FW_VERSION.off : Nat := 0x000018
abbrev SYS.FW_VERSION.VERSION : Fld := ⟨0x000018, 0, 32⟩
abbrev SYS.UCODE_VERSION.off : Nat := 0x00001C
abbrev SYS.UCODE_VERSION.VERSION : Fld := ⟨0x00001C, 0, 32⟩
abbrev SYS.SHELL_VERSION.off : Nat := 0x000020
abbrev SYS.SHELL_VERSION.VERSION : Fld := ⟨0x000020, 0, 32⟩
abbrev SYS.BRINGUP_PHASE.off : Nat := 0x000040
abbrev SYS.BRINGUP_PHASE.PHASE : Fld := ⟨0x000040, 0, 4⟩
abbrev SYS.BRINGUP_CTRL.off : Nat := 0x000044
abbrev SYS.BRINGUP_CTRL.RELEASE : Fld := ⟨0x000044, 0, 1⟩
abbrev SYS.BRINGUP_STATUS.off : Nat := 0x000048
abbrev SYS.BRINGUP_STATUS.RELEASE_REFUSED : Fld := ⟨0x000048, 0, 1⟩
abbrev SYS.BRINGUP_STATUS.REFUSE_CAUSE : Fld := ⟨0x000048, 1, 3⟩
abbrev SYS.RESET_CAUSE.off : Nat := 0x00004C
abbrev SYS.RESET_CAUSE.CAUSE : Fld := ⟨0x00004C, 0, 6⟩
abbrev SYS.DRAM_STATUS.off : Nat := 0x000050
abbrev SYS.DRAM_STATUS.TRAINED : Fld := ⟨0x000050, 0, 8⟩
abbrev SYS.DRAM_STATUS.FAILED : Fld := ⟨0x000050, 8, 8⟩
abbrev SYS.STROKE_COUNT_LO.off : Nat := 0x000100
abbrev SYS.STROKE_COUNT_LO.COUNT_LO : Fld := ⟨0x000100, 0, 32⟩
abbrev SYS.STROKE_COUNT_HI.off : Nat := 0x000104
abbrev SYS.STROKE_COUNT_HI.COUNT_HI : Fld := ⟨0x000104, 0, 16⟩
abbrev SYS.STROKE_PERIOD.off : Nat := 0x000108
abbrev SYS.STROKE_PERIOD.PERIOD_US : Fld := ⟨0x000108, 0, 7⟩
abbrev SYS.STROKE_PERIOD.NEXT_US : Fld := ⟨0x000108, 8, 7⟩
abbrev SYS.STROKE_TARGET_LO.off : Nat := 0x00010C
abbrev SYS.STROKE_TARGET_LO.TARGET : Fld := ⟨0x00010C, 0, 32⟩
abbrev SYS.STROKE_TARGET_HI.off : Nat := 0x000110
abbrev SYS.STROKE_TARGET_HI.TARGET : Fld := ⟨0x000110, 0, 16⟩
abbrev SYS.STROKE_CTRL.off : Nat := 0x000114
abbrev SYS.STROKE_CTRL.ARM_PERIOD : Fld := ⟨0x000114, 0, 1⟩
abbrev SYS.STROKE_CTRL.PRESET : Fld := ⟨0x000114, 1, 1⟩
abbrev SYS.STROKE_STATUS.off : Nat := 0x000118
abbrev SYS.STROKE_STATUS.ARMED : Fld := ⟨0x000118, 0, 1⟩
abbrev SYS.STROKE_STATUS.SWITCH_LATE : Fld := ⟨0x000118, 1, 1⟩
abbrev SYS.STROKE_STATUS.REFUSED : Fld := ⟨0x000118, 2, 1⟩
abbrev SYS.STROKE_STATUS.LOCKED : Fld := ⟨0x000118, 3, 1⟩
abbrev SYS.STROKE_STATUS.PACER : Fld := ⟨0x000118, 4, 1⟩
abbrev SYS.STROKE_STATUS.HALTED : Fld := ⟨0x000118, 5, 1⟩
abbrev SYS.STROKE_STATUS.OFFSET_NS : Fld := ⟨0x000118, 16, 16⟩
abbrev SYS.EMPTY_WINDOW_COUNT.off : Nat := 0x00011C
abbrev SYS.EMPTY_WINDOW_COUNT.COUNT : Fld := ⟨0x00011C, 0, 32⟩
abbrev ROLE.MAKER_LOCK.off : Nat := 0x010000
abbrev ROLE.MAKER_LOCK.LOCK : Fld := ⟨0x010000, 0, 1⟩
abbrev ROLE.MAKER_STATUS.off : Nat := 0x010004
abbrev ROLE.MAKER_STATUS.SESSION : Fld := ⟨0x010004, 0, 1⟩
abbrev ROLE.MAKER_STATUS.SCOPE : Fld := ⟨0x010004, 1, 3⟩
abbrev ROLE.MAKER_STATUS.FAILS : Fld := ⟨0x010004, 4, 2⟩
abbrev ROLE.MAKER_STATUS.REFUSING : Fld := ⟨0x010004, 6, 1⟩
abbrev ROLE.AUDIT_BASE_LO.off : Nat := 0x010010
abbrev ROLE.AUDIT_BASE_LO.ADDR : Fld := ⟨0x010010, 0, 32⟩
abbrev ROLE.AUDIT_BASE_HI.off : Nat := 0x010014
abbrev ROLE.AUDIT_BASE_HI.ADDR : Fld := ⟨0x010014, 0, 32⟩
abbrev ROLE.AUDIT_CTRL.off : Nat := 0x010018
abbrev ROLE.AUDIT_CTRL.ENTRIES_LOG2 : Fld := ⟨0x010018, 0, 4⟩
abbrev ROLE.AUDIT_CTRL.ENABLE : Fld := ⟨0x010018, 8, 1⟩
abbrev ROLE.AUDIT_CTRL.VECTOR : Fld := ⟨0x010018, 16, 11⟩
abbrev ROLE.AUDIT_THRESHOLD.off : Nat := 0x01001C
abbrev ROLE.AUDIT_THRESHOLD.ENTRIES : Fld := ⟨0x01001C, 0, 13⟩
abbrev ROLE.AUDIT_HEAD.off : Nat := 0x010020
abbrev ROLE.AUDIT_HEAD.COUNT : Fld := ⟨0x010020, 0, 32⟩
abbrev ROLE.AUDIT_TAIL.off : Nat := 0x010024
abbrev ROLE.AUDIT_TAIL.COUNT : Fld := ⟨0x010024, 0, 32⟩
abbrev ROLE.AUDIT_STATUS.off : Nat := 0x010028
abbrev ROLE.AUDIT_STATUS.OVERFLOW : Fld := ⟨0x010028, 0, 1⟩
abbrev ROLE.AUDIT_STATUS.HELD : Fld := ⟨0x010028, 8, 7⟩
abbrev ROLE.AUDIT_DROPPED.off : Nat := 0x01002C
abbrev ROLE.AUDIT_DROPPED.COUNT : Fld := ⟨0x01002C, 0, 32⟩
abbrev ROLE.AUDIT_POLICY.off : Nat := 0x010030
abbrev ROLE.AUDIT_POLICY.STRICT : Fld := ⟨0x010030, 0, 1⟩
abbrev ROLE.AUDIT_POLICY.LOCK : Fld := ⟨0x010030, 31, 1⟩
abbrev ROLE.UNBOUND_DOORBELL_COUNT.off : Nat := 0x010040
abbrev ROLE.UNBOUND_DOORBELL_COUNT.COUNT : Fld := ⟨0x010040, 0, 32⟩
abbrev ROLE.ILLEGAL_COUNT.off : Nat := 0x010044
abbrev ROLE.ILLEGAL_COUNT.COUNT : Fld := ⟨0x010044, 0, 32⟩
abbrev ROLE.ILLEGAL_INFO.off : Nat := 0x010048
abbrev ROLE.ILLEGAL_INFO.VALID : Fld := ⟨0x010048, 0, 1⟩
abbrev ROLE.ILLEGAL_INFO.PATH : Fld := ⟨0x010048, 1, 3⟩
abbrev ROLE.ILLEGAL_INFO.CAUSE : Fld := ⟨0x010048, 8, 4⟩
abbrev ROLE.ILLEGAL_OFFSET.off : Nat := 0x01004C
abbrev ROLE.ILLEGAL_OFFSET.OFFSET : Fld := ⟨0x01004C, 0, 24⟩
abbrev ROLE.ILLEGAL_VALUE.off : Nat := 0x010050
abbrev ROLE.ILLEGAL_VALUE.VALUE : Fld := ⟨0x010050, 0, 32⟩
abbrev ROLE.ILLEGAL_STROKE_LO.off : Nat := 0x010054
abbrev ROLE.ILLEGAL_STROKE_LO.STROKE : Fld := ⟨0x010054, 0, 32⟩
abbrev ROLE.ILLEGAL_STROKE_HI.off : Nat := 0x010058
abbrev ROLE.ILLEGAL_STROKE_HI.STROKE : Fld := ⟨0x010058, 0, 16⟩
abbrev IMG.LOAD_CTRL.off : Nat := 0x020000
abbrev IMG.LOAD_CTRL.SLOT : Fld := ⟨0x020000, 0, 3⟩
abbrev IMG.LOAD_CTRL.MANUAL_RECOUPLE : Fld := ⟨0x020000, 8, 1⟩
abbrev IMG.LOAD_CMD.off : Nat := 0x020004
abbrev IMG.LOAD_CMD.ABORT : Fld := ⟨0x020004, 0, 1⟩
abbrev IMG.LOAD_CMD.RECOUPLE : Fld := ⟨0x020004, 1, 1⟩
abbrev IMG.LOAD_STATE.off : Nat := 0x020008
abbrev IMG.LOAD_STATE.STATE : Fld := ⟨0x020008, 0, 4⟩
abbrev IMG.LOAD_STATE.PORT : Fld := ⟨0x020008, 4, 2⟩
abbrev IMG.LOAD_STATE.REJECT_CAUSE : Fld := ⟨0x020008, 8, 8⟩
abbrev IMG.LOAD_STATE.KIND : Fld := ⟨0x020008, 16, 8⟩
abbrev IMG.FRAME_COUNT.off : Nat := 0x02000C
abbrev IMG.FRAME_COUNT.COUNT : Fld := ⟨0x02000C, 0, 32⟩
abbrev IMG.FRAMES_ACCEPTED.off : Nat := 0x020010
abbrev IMG.FRAMES_ACCEPTED.COUNT : Fld := ⟨0x020010, 0, 32⟩
abbrev IMG.MISSING_CURSOR.off : Nat := 0x020014
abbrev IMG.MISSING_CURSOR.CURSOR : Fld := ⟨0x020014, 0, 32⟩
abbrev IMG.MISSING_NEXT.off : Nat := 0x020018
abbrev IMG.MISSING_NEXT.FRAME : Fld := ⟨0x020018, 0, 32⟩
abbrev IMG.SLOT_STATE.off : Nat := 0x02001C
abbrev IMG.SLOT_STATE.STATE_n : Fld := ⟨0x02001C, 0, 32⟩
abbrev IMG.SHELL_ID.off : Nat := 0x020020
abbrev IMG.SHELL_ID.ID : Fld := ⟨0x020020, 0, 32⟩
abbrev IMG.POLICY.off : Nat := 0x020030
abbrev IMG.POLICY.REQUIRE_COUNTERSIGN : Fld := ⟨0x020030, 0, 1⟩
abbrev IMG.POLICY.SERIAL_DISABLE : Fld := ⟨0x020030, 1, 1⟩
abbrev IMG.POLICY.BAR2_DISABLE : Fld := ⟨0x020030, 2, 1⟩
abbrev IMG.POLICY.LOCK : Fld := ⟨0x020030, 31, 1⟩
abbrev IMG.INSTALLER_KEY.off : Nat := 0x020040
abbrev IMG.INSTALLER_KEY.KEY : Fld := ⟨0x020040, 0, 32⟩
abbrev IMG.MIN_VERSION_FW.off : Nat := 0x0200A0
abbrev IMG.MIN_VERSION_FW.VERSION : Fld := ⟨0x0200A0, 0, 32⟩
abbrev IMG.MIN_VERSION_UCODE.off : Nat := 0x0200A4
abbrev IMG.MIN_VERSION_UCODE.VERSION : Fld := ⟨0x0200A4, 0, 32⟩
abbrev IMG.MIN_VERSION_SHELL.off : Nat := 0x0200A8
abbrev IMG.MIN_VERSION_SHELL.VERSION : Fld := ⟨0x0200A8, 0, 32⟩
abbrev IMG.MIN_VERSION_SLOT.off : Nat := 0x0200AC
abbrev IMG.MIN_VERSION_SLOT.VERSION : Fld := ⟨0x0200AC, 0, 32⟩
abbrev IMG.HEADER_FAIL_COUNT.off : Nat := 0x0200C0
abbrev IMG.HEADER_FAIL_COUNT.COUNT : Fld := ⟨0x0200C0, 0, 32⟩
abbrev IMG.CRC_FAIL_COUNT.off : Nat := 0x0200C4
abbrev IMG.CRC_FAIL_COUNT.COUNT : Fld := ⟨0x0200C4, 0, 32⟩
abbrev IMG.DUPLICATE_COUNT.off : Nat := 0x0200C8
abbrev IMG.DUPLICATE_COUNT.COUNT : Fld := ⟨0x0200C8, 0, 32⟩
abbrev IMG.RANGE_COUNT.off : Nat := 0x0200CC
abbrev IMG.RANGE_COUNT.COUNT : Fld := ⟨0x0200CC, 0, 32⟩
abbrev IMG.NO_HEADER_COUNT.off : Nat := 0x0200D0
abbrev IMG.NO_HEADER_COUNT.COUNT : Fld := ⟨0x0200D0, 0, 32⟩
abbrev IMG.PORT_BUSY_COUNT.off : Nat := 0x0200D4
abbrev IMG.PORT_BUSY_COUNT.COUNT : Fld := ⟨0x0200D4, 0, 32⟩
abbrev IMG.SHORT_COUNT.off : Nat := 0x0200D8
abbrev IMG.SHORT_COUNT.COUNT : Fld := ⟨0x0200D8, 0, 32⟩
abbrev IMG.SERIAL_OVERLONG_COUNT.off : Nat := 0x0200DC
abbrev IMG.SERIAL_OVERLONG_COUNT.COUNT : Fld := ⟨0x0200DC, 0, 32⟩
abbrev IMG.SERIAL_BADCMD_COUNT.off : Nat := 0x0200E0
abbrev IMG.SERIAL_BADCMD_COUNT.COUNT : Fld := ⟨0x0200E0, 0, 32⟩
abbrev FN.VF_SELECT.off : Nat := 0x150000
abbrev FN.VF_SELECT.VF : Fld := ⟨0x150000, 0, 10⟩
abbrev FN.VF_BIND.off : Nat := 0x150004
abbrev FN.VF_BIND.TID : Fld := ⟨0x150004, 0, 10⟩
abbrev PART.PARTITION_SELECT.off : Nat := 0x080000
abbrev PART.PARTITION_SELECT.PARTITION : Fld := ⟨0x080000, 0, 7⟩
abbrev PART.PARTITION_CTRL.off : Nat := 0x080004
abbrev PART.PARTITION_CTRL.CREATE : Fld := ⟨0x080004, 0, 1⟩
abbrev PART.PARTITION_CTRL.DESTROY : Fld := ⟨0x080004, 1, 1⟩
abbrev PART.PARTITION_STATUS.off : Nat := 0x080008
abbrev PART.PARTITION_STATUS.CREATED : Fld := ⟨0x080008, 0, 1⟩
abbrev PART.PARTITION_STATUS.TENANTS : Fld := ⟨0x080008, 8, 11⟩
abbrev PART.BUDGET_DRAM.off : Nat := 0x080010
abbrev PART.BUDGET_DRAM.NEXT : Fld := ⟨0x080010, 0, 24⟩
abbrev PART.BUDGET_FLASH.off : Nat := 0x080014
abbrev PART.BUDGET_FLASH.NEXT : Fld := ⟨0x080014, 0, 24⟩
abbrev PART.BUDGET_ENGINE.off : Nat := 0x080018
abbrev PART.BUDGET_ENGINE.NEXT : Fld := ⟨0x080018, 0, 24⟩
abbrev PART.BUDGET_SEARCH.off : Nat := 0x08001C
abbrev PART.BUDGET_SEARCH.NEXT : Fld := ⟨0x08001C, 0, 24⟩
abbrev PART.BUDGET_SPOKE.off : Nat := 0x080020
abbrev PART.BUDGET_SPOKE.NEXT : Fld := ⟨0x080020, 0, 24⟩
abbrev PART.BUDGET_POOL.off : Nat := 0x080024
abbrev PART.BUDGET_POOL.NEXT : Fld := ⟨0x080024, 0, 24⟩
abbrev PART.BUDGET_DRAM_LIVE.off : Nat := 0x080030
abbrev PART.BUDGET_DRAM_LIVE.LIVE : Fld := ⟨0x080030, 0, 24⟩
abbrev PART.BUDGET_FLASH_LIVE.off : Nat := 0x080034
abbrev PART.BUDGET_FLASH_LIVE.LIVE : Fld := ⟨0x080034, 0, 24⟩
abbrev PART.BUDGET_ENGINE_LIVE.off : Nat := 0x080038
abbrev PART.BUDGET_ENGINE_LIVE.LIVE : Fld := ⟨0x080038, 0, 24⟩
abbrev PART.BUDGET_SEARCH_LIVE.off : Nat := 0x08003C
abbrev PART.BUDGET_SEARCH_LIVE.LIVE : Fld := ⟨0x08003C, 0, 24⟩
abbrev PART.BUDGET_SPOKE_LIVE.off : Nat := 0x080040
abbrev PART.BUDGET_SPOKE_LIVE.LIVE : Fld := ⟨0x080040, 0, 24⟩
abbrev PART.BUDGET_POOL_LIVE.off : Nat := 0x080044
abbrev PART.BUDGET_POOL_LIVE.LIVE : Fld := ⟨0x080044, 0, 24⟩
abbrev PART.RISK_MARGIN.off : Nat := 0x080050
abbrev PART.RISK_MARGIN.STROKES : Fld := ⟨0x080050, 0, 16⟩
abbrev PART.IMPLICIT_HORIZON.off : Nat := 0x080054
abbrev PART.IMPLICIT_HORIZON.STROKES : Fld := ⟨0x080054, 0, 16⟩
abbrev PART.LATE_COUNT.off : Nat := 0x080058
abbrev PART.LATE_COUNT.COUNT : Fld := ⟨0x080058, 0, 32⟩
abbrev PART.AT_RISK_COUNT.off : Nat := 0x08005C
abbrev PART.AT_RISK_COUNT.COUNT : Fld := ⟨0x08005C, 0, 32⟩
abbrev PART.SWITCH_CTRL.off : Nat := 0x080080
abbrev PART.SWITCH_CTRL.ARM : Fld := ⟨0x080080, 0, 1⟩
abbrev PART.SWITCH_STATUS.off : Nat := 0x080084
abbrev PART.SWITCH_STATUS.ARMED : Fld := ⟨0x080084, 0, 1⟩
abbrev PART.SWITCH_STATUS.SWITCH_LATE : Fld := ⟨0x080084, 1, 1⟩
abbrev PART.SWITCH_STATUS.REFUSED : Fld := ⟨0x080084, 2, 1⟩
abbrev PART.SWITCH_STATUS.REFUSE_CAUSE : Fld := ⟨0x080084, 8, 3⟩
abbrev PART.SWITCH_TARGET_LO.off : Nat := 0x080088
abbrev PART.SWITCH_TARGET_LO.TARGET : Fld := ⟨0x080088, 0, 32⟩
abbrev PART.SWITCH_TARGET_HI.off : Nat := 0x08008C
abbrev PART.SWITCH_TARGET_HI.TARGET : Fld := ⟨0x08008C, 0, 16⟩
abbrev PART.CAPACITY_DRAM.off : Nat := 0x0800A0
abbrev PART.CAPACITY_DRAM.UNITS : Fld := ⟨0x0800A0, 0, 24⟩
abbrev PART.CAPACITY_FLASH.off : Nat := 0x0800A4
abbrev PART.CAPACITY_FLASH.UNITS : Fld := ⟨0x0800A4, 0, 24⟩
abbrev PART.CAPACITY_ENGINE.off : Nat := 0x0800A8
abbrev PART.CAPACITY_ENGINE.UNITS : Fld := ⟨0x0800A8, 0, 24⟩
abbrev PART.CAPACITY_SEARCH.off : Nat := 0x0800AC
abbrev PART.CAPACITY_SEARCH.UNITS : Fld := ⟨0x0800AC, 0, 24⟩
abbrev PART.CAPACITY_SPOKE.off : Nat := 0x0800B0
abbrev PART.CAPACITY_SPOKE.UNITS : Fld := ⟨0x0800B0, 0, 24⟩
abbrev PART.CAPACITY_POOL.off : Nat := 0x0800B4
abbrev PART.CAPACITY_POOL.UNITS : Fld := ⟨0x0800B4, 0, 24⟩
abbrev PART.TENANT_SELECT.off : Nat := 0x080100
abbrev PART.TENANT_SELECT.TID : Fld := ⟨0x080100, 0, 10⟩
abbrev PART.TENANT_PARTITION.off : Nat := 0x080104
abbrev PART.TENANT_PARTITION.NEXT : Fld := ⟨0x080104, 0, 7⟩
abbrev PART.TENANT_PARTITION.LIVE : Fld := ⟨0x080104, 8, 7⟩
abbrev PART.TENANT_CAPS.off : Nat := 0x080108
abbrev PART.TENANT_CAPS.DESC_CAP : Fld := ⟨0x080108, 0, 17⟩
abbrev PART.TENANT_CAPS.STREAM_CAP : Fld := ⟨0x080108, 17, 13⟩
abbrev PART.TENANT_CTRL.off : Nat := 0x08010C
abbrev PART.TENANT_CTRL.CREATE : Fld := ⟨0x08010C, 0, 1⟩
abbrev PART.TENANT_CTRL.DESTROY : Fld := ⟨0x08010C, 1, 1⟩
abbrev PART.TENANT_CTRL.RESET : Fld := ⟨0x08010C, 2, 1⟩
abbrev PART.TENANT_STATUS.off : Nat := 0x080110
abbrev PART.TENANT_STATUS.STATE : Fld := ⟨0x080110, 0, 2⟩
abbrev PART.TENANT_STATUS.REFUSE_CAUSE : Fld := ⟨0x080110, 4, 3⟩
abbrev PART.TENANT_STATUS.DRAIN_STROKES : Fld := ⟨0x080110, 16, 16⟩
abbrev PART.RESET_DRAIN.off : Nat := 0x080114
abbrev PART.RESET_DRAIN.STROKES : Fld := ⟨0x080114, 0, 16⟩
abbrev PART.KEY_DATA.off : Nat := 0x080140
abbrev PART.KEY_DATA.KEY : Fld := ⟨0x080140, 0, 32⟩
abbrev PART.KEY_CTRL.off : Nat := 0x080180
abbrev PART.KEY_CTRL.LOAD : Fld := ⟨0x080180, 0, 1⟩
abbrev PART.KEY_CTRL.CLEAR : Fld := ⟨0x080180, 1, 1⟩
abbrev PART.KEY_STATUS.off : Nat := 0x080184
abbrev PART.KEY_STATUS.LOADED : Fld := ⟨0x080184, 0, 1⟩
abbrev PART.KEY_STATUS.REFUSE_CAUSE : Fld := ⟨0x080184, 1, 3⟩
abbrev PART.KEY_KCV.off : Nat := 0x080188
abbrev PART.KEY_KCV.KCV : Fld := ⟨0x080188, 0, 32⟩
abbrev XLAT.AREA_CTRL.off : Nat := 0x090000
abbrev XLAT.AREA_CTRL.GIB : Fld := ⟨0x090000, 0, 7⟩
abbrev XLAT.AREA_STATUS.off : Nat := 0x090004
abbrev XLAT.AREA_STATUS.CHUNKS_FREE : Fld := ⟨0x090004, 0, 16⟩
abbrev XLAT.TENANT_SELECT.off : Nat := 0x090010
abbrev XLAT.TENANT_SELECT.TID : Fld := ⟨0x090010, 0, 10⟩
abbrev XLAT.SEQ_CAP.off : Nat := 0x090014
abbrev XLAT.SEQ_CAP.CAP : Fld := ⟨0x090014, 0, 24⟩
abbrev XLAT.SEQ_OPEN_COUNT.off : Nat := 0x090018
abbrev XLAT.SEQ_OPEN_COUNT.COUNT : Fld := ⟨0x090018, 0, 25⟩
abbrev XLAT.TENANT_CHUNKS.off : Nat := 0x09001C
abbrev XLAT.TENANT_CHUNKS.CHUNKS : Fld := ⟨0x09001C, 0, 16⟩
abbrev XLAT.REBUILD_CTRL.off : Nat := 0x090020
abbrev XLAT.REBUILD_CTRL.START : Fld := ⟨0x090020, 0, 1⟩
abbrev XLAT.REBUILD_STATUS.off : Nat := 0x090024
abbrev XLAT.REBUILD_STATUS.STATE : Fld := ⟨0x090024, 0, 3⟩
abbrev XLAT.REBUILD_STATUS.CAUSE : Fld := ⟨0x090024, 4, 4⟩
abbrev XLAT.WALK_CACHE_CTRL.off : Nat := 0x090030
abbrev XLAT.WALK_CACHE_CTRL.FLUSH : Fld := ⟨0x090030, 0, 1⟩
abbrev XLAT.WALK_HITS_LO.off : Nat := 0x090040
abbrev XLAT.WALK_HITS_LO.COUNT : Fld := ⟨0x090040, 0, 32⟩
abbrev XLAT.WALK_HITS_HI.off : Nat := 0x090044
abbrev XLAT.WALK_HITS_HI.COUNT : Fld := ⟨0x090044, 0, 32⟩
abbrev XLAT.WALK_MISSES_LO.off : Nat := 0x090048
abbrev XLAT.WALK_MISSES_LO.COUNT : Fld := ⟨0x090048, 0, 32⟩
abbrev XLAT.WALK_MISSES_HI.off : Nat := 0x09004C
abbrev XLAT.WALK_MISSES_HI.COUNT : Fld := ⟨0x09004C, 0, 32⟩
abbrev XLAT.AREA_FULL_COUNT.off : Nat := 0x090050
abbrev XLAT.AREA_FULL_COUNT.COUNT : Fld := ⟨0x090050, 0, 32⟩
abbrev XLAT.SHARE_RECORDS.off : Nat := 0x090054
abbrev XLAT.SHARE_RECORDS.COUNT : Fld := ⟨0x090054, 0, 32⟩
abbrev TIER.LOG_SCAN_CTRL.off : Nat := 0x0A0000
abbrev TIER.LOG_SCAN_CTRL.START : Fld := ⟨0x0A0000, 0, 1⟩
abbrev TIER.LOG_SCAN_STATUS.off : Nat := 0x0A0004
abbrev TIER.LOG_SCAN_STATUS.DONE : Fld := ⟨0x0A0004, 0, 1⟩
abbrev TIER.LOG_SCAN_STATUS.REGIONS : Fld := ⟨0x0A0004, 16, 12⟩
abbrev TIER.REGION_SELECT.off : Nat := 0x0A0008
abbrev TIER.REGION_SELECT.INDEX : Fld := ⟨0x0A0008, 0, 12⟩
abbrev TIER.REGION_INFO.off : Nat := 0x0A000C
abbrev TIER.REGION_INFO.OWNER : Fld := ⟨0x0A000C, 0, 10⟩
abbrev TIER.REGION_INFO.PROTECTED : Fld := ⟨0x0A000C, 10, 1⟩
abbrev TIER.REGION_INFO.CLEAN : Fld := ⟨0x0A000C, 11, 1⟩
abbrev TIER.REGION_INFO.SCRUB_MARKED : Fld := ⟨0x0A000C, 12, 1⟩
abbrev TIER.REGION_INFO.STANDBY : Fld := ⟨0x0A000C, 13, 1⟩
abbrev TIER.REGION_INFO.SOURCE_MEMBER : Fld := ⟨0x0A000C, 24, 5⟩
abbrev TIER.REGION_INFO.STATE : Fld := ⟨0x0A000C, 16, 3⟩
abbrev TIER.REGION_INFO.FAIL_CAUSE : Fld := ⟨0x0A000C, 20, 4⟩
abbrev TIER.REGION_PAGES.off : Nat := 0x0A0010
abbrev TIER.REGION_PAGES.PAGES : Fld := ⟨0x0A0010, 0, 32⟩
abbrev TIER.REGION_ENTRIES.off : Nat := 0x0A0014
abbrev TIER.REGION_ENTRIES.ENTRIES : Fld := ⟨0x0A0014, 0, 32⟩
abbrev TIER.REGION_LOST_PAGES.off : Nat := 0x0A0018
abbrev TIER.REGION_LOST_PAGES.LOST : Fld := ⟨0x0A0018, 0, 32⟩
abbrev TIER.REGION_ACTION.off : Nat := 0x0A001C
abbrev TIER.REGION_ACTION.ACTION : Fld := ⟨0x0A001C, 0, 2⟩
abbrev TIER.REGION_ACTION.TARGET_TID : Fld := ⟨0x0A001C, 16, 10⟩
abbrev TIER.QUIESCE_CTRL.off : Nat := 0x0A0020
abbrev TIER.QUIESCE_CTRL.START : Fld := ⟨0x0A0020, 0, 1⟩
abbrev TIER.QUIESCE_STATUS.off : Nat := 0x0A0024
abbrev TIER.QUIESCE_STATUS.DONE : Fld := ⟨0x0A0024, 0, 1⟩
abbrev TIER.FRAMES_TOTAL.off : Nat := 0x0A0040
abbrev TIER.FRAMES_TOTAL.FRAMES : Fld := ⟨0x0A0040, 0, 23⟩
abbrev TIER.FRAMES_FREE.off : Nat := 0x0A0044
abbrev TIER.FRAMES_FREE.FRAMES : Fld := ⟨0x0A0044, 0, 23⟩
abbrev TIER.DROP_LEVEL.off : Nat := 0x0A0048
abbrev TIER.DROP_LEVEL.FRAMES : Fld := ⟨0x0A0048, 0, 23⟩
abbrev TIER.DEMOTE_LEVEL.off : Nat := 0x0A004C
abbrev TIER.DEMOTE_LEVEL.FRAMES : Fld := ⟨0x0A004C, 0, 23⟩
abbrev TIER.SCORE_CTRL.off : Nat := 0x0A0050
abbrev TIER.SCORE_CTRL.AGE_SHIFT : Fld := ⟨0x0A0050, 0, 5⟩
abbrev TIER.SCORE_CTRL.DEFAULT_PRIORITY : Fld := ⟨0x0A0050, 8, 4⟩
abbrev TIER.JIT_SLACK.off : Nat := 0x0A0054
abbrev TIER.JIT_SLACK.STROKES : Fld := ⟨0x0A0054, 0, 16⟩
abbrev TIER.LOG_FLUSH.off : Nat := 0x0A0058
abbrev TIER.LOG_FLUSH.STROKES : Fld := ⟨0x0A0058, 0, 16⟩
abbrev TIER.READ_LAG.off : Nat := 0x0A005C
abbrev TIER.READ_LAG.STROKES : Fld := ⟨0x0A005C, 0, 4⟩
abbrev TIER.STATUS.off : Nat := 0x0A0060
abbrev TIER.STATUS.FRAME_WAIT : Fld := ⟨0x0A0060, 0, 1⟩
abbrev TIER.STATUS.FLASH_FULL : Fld := ⟨0x0A0060, 1, 1⟩
abbrev TIER.STATUS.FREE_BLOCK_PCT : Fld := ⟨0x0A0060, 8, 7⟩
abbrev TIER.PART_SELECT.off : Nat := 0x0A0070
abbrev TIER.PART_SELECT.PARTITION : Fld := ⟨0x0A0070, 0, 7⟩
abbrev TIER.PIN_CAP.off : Nat := 0x0A0074
abbrev TIER.PIN_CAP.FRAMES : Fld := ⟨0x0A0074, 0, 23⟩
abbrev TIER.PINNED.off : Nat := 0x0A0078
abbrev TIER.PINNED.FRAMES : Fld := ⟨0x0A0078, 0, 23⟩
abbrev TIER.WRITE_SEALED.off : Nat := 0x0A007C
abbrev TIER.WRITE_SEALED.ENABLE : Fld := ⟨0x0A007C, 0, 1⟩
abbrev TIER.GROUP_SELECT.off : Nat := 0x0A0080
abbrev TIER.GROUP_SELECT.GROUP : Fld := ⟨0x0A0080, 0, 4⟩
abbrev TIER.GROUP_STATUS.off : Nat := 0x0A0084
abbrev TIER.GROUP_STATUS.STATE : Fld := ⟨0x0A0084, 0, 2⟩
abbrev TIER.GROUP_STATUS.DEAD_DIES : Fld := ⟨0x0A0084, 4, 18⟩
abbrev TIER.GROUP_STATUS.SPARES_LEFT : Fld := ⟨0x0A0084, 24, 2⟩
abbrev TIER.REBUILD_BLOCKS.off : Nat := 0x0A0088
abbrev TIER.REBUILD_BLOCKS.BLOCKS : Fld := ⟨0x0A0088, 0, 32⟩
abbrev TIER.PROBE_TID.off : Nat := 0x0A0090
abbrev TIER.PROBE_TID.TID : Fld := ⟨0x0A0090, 0, 10⟩
abbrev TIER.PROBE_SID.off : Nat := 0x0A0094
abbrev TIER.PROBE_SID.SID : Fld := ⟨0x0A0094, 0, 32⟩
abbrev TIER.PROBE_PAGE.off : Nat := 0x0A0098
abbrev TIER.PROBE_PAGE.PAGE : Fld := ⟨0x0A0098, 0, 32⟩
abbrev TIER.PROBE_CTRL.off : Nat := 0x0A009C
abbrev TIER.PROBE_CTRL.GO : Fld := ⟨0x0A009C, 0, 1⟩
abbrev TIER.PROBE_RESULT.off : Nat := 0x0A00A0
abbrev TIER.PROBE_RESULT.DONE : Fld := ⟨0x0A00A0, 0, 1⟩
abbrev TIER.PROBE_RESULT.STATE : Fld := ⟨0x0A00A0, 1, 3⟩
abbrev TIER.PROBE_RESULT.REFS : Fld := ⟨0x0A00A0, 8, 8⟩
abbrev TIER.PROBE_RESULT.SCORE : Fld := ⟨0x0A00A0, 16, 16⟩
abbrev TIER.PAGE_INS_LO.off : Nat := 0x0A00C0
abbrev TIER.PAGE_INS_LO.COUNT : Fld := ⟨0x0A00C0, 0, 32⟩
abbrev TIER.PAGE_INS_HI.off : Nat := 0x0A00C4
abbrev TIER.PAGE_INS_HI.COUNT : Fld := ⟨0x0A00C4, 0, 32⟩
abbrev TIER.DEMOTIONS_LO.off : Nat := 0x0A00C8
abbrev TIER.DEMOTIONS_LO.COUNT : Fld := ⟨0x0A00C8, 0, 32⟩
abbrev TIER.DEMOTIONS_HI.off : Nat := 0x0A00CC
abbrev TIER.DEMOTIONS_HI.COUNT : Fld := ⟨0x0A00CC, 0, 32⟩
abbrev TIER.DROPS_LO.off : Nat := 0x0A00D0
abbrev TIER.DROPS_LO.COUNT : Fld := ⟨0x0A00D0, 0, 32⟩
abbrev TIER.DROPS_HI.off : Nat := 0x0A00D4
abbrev TIER.DROPS_HI.COUNT : Fld := ⟨0x0A00D4, 0, 32⟩
abbrev TIER.RECON_READS_LO.off : Nat := 0x0A00D8
abbrev TIER.RECON_READS_LO.COUNT : Fld := ⟨0x0A00D8, 0, 32⟩
abbrev TIER.RECON_READS_HI.off : Nat := 0x0A00DC
abbrev TIER.RECON_READS_HI.COUNT : Fld := ⟨0x0A00DC, 0, 32⟩
abbrev TIER.FRAME_WAIT_STROKES.off : Nat := 0x0A00E0
abbrev TIER.FRAME_WAIT_STROKES.COUNT : Fld := ⟨0x0A00E0, 0, 32⟩
abbrev SRCH.ENUM_STATUS.off : Nat := 0x0B0000
abbrev SRCH.ENUM_STATUS.DIES_LOCAL : Fld := ⟨0x0B0000, 0, 4⟩
abbrev SRCH.ENUM_STATUS.POSITION : Fld := ⟨0x0B0000, 4, 2⟩
abbrev SRCH.ENUM_STATUS.SIZE_M1 : Fld := ⟨0x0B0000, 6, 2⟩
abbrev SRCH.ENUM_STATUS.CASCADE_UP : Fld := ⟨0x0B0000, 8, 1⟩
abbrev SRCH.ENUM_STATUS.CASCADE_INCOMPLETE : Fld := ⟨0x0B0000, 9, 1⟩
abbrev SRCH.ENUM_STATUS.ENUM_DONE : Fld := ⟨0x0B0000, 10, 1⟩
abbrev SRCH.BANK_SELECT.off : Nat := 0x0B0010
abbrev SRCH.BANK_SELECT.DIE : Fld := ⟨0x0B0010, 0, 2⟩
abbrev SRCH.BANK_SELECT.BANK : Fld := ⟨0x0B0010, 8, 5⟩
abbrev SRCH.BANK_CTRL.off : Nat := 0x0B0014
abbrev SRCH.BANK_CTRL.WIDTH : Fld := ⟨0x0B0014, 0, 2⟩
abbrev SRCH.BANK_CTRL.NEW_WIDTH : Fld := ⟨0x0B0014, 4, 2⟩
abbrev SRCH.BANK_CTRL.RESHAPE : Fld := ⟨0x0B0014, 8, 1⟩
abbrev SRCH.BANK_STATUS.off : Nat := 0x0B0018
abbrev SRCH.BANK_STATUS.WIDTH : Fld := ⟨0x0B0018, 0, 2⟩
abbrev SRCH.BANK_STATUS.STATE : Fld := ⟨0x0B0018, 2, 2⟩
abbrev SRCH.BANK_STATUS.REFUSE_CAUSE : Fld := ⟨0x0B0018, 4, 3⟩
abbrev SRCH.BANK_STATUS.VALID_ENTRIES : Fld := ⟨0x0B0018, 16, 15⟩
abbrev SRCH.NS_SELECT.off : Nat := 0x0B0020
abbrev SRCH.NS_SELECT.NAMESPACE : Fld := ⟨0x0B0020, 0, 12⟩
abbrev SRCH.NS_CTRL.off : Nat := 0x0B0024
abbrev SRCH.NS_CTRL.OWNER_TID : Fld := ⟨0x0B0024, 0, 10⟩
abbrev SRCH.NS_CTRL.WIDTH : Fld := ⟨0x0B0024, 10, 2⟩
abbrev SRCH.NS_CTRL.BLOCK_TOKENS_LOG2 : Fld := ⟨0x0B0024, 12, 3⟩
abbrev SRCH.NS_CTRL.KEY_SOURCE : Fld := ⟨0x0B0024, 15, 1⟩
abbrev SRCH.NS_CTRL.HOOK : Fld := ⟨0x0B0024, 16, 1⟩
abbrev SRCH.NS_CTRL.SCOPE : Fld := ⟨0x0B0024, 17, 2⟩
abbrev SRCH.NS_CTRL.ENABLE : Fld := ⟨0x0B0024, 31, 1⟩
abbrev SRCH.NS_SALT.off : Nat := 0x0B0028
abbrev SRCH.NS_SALT.SALT : Fld := ⟨0x0B0028, 0, 32⟩
abbrev SRCH.NS_ENTRY_CAP.off : Nat := 0x0B0038
abbrev SRCH.NS_ENTRY_CAP.ENTRIES : Fld := ⟨0x0B0038, 0, 22⟩
abbrev SRCH.NS_ENTRIES.off : Nat := 0x0B003C
abbrev SRCH.NS_ENTRIES.ENTRIES : Fld := ⟨0x0B003C, 0, 22⟩
abbrev SRCH.VERIFY_TRIES.off : Nat := 0x0B0040
abbrev SRCH.VERIFY_TRIES.TRIES : Fld := ⟨0x0B0040, 0, 4⟩
abbrev SRCH.CASCADE_WAIT.off : Nat := 0x0B0044
abbrev SRCH.CASCADE_WAIT.STROKES : Fld := ⟨0x0B0044, 0, 16⟩
abbrev SRCH.PELOTON_WAIT.off : Nat := 0x0B0048
abbrev SRCH.PELOTON_WAIT.STROKES : Fld := ⟨0x0B0048, 0, 16⟩
abbrev SRCH.BRAKE_STATUS.off : Nat := 0x0B0050
abbrev SRCH.BRAKE_STATUS.PERCENT : Fld := ⟨0x0B0050, 0, 8⟩
abbrev SRCH.BRAKE_STATUS.HALTED : Fld := ⟨0x0B0050, 8, 1⟩
abbrev SRCH.BRAKE_STATUS.HOTTEST_C : Fld := ⟨0x0B0050, 16, 8⟩
abbrev SRCH.DIE_TEMP.off : Nat := 0x0B0054
abbrev SRCH.DIE_TEMP.TEMP_n : Fld := ⟨0x0B0054, 0, 32⟩
abbrev SRCH.SEARCHES_LO.off : Nat := 0x0B0060
abbrev SRCH.SEARCHES_LO.COUNT : Fld := ⟨0x0B0060, 0, 32⟩
abbrev SRCH.SEARCHES_HI.off : Nat := 0x0B0064
abbrev SRCH.SEARCHES_HI.COUNT : Fld := ⟨0x0B0064, 0, 32⟩
abbrev SRCH.VERIFY_MISSES.off : Nat := 0x0B0068
abbrev SRCH.VERIFY_MISSES.COUNT : Fld := ⟨0x0B0068, 0, 32⟩
abbrev SRCH.STALE_HITS.off : Nat := 0x0B006C
abbrev SRCH.STALE_HITS.COUNT : Fld := ⟨0x0B006C, 0, 32⟩
abbrev SRCH.RING_LOSSES.off : Nat := 0x0B0070
abbrev SRCH.RING_LOSSES.COUNT : Fld := ⟨0x0B0070, 0, 32⟩
abbrev SRCH.THROTTLED_COUNT.off : Nat := 0x0B0074
abbrev SRCH.THROTTLED_COUNT.COUNT : Fld := ⟨0x0B0074, 0, 32⟩
abbrev SRCH.ADOPT_SKIPPED.off : Nat := 0x0B0078
abbrev SRCH.ADOPT_SKIPPED.COUNT : Fld := ⟨0x0B0078, 0, 32⟩
abbrev SRCH.SHADOW_PENDING.off : Nat := 0x0B007C
abbrev SRCH.SHADOW_PENDING.ENTRIES : Fld := ⟨0x0B007C, 0, 22⟩
abbrev CMPR.CLASS_SELECT.off : Nat := 0x0C0000
abbrev CMPR.CLASS_SELECT.CLASS : Fld := ⟨0x0C0000, 0, 6⟩
abbrev CMPR.CLASS_GEOMETRY.off : Nat := 0x0C0004
abbrev CMPR.CLASS_GEOMETRY.KV_HEADS : Fld := ⟨0x0C0004, 0, 8⟩
abbrev CMPR.CLASS_GEOMETRY.HEAD_DIM_DIV32 : Fld := ⟨0x0C0004, 8, 6⟩
abbrev CMPR.CLASS_GEOMETRY.BLOCK_TOKENS_LOG2 : Fld := ⟨0x0C0004, 16, 3⟩
abbrev CMPR.CLASS_FORMAT.off : Nat := 0x0C0008
abbrev CMPR.CLASS_FORMAT.FORMAT : Fld := ⟨0x0C0008, 0, 8⟩
abbrev CMPR.CLASS_FORMAT.FALLBACK : Fld := ⟨0x0C0008, 8, 8⟩
abbrev CMPR.CLASS_FORMAT.GROUP_LOG2 : Fld := ⟨0x0C0008, 16, 3⟩
abbrev CMPR.CLASS_FORMAT.SCALE_RULE : Fld := ⟨0x0C0008, 20, 1⟩
abbrev CMPR.CLASS_FORMAT.NONFINITE_STOP : Fld := ⟨0x0C0008, 21, 1⟩
abbrev CMPR.CLASS_FORMAT.LATENT : Fld := ⟨0x0C0008, 24, 1⟩
abbrev CMPR.CLASS_LATENT.off : Nat := 0x0C000C
abbrev CMPR.CLASS_LATENT.RANK : Fld := ⟨0x0C000C, 0, 11⟩
abbrev CMPR.CLASS_LATENT.CONST_SET : Fld := ⟨0x0C000C, 16, 8⟩
abbrev CMPR.CLASS_CTRL.off : Nat := 0x0C0010
abbrev CMPR.CLASS_CTRL.DEFINE : Fld := ⟨0x0C0010, 0, 1⟩
abbrev CMPR.CLASS_CTRL.UNDEFINE : Fld := ⟨0x0C0010, 1, 1⟩
abbrev CMPR.CLASS_STATUS.off : Nat := 0x0C0014
abbrev CMPR.CLASS_STATUS.DEFINED : Fld := ⟨0x0C0014, 0, 1⟩
abbrev CMPR.CLASS_STATUS.REFUSE_CAUSE : Fld := ⟨0x0C0014, 1, 3⟩
abbrev CMPR.CLASS_STATUS.PAYLOAD_BYTES : Fld := ⟨0x0C0014, 4, 17⟩
abbrev CMPR.CLASS_STATUS.ENGINE_DRAW : Fld := ⟨0x0C0014, 21, 7⟩
abbrev CMPR.CLASS_USERS.off : Nat := 0x0C0018
abbrev CMPR.CLASS_USERS.COUNT : Fld := ⟨0x0C0018, 0, 25⟩
abbrev CMPR.APPEND_BUCKETS.off : Nat := 0x0C0020
abbrev CMPR.APPEND_BUCKETS.EDGE_0 : Fld := ⟨0x0C0020, 0, 21⟩
abbrev CMPR.APPEND_BUCKETS_1.off : Nat := 0x0C0024
abbrev CMPR.APPEND_BUCKETS_1.EDGE_1 : Fld := ⟨0x0C0024, 0, 21⟩
abbrev CMPR.APPEND_BUCKETS_2.off : Nat := 0x0C0028
abbrev CMPR.APPEND_BUCKETS_2.EDGE_2 : Fld := ⟨0x0C0028, 0, 21⟩
abbrev CMPR.APPEND_LANES.off : Nat := 0x0C002C
abbrev CMPR.APPEND_LANES.LANES_0 : Fld := ⟨0x0C002C, 0, 5⟩
abbrev CMPR.APPEND_LANES.LANES_1 : Fld := ⟨0x0C002C, 8, 5⟩
abbrev CMPR.APPEND_LANES.LANES_2 : Fld := ⟨0x0C002C, 16, 5⟩
abbrev CMPR.APPEND_LANES.LANES_3 : Fld := ⟨0x0C002C, 24, 5⟩
abbrev CMPR.NONFINITE_COUNT_LO.off : Nat := 0x0C0030
abbrev CMPR.NONFINITE_COUNT_LO.COUNT : Fld := ⟨0x0C0030, 0, 32⟩
abbrev CMPR.NONFINITE_COUNT_HI.off : Nat := 0x0C0034
abbrev CMPR.NONFINITE_COUNT_HI.COUNT : Fld := ⟨0x0C0034, 0, 32⟩
abbrev CMPR.CONST_AREA.off : Nat := 0x0C0040
abbrev CMPR.CONST_AREA.MIB : Fld := ⟨0x0C0040, 0, 13⟩
abbrev CMPR.CONST_FREE.off : Nat := 0x0C0044
abbrev CMPR.CONST_FREE.MIB : Fld := ⟨0x0C0044, 0, 13⟩
abbrev CMPR.CONST_SELECT.off : Nat := 0x0C0048
abbrev CMPR.CONST_SELECT.SET : Fld := ⟨0x0C0048, 0, 8⟩
abbrev CMPR.CONST_SHAPE.off : Nat := 0x0C004C
abbrev CMPR.CONST_SHAPE.SET_RANK : Fld := ⟨0x0C004C, 0, 11⟩
abbrev CMPR.CONST_SHAPE.SET_WIDTH_DIV32 : Fld := ⟨0x0C004C, 16, 14⟩
abbrev CMPR.CONST_LAYERS.off : Nat := 0x0C0050
abbrev CMPR.CONST_LAYERS.SET_LAYERS : Fld := ⟨0x0C0050, 0, 9⟩
abbrev CMPR.CONST_ADDR_LO.off : Nat := 0x0C0054
abbrev CMPR.CONST_ADDR_LO.ADDR : Fld := ⟨0x0C0054, 0, 32⟩
abbrev CMPR.CONST_ADDR_HI.off : Nat := 0x0C0058
abbrev CMPR.CONST_ADDR_HI.ADDR : Fld := ⟨0x0C0058, 0, 32⟩
abbrev CMPR.CONST_CTRL.off : Nat := 0x0C005C
abbrev CMPR.CONST_CTRL.LOAD : Fld := ⟨0x0C005C, 0, 1⟩
abbrev CMPR.CONST_CTRL.UNLOAD : Fld := ⟨0x0C005C, 1, 1⟩
abbrev CMPR.CONST_STATUS.off : Nat := 0x0C0060
abbrev CMPR.CONST_STATUS.STATE : Fld := ⟨0x0C0060, 0, 2⟩
abbrev CMPR.CONST_STATUS.FAIL_CAUSE : Fld := ⟨0x0C0060, 4, 3⟩
abbrev CMPR.CONST_CHECK.off : Nat := 0x0C0064
abbrev CMPR.CONST_CHECK.CRC : Fld := ⟨0x0C0064, 0, 32⟩
abbrev CMPR.CONST_USERS.off : Nat := 0x0C0068
abbrev CMPR.CONST_USERS.COUNT : Fld := ⟨0x0C0068, 0, 7⟩
abbrev CMPR.CODE_TENANT_SELECT.off : Nat := 0x0C0070
abbrev CMPR.CODE_TENANT_SELECT.TID : Fld := ⟨0x0C0070, 0, 10⟩
abbrev CMPR.CODE_POLICY.off : Nat := 0x0C0074
abbrev CMPR.CODE_POLICY.CODE_OFF : Fld := ⟨0x0C0074, 0, 1⟩
abbrev CMPR.PAGES_CODED_LO.off : Nat := 0x0C0080
abbrev CMPR.PAGES_CODED_LO.COUNT : Fld := ⟨0x0C0080, 0, 32⟩
abbrev CMPR.PAGES_CODED_HI.off : Nat := 0x0C0084
abbrev CMPR.PAGES_CODED_HI.COUNT : Fld := ⟨0x0C0084, 0, 32⟩
abbrev CMPR.PAGES_RAW_LO.off : Nat := 0x0C0088
abbrev CMPR.PAGES_RAW_LO.COUNT : Fld := ⟨0x0C0088, 0, 32⟩
abbrev CMPR.PAGES_RAW_HI.off : Nat := 0x0C008C
abbrev CMPR.PAGES_RAW_HI.COUNT : Fld := ⟨0x0C008C, 0, 32⟩
abbrev CMPR.SECTORS_SAVED_LO.off : Nat := 0x0C0090
abbrev CMPR.SECTORS_SAVED_LO.COUNT : Fld := ⟨0x0C0090, 0, 32⟩
abbrev CMPR.SECTORS_SAVED_HI.off : Nat := 0x0C0094
abbrev CMPR.SECTORS_SAVED_HI.COUNT : Fld := ⟨0x0C0094, 0, 32⟩
abbrev CMPR.DECODE_FAULTS.off : Nat := 0x0C0098
abbrev CMPR.DECODE_FAULTS.COUNT : Fld := ⟨0x0C0098, 0, 32⟩
abbrev ENG.ATTN_CLASS_SELECT.off : Nat := 0x0D0000
abbrev ENG.ATTN_CLASS_SELECT.CLASS : Fld := ⟨0x0D0000, 0, 6⟩
abbrev ENG.ATTN_SCALE.off : Nat := 0x0D0004
abbrev ENG.ATTN_SCALE.SCALE : Fld := ⟨0x0D0004, 0, 32⟩
abbrev ENG.ATTN_GROUP.off : Nat := 0x0D0008
abbrev ENG.ATTN_GROUP.GROUP : Fld := ⟨0x0D0008, 0, 7⟩
abbrev ENG.PROG_SELECT.off : Nat := 0x0D0010
abbrev ENG.PROG_SELECT.PROGRAM : Fld := ⟨0x0D0010, 0, 5⟩
abbrev ENG.PROG_INFO.off : Nat := 0x0D0014
abbrev ENG.PROG_INFO.PRESENT : Fld := ⟨0x0D0014, 0, 1⟩
abbrev ENG.PROG_INFO.CAUSAL : Fld := ⟨0x0D0014, 1, 1⟩
abbrev ENG.PROG_INFO.BIAS_KINDS : Fld := ⟨0x0D0014, 2, 4⟩
abbrev ENG.PROG_INFO.Q_FORMATS : Fld := ⟨0x0D0014, 6, 3⟩
abbrev ENG.PROG_INFO.LATENT : Fld := ⟨0x0D0014, 9, 1⟩
abbrev ENG.PROG_INFO.MAX_HEAD_DIM_DIV32 : Fld := ⟨0x0D0014, 10, 6⟩
abbrev ENG.PROG_INFO.VERSION : Fld := ⟨0x0D0014, 16, 16⟩
abbrev ENG.TILE_SHARE.off : Nat := 0x0D0018
abbrev ENG.TILE_SHARE.KIB : Fld := ⟨0x0D0018, 0, 10⟩
abbrev ENG.PROG_USER_ID.off : Nat := 0x0D001C
abbrev ENG.PROG_USER_ID.USER_ID : Fld := ⟨0x0D001C, 0, 32⟩
abbrev ENG.ATTN_BUCKETS_0.off : Nat := 0x0D0020
abbrev ENG.ATTN_BUCKETS_0.EDGE : Fld := ⟨0x0D0020, 0, 32⟩
abbrev ENG.ATTN_BUCKETS_1.off : Nat := 0x0D0024
abbrev ENG.ATTN_BUCKETS_1.EDGE : Fld := ⟨0x0D0024, 0, 32⟩
abbrev ENG.ATTN_BUCKETS_2.off : Nat := 0x0D0028
abbrev ENG.ATTN_BUCKETS_2.EDGE : Fld := ⟨0x0D0028, 0, 32⟩
abbrev ENG.ATTN_TILES.off : Nat := 0x0D002C
abbrev ENG.ATTN_TILES.GROUPS_0 : Fld := ⟨0x0D002C, 0, 5⟩
abbrev ENG.ATTN_TILES.GROUPS_1 : Fld := ⟨0x0D002C, 8, 5⟩
abbrev ENG.ATTN_TILES.GROUPS_2 : Fld := ⟨0x0D002C, 16, 5⟩
abbrev ENG.ATTN_TILES.GROUPS_3 : Fld := ⟨0x0D002C, 24, 5⟩
abbrev ENG.CHUNKS_LO.off : Nat := 0x0D0040
abbrev ENG.CHUNKS_LO.COUNT : Fld := ⟨0x0D0040, 0, 32⟩
abbrev ENG.CHUNKS_HI.off : Nat := 0x0D0044
abbrev ENG.CHUNKS_HI.COUNT : Fld := ⟨0x0D0044, 0, 32⟩
abbrev ENG.UNITS_LO.off : Nat := 0x0D0048
abbrev ENG.UNITS_LO.COUNT : Fld := ⟨0x0D0048, 0, 32⟩
abbrev ENG.UNITS_HI.off : Nat := 0x0D004C
abbrev ENG.UNITS_HI.COUNT : Fld := ⟨0x0D004C, 0, 32⟩
abbrev ENG.HOOK_BYPASSED.off : Nat := 0x0D0050
abbrev ENG.HOOK_BYPASSED.COUNT : Fld := ⟨0x0D0050, 0, 32⟩
abbrev ENG.OVERFLOWS.off : Nat := 0x0D0054
abbrev ENG.OVERFLOWS.COUNT : Fld := ⟨0x0D0054, 0, 32⟩
abbrev GEAR.TENANT_SELECT.off : Nat := 0x0E0000
abbrev GEAR.TENANT_SELECT.TID : Fld := ⟨0x0E0000, 0, 10⟩
abbrev GEAR.TENANT_BIND.off : Nat := 0x0E0004
abbrev GEAR.TENANT_BIND.SLOT_0 : Fld := ⟨0x0E0004, 0, 4⟩
abbrev GEAR.TENANT_BIND.SLOT_1 : Fld := ⟨0x0E0004, 4, 4⟩
abbrev GEAR.TENANT_BIND.SLOT_2 : Fld := ⟨0x0E0004, 8, 4⟩
abbrev GEAR.TENANT_BIND.SLOT_3 : Fld := ⟨0x0E0004, 12, 4⟩
abbrev GEAR.BIND_FAULT.off : Nat := 0x0E0008
abbrev GEAR.BIND_FAULT.HOOKS : Fld := ⟨0x0E0008, 0, 4⟩
abbrev GEAR.SLOT_SELECT.off : Nat := 0x0E0010
abbrev GEAR.SLOT_SELECT.SLOT : Fld := ⟨0x0E0010, 0, 3⟩
abbrev GEAR.SLOT_CTRL.off : Nat := 0x0E0014
abbrev GEAR.SLOT_CTRL.UNLOAD : Fld := ⟨0x0E0014, 0, 1⟩
abbrev GEAR.SLOT_FAULT.off : Nat := 0x0E0018
abbrev GEAR.SLOT_FAULT.CAUSE : Fld := ⟨0x0E0018, 0, 3⟩
abbrev GEAR.SCORE_BURST.off : Nat := 0x0E0020
abbrev GEAR.SCORE_BURST.PAGES : Fld := ⟨0x0E0020, 0, 16⟩
abbrev GEAR.SCRUB_CTRL.off : Nat := 0x0E0024
abbrev GEAR.SCRUB_CTRL.ENABLE : Fld := ⟨0x0E0024, 0, 1⟩
abbrev GEAR.HOOK_WAITS.off : Nat := 0x0E0030
abbrev GEAR.HOOK_WAITS.COUNT : Fld := ⟨0x0E0030, 0, 32⟩
abbrev GEAR.UNFIT.off : Nat := 0x0E0034
abbrev GEAR.UNFIT.COUNT : Fld := ⟨0x0E0034, 0, 32⟩
abbrev GEAR.WINDOW_TIMEOUTS.off : Nat := 0x0E0038
abbrev GEAR.WINDOW_TIMEOUTS.COUNT : Fld := ⟨0x0E0038, 0, 32⟩
abbrev GEAR.SLOT_IDENT.off : Nat := 0x0E0040
abbrev GEAR.SLOT_IDENT.WORD : Fld := ⟨0x0E0040, 0, 32⟩
abbrev GEAR.SLOT_WINDOW.off : Nat := 0x0E0400
abbrev GEAR.SLOT_WINDOW.WORD : Fld := ⟨0x0E0400, 0, 32⟩
abbrev SPOKE.PORT_SELECT.off : Nat := 0x0F0000
abbrev SPOKE.PORT_SELECT.PORT : Fld := ⟨0x0F0000, 0, 3⟩
abbrev SPOKE.PORT_CTRL.off : Nat := 0x0F0004
abbrev SPOKE.PORT_CTRL.MODE : Fld := ⟨0x0F0004, 0, 2⟩
abbrev SPOKE.PORT_CTRL.RING : Fld := ⟨0x0F0004, 8, 8⟩
abbrev SPOKE.PORT_STATUS.off : Nat := 0x0F0008
abbrev SPOKE.PORT_STATUS.LINK_UP : Fld := ⟨0x0F0008, 0, 1⟩
abbrev SPOKE.PORT_STATUS.PARTNER : Fld := ⟨0x0F0008, 8, 8⟩
abbrev SPOKE.FREEWHEEL_CTRL.off : Nat := 0x0F0010
abbrev SPOKE.FREEWHEEL_CTRL.OPEN : Fld := ⟨0x0F0010, 0, 4⟩
abbrev SPOKE.FREEWHEEL_CTRL.CLOSE : Fld := ⟨0x0F0010, 4, 4⟩
abbrev SPOKE.FREEWHEEL_STATUS.off : Nat := 0x0F0014
abbrev SPOKE.FREEWHEEL_STATUS.STATE_i : Fld := ⟨0x0F0014, 0, 8⟩
abbrev SPOKE.PELOTON_ID.off : Nat := 0x0F0020
abbrev SPOKE.PELOTON_ID.ID : Fld := ⟨0x0F0020, 0, 32⟩
abbrev SPOKE.MEMBER_CTRL.off : Nat := 0x0F0024
abbrev SPOKE.MEMBER_CTRL.MEMBER_ID : Fld := ⟨0x0F0024, 0, 5⟩
abbrev SPOKE.MEMBER_CTRL.EXPECTED : Fld := ⟨0x0F0024, 8, 6⟩
abbrev SPOKE.MEMBER_CTRL.JOIN : Fld := ⟨0x0F0024, 16, 1⟩
abbrev SPOKE.MEMBER_CTRL.LEAVE : Fld := ⟨0x0F0024, 17, 1⟩
abbrev SPOKE.MEMBER_STATUS.off : Nat := 0x0F0028
abbrev SPOKE.MEMBER_STATUS.STATE : Fld := ⟨0x0F0028, 0, 3⟩
abbrev SPOKE.MEMBER_STATUS.CAUSE : Fld := ⟨0x0F0028, 4, 3⟩
abbrev SPOKE.MEMBER_STATUS.PACER : Fld := ⟨0x0F0028, 8, 5⟩
abbrev SPOKE.ROSTER.off : Nat := 0x0F002C
abbrev SPOKE.ROSTER.MEMBERS : Fld := ⟨0x0F002C, 0, 32⟩
abbrev SPOKE.MEMBER_TIMEOUT.off : Nat := 0x0F0030
abbrev SPOKE.MEMBER_TIMEOUT.STROKES : Fld := ⟨0x0F0030, 0, 16⟩
abbrev SPOKE.LINK_HOLD.off : Nat := 0x0F0034
abbrev SPOKE.LINK_HOLD.STROKES : Fld := ⟨0x0F0034, 0, 16⟩
abbrev SPOKE.XFER_WAIT.off : Nat := 0x0F0038
abbrev SPOKE.XFER_WAIT.STROKES : Fld := ⟨0x0F0038, 0, 16⟩
abbrev SPOKE.TANDEM_PARTNER.off : Nat := 0x0F003C
abbrev SPOKE.TANDEM_PARTNER.MEMBER : Fld := ⟨0x0F003C, 0, 5⟩
abbrev SPOKE.TANDEM_PARTNER.ENABLE : Fld := ⟨0x0F003C, 8, 1⟩
abbrev SPOKE.PEER_SELECT.off : Nat := 0x0F0040
abbrev SPOKE.PEER_SELECT.MEMBER : Fld := ⟨0x0F0040, 0, 5⟩
abbrev SPOKE.PEER_SELECT.TID : Fld := ⟨0x0F0040, 16, 10⟩
abbrev SPOKE.PEER_TENANT.off : Nat := 0x0F0044
abbrev SPOKE.PEER_TENANT.LOCAL_TID : Fld := ⟨0x0F0044, 0, 10⟩
abbrev SPOKE.TENANT_SELECT.off : Nat := 0x0F0048
abbrev SPOKE.TENANT_SELECT.TID : Fld := ⟨0x0F0048, 0, 10⟩
abbrev SPOKE.TENANT_EPOCH.off : Nat := 0x0F004C
abbrev SPOKE.TENANT_EPOCH.EPOCH : Fld := ⟨0x0F004C, 0, 32⟩
abbrev SPOKE.ROSTER_CHANGES.off : Nat := 0x0F0060
abbrev SPOKE.ROSTER_CHANGES.COUNT : Fld := ⟨0x0F0060, 0, 32⟩
abbrev SPOKE.BAD_FRAMES.off : Nat := 0x0F0064
abbrev SPOKE.BAD_FRAMES.COUNT : Fld := ⟨0x0F0064, 0, 32⟩
abbrev SPOKE.REPLAYS.off : Nat := 0x0F0068
abbrev SPOKE.REPLAYS.COUNT : Fld := ⟨0x0F0068, 0, 32⟩
abbrev SPOKE.NAKS.off : Nat := 0x0F006C
abbrev SPOKE.NAKS.COUNT : Fld := ⟨0x0F006C, 0, 32⟩
abbrev SPOKE.LATE_SWITCHES.off : Nat := 0x0F0070
abbrev SPOKE.LATE_SWITCHES.COUNT : Fld := ⟨0x0F0070, 0, 32⟩
abbrev RDMA.PORT_SELECT.off : Nat := 0x100000
abbrev RDMA.PORT_SELECT.PORT : Fld := ⟨0x100000, 0, 3⟩
abbrev RDMA.PORT_MAC_LO.off : Nat := 0x100004
abbrev RDMA.PORT_MAC_LO.MAC : Fld := ⟨0x100004, 0, 32⟩
abbrev RDMA.PORT_MAC_HI.off : Nat := 0x100008
abbrev RDMA.PORT_MAC_HI.MAC : Fld := ⟨0x100008, 0, 16⟩
abbrev RDMA.PORT_IP.off : Nat := 0x10000C
abbrev RDMA.PORT_IP.IP : Fld := ⟨0x10000C, 0, 32⟩
abbrev RDMA.PORT_CTRL.off : Nat := 0x10001C
abbrev RDMA.PORT_CTRL.VLAN : Fld := ⟨0x10001C, 0, 12⟩
abbrev RDMA.PORT_CTRL.VLAN_ON : Fld := ⟨0x10001C, 12, 1⟩
abbrev RDMA.PORT_CTRL.PFC_PRIO : Fld := ⟨0x10001C, 16, 3⟩
abbrev RDMA.PORT_CTRL.PFC_ON : Fld := ⟨0x10001C, 19, 1⟩
abbrev RDMA.PD_SELECT.off : Nat := 0x100020
abbrev RDMA.PD_SELECT.PD : Fld := ⟨0x100020, 0, 12⟩
abbrev RDMA.PD_CTRL.off : Nat := 0x100024
abbrev RDMA.PD_CTRL.OWNER_TID : Fld := ⟨0x100024, 0, 10⟩
abbrev RDMA.PD_CTRL.ENABLE : Fld := ⟨0x100024, 31, 1⟩
abbrev RDMA.QP_SELECT.off : Nat := 0x100030
abbrev RDMA.QP_SELECT.QP : Fld := ⟨0x100030, 0, 14⟩
abbrev RDMA.QP_BIND.off : Nat := 0x100034
abbrev RDMA.QP_BIND.PD : Fld := ⟨0x100034, 0, 12⟩
abbrev RDMA.QP_BIND.PORT : Fld := ⟨0x100034, 16, 3⟩
abbrev RDMA.QP_REMOTE.off : Nat := 0x100038
abbrev RDMA.QP_REMOTE.DEST_QPN : Fld := ⟨0x100038, 0, 24⟩
abbrev RDMA.QP_REMOTE_IP.off : Nat := 0x10003C
abbrev RDMA.QP_REMOTE_IP.IP : Fld := ⟨0x10003C, 0, 32⟩
abbrev RDMA.QP_PATH.off : Nat := 0x10004C
abbrev RDMA.QP_PATH.PATH_MTU : Fld := ⟨0x10004C, 0, 2⟩
abbrev RDMA.QP_PATH.DSCP : Fld := ⟨0x10004C, 4, 6⟩
abbrev RDMA.QP_PATH.SPRAY_PATHS : Fld := ⟨0x10004C, 16, 5⟩
abbrev RDMA.QP_PSN.off : Nat := 0x100050
abbrev RDMA.QP_PSN.RQ_PSN : Fld := ⟨0x100050, 0, 24⟩
abbrev RDMA.QP_SQ_PSN.off : Nat := 0x100054
abbrev RDMA.QP_SQ_PSN.SQ_PSN : Fld := ⟨0x100054, 0, 24⟩
abbrev RDMA.QP_RETRY.off : Nat := 0x100058
abbrev RDMA.QP_RETRY.TIMEOUT : Fld := ⟨0x100058, 0, 5⟩
abbrev RDMA.QP_RETRY.RETRY_COUNT : Fld := ⟨0x100058, 8, 3⟩
abbrev RDMA.QP_FLUSH.off : Nat := 0x10005C
abbrev RDMA.QP_FLUSH.FLUSH_PAGES : Fld := ⟨0x10005C, 0, 16⟩
abbrev RDMA.QP_CTRL.off : Nat := 0x100060
abbrev RDMA.QP_CTRL.NEXT_STATE : Fld := ⟨0x100060, 0, 3⟩
abbrev RDMA.QP_STATUS.off : Nat := 0x100064
abbrev RDMA.QP_STATUS.STATE : Fld := ⟨0x100064, 0, 3⟩
abbrev RDMA.QP_STATUS.ERR_CAUSE : Fld := ⟨0x100064, 8, 4⟩
abbrev RDMA.REGION_SELECT.off : Nat := 0x100070
abbrev RDMA.REGION_SELECT.INDEX : Fld := ⟨0x100070, 0, 20⟩
abbrev RDMA.REGION_KIND.off : Nat := 0x100074
abbrev RDMA.REGION_KIND.KIND : Fld := ⟨0x100074, 0, 1⟩
abbrev RDMA.REGION_KIND.PD : Fld := ⟨0x100074, 2, 12⟩
abbrev RDMA.REGION_KIND.PORT : Fld := ⟨0x100074, 16, 3⟩
abbrev RDMA.REGION_KIND.ACCESS : Fld := ⟨0x100074, 20, 2⟩
abbrev RDMA.REGION_BASE_LO.off : Nat := 0x100078
abbrev RDMA.REGION_BASE_LO.BASE : Fld := ⟨0x100078, 0, 32⟩
abbrev RDMA.REGION_BASE_HI.off : Nat := 0x10007C
abbrev RDMA.REGION_BASE_HI.BASE : Fld := ⟨0x10007C, 0, 32⟩
abbrev RDMA.REGION_LENGTH_LO.off : Nat := 0x100080
abbrev RDMA.REGION_LENGTH_LO.LENGTH : Fld := ⟨0x100080, 0, 32⟩
abbrev RDMA.REGION_LENGTH_HI.off : Nat := 0x100084
abbrev RDMA.REGION_LENGTH_HI.LENGTH : Fld := ⟨0x100084, 0, 9⟩
abbrev RDMA.REGION_REMOTE_KEY.off : Nat := 0x100088
abbrev RDMA.REGION_REMOTE_KEY.KEY : Fld := ⟨0x100088, 0, 32⟩
abbrev RDMA.REGION_COUNTER_LO.off : Nat := 0x10008C
abbrev RDMA.REGION_COUNTER_LO.ADDR : Fld := ⟨0x10008C, 0, 32⟩
abbrev RDMA.REGION_COUNTER_HI.off : Nat := 0x100090
abbrev RDMA.REGION_COUNTER_HI.ADDR : Fld := ⟨0x100090, 0, 32⟩
abbrev RDMA.REGION_CTRL.off : Nat := 0x100094
abbrev RDMA.REGION_CTRL.COMMIT : Fld := ⟨0x100094, 0, 1⟩
abbrev RDMA.REGION_CTRL.RELEASE : Fld := ⟨0x100094, 1, 1⟩
abbrev RDMA.REGION_STATUS.off : Nat := 0x100098
abbrev RDMA.REGION_STATUS.STATE : Fld := ⟨0x100098, 0, 2⟩
abbrev RDMA.REGION_STATUS.KEY_BYTE : Fld := ⟨0x100098, 8, 8⟩
abbrev RDMA.CC_CTRL.off : Nat := 0x1000A0
abbrev RDMA.CC_CTRL.CNP_INTERVAL_US : Fld := ⟨0x1000A0, 0, 16⟩
abbrev RDMA.CC_RATE_TIMER.off : Nat := 0x1000A4
abbrev RDMA.CC_RATE_TIMER.US : Fld := ⟨0x1000A4, 0, 16⟩
abbrev RDMA.CC_BYTE_COUNTER.off : Nat := 0x1000A8
abbrev RDMA.CC_BYTE_COUNTER.KIB : Fld := ⟨0x1000A8, 0, 32⟩
abbrev RDMA.CC_G.off : Nat := 0x1000AC
abbrev RDMA.CC_G.G_1024THS : Fld := ⟨0x1000AC, 0, 10⟩
abbrev RDMA.CC_RATES.off : Nat := 0x1000B0
abbrev RDMA.CC_RATES.ADD_RATE : Fld := ⟨0x1000B0, 0, 16⟩
abbrev RDMA.CC_RATES.HYPER_RATE : Fld := ⟨0x1000B0, 16, 16⟩
abbrev RDMA.CC_MIN_RATE.off : Nat := 0x1000B4
abbrev RDMA.CC_MIN_RATE.MBPS : Fld := ⟨0x1000B4, 0, 16⟩
abbrev RDMA.SPRAY_TIMEOUT.off : Nat := 0x1000B8
abbrev RDMA.SPRAY_TIMEOUT.US : Fld := ⟨0x1000B8, 0, 16⟩
abbrev RDMA.FEC_LIMIT.off : Nat := 0x1000BC
abbrev RDMA.FEC_LIMIT.COUNT : Fld := ⟨0x1000BC, 0, 32⟩
abbrev RDMA.EVENT_TID_SELECT.off : Nat := 0x1000C0
abbrev RDMA.EVENT_TID_SELECT.TID : Fld := ⟨0x1000C0, 0, 10⟩
abbrev RDMA.EVENT_BASE_LO.off : Nat := 0x1000C4
abbrev RDMA.EVENT_BASE_LO.ADDR : Fld := ⟨0x1000C4, 12, 20⟩
abbrev RDMA.EVENT_BASE_HI.off : Nat := 0x1000C8
abbrev RDMA.EVENT_BASE_HI.ADDR : Fld := ⟨0x1000C8, 0, 32⟩
abbrev RDMA.EVENT_CTRL.off : Nat := 0x1000CC
abbrev RDMA.EVENT_CTRL.ENABLE : Fld := ⟨0x1000CC, 0, 1⟩
abbrev RDMA.EVENT_CTRL.VECTOR : Fld := ⟨0x1000CC, 1, 11⟩
abbrev RDMA.FOREIGN_PACKETS.off : Nat := 0x1000E0
abbrev RDMA.FOREIGN_PACKETS.COUNT : Fld := ⟨0x1000E0, 0, 32⟩
abbrev RDMA.ACCESS_VIOLATIONS.off : Nat := 0x1000E4
abbrev RDMA.ACCESS_VIOLATIONS.COUNT : Fld := ⟨0x1000E4, 0, 32⟩
abbrev RDMA.CNPS_SENT.off : Nat := 0x1000E8
abbrev RDMA.CNPS_SENT.COUNT : Fld := ⟨0x1000E8, 0, 32⟩
abbrev RDMA.CNPS_RECEIVED.off : Nat := 0x1000EC
abbrev RDMA.CNPS_RECEIVED.COUNT : Fld := ⟨0x1000EC, 0, 32⟩
abbrev RDMA.RETRANSMITS.off : Nat := 0x1000F0
abbrev RDMA.RETRANSMITS.COUNT : Fld := ⟨0x1000F0, 0, 32⟩
abbrev POOL.CARVE_DRAM.off : Nat := 0x110000
abbrev POOL.CARVE_DRAM.GIB : Fld := ⟨0x110000, 0, 9⟩
abbrev POOL.CARVE_FLASH.off : Nat := 0x110004
abbrev POOL.CARVE_FLASH.TIB : Fld := ⟨0x110004, 0, 7⟩
abbrev POOL.SWAP_CACHE.off : Nat := 0x110008
abbrev POOL.SWAP_CACHE.GIB : Fld := ⟨0x110008, 0, 9⟩
abbrev POOL.DIRECT_HID.off : Nat := 0x11000C
abbrev POOL.DIRECT_HID.HID : Fld := ⟨0x11000C, 0, 12⟩
abbrev POOL.HOST_SELECT.off : Nat := 0x110010
abbrev POOL.HOST_SELECT.SLOT : Fld := ⟨0x110010, 0, 6⟩
abbrev POOL.HOST_CTRL.off : Nat := 0x110014
abbrev POOL.HOST_CTRL.HID : Fld := ⟨0x110014, 0, 12⟩
abbrev POOL.HOST_CTRL.ENABLE : Fld := ⟨0x110014, 31, 1⟩
abbrev POOL.HOST_RATE.off : Nat := 0x110018
abbrev POOL.HOST_RATE.UNITS : Fld := ⟨0x110018, 0, 24⟩
abbrev POOL.HOST_STATUS.off : Nat := 0x11001C
abbrev POOL.HOST_STATUS.STATE : Fld := ⟨0x11001C, 0, 2⟩
abbrev POOL.REGION_SELECT.off : Nat := 0x110020
abbrev POOL.REGION_SELECT.REGION : Fld := ⟨0x110020, 0, 8⟩
abbrev POOL.REGION_SIZE.off : Nat := 0x110024
abbrev POOL.REGION_SIZE.GIB : Fld := ⟨0x110024, 0, 21⟩
abbrev POOL.REGION_DEF.off : Nat := 0x110028
abbrev POOL.REGION_DEF.TIER : Fld := ⟨0x110028, 0, 1⟩
abbrev POOL.REGION_DEF.MIRROR : Fld := ⟨0x110028, 1, 1⟩
abbrev POOL.REGION_DEF.STANDBY : Fld := ⟨0x110028, 2, 1⟩
abbrev POOL.REGION_DEF.STACK_MASK : Fld := ⟨0x110028, 4, 8⟩
abbrev POOL.REGION_DEF.PARTITION : Fld := ⟨0x110028, 16, 7⟩
abbrev POOL.REGION_DEF.MIRROR_OF : Fld := ⟨0x110028, 24, 8⟩
abbrev POOL.REGION_CTRL.off : Nat := 0x11002C
abbrev POOL.REGION_CTRL.CREATE : Fld := ⟨0x11002C, 0, 1⟩
abbrev POOL.REGION_CTRL.DESTROY : Fld := ⟨0x11002C, 1, 1⟩
abbrev POOL.REGION_CTRL.TAKEOVER : Fld := ⟨0x11002C, 2, 1⟩
abbrev POOL.REGION_STATUS.off : Nat := 0x110030
abbrev POOL.REGION_STATUS.STATE : Fld := ⟨0x110030, 0, 3⟩
abbrev POOL.REGION_STATUS.MIRROR_STATE : Fld := ⟨0x110030, 4, 2⟩
abbrev POOL.REGION_STATUS.REFUSE_CAUSE : Fld := ⟨0x110030, 8, 3⟩
abbrev POOL.REGION_DPA_LO.off : Nat := 0x110034
abbrev POOL.REGION_DPA_LO.DPA : Fld := ⟨0x110034, 0, 32⟩
abbrev POOL.REGION_DPA_HI.off : Nat := 0x110038
abbrev POOL.REGION_DPA_HI.DPA : Fld := ⟨0x110038, 0, 32⟩
abbrev POOL.REGION_ACCESS.off : Nat := 0x110040
abbrev POOL.REGION_ACCESS.SLOT : Fld := ⟨0x110040, 0, 6⟩
abbrev POOL.REGION_ACCESS.ACCESS : Fld := ⟨0x110040, 8, 2⟩
abbrev POOL.RELEASE_WAIT.off : Nat := 0x110080
abbrev POOL.RELEASE_WAIT.STROKES : Fld := ⟨0x110080, 0, 16⟩
abbrev POOL.BI_TIMEOUT.off : Nat := 0x110084
abbrev POOL.BI_TIMEOUT.STROKES : Fld := ⟨0x110084, 0, 16⟩
abbrev POOL.DEVLOAD_SEVERE.off : Nat := 0x110088
abbrev POOL.DEVLOAD_SEVERE.STROKES : Fld := ⟨0x110088, 0, 8⟩
abbrev POOL.DIR_ROT.off : Nat := 0x11008C
abbrev POOL.DIR_ROT.SLOT : Fld := ⟨0x11008C, 0, 7⟩
abbrev POOL.KV_TID_SELECT.off : Nat := 0x110090
abbrev POOL.KV_TID_SELECT.TID : Fld := ⟨0x110090, 0, 10⟩
abbrev POOL.KV_MIRROR.off : Nat := 0x110094
abbrev POOL.KV_MIRROR.ENABLE : Fld := ⟨0x110094, 0, 1⟩
abbrev POOL.KV_MIRROR.STATE : Fld := ⟨0x110094, 4, 2⟩
abbrev POOL.TANDEM_CTRL.off : Nat := 0x110098
abbrev POOL.TANDEM_CTRL.RESYNC : Fld := ⟨0x110098, 0, 1⟩
abbrev POOL.TANDEM_STATUS.off : Nat := 0x11009C
abbrev POOL.TANDEM_STATUS.PARTNER_LOST : Fld := ⟨0x11009C, 0, 1⟩
abbrev POOL.TANDEM_STATUS.SYNCING : Fld := ⟨0x11009C, 1, 1⟩
abbrev POOL.TAKEOVER_KV.off : Nat := 0x1100A0
abbrev POOL.TAKEOVER_KV.SOURCE_TID : Fld := ⟨0x1100A0, 0, 10⟩
abbrev POOL.TAKEOVER_KV.SOURCE_MEMBER : Fld := ⟨0x1100A0, 10, 5⟩
abbrev POOL.TAKEOVER_KV.TARGET_TID : Fld := ⟨0x1100A0, 16, 10⟩
abbrev POOL.TAKEOVER_KV.GO : Fld := ⟨0x1100A0, 31, 1⟩
abbrev POOL.TAKEOVER_MAP_LO.off : Nat := 0x1100A4
abbrev POOL.TAKEOVER_MAP_LO.ADDR : Fld := ⟨0x1100A4, 0, 32⟩
abbrev POOL.TAKEOVER_MAP_HI.off : Nat := 0x1100A8
abbrev POOL.TAKEOVER_MAP_HI.ADDR : Fld := ⟨0x1100A8, 0, 32⟩
abbrev POOL.TAKEOVER_STATUS.off : Nat := 0x1100AC
abbrev POOL.TAKEOVER_STATUS.STATE : Fld := ⟨0x1100AC, 0, 3⟩
abbrev POOL.TAKEOVER_STATUS.FAIL_CAUSE : Fld := ⟨0x1100AC, 4, 4⟩
abbrev POOL.TAKEOVER_STATUS.SEQUENCES : Fld := ⟨0x1100AC, 8, 24⟩
abbrev POOL.FOREIGN_REQUESTS.off : Nat := 0x1100C0
abbrev POOL.FOREIGN_REQUESTS.COUNT : Fld := ⟨0x1100C0, 0, 32⟩
abbrev POOL.POISONED_RESPONSES.off : Nat := 0x1100C4
abbrev POOL.POISONED_RESPONSES.COUNT : Fld := ⟨0x1100C4, 0, 32⟩
abbrev POOL.BI_TIMEOUTS.off : Nat := 0x1100C8
abbrev POOL.BI_TIMEOUTS.COUNT : Fld := ⟨0x1100C8, 0, 32⟩
abbrev POOL.RECALLS_LO.off : Nat := 0x1100D0
abbrev POOL.RECALLS_LO.COUNT : Fld := ⟨0x1100D0, 0, 32⟩
abbrev POOL.RECALLS_HI.off : Nat := 0x1100D4
abbrev POOL.RECALLS_HI.COUNT : Fld := ⟨0x1100D4, 0, 32⟩
abbrev POOL.SWAP_INS_LO.off : Nat := 0x1100D8
abbrev POOL.SWAP_INS_LO.COUNT : Fld := ⟨0x1100D8, 0, 32⟩
abbrev POOL.SWAP_INS_HI.off : Nat := 0x1100DC
abbrev POOL.SWAP_INS_HI.COUNT : Fld := ⟨0x1100DC, 0, 32⟩
abbrev CLK.DOMAIN_SELECT.off : Nat := 0x120000
abbrev CLK.DOMAIN_SELECT.DOMAIN : Fld := ⟨0x120000, 0, 5⟩
abbrev CLK.DOMAIN_STATUS.off : Nat := 0x120004
abbrev CLK.DOMAIN_STATUS.STATE : Fld := ⟨0x120004, 0, 3⟩
abbrev CLK.DOMAIN_STATUS.PLL_LOCKED : Fld := ⟨0x120004, 3, 1⟩
abbrev CLK.DOMAIN_CTRL.off : Nat := 0x120008
abbrev CLK.DOMAIN_CTRL.STOP : Fld := ⟨0x120008, 0, 1⟩
abbrev CLK.DOMAIN_CTRL.START : Fld := ⟨0x120008, 1, 1⟩
abbrev CLK.DOMAIN_CTRL.ISOLATE : Fld := ⟨0x120008, 2, 1⟩
abbrev CLK.DOMAIN_CTRL.RESET : Fld := ⟨0x120008, 3, 1⟩
abbrev CLK.DOMAIN_CTRL.XING_RESET : Fld := ⟨0x120008, 4, 1⟩
abbrev CLK.XING_STATUS.off : Nat := 0x12000C
abbrev CLK.XING_STATUS.IN_EMPTY : Fld := ⟨0x12000C, 0, 1⟩
abbrev CLK.XING_STATUS.OUT_EMPTY : Fld := ⟨0x12000C, 1, 1⟩
abbrev CLK.XING_DIRTY.off : Nat := 0x120010
abbrev CLK.XING_DIRTY.DOMAIN_n : Fld := ⟨0x120010, 0, 22⟩
abbrev CLK.AUTO_GATE.off : Nat := 0x120014
abbrev CLK.AUTO_GATE.FLASH : Fld := ⟨0x120014, 0, 1⟩
abbrev CLK.AUTO_GATE.IDLE_US : Fld := ⟨0x120014, 16, 16⟩
abbrev CLK.WAKES_LO.off : Nat := 0x120018
abbrev CLK.WAKES_LO.COUNT : Fld := ⟨0x120018, 0, 32⟩
abbrev CLK.WAKES_HI.off : Nat := 0x12001C
abbrev CLK.WAKES_HI.COUNT : Fld := ⟨0x12001C, 0, 32⟩
abbrev CLK.OVERRUN_STATUS.off : Nat := 0x120020
abbrev CLK.OVERRUN_STATUS.CROSSING : Fld := ⟨0x120020, 0, 11⟩
abbrev CLK.OVERRUN_SELECT.off : Nat := 0x120024
abbrev CLK.OVERRUN_SELECT.BIT : Fld := ⟨0x120024, 0, 4⟩
abbrev CLK.OVERRUN_COUNT.off : Nat := 0x120028
abbrev CLK.OVERRUN_COUNT.COUNT : Fld := ⟨0x120028, 0, 32⟩
abbrev WDOG.FUSE_INFO.off : Nat := 0x130000
abbrev WDOG.FUSE_INFO.WINDOW_LOG2 : Fld := ⟨0x130000, 0, 2⟩
abbrev WDOG.SYS_PERIOD.off : Nat := 0x130004
abbrev WDOG.SYS_PERIOD.TICKS : Fld := ⟨0x130004, 0, 20⟩
abbrev WDOG.SYS_STATUS.off : Nat := 0x130008
abbrev WDOG.SYS_STATUS.COUNT : Fld := ⟨0x130008, 0, 20⟩
abbrev WDOG.SYS_STATUS.IN_WINDOW : Fld := ⟨0x130008, 20, 1⟩
abbrev WDOG.SYS_STATUS.SERVER : Fld := ⟨0x130008, 21, 1⟩
abbrev WDOG.SYS_TASKS.off : Nat := 0x13000C
abbrev WDOG.SYS_TASKS.MASK : Fld := ⟨0x13000C, 0, 8⟩
abbrev WDOG.SYS_TASKS.DONE : Fld := ⟨0x13000C, 8, 8⟩
abbrev WDOG.SYS_TASKS.SEQ : Fld := ⟨0x13000C, 16, 8⟩
abbrev WDOG.HOST_CTRL.off : Nat := 0x130010
abbrev WDOG.HOST_CTRL.ENABLE : Fld := ⟨0x130010, 0, 1⟩
abbrev WDOG.HOST_CTRL.CLOCK : Fld := ⟨0x130010, 1, 1⟩
abbrev WDOG.HOST_CTRL.ACTION : Fld := ⟨0x130010, 2, 1⟩
abbrev WDOG.HOST_PERIOD.off : Nat := 0x130014
abbrev WDOG.HOST_PERIOD.UNITS : Fld := ⟨0x130014, 0, 24⟩
abbrev WDOG.HOST_TASKS.off : Nat := 0x130018
abbrev WDOG.HOST_TASKS.MASK : Fld := ⟨0x130018, 0, 8⟩
abbrev WDOG.HOST_STATUS.off : Nat := 0x13001C
abbrev WDOG.HOST_STATUS.ENABLED : Fld := ⟨0x13001C, 0, 1⟩
abbrev WDOG.HOST_STATUS.IN_WINDOW : Fld := ⟨0x13001C, 1, 1⟩
abbrev WDOG.HOST_STATUS.DONE : Fld := ⟨0x13001C, 8, 8⟩
abbrev WDOG.HOST_STATUS.SEQ : Fld := ⟨0x13001C, 16, 8⟩
abbrev WDOG.HOST_COUNT.off : Nat := 0x130020
abbrev WDOG.HOST_COUNT.COUNT : Fld := ⟨0x130020, 0, 24⟩
abbrev WDOG.HOST_CHECKIN.off : Nat := 0x130024
abbrev WDOG.HOST_CHECKIN.TASK : Fld := ⟨0x130024, 0, 3⟩
abbrev WDOG.HOST_CHECKIN.SEQ : Fld := ⟨0x130024, 8, 8⟩
abbrev WDOG.HOST_DISABLE.off : Nat := 0x130028
abbrev WDOG.HOST_DISABLE.KEY : Fld := ⟨0x130028, 0, 16⟩
abbrev WDOG.POLICY.off : Nat := 0x13002C
abbrev WDOG.POLICY.LOCK : Fld := ⟨0x13002C, 0, 1⟩
abbrev WDOG.GRACE.off : Nat := 0x130030
abbrev WDOG.GRACE.TICKS : Fld := ⟨0x130030, 0, 16⟩
abbrev WDOG.QUIESCE_LIMIT.off : Nat := 0x130034
abbrev WDOG.QUIESCE_LIMIT.TICKS : Fld := ⟨0x130034, 0, 24⟩
abbrev WDOG.CRASH_BASE_LO.off : Nat := 0x130038
abbrev WDOG.CRASH_BASE_LO.ADDR : Fld := ⟨0x130038, 16, 16⟩
abbrev WDOG.CRASH_BASE_HI.off : Nat := 0x13003C
abbrev WDOG.CRASH_BASE_HI.ADDR : Fld := ⟨0x13003C, 0, 32⟩
abbrev WDOG.CLOCK_STATUS.off : Nat := 0x130040
abbrev WDOG.CLOCK_STATUS.STOPPED : Fld := ⟨0x130040, 0, 22⟩
abbrev WDOG.CLOCK_STATUS.XTAL_FAIL : Fld := ⟨0x130040, 31, 1⟩
abbrev WDOG.LAST_EXPIRY.off : Nat := 0x130044
abbrev WDOG.LAST_EXPIRY.SYS : Fld := ⟨0x130044, 0, 1⟩
abbrev WDOG.LAST_EXPIRY.HOST : Fld := ⟨0x130044, 1, 1⟩
abbrev WDOG.LAST_EXPIRY.CAUSE : Fld := ⟨0x130044, 2, 3⟩
abbrev WDOG.LAST_EXPIRY.MISSING : Fld := ⟨0x130044, 8, 8⟩
abbrev WDOG.LAST_EXPIRY.DOMAIN : Fld := ⟨0x130044, 16, 5⟩
abbrev ERR.STATUS.off : Nat := 0x140000
abbrev ERR.STATUS.CLASS : Fld := ⟨0x140000, 0, 8⟩
abbrev ERR.IRQ_MASK.off : Nat := 0x140004
abbrev ERR.IRQ_MASK.CLASS : Fld := ⟨0x140004, 0, 8⟩
abbrev ERR.IRQ_VECTOR.off : Nat := 0x140008
abbrev ERR.IRQ_VECTOR.VECTOR : Fld := ⟨0x140008, 0, 11⟩
abbrev ERR.FIRST.off : Nat := 0x14000C
abbrev ERR.FIRST.VALID : Fld := ⟨0x14000C, 0, 1⟩
abbrev ERR.FIRST.CLASS : Fld := ⟨0x14000C, 1, 3⟩
abbrev ERR.FIRST.SOURCE : Fld := ⟨0x14000C, 8, 8⟩
abbrev ERR.FIRST_STROKE_LO.off : Nat := 0x140010
abbrev ERR.FIRST_STROKE_LO.STROKE : Fld := ⟨0x140010, 0, 32⟩
abbrev ERR.FIRST_STROKE_HI.off : Nat := 0x140014
abbrev ERR.FIRST_STROKE_HI.STROKE : Fld := ⟨0x140014, 0, 16⟩
abbrev ERR.FIRST_INFO_LO.off : Nat := 0x140018
abbrev ERR.FIRST_INFO_LO.INFO : Fld := ⟨0x140018, 0, 32⟩
abbrev ERR.FIRST_INFO_HI.off : Nat := 0x14001C
abbrev ERR.FIRST_INFO_HI.INFO : Fld := ⟨0x14001C, 0, 32⟩
abbrev ERR.COUNT_CORRECTED_LO.off : Nat := 0x140040
abbrev ERR.COUNT_CORRECTED_LO.COUNT : Fld := ⟨0x140040, 0, 32⟩
abbrev ERR.COUNT_CORRECTED_HI.off : Nat := 0x140044
abbrev ERR.COUNT_CORRECTED_HI.COUNT : Fld := ⟨0x140044, 0, 32⟩
abbrev ERR.COUNT_PAGE_LOSS_LO.off : Nat := 0x140048
abbrev ERR.COUNT_PAGE_LOSS_LO.COUNT : Fld := ⟨0x140048, 0, 32⟩
abbrev ERR.COUNT_PAGE_LOSS_HI.off : Nat := 0x14004C
abbrev ERR.COUNT_PAGE_LOSS_HI.COUNT : Fld := ⟨0x14004C, 0, 32⟩
abbrev ERR.COUNT_INPUT_LO.off : Nat := 0x140050
abbrev ERR.COUNT_INPUT_LO.COUNT : Fld := ⟨0x140050, 0, 32⟩
abbrev ERR.COUNT_INPUT_HI.off : Nat := 0x140054
abbrev ERR.COUNT_INPUT_HI.COUNT : Fld := ⟨0x140054, 0, 32⟩
abbrev ERR.COUNT_UNIT_LO.off : Nat := 0x140058
abbrev ERR.COUNT_UNIT_LO.COUNT : Fld := ⟨0x140058, 0, 32⟩
abbrev ERR.COUNT_UNIT_HI.off : Nat := 0x14005C
abbrev ERR.COUNT_UNIT_HI.COUNT : Fld := ⟨0x14005C, 0, 32⟩
abbrev ERR.COUNT_LINK_LO.off : Nat := 0x140060
abbrev ERR.COUNT_LINK_LO.COUNT : Fld := ⟨0x140060, 0, 32⟩
abbrev ERR.COUNT_LINK_HI.off : Nat := 0x140064
abbrev ERR.COUNT_LINK_HI.COUNT : Fld := ⟨0x140064, 0, 32⟩
abbrev ERR.COUNT_RESOURCE_LO.off : Nat := 0x140068
abbrev ERR.COUNT_RESOURCE_LO.COUNT : Fld := ⟨0x140068, 0, 32⟩
abbrev ERR.COUNT_RESOURCE_HI.off : Nat := 0x14006C
abbrev ERR.COUNT_RESOURCE_HI.COUNT : Fld := ⟨0x14006C, 0, 32⟩
abbrev ERR.COUNT_HOST_LO.off : Nat := 0x140070
abbrev ERR.COUNT_HOST_LO.COUNT : Fld := ⟨0x140070, 0, 32⟩
abbrev ERR.COUNT_HOST_HI.off : Nat := 0x140074
abbrev ERR.COUNT_HOST_HI.COUNT : Fld := ⟨0x140074, 0, 32⟩
abbrev ERR.COUNT_FATAL_LO.off : Nat := 0x140078
abbrev ERR.COUNT_FATAL_LO.COUNT : Fld := ⟨0x140078, 0, 32⟩
abbrev ERR.COUNT_FATAL_HI.off : Nat := 0x14007C
abbrev ERR.COUNT_FATAL_HI.COUNT : Fld := ⟨0x14007C, 0, 32⟩
abbrev ERR.STACK_STATUS.off : Nat := 0x140080
abbrev ERR.STACK_STATUS.FAILED : Fld := ⟨0x140080, 0, 8⟩
abbrev ERR.UNIT_RETIRED.off : Nat := 0x140084
abbrev ERR.UNIT_RETIRED.TILES : Fld := ⟨0x140084, 0, 5⟩
abbrev ERR.UNIT_RETIRED.LANES : Fld := ⟨0x140084, 8, 3⟩
abbrev ERR.UNIT_RETIRED.ENCODERS : Fld := ⟨0x140084, 12, 3⟩
abbrev ERR.UNIT_RETIRED.DECODERS : Fld := ⟨0x140084, 16, 5⟩
abbrev ERR.SEQ_PROBE_TID.off : Nat := 0x140090
abbrev ERR.SEQ_PROBE_TID.TID : Fld := ⟨0x140090, 0, 10⟩
abbrev ERR.SEQ_PROBE_SID.off : Nat := 0x140094
abbrev ERR.SEQ_PROBE_SID.SID : Fld := ⟨0x140094, 0, 32⟩
abbrev ERR.SEQ_PROBE_CTRL.off : Nat := 0x140098
abbrev ERR.SEQ_PROBE_CTRL.GO : Fld := ⟨0x140098, 0, 1⟩
abbrev ERR.SEQ_PROBE_RESULT.off : Nat := 0x14009C
abbrev ERR.SEQ_PROBE_RESULT.DONE : Fld := ⟨0x14009C, 0, 1⟩
abbrev ERR.SEQ_PROBE_RESULT.STATE : Fld := ⟨0x14009C, 1, 2⟩
abbrev ERR.SEQ_PROBE_LENGTH.off : Nat := 0x1400A0
abbrev ERR.SEQ_PROBE_LENGTH.L : Fld := ⟨0x1400A0, 0, 32⟩
abbrev ERR.SEQ_PROBE_ABSENT.off : Nat := 0x1400A4
abbrev ERR.SEQ_PROBE_ABSENT.PAGES : Fld := ⟨0x1400A4, 0, 32⟩
abbrev ERR.OBS_CTRL.off : Nat := 0x1400B0
abbrev ERR.OBS_CTRL.START : Fld := ⟨0x1400B0, 0, 1⟩
abbrev ERR.OBS_CTRL.STOP : Fld := ⟨0x1400B0, 1, 1⟩
abbrev ERR.OBS_CTRL.ARM : Fld := ⟨0x1400B0, 2, 1⟩
abbrev ERR.OBS_START_LO.off : Nat := 0x1400B4
abbrev ERR.OBS_START_LO.STROKE : Fld := ⟨0x1400B4, 0, 32⟩
abbrev ERR.OBS_START_HI.off : Nat := 0x1400B8
abbrev ERR.OBS_START_HI.STROKE : Fld := ⟨0x1400B8, 0, 16⟩
abbrev ERR.OBS_END_LO.off : Nat := 0x1400BC
abbrev ERR.OBS_END_LO.STROKE : Fld := ⟨0x1400BC, 0, 32⟩
abbrev ERR.OBS_END_HI.off : Nat := 0x1400C0
abbrev ERR.OBS_END_HI.STROKE : Fld := ⟨0x1400C0, 0, 16⟩
abbrev ERR.OBS_STATUS.off : Nat := 0x1400C4
abbrev ERR.OBS_STATUS.OPEN : Fld := ⟨0x1400C4, 0, 1⟩
abbrev ERR.OBS_STATUS.VALID : Fld := ⟨0x1400C4, 1, 1⟩
abbrev ERR.OBS_COUNT.off : Nat := 0x1400D0
abbrev ERR.OBS_COUNT.COUNT : Fld := ⟨0x1400D0, 0, 32⟩
abbrev ERR.OBS_LATE.off : Nat := 0x1400F0
abbrev ERR.OBS_LATE.COUNT : Fld := ⟨0x1400F0, 0, 32⟩

/-! The FN ring registers: their offsets relative to one ring's 16 bytes of the ring window (Table 21-6, Table 6-11).
The CQ registers lie 0x80 above. -/

abbrev FN.SQ_BASE_LO.rel : Nat := 0x00
abbrev FN.SQ_BASE_LO.ADDR : Fld := ⟨0x00, 12, 20⟩
abbrev FN.SQ_BASE_HI.rel : Nat := 0x04
abbrev FN.SQ_BASE_HI.ADDR : Fld := ⟨0x04, 0, 32⟩
abbrev FN.SQ_CTRL.rel : Nat := 0x08
abbrev FN.SQ_CTRL.LENGTH_LOG2 : Fld := ⟨0x08, 0, 5⟩
abbrev FN.SQ_CTRL.CQ : Fld := ⟨0x08, 8, 3⟩
abbrev FN.SQ_CTRL.ENABLE : Fld := ⟨0x08, 16, 1⟩
abbrev FN.SQ_STATUS.rel : Nat := 0x0C
abbrev FN.SQ_STATUS.WAIT : Fld := ⟨0x0C, 0, 8⟩
abbrev FN.CQ_BASE_LO.rel : Nat := 0x80
abbrev FN.CQ_BASE_LO.ADDR : Fld := ⟨0x80, 12, 20⟩
abbrev FN.CQ_BASE_HI.rel : Nat := 0x84
abbrev FN.CQ_BASE_HI.ADDR : Fld := ⟨0x84, 0, 32⟩
abbrev FN.CQ_CTRL.rel : Nat := 0x88
abbrev FN.CQ_CTRL.LENGTH_LOG2 : Fld := ⟨0x88, 0, 5⟩
abbrev FN.CQ_CTRL.ENABLE : Fld := ⟨0x88, 8, 1⟩
abbrev FN.CQ_CTRL.IRQ_ENABLE : Fld := ⟨0x88, 9, 1⟩
abbrev FN.CQ_CTRL.VECTOR : Fld := ⟨0x88, 16, 11⟩
abbrev FN.CQ_MODERATION.rel : Nat := 0x8C
abbrev FN.CQ_MODERATION.COUNT : Fld := ⟨0x8C, 0, 16⟩
abbrev FN.CQ_MODERATION.STROKES : Fld := ⟨0x8C, 16, 16⟩

/-- Rows of block SYS (chapter 21, the block maps). -/
def regRowsSYS : List RegRow := [
  ⟨0x000000, 1, none, [⟨0, 12, .ro, 1495⟩, ⟨12, 8, .ro, 49⟩]⟩,
  ⟨0x000004, 1, none, [⟨0, 3, .ro, Config.stepping⟩, ⟨8, 8, .ro, Config.romKeysRevoked⟩, ⟨16, 16, .ro, Config.romVersion⟩]⟩,
  ⟨0x000008, 4, none, [⟨0, 32, .ro, 0⟩]⟩,
  ⟨0x000018, 1, none, [⟨0, 32, .ro, 0⟩]⟩,
  ⟨0x00001C, 1, none, [⟨0, 32, .ro, 0⟩]⟩,
  ⟨0x000020, 1, none, [⟨0, 32, .ro, 0⟩]⟩,
  ⟨0x000040, 1, none, [⟨0, 4, .ro, 1⟩]⟩,
  ⟨0x000044, 1, none, [⟨0, 1, .w1s, 0⟩]⟩,
  ⟨0x000048, 1, none, [⟨0, 1, .w1c, 0⟩, ⟨1, 3, .ro, 0⟩]⟩,
  ⟨0x00004C, 1, none, [⟨0, 6, .ro, 0⟩]⟩,
  ⟨0x000050, 1, none, [⟨0, 8, .ro, 0⟩, ⟨8, 8, .ro, 0⟩]⟩,
  ⟨0x000100, 1, none, [⟨0, 32, .ro, 0⟩]⟩,
  ⟨0x000104, 1, none, [⟨0, 16, .ro, 0⟩]⟩,
  ⟨0x000108, 1, none, [⟨0, 7, .ro, 8⟩, ⟨8, 7, .rw, 8⟩]⟩,
  ⟨0x00010C, 1, none, [⟨0, 32, .rw, 0⟩]⟩,
  ⟨0x000110, 1, none, [⟨0, 16, .rw, 0⟩]⟩,
  ⟨0x000114, 1, none, [⟨0, 1, .w1s, 0⟩, ⟨1, 1, .w1s, 0⟩]⟩,
  ⟨0x000118, 1, none, [⟨0, 1, .ro, 0⟩, ⟨1, 1, .w1c, 0⟩, ⟨2, 1, .w1c, 0⟩, ⟨3, 1, .ro, 0⟩, ⟨4, 1, .ro, 0⟩, ⟨5, 1, .ro, 0⟩, ⟨16, 16, .ro, 0⟩]⟩,
  ⟨0x00011C, 1, none, [⟨0, 32, .ro, 0⟩]⟩]

/-- Rows of block ROLE (chapter 21, the block maps). -/
def regRowsROLE : List RegRow := [
  ⟨0x010000, 1, none, [⟨0, 1, .rwl, 0⟩]⟩,
  ⟨0x010004, 1, none, [⟨0, 1, .ro, 0⟩, ⟨1, 3, .ro, 0⟩, ⟨4, 2, .ro, 0⟩, ⟨6, 1, .ro, 0⟩]⟩,
  ⟨0x010010, 1, none, [⟨0, 32, .rw, 0⟩]⟩,
  ⟨0x010014, 1, none, [⟨0, 32, .rw, 0⟩]⟩,
  ⟨0x010018, 1, none, [⟨0, 4, .rw, 12⟩, ⟨8, 1, .rw, 0⟩, ⟨16, 11, .rw, 0⟩]⟩,
  ⟨0x01001C, 1, none, [⟨0, 13, .rw, 2048⟩]⟩,
  ⟨0x010020, 1, none, [⟨0, 32, .ro, 0⟩]⟩,
  ⟨0x010024, 1, none, [⟨0, 32, .rw, 0⟩]⟩,
  ⟨0x010028, 1, none, [⟨0, 1, .w1c, 0⟩, ⟨8, 7, .ro, 0⟩]⟩,
  ⟨0x01002C, 1, none, [⟨0, 32, .ro, 0⟩]⟩,
  ⟨0x010030, 1, none, [⟨0, 1, .rwl, 0⟩, ⟨31, 1, .rwl, 0⟩]⟩,
  ⟨0x010040, 1, none, [⟨0, 32, .ro, 0⟩]⟩,
  ⟨0x010044, 1, none, [⟨0, 32, .ro, 0⟩]⟩,
  ⟨0x010048, 1, none, [⟨0, 1, .w1c, 0⟩, ⟨1, 3, .ro, 0⟩, ⟨8, 4, .ro, 0⟩]⟩,
  ⟨0x01004C, 1, none, [⟨0, 24, .ro, 0⟩]⟩,
  ⟨0x010050, 1, none, [⟨0, 32, .ro, 0⟩]⟩,
  ⟨0x010054, 1, none, [⟨0, 32, .ro, 0⟩]⟩,
  ⟨0x010058, 1, none, [⟨0, 16, .ro, 0⟩]⟩]

/-- Rows of block IMG (chapter 21, the block maps). -/
def regRowsIMG : List RegRow := [
  ⟨0x020000, 1, none, [⟨0, 3, .rw, 0⟩, ⟨8, 1, .rw, 0⟩]⟩,
  ⟨0x020004, 1, none, [⟨0, 1, .w1s, 0⟩, ⟨1, 1, .w1s, 0⟩]⟩,
  ⟨0x020008, 1, none, [⟨0, 4, .ro, 0⟩, ⟨4, 2, .ro, 0⟩, ⟨8, 8, .ro, 0⟩, ⟨16, 8, .ro, 0⟩]⟩,
  ⟨0x02000C, 1, none, [⟨0, 32, .ro, 0⟩]⟩,
  ⟨0x020010, 1, none, [⟨0, 32, .ro, 0⟩]⟩,
  ⟨0x020014, 1, none, [⟨0, 32, .rw, 0⟩]⟩,
  ⟨0x020018, 1, none, [⟨0, 32, .ro, 4294967295⟩]⟩,
  ⟨0x02001C, 1, none, [⟨0, 32, .ro, 0⟩]⟩,
  ⟨0x020020, 4, none, [⟨0, 32, .ro, 0⟩]⟩,
  ⟨0x020030, 1, none, [⟨0, 1, .rwl, 0⟩, ⟨1, 1, .rwl, 0⟩, ⟨2, 1, .rwl, 0⟩, ⟨31, 1, .rwl, 0⟩]⟩,
  ⟨0x020040, 24, none, [⟨0, 32, .rwl, 0⟩]⟩,
  ⟨0x0200A0, 1, none, [⟨0, 32, .rwl, 0⟩]⟩,
  ⟨0x0200A4, 1, none, [⟨0, 32, .rwl, 0⟩]⟩,
  ⟨0x0200A8, 1, none, [⟨0, 32, .rwl, 0⟩]⟩,
  ⟨0x0200AC, 1, none, [⟨0, 32, .rwl, 0⟩]⟩,
  ⟨0x0200C0, 1, none, [⟨0, 32, .ro, 0⟩]⟩,
  ⟨0x0200C4, 1, none, [⟨0, 32, .ro, 0⟩]⟩,
  ⟨0x0200C8, 1, none, [⟨0, 32, .ro, 0⟩]⟩,
  ⟨0x0200CC, 1, none, [⟨0, 32, .ro, 0⟩]⟩,
  ⟨0x0200D0, 1, none, [⟨0, 32, .ro, 0⟩]⟩,
  ⟨0x0200D4, 1, none, [⟨0, 32, .ro, 0⟩]⟩,
  ⟨0x0200D8, 1, none, [⟨0, 32, .ro, 0⟩]⟩,
  ⟨0x0200DC, 1, none, [⟨0, 32, .ro, 0⟩]⟩,
  ⟨0x0200E0, 1, none, [⟨0, 32, .ro, 0⟩]⟩]

/-- Rows of block PART (chapter 21, the block maps). -/
def regRowsPART0 : List RegRow := [
  ⟨0x080000, 1, none, [⟨0, 7, .rw, 0⟩]⟩,
  ⟨0x080004, 1, some 0x080000, [⟨0, 1, .w1s, 0⟩, ⟨1, 1, .w1s, 0⟩]⟩,
  ⟨0x080008, 1, some 0x080000, [⟨0, 1, .ro, 0⟩, ⟨8, 11, .ro, 0⟩]⟩,
  ⟨0x080010, 1, some 0x080000, [⟨0, 24, .rw, 0⟩]⟩,
  ⟨0x080014, 1, some 0x080000, [⟨0, 24, .rw, 0⟩]⟩,
  ⟨0x080018, 1, some 0x080000, [⟨0, 24, .rw, 0⟩]⟩,
  ⟨0x08001C, 1, some 0x080000, [⟨0, 24, .rw, 0⟩]⟩,
  ⟨0x080020, 1, some 0x080000, [⟨0, 24, .rw, 0⟩]⟩,
  ⟨0x080024, 1, some 0x080000, [⟨0, 24, .rw, 0⟩]⟩,
  ⟨0x080030, 1, some 0x080000, [⟨0, 24, .ro, 0⟩]⟩,
  ⟨0x080034, 1, some 0x080000, [⟨0, 24, .ro, 0⟩]⟩,
  ⟨0x080038, 1, some 0x080000, [⟨0, 24, .ro, 0⟩]⟩,
  ⟨0x08003C, 1, some 0x080000, [⟨0, 24, .ro, 0⟩]⟩,
  ⟨0x080040, 1, some 0x080000, [⟨0, 24, .ro, 0⟩]⟩,
  ⟨0x080044, 1, some 0x080000, [⟨0, 24, .ro, 0⟩]⟩,
  ⟨0x080050, 1, some 0x080000, [⟨0, 16, .rw, 0⟩]⟩,
  ⟨0x080054, 1, some 0x080000, [⟨0, 16, .rw, 1024⟩]⟩,
  ⟨0x080058, 1, some 0x080000, [⟨0, 32, .ro, 0⟩]⟩,
  ⟨0x08005C, 1, some 0x080000, [⟨0, 32, .ro, 0⟩]⟩,
  ⟨0x080080, 1, none, [⟨0, 1, .w1s, 0⟩]⟩,
  ⟨0x080084, 1, none, [⟨0, 1, .ro, 0⟩, ⟨1, 1, .w1c, 0⟩, ⟨2, 1, .w1c, 0⟩, ⟨8, 3, .ro, 0⟩]⟩,
  ⟨0x080088, 1, none, [⟨0, 32, .rw, 0⟩]⟩,
  ⟨0x08008C, 1, none, [⟨0, 16, .rw, 0⟩]⟩,
  ⟨0x0800A0, 1, none, [⟨0, 24, .ro, 16384⟩]⟩,
  ⟨0x0800A4, 1, none, [⟨0, 24, .ro, 88⟩]⟩,
  ⟨0x0800A8, 1, none, [⟨0, 24, .ro, 12800⟩]⟩,
  ⟨0x0800AC, 1, none, [⟨0, 24, .ro, 100⟩]⟩,
  ⟨0x0800B0, 1, none, [⟨0, 24, .ro, 1562⟩]⟩,
  ⟨0x0800B4, 1, none, [⟨0, 24, .ro, 448⟩]⟩,
  ⟨0x080100, 1, none, [⟨0, 10, .rw, 0⟩]⟩]

/-- Rows of block PART (chapter 21, the block maps). -/
def regRowsPART1 : List RegRow := [
  ⟨0x080104, 1, some 0x080100, [⟨0, 7, .rw, 0⟩, ⟨8, 7, .ro, 0⟩]⟩,
  ⟨0x080108, 1, some 0x080100, [⟨0, 17, .rw, 0⟩, ⟨17, 13, .rw, 0⟩]⟩,
  ⟨0x08010C, 1, some 0x080100, [⟨0, 1, .w1s, 0⟩, ⟨1, 1, .w1s, 0⟩, ⟨2, 1, .w1s, 0⟩]⟩,
  ⟨0x080110, 1, some 0x080100, [⟨0, 2, .ro, 0⟩, ⟨4, 3, .ro, 0⟩, ⟨16, 16, .ro, 0⟩]⟩,
  ⟨0x080114, 1, none, [⟨0, 16, .rw, 10000⟩]⟩,
  ⟨0x080140, 16, some 0x080100, [⟨0, 32, .wo, 0⟩]⟩,
  ⟨0x080180, 1, some 0x080100, [⟨0, 1, .w1s, 0⟩, ⟨1, 1, .w1s, 0⟩]⟩,
  ⟨0x080184, 1, some 0x080100, [⟨0, 1, .ro, 0⟩, ⟨1, 3, .ro, 0⟩]⟩,
  ⟨0x080188, 1, some 0x080100, [⟨0, 32, .ro, 0⟩]⟩]

/-- Rows of block XLAT (chapter 21, the block maps). -/
def regRowsXLAT : List RegRow := [
  ⟨0x090000, 1, none, [⟨0, 7, .rw, 0⟩]⟩,
  ⟨0x090004, 1, none, [⟨0, 16, .ro, 0⟩]⟩,
  ⟨0x090010, 1, none, [⟨0, 10, .rw, 0⟩]⟩,
  ⟨0x090014, 1, some 0x090010, [⟨0, 24, .rw, 0⟩]⟩,
  ⟨0x090018, 1, some 0x090010, [⟨0, 25, .ro, 0⟩]⟩,
  ⟨0x09001C, 1, some 0x090010, [⟨0, 16, .ro, 0⟩]⟩,
  ⟨0x090020, 1, some 0x090010, [⟨0, 1, .w1s, 0⟩]⟩,
  ⟨0x090024, 1, some 0x090010, [⟨0, 3, .ro, 0⟩, ⟨4, 4, .ro, 0⟩]⟩,
  ⟨0x090030, 1, none, [⟨0, 1, .w1s, 0⟩]⟩,
  ⟨0x090040, 1, none, [⟨0, 32, .ro, 0⟩]⟩,
  ⟨0x090044, 1, none, [⟨0, 32, .ro, 0⟩]⟩,
  ⟨0x090048, 1, none, [⟨0, 32, .ro, 0⟩]⟩,
  ⟨0x09004C, 1, none, [⟨0, 32, .ro, 0⟩]⟩,
  ⟨0x090050, 1, none, [⟨0, 32, .ro, 0⟩]⟩,
  ⟨0x090054, 1, none, [⟨0, 32, .ro, 0⟩]⟩]

/-- Rows of block TIER (chapter 21, the block maps). -/
def regRowsTIER0 : List RegRow := [
  ⟨0x0A0000, 1, none, [⟨0, 1, .w1s, 0⟩]⟩,
  ⟨0x0A0004, 1, none, [⟨0, 1, .ro, 0⟩, ⟨16, 12, .ro, 0⟩]⟩,
  ⟨0x0A0008, 1, none, [⟨0, 12, .rw, 0⟩]⟩,
  ⟨0x0A000C, 1, some 0x0A0008, [⟨0, 10, .ro, 0⟩, ⟨10, 1, .ro, 0⟩, ⟨11, 1, .ro, 0⟩, ⟨12, 1, .ro, 0⟩, ⟨13, 1, .ro, 0⟩, ⟨24, 5, .ro, 0⟩, ⟨16, 3, .ro, 0⟩, ⟨20, 4, .ro, 0⟩]⟩,
  ⟨0x0A0010, 1, some 0x0A0008, [⟨0, 32, .ro, 0⟩]⟩,
  ⟨0x0A0014, 1, some 0x0A0008, [⟨0, 32, .ro, 0⟩]⟩,
  ⟨0x0A0018, 1, some 0x0A0008, [⟨0, 32, .ro, 0⟩]⟩,
  ⟨0x0A001C, 1, some 0x0A0008, [⟨0, 2, .wo, 0⟩, ⟨16, 10, .wo, 0⟩]⟩,
  ⟨0x0A0020, 1, none, [⟨0, 1, .w1s, 0⟩]⟩,
  ⟨0x0A0024, 1, none, [⟨0, 1, .ro, 0⟩]⟩,
  ⟨0x0A0040, 1, none, [⟨0, 23, .ro, 0⟩]⟩,
  ⟨0x0A0044, 1, none, [⟨0, 23, .ro, 0⟩]⟩,
  ⟨0x0A0048, 1, none, [⟨0, 23, .rw, 196608⟩]⟩,
  ⟨0x0A004C, 1, none, [⟨0, 23, .rw, 65536⟩]⟩,
  ⟨0x0A0050, 1, none, [⟨0, 5, .rw, 10⟩, ⟨8, 4, .rw, 8⟩]⟩,
  ⟨0x0A0054, 1, none, [⟨0, 16, .rw, 16⟩]⟩,
  ⟨0x0A0058, 1, none, [⟨0, 16, .rw, 125⟩]⟩,
  ⟨0x0A005C, 1, none, [⟨0, 4, .ro, 1⟩]⟩,
  ⟨0x0A0060, 1, none, [⟨0, 1, .ro, 0⟩, ⟨1, 1, .ro, 0⟩, ⟨8, 7, .ro, 0⟩]⟩,
  ⟨0x0A0070, 1, none, [⟨0, 7, .rw, 0⟩]⟩,
  ⟨0x0A0074, 1, some 0x0A0070, [⟨0, 23, .rw, 0⟩]⟩,
  ⟨0x0A0078, 1, some 0x0A0070, [⟨0, 23, .ro, 0⟩]⟩,
  ⟨0x0A007C, 1, some 0x0A0070, [⟨0, 1, .rw, 0⟩]⟩,
  ⟨0x0A0080, 1, none, [⟨0, 4, .rw, 0⟩]⟩,
  ⟨0x0A0084, 1, some 0x0A0080, [⟨0, 2, .ro, 0⟩, ⟨4, 18, .ro, 0⟩, ⟨24, 2, .ro, 2⟩]⟩,
  ⟨0x0A0088, 1, some 0x0A0080, [⟨0, 32, .ro, 0⟩]⟩,
  ⟨0x0A0090, 1, none, [⟨0, 10, .rw, 0⟩]⟩,
  ⟨0x0A0094, 1, none, [⟨0, 32, .rw, 0⟩]⟩,
  ⟨0x0A0098, 1, none, [⟨0, 32, .rw, 0⟩]⟩,
  ⟨0x0A009C, 1, none, [⟨0, 1, .w1s, 0⟩]⟩]

/-- Rows of block TIER (chapter 21, the block maps). -/
def regRowsTIER1 : List RegRow := [
  ⟨0x0A00A0, 1, none, [⟨0, 1, .ro, 0⟩, ⟨1, 3, .ro, 0⟩, ⟨8, 8, .ro, 0⟩, ⟨16, 16, .ro, 0⟩]⟩,
  ⟨0x0A00C0, 1, none, [⟨0, 32, .ro, 0⟩]⟩,
  ⟨0x0A00C4, 1, none, [⟨0, 32, .ro, 0⟩]⟩,
  ⟨0x0A00C8, 1, none, [⟨0, 32, .ro, 0⟩]⟩,
  ⟨0x0A00CC, 1, none, [⟨0, 32, .ro, 0⟩]⟩,
  ⟨0x0A00D0, 1, none, [⟨0, 32, .ro, 0⟩]⟩,
  ⟨0x0A00D4, 1, none, [⟨0, 32, .ro, 0⟩]⟩,
  ⟨0x0A00D8, 1, none, [⟨0, 32, .ro, 0⟩]⟩,
  ⟨0x0A00DC, 1, none, [⟨0, 32, .ro, 0⟩]⟩,
  ⟨0x0A00E0, 1, none, [⟨0, 32, .ro, 0⟩]⟩]

/-- Rows of block SRCH (chapter 21, the block maps). -/
def regRowsSRCH : List RegRow := [
  ⟨0x0B0000, 1, none, [⟨0, 4, .ro, 0⟩, ⟨4, 2, .ro, 0⟩, ⟨6, 2, .ro, 0⟩, ⟨8, 1, .ro, 0⟩, ⟨9, 1, .ro, 0⟩, ⟨10, 1, .ro, 0⟩]⟩,
  ⟨0x0B0010, 1, none, [⟨0, 2, .rw, 0⟩, ⟨8, 5, .rw, 0⟩]⟩,
  ⟨0x0B0014, 1, some 0x0B0010, [⟨0, 2, .rw, 1⟩, ⟨4, 2, .rw, 1⟩, ⟨8, 1, .w1s, 0⟩]⟩,
  ⟨0x0B0018, 1, some 0x0B0010, [⟨0, 2, .ro, 1⟩, ⟨2, 2, .ro, 0⟩, ⟨4, 3, .ro, 0⟩, ⟨16, 15, .ro, 0⟩]⟩,
  ⟨0x0B0020, 1, none, [⟨0, 12, .rw, 0⟩]⟩,
  ⟨0x0B0024, 1, some 0x0B0020, [⟨0, 10, .rw, 0⟩, ⟨10, 2, .rw, 1⟩, ⟨12, 3, .rw, 5⟩, ⟨15, 1, .rw, 0⟩, ⟨16, 1, .rw, 0⟩, ⟨17, 2, .rw, 0⟩, ⟨31, 1, .rw, 0⟩]⟩,
  ⟨0x0B0028, 4, some 0x0B0020, [⟨0, 32, .rw, 0⟩]⟩,
  ⟨0x0B0038, 1, some 0x0B0020, [⟨0, 22, .rw, 0⟩]⟩,
  ⟨0x0B003C, 1, some 0x0B0020, [⟨0, 22, .ro, 0⟩]⟩,
  ⟨0x0B0040, 1, none, [⟨0, 4, .rw, 2⟩]⟩,
  ⟨0x0B0044, 1, none, [⟨0, 16, .rw, 4⟩]⟩,
  ⟨0x0B0048, 1, none, [⟨0, 16, .rw, 8⟩]⟩,
  ⟨0x0B0050, 1, none, [⟨0, 8, .ro, 100⟩, ⟨8, 1, .ro, 0⟩, ⟨16, 8, .ro, 0⟩]⟩,
  ⟨0x0B0054, 1, none, [⟨0, 32, .ro, 0⟩]⟩,
  ⟨0x0B0060, 1, none, [⟨0, 32, .ro, 0⟩]⟩,
  ⟨0x0B0064, 1, none, [⟨0, 32, .ro, 0⟩]⟩,
  ⟨0x0B0068, 1, none, [⟨0, 32, .ro, 0⟩]⟩,
  ⟨0x0B006C, 1, none, [⟨0, 32, .ro, 0⟩]⟩,
  ⟨0x0B0070, 1, none, [⟨0, 32, .ro, 0⟩]⟩,
  ⟨0x0B0074, 1, none, [⟨0, 32, .ro, 0⟩]⟩,
  ⟨0x0B0078, 1, none, [⟨0, 32, .ro, 0⟩]⟩,
  ⟨0x0B007C, 1, none, [⟨0, 22, .ro, 0⟩]⟩]

/-- Rows of block CMPR (chapter 21, the block maps). -/
def regRowsCMPR0 : List RegRow := [
  ⟨0x0C0000, 1, none, [⟨0, 6, .rw, 0⟩]⟩,
  ⟨0x0C0004, 1, some 0x0C0000, [⟨0, 8, .rw, 0⟩, ⟨8, 6, .rw, 0⟩, ⟨16, 3, .rw, 5⟩]⟩,
  ⟨0x0C0008, 1, some 0x0C0000, [⟨0, 8, .rw, 1⟩, ⟨8, 8, .rw, 1⟩, ⟨16, 3, .rw, 5⟩, ⟨20, 1, .rw, 0⟩, ⟨21, 1, .rw, 0⟩, ⟨24, 1, .rw, 0⟩]⟩,
  ⟨0x0C000C, 1, some 0x0C0000, [⟨0, 11, .rw, 0⟩, ⟨16, 8, .rw, 0⟩]⟩,
  ⟨0x0C0010, 1, some 0x0C0000, [⟨0, 1, .w1s, 0⟩, ⟨1, 1, .w1s, 0⟩]⟩,
  ⟨0x0C0014, 1, some 0x0C0000, [⟨0, 1, .ro, 0⟩, ⟨1, 3, .ro, 0⟩, ⟨4, 17, .ro, 0⟩, ⟨21, 7, .ro, 0⟩]⟩,
  ⟨0x0C0018, 1, some 0x0C0000, [⟨0, 25, .ro, 0⟩]⟩,
  ⟨0x0C0020, 1, none, [⟨0, 21, .rw, 1⟩]⟩,
  ⟨0x0C0024, 1, none, [⟨0, 21, .rw, 32⟩]⟩,
  ⟨0x0C0028, 1, none, [⟨0, 21, .rw, 1024⟩]⟩,
  ⟨0x0C002C, 1, none, [⟨0, 5, .rw, 4⟩, ⟨8, 5, .rw, 4⟩, ⟨16, 5, .rw, 4⟩, ⟨24, 5, .rw, 4⟩]⟩,
  ⟨0x0C0030, 1, none, [⟨0, 32, .ro, 0⟩]⟩,
  ⟨0x0C0034, 1, none, [⟨0, 32, .ro, 0⟩]⟩,
  ⟨0x0C0040, 1, none, [⟨0, 13, .rw, 0⟩]⟩,
  ⟨0x0C0044, 1, none, [⟨0, 13, .ro, 0⟩]⟩,
  ⟨0x0C0048, 1, none, [⟨0, 8, .rw, 0⟩]⟩,
  ⟨0x0C004C, 1, some 0x0C0048, [⟨0, 11, .rw, 0⟩, ⟨16, 14, .rw, 0⟩]⟩,
  ⟨0x0C0050, 1, some 0x0C0048, [⟨0, 9, .rw, 0⟩]⟩,
  ⟨0x0C0054, 1, some 0x0C0048, [⟨0, 32, .rw, 0⟩]⟩,
  ⟨0x0C0058, 1, some 0x0C0048, [⟨0, 32, .rw, 0⟩]⟩,
  ⟨0x0C005C, 1, some 0x0C0048, [⟨0, 1, .w1s, 0⟩, ⟨1, 1, .w1s, 0⟩]⟩,
  ⟨0x0C0060, 1, some 0x0C0048, [⟨0, 2, .ro, 0⟩, ⟨4, 3, .ro, 0⟩]⟩,
  ⟨0x0C0064, 1, some 0x0C0048, [⟨0, 32, .ro, 0⟩]⟩,
  ⟨0x0C0068, 1, some 0x0C0048, [⟨0, 7, .ro, 0⟩]⟩,
  ⟨0x0C0070, 1, none, [⟨0, 10, .rw, 0⟩]⟩,
  ⟨0x0C0074, 1, some 0x0C0070, [⟨0, 1, .rw, 0⟩]⟩,
  ⟨0x0C0080, 1, none, [⟨0, 32, .ro, 0⟩]⟩,
  ⟨0x0C0084, 1, none, [⟨0, 32, .ro, 0⟩]⟩,
  ⟨0x0C0088, 1, none, [⟨0, 32, .ro, 0⟩]⟩,
  ⟨0x0C008C, 1, none, [⟨0, 32, .ro, 0⟩]⟩]

/-- Rows of block CMPR (chapter 21, the block maps). -/
def regRowsCMPR1 : List RegRow := [
  ⟨0x0C0090, 1, none, [⟨0, 32, .ro, 0⟩]⟩,
  ⟨0x0C0094, 1, none, [⟨0, 32, .ro, 0⟩]⟩,
  ⟨0x0C0098, 1, none, [⟨0, 32, .ro, 0⟩]⟩]

/-- Rows of block ENG (chapter 21, the block maps). -/
def regRowsENG : List RegRow := [
  ⟨0x0D0000, 1, none, [⟨0, 6, .rw, 0⟩]⟩,
  ⟨0x0D0004, 1, some 0x0D0000, [⟨0, 32, .rw, 0⟩]⟩,
  ⟨0x0D0008, 1, some 0x0D0000, [⟨0, 7, .rw, 0⟩]⟩,
  ⟨0x0D0010, 1, none, [⟨0, 5, .rw, 0⟩]⟩,
  ⟨0x0D0014, 1, some 0x0D0010, [⟨0, 1, .ro, 0⟩, ⟨1, 1, .ro, 0⟩, ⟨2, 4, .ro, 0⟩, ⟨6, 3, .ro, 0⟩, ⟨9, 1, .ro, 0⟩, ⟨10, 6, .ro, 0⟩, ⟨16, 16, .ro, 0⟩]⟩,
  ⟨0x0D0018, 1, none, [⟨0, 10, .ro, 384⟩]⟩,
  ⟨0x0D001C, 1, some 0x0D0010, [⟨0, 32, .ro, 0⟩]⟩,
  ⟨0x0D0020, 1, none, [⟨0, 32, .rw, 4⟩]⟩,
  ⟨0x0D0024, 1, none, [⟨0, 32, .rw, 64⟩]⟩,
  ⟨0x0D0028, 1, none, [⟨0, 32, .rw, 1024⟩]⟩,
  ⟨0x0D002C, 1, none, [⟨0, 5, .rw, 4⟩, ⟨8, 5, .rw, 4⟩, ⟨16, 5, .rw, 4⟩, ⟨24, 5, .rw, 4⟩]⟩,
  ⟨0x0D0040, 1, none, [⟨0, 32, .ro, 0⟩]⟩,
  ⟨0x0D0044, 1, none, [⟨0, 32, .ro, 0⟩]⟩,
  ⟨0x0D0048, 1, none, [⟨0, 32, .ro, 0⟩]⟩,
  ⟨0x0D004C, 1, none, [⟨0, 32, .ro, 0⟩]⟩,
  ⟨0x0D0050, 1, none, [⟨0, 32, .ro, 0⟩]⟩,
  ⟨0x0D0054, 1, none, [⟨0, 32, .ro, 0⟩]⟩]

/-- Rows of block GEAR (chapter 21, the block maps). -/
def regRowsGEAR : List RegRow := [
  ⟨0x0E0000, 1, none, [⟨0, 10, .rw, 0⟩]⟩,
  ⟨0x0E0004, 1, some 0x0E0000, [⟨0, 4, .rw, 15⟩, ⟨4, 4, .rw, 15⟩, ⟨8, 4, .rw, 15⟩, ⟨12, 4, .rw, 15⟩]⟩,
  ⟨0x0E0008, 1, some 0x0E0000, [⟨0, 4, .ro, 0⟩]⟩,
  ⟨0x0E0010, 1, none, [⟨0, 3, .rw, 0⟩]⟩,
  ⟨0x0E0014, 1, some 0x0E0010, [⟨0, 1, .w1s, 0⟩]⟩,
  ⟨0x0E0018, 1, some 0x0E0010, [⟨0, 3, .ro, 0⟩]⟩,
  ⟨0x0E0020, 1, none, [⟨0, 16, .rw, 1024⟩]⟩,
  ⟨0x0E0024, 1, none, [⟨0, 1, .rw, 0⟩]⟩,
  ⟨0x0E0030, 1, none, [⟨0, 32, .ro, 0⟩]⟩,
  ⟨0x0E0034, 1, none, [⟨0, 32, .ro, 0⟩]⟩,
  ⟨0x0E0038, 1, none, [⟨0, 32, .ro, 0⟩]⟩,
  ⟨0x0E0040, 16, some 0x0E0010, [⟨0, 32, .ro, 0⟩]⟩,
  ⟨0x0E0400, 256, some 0x0E0010, [⟨0, 32, .rw, 0⟩]⟩]

/-- Rows of block SPOKE (chapter 21, the block maps). -/
def regRowsSPOKE : List RegRow := [
  ⟨0x0F0000, 1, none, [⟨0, 3, .rw, 0⟩]⟩,
  ⟨0x0F0004, 1, some 0x0F0000, [⟨0, 2, .rw, 0⟩, ⟨8, 8, .rw, 0⟩]⟩,
  ⟨0x0F0008, 1, some 0x0F0000, [⟨0, 1, .ro, 0⟩, ⟨8, 8, .ro, 255⟩]⟩,
  ⟨0x0F0010, 1, none, [⟨0, 4, .w1s, 0⟩, ⟨4, 4, .w1s, 0⟩]⟩,
  ⟨0x0F0014, 1, none, [⟨0, 8, .ro, 0⟩]⟩,
  ⟨0x0F0020, 1, none, [⟨0, 32, .rw, 0⟩]⟩,
  ⟨0x0F0024, 1, none, [⟨0, 5, .rw, 0⟩, ⟨8, 6, .rw, 1⟩, ⟨16, 1, .w1s, 0⟩, ⟨17, 1, .w1s, 0⟩]⟩,
  ⟨0x0F0028, 1, none, [⟨0, 3, .ro, 0⟩, ⟨4, 3, .ro, 0⟩, ⟨8, 5, .ro, 0⟩]⟩,
  ⟨0x0F002C, 1, none, [⟨0, 32, .ro, 0⟩]⟩,
  ⟨0x0F0030, 1, none, [⟨0, 16, .rw, 1024⟩]⟩,
  ⟨0x0F0034, 1, none, [⟨0, 16, .rw, 7500⟩]⟩,
  ⟨0x0F0038, 1, none, [⟨0, 16, .rw, 8⟩]⟩,
  ⟨0x0F003C, 1, none, [⟨0, 5, .rw, 0⟩, ⟨8, 1, .rw, 0⟩]⟩,
  ⟨0x0F0040, 1, none, [⟨0, 5, .rw, 0⟩, ⟨16, 10, .rw, 0⟩]⟩,
  ⟨0x0F0044, 1, some 0x0F0040, [⟨0, 10, .rw, 0⟩]⟩,
  ⟨0x0F0048, 1, none, [⟨0, 10, .rw, 0⟩]⟩,
  ⟨0x0F004C, 1, some 0x0F0048, [⟨0, 32, .ro, 0⟩]⟩,
  ⟨0x0F0060, 1, none, [⟨0, 32, .ro, 0⟩]⟩,
  ⟨0x0F0064, 1, none, [⟨0, 32, .ro, 0⟩]⟩,
  ⟨0x0F0068, 1, none, [⟨0, 32, .ro, 0⟩]⟩,
  ⟨0x0F006C, 1, none, [⟨0, 32, .ro, 0⟩]⟩,
  ⟨0x0F0070, 1, none, [⟨0, 32, .ro, 0⟩]⟩]

/-- Rows of block RDMA (chapter 21, the block maps). -/
def regRowsRDMA0 : List RegRow := [
  ⟨0x100000, 1, none, [⟨0, 3, .rw, 0⟩]⟩,
  ⟨0x100004, 1, some 0x100000, [⟨0, 32, .rw, 0⟩]⟩,
  ⟨0x100008, 1, some 0x100000, [⟨0, 16, .rw, 0⟩]⟩,
  ⟨0x10000C, 4, some 0x100000, [⟨0, 32, .rw, 0⟩]⟩,
  ⟨0x10001C, 1, some 0x100000, [⟨0, 12, .rw, 0⟩, ⟨12, 1, .rw, 0⟩, ⟨16, 3, .rw, 0⟩, ⟨19, 1, .rw, 0⟩]⟩,
  ⟨0x100020, 1, none, [⟨0, 12, .rw, 0⟩]⟩,
  ⟨0x100024, 1, some 0x100020, [⟨0, 10, .rw, 0⟩, ⟨31, 1, .rw, 0⟩]⟩,
  ⟨0x100030, 1, none, [⟨0, 14, .rw, 0⟩]⟩,
  ⟨0x100034, 1, some 0x100030, [⟨0, 12, .rw, 0⟩, ⟨16, 3, .rw, 0⟩]⟩,
  ⟨0x100038, 1, some 0x100030, [⟨0, 24, .rw, 0⟩]⟩,
  ⟨0x10003C, 4, some 0x100030, [⟨0, 32, .rw, 0⟩]⟩,
  ⟨0x10004C, 1, some 0x100030, [⟨0, 2, .rw, 0⟩, ⟨4, 6, .rw, 0⟩, ⟨16, 5, .rw, 0⟩]⟩,
  ⟨0x100050, 1, some 0x100030, [⟨0, 24, .rw, 0⟩]⟩,
  ⟨0x100054, 1, some 0x100030, [⟨0, 24, .rw, 0⟩]⟩,
  ⟨0x100058, 1, some 0x100030, [⟨0, 5, .rw, 0⟩, ⟨8, 3, .rw, 7⟩]⟩,
  ⟨0x10005C, 1, some 0x100030, [⟨0, 16, .rw, 0⟩]⟩,
  ⟨0x100060, 1, some 0x100030, [⟨0, 3, .wo, 0⟩]⟩,
  ⟨0x100064, 1, some 0x100030, [⟨0, 3, .ro, 0⟩, ⟨8, 4, .ro, 0⟩]⟩,
  ⟨0x100070, 1, none, [⟨0, 20, .rw, 0⟩]⟩,
  ⟨0x100074, 1, some 0x100070, [⟨0, 1, .rw, 0⟩, ⟨2, 12, .rw, 0⟩, ⟨16, 3, .rw, 0⟩, ⟨20, 2, .rw, 0⟩]⟩,
  ⟨0x100078, 1, some 0x100070, [⟨0, 32, .rw, 0⟩]⟩,
  ⟨0x10007C, 1, some 0x100070, [⟨0, 32, .rw, 0⟩]⟩,
  ⟨0x100080, 1, some 0x100070, [⟨0, 32, .rw, 0⟩]⟩,
  ⟨0x100084, 1, some 0x100070, [⟨0, 9, .rw, 0⟩]⟩,
  ⟨0x100088, 1, some 0x100070, [⟨0, 32, .rw, 0⟩]⟩,
  ⟨0x10008C, 1, some 0x100070, [⟨0, 32, .rw, 0⟩]⟩,
  ⟨0x100090, 1, some 0x100070, [⟨0, 32, .rw, 0⟩]⟩,
  ⟨0x100094, 1, some 0x100070, [⟨0, 1, .w1s, 0⟩, ⟨1, 1, .w1s, 0⟩]⟩,
  ⟨0x100098, 1, some 0x100070, [⟨0, 2, .ro, 0⟩, ⟨8, 8, .ro, 1⟩]⟩,
  ⟨0x1000A0, 1, none, [⟨0, 16, .rw, 50⟩]⟩]

/-- Rows of block RDMA (chapter 21, the block maps). -/
def regRowsRDMA1 : List RegRow := [
  ⟨0x1000A4, 1, none, [⟨0, 16, .rw, 55⟩]⟩,
  ⟨0x1000A8, 1, none, [⟨0, 32, .rw, 10240⟩]⟩,
  ⟨0x1000AC, 1, none, [⟨0, 10, .rw, 4⟩]⟩,
  ⟨0x1000B0, 1, none, [⟨0, 16, .rw, 40⟩, ⟨16, 16, .rw, 100⟩]⟩,
  ⟨0x1000B4, 1, none, [⟨0, 16, .rw, 100⟩]⟩,
  ⟨0x1000B8, 1, none, [⟨0, 16, .rw, 12⟩]⟩,
  ⟨0x1000BC, 1, none, [⟨0, 32, .rw, 65536⟩]⟩,
  ⟨0x1000C0, 1, none, [⟨0, 10, .rw, 0⟩]⟩,
  ⟨0x1000C4, 1, some 0x1000C0, [⟨12, 20, .rw, 0⟩]⟩,
  ⟨0x1000C8, 1, some 0x1000C0, [⟨0, 32, .rw, 0⟩]⟩,
  ⟨0x1000CC, 1, some 0x1000C0, [⟨0, 1, .rw, 0⟩, ⟨1, 11, .rw, 0⟩]⟩,
  ⟨0x1000E0, 1, none, [⟨0, 32, .ro, 0⟩]⟩,
  ⟨0x1000E4, 1, none, [⟨0, 32, .ro, 0⟩]⟩,
  ⟨0x1000E8, 1, none, [⟨0, 32, .ro, 0⟩]⟩,
  ⟨0x1000EC, 1, none, [⟨0, 32, .ro, 0⟩]⟩,
  ⟨0x1000F0, 1, none, [⟨0, 32, .ro, 0⟩]⟩]

/-- Rows of block POOL (chapter 21, the block maps). -/
def regRowsPOOL0 : List RegRow := [
  ⟨0x110000, 1, none, [⟨0, 9, .rw, 0⟩]⟩,
  ⟨0x110004, 1, none, [⟨0, 7, .rw, 0⟩]⟩,
  ⟨0x110008, 1, none, [⟨0, 9, .rw, 0⟩]⟩,
  ⟨0x11000C, 1, none, [⟨0, 12, .rw, 0⟩]⟩,
  ⟨0x110010, 1, none, [⟨0, 6, .rw, 0⟩]⟩,
  ⟨0x110014, 1, some 0x110010, [⟨0, 12, .rw, 0⟩, ⟨31, 1, .rw, 0⟩]⟩,
  ⟨0x110018, 1, some 0x110010, [⟨0, 24, .rw, 0⟩]⟩,
  ⟨0x11001C, 1, some 0x110010, [⟨0, 2, .ro, 0⟩]⟩,
  ⟨0x110020, 1, none, [⟨0, 8, .rw, 0⟩]⟩,
  ⟨0x110024, 1, some 0x110020, [⟨0, 21, .rw, 0⟩]⟩,
  ⟨0x110028, 1, some 0x110020, [⟨0, 1, .rw, 0⟩, ⟨1, 1, .rw, 0⟩, ⟨2, 1, .rw, 0⟩, ⟨4, 8, .rw, 0⟩, ⟨16, 7, .rw, 0⟩, ⟨24, 8, .rw, 0⟩]⟩,
  ⟨0x11002C, 1, some 0x110020, [⟨0, 1, .w1s, 0⟩, ⟨1, 1, .w1s, 0⟩, ⟨2, 1, .w1s, 0⟩]⟩,
  ⟨0x110030, 1, some 0x110020, [⟨0, 3, .ro, 0⟩, ⟨4, 2, .ro, 0⟩, ⟨8, 3, .ro, 0⟩]⟩,
  ⟨0x110034, 1, some 0x110020, [⟨0, 32, .ro, 0⟩]⟩,
  ⟨0x110038, 1, some 0x110020, [⟨0, 32, .ro, 0⟩]⟩,
  ⟨0x110040, 16, some 0x110020, [⟨0, 6, .rw, 0⟩, ⟨8, 2, .rw, 0⟩]⟩,
  ⟨0x110080, 1, none, [⟨0, 16, .rw, 12500⟩]⟩,
  ⟨0x110084, 1, none, [⟨0, 16, .rw, 125⟩]⟩,
  ⟨0x110088, 1, none, [⟨0, 8, .rw, 4⟩]⟩,
  ⟨0x11008C, 1, none, [⟨0, 7, .ro, 0⟩]⟩,
  ⟨0x110090, 1, none, [⟨0, 10, .rw, 0⟩]⟩,
  ⟨0x110094, 1, some 0x110090, [⟨0, 1, .rw, 0⟩, ⟨4, 2, .ro, 0⟩]⟩,
  ⟨0x110098, 1, none, [⟨0, 1, .w1s, 0⟩]⟩,
  ⟨0x11009C, 1, none, [⟨0, 1, .w1c, 0⟩, ⟨1, 1, .ro, 0⟩]⟩,
  ⟨0x1100A0, 1, none, [⟨0, 10, .rw, 0⟩, ⟨10, 5, .rw, 0⟩, ⟨16, 10, .rw, 0⟩, ⟨31, 1, .w1s, 0⟩]⟩,
  ⟨0x1100A4, 1, none, [⟨0, 32, .rw, 0⟩]⟩,
  ⟨0x1100A8, 1, none, [⟨0, 32, .rw, 0⟩]⟩,
  ⟨0x1100AC, 1, none, [⟨0, 3, .ro, 0⟩, ⟨4, 4, .ro, 0⟩, ⟨8, 24, .ro, 0⟩]⟩,
  ⟨0x1100C0, 1, none, [⟨0, 32, .ro, 0⟩]⟩,
  ⟨0x1100C4, 1, none, [⟨0, 32, .ro, 0⟩]⟩]

/-- Rows of block POOL (chapter 21, the block maps). -/
def regRowsPOOL1 : List RegRow := [
  ⟨0x1100C8, 1, none, [⟨0, 32, .ro, 0⟩]⟩,
  ⟨0x1100D0, 1, none, [⟨0, 32, .ro, 0⟩]⟩,
  ⟨0x1100D4, 1, none, [⟨0, 32, .ro, 0⟩]⟩,
  ⟨0x1100D8, 1, none, [⟨0, 32, .ro, 0⟩]⟩,
  ⟨0x1100DC, 1, none, [⟨0, 32, .ro, 0⟩]⟩]

/-- Rows of block CLK (chapter 21, the block maps). -/
def regRowsCLK : List RegRow := [
  ⟨0x120000, 1, none, [⟨0, 5, .rw, 0⟩]⟩,
  ⟨0x120004, 1, some 0x120000, [⟨0, 3, .ro, 0⟩, ⟨3, 1, .ro, 0⟩]⟩,
  ⟨0x120008, 1, some 0x120000, [⟨0, 1, .w1s, 0⟩, ⟨1, 1, .w1s, 0⟩, ⟨2, 1, .rw, 0⟩, ⟨3, 1, .rw, 0⟩, ⟨4, 1, .rw, 0⟩]⟩,
  ⟨0x12000C, 1, some 0x120000, [⟨0, 1, .ro, 1⟩, ⟨1, 1, .ro, 1⟩]⟩,
  ⟨0x120010, 1, none, [⟨0, 22, .w1c, 0⟩]⟩,
  ⟨0x120014, 1, none, [⟨0, 1, .rw, 0⟩, ⟨16, 16, .rw, 10⟩]⟩,
  ⟨0x120018, 1, none, [⟨0, 32, .ro, 0⟩]⟩,
  ⟨0x12001C, 1, none, [⟨0, 32, .ro, 0⟩]⟩,
  ⟨0x120020, 1, none, [⟨0, 11, .w1c, 0⟩]⟩,
  ⟨0x120024, 1, none, [⟨0, 4, .rw, 0⟩]⟩,
  ⟨0x120028, 1, some 0x120024, [⟨0, 32, .ro, 0⟩]⟩]

/-- Rows of block WDOG (chapter 21, the block maps). -/
def regRowsWDOG : List RegRow := [
  ⟨0x130000, 1, none, [⟨0, 2, .ro, Config.windowLog2⟩]⟩,
  ⟨0x130004, 1, none, [⟨0, 20, .rw, 32768⟩]⟩,
  ⟨0x130008, 1, none, [⟨0, 20, .ro, 0⟩, ⟨20, 1, .ro, 0⟩, ⟨21, 1, .ro, 0⟩]⟩,
  ⟨0x13000C, 1, none, [⟨0, 8, .ro, 0⟩, ⟨8, 8, .ro, 0⟩, ⟨16, 8, .ro, 0⟩]⟩,
  ⟨0x130010, 1, none, [⟨0, 1, .w1s, 0⟩, ⟨1, 1, .rw, 0⟩, ⟨2, 1, .rw, 0⟩]⟩,
  ⟨0x130014, 1, none, [⟨0, 24, .rw, 327680⟩]⟩,
  ⟨0x130018, 1, none, [⟨0, 8, .rw, 1⟩]⟩,
  ⟨0x13001C, 1, none, [⟨0, 1, .ro, 0⟩, ⟨1, 1, .ro, 0⟩, ⟨8, 8, .ro, 0⟩, ⟨16, 8, .ro, 0⟩]⟩,
  ⟨0x130020, 1, none, [⟨0, 24, .ro, 0⟩]⟩,
  ⟨0x130024, 1, none, [⟨0, 3, .wo, 0⟩, ⟨8, 8, .wo, 0⟩]⟩,
  ⟨0x130028, 1, none, [⟨0, 16, .wo, 0⟩]⟩,
  ⟨0x13002C, 1, none, [⟨0, 1, .rwl, 0⟩]⟩,
  ⟨0x130030, 1, none, [⟨0, 16, .rw, 3277⟩]⟩,
  ⟨0x130034, 1, none, [⟨0, 24, .rw, 327680⟩]⟩,
  ⟨0x130038, 1, none, [⟨16, 16, .rw, 0⟩]⟩,
  ⟨0x13003C, 1, none, [⟨0, 32, .rw, 0⟩]⟩,
  ⟨0x130040, 1, none, [⟨0, 22, .ro, 0⟩, ⟨31, 1, .ro, 0⟩]⟩,
  ⟨0x130044, 1, none, [⟨0, 1, .ro, 0⟩, ⟨1, 1, .ro, 0⟩, ⟨2, 3, .ro, 0⟩, ⟨8, 8, .ro, 0⟩, ⟨16, 5, .ro, 0⟩]⟩]

/-- Rows of block ERR (chapter 21, the block maps). -/
def regRowsERR0 : List RegRow := [
  ⟨0x140000, 1, none, [⟨0, 8, .w1c, 0⟩]⟩,
  ⟨0x140004, 1, none, [⟨0, 8, .rw, 254⟩]⟩,
  ⟨0x140008, 1, none, [⟨0, 11, .rw, 0⟩]⟩,
  ⟨0x14000C, 1, none, [⟨0, 1, .w1c, 0⟩, ⟨1, 3, .ro, 0⟩, ⟨8, 8, .ro, 0⟩]⟩,
  ⟨0x140010, 1, none, [⟨0, 32, .ro, 0⟩]⟩,
  ⟨0x140014, 1, none, [⟨0, 16, .ro, 0⟩]⟩,
  ⟨0x140018, 1, none, [⟨0, 32, .ro, 0⟩]⟩,
  ⟨0x14001C, 1, none, [⟨0, 32, .ro, 0⟩]⟩,
  ⟨0x140040, 1, none, [⟨0, 32, .ro, 0⟩]⟩,
  ⟨0x140044, 1, none, [⟨0, 32, .ro, 0⟩]⟩,
  ⟨0x140048, 1, none, [⟨0, 32, .ro, 0⟩]⟩,
  ⟨0x14004C, 1, none, [⟨0, 32, .ro, 0⟩]⟩,
  ⟨0x140050, 1, none, [⟨0, 32, .ro, 0⟩]⟩,
  ⟨0x140054, 1, none, [⟨0, 32, .ro, 0⟩]⟩,
  ⟨0x140058, 1, none, [⟨0, 32, .ro, 0⟩]⟩,
  ⟨0x14005C, 1, none, [⟨0, 32, .ro, 0⟩]⟩,
  ⟨0x140060, 1, none, [⟨0, 32, .ro, 0⟩]⟩,
  ⟨0x140064, 1, none, [⟨0, 32, .ro, 0⟩]⟩,
  ⟨0x140068, 1, none, [⟨0, 32, .ro, 0⟩]⟩,
  ⟨0x14006C, 1, none, [⟨0, 32, .ro, 0⟩]⟩,
  ⟨0x140070, 1, none, [⟨0, 32, .ro, 0⟩]⟩,
  ⟨0x140074, 1, none, [⟨0, 32, .ro, 0⟩]⟩,
  ⟨0x140078, 1, none, [⟨0, 32, .ro, 0⟩]⟩,
  ⟨0x14007C, 1, none, [⟨0, 32, .ro, 0⟩]⟩,
  ⟨0x140080, 1, none, [⟨0, 8, .ro, 0⟩]⟩,
  ⟨0x140084, 1, none, [⟨0, 5, .ro, 0⟩, ⟨8, 3, .ro, 0⟩, ⟨12, 3, .ro, 0⟩, ⟨16, 5, .ro, 0⟩]⟩,
  ⟨0x140090, 1, none, [⟨0, 10, .rw, 0⟩]⟩,
  ⟨0x140094, 1, none, [⟨0, 32, .rw, 0⟩]⟩,
  ⟨0x140098, 1, none, [⟨0, 1, .w1s, 0⟩]⟩,
  ⟨0x14009C, 1, none, [⟨0, 1, .ro, 0⟩, ⟨1, 2, .ro, 0⟩]⟩]

/-- Rows of block ERR (chapter 21, the block maps). -/
def regRowsERR1 : List RegRow := [
  ⟨0x1400A0, 1, none, [⟨0, 32, .ro, 0⟩]⟩,
  ⟨0x1400A4, 1, none, [⟨0, 32, .ro, 0⟩]⟩,
  ⟨0x1400B0, 1, none, [⟨0, 1, .w1s, 0⟩, ⟨1, 1, .w1s, 0⟩, ⟨2, 1, .w1s, 0⟩]⟩,
  ⟨0x1400B4, 1, none, [⟨0, 32, .rw, 0⟩]⟩,
  ⟨0x1400B8, 1, none, [⟨0, 16, .rw, 0⟩]⟩,
  ⟨0x1400BC, 1, none, [⟨0, 32, .rw, 0⟩]⟩,
  ⟨0x1400C0, 1, none, [⟨0, 16, .rw, 0⟩]⟩,
  ⟨0x1400C4, 1, none, [⟨0, 1, .ro, 0⟩, ⟨1, 1, .ro, 0⟩]⟩,
  ⟨0x1400D0, 8, none, [⟨0, 32, .ro, 0⟩]⟩,
  ⟨0x1400F0, 1, none, [⟨0, 32, .ro, 0⟩]⟩]

/-- Rows of block FN (chapter 21, the block maps). -/
def regRowsFN : List RegRow := [
  ⟨0x150000, 1, none, [⟨0, 10, .rw, 0⟩]⟩,
  ⟨0x150004, 1, some 0x150000, [⟨0, 10, .rw, 0⟩]⟩]

/-- Rows of one ring pair of the FN ring window, by offset within 0x90 (Table 6-11). -/
def regRowsRing : List RegRow := [
  ⟨0x00, 1, none, [⟨12, 20, .rw, 0⟩]⟩,
  ⟨0x04, 1, none, [⟨0, 32, .rw, 0⟩]⟩,
  ⟨0x08, 1, none, [⟨0, 5, .rw, 6⟩, ⟨8, 3, .rw, 0⟩, ⟨16, 1, .rw, 0⟩]⟩,
  ⟨0x0C, 1, none, [⟨0, 8, .ro, 1⟩]⟩,
  ⟨0x80, 1, none, [⟨12, 20, .rw, 0⟩]⟩,
  ⟨0x84, 1, none, [⟨0, 32, .rw, 0⟩]⟩,
  ⟨0x88, 1, none, [⟨0, 5, .rw, 6⟩, ⟨8, 1, .rw, 0⟩, ⟨9, 1, .rw, 0⟩, ⟨16, 11, .rw, 0⟩]⟩,
  ⟨0x8C, 1, none, [⟨0, 16, .rw, 0⟩, ⟨16, 16, .rw, 0⟩]⟩]

/-- Whether a row assigns the word at offset `o`. -/
def RegRow.covers (r : RegRow) (o : Nat) : Bool := r.off ≤ o && o < r.off + 4 * r.words

/-- The rows of the block that holds offset `o` (Table 21-2); the ring window is handled apart. -/
def regBlockRows (o : Nat) : List RegRow :=
  match o >>> 16 with
  | 0 => regRowsSYS
  | 1 => regRowsROLE
  | 2 => regRowsIMG
  | 3 => regRowsIMG
  | 8 => regRowsPART0 ++ regRowsPART1
  | 9 => regRowsXLAT
  | 10 => regRowsTIER0 ++ regRowsTIER1
  | 11 => regRowsSRCH
  | 12 => regRowsCMPR0 ++ regRowsCMPR1
  | 13 => regRowsENG
  | 14 => regRowsGEAR
  | 15 => regRowsSPOKE
  | 16 => regRowsRDMA0 ++ regRowsRDMA1
  | 17 => regRowsPOOL0 ++ regRowsPOOL1
  | 18 => regRowsCLK
  | 19 => regRowsWDOG
  | 20 => regRowsERR0 ++ regRowsERR1
  | 21 => regRowsFN
  | _ => []

/-- Whether `o` lies in the FN ring window (Table 21-2: 256 KiB from 0x004_0000). -/
def inRingWindow (o : Nat) : Bool := 0x040000 ≤ o && o < 0x080000

/-- The offset inside one ring's 16 bytes, CQ rings 0x80 above (Table 21-6). -/
def ringRel (o : Nat) : Nat := (o % 0x10) + 0x80 * ((o / 0x80) % 2)

/-- The row that assigns offset `o`, if any; none means unassigned (R482). -/
def findReg (o : Nat) : Option RegRow :=
  if inRingWindow o then regRowsRing.find? (·.covers (ringRel o)) else (regBlockRows o).find? (·.covers o)

/-- The word a row's fields hold after power-up. -/
def RegRow.resetWord (r : RegRow) : BitVec 32 :=
  r.fields.foldl (fun acc f => acc ||| (BitVec.ofNat 32 (f.rst % 2 ^ f.w) <<< f.lo)) 0#32

/-- Register-file key of the word at BAR0 offset `off` for instance `inst` of its SELECT register (R487). -/
def regKey (off inst : Nat) : Nat := off + inst * 0x1000000

/-- What clock domain `d`'s CLK.DOMAIN_STATUS reads after power-up (Table 18-6, Table 18-1): Spoke n (11 to 18),
Sprocket (19) and Gear fabric (20) are OFF, code 2; every other domain is RUNNING with its PLL locked. -/
def domainResetWord (d : Nat) : BitVec 32 := if 11 ≤ d ∧ d ≤ 20 then 2#32 else 8#32

/-- The After-power-up word of the register at a key. Offsets that no row assigns read 0. -/
def regDefault (key : Nat) : BitVec 32 :=
  let off := key % 0x1000000
  let inst := key / 0x1000000
  if off = CLK.DOMAIN_STATUS.off then domainResetWord inst
  else if off = PART.PARTITION_STATUS.off then (if inst = 0 then 1#32 else 0#32)
  else if SYS.UNIQUE_ID.off ≤ off ∧ off < SYS.UNIQUE_ID.off + 16 then
    let b := off - SYS.UNIQUE_ID.off
    (Config.uniqueId (b + 3)) ++ (Config.uniqueId (b + 2)) ++ (Config.uniqueId (b + 1)) ++ (Config.uniqueId b)
  else match findReg off with
    | some r => r.resetWord
    | none => 0#32

end Sys2Proof.Machine
end

