-- ==== Sys2Proof/Machine/Sparse.lean ====
section
/-! DEFINITION. A sparse store in one canonical form: a list of (key, value) pairs with strictly rising keys and no pair
equal to what an unlisted key reads as. Memory (Host.Cell) and the register file are both such stores, so that equal
stores are equal lists. -/

namespace Sys2Proof.Machine

/-- What key `k` reads as: its listed value, else the default `d k`. -/
def spGet {α : Type} (d : Nat → α) : List (Nat × α) → Nat → α
  | [], k => d k
  | (k', v) :: t, k => if k = k' then v else if k < k' then d k else spGet d t k

/-- The store with key `k` taken out. -/
def spErase {α : Type} : List (Nat × α) → Nat → List (Nat × α)
  | [], _ => []
  | (k', v) :: t, k => if k = k' then t else if k < k' then (k', v) :: t else (k', v) :: spErase t k

/-- The store with key `k` listed as `v`, in its place. -/
def spInsert {α : Type} : List (Nat × α) → Nat → α → List (Nat × α)
  | [], k, v => [(k, v)]
  | (k', v') :: t, k, v =>
    if k = k' then (k, v) :: t else if k < k' then (k, v) :: (k', v') :: t else (k', v') :: spInsert t k v

/-- The store after key `k` is written `v`: writing what an unlisted key reads as takes the pair out. -/
def spPut {α : Type} [DecidableEq α] (d : Nat → α) (l : List (Nat × α)) (k : Nat) (v : α) : List (Nat × α) :=
  match l with
  | [] => if v = d k then [] else [(k, v)]
  | _ :: _ => if v = d k then spErase l k else spInsert l k v

/-- Canonical form: keys strictly rising above `lo`, no listed value equal to the default of its key. -/
def spWfFrom {α : Type} [DecidableEq α] (d : Nat → α) : Option Nat → List (Nat × α) → Bool
  | _, [] => true
  | lo, (k, v) :: t =>
    (match lo with | none => true | some b => decide (b < k)) && decide (v ≠ d k) && spWfFrom d (some k) t

/-- The canonical form of a whole store. -/
def spWf {α : Type} [DecidableEq α] (d : Nat → α) (l : List (Nat × α)) : Bool := spWfFrom d none l

end Sys2Proof.Machine
end

