-- ==== Sys2Proof/Machine/State.lean ====
section
/-! DEFINITION. The state of the card as plain data: every register (one canonical store over the register map), every
buffer, counter, mode and pin the spec names, and the queue of waiting commands. Structures are grouped by chapter. -/

namespace Sys2Proof.Machine

/-- Why the model stops with a fault. No meaning of this model raises one: the spec gives every command an effect. -/
inductive Fault where
  /-- Raised by nobody; the host's interface asks for a type of faults. Safe: a fault only stops a run. -/
  | none
  deriving DecidableEq, Repr

/-- Why the model refuses a command. -/
inductive Refusal where
  /-- Raised by a dispatch arm of a command that has no meaning yet, named as the table names it. Safe. -/
  | notModelled (mnemonic : String)
  deriving DecidableEq, Repr

/-- What the card sends to the outside, in order: the model's own record of it. -/
inductive Out where
  /-- An MSI-X message: function (0 = PF0, otherwise the VF's tenant) and vector. -/
  | msix (fn vector : Nat)
  /-- A read's return on a path (0 BAR0, 1 BAR2, 2 SMBus, 3 maker channel, 4 + f the pages of function f). -/
  | readReturn (path off : Nat) (value : Word)
  /-- A frame on the maker channel: TYPE and payload (R513). -/
  | makerFrame (type : Nat) (payload : List Byte)
  /-- Words shifted out on SSP_MISO (Table 4-7). -/
  | serial (words : List Word)
  /-- Bytes an SMBus block read returns, before the PEC. -/
  | smbus (bytes : List Byte)
  /-- An SMBus command answered with a NACK. -/
  | smbusNack
  /-- Viral signalled on the CXL link (R400). -/
  | viral
  /-- A frame sent on a Chainring port: port, bytes of the header and payload. -/
  | chain (port : Nat) (frame : Frame)
  /-- A packet sent on an Ethernet-mode port. -/
  | packet (port : Nat) (pkt : Packet)
  /-- A pause on the RoCE priority of an Ethernet-mode port (R364). -/
  | pause (port : Nat)
  /-- A CXL.mem response to a host (HID): 64 B of data, poison, DevLoad code. -/
  | cxlResp (hid : Nat) (tag : Nat) (data : List Byte) (poison : Bool) (devload : Nat) (grant : Nat)
  /-- A back-invalidation snoop to a host slot for a line. -/
  | snoop (slot dpa : Nat) (kind : Nat)
  /-- A dynamic-capacity event to a host slot: 0 add, 1 release. -/
  | dcEvent (slot region kind : Nat)
  /-- A cascade word sent on MATCH_OUT. -/
  | cascade (word : CascadeWord)
  /-- A call of a slot design: slot, hook, tag, operand bytes. -/
  | hookCall (slot hook tag : Nat) (operand : List Byte)
  /-- The 4,096 bytes of a frame streamed to a design (R318). -/
  | cfgData (slot : Nat) (data : List Byte)
  /-- A design's readback answer CFG_MATCH. -/
  | cfgMatch (slot : Nat) (ok : Bool)
  deriving DecidableEq, Repr

/-- Chapter 3 and chapter 22: supplies, reset conditions, straps, sensors, management bus. -/
structure PowerSt where
  /-- 12V-2x6 input A is in tolerance (R495). -/
  inA : Bool
  /-- 12V-2x6 input B is in tolerance (R495). -/
  inB : Bool
  /-- PERST# is asserted (R54). -/
  perst : Bool
  /-- A recognised RESET_IN low level is present (R511). -/
  resetIn : Bool
  /-- The card is held in reset (R54). -/
  held : Bool
  /-- RESET_CAUSE bits collected since the start of the present reset (R54). -/
  causes : Nat
  /-- A thermal trip latched while the card is in reset keeps it there (R501). -/
  tripHold : Bool
  /-- CASC_POS pins as strapped (R508). -/
  casPos : Nat
  /-- CASC_SIZE pins as strapped (R508). -/
  casSize : Nat
  /-- The link trained so that the CXL face is offered (R517). -/
  cxlLink : Bool
  /-- In °C: the coolant inlet, the hottest sensor of each group 1 to 6 of Table 22-4, the coolant outlet; −128 when not read. -/
  temps : List Int
  /-- Input voltages in mV, A then B. -/
  vin : List Nat
  /-- Input power in 0.1 W, A then B. -/
  pin : List Nat
  /-- Warning flags, one bit per group (R500). -/
  warn : Nat
  /-- Groups whose trip level was reached since reset (Table 22-10). -/
  trip : Nat
  /-- SMB_ALERT is asserted (R500). -/
  smbAlert : Bool
  /-- The SMBus read offset (Table 22-9). -/
  smOffset : Nat
  /-- WDOG.LAST_EXPIRY word the next reset exit shows (R466). -/
  expiryNext : Word
  deriving DecidableEq, Repr

/-- Chapter 4: the loader, its staging and the slot handshake. Counters and states that registers show are in the
register store. -/
structure ImgSt where
  /-- The 512 bytes of the current load's header. -/
  header : List Byte
  /-- Frames accepted: number and 4,096 bytes of payload (R74). -/
  staged : List (Nat × List Byte)
  /-- Words of the BAR2 window written since each area's last submission, by offset (R90, R91). -/
  bar2 : List (Nat × Word)
  /-- A firmware image was applied since reset (Table 4-5, cause 5). -/
  fwApplied : Bool
  /-- The applied microcode payload, by frame (Table 4-3). -/
  ucode : List (Nat × List Byte)
  /-- A fabric shell is loaded. -/
  shellLoaded : Bool
  /-- Payload of the design in each slot: slot, frames (R94). -/
  designs : List (Nat × List (Nat × List Byte))
  /-- Slot state changes due at the next boundary: slot and new code of Table 4-9 (R94). -/
  slotNext : List (Nat × Nat)
  /-- The slot whose load is in APPLYING. -/
  loadSlot : Option Nat
  /-- LAST of the serial status words (Table 4-7). -/
  serialLast : Nat
  /-- SSP_ATTN_N is asserted (R89). -/
  attn : Bool
  /-- State of the slot IMG.LOAD_CTRL.SLOT named when the current load's header was pushed, code of Table 4-9 (R95). -/
  slotAt : Nat
  deriving DecidableEq, Repr

/-- A maker challenge that was issued and not yet answered (R103). -/
structure Nonce where
  bytes : List Byte
  scope : Nat
  issued : Nat
  deriving DecidableEq, Repr

/-- Chapter 5: the audit ring's creation count and holding buffer, the maker challenge. -/
structure RoleSt where
  /-- SEQUENCE of the next audit entry (R108). -/
  auditSeq : Nat
  /-- Entries in the holding buffer, oldest first, 64 bytes each (R110). -/
  held : List (List Byte)
  /-- The outstanding challenge (R103). -/
  nonce : Option Nonce
  deriving DecidableEq, Repr

/-- The observation window's mode (R41, R479). -/
inductive ObsMode where
  | closed
  /-- A START was latched: opens at the next boundary. -/
  | pendingStart
  /-- An ARM was latched: opens at Stroke `a`, closes at Stroke `e`. -/
  | armed (a e : Nat)
  /-- Open; `endAt` is OBS_END for an armed window. -/
  | open (endAt : Option Nat)
  deriving DecidableEq, Repr

/-- One event waiting for its boundary, with the fields of Table 15-5; `dests` are the TIDs whose rings it goes to (0 is
PF0's), none for every ring. -/
structure Event where
  dests : Option (List Nat)
  stroke : Nat
  code : Nat
  cause : Nat
  port : Nat
  qp : Nat
  key : Nat
  info : Nat
  deriving DecidableEq, Repr

/-- Chapter 20: events and interrupts that wait for the boundary, the observation window, running probes. -/
structure ErrSt where
  events : List Event
  /-- SEQ of each event ring by TID: events written since it was enabled (Table 15-5). -/
  evSeq : List (Nat × Nat)
  /-- An unmasked class bit was set in this Stroke (R470). -/
  irqPend : Bool
  obs : ObsMode
  /-- A STOP latched while closed consumes the next START (R41). -/
  obsEatStart : Bool
  /-- A STOP was latched for an open window: it closes at the next boundary. -/
  obsStop : Bool
  /-- A sequence probe is running; it reports at the next boundary (R476). -/
  probing : Bool
  /-- Stacks whose table copies are being rebuilt (R471, R473). -/
  rebuilding : List Nat
  deriving DecidableEq, Repr

/-- One watchdog's state beside its registers (R449 to R452). -/
structure WdSt where
  running : Bool
  /-- Period in force. -/
  period : Nat
  /-- Task mask in force. -/
  mask : Nat
  /-- The period was served in the present unit: the next unit is 0 of a new period (R450). -/
  served : Bool
  /-- ENABLE was accepted: the first period begins at the next unit (R454). -/
  starting : Bool
  deriving DecidableEq, Repr

/-- The fields of a crash header an expiry fills (Table 19-4). -/
structure CrashHdr where
  watchdog : Nat
  cause : Nat
  domain : Nat
  missing : Nat
  phase : Nat
  quiesce : Nat
  seq : Nat
  stroke : Nat
  deriving DecidableEq, Repr

/-- Chapter 19: both watchdogs, the disable key, and the course of an expiry. -/
structure WdogSt where
  sys : WdSt
  host : WdSt
  /-- Stroke of the first key of HOST_DISABLE, while no other BAR0 write has been latched (R455). -/
  key1 : Option Nat
  /-- Grace timer: ticks left (R462). -/
  grace : Option Nat
  /-- ACTION 1 power-down: ticks left of QUIESCE_LIMIT (R461). -/
  qlimit : Option Nat
  /-- Header fields of the expiry under way. -/
  hdr : Option CrashHdr
  /-- The stop was of the core clock: no trap and no crash save (R463). -/
  coreStop : Bool
  /-- The control cores that are halted, bit c core c (Table 3-1). -/
  halted : Nat
  deriving DecidableEq, Repr

/-- One amount per metered resource, in the order of Table 2-1. -/
structure Res6 where
  dram   : Nat
  flash  : Nat
  engine : Nat
  search : Nat
  spoke  : Nat
  pool   : Nat
  deriving DecidableEq, Repr

/-- One partition's balance in the present Stroke (R48): what is left of its fresh budget and of its carry. -/
structure Balance where
  part  : Nat
  fresh : Res6
  carry : Res6
  /-- What an unbraked search budget would have left: it decides THROTTLED (R254). -/
  unbraked : Nat
  /-- Pool units drawn in the present Stroke, for DevLoad (R385). -/
  poolDrawn : Nat
  deriving DecidableEq, Repr

/-- Actions that take effect in step 5 of the boundary that ends the Stroke of their write (R491, Table 21-18). -/
inductive BAct where
  /-- A register whose value in force follows its written value: its key and the word (the last write of a Stroke acts). -/
  | live (key : Nat) (w : Word)
  | partCreate (p : Nat)
  | partDestroy (p : Nat)
  | tenantCreate (t : Nat)
  | qpMove (qp next : Nat)
  | regionCommit (r : Nat)
  | regionRelease (r : Nat)
  | hostCtrl (slot : Nat) (w : Word)
  | release
  | recouple (slots : Nat)
  | bankWidth (key : Nat) (w : Nat)
  deriving DecidableEq, Repr

/-- Chapter 2: what waits for a boundary, and the budgets. -/
structure BndSt where
  /-- A period switch is armed at this target Stroke (R27, R522). -/
  armedPeriod : Option Nat
  /-- The switch of the PART shadows is armed at this target Stroke (R52, R522). -/
  armedPart : Option Nat
  /-- A preset is armed: the next boundary begins this Stroke (R26). -/
  preset : Option Nat
  /-- Boundary-effective actions latched in the present Stroke, in order of latch (R491). -/
  acts : List BAct
  /-- Balances of the present Stroke, one per created partition (R48). -/
  bal : List Balance
  /-- Capacity left in this Stroke for carry (R44). -/
  carryCap : Res6
  /-- Capacity left in this Stroke for every draw (R44, R472). -/
  capLeft : Res6
  /-- The partition served last, for the rotating order (R44). -/
  rot : Nat
  /-- The partition whose forks were served first at the last boundary that served any (R149). -/
  forkRot : Nat
  deriving DecidableEq, Repr

/-- One submission ring's counts (R115). -/
structure SqSt where
  tail : Nat
  head : Nat
  /-- Reads begun (FETCH_START) and not yet latched (R123). -/
  inFetch : Nat
  /-- SQ_WAIT bits 5:2 that hold until the next boundary (R124). -/
  wait : Nat
  deriving DecidableEq, Repr

/-- One completion ring's counts and the completions not yet signalled (R115, R135). -/
structure CqSt where
  tail : Nat
  head : Nat
  /-- Completions written and not yet signalled. -/
  unsig : Nat
  /-- Stroke in which the oldest of those was written. -/
  oldest : Nat
  /-- One of those carries URGENT or a status of 0x20 or above. -/
  force : Bool
  deriving DecidableEq, Repr

/-- What a tenant's status page holds beside the counts (Table 6-7). -/
structure StatPage where
  ignored : Nat
  dbErr   : Nat
  arHead  : Nat
  /-- AT_RISK notices by slot, 16 bytes each (R122). -/
  notices : List (Nat × List Byte)
  deriving DecidableEq, Repr

/-- Chapter 6: rings. Keys of `sq` and `cq` are TID × 8 + ring; unlisted rings have all counts 0. -/
structure RingSt where
  sq : List (Nat × SqSt)
  cq : List (Nat × CqSt)
  stat : List (Nat × StatPage)
  /-- The ring (TID × 8 + SQ) a fetch served last, for the rotating order (R123). -/
  lastServed : Nat
  deriving DecidableEq, Repr

/-- A tenant reset under way (R427): TID, Stroke of the latch, whether an FLR began it, whether DESTROY ran it. -/
structure Drain where
  tid     : Nat
  since   : Nat
  flr     : Bool
  destroy : Bool
  deriving DecidableEq, Repr

/-- Chapter 17: keys in the key store, resets under way. Everything else is in registers. -/
structure PartSt where
  /-- The key store: TID and 64 bytes of key (R418). -/
  keys   : List (Nat × List Byte)
  drains : List Drain
  /-- Functions whose FLR drain runs: their VF answers Configuration Request Retry Status (R429). -/
  vfCrs  : List Nat
  deriving DecidableEq, Repr
/-! ### Chapter 7: sequences, leaves, pages -/

/-- One sequence that is not FREE (R137 to R143). -/
structure Seq where
  idx     : Nat
  gen     : Nat
  tid     : Nat
  closing : Bool
  layers  : Nat
  cls     : Nat
  slots   : Nat
  ring    : Bool
  prot    : Bool
  /-- BLOCK_TOKENS_LOG2 of the class at SEQ_OPEN (Table 9-8). -/
  btLog   : Nat
  /-- Committed length L. -/
  len     : Nat
  /-- First page of the window in the tenant's DVA space (R141). -/
  base    : Nat
  deriving DecidableEq, Repr

/-- A leaf of a translation tree that is not UNWRITTEN (R155): sequence index, page index, the page it names. -/
structure Leaf where
  sq     : Nat
  p      : Nat
  pid    : Nat
  /-- This sequence's pin (R208). -/
  pinned : Bool
  deriving DecidableEq, Repr

/-- A stored page (R189): the model names it by a number of its own. -/
structure Page where
  pid    : Nat
  tid    : Nat
  /-- Code of Table 9-1. -/
  st     : Nat
  /-- The 256-byte header (Table 7-8). -/
  hdr    : List Byte
  /-- The payload with the lossless coding removed; ciphertext in a protected page (R421). -/
  body   : List Byte
  /-- First sector of the valid flash copy. -/
  flash  : Option Nat
  /-- DRAM frame. -/
  frame  : Option Nat
  prio   : Nat
  last   : Nat
  hint   : Nat
  /-- Score the eviction hook gave (R311). -/
  score  : Option Nat
  /-- Built-in score as last evaluated (R203). -/
  eval   : Nat
  /-- Transient references of running chunks (R18). -/
  trans  : Nat
  /-- The page has a share record (R156). -/
  shared : Bool
  /-- NAND pages of a page-in that were started. -/
  started : Nat
  /-- NAND pages of a page-in that were read. -/
  done   : Nat
  /-- Stroke in which the page's last NAND read started (R194). -/
  readAt : Nat
  /-- GEN[7:0] that its leaf holds (Table 7-7), against which a header read is held (R158). -/
  gen : Nat
  /-- Sub-streams of its coded form that fail a check of R275, one bit each; `body` has zeros for them. -/
  bad : Nat
  deriving DecidableEq, Repr

/-- A table or share record in a table chunk (R163): level 0 to 3, or 4 for a share record. -/
structure XItem where
  tid   : Nat
  level : Nat
  key   : Nat
  chunk : Nat
  deriving DecidableEq, Repr

/-- Course of a translation rebuild (R164). -/
structure Rebuild where
  tid  : Nat
  /-- Table chunks reserved for the copy. -/
  hold : Nat
  deriving DecidableEq, Repr

structure SeqSt where
  /-- Switches of a tenant's translation tree so far: each gives it a new root (R164). -/
  roots  : List (Nat × Nat)
  seqs     : List Seq
  /-- Current generation by index; unlisted indices have generation 1. -/
  gens     : List (Nat × Nat)
  /-- Freed indices, oldest first (R138). -/
  freed    : List Nat
  /-- First index that was never issued. -/
  fresh    : Nat
  /-- Closed indices whose prefix entries are not all removed (R241), with the tenant. -/
  closed   : List (Nat × Nat)
  leaves   : List Leaf
  pages    : List Page
  nextPid  : Nat
  xitems   : List XItem
  /-- Walk cache: TID and DVA page (R157), newest first. -/
  walk     : List (Nat × Nat)
  /-- Directory cache: the upper entries it holds, each by TID, level and number of the table it points to (R157), newest first. -/
  dirs     : List (Nat × Nat × Nat)
  rebuild  : Option Rebuild
  deriving DecidableEq, Repr

/-! ### Outstanding descriptors -/

/-- A valid search entry with its record and shadow (R227, R230). -/
structure Entry where
  /-- Address: die × 2^19 + bank × 2^14 + first row. -/
  addr   : Nat
  width  : Nat
  /-- The units as stored: DATA + TAG × 2^64. -/
  units  : List Nat
  ns     : Nat
  sid    : Nat
  block  : Nat
  stroke : Nat
  key    : List Byte
  /-- Tokens, none while they are read back (R258). -/
  tokens : Option (List Byte)
  low    : Bool
  /-- Token sector and slot of an adopted entry whose tokens are still to be read back (R257, R258). -/
  pend   : Option (Nat × Nat)
  deriving DecidableEq, Repr

/-- What a running chunk installs when it ends. -/
inductive RunRes where
  | none
  /-- APPEND: the page that its leaf named at the chunk's start (R19), the page's new header and payload, whether it goes into fresh
  frames (R152), RAW_FALLBACK, replacements. -/
  | page (p : Nat) (was : Option Nat) (hdr body : List Byte) (fresh : Bool) (raw : Bool) (nonfinite : Nat)
  /-- A page to make UNWRITTEN, or none to write (POOL_XFER), with the page that its leaf named at the chunk's start. -/
  | unwrite (p : Nat) (was : Option Nat)
  /-- Bytes for host memory (READ_PAGES). -/
  | host (addr : Nat) (bytes : List Byte)
  /-- A message sent on a QP: first and last PSN, MSN (DELIVER). -/
  | message (qp firstPsn lastPsn msn : Nat)
  /-- A page triple per (i, h), positions attended (ATTN_PARTIAL). -/
  | triples (t : List (Word × Word × List Word)) (positions overflows : Nat)
  /-- Bytes for pool memory: region and offset (POOL_XFER). -/
  | pool (region off : Nat) (bytes : List Byte)
  /-- Search hits: key, entry and MORE of each (PREFIX_*), cycles drawn. -/
  | hits (h : List (Nat × Entry × Bool)) (cycles : Nat)
  /-- Blocks inserted or removed up to this one, exclusive, and the items an INSERT's chunk read at its start: key and tokens (R310). -/
  | blocks (upto : Nat) (items : List (List Byte × List Byte))
  /-- A page sent to a member: transaction (RESHARD). -/
  | sent (xid : Nat)
  /-- A USER-format page whose groups a slot quantises: VALUE_BITS, SCALE_BYTES and USER_ID of the design it resolved to (R312), page, the
  page its leaf named at the chunk's start (R19), first position, positions, replacements, whether coding was on (R177, R273, R306). -/
  | user (vbits sbytes userId p : Nat) (was : Option Nat) (t0 n nonfinite : Nat) (coded : Bool)
  /-- A page to attend once the slot's biases are in: the design's SCOPE at the chunk's start, 15 for the zero bias of a cut burst; page,
  header, payload, L (R307, R312). -/
  | biased (scope : Nat) (p : Nat) (hdr body : List Byte) (len : Nat)
  /-- Keys a slot computes one after another: first item, items, keys so far, the items as read at the start (R308, R310). -/
  | hashing (slot first count : Nat) (keys : List (List Byte)) (items : List (List Byte × List Byte))
  /-- The chunk ends the descriptor with this status and DETAIL and installs nothing. -/
  | stop (status detail : Nat)
  deriving DecidableEq, Repr

/-- A running chunk of a descriptor. -/
structure Run where
  /-- Position in the descriptor's visiting order. -/
  idx  : Nat
  unit : UnitKind
  /-- Stroke in which it started. -/
  at_  : Nat
  /-- The new frame it fills. -/
  frame : Option Nat
  /-- Pages it holds transient references on. -/
  refs : List Nat
  res  : RunRes
  /-- The bucket that owns the quantiser lane it keeps (APPEND, R185). -/
  lane : Option Nat
  deriving DecidableEq, Repr

/-- A query item's state in a FIND or NEXT (R232). -/
structure FindSt where
  /-- Full keys, by item. -/
  keys    : List (List Byte)
  /-- First hits, by key: the entry as the search found it, with its record and shadow (R231), and MORE. -/
  hits    : List (Nat × Entry × Bool)
  /-- Key being resolved, with the cursor's entry and tries that failed. -/
  at_     : Option (Nat × Entry × Nat)
  /-- Keys below which hits are not yet tried. -/
  limit   : Nat
  /-- Keys left without a verified hit, with the MORE of the last search made at each (R233). -/
  left    : List (Nat × Bool)
  /-- Verified hits at the best key, in order. -/
  found   : List Entry
  best    : Option Nat
  more    : Bool
  cycles  : Nat
  /-- Hits of other cascade positions, words outstanding, loss flags. -/
  remote  : List (List Nat)
  words   : List Nat
  flags   : Nat
  /-- Peloton: members asked, replies by member, last counted Stroke. -/
  asked   : List Nat
  replies : List (Nat × List Byte)
  waitEnd : Option Nat
  /-- The hash hook was bypassed: every key is built-in (R226, R313). -/
  builtin : Bool
  deriving DecidableEq, Repr

/-- What an ATTN_PARTIAL read and gathered (R283, R289). -/
structure AttnSt where
  query    : List Word
  ranges   : List (Nat × Nat)
  qpos     : Nat
  maskAddr : Nat
  mask     : List Byte
  bias     : List Word
  group    : Nat
  scale    : Word
  draw     : Nat
  bucket   : Nat
  /-- Page triples that ended, by visiting position. -/
  parts    : List (Nat × List (Word × Word × List Word))
  positions : Nat
  overflows : Nat
  bypassed : Nat
  lost     : Nat
  lFirst   : Option Nat
  lLast    : Nat
  valid    : Bool
  deriving DecidableEq, Repr

/-- A RESHARD's target table and answers (R342 to R344). -/
structure ReshSt where
  targets  : List (Nat × Nat)
  /-- Members asked and not yet answered, by XID. -/
  opening  : List (Nat × Nat)
  /-- Pages sent and not yet placed: XID, visiting position, member. -/
  unplaced : List (Nat × Nat × Nat)
  deriving DecidableEq, Repr

/-- An ADVANCE's course (R346). -/
structure AdvSt where
  /-- Members an EPOCH_PREPARE went to. -/
  asked    : List Nat
  ready    : List Nat
  committed : Bool
  /-- Outcome by member: 0 switched at X, 1 switched late, 2 unconfirmed, 3 already at e. -/
  acked    : List (Nat × Nat)
  deriving DecidableEq, Repr

/-- What an opcode's descriptor holds beside the common part. -/
inductive Aux where
  | none
  /-- APPEND: bucket. -/
  | append (bucket : Nat)
  /-- SEQ_FORK: target index, leaves to share (target page, page), blocks to share, sharing began, the target's length. -/
  | fork (target : Nat) (todo : List (Nat × Nat)) (blocks : Nat) (begun : Bool) (newLen : Nat)
  | find (f : FindSt)
  | attn (a : AttnSt)
  | resh (r : ReshSt)
  | adv (a : AdvSt)
  /-- FENCE: works it covers that have not completed. -/
  | fence (covers : List Nat)
  /-- DELIVER: FLUSH_PAGES at admission, pages covered by a FLUSH sent, pages a response covers. -/
  | deliver (flushPages sent covered : Nat)
  deriving DecidableEq, Repr

/-- An outstanding descriptor (R123 to R130). -/
structure Work where
  id       : Nat
  d        : Desc
  /-- Stroke of its fetch latch. -/
  fetched  : Nat
  /-- The CQ bound to its SQ at the fetch, whose credit it took (R115, R124). -/
  cq       : Nat
  /-- Slot of its descriptor in the SQ (Table 6-4, INDEX). -/
  slot     : Nat
  /-- 0 fetched, 1 admitted, 2 its completion is latched. -/
  phase    : Nat
  admitted : Nat
  /-- The sequence's APPEND or POOL_XFER order lets it run (R182). -/
  active   : Bool
  startLen : Nat
  /-- Next visiting position to start. -/
  next     : Nat
  run      : List Run
  /-- Positions ended, beyond the leading ones. -/
  ended    : List Nat
  /-- Leading positions ended. -/
  lead     : Nat
  losses   : List (Nat × Nat)
  flags    : Nat
  /-- Cause that starts no further chunk: status and DETAIL. -/
  stop     : Option (Nat × Nat)
  status   : Nat
  detail   : Nat
  extent   : Nat
  results  : List (List Byte)
  newSid   : Nat
  latchedAt : Nat
  riskDone : Bool
  /-- It holds a delivery stream (R125). -/
  stream   : Bool
  /-- JIT holds its page-ins (R201). -/
  held    : Bool
  /-- The planned latest start of its last plan (R200). -/
  planned : Nat
  /-- Epoch of its first chunk (R19). -/
  epoch    : Option Nat
  /-- Bytes to write to host memory before its completion: triples, summary. -/
  writes   : List (Nat × List Byte)
  aux      : Aux
  deriving DecidableEq, Repr

structure WorkSt where
  works   : List Work
  next    : Nat
  /-- Works whose completion is latched, in latch order (R129). -/
  latched : List Nat
  /-- Leaf switches of ring APPENDs staged for the commit (R152): sequence, page, new page. -/
  staged  : List (Nat × Nat × Nat)
  deriving DecidableEq, Repr

/-! ### Chapter 9: NAND operations, write streams, the flash log -/

/-- A NAND operation under way (R193, R194). -/
structure NandOp where
  id    : Nat
  /-- 0 page-in read, 1 data program, 2 swap page-in read. -/
  kind  : Nat
  /-- The page read, or the pool page's key (2^63 + region × 2^40 + index). -/
  pid   : Nat
  /-- First sector of the NAND page. -/
  nand  : Nat
  /-- Place of a read among the 15 of its reconstruction, from 0. -/
  sub   : Nat
  /-- A read by reconstruction (R218). -/
  recon : Bool
  /-- Region index of a program. -/
  index : Nat
  deriving DecidableEq, Repr

/-- A region's write stream (R193): the block being filled, sectors used in its open NAND page, what they hold. -/
structure WStream where
  index  : Nat
  block  : Nat
  /-- Next sector in the block. -/
  off    : Nat
  /-- Stroke in which the open NAND page's first sector was placed. -/
  since  : Nat
  /-- Token slots used in the open token sector: its address and slots. -/
  tok    : Option (Nat × Nat)
  deriving DecidableEq, Repr

/-- A page placed in a stream and waiting for the programs of its NAND pages (R193). -/
structure Placed where
  /-- Page, or pool page key. -/
  pid   : Nat
  index : Nat
  first : Nat
  /-- Sectors it takes. -/
  count : Nat
  /-- First sectors of NAND pages not yet programmed. -/
  todo  : List Nat
  /-- The page was written since: the copy is released when its programs end (Table 9-2). -/
  stale : Bool
  deriving DecidableEq, Repr

structure TierSt where
  ops     : List NandOp
  nextOp  : Nat
  streams : List WStream
  placed  : List Placed
  /-- NAND pages full or padded and waiting for their program chunk: region index, first sector, Stroke since which. -/
  ready   : List (Nat × Nat × Nat)
  /-- Pages selected for demotion, in order. -/
  demote  : List Nat
  /-- Reads still to start of each page-in under way, in order: page or pool page key; NAND page, and whether by reconstruction (R218). -/
  plans   : List (Nat × List (Nat × Bool))
  /-- Dead dies that no spare has replaced yet: group and place in the stripe (R217). -/
  dead    : List (Nat × Nat)
  /-- The spare die that took a place: group × 16 + place, die. -/
  spared  : List (Nat × Nat)
  /-- Running rebuilds (R217): group, the dead place, the stripes still to reconstruct. -/
  rebuild : List (Nat × Nat × List Nat)
  /-- Data NAND pages of each unfinished stripe programmed so far, their parity accumulated in DRAM (R192). -/
  stripes : List (Nat × Nat)
  /-- Program chunks started in this Stroke, against the limit of R195. -/
  progs   : Nat
  /-- A chunk waited for a frame in this Stroke (R206). -/
  waited  : Bool
  /-- A quiesce is under way (R68). -/
  quiesce : Bool
  deriving DecidableEq, Repr

/-- A programmed log page (Table 9-7): its sector, REGION, LOG_SEQ, FLASH_GEN, NEXT, records, and where its copies with a valid LOG_CRC
lie: channel group and place in the stripe (R210). -/
structure LogPage where
  addr   : Nat
  region : Nat
  lseq   : Nat
  gen    : Nat
  next   : Nat
  recs   : List Nat
  copies : List (Nat × Nat)
  deriving DecidableEq, Repr

/-- A region's chain: the index it is listed at, the index under which it was written (R526), its log pages in order, its data blocks, the
blocks of its log pages, and the sector kept for its next log page, which the last page's NEXT names. -/
structure Chain where
  index  : Nat
  written : Nat
  pages  : List LogPage
  blocks : List Nat
  logs   : List Nat
  next   : Nat
  deriving DecidableEq, Repr

/-- An anchor slot (R216): NAND pages programmed in its block, whether its last one has a valid CRC-32C, and that copy: FLASH_GEN and, per
chain, listed index, written index and log start address. -/
structure AnchorSlot where
  used    : Nat
  valid   : Bool
  gen     : Nat
  entries : List (Nat × Nat × Nat)
  deriving DecidableEq, Repr

/-- A latched region action (R62): index, 1 adopt, 2 scrub, target. -/
structure RegAct where
  index  : Nat
  action : Nat
  target : Nat
  deriving DecidableEq, Repr

structure FlashSt where
  /-- What the media hold by first sector: a stored page, a token sector, a pool page. Survives power. -/
  media   : List (Nat × List Byte)
  /-- The chains on the media; the scan keeps those the anchor names. Survives power. -/
  chains  : List Chain
  /-- FLASH_GEN. Survives power. -/
  gen     : Nat
  /-- The four anchor slots (R216). Survives power. -/
  slots   : List AnchorSlot
  /-- Stripes whose parity is on flash (R192). Survives power. -/
  parity  : List Nat
  /-- NAND pages lost with all they hold, by first sector, until their block is erased (R219). Survives power. -/
  lost    : List Nat
  /-- Card-wide log page count. Survives power. -/
  logSeq  : Nat
  /-- Blocks ever taken: the lowest never used. Survives power. -/
  nextBlock : Nat
  /-- Erased blocks in the free pool. Survives power. -/
  freeBlocks : List Nat
  /-- Log buffers in DRAM: region index, and the records with the Strokes in which they entered it, oldest first. -/
  bufs    : List (Nat × List (Nat × Nat))
  /-- The anchor was updated in this run (R216). -/
  written : Bool
  /-- Regions the scan found. -/
  found   : List Nat
  /-- Latched region actions, oldest first. -/
  actions : List RegAct
  /-- The action that runs. -/
  acting  : Option RegAct
  /-- Adopted KV regions: index and target tenant. -/
  adopted : List (Nat × Nat)
  /-- Tenants with a protected page programmed in this run (R423). -/
  keyed   : List Nat
  deriving DecidableEq, Repr

/-! ### Chapter 10 -/

/-- A cascade word sent by this card (R246, R248): tag, work, key index, send Stroke, reissued. -/
structure CascOut where
  tag  : Nat
  work : Nat
  /-- The search chunk that sent it: it ends when its last word is back (R247). -/
  idx  : Nat
  key  : Nat
  sent : Nat
  again : Bool
  word : CascadeWord
  deriving DecidableEq, Repr

/-- A peloton request gathered from MATCH_TOKEN segments (R340). -/
structure PelReq where
  src  : Nat
  xid  : Nat
  tid  : Nat
  ns   : Nat
  segs : Nat
  got  : List (Nat × List (List Byte))
  /-- Keys still to be searched, from the last down; none before the search begins. -/
  left : Option Nat
  /-- Cycles left of the search units drawn for it. -/
  credit : Nat
  /-- Its best match: key index, SID, record and Stroke of insertion. -/
  best : Option (Nat × Nat × Nat × Nat)
  deriving DecidableEq, Repr

structure SrchSt where
  entries : List Entry
  casc    : List CascOut
  nextTag : Nat
  pel     : List PelReq
  /-- Brake step measured and not yet in force: percent (R252). -/
  brakeNext : Option Nat
  /-- Banks being drained, with the width to come. -/
  reshape : List (Nat × Nat)
  /-- Banks whose width changes at the next boundary. -/
  widths  : List (Nat × Nat)
  /-- Cleared addresses, each with the search chunks that ran at the clear, by work and position (R231). -/
  held    : List (Nat × List (Nat × Nat))
  deriving DecidableEq, Repr

/-! ### Chapters 11 and 13 -/

/-- A constant set (R263, R264). -/
structure ConstSet where
  set   : Nat
  image : List Byte
  /-- Room in MiB. -/
  mib   : Nat
  deriving DecidableEq, Repr

/-- A hook call outstanding (R305): slot, hook, tag, work, unit. -/
structure HookCall where
  slot : Nat
  hook : Nat
  tag  : Nat
  work : Nat
  idx  : Nat
  /-- The page an eviction call scores. -/
  pid  : Nat
  /-- Response beats so far. -/
  got  : List Byte
  /-- The last beat came. -/
  ended : Bool
  deriving DecidableEq, Repr

structure GearSt where
  consts  : List ConstSet
  /-- The set that is LOADING. -/
  loading : Option Nat
  calls   : List HookCall
  nextTag : Nat
  /-- The slot whose readback was served last (R318). -/
  rbLast  : Nat
  /-- Slot and frame the scrub reads back next (R318). -/
  scrub   : Nat × Nat
  /-- Readback requests waiting, oldest first: slot, frame. -/
  readback : List (Nat × Nat)
  /-- Next free cycle of each hook's port in this Stroke, by hook (R308). -/
  port    : List (Nat × Nat)
  /-- Pages queued for an eviction call (R311). -/
  queued  : List Nat
  /-- The page the eviction sweep reached (R311). -/
  sweep   : Nat
  /-- Chunks that found no room for their burst and were counted: work and position (R308). -/
  waited  : List (Nat × Nat)
  /-- Slots whose block memory a slot image initialised: slot and the image's stamp; an unlisted slot's memory is zero (R304). -/
  blockMem : List (Nat × Nat)
  deriving DecidableEq, Repr
/-! ### Chapter 14 -/

/-- One Chainring port's hop (R329 to R333). -/
structure Hop where
  port   : Nat
  member : Option Nat
  /-- LINK_SEQ of the last sequenced frame sent. -/
  sent   : Nat
  /-- Last LINK_SEQ accepted in order. -/
  got    : Nat
  /-- Frames kept for replay, oldest first. -/
  replay : List Frame
  /-- Frames waiting for credits or for the link, each with the port whose receive buffer holds it if it is in transit (R330, R331). -/
  queue  : List (Option Nat × Frame)
  /-- Credits of VC 1 to 3 in 64 B units. -/
  credits : List Nat
  /-- Credits of VC 1 to 3 still to be returned, for buffers freed while the link was down (R330). -/
  owed   : List Nat
  /-- No HELLO was latched since the hop's numbering began: the next one gives the initial credits (R329, R330). -/
  fresh  : Bool
  /-- Stroke of the link loss while the hold runs (R333). -/
  held   : Option Nat
  /-- Measured hop delay in ns (R338). -/
  delay  : Nat
  deriving DecidableEq, Repr

/-- An end-to-end transaction that awaits its answer (R334). -/
structure Txn where
  xid    : Nat
  typ    : Nat
  member : Nat
  work   : Nat
  sent   : Nat
  again  : Bool
  frames : List Frame
  deriving DecidableEq, Repr

/-- A staged page of an epoch (R344): target sequence and page, its content or none for UNWRITTEN. -/
structure StagedPage where
  tid   : Nat
  epoch : Nat
  sq    : Nat
  p     : Nat
  hdr   : List Byte
  body  : List Byte
  /-- Sub-streams that do not decode (R275). -/
  bad   : Nat
  frame : Nat
  deriving DecidableEq, Repr

/-- Segments of a page being received: source, XID, and the parts. -/
structure SegBuf where
  src  : Nat
  sid  : Nat
  page : Nat
  xid  : Nat
  segs : Nat
  got  : List (Nat × List Byte)
  deriving DecidableEq, Repr

/-- What a switch to an epoch will do on this card (R345, R346). -/
structure EpochPlan where
  tid    : Nat
  epoch  : Nat
  /-- Greatest lengths carried in RESHARD_OPEN: sequence index and L. -/
  lens   : List (Nat × Nat)
  /-- Pages sent by a MOVE: sequence index and page. -/
  moved  : List (Nat × Nat)
  /-- PREPAREs recorded and not yet answered: source and XID. -/
  asked  : List (Nat × Nat)
  /-- Switch Stroke of the last PREPARE. -/
  switchAt : Nat
  /-- COMMIT recorded: the Stroke whose boundary switches. -/
  commit : Option Nat
  deriving DecidableEq, Repr

structure ChainSt where
  hops    : List Hop
  nextXid : Nat
  txns    : List Txn
  /-- XIDs received, newest first: source, XID, the answer given. -/
  seen    : List (Nat × Nat × List Frame)
  staged  : List StagedPage
  segs    : List SegBuf
  plans   : List EpochPlan
  /-- Stroke of the last BEAT latched from each member (R336). -/
  beats   : List (Nat × Nat)
  /-- Stroke of the last MARK latched (R337). -/
  lastMark : Nat
  /-- Consecutive MARKs within the bound (R338). -/
  marks   : Nat
  /-- Stroke of the JOIN write (R335). -/
  joinAt  : Option Nat
  /-- A HELLO of the peloton was latched on these ports since JOIN. -/
  helloOn : List Nat
  /-- Members whose HELLO or BEAT showed another period, or this card's MEMBER_ID. -/
  badPeriod : Bool
  dupId   : Bool
  /-- Stroke of the last BEAT and of the last HELLOs sent. -/
  lastBeat : Option Nat
  lastHello : Option Nat
  /-- The count is still to be taken at the next MARK (R336). -/
  takeCount : Bool
  /-- A BEAT of a LOCKED member was latched since JOIN: the peloton runs, so its count is taken (R33). -/
  running : Bool
  /-- Pages the Derailleur has sent, by which it alternates rings (R332). -/
  pageTurn : Nat
  deriving DecidableEq, Repr

/-! ### Chapter 15 -/

/-- An inbound message that is not yet whole (R363, R368). -/
structure InMsg where
  msn    : Nat
  region : Nat
  len    : Nat
  got    : Nat
  start  : Nat
  /-- Lowest PSN of its packets received (R370). -/
  psn    : Nat
  deriving DecidableEq, Repr

/-- A packet sent and not yet acknowledged (R359, R367). -/
structure OutPkt where
  psn   : Nat
  msn   : Nat
  path  : Nat
  tries : Nat
  pkt   : Packet
  deriving DecidableEq, Repr

/-- Transport state of one queue pair beside its registers. -/
structure Qp where
  qp      : Nat
  sqPsn   : Nat
  rqPsn   : Nat
  /-- Last PSN acknowledged. -/
  lastAck : Nat
  msnOut  : Nat
  /-- MSNs below this are acknowledged (R369). -/
  cumAck  : Nat
  out     : List OutPkt
  tries   : Nat
  established : Bool
  drainedSaid : Bool
  inMsgs  : List InMsg
  /-- Lowest MSN that is not whole, and the whole ones beyond it. -/
  cumMsn  : Nat
  whole   : List Nat
  /-- MSG_LENGTH of the messages that became whole, by MSN (R368). -/
  lens    : List (Nat × Nat)
  basePsn : Nat
  psns    : List Nat
  unacked : Nat
  nextPath : Nat
  /-- Retired paths and the Stroke of their return. -/
  retired : List (Nat × Nat)
  /-- FLUSH requests that wait for earlier packets, by PSN. -/
  flushes : List Nat
  /-- Registers written for the moves to come, by offset (R356). -/
  given   : List Nat
  /-- Stroke in which it entered ERR. -/
  errAt   : Option Nat
  /-- Stroke of the last CNP sent. -/
  cnpAt   : Option Nat
  /-- Bytes sent since the last raise. -/
  bytes   : Nat
  /-- Rate in kb/s, target, alpha × 2^20, raises since the cut. -/
  rate    : Nat
  target  : Nat
  alpha   : Nat
  raises  : Nat
  /-- FLUSHes sent and not answered: PSN, work, pages it covers up to. -/
  flushOut : List (Nat × Nat × Nat)
  deriving DecidableEq, Repr

structure RdmaSt where
  qps : List Qp
  /-- Bytes in the ports' inbound buffers, by QP (R364). -/
  held : List (Nat × Nat)
  deriving DecidableEq, Repr

/-! ### Chapter 16 -/

/-- A directory entry (Table 16-4): holders by slot; state 1 S, 2 E. -/
structure DirEnt where
  line    : Nat
  st      : Nat
  holders : List Nat
  used    : Nat
  deriving DecidableEq, Repr

/-- A request that waits in a line's queue, for balance or for a swap page: kind 0 read without caching, 1 shared, 2 ownership,
3 write, 4 a writeback, 5 the data of a snoop response or of the partner's mirror write (slot 64), which have no completion. -/
structure PReq where
  kind : Nat
  slot : Nat
  tag  : Nat
  dpa  : Nat
  data : List Byte
  mask : Nat
  metaV : Nat
  at_  : Nat
  /-- It waited for balance, a recall of capacity or a swap page-in (Table 16-3). -/
  severe : Bool
  /-- The recall that its row of Table 16-5 asks for was made. -/
  cur : Bool
  /-- Its data are poisoned, or, for a read, the DRAM under the line has an uncorrectable error (Table 16-1, R398). -/
  bad : Bool
  /-- The line whose recall makes room for its directory entry (R388). -/
  victim : Option Nat
  /-- It waits in its line's queue (R390). -/
  lined : Bool
  deriving DecidableEq, Repr

/-- An outstanding back-invalidation snoop: slot, line, kind 0 Cur, 1 Data, 2 Inv, Stroke sent. -/
structure Snoop where
  slot : Nat
  line : Nat
  kind : Nat
  sent : Nat
  /-- A POOL_XFER's work number plus one, or 0. -/
  who  : Nat
  deriving DecidableEq, Repr

/-- A line mirrored and not yet acknowledged (R401): its MIRROR_WRITE, and the completion that waits for the MIRROR_ACK, if it has one:
when the request came, and whether its wait was severe (Table 16-3). -/
structure MirWait where
  xid : Nat
  line : Nat
  slot : Nat
  tag : Nat
  part : Nat
  at_  : Nat
  severe : Bool
  answers : Bool
  deriving DecidableEq, Repr

/-- A swap-cache page (R387). -/
structure SwapPage where
  region : Nat
  page   : Nat
  dirty  : Bool
  used   : Nat
  /-- First sector of a write to flash under way. -/
  writing : Option Nat
  /-- First Stroke in which it is usable (R386). -/
  usable : Nat
  deriving DecidableEq, Repr

/-- A swap page-in under way (R386): pool page key, Stroke asked for, NAND reads started and done, Stroke of the last start. -/
structure SwapIn where
  key     : Nat
  since   : Nat
  started : Nat
  done    : Nat
  readAt  : Nat
  deriving DecidableEq, Repr

/-- What a mirrored tenant still has to send to its partner (R402): a log record, or the stored form of a programmed page. -/
structure KvItem where
  tid   : Nat
  /-- The record; none for a page. -/
  rcd   : Option Nat
  sid   : Nat
  page  : Nat
  bytes : List Byte
  /-- A live record that a resync copies (R406). -/
  copy  : Bool
  deriving DecidableEq, Repr

structure PoolSt where
  /-- Pool memory by DPA; unlisted bytes are zero (R378). -/
  mem     : List Host.Cell
  dir     : List DirEnt
  snoops  : List Snoop
  waiting : List PReq
  /-- Poisoned lines (R398). -/
  poison  : List Nat
  /-- Lines served in this Stroke: slot (R384); partition; lines mirrored, by partition (R401). -/
  served   : List (Nat × Nat)
  lines    : List (Nat × Nat)
  mirrored : List (Nat × Nat)
  /-- What the last Stroke drew: slot, lines; partition, pool units. -/
  hostDrew : List (Nat × Nat)
  partDrew : List (Nat × Nat)
  /-- Slots and partitions of which a request waited at the last boundary. -/
  hostWait : List Nat
  partWait : List Nat
  /-- Capacity each host was given: slot, region, access; release under way with its Stroke and the access it had. -/
  added   : List (Nat × Nat × Nat)
  releasing : List (Nat × Nat × Nat × Nat)
  /-- Hosts whose release ended while their entry stands: their requests to the region are foreign (R380). -/
  gone    : List (Nat × Nat)
  swap    : List SwapPage
  swapIn  : List SwapIn
  /-- Lines a POOL_XFER has read by BISnpCur: work, line (R395). -/
  curDone : List (Nat × Nat)
  /-- Where each pool page of a flash region rests: pool page key, sector. -/
  flashAt : List (Nat × Nat)
  mirror  : List MirWait
  /-- Lines accepted in this command that still go into a MIRROR_WRITE: region, data and what waits for the acknowledgement (R401). -/
  mirNow  : List (Nat × List Byte × MirWait)
  /-- MIRROR_WRITEs received before the memory that they need is there (R56). -/
  mirIn   : List Frame
  /-- XID of the partner's last MIRROR_WRITE applied to a line of a region (R341). -/
  mirLast : List (Nat × Nat)
  /-- MIRROR_WRITEs of KV data not yet acknowledged: XID, TID (R341, R402). -/
  kvSent  : List (Nat × Nat)
  /-- Adopted regions whose PARTITION the installer has not written yet (R407). -/
  unset   : List Nat
  /-- Where this card holds page forms of the partner's tenants (R402): source TID, SID, page index, sector, sectors. -/
  kvPages : List (Nat × Nat × Nat × Nat × Nat)
  /-- Such forms whose programs run: number, source TID, SID, page index, stored form. -/
  kvPlaced : List (Nat × Nat × Nat × Nat × List Byte)
  /-- Records and pages of mirrored tenants to send, oldest first (R402). -/
  kvOut   : List KvItem
  /-- Segments of a mirrored page being received: source XID order key and parts. -/
  kvSegs : List (Nat × List (Nat × List Byte))
  /-- A KV takeover under way: source TID, source member, target TID (R405). -/
  takeover : Option (Nat × Nat × Nat)
  /-- What a resync still has to send: for a tenant or a region, its number, and the next page (region) or leaf key (tenant). -/
  resync  : List (Bool × Nat × Nat)
  /-- Copies sent and not acknowledged: XID, for tenant, number. -/
  copying : List (Nat × Bool × Nat)
  /-- The next use stamp of the directory and the swap cache. -/
  clock   : Nat
  deriving DecidableEq, Repr

/-- The whole card. -/
structure State where
  /-- Commands waiting, first in first out. -/
  pending : List Instr
  /-- The Stroke counter (R26): 48 bits. -/
  stroke : Nat
  /-- Every register's word, by `regKey offset instance`; unlisted words are at their After-power-up value. -/
  regs : List (Nat × Word)
  /-- Words in force of registers whose written value acts later (R491, R52), by the same key. -/
  live : List (Nat × Word)
  /-- Latched high halves and select copies of the SMBus and maker paths and the BAR0 latches: key = path × 2^40 + regKey. -/
  paths : List (Nat × Word)
  /-- Host memory. -/
  hmem : List Host.Cell
  /-- The MSI-X tables' bytes: PF0's from 0, VF n's from n × 2^16 (Table 21-1). -/
  msix : List Host.Cell
  /-- Everything sent to the outside so far. -/
  out : List Out
  /-- The model's own counter: how many free values have been taken. -/
  free : Nat
  pw : PowerSt
  img : ImgSt
  role : RoleSt
  err : ErrSt
  wd : WdogSt
  bnd : BndSt
  ring : RingSt
  part : PartSt
  sq : SeqSt
  wk : WorkSt
  tier : TierSt
  flash : FlashSt
  srch : SrchSt
  gear : GearSt
  chain : ChainSt
  rdma : RdmaSt
  pool : PoolSt
  deriving DecidableEq, Repr

/-- The Stroke counter's bound (R26). -/
def strokeMax : Nat := 0xFFFFFFFFFFFF

def Res6.zero : Res6 := ⟨0, 0, 0, 0, 0, 0⟩

/-- Chapter 22 at reset exit: both inputs in tolerance, no reset condition, straps open (R508). -/
def PowerSt.init : PowerSt :=
  { inA := true, inB := true, perst := false, resetIn := false, held := false, causes := 0, tripHold := false,
    casPos := 0, casSize := 0, cxlLink := true, temps := [-128, -128, -128, -128, -128, -128, -128, -128],
    vin := [12000, 12000], pin := [0, 0], warn := 0, trip := 0, smbAlert := false, smOffset := 0, expiryNext := 0#32 }

def ImgSt.init : ImgSt :=
  { header := [], staged := [], bar2 := [], fwApplied := false, ucode := [], shellLoaded := false, designs := [],
    slotNext := [], loadSlot := none, serialLast := 0, attn := false, slotAt := 0 }

def RoleSt.init : RoleSt := { auditSeq := 0, held := [], nonce := none }

def ErrSt.init : ErrSt :=
  { events := [], evSeq := [], irqPend := false, obs := .closed, obsEatStart := false, obsStop := false, probing := false,
    rebuilding := [] }

/-- Chapter 19 at reset exit: the system watchdog runs, the boot ROM serves it; host-liveness is off (Table 3-1). -/
def WdogSt.init : WdogSt :=
  { sys := { running := true, period := 32768, mask := 0, served := false, starting := false },
    host := { running := false, period := 327680, mask := 1, served := false, starting := false },
    key1 := none, grace := none, qlimit := none, hdr := none, coreStop := false, halted := 0xFFFE }

/-- Partition 0 exists from power-up, with budgets of 0 (R409). -/
def BndSt.init : BndSt :=
  { armedPeriod := none, armedPart := none, preset := none, acts := [],
    bal := [{ part := 0, fresh := Res6.zero, carry := Res6.zero, unbraked := 0, poolDrawn := 0 }], carryCap := Res6.zero, capLeft := Res6.zero, rot := 0, forkRot := 0 }

def RingSt.init : RingSt := { sq := [], cq := [], stat := [], lastServed := 0 }

def PartSt.init : PartSt := { keys := [], drains := [], vfCrs := [] }

def SeqSt.init : SeqSt :=
  { roots := [], seqs := [], gens := [], freed := [], fresh := 0, closed := [], leaves := [], pages := [], nextPid := 0, xitems := [],
    walk := [], dirs := [], rebuild := none }

def WorkSt.init : WorkSt := { works := [], next := 0, latched := [], staged := [] }

def TierSt.init : TierSt :=
  { ops := [], nextOp := 0, streams := [], placed := [], ready := [], demote := [], plans := [], dead := [], spared := [],
    rebuild := [], stripes := [], progs := 0, waited := false,
    quiesce := false }

/-- Empty flash: no chain, no valid anchor copy. -/
def FlashSt.init : FlashSt :=
  { media := [], chains := [], gen := 0, slots := List.replicate 4 ⟨0, false, 0, []⟩, parity := [], lost := [], logSeq := 0, nextBlock := 0, freeBlocks := [],
    bufs := [],
    written := false, found := [], actions := [], acting := none, adopted := [], keyed := [] }

/-- What a reset leaves of the flash: everything on the media, nothing of the run (R20, R475). -/
def FlashSt.atReset (f : FlashSt) : FlashSt :=
  { f with bufs := [], written := false, found := [], actions := [], acting := none, adopted := [], keyed := [] }

def SrchSt.init : SrchSt :=
  { entries := [], casc := [], nextTag := 0, pel := [], brakeNext := none, reshape := [], widths := [], held := [] }

def GearSt.init : GearSt :=
  { consts := [], loading := none, calls := [], nextTag := 0, rbLast := 7, scrub := (0, 0), readback := [], port := [], queued := [], sweep := 0, waited := [], blockMem := [] }

def ChainSt.init : ChainSt :=
  { hops := [], nextXid := 1, txns := [], seen := [], staged := [], segs := [], plans := [], beats := [], pageTurn := 0, lastMark := 0,
    marks := 0, joinAt := none, helloOn := [], badPeriod := false, dupId := false, lastBeat := none, lastHello := none,
    takeCount := false, running := false }

def RdmaSt.init : RdmaSt := { qps := [], held := [] }

def PoolSt.init : PoolSt :=
  { mem := [], dir := [], snoops := [], waiting := [], poison := [], served := [], lines := [], mirrored := [], hostDrew := [],
    partDrew := [], hostWait := [], partWait := [], added := [], releasing := [], gone := [], swap := [], swapIn := [], curDone := [], flashAt := [],
    mirror := [], mirNow := [], mirIn := [], mirLast := [], kvSent := [], unset := [], kvPages := [], kvPlaced := [], kvOut := [], kvSegs := [], takeover := none, resync := [], copying := [], clock := 0 }

/-- The card right after reset exit of a cold power-up (R54, R55): every register at its After-power-up value but
SYS.RESET_CAUSE, which shows bit 0, cold power-up. -/
def State.reset : State :=
  { pending := [], stroke := 0, regs := [(SYS.RESET_CAUSE.off, 1#32)], live := [], paths := [], hmem := [], msix := [],
    out := [], free := 0, pw := PowerSt.init, img := ImgSt.init, role := RoleSt.init, err := ErrSt.init,
    wd := WdogSt.init, bnd := BndSt.init, ring := RingSt.init, part := PartSt.init, sq := SeqSt.init, wk := WorkSt.init,
    tier := TierSt.init, flash := FlashSt.init, srch := SrchSt.init, gear := GearSt.init, chain := ChainSt.init,
    rdma := RdmaSt.init, pool := PoolSt.init }

end Sys2Proof.Machine
end

