-- ==== Sys2Proof/Machine/Ops.lean ====
section
/-! DEFINITION. The named operations over the state: registers and their fields, counters, host memory, what is sent to
the outside, free values. -/

namespace Sys2Proof.Machine

/-- What every meaning answers. -/
abbrev Res := Host.Outcome State Fault Refusal

/-! ### Bits and bytes -/

/-- The `n` bits of a word from bit `lo` up (R4). -/
def fieldGet (w : Word) (lo n : Nat) : Nat := (w.toNat >>> lo) % 2 ^ n

/-- The word with `n` bits from bit `lo` up replaced by `v`. -/
def fieldPut (w : Word) (lo n v : Nat) : Word :=
  (w &&& ~~~ (BitVec.ofNat 32 ((2 ^ n - 1) <<< lo))) ||| BitVec.ofNat 32 ((v % 2 ^ n) <<< lo)

/-- The natural a list of bytes spells, little-endian (R4). -/
def leNat : List Byte → Nat
  | [] => 0
  | b :: t => b.toNat + 256 * leNat t

/-- The `n` little-endian bytes of a natural (R4). -/
def leBytes : Nat → Nat → List Byte
  | 0, _ => []
  | n + 1, x => BitVec.ofNat 8 x :: leBytes n (x / 256)

/-- The little-endian natural in bytes `i` to `i + n - 1` of a list; bytes beyond its end count 0. -/
def leAt (bs : List Byte) (i n : Nat) : Nat := leNat ((bs.drop i).take n)

/-- `n` bits from bit `lo` of a natural. -/
def bits (x lo n : Nat) : Nat := (x >>> lo) % 2 ^ n

/-- 1 for true, 0 for false. -/
def b01 (b : Bool) : Nat := if b then 1 else 0

/-- A list of bytes made exactly `n` long, cut or filled with zeros. -/
def padTo (n : Nat) (bs : List Byte) : List Byte := (bs ++ zeros (n - bs.length)).take n

/-! ### Lists keyed by naturals -/

/-- The value listed for a key. -/
def kvFind {α : Type} (l : List (Nat × α)) (k : Nat) : Option α := (l.find? (·.1 = k)).map (·.2)

/-- The list with a key set. -/
def kvSet {α : Type} (l : List (Nat × α)) (k : Nat) (v : α) : List (Nat × α) := spInsert l k v

/-- The list without a key. -/
def kvDel {α : Type} (l : List (Nat × α)) (k : Nat) : List (Nat × α) := spErase l k

/-- The earlier of two keys. -/
def before (a b : Nat × Nat) : Bool := decide (a.1 < b.1) || (a.1 == b.1 && decide (a.2 ≤ b.2))

/-- A list put into order by a key. -/
def inOrder {α : Type} (key : α → Nat × Nat) (l : List α) : List α := l.mergeSort fun a b => before (key a) (key b)

/-! ### Registers -/

/-- The word of the register at `off` for instance `inst`. -/
def State.reg (s : State) (off : Nat) (inst : Nat := 0) : Word := spGet regDefault s.regs (regKey off inst)

/-- The state with that word written. -/
def State.setReg (s : State) (off : Nat) (w : Word) (inst : Nat := 0) : State :=
  { s with regs := spPut regDefault s.regs (regKey off inst) w }

/-- A field's value. -/
def State.get (s : State) (f : Fld) (inst : Nat := 0) : Nat := fieldGet (s.reg f.off inst) f.lo f.w

/-- The state with a field written. -/
def State.put (s : State) (f : Fld) (v : Nat) (inst : Nat := 0) : State :=
  s.setReg f.off (fieldPut (s.reg f.off inst) f.lo f.w v) inst

/-- Whether a one-bit field reads 1. -/
def State.flag (s : State) (f : Fld) (inst : Nat := 0) : Bool := s.get f inst = 1

/-- The word in force of a register whose written value acts later (R491). -/
def State.liveReg (s : State) (off : Nat) (inst : Nat := 0) : Word := spGet regDefault s.live (regKey off inst)

/-- The state with a word put in force. -/
def State.setLive (s : State) (off : Nat) (w : Word) (inst : Nat := 0) : State :=
  { s with live := spPut regDefault s.live (regKey off inst) w }

/-- A field's value in force. -/
def State.lget (s : State) (f : Fld) (inst : Nat := 0) : Nat := fieldGet (s.liveReg f.off inst) f.lo f.w

/-- A saturating counter raised by `n` (R478: the 32-bit counters saturate). -/
def State.sat (s : State) (f : Fld) (n : Nat := 1) (inst : Nat := 0) : State :=
  s.put f (min (s.get f inst + n) (2 ^ f.w - 1)) inst

/-- The value of a register pair _LO, _HI, the low word at `off`. -/
def State.pair (s : State) (off : Nat) (inst : Nat := 0) : Nat :=
  (s.reg off inst).toNat + (s.reg (off + 4) inst).toNat * 2 ^ 32

/-- A register pair written. -/
def State.setPair (s : State) (off v : Nat) (inst : Nat := 0) : State :=
  (s.setReg off (BitVec.ofNat 32 v) inst).setReg (off + 4) (BitVec.ofNat 32 (v / 2 ^ 32)) inst

/-- A 64-bit counter raised by `n`, wrapping modulo 2^64 (R478). -/
def State.add64 (s : State) (off : Nat) (n : Nat := 1) : State := s.setPair off ((s.pair off + n) % 2 ^ 64)

/-! ### Phases (Table 3-2) -/

/-- The phase code of SYS.BRINGUP_PHASE. -/
def State.phase (s : State) : Nat := s.get SYS.BRINGUP_PHASE.PHASE

def phROM : Nat := 1
def phLOAD : Nat := 2
def phCONFIGURE : Nat := 3
def phRELEASED : Nat := 4
def phFAULT : Nat := 15

/-- The card is out of reset and its core clock runs (R54, R463). -/
def State.up (s : State) : Bool := !s.pw.held && !s.wd.coreStop

/-- The card runs and is not in FAULT, so that its units work (R460). -/
def State.working (s : State) : Bool := s.up && s.phase != phFAULT

/-- The period in force in microseconds (R25). -/
def State.period (s : State) : Nat := s.get SYS.STROKE_PERIOD.PERIOD_US

/-! ### Host memory and outputs -/

/-- Host addresses are 64-bit and wrap. -/
def hostAddr (a : Nat) : Nat := a % 2 ^ 64

/-- What a byte of host memory that nothing has written reads as. DESIGN CHOICE (log 4): 0. -/
def memDefault (_ : Nat) : Byte := 0#8

/-- One byte of host memory. -/
def State.memByte (s : State) (a : Nat) : Byte := spGet memDefault s.hmem (hostAddr a)

/-- One byte of host memory written. -/
def State.memPut (s : State) (a : Nat) (b : Byte) : State := { s with hmem := spPut memDefault s.hmem (hostAddr a) b }

/-- `n` bytes of host memory from `a` up. -/
def State.memRead (s : State) (a : Nat) : Nat → List Byte
  | 0 => []
  | n + 1 => s.memByte a :: s.memRead (a + 1) n

/-- A list of bytes written to host memory from `a` up. -/
def State.memWrite (s : State) (a : Nat) : List Byte → State
  | [] => s
  | b :: t => (s.memPut a b).memWrite (a + 1) t

/-- Canonical form of host memory. -/
def Memory.wf (m : List Host.Cell) : Bool := spWf memDefault m

/-- Something sent to the outside. -/
def State.emit (s : State) (o : Out) : State := { s with out := s.out ++ [o] }

/-- An MSI-X message of a function: 0 is PF0, any other number the tenant whose VF it is. -/
def State.signal (s : State) (fn vector : Nat) : State := s.emit (.msix fn vector)

/-- The model's counter of free values taken; a free value is an opaque function of it. -/
def State.nextFree (s : State) : State := { s with free := s.free + 1 }

/-! ### Events, and what waits for the boundary -/

/-- An event for event rings, written at the boundary that ends this Stroke (R469); no port, QP or key. -/
def State.event (s : State) (dests : Option (List Nat)) (code info : Nat) : State :=
  { s with err := { s.err with events := s.err.events ++
      [{ dests := dests, stroke := s.stroke, code := code, cause := 0, port := 0xFF, qp := 0xFFFF, key := 0, info := info }] } }

/-- An event with every field given. -/
def State.eventX (s : State) (e : Event) : State :=
  { s with err := { s.err with events := s.err.events ++ [{ e with stroke := s.stroke }] } }

/-- An action for step 5 of the boundary that ends this Stroke (R491). -/
def State.atBoundary (s : State) (a : BAct) : State :=
  { s with bnd := { s.bnd with acts := s.bnd.acts ++ [a] } }

/-! ### Tenants and partitions -/

/-- TENANT_STATUS.STATE: 0 FREE, 1 ACTIVE, 2 RESETTING, 3 DESTROYING (Table 17-4). -/
def State.tenState (s : State) (t : Nat) : Nat := s.get PART.TENANT_STATUS.STATE t

/-- The partition in force of a tenant; TID 0 is in partition 0 (R409, R424). -/
def State.partOf (s : State) (t : Nat) : Nat := if t = 0 then 0 else s.get PART.TENANT_PARTITION.LIVE t

/-- Whether a partition is created (Table 17-4). -/
def State.partCreated (s : State) (p : Nat) : Bool := s.flag PART.PARTITION_STATUS.CREATED p

/-- The live budget of a partition for one resource register (R47). -/
def State.budget (s : State) (p : Nat) : Res6 :=
  { dram := s.get PART.BUDGET_DRAM_LIVE.LIVE p, flash := s.get PART.BUDGET_FLASH_LIVE.LIVE p,
    engine := s.get PART.BUDGET_ENGINE_LIVE.LIVE p, search := s.get PART.BUDGET_SEARCH_LIVE.LIVE p,
    spoke := s.get PART.BUDGET_SPOKE_LIVE.LIVE p, pool := s.get PART.BUDGET_POOL_LIVE.LIVE p }

/-- The VF bound to a tenant, if any (R412); TID 0 acts through PF0. -/
def State.vfOf (s : State) (t : Nat) : Option Nat :=
  if t = 0 then none else ((List.range 1023).map (· + 1)).find? fun v => s.get FN.VF_BIND.TID v = t

/-! ### Clock domains -/

/-- Domain state codes (Table 18-5). -/
def domRUNNING : Nat := 0
def domGATED : Nat := 1
def domOFF : Nat := 2
def domSTARTING : Nat := 3
def domISOLATED : Nat := 4
def domIN_RESET : Nat := 5

/-- A domain's state (Table 18-6). -/
def State.dom (s : State) (d : Nat) : Nat := s.get CLK.DOMAIN_STATUS.STATE d

/-- A domain's state set. -/
def State.setDom (s : State) (d v : Nat) : State := s.put CLK.DOMAIN_STATUS.STATE v d

/-- A write into a crossing towards the GATED flash domain wakes it (R440). -/
def State.wakeFlash (s : State) : State :=
  if s.dom 10 = domGATED then (s.setDom 10 domRUNNING).add64 CLK.WAKES_LO.off else s

end Sys2Proof.Machine
end

