-- ==== Sys2Proof/Machine/Audit.lean ====
section
/-! DEFINITION. The audit ring with its holding buffer (R107 to R111, R523), the capture of illegal register sequences
(R112), and the report of a fault with the move to FAULT (R468, R470, R57, R325, R400). -/

namespace Sys2Proof.Machine

/-! ### Audit entries -/

/-- The 64 bytes of an audit entry (Table 5-4). -/
def auditBytes (seq stroke actor event subject old written after : Nat) (detail : List Byte) (dword : Nat) : List Byte :=
  let body := leBytes 8 seq ++ leBytes 6 stroke ++ leBytes 1 actor ++ leBytes 1 event ++ leBytes 4 subject ++
    leBytes 4 old ++ leBytes 4 written ++ leBytes 4 after ++ padTo 16 detail ++ leBytes 4 dword ++ zeros 8
  body ++ leBytes 4 (crc32c body).toNat

/-- ENTRIES_LOG2 is 8 to 12 and ENABLE is set: the ring is written (Table 5-5). -/
def State.auditOn (s : State) : Bool :=
  s.flag ROLE.AUDIT_CTRL.ENABLE && 8 ≤ s.get ROLE.AUDIT_CTRL.ENTRIES_LOG2 && s.get ROLE.AUDIT_CTRL.ENTRIES_LOG2 ≤ 12

/-- Entries the ring holds (R109). -/
def State.auditSize (s : State) : Nat := 2 ^ s.get ROLE.AUDIT_CTRL.ENTRIES_LOG2

/-- HEAD − TAIL modulo 2^32 (R109). -/
def State.auditPending (s : State) : Nat :=
  (s.get ROLE.AUDIT_HEAD.COUNT + 2 ^ 32 - s.get ROLE.AUDIT_TAIL.COUNT) % 2 ^ 32

/-- The ring has room for one more entry (R110). -/
def State.auditRoom (s : State) : Bool := s.auditOn && s.auditPending != s.auditSize

/-- One entry written to the ring: at index HEAD mod size, then HEAD advances; the threshold interrupt (R109, R523). -/
def State.auditWrite (s : State) (e : List Byte) : State :=
  let head := s.get ROLE.AUDIT_HEAD.COUNT
  let before := s.auditPending
  let s1 := s.memWrite (s.pair ROLE.AUDIT_BASE_LO.off + 64 * (head % s.auditSize)) e
  let s2 := s1.put ROLE.AUDIT_HEAD.COUNT ((head + 1) % 2 ^ 32)
  let th := s.get ROLE.AUDIT_THRESHOLD.ENTRIES
  if before < th ∧ th ≤ before + 1 then s2.signal 0 (s.get ROLE.AUDIT_CTRL.VECTOR) else s2

/-- The holding buffer replaced, AUDIT_STATUS.HELD with it (Table 5-5). -/
def State.setHeld (s : State) (h : List (List Byte)) : State :=
  ({ s with role := { s.role with held := h } }).put ROLE.AUDIT_STATUS.HELD h.length

/-- An entry would be dropped now: it cannot go to the ring and the holding buffer is full (R110, R111). -/
def State.auditFull (s : State) : Bool := (!s.auditRoom || !s.role.held.isEmpty) && 64 ≤ s.role.held.length

/-- An entry is created: to the ring, to the holding buffer, or dropped (R108, R110). -/
def State.audit (s : State) (actor event subject : Nat) (old written after : Nat := 0) (detail : List Byte := [])
    (dword : Nat := 0) : State :=
  let e := auditBytes s.role.auditSeq s.stroke actor event subject old written after detail dword
  let s1 := { s with role := { s.role with auditSeq := s.role.auditSeq + 1 } }
  if s.auditRoom && s.role.held.isEmpty then s1.auditWrite e
  else if s.role.held.length < 64 then s1.setHeld (s.role.held ++ [e])
  else (s1.put ROLE.AUDIT_STATUS.OVERFLOW 1).sat ROLE.AUDIT_DROPPED.COUNT

/-- Held entries written oldest first while there is room, at most `n` (R110). -/
def State.auditDrain (s : State) : Nat → State
  | 0 => s
  | n + 1 =>
    match s.role.held with
    | [] => s
    | e :: t => if s.auditRoom then ((s.auditWrite e).setHeld t).auditDrain n else s

/-- ACTOR byte of the card itself: role 3, path 4 (Table 5-4). -/
def actorCard : Nat := 3 + 4 * 4

/-- ACTOR byte of the installer on BAR0: role 1, path 0. -/
def actorBar0 : Nat := 1

/-! ### Illegal register sequences (R112) -/

def causePhase : Nat := 1
def causeState : Nat := 2
def causeWidth : Nat := 3
def causeUnassigned : Nat := 4
def causeLocked : Nat := 5
def causeAuditFull : Nat := 6

/-- An illegal register sequence: counted, and captured when no capture is held (R112). Path codes of Table 5-4. -/
def State.illegal (s : State) (path cause off value : Nat) : State :=
  let s1 := s.sat ROLE.ILLEGAL_COUNT.COUNT
  if s.flag ROLE.ILLEGAL_INFO.VALID then s1
  else
    let s2 := ((s1.put ROLE.ILLEGAL_INFO.VALID 1).put ROLE.ILLEGAL_INFO.PATH path).put ROLE.ILLEGAL_INFO.CAUSE cause
    ((s2.put ROLE.ILLEGAL_OFFSET.OFFSET off).put ROLE.ILLEGAL_VALUE.VALUE value).setPair ROLE.ILLEGAL_STROKE_LO.off s.stroke

/-! ### Faults -/

/-- Fault classes by their bit (Table 20-1). -/
def clsCORRECTED : Nat := 0
def clsPAGE_LOSS : Nat := 1
def clsINPUT : Nat := 2
def clsUNIT : Nat := 3
def clsLINK : Nat := 4
def clsRESOURCE : Nat := 5
def clsHOST : Nat := 6
def clsFATAL : Nat := 7

/-- Whether the observation window is open (R479). -/
def State.obsOpen (s : State) : Bool :=
  match s.err.obs with
  | .open _ => true
  | _ => false

/-- The report of a fault of a class: its 64-bit counter, its STATUS bit, the first capture, the window counter, and the
interrupt for the boundary (R468, R470, R479). -/
def State.fault (s : State) (cls source info : Nat) : State :=
  let s1 := (s.add64 (ERR.COUNT_CORRECTED_LO.off + 8 * cls)).setReg ERR.STATUS.off
    (s.reg ERR.STATUS.off ||| BitVec.ofNat 32 (2 ^ cls))
  let s2 := if s.obsOpen then s1.sat (ERR.OBS_COUNT.COUNT.word cls) else s1
  let s3 :=
    if cls = clsCORRECTED ∨ s.flag ERR.FIRST.VALID then s2
    else ((((s2.put ERR.FIRST.VALID 1).put ERR.FIRST.CLASS cls).put ERR.FIRST.SOURCE source).setPair
      ERR.FIRST_STROKE_LO.off s.stroke).setPair ERR.FIRST_INFO_LO.off info
  if s.get ERR.IRQ_MASK.CLASS / 2 ^ cls % 2 = 1 ∧ bits (s.reg ERR.STATUS.off).toNat cls 1 = 0 then { s3 with err := { s3.err with irqPend := true } } else s3

/-- ERR.FIRST_INFO of a page's or descriptor's fault: TID and SID (Table 20-5). -/
def tidSidInfo (tid sid : Nat) : Nat := sid + tid * 2 ^ 32

/-- A move to a new bring-up phase, with its audit entry (R57, R107). -/
def State.toPhase (s : State) (ph : Nat) : State := (s.put SYS.BRINGUP_PHASE.PHASE ph).audit actorCard 4 ph

/-! ### Queue pairs that fail with their port (R357, R372) -/

def qpRESET : Nat := 0
def qpINIT : Nat := 1
def qpRTR : Nat := 2
def qpRTS : Nat := 3
def qpSQD : Nat := 4
def qpERR : Nat := 5

def State.qpState (s : State) (q : Nat) : Nat := s.get RDMA.QP_STATUS.STATE q

/-- The port's rate in kb/s: 800 Gb/s. -/
def portRate : Nat := 800000000

/-- A QP's transport state at its power-up values; the rate is the port's and alpha is 1 (DESIGN CHOICE, log 64). -/
def freshQp (q : Nat) : Qp :=
  { qp := q, sqPsn := 0, rqPsn := 0, lastAck := 0, msnOut := 0, cumAck := 0, out := [], tries := 0, established := false,
    drainedSaid := false, inMsgs := [], cumMsn := 0, whole := [], lens := [], basePsn := 0, psns := [], unacked := 0, nextPath := 0,
    retired := [], flushes := [], given := [], errAt := none, cnpAt := none, bytes := 0, rate := portRate, target := portRate,
    alpha := 2 ^ 20, raises := 0, flushOut := [] }

def State.qp (s : State) (q : Nat) : Qp := (s.rdma.qps.find? (·.qp = q)).getD (freshQp q)

def State.setQp (s : State) (x : Qp) : State := { s with rdma := { s.rdma with qps := s.rdma.qps.filter (·.qp ≠ x.qp) ++ [x] } }

def State.qpPd (s : State) (q : Nat) : Nat := s.get RDMA.QP_BIND.PD q
def State.qpPort (s : State) (q : Nat) : Nat := s.get RDMA.QP_BIND.PORT q
def State.pdOwner (s : State) (pd : Nat) : Nat := s.get RDMA.PD_CTRL.OWNER_TID pd
def State.pdOn (s : State) (pd : Nat) : Bool := s.flag RDMA.PD_CTRL.ENABLE pd

/-- An event about a QP or region (R372): the owner's ring and PF0's. -/
def State.rdmaEvent (s : State) (code cause port qp key info pd : Nat) : State :=
  s.eventX { dests := some ([0, s.pdOwner pd].eraseDups), stroke := s.stroke, code := code, cause := cause, port := port, qp := qp,
             key := key, info := info }

/-- QPs with a register or transport state: those that are not in RESET. -/
def State.liveQps (s : State) : List Nat :=
  (((s.regs.filter fun p => p.1 % 0x1000000 = RDMA.QP_STATUS.off).map fun p => p.1 / 0x1000000).filter fun q => s.qpState q ≠ 0)

/-- A port event (R372): PF0's ring and those of tenants with a QP on the port. -/
def State.portEvent (s : State) (code port info : Nat) : State :=
  let ts := (s.liveQps.filter fun q => s.qpPort q = port).map fun q => s.pdOwner (s.qpPd q)
  s.eventX { dests := some ((0 :: ts).eraseDups), stroke := s.stroke, code := code, cause := 0, port := port, qp := 0xFFFF, key := 0,
             info := info }

/-- A QP's entry into ERR (R357), its descriptors aside: state and cause, messages that are not whole abandoned, QP_ERROR. -/
def State.markErr (s : State) (q cause : Nat) : State :=
  let x := s.qp q
  let s1 := ((s.put RDMA.QP_STATUS.STATE qpERR q).put RDMA.QP_STATUS.ERR_CAUSE cause q).setQp { x with inMsgs := [], flushes := [], errAt := some s.stroke }
  s1.rdmaEvent 0x11 cause (s.qpPort q) q 0 x.lastAck (s.qpPd q)

/-- A port of a pair that starts closing, beside its descriptors: no link, and on an Ethernet port PORT_DOWN with every QP of it in ERR. -/
def State.cutPort (s : State) (p : Nat) : State :=
  let s1 := s.put SPOKE.PORT_STATUS.LINK_UP 0 p
  if s.get SPOKE.PORT_CTRL.MODE p ≠ 1 then s1
  else (s1.liveQps.filter fun q => s1.qpPort q = p ∧ s1.qpState q ≠ qpERR).foldl (fun s q => s.markErr q 5) (s1.portEvent 0x02 p 0)

/-- The Freewheel hold dropped on every pair: an OPEN or OPENING pair starts closing (R325), and its ports go down (R372). Descriptors end with
the card's work, not by their QP. -/
def State.dropHolds (s : State) : State :=
  (List.range 4).foldl (fun s i =>
    let f : Fld := { SPOKE.FREEWHEEL_STATUS.STATE_i with lo := 2 * i, w := 2 }
    if s.get f = 1 ∨ s.get f = 2 then ((s.put f 3).cutPort (2 * i)).cutPort (2 * i + 1) else s) s

/-- Entry into FAULT (R57, R460): the phase, viral (R400), DEVICE_FATAL to every event ring (R372), the hold dropped on
every pair (R325). Work in flight ends without a completion: the work list is emptied. -/
def State.enterFault (s : State) : State :=
  if s.phase = phFAULT then s
  else
    let t := (((s.toPhase phFAULT).emit .viral).event none 0x30 0).dropHolds
    { t with wk := { t.wk with works := [], latched := [], staged := [] } }

end Sys2Proof.Machine
end

