-- ==== Sys2Proof/Machine/Aes.lean ====
section
/-! DEFINITION. AES-256 and XTS (R417, R419, R421, R422; IEEE Std 1619). -/

namespace Sys2Proof.Machine

/-- Multiplication by x in GF(2^8) of AES. -/
def xtime (a : Nat) : Nat := if 128 ≤ a then (a * 2 % 256) ^^^ 0x1B else a * 2

/-- Product in GF(2^8). -/
def gmul (a b : Nat) : Nat :=
  ((List.range 8).foldl (fun (acc : Nat × Nat) i =>
    (if bits b i 1 = 1 then acc.1 ^^^ acc.2 else acc.1, xtime acc.2)) (0, a)).1

/-- The inverse in GF(2^8): a^254. -/
def ginv (a : Nat) : Nat :=
  ((List.range 7).foldl (fun (acc : Nat × Nat) _ =>
    let sq := gmul acc.2 acc.2
    (gmul acc.1 sq, sq)) (1, a)).1

/-- The S-box computed at one byte. -/
def sboxAt (a : Nat) : Nat :=
  let b := ginv a
  let r (n : Nat) : Nat := (b * 2 ^ n) % 256 + b / 2 ^ (8 - n)
  b ^^^ r 1 ^^^ r 2 ^^^ r 3 ^^^ r 4 ^^^ 0x63

/-- The S-box. -/
def sbox : Array Nat := ((List.range 256).map sboxAt).toArray

/-- The inverse S-box. -/
def sboxInv : Array Nat := ((List.range 256).map fun v => ((List.range 256).find? fun a => sboxAt a = v).getD 0).toArray

def subByte (a : Nat) : Nat := sbox.getD a 0
def subByteInv (a : Nat) : Nat := sboxInv.getD a 0

def xorL (a b : List Nat) : List Nat := List.zipWith (· ^^^ ·) a b

/-- The 60 words of the AES-256 key schedule, four bytes each. -/
def keySchedule (key : List Nat) : List (List Nat) :=
  let w0 := (List.range 8).map fun i => (key.drop (4 * i)).take 4
  ((List.range 52).foldl (fun (acc : List (List Nat) × Nat) j =>
    let i := j + 8
    let (w, rc) := acc
    let prev := w.getD (i - 1) []
    let t :=
      if i % 8 = 0 then
        match (prev.drop 1 ++ prev.take 1).map subByte with
        | b :: r => (b ^^^ rc) :: r
        | [] => []
      else if i % 8 = 4 then prev.map subByte
      else prev
    (w ++ [xorL (w.getD (i - 8) []) t], if i % 8 = 0 then xtime rc else rc)) (w0, 1)).1

/-- Round key `r`, 16 bytes. -/
def roundKey (ks : List (List Nat)) (r : Nat) : List Nat := ((ks.drop (4 * r)).take 4).flatten

/-- The state is 16 bytes in column order; row r of column c is byte 4c + r. -/
def shiftRows (s : List Nat) : List Nat := (List.range 16).map fun i => s.getD ((i + 4 * (i % 4)) % 16) 0

def shiftRowsInv (s : List Nat) : List Nat := (List.range 16).map fun i => s.getD ((i + 16 - 4 * (i % 4)) % 16) 0

/-- MixColumns with the coefficients of its first row. -/
def mixWith (m : List Nat) (s : List Nat) : List Nat :=
  (List.range 16).map fun i =>
    let c := i / 4
    let r := i % 4
    (List.range 4).foldl (fun a k => a ^^^ gmul (s.getD (4 * c + k) 0) (m.getD ((k + 4 - r) % 4) 0)) 0

/-- One AES-256 encryption. -/
def aesEncrypt (ks : List (List Nat)) (b : List Nat) : List Nat :=
  let s := (List.range 13).foldl (fun s r =>
    xorL (mixWith [2, 3, 1, 1] (shiftRows (s.map subByte))) (roundKey ks (r + 1))) (xorL b (roundKey ks 0))
  xorL (shiftRows (s.map subByte)) (roundKey ks 14)

/-- One AES-256 decryption. -/
def aesDecrypt (ks : List (List Nat)) (b : List Nat) : List Nat :=
  let s := (List.range 13).foldl (fun s r =>
    mixWith [14, 11, 13, 9] (xorL ((shiftRowsInv s).map subByteInv) (roundKey ks (13 - r)))) (xorL b (roundKey ks 14))
  xorL ((shiftRowsInv s).map subByteInv) (roundKey ks 0)

def natsOf (bs : List Byte) : List Nat := bs.map (·.toNat)
def bytesOf (ns : List Nat) : List Byte := ns.map (BitVec.ofNat 8 ·)

/-- The XTS tweak of the next block: multiplication by x in GF(2^128), little-endian. -/
def xtsNext (t : Nat) : Nat := if t / 2 ^ 127 % 2 = 1 then (t * 2 % 2 ^ 128) ^^^ 0x87 else t * 2

/-- A data unit of whole 16-byte blocks. -/
def xtsBlocks (k1 : List (List Nat)) (enc : Bool) : Nat → Nat → List Byte → List Byte
  | 0, _, _ => []
  | n + 1, t, bs =>
    match bs with
    | [] => []
    | _ =>
      let tb := natsOf (leBytes 16 t)
      let x := xorL (natsOf (bs.take 16)) tb
      let y := xorL (if enc then aesEncrypt k1 x else aesDecrypt k1 x) tb
      bytesOf y ++ xtsBlocks k1 enc n (xtsNext t) (bs.drop 16)

/-- One XTS data unit under a 64-byte key (Key1 is bytes 0 to 31) and a 128-bit tweak; its length is a multiple of 16. -/
def xtsUnit (key : List Byte) (enc : Bool) (tweak : Nat) (bs : List Byte) : List Byte :=
  let k1 := keySchedule (natsOf (key.take 32))
  let k2 := keySchedule (natsOf (key.drop 32))
  let t := leNat (bytesOf (aesEncrypt k2 (natsOf (leBytes 16 tweak))))
  xtsBlocks k1 enc (bs.length / 16 + 1) t bs

/-- The tweak of data unit `u` of a page (R422). -/
def pageTweak (layer block gen stroke u : Nat) : Nat :=
  u + layer * 2 ^ 8 + block * 2 ^ 24 + gen * 2 ^ 56 + (stroke % 2 ^ 40) * 2 ^ 88

/-- The bytes of a page from byte 256 on, encrypted or decrypted by its data units (R422); zeros fill the last unit to a multiple
of 16 bytes. -/
def xtsPage (key : List Byte) (enc : Bool) (layer block gen stroke : Nat) (body : List Byte) : List Byte :=
  let b := padTo ((body.length + 15) / 16 * 16) body
  let u0 := b.take 3840
  let rest := pieces 4096 16 (b.drop 3840)
  xtsUnit key enc (pageTweak layer block gen stroke 0) u0 ++
    (rest.zipIdx.map fun (u, i) => xtsUnit key enc (pageTweak layer block gen stroke (i + 1)) u).flatten

/-- The key check value (R419). -/
def kcv (key : List Byte) : Nat :=
  let msg := [0x53, 0x4E, 0x55, 0x37, 0x36, 0x34, 0x30, 0x2D, 0x4B, 0x45, 0x59, 0x43, 0x48, 0x45, 0x43, 0x4B]
  let e (k : List Byte) : Nat := leNat (bytesOf ((aesEncrypt (keySchedule (natsOf k)) msg).take 4))
  e (key.take 32) ^^^ e (key.drop 32)

end Sys2Proof.Machine
end

