-- ==== Sys2Proof/Machine/Coder.lean ====
section
/-! DEFINITION. The lossless coder (R268 to R275) and the page header (Tables 7-8, 8-5, 11-3). -/

namespace Sys2Proof.Machine

/-! ### Coder blocks -/

/-- The tag and body of a line, given the block's previous line (Table 11-2, R270). -/
def lineCode (prev : Option (List Byte)) (l : List Byte) : Nat × List Byte :=
  let nz := l.filter (· ≠ 0#8)
  if nz.isEmpty then (0, [])
  else if prev = some l then (1, [])
  else if nz.length ≤ 13 then
    (2, leBytes 2 (l.zipIdx.foldl (fun a x => if x.1 = 0#8 then a else a + 2 ^ x.2) 0) ++ nz)
  else (3, l)

/-- All lines' tags and bodies. -/
def linesCode : Option (List Byte) → List (List Byte) → List (Nat × List Byte)
  | _, [] => []
  | prev, l :: t => lineCode prev l :: linesCode (some l) t

/-- A sub-stream: groups of four lines, a tag byte before each (R269). -/
def groupsCode : Nat → List (Nat × List Byte) → List Byte
  | 0, _ => []
  | fuel + 1, ls =>
    match ls with
    | [] => []
    | _ =>
      let g := ls.take 4
      BitVec.ofNat 8 (g.zipIdx.foldl (fun a x => a + x.1.1 * 4 ^ x.2) 0) :: (g.flatMap (·.2)) ++ groupsCode fuel (ls.drop 4)

/-- A block coded: its bytes and whether it is STORED (R270). -/
def blockCode (b : List Byte) : List Byte × Bool :=
  let c := groupsCode (b.length / 16 + 1) (linesCode none (pieces 16 (b.length / 16) b))
  if b.length ≤ c.length then (b, true) else (c, false)

/-- The coded form of a payload: the CODER_INDEX entries and the bytes from page byte 256 (R268, R271). -/
def codePayload (p : List Byte) : List Nat × List Byte :=
  let e := (p.length + 255) / 256 * 256
  let x := padTo e p
  let bs := (pieces (e / 16) 16 x).map blockCode
  let r := bs.foldl (fun (acc : List Nat × List Byte) b =>
    let out := padTo ((acc.2.length + 15) / 16 * 16) acc.2
    (acc.1 ++ [out.length / 16 + b.1.length * 2 ^ 16 + (if b.2 then 2 ^ 31 else 0)], out ++ b.1)) ([], [])
  r

/-- One sub-stream decoded to lines, or none where a check of R275 fails. -/
def groupsDecode : Nat → Nat → Option (List Byte) → List Byte → Option (List Byte)
  | 0, _, _, _ => none
  | fuel + 1, n, prev, bs =>
    if n = 0 then (if bs.isEmpty then some [] else none)
    else
      match bs with
      | [] => none
      | tag :: rest =>
        let k := min n 4
        let r := (List.range 4).foldl (fun (acc : Option (List Byte × Option (List Byte) × List Byte)) i =>
          acc.bind fun (out, pv, cur) =>
            let t := bits tag.toNat (2 * i) 2
            if k ≤ i then (if t = 0 then some (out, pv, cur) else none)
            else if t = 0 then some (out ++ zeros 16, some (zeros 16), cur)
            else if t = 1 then pv.map fun p => (out ++ p, some p, cur)
            else if t = 2 then
              let mask := leAt cur 0 2
              let cnt := ((List.range 16).filter fun j => bits mask j 1 = 1).length
              if cur.length < 2 + cnt ∨ mask = 0 then none
              else
                let l := ((List.range 16).foldl (fun (a : List Byte × List Byte) j =>
                  if bits mask j 1 = 1 then (a.1 ++ a.2.take 1, a.2.drop 1) else (a.1 ++ [0#8], a.2)) ([], cur.drop 2)).1
                some (out ++ l, some l, cur.drop (2 + cnt))
            else if cur.length < 16 then none
            else some (out ++ cur.take 16, some (cur.take 16), cur.drop 16)) (some ([], prev, rest))
        r.bind fun (out, pv, cur) => (groupsDecode fuel (n - k) pv cur).map (out ++ ·)

/-- Bytes of a coder block of a payload of `p` bytes (R268). -/
def coderBlock (p : Nat) : Nat := (p + 255) / 256 * 16

/-- The block that a CODER_INDEX entry names, decoded from the bytes after the header; none where a check fails (R275). -/
def decodeSub (b : Nat) (bs : List Byte) (x : Nat) : Option (List Byte) :=
  let off := 16 * bits x 0 16
  let len := bits x 16 12
  let sub := (bs.drop off).take len
  if bs.length < off + len ∨ len = 0 then none
  else if bits x 31 1 = 1 then (if len = b then some sub else none)
  else groupsDecode (b / 16 + 1) (b / 16) none sub

/-- A payload of `p` bytes decoded sub-stream by sub-stream: zeros where one fails its checks, and a bit for each that does (R275). -/
def decodeParts (p : Nat) (index : List Nat) (bs : List Byte) : List Byte × Nat :=
  let subs := index.map (decodeSub (coderBlock p) bs)
  ((subs.flatMap fun x => x.getD (zeros (coderBlock p))).take p,
    (List.range subs.length).foldl (fun m i => m + if (subs.getD i none).isNone then 2 ^ i else 0) 0)

/-! ### The page header -/

/-- Header fields the card sets when it writes a page (Tables 7-8 and 8-5). -/
structure HdrSpec where
  format : Nat
  flags  : Nat
  bt     : Nat
  fill   : Nat
  layer  : Nat
  tid    : Nat
  sid    : Nat
  block  : Nat
  gen    : Nat
  stroke : Nat
  dva    : Nat
  index  : List Nat
  heads  : Nat
  cls    : Nat
  elems  : Nat
  groupLog2 : Nat
  rule   : Nat
  valueBytes : Nat
  scaleBytes : Nat
  nonfinite : Nat
  userId : Nat
  deriving DecidableEq, Repr

/-- A header with its CRC computed over bytes 0 to 251. -/
def sealHdr (b : List Byte) : List Byte :=
  let x := padTo 252 b
  x ++ leBytes 4 (crc32c x).toNat

/-- The 256 bytes of a header. -/
def HdrSpec.bytes (h : HdrSpec) (payload : Nat) : List Byte :=
  sealHdr ([0x4B#8, 0x56#8, 0x50#8, 0x47#8, 1#8] ++ leBytes 1 h.format ++ leBytes 1 h.flags ++ leBytes 1 h.bt ++
    leBytes 2 h.fill ++ leBytes 2 h.layer ++ leBytes 2 h.tid ++ zeros 2 ++ leBytes 4 h.sid ++ leBytes 4 h.block ++
    leBytes 4 h.gen ++ leBytes 6 h.stroke ++ zeros 2 ++ leBytes 4 payload ++ leBytes 8 h.dva ++ zeros 16 ++
    padTo 64 (h.index.flatMap (leBytes 4)) ++
    (leBytes 1 h.heads ++ leBytes 1 h.cls ++ leBytes 2 h.elems ++ leBytes 1 h.groupLog2 ++ leBytes 1 h.rule ++ zeros 2 ++
      leBytes 4 h.valueBytes ++ leBytes 4 h.scaleBytes ++ leBytes 4 h.nonfinite ++ leBytes 4 h.userId))

def hdrFORMAT (h : List Byte) : Nat := leAt h 5 1
def hdrFLAGS (h : List Byte) : Nat := leAt h 6 1
def hdrBT (h : List Byte) : Nat := leAt h 7 1
def hdrFILL (h : List Byte) : Nat := leAt h 8 2
def hdrLAYER (h : List Byte) : Nat := leAt h 10 2
def hdrSID (h : List Byte) : Nat := leAt h 16 4
def hdrBLOCK (h : List Byte) : Nat := leAt h 20 4
def hdrGEN (h : List Byte) : Nat := leAt h 24 4
def hdrSTROKE (h : List Byte) : Nat := leAt h 28 6
def hdrPAYLOAD (h : List Byte) : Nat := leAt h 36 4
def hdrHEADS (h : List Byte) : Nat := leAt h 128 1
def hdrELEMS (h : List Byte) : Nat := leAt h 130 2
def hdrGROUPLOG2 (h : List Byte) : Nat := leAt h 132 1
def hdrRULE (h : List Byte) : Nat := leAt h 133 1
def hdrVALUES (h : List Byte) : Nat := leAt h 136 4
def hdrSCALES (h : List Byte) : Nat := leAt h 140 4
def hdrUSERID (h : List Byte) : Nat := leAt h 148 4

/-- FLAGS bits of the header: latent, raw, protected, ring, SIZE_RAW. -/
def hdrRaw (h : List Byte) : Bool := bits (hdrFLAGS h) 1 1 = 1
def hdrProt (h : List Byte) : Bool := bits (hdrFLAGS h) 2 1 = 1
def hdrSizeRaw (h : List Byte) : Bool := bits (hdrFLAGS h) 4 1 = 1
def hdrLatent (h : List Byte) : Bool := bits (hdrFLAGS h) 0 1 = 1

/-- MAGIC, VERSION and HEADER_CRC are valid. -/
def hdrValid (h : List Byte) : Bool :=
  h.take 5 == [0x4B#8, 0x56#8, 0x50#8, 0x47#8, 1#8] && leAt h 252 4 == (crc32c (padTo 252 h)).toNat

/-- CODER_INDEX entries of a header. -/
def hdrIndex (h : List Byte) : List Nat := (List.range 16).map fun i => leAt h (64 + 4 * i) 4

/-- Coding decided for a write (R272 to R274): coding is `on` for the page; answers raw, SIZE_RAW and the index. -/
def codeChoice (on : Bool) (payload : List Byte) : Bool × Bool × List Nat :=
  if !on then (true, false, [])
  else
    let (ix, bs) := codePayload payload
    if (256 + payload.length + 4095) / 4096 ≤ (256 + bs.length + 4095) / 4096 then (true, true, []) else (false, false, ix)

/-- The stored bytes after the header: the payload, or its coded form (R272). -/
def storedBody (hdr body : List Byte) : List Byte := if hdrRaw hdr then body else (codePayload body).2

/-- SECTORS of a stored page (R272). -/
def sectorsOf (hdr body : List Byte) : Nat := (256 + (storedBody hdr body).length + 4095) / 4096

/-- SECTORS the page would take raw. -/
def rawSectors (hdr : List Byte) : Nat := (256 + hdrPAYLOAD hdr + 4095) / 4096

/-- A page from its stored form: header, decoded payload, and the sub-streams that fail the checks of R275. -/
def unstore (b : List Byte) : List Byte × List Byte × Nat :=
  let h := padTo 256 b
  let rest := b.drop 256
  let p := min (hdrPAYLOAD h) 65280
  if hdrRaw h then (h, if hdrProt h then padTo ((p + 15) / 16 * 16) rest else padTo p rest, 0) else (h, decodeParts p (hdrIndex h) rest)

/-- The leaf's flag bits 19:16 as a frame carries them (Tables 14-4, 7-7). -/
def leafFlags (hdr : List Byte) (pinned : Bool) : Nat :=
  b01 (hdrProt hdr) + 2 * b01 pinned + 4 * b01 (hdrLatent hdr) + 8 * b01 (hdrRaw hdr)

end Sys2Proof.Machine
end

