-- ==== Sys2Proof/Machine/Operands.lean ====
section
/-! DEFINITION. Operand forms: the fields of a descriptor by offset (Table 6-1), opcodes and their extent units (Tables 6-2 and
6-4), the page range of Table 9-3 and its visiting order. -/

namespace Sys2Proof

/-- `n` bytes at descriptor offset `off`, 32 to 63. -/
def Desc.b (d : Desc) (off n : Nat) : Nat := Machine.leAt d.body (off - 32) n

/-- Descriptor bytes `lo` to `hi` are zero. -/
def Desc.zero (d : Desc) (lo hi : Nat) : Bool := ((d.body.drop (lo - 32)).take (hi + 1 - lo)).all (· == 0#8)

/-- The range of Table 9-3. -/
def Desc.fb (d : Desc) : Nat := d.b 32 4
def Desc.nb (d : Desc) : Nat := d.b 36 4
def Desc.fl (d : Desc) : Nat := d.b 40 2
def Desc.nl (d : Desc) : Nat := d.b 42 2

/-- ORDER of a DELIVER or READ_PAGES (Tables 9-4, 9-5); the other opcodes visit block-major. -/
def Desc.order (d : Desc) : Nat :=
  if d.opcode = 0x12 then d.b 46 1 % 2 else if d.opcode = 0x11 then d.b 44 1 % 2 else 0

end Sys2Proof

namespace Sys2Proof.Machine

/-- Quotient rounded up. -/
def cdiv (a b : Nat) : Nat := (a + b - 1) / b

/-- Opcodes (Table 6-2). -/
def opNOP : Nat := 0x00
def opOPEN : Nat := 0x01
def opCLOSE : Nat := 0x02
def opFORK : Nat := 0x03
def opAPPEND : Nat := 0x10
def opREAD : Nat := 0x11
def opDELIVER : Nat := 0x12
def opPIN : Nat := 0x13
def opUNPIN : Nat := 0x14
def opFIND : Nat := 0x20
def opNEXT : Nat := 0x21
def opINSERT : Nat := 0x22
def opREMOVE : Nat := 0x23
def opATTN : Nat := 0x30
def opSCORE : Nat := 0x40
def opRESHARD : Nat := 0x50
def opXFER : Nat := 0x60
def opFENCE : Nat := 0x7F

/-- EXTENT_UNIT of an opcode (Tables 6-2, 6-4). -/
def extentUnit (op : Nat) : Nat :=
  if op = opAPPEND ∨ op = opINSERT ∨ op = opREMOVE then 2
  else if op = opREAD ∨ op = opDELIVER ∨ op = opPIN ∨ op = opUNPIN ∨ op = opATTN ∨ op = opSCORE ∨ op = opRESHARD ∨ op = opXFER then 1
  else 0

/-! ### Malformations (Table 6-9) -/

/-- The opcode is in Table 6-2. -/
def opKnown (op : Nat) : Bool :=
  [opNOP, opOPEN, opCLOSE, opFORK, opAPPEND, opREAD, opDELIVER, opPIN, opUNPIN, opFIND, opNEXT, opINSERT, opREMOVE, opATTN,
    opSCORE, opRESHARD, opXFER, opFENCE].contains op

/-- The opcode takes no SID (Table 6-2). -/
def opNoSid (op : Nat) : Bool := [opNOP, opOPEN, opFIND, opNEXT, opFENCE].contains op

/-- The opcode takes a range (Table 9-3). -/
def opRange (op : Nat) : Bool := [opREAD, opDELIVER, opPIN, opUNPIN, opSCORE].contains op

/-- The opcode holds a delivery stream (R125). -/
def opStream (op : Nat) : Bool := op == opREAD || op == opDELIVER

/-- Nonzero and 64 B aligned. -/
def addr64 (a : Nat) : Bool := a != 0 && a % 64 == 0

end Sys2Proof.Machine

namespace Sys2Proof

open Sys2Proof.Machine

/-- An opcode-specific field is outside its encoding (R133, R162, R180, R221, R243, R302, R348, R397). -/
def Desc.badFields (d : Desc) : Bool :=
  let op := d.opcode
  let b := d.b
  let z := d.zero
  if op = opFENCE then decide (1 < b 32 1) || !z 33 63
  else if op = opOPEN then
    b 32 2 == 0 || decide (256 < b 32 2) || decide (63 < b 34 1) || decide (3 < b 35 1) || b 36 4 == 0 ||
      decide (1048576 < b 36 4) || !z 40 63
  else if op = opCLOSE then !z 32 63
  else if op = opFORK then b 32 4 == 0 || !z 40 63
  else if op = opAPPEND then
    b 32 4 == 0 || decide (1048576 < b 32 4) || decide (1 < b 36 1) || decide (1 < b 37 1) || !z 38 39 || !addr64 (b 40 8) ||
      b 48 4 == 0 || b 48 4 % 64 != 0 || b 56 6 % 64 != 0 || decide (b 56 6 < b 32 4 * b 48 4) || !z 62 63
  else if opRange op then
    b 36 4 == 0 || decide (255 < b 40 2) || b 42 2 == 0 || decide (256 < b 42 2) ||
      (if op = opDELIVER then
        decide (16383 < b 44 2) || decide (7 < b 46 1) || !z 47 47 || b 52 4 % 64 != 0 || !addr64 (b 56 8)
      else if op = opREAD then
        decide (3 < b 44 1) || !z 45 51 || b 52 4 % 64 != 0 || decide (b 52 4 < 65536) || !addr64 (b 56 8)
      else if op = opSCORE then decide (127 < b 44 1) || !z 45 47 || !z 52 63
      else !z 44 63)
  else if op = opFIND then
    decide (4095 < b 32 2) || b 34 1 == 0 || decide (1 < b 35 1) || b 36 4 == 0 || decide (65536 < b 36 4) ||
      !addr64 (b 40 8) || !z 48 63 || d.resultUnits == 0
  else if op = opNEXT then
    decide (4095 < b 32 2) || b 34 1 == 0 || !z 35 35 || !addr64 (b 40 8) || !z 56 63 || d.resultUnits == 0 ||
      (b 48 8 / 2 ^ 23 % 2 == 0 && b 48 8 != 0) || decide (2 ^ 24 ≤ b 48 8)
  else if op = opINSERT then
    decide (4095 < b 32 2) || decide (1 < b 34 1) || !z 35 35 || b 40 4 == 0 || decide (65536 < b 40 4) || !z 44 47 ||
      !addr64 (b 48 8) || !z 56 63
  else if op = opREMOVE then
    decide (4095 < b 32 2) || !z 34 35 || b 40 4 == 0 || decide (65536 < b 40 4) || !z 44 63
  else if op = opATTN then
    let ext := b 37 1 % 2 == 1
    let causal := b 37 1 / 2 % 2 == 1
    let bias := b 37 1 / 4 % 4
    b 33 1 == 0 || decide (64 < b 33 1) || b 34 2 == 0 || decide (1024 < b 34 2) || decide (31 < b 36 1) ||
      decide (b 37 1 / 64 = 3) || decide (2047 < b 38 2) || (!ext && b 44 4 == 0) || (ext && !z 40 47) ||
      (!ext && (causal || bias != 0)) || (b 37 1 / 16 % 2 == 1 && bias != 3) || !addr64 (b 48 8) || !addr64 (b 56 8)
  else if op = opRESHARD then
    let k := b 32 1
    decide (2 < k) || !z 62 63 ||
      (if k = 2 then !z 33 33 || !z 48 55 || d.sid != 0
      else b 33 1 == 0 || decide (8 < b 33 1) || b 40 4 == 0 || decide (16777216 < b 40 4) || !addr64 (b 48 8) || !z 56 61)
  else if op = opXFER then
    decide (1 < b 32 1) || b 40 4 == 0 || decide (16777216 < b 40 4) || b 48 8 % 65536 != 0 || !z 56 63 ||
      (b 32 1 == 1 && b 44 4 != 0xFFFFFFFF)
  else false

/-- The first malformation (Table 6-9), 0 for none; `resv` is descriptor byte 1, bits 7:2. -/
def Desc.malformed (d : Desc) (resv : Nat) : Nat :=
  if !opKnown d.opcode then 1
  else if resv ≠ 0 then 2
  else if opNoSid d.opcode && d.sid != 0 then 3
  else if d.resultAddr % 64 != 0 || (d.resultUnits == 0) != (d.resultAddr == 0) then 4
  else if d.badFields then 5
  else 0

end Sys2Proof

namespace Sys2Proof.Machine

/-- A descriptor read from its slot's 64 bytes (Table 6-1). -/
def descOf (tid sq count : Nat) (bs : List Byte) : Desc :=
  { tid := tid, sq := sq, count := count, opcode := leAt bs 0 1, quiet := leAt bs 1 1 % 2 == 1, urgent := leAt bs 1 1 / 2 % 2 == 1,
    resultUnits := leAt bs 2 2, sid := leAt bs 4 4, notBefore := leAt bs 8 6, deadline := leAt bs 14 6,
    userTag := leAt bs 20 4, resultAddr := leAt bs 24 8, body := padTo 32 (bs.drop 32) }

end Sys2Proof.Machine
end

