-- ==== Sys2Proof/Machine/Flags.lean ====
section
/-! DEFINITION. What a completion says: its status codes (Table 6-3), its flags (Table 6-4), LATE, and the status of a
descriptor that ended, losses considered. -/

namespace Sys2Proof.Machine

def flLATE : Nat := 1
def flUNWRITTEN : Nat := 2
def flMULTI : Nat := 4
def flRAW : Nat := 8
def flVERIFY : Nat := 16
def flTHROTTLED : Nat := 32
def flEPOCH : Nat := 64

def stDONE : Nat := 0
def stPARTIAL : Nat := 1
def stIGNORED : Nat := 0x10
def stDENIED : Nat := 0x11
def stRESET : Nat := 0x20
def stFAULT : Nat := 0x21
def stMEDIA : Nat := 0x30
def stPOISON : Nat := 0x31
def stNOTFOUND : Nat := 0x40

/-- LATE (R40, R43): the deadline's Stroke has begun, or the deadline is not after NOT_BEFORE. -/
def Work.late (w : Work) (stroke : Nat) : Bool := w.d.deadline != 0 && decide (w.d.deadline ≤ stroke)

/-- What an ended work's status is when no cause stopped it, losses considered (Table 6-3). -/
def Work.endStatus (w : Work) : Nat × Nat :=
  match w.stop with
  | some (st, dt) => if st < 0x20 ∧ w.losses ≠ [] then (if w.losses.any (·.2 = 3) then stPOISON else stMEDIA, dt) else (st, dt)
  | none => if w.losses = [] then (stDONE, 0) else (if w.losses.any (·.2 = 3) then stPOISON else stMEDIA, 0)

end Sys2Proof.Machine
end

