-- ==== Sys2Proof/Machine/Fp.lean ====
section
/-! DEFINITION. Exact arithmetic on dyadic numbers, the element encodings of Table 8-3, rounding to FP32 and BF16, and the
summation rule of R266. -/

namespace Sys2Proof.Machine

/-- The exact number `m × 2^e`. -/
structure Dy where
  m : Int
  e : Int
  deriving DecidableEq, Repr

def Dy.zero : Dy := ⟨0, 0⟩

/-- Product. -/
def Dy.mul (a b : Dy) : Dy := ⟨a.m * b.m, a.e + b.e⟩

/-- Sum, at the smaller exponent. -/
def Dy.add (a b : Dy) : Dy :=
  if a.m = 0 then b
  else if b.m = 0 then a
  else
    let e := min a.e b.e
    ⟨a.m * 2 ^ (a.e - e).toNat + b.m * 2 ^ (b.e - e).toNat, e⟩

def Dy.neg (a : Dy) : Dy := ⟨-a.m, a.e⟩

/-- `a < b`. -/
def Dy.lt (a b : Dy) : Bool :=
  let d := (a.add b.neg)
  d.m < 0

/-- The magnitude. -/
def Dy.abs (a : Dy) : Dy := ⟨a.m.natAbs, a.e⟩

/-- floor(log2 |a|) of a nonzero number. -/
def Dy.log2 (a : Dy) : Int := (Nat.log2 a.m.natAbs : Int) + a.e

/-- |a| ÷ 2^q rounded to the nearest integer, ties to even. -/
def Dy.rint (a : Dy) (q : Int) : Nat :=
  let s := a.e - q
  if 0 ≤ s then a.m.natAbs * 2 ^ s.toNat
  else
    let d := 2 ^ (-s).toNat
    let k := a.m.natAbs / d
    let r := a.m.natAbs % d
    if d < 2 * r ∨ (2 * r = d ∧ k % 2 = 1) then k + 1 else k

/-- A value of a floating-point format. -/
inductive Fp where
  | nan
  | inf (neg : Bool)
  | fin (d : Dy)
  deriving DecidableEq, Repr

/-- Decode a binary format: sign, `eb` exponent bits, `mb` mantissa bits, with infinities and NaNs at the top exponent. -/
def fpDecode (eb mb x : Nat) : Fp :=
  let bias : Int := 2 ^ (eb - 1) - 1
  let neg := bits x (eb + mb) 1 = 1
  let e := bits x mb eb
  let m := bits x 0 mb
  let sg (n : Nat) : Int := if neg then -n else n
  if e = 2 ^ eb - 1 then (if m = 0 then .inf neg else .nan)
  else if e = 0 then .fin ⟨sg m, 1 - bias - mb⟩
  else .fin ⟨sg (m + 2 ^ mb), e - bias - mb⟩

/-- BF16 input (R171). -/
def bf16Decode (x : Nat) : Fp := fpDecode 8 7 x

/-- FP16 input (R171). -/
def fp16Decode (x : Nat) : Fp := fpDecode 5 10 x

/-- FP32. -/
def fp32Decode (x : Word) : Fp := fpDecode 8 23 x.toNat

/-- A finite mini-float without infinities (Table 8-3): E4M3, E5M2 and E2M1 as stored. -/
def miniDecode (eb mb bias x : Nat) : Dy :=
  let neg := bits x (eb + mb) 1 = 1
  let e := bits x mb eb
  let m := bits x 0 mb
  let sg (n : Nat) : Int := if neg then -n else n
  if e = 0 then ⟨sg m, 1 - (bias : Int) - mb⟩ else ⟨sg (m + 2 ^ mb), (e : Int) - bias - mb⟩

/-- Round to a format with `p` significant bits and least exponent `qmin`: the integer significand and its exponent. -/
def roundTo (p : Nat) (qmin : Int) (a : Dy) : Nat × Int :=
  if a.m = 0 then (0, qmin)
  else
    let q := max (a.log2 - (p - 1)) qmin
    let r := a.rint q
    if r = 2 ^ p then (2 ^ (p - 1), q + 1) else (r, q)

/-- Encode a rounded significand: `mb` stored mantissa bits, bias; `big` is the code of a magnitude too large. -/
def packFp (eb mb : Nat) (big : Nat) (neg : Bool) (r : Nat) (q : Int) : Nat :=
  let bias : Int := 2 ^ (eb - 1) - 1
  let s := if neg then 2 ^ (eb + mb) else 0
  if r < 2 ^ mb then s + r
  else
    let e := q + mb + bias
    if (2 ^ eb - 1 : Int) ≤ e then s + big else s + e.toNat * 2 ^ mb + (r - 2 ^ mb)

/-- A number rounded once to FP32, to nearest-even; an overflow is an infinity (R288); a zero is +0 (R266). -/
def toFp32 (a : Dy) : Word :=
  let (r, q) := roundTo 24 (-149) a
  BitVec.ofNat 32 (packFp 8 23 0x7F800000 (a.m < 0) r q)

/-- A number rounded to BF16, to nearest-even, saturating (R266). -/
def toBf16 (a : Dy) : Nat :=
  let (r, q) := roundTo 8 (-133) a
  if r = 0 then 0 else packFp 8 7 0x7F7F (a.m < 0) r q

/-- The exact value of a finite FP32, zero for the others. -/
def fp32Val (x : Word) : Dy :=
  match fp32Decode x with
  | .fin d => d
  | _ => Dy.zero

/-- A BF16 that is finite, exactly; zero for the others. -/
def bf16Val (x : Nat) : Dy :=
  match bf16Decode x with
  | .fin d => d
  | _ => Dy.zero

/-- An FP32 sum rounded to BF16 (R266): one that overflowed saturates like any magnitude beyond BF16's largest finite value. -/
def bf16Round (x : Word) : Dy :=
  match fp32Decode x with
  | .fin d => bf16Val (toBf16 d)
  | .inf neg => bf16Val (if neg then 0xFF7F else 0x7F7F)
  | .nan => Dy.zero

/-- The FP32 is an infinity. -/
def fp32Inf (x : Word) : Bool :=
  match fp32Decode x with
  | .inf _ => true
  | _ => false

/-- The FP32 is a NaN. -/
def fp32Nan (x : Word) : Bool :=
  match fp32Decode x with
  | .nan => true
  | _ => false

/-- The FP32 is finite. -/
def fp32Finite (x : Word) : Bool :=
  match fp32Decode x with
  | .fin _ => true
  | _ => false

def fp32NegInf : Word := 0xFF800000#32

/-- IEEE product rounded to FP32, to nearest-even. The bits of a NaN are free. -/
def fmul32 (a b : Word) : Word :=
  let neg := bits a.toNat 31 1 != bits b.toNat 31 1
  let sgn (n : Nat) : Word := BitVec.ofNat 32 (n + if neg then 2 ^ 31 else 0)
  match fp32Decode a, fp32Decode b with
  | .nan, _ => Config.nan32
  | _, .nan => Config.nan32
  | .inf _, .fin d => if d.m = 0 then Config.nan32 else sgn 0x7F800000
  | .fin d, .inf _ => if d.m = 0 then Config.nan32 else sgn 0x7F800000
  | .inf _, .inf _ => sgn 0x7F800000
  | .fin x, .fin y =>
    let (r, q) := roundTo 24 (-149) (x.mul y)
    BitVec.ofNat 32 (packFp 8 23 0x7F800000 neg r q)

/-- IEEE sum rounded to FP32, to nearest-even. -/
def fadd32 (a b : Word) : Word :=
  match fp32Decode a, fp32Decode b with
  | .nan, _ => Config.nan32
  | _, .nan => Config.nan32
  | .inf x, .inf y => if x = y then a else Config.nan32
  | .inf _, .fin _ => a
  | .fin _, .inf _ => b
  | .fin x, .fin y => if x.m = 0 ∧ y.m = 0 ∧ a = 0x80000000#32 ∧ b = 0x80000000#32 then a else toFp32 (x.add y)

/-- The FP32 with its sign changed. -/
def fneg32 (a : Word) : Word := a ^^^ 0x80000000#32

/-- `a < b` of two FP32 that are no NaN. -/
def flt32 (a b : Word) : Bool :=
  match fp32Decode a, fp32Decode b with
  | .inf x, .inf y => x && !y
  | .inf x, .fin _ => x
  | .fin _, .inf y => !y
  | .fin x, .fin y => x.lt y
  | _, _ => false

/-- exp(−y) for y ≥ 0 given as a numerator over 2^256, over 2^256: the Taylor series at y ÷ 256, squared eight times. -/
def expFixed (y : Nat) : Nat :=
  let one := 2 ^ 256
  let z := y / 256
  let go := (List.range 40).foldl (fun (acc : Int × Nat × Nat) k =>
    let (sum, term, sgn) := acc
    let t := term * z / one / (k + 1)
    (if sgn = 0 then sum - t else sum + t, t, 1 - sgn)) ((one : Int), one, 0)
  (List.range 8).foldl (fun a _ => a * a / one) go.1.toNat

/-- exp of an FP32 argument that is at most 0 (R288 step 6): below −87 it is +0; otherwise the exact value rounded to FP32 and
moved by a free number of units in the last place, −2 to 2. That of a NaN, which an overflowed score gives, is a NaN (DESIGN CHOICE, log 96). -/
def exp32 (x : Word) : Word :=
  let d := fp32Val x
  if fp32Nan x then Config.nan32
  else if x = 0x7F800000#32 then x
  else if !fp32Finite x ∨ d.lt ⟨-87, 0⟩ then 0#32
  else
    let y := if 0 ≤ d.e + 256 then d.m.natAbs * 2 ^ (d.e + 256).toNat else d.m.natAbs / 2 ^ (-(d.e + 256)).toNat
    let r := (toFp32 ⟨expFixed y, -256⟩).toNat
    BitVec.ofNat 32 (r + Config.expUlp x % 5 - 2)

/-- The sum of products by the rule of R266: runs of 32 summed exactly, accumulated in FP32 in ascending run order. -/
def sumRuns : Nat → Option Word → List Dy → Word
  | 0, acc, _ => acc.getD 0#32
  | fuel + 1, acc, ps =>
    match ps with
    | [] => acc.getD 0#32
    | _ =>
      let run := (ps.take 32).foldl Dy.add Dy.zero
      let a := match acc with
        | none => toFp32 run
        | some w => if fp32Finite w then toFp32 ((fp32Val w).add run) else w
      sumRuns fuel (some a) (ps.drop 32)

/-- R266 over a list of exact products. -/
def r266 (ps : List Dy) : Word := sumRuns (ps.length + 1) none ps

end Sys2Proof.Machine
end

