-- ==== Sys2Proof/Machine/Quant.lean ====
section
/-! DEFINITION. Stored formats and their arithmetic (Tables 8-2 and 8-3, R166 to R176, R187), and the page's payload layout
(R170, R262, R306). -/

namespace Sys2Proof.Machine

/-- A format with its parameters: code of Table 8-2, bits per value, scale bytes per group, group size. -/
structure Fmt where
  code  : Nat
  vbits : Nat
  sbytes : Nat
  group : Nat
  deriving DecidableEq, Repr

/-- The built-in formats (Table 8-2). -/
def fmtOf (code groupLog2 : Nat) : Fmt :=
  if code = 1 then ⟨1, 4, 1, 32⟩
  else if code = 2 ∨ code = 3 then ⟨code, 8, 1, 32⟩
  else if code = 4 then ⟨4, 4, 2, 2 ^ groupLog2⟩
  else if code = 5 then ⟨5, 8, 2, 2 ^ groupLog2⟩
  else ⟨6, 16, 0, 32⟩

/-- A class as its registers define it (Table 8-8). -/
structure ClassDef where
  cls      : Nat
  heads    : Nat
  headDim  : Nat
  btLog    : Nat
  format   : Nat
  fallback : Nat
  groupLog2 : Nat
  rule     : Nat
  nfStop   : Bool
  latent   : Bool
  rank     : Nat
  set      : Nat
  deriving DecidableEq, Repr

/-- Class `c` (Table 8-8). -/
def State.classDef (s : State) (c : Nat) : ClassDef :=
  { cls := c, heads := s.get CMPR.CLASS_GEOMETRY.KV_HEADS c, headDim := 32 * s.get CMPR.CLASS_GEOMETRY.HEAD_DIM_DIV32 c,
    btLog := s.get CMPR.CLASS_GEOMETRY.BLOCK_TOKENS_LOG2 c, format := s.get CMPR.CLASS_FORMAT.FORMAT c,
    fallback := s.get CMPR.CLASS_FORMAT.FALLBACK c, groupLog2 := s.get CMPR.CLASS_FORMAT.GROUP_LOG2 c,
    rule := s.get CMPR.CLASS_FORMAT.SCALE_RULE c, nfStop := s.flag CMPR.CLASS_FORMAT.NONFINITE_STOP c,
    latent := s.flag CMPR.CLASS_FORMAT.LATENT c, rank := s.get CMPR.CLASS_LATENT.RANK c,
    set := s.get CMPR.CLASS_LATENT.CONST_SET c }

/-- Tokens per block. -/
def ClassDef.bt (c : ClassDef) : Nat := 2 ^ c.btLog

/-- Elements of an input row (R166). -/
def ClassDef.width (c : ClassDef) : Nat := 2 * c.heads * c.headDim

/-- Elements of a stored row (R170, R262). -/
def ClassDef.rowElems (c : ClassDef) : Nat := if c.latent then c.rank else c.headDim

/-- Stored rows per token: two planes of heads, or one latent row. -/
def ClassDef.rowsPerTok (c : ClassDef) : Nat := if c.latent then 1 else 2 * c.heads

/-- Bytes of a row's values in a format. -/
def Fmt.rowBytes (f : Fmt) (elems : Nat) : Nat := elems * f.vbits / 8

/-- Bytes of a row's scales in a format. -/
def Fmt.rowScales (f : Fmt) (elems : Nat) : Nat := if f.sbytes = 0 then 0 else elems / f.group * f.sbytes

/-- Payload bytes of one page (R167, R261). -/
def ClassDef.payload (c : ClassDef) (f : Fmt) : Nat :=
  c.rowsPerTok * c.bt * (f.rowBytes c.rowElems + f.rowScales c.rowElems)

/-- Engine units of a latent APPEND chunk (R176); 0 for other classes. -/
def ClassDef.engineDraw (c : ClassDef) : Nat :=
  if c.latent then (c.bt * c.width * c.rank + 1874943) / 1874944 else 0

/-! ### Quantising a group -/

/-- Parameters of an MX element: exponent bits, mantissa bits, bias, emax, largest code. -/
def mxElem (code : Nat) : Nat × Nat × Nat × Nat × Nat :=
  if code = 1 then (2, 1, 1, 2, 7) else if code = 2 then (4, 3, 7, 8, 0x7E) else (5, 2, 15, 15, 0x7B)

/-- A number rounded to an MX element, ties to the even mantissa, saturating; a zero has sign bit 0 (R171). -/
def mxEncode (code : Nat) (a : Dy) : Nat :=
  let (eb, mb, bias, _, top) := mxElem code
  let (r, q) := roundTo (mb + 1) (1 - (bias : Int) - mb) a
  let c := if r < 2 ^ mb then r else (q + mb + bias).toNat * 2 ^ mb + (r - 2 ^ mb)
  let c := min c top
  if c = 0 then 0 else if a.m < 0 then c + 2 ^ (eb + mb) else c

/-- The largest magnitude of a list. -/
def amax (vs : List Dy) : Dy := vs.foldl (fun a v => if a.lt v.abs then v.abs else a) Dy.zero

/-- a ÷ b rounded to FP32, to nearest-even; b is not zero. -/
def divFp32 (a b : Dy) : Word :=
  let n := a.m.natAbs * 2 ^ (b.m.natAbs.log2 + 64)
  let k := n / b.m.natAbs
  let sticky := if n % b.m.natAbs = 0 then 0 else 1
  let m : Int := 2 * k + sticky
  let d : Dy := ⟨if (a.m < 0) = (b.m < 0) then m else -m, a.e - b.e - (b.m.natAbs.log2 + 64) - 1⟩
  toFp32 d

/-- The MX scale exponent (R171). -/
def mxScale (code rule : Nat) (am : Dy) : Int :=
  let (eb, mb, bias, emax, top) := mxElem code
  let x :=
    if rule = 0 then am.log2 - emax
    else
      let l := miniDecode eb mb bias top
      let k := am.log2 - l.log2
      let le (x : Int) : Bool := !(Dy.lt ⟨l.m, l.e + x⟩ am)
      if le (k - 1) then k - 1 else if le k then k else k + 1
  max (-127) (min 127 x)

/-- One group quantised: element codes, then the scale's value (R171, R172). Infinities are given by their sign. -/
def quantGroup (f : Fmt) (rule : Nat) (vs : List Fp) : List Nat × Nat :=
  let fin := vs.filterMap fun v => match v with
    | .fin d => some d
    | _ => none
  let am := amax fin
  if f.code = 6 then
    (vs.map fun v => match v with
      | .nan => 0
      | .inf neg => if neg then 0xFF7F else 0x7F7F
      | .fin d => toBf16 d, 0)
  else if f.code = 4 ∨ f.code = 5 then
    let qmax : Nat := if f.code = 4 then 7 else 127
    let tc (neg : Bool) (n : Nat) : Nat := if neg ∧ n ≠ 0 then 2 ^ f.vbits - n else n
    let sc := if am.m = 0 then 0 else toBf16 (fp32Val (divFp32 am ⟨qmax, 0⟩))
    let sv : Dy := match bf16Decode sc with
      | .fin d => d
      | _ => Dy.zero
    (vs.map fun v => match v with
      | .nan => 0
      | .inf neg => tc neg qmax
      | .fin d =>
        if d.m = 0 ∨ am.m = 0 then 0
        else if sv.m = 0 then tc (d.m < 0) qmax
        else tc (d.m < 0) (min qmax ((fp32Val (divFp32 d sv)).rint 0)), sc)
  else
    let (eb, mb, _, _, top) := mxElem f.code
    let x := if am.m = 0 then 0 else mxScale f.code rule am
    (vs.map fun v => match v with
      | .nan => 0
      | .inf neg => if neg then top + 2 ^ (eb + mb) else top
      | .fin d => if am.m = 0 then 0 else mxEncode f.code ⟨d.m, d.e - x⟩, if am.m = 0 then 0 else (x + 127).toNat)

/-- How many elements a group's quantising replaces (R172). -/
def nonfinites (vs : List Fp) : Nat := (vs.filter fun v => match v with
  | .fin _ => false
  | _ => true).length

/-- Codes packed into bytes, `vbits` each, lowest first (R170, R306). -/
def packCodes (vbits : Nat) (cs : List Nat) : List Byte :=
  leBytes ((cs.length * vbits + 7) / 8) (cs.foldr (fun c a => c % 2 ^ vbits + a * 2 ^ vbits) 0)

/-- A whole row quantised: its value bytes and its scale bytes (R170). -/
def quantRow (f : Fmt) (rule : Nat) (row : List Fp) : List Byte × List Byte :=
  let gs := (pieces f.group (row.length / f.group) row).map (quantGroup f rule)
  (packCodes f.vbits (gs.map (·.1)).flatten, (gs.map fun g => leBytes f.sbytes g.2).flatten)

/-- RAW_BF16 copies BF16 input bit for bit, non-finite values aside (R171). -/
def rawRow (raw : List Nat) (vs : List Fp) : List Byte :=
  ((raw.zip vs).map fun (b, v) => match v with
    | .nan => leBytes 2 0
    | .inf neg => leBytes 2 (if neg then 0xFF7F else 0x7F7F)
    | .fin _ => leBytes 2 b).flatten

/-! ### Decoding stored rows -/

/-- Element `i` of a stored row with its scale applied (Table 8-3). -/
def elemValue (f : Fmt) (vals scales : List Byte) (i : Nat) : Dy :=
  let c := bits (leNat ((vals.drop (i * f.vbits / 8)).take 2)) (i * f.vbits % 8) f.vbits
  let sc := leAt scales (i / f.group * f.sbytes) f.sbytes
  if f.code = 6 then (match bf16Decode c with
    | .fin d => d
    | _ => Dy.zero)
  else if f.code = 4 ∨ f.code = 5 then
    let v : Int := if c < 2 ^ (f.vbits - 1) then c else (c : Int) - 2 ^ f.vbits
    (match bf16Decode sc with
      | .fin d => ⟨v * d.m, d.e⟩
      | _ => Dy.zero)
  else
    let (eb, mb, bias, _, _) := mxElem f.code
    let d := miniDecode eb mb bias c
    ⟨d.m, d.e + sc - 127⟩

/-- A row decoded exactly. -/
def decodeRow (f : Fmt) (elems : Nat) (vals scales : List Byte) : List Dy :=
  (List.range elems).map (elemValue f vals scales)

/-! ### The payload of a page (R170, R173, R262) -/

/-- Row `r` of token position `t` in a payload: its value bytes and its scale bytes. -/
def payloadRow (f : Fmt) (elems rows bt : Nat) (body : List Byte) (r t : Nat) : List Byte × List Byte :=
  let vb := f.rowBytes elems
  let sb := f.rowScales elems
  ((body.drop ((r * bt + t) * vb)).take vb, (body.drop (rows * bt * vb + (r * bt + t) * sb)).take sb)

/-- A payload with the rows of positions `t0` to `t0 + new.length − 1` written; positions not yet written are zero. `new` lists,
per position, the rows in order, each as value and scale bytes. -/
def buildPayload (f : Fmt) (elems rows bt : Nat) (old : List Byte) (t0 : Nat) (new : List (List (List Byte × List Byte))) :
    List Byte :=
  let vb := f.rowBytes elems
  let sb := f.rowScales elems
  let row (r t : Nat) : List Byte × List Byte :=
    if t0 ≤ t ∧ t < t0 + new.length then ((new.getD (t - t0) []).getD r ([], []))
    else if t < t0 then payloadRow f elems rows bt old r t
    else ([], [])
  let ix := (List.range rows).flatMap fun r => (List.range bt).map fun t => row r t
  (ix.flatMap fun x => padTo vb x.1) ++ (ix.flatMap fun x => padTo sb x.2)

/-! ### The latent projection (R175, R266) -/

/-- Values and scales of a matrix held as MXFP8_E4M3 (R263): row `r` of `n` elements at byte `off`, `rows` rows. -/
def matRow (image : List Byte) (off rows n r : Nat) : List Dy :=
  decodeRow ⟨2, 8, 1, 32⟩ n ((image.drop (off + r * n)).take n) ((image.drop (off + rows * n + r * (n / 32))).take (n / 32))

/-- Bytes of one layer of a constant set (R263). -/
def constLayerBytes (r n : Nat) : Nat := 2 * (r * n + r * n / 32)

/-- One input row projected to the latent: quantised to MXFP8_E4M3, then D times it (R175). -/
def projectRow (image : List Byte) (layer r n rule : Nat) (row : List Fp) : List Word :=
  let (v, sc) := quantRow ⟨2, 8, 1, 32⟩ rule row
  let x := decodeRow ⟨2, 8, 1, 32⟩ n v sc
  let off := layer * constLayerBytes r n
  (List.range r).map fun k => r266 (List.zipWith Dy.mul (matRow image off r n k) x)

/-- A latent row multiplied out at element `n0` by U, rounded to BF16 (R266, R267). -/
def multiplyOut (image : List Byte) (layer r n : Nat) (z : List Dy) (n0 : Nat) : Dy :=
  let off := layer * constLayerBytes r n + r * n + r * n / 32
  bf16Round (r266 (List.zipWith Dy.mul (matRow image off n r n0) z))

end Sys2Proof.Machine
end

