-- ==== Sys2Proof/Machine/Work.lean ====
section
/-! DEFINITION. Sequences, leaves and pages, DRAM frames, the translation area, budgets, and the course of an outstanding
descriptor up to the latch of its completion (R137 to R160, R17, R18, R48, R125 to R132). -/

namespace Sys2Proof.Machine

/-! ### Sequences -/

def sidIdx (sid : Nat) : Nat := sid % 2 ^ 24
def sidGen (sid : Nat) : Nat := sid / 2 ^ 24 % 256

/-- The SID of a sequence (R137). -/
def Seq.sid (q : Seq) : Nat := q.idx + q.gen * 2 ^ 24

/-- The current generation of an index (R138). -/
def State.genOf (s : State) (idx : Nat) : Nat := (kvFind s.sq.gens idx).getD 1

/-- The sequence of an index. -/
def State.seqIdx (s : State) (idx : Nat) : Option Seq := s.sq.seqs.find? (·.idx = idx)

/-- The sequence a tenant's SID names, OPEN or CLOSING (R139, R102). -/
def State.seqBySid (s : State) (tid sid : Nat) : Option Seq :=
  (s.seqIdx (sidIdx sid)).filter fun q => q.gen = sidGen sid ∧ q.tid = tid

/-- The OPEN sequence a tenant's SID names (Table 7-1). -/
def State.openSeq (s : State) (tid sid : Nat) : Option Seq := (s.seqBySid tid sid).filter fun q => !q.closing

def State.setSq (s : State) (f : SeqSt → SeqSt) : State := { s with sq := f s.sq }

/-- The sequence of the same index replaced. -/
def State.setSeq (s : State) (q : Seq) : State :=
  s.setSq fun x => { x with seqs := x.seqs.map fun y => if y.idx = q.idx then q else y }

/-- BLOCK_TOKENS of a sequence. -/
def Seq.bt (q : Seq) : Nat := 2 ^ q.btLog

/-- END (R143). -/
def Seq.fin (q : Seq) : Nat := cdiv q.len q.bt

/-- TAIL (R143). -/
def Seq.tail (q : Seq) : Nat := if q.ring then q.fin - q.slots else 0

/-- Page index of block `b`, layer `l` (R141). -/
def Seq.page (q : Seq) (b l : Nat) : Nat := (if q.ring then b % q.slots else b) * q.layers + l

/-- Pages of a window. -/
def Seq.pages (q : Seq) : Nat := q.slots * q.layers

/-- The smallest power of two not below a number (R141). -/
def pow2Up (n : Nat) : Nat := if n ≤ 1 then 1 else 2 ^ (Nat.log2 (n - 1) + 1)

/-! ### Leaves and pages -/

def State.leafAt (s : State) (sq p : Nat) : Option Leaf := s.sq.leaves.find? fun l => l.sq = sq ∧ l.p = p

def State.pageBy (s : State) (pid : Nat) : Option Page := s.sq.pages.find? (·.pid = pid)

def State.pageAt (s : State) (sq p : Nat) : Option Page := (s.leafAt sq p).bind fun l => s.pageBy l.pid

/-- References of a page: the leaves that name it (R17). -/
def State.refsOf (s : State) (pid : Nat) : Nat := (s.sq.leaves.filter (·.pid = pid)).length

/-- A pin is in force on the page (R208). -/
def State.pinsOf (s : State) (pid : Nat) : Nat := (s.sq.leaves.filter fun l => l.pid = pid ∧ l.pinned).length

/-- Frames a partition has pinned (R208). -/
def State.pinned (s : State) (p : Nat) : Nat := (s.sq.pages.filter fun g => s.pinsOf g.pid ≠ 0 ∧ s.partOf g.tid = p).length

/-- A class is defined (R167). -/
def State.classDefined (s : State) (c : Nat) : Bool := s.flag CMPR.CLASS_STATUS.DEFINED c

/-- Defined latent classes that name a constant set (R264). -/
def State.constUsers (s : State) (set : Nat) : Nat :=
  ((List.range 64).filter fun c => s.classDefined c ∧ s.flag CMPR.CLASS_FORMAT.LATENT c ∧
    s.get CMPR.CLASS_LATENT.CONST_SET c = set).length

/-- A page in DRAM: DIRTY, WRITING or CLEAN (R198). -/
def Page.inDram (g : Page) : Bool := g.st = 1 ∨ g.st = 2 ∨ g.st = 3

/-- TIER of a page's leaf or share record (Tables 7-7, 9-1). -/
def Page.tier (g : Page) : Nat := if g.st = 0 then 0 else if g.inDram then 1 else if g.st = 6 then 4 else 2

/-- FRAME of a page's leaf or share record (R155). -/
def Page.place (g : Page) : Nat := if g.tier = 1 then g.frame.getD 0 else if g.tier = 2 then g.flash.getD 0 else 0

/-- A change of a page that its leaves show: those of a shared page show only that it is shared (R155, R156). -/
def Page.moved (a b : Page) : Bool :=
  a.shared != b.shared || (!a.shared && (a.tier != b.tier || a.place != b.place || a.gen != b.gen || a.hdr != b.hdr))

/-- The leaves of a page are cached no more (R157). -/
def SeqSt.uncached (x : SeqSt) (pid : Nat) : SeqSt :=
  let key (l : Leaf) : Option (Nat × Nat) := (x.seqs.find? (·.idx = l.sq)).map fun q => (q.tid, q.base + l.p)
  let gone := (x.leaves.filter (·.pid = pid)).filterMap key
  { x with walk := x.walk.filter fun k => ¬ gone.contains k }

/-- A page changed: every change of a leaf removes its cached copies (R157). -/
def State.updPage (s : State) (pid : Nat) (f : Page → Page) : State :=
  s.setSq fun x =>
    let y : SeqSt := { x with pages := x.pages.map fun g => if g.pid = pid then f g else g }
    if x.pages.any fun g => g.pid == pid && g.moved (f g) then y.uncached pid else y

/-- The tenant of a page's function: the page without references and transient references leaves the card (R190, R18). -/
def State.gcPage (s : State) (pid : Nat) : State :=
  match s.pageBy pid with
  | none => s
  | some g =>
    if s.refsOf pid = 0 ∧ g.trans = 0 ∧ ¬ s.wk.staged.any (·.2.2 = pid) then
      let t := s.setSq fun x => { x with pages := x.pages.filter (·.pid ≠ pid), xitems := x.xitems.filter fun i => ¬ (i.level = 4 ∧ i.key = pid) }
      { t with tier := { t.tier with placed := t.tier.placed.filter (·.pid ≠ pid), demote := t.tier.demote.filter (· ≠ pid) } }
    else s

/-- A transient reference taken (R18). -/
def State.hold (s : State) (pid : Nat) : State := s.updPage pid fun g => { g with trans := g.trans + 1 }

/-- A page leaves DRAM (Table 9-2): its frame is released. -/
def State.dropPage (s : State) (pid : Nat) : State := s.updPage pid fun g => { g with st := 4, frame := none, started := 0, done := 0 }

/-- A demoted page whose program has completed leaves DRAM once no transient reference remains; one that is shared or pinned by then
stays (R17, R18, Table 9-2). -/
def State.endDemotion (s : State) (pid : Nat) : State :=
  match s.pageBy pid with
  | none => s
  | some g =>
    if g.st ≠ 3 ∨ g.trans ≠ 0 ∨ ¬ s.tier.demote.contains pid then s
    else
      let t : State := { s with tier := { s.tier with demote := s.tier.demote.filter (· ≠ pid) } }
      if s.refsOf pid ≤ 1 ∧ s.pinsOf pid = 0 then t.dropPage pid else t

/-- A transient reference given back. -/
def State.unhold (s : State) (pid : Nat) : State :=
  ((s.updPage pid fun g => { g with trans := g.trans - 1 }).gcPage pid).endDemotion pid

/-! ### The translation area (R153, R163) -/

/-- Sixteen-byte slots of a 2 MiB table chunk. -/
def chunkSlots : Nat := 131072

/-- Slots of an item: a table takes 4 KiB, a share record 16 bytes. -/
def XItem.slots (x : XItem) : Nat := if x.level = 4 then 1 else 256

def State.chunkUsed (s : State) (c : Nat) : Nat := ((s.sq.xitems.filter (·.chunk = c)).map XItem.slots).foldl (· + ·) 0

/-- The table chunks in use, card-wide. -/
def State.chunksInUse (s : State) : List Nat := (s.sq.xitems.map (·.chunk)).eraseDups

/-- The table chunks a tenant holds. -/
def State.chunksOf (s : State) (tid : Nat) : List Nat := ((s.sq.xitems.filter (·.tid = tid)).map (·.chunk)).eraseDups

/-- Chunks set aside for a running rebuild's copy. -/
def State.rebuildHold (s : State) : Nat := (s.sq.rebuild.map (·.hold)).getD 0

/-- Free table chunks. -/
def State.chunksFree (s : State) : Nat := 512 * s.get XLAT.AREA_CTRL.GIB - s.chunksInUse.length - s.rebuildHold

/-- One item placed in a chunk of the tenant with room, or in a free chunk (DESIGN CHOICE, log 20: the lowest). -/
def State.addItem (s : State) (tid level key : Nat) : Option State :=
  if s.sq.xitems.any fun i => i.tid = tid ∧ i.level = level ∧ i.key = key then some s
  else
    let need := if level = 4 then 1 else 256
    let put (c : Nat) : State := s.setSq fun x => { x with xitems := x.xitems ++ [⟨tid, level, key, c⟩] }
    match (s.chunksOf tid).find? fun c => s.chunkUsed c + need ≤ chunkSlots with
    | some c => some (put c)
    | none =>
      if s.chunksFree = 0 then none
      else
        let used := s.chunksInUse
        (((List.range (used.length + 1)).find? fun c => ¬ used.contains c).map put)

/-- The tables on the path to a page of the tenant's DVA space (Table 7-5). -/
def State.addTables (s : State) (tid dva : Nat) : Option State :=
  (s.addItem tid 3 0).bind fun s => (s.addItem tid 2 (dva / 2 ^ 27)).bind fun s =>
    (s.addItem tid 1 (dva / 2 ^ 18)).bind fun s => s.addItem tid 0 (dva / 2 ^ 9)

/-- DVA pages of a tenant that hold a leaf, or a staged page (R345). -/
def State.dvaPages (s : State) (tid : Nat) : List Nat :=
  (s.sq.leaves.filterMap fun l => ((s.seqIdx l.sq).filter (·.tid = tid)).map (·.base + l.p)) ++
  (s.chain.staged.filterMap fun g => ((s.seqIdx g.sq).filter (·.tid = tid)).map (·.base + g.p))

/-- The directory cache keeps only entries that still point to a table (R157). -/
def SeqSt.trimDirs (x : SeqSt) : SeqSt :=
  { x with dirs := x.dirs.filter fun k => x.xitems.any fun i => i.tid = k.1 ∧ i.level = k.2.1 ∧ i.key = k.2.2 }

/-- Tables below the root that no longer hold a present entry leave the area. -/
def State.trimTables (s : State) (tid : Nat) : State :=
  let ds := s.dvaPages tid
  s.setSq fun x => ({ x with xitems := x.xitems.filter fun i =>
    i.tid ≠ tid ∨ i.level = 4 ∨ i.level = 3 ∨
      (i.level = 2 ∧ ds.any (fun d => d / 2 ^ 27 = i.key)) ∨ (i.level = 1 ∧ ds.any (fun d => d / 2 ^ 18 = i.key)) ∨
      (i.level = 0 ∧ ds.any (fun d => d / 2 ^ 9 = i.key)) } : SeqSt).trimDirs

/-- The cached copies of a leaf removed (R157). -/
def State.unwalk (s : State) (tid dva : Nat) : State :=
  s.setSq fun x => { x with walk := x.walk.filter (· ≠ (tid, dva)) }

/-- An upper entry taken into the directory cache, if it is present and not there: an L3, L2 or L1 entry by the table it points to. -/
def State.cacheDir (s : State) (k : Nat × Nat × Nat) : State :=
  if s.sq.dirs.contains k || !(s.sq.xitems.any fun i => i.tid = k.1 ∧ i.level = k.2.1 ∧ i.key = k.2.2) then s
  else if s.sq.dirs.length < 8192 then s.setSq fun x => { x with dirs := k :: x.dirs }
  else (s.setSq fun x => { x with dirs := k :: x.dirs.eraseIdx (Config.dirVictim s.free % 8192) }).nextFree

/-- The upper entries that a walk meets (Table 7-5, R157). -/
def State.walkDirs (s : State) (tid dva : Nat) : State :=
  ((s.cacheDir (tid, 2, dva / 2 ^ 27)).cacheDir (tid, 1, dva / 2 ^ 18)).cacheDir (tid, 0, dva / 2 ^ 9)

/-- One walk: a hit of the walk cache, or a miss that fills it (R157). -/
def State.walkTo (s : State) (tid dva : Nat) : State :=
  if s.sq.walk.contains (tid, dva) then s.add64 XLAT.WALK_HITS_LO.off
  else
    let keep := if s.sq.walk.length < 65536 then s.sq.walk else s.sq.walk.eraseIdx (Config.walkVictim s.free % 65536)
    let s1 := if s.sq.walk.length < 65536 then s else s.nextFree
    ((s1.setSq fun x => { x with walk := (tid, dva) :: keep }).walkDirs tid dva).add64 XLAT.WALK_MISSES_LO.off

/-- A leaf removed: the page loses the reference and the pin (R147, R190). -/
def State.dropLeaf (s : State) (sq p : Nat) : State :=
  match s.leafAt sq p, s.seqIdx sq with
  | some l, some q =>
    ((((s.setSq fun x => { x with leaves := x.leaves.filter fun y => ¬ (y.sq = sq ∧ y.p = p) }).unwalk q.tid (q.base + p)).gcPage
      l.pid).trimTables q.tid)
  | _, _ => s

/-- A leaf set to a page; the tables of its path exist. -/
def State.setLeaf (s : State) (q : Seq) (p pid : Nat) (pinned : Bool := false) : State :=
  ((s.setSq fun x => { x with leaves := x.leaves.filter (fun y => ¬ (y.sq = q.idx ∧ y.p = p)) ++ [⟨q.idx, p, pid, pinned⟩] }).unwalk
    q.tid (q.base + p))

/-- A page resolved for a chunk (R157, R156): the walk counts, and a share record with one reference left returns to the direct
form. -/
def State.resolve (s : State) (q : Seq) (p : Nat) : State :=
  let s1 := s.walkTo q.tid (q.base + p)
  match s1.pageAt q.idx p with
  | none => s1
  | some g =>
    if g.shared ∧ s1.refsOf g.pid = 1 then
      (s1.updPage g.pid fun g => { g with shared := false }).setSq fun x =>
        { x with xitems := x.xitems.filter fun i => ¬ (i.level = 4 ∧ i.key = g.pid) }
    else s1

/-! ### DRAM frames (R205, R206) -/

/-- Frames in use: pages in DRAM or being paged in, frames running chunks fill, and staged Derailleur pages. -/
def State.framesUsed (s : State) : Nat :=
  (s.sq.pages.filter (·.frame.isSome)).length + (s.wk.works.flatMap fun w => w.run.filter (·.frame.isSome)).length + s.chain.staged.length

/-- TIER.FRAMES_FREE. -/
def State.framesFree (s : State) : Nat := s.get TIER.FRAMES_TOTAL.FRAMES - s.framesUsed

/-- Frames of the KV space: 384 GiB less the pool's carve-out and two copies of the translation area, the sequence table, the constant
area and the search shadows (R205; log 55). -/
def State.frameTotal (s : State) : Nat :=
  6291456 - s.get POOL.CARVE_DRAM.GIB * 16384 -
    2 * (s.get XLAT.AREA_CTRL.GIB * 16384 + 16384 + s.get CMPR.CONST_AREA.MIB * 16 + 1152 * 16)

/-- The stack of a frame. -/
def stackOf (f : Nat) : Nat := Config.frameStack f % 8

/-- The frame lies on a stack that has failed (R472). -/
def State.frameLost (s : State) (f : Nat) : Bool :=
  s.get ERR.STACK_STATUS.FAILED != 0 && bits (s.get ERR.STACK_STATUS.FAILED) (stackOf f) 1 == 1

/-- Frames that pages, running chunks and staged pages hold. -/
def State.heldFrames (s : State) : List Nat :=
  s.sq.pages.filterMap (·.frame) ++ (s.wk.works.flatMap fun w => w.run.filterMap (·.frame)) ++ s.chain.staged.map (·.frame)

/-- The first frame at or after `f`, wrapping at `total`, that is free. -/
def probeFrame (busy : Nat → Bool) (total : Nat) : Nat → Nat → Nat
  | 0, f => f
  | n + 1, f => if busy f then probeFrame busy total n ((f + 1) % total) else f

/-- A frame taken for a page: which one is free (R155). -/
def State.newFrame (s : State) : Nat :=
  let total := max 1 s.frameTotal
  let used := s.heldFrames
  probeFrame (fun f => used.contains f || s.frameLost f) total total (Config.frameChoice s.free % total)

/-- A new page in DRAM, DIRTY, with the priority pages take on entering DRAM (R203). -/
def State.newPage (s : State) (tid : Nat) (hdr body : List Byte) : State × Nat :=
  let pid := s.sq.nextPid
  let g : Page :=
    { pid := pid, tid := tid, st := 1, hdr := hdr, body := body, flash := none, frame := some s.newFrame,
      prio := s.get TIER.SCORE_CTRL.DEFAULT_PRIORITY, last := s.stroke, hint := 0, score := none,
      eval := s.get TIER.SCORE_CTRL.DEFAULT_PRIORITY * 4096 + 4095, trans := 0, shared := false,
      started := 0, done := 0, readAt := 0, gen := hdrGEN hdr % 256, bad := 0 }
  ((s.setSq fun x => { x with pages := x.pages ++ [g], nextPid := pid + 1 }).nextFree, pid)

/-! ### Budgets (R35, R48) -/

def Res6.map2 (f : Nat → Nat → Nat) (a b : Res6) : Res6 :=
  ⟨f a.dram b.dram, f a.flash b.flash, f a.engine b.engine, f a.search b.search, f a.spoke b.spoke, f a.pool b.pool⟩

def Res6.le (a b : Res6) : Bool :=
  a.dram ≤ b.dram && a.flash ≤ b.flash && a.engine ≤ b.engine && a.search ≤ b.search && a.spoke ≤ b.spoke && a.pool ≤ b.pool

def State.balance (s : State) (p : Nat) : Option Balance := s.bnd.bal.find? (·.part = p)

/-- What a partition's balance lets a chunk draw now: fresh budget, and carry as far as the capacity left for it, within the card's
capacity where a loss has reduced it (R44, R48, R472). -/
def State.available (s : State) (p : Nat) : Res6 :=
  match s.balance p with
  | none => Res6.zero
  | some b => (b.fresh.map2 Nat.add (b.carry.map2 min s.bnd.carryCap)).map2 min s.bnd.capLeft

/-- A draw: carry first, then fresh budget (R48); the unscaled search balance is drawn alike (R254). -/
def State.draw (s : State) (p : Nat) (need : Res6) : State :=
  match s.balance p with
  | none => s
  | some b =>
    let c := need.map2 min (b.carry.map2 min s.bnd.carryCap)
    let fr : Res6 := b.fresh.map2 Nat.sub (need.map2 Nat.sub c)
    let b1 : Balance := { b with carry := b.carry.map2 Nat.sub c, fresh := fr }
    let b2 : Balance := { b1 with unbraked := b.unbraked - need.search, poolDrawn := b.poolDrawn + need.pool }
    { s with bnd := { s.bnd with bal := s.bnd.bal.map (fun x => if x.part = p then b2 else x),
                                 carryCap := s.bnd.carryCap.map2 Nat.sub c, capLeft := s.bnd.capLeft.map2 Nat.sub need } }

/-! ### Outstanding descriptors -/

def State.work (s : State) (id : Nat) : Option Work := s.wk.works.find? (·.id = id)

def State.updWork (s : State) (id : Nat) (f : Work → Work) : State :=
  { s with wk := { s.wk with works := s.wk.works.map fun w => if w.id = id then f w else w } }

/-- The target bytes of the `j`-th page of a READ_PAGES where they are undefined: free values (R130, R219). -/
def State.undefTarget (s : State) (d : Desc) (j : Nat) : State :=
  (s.memWrite (d.b 56 8 + j * d.b 52 4) ((List.range 65536).map (Config.undefByte s.free))).nextFree

/-- The target bytes of a READ_PAGES beyond its extent, undefined after ABORTED_FAULT, MEDIA_ERROR and POISONED (R130). -/
def State.undefTargets (s : State) (d : Desc) (extent : Nat) : State :=
  ((List.range (d.nb * d.nl)).drop extent).foldl (fun s j => s.undefTarget d j) s

/-- A completion latched (R125, R129, R130): status, DETAIL and extent stand, the stream is given back, LATE is counted. -/
def State.latch (s : State) (id status detail extent : Nat) : State :=
  match s.work id with
  | none => s
  | some w =>
    if w.phase = 2 then s
    else
      let bare := status = stIGNORED ∨ status = stDENIED ∨ status = stNOTFOUND
      let late := !(decide bare) && w.late s.stroke
      let fl := if bare then 0 else (w.flags ||| (if late then flLATE else 0))
      let res := if status = stMEDIA ∨ status = stPOISON then w.losses.map fun x => leBytes 4 x.1 ++ leBytes 1 x.2 ++ zeros 3
                 else w.results
      let s1 := s.updWork id fun w =>
        { w with phase := 2, status := status, detail := detail, extent := extent, flags := fl, results := res, run := [],
                 stream := false, latchedAt := s.stroke }
      let s0 := { s1 with wk := { s1.wk with latched := s1.wk.latched ++ [id] } }
      let s2 := if w.d.opcode = opREAD ∧ (status = stFAULT ∨ status = stMEDIA ∨ status = stPOISON) then s0.undefTargets w.d extent else s0
      if late then
        let s3 := s2.sat PART.LATE_COUNT.COUNT 1 (s.partOf w.d.tid)
        if s3.obsOpen then s3.sat ERR.OBS_LATE.COUNT else s3
      else s2

/-- Positions ended beyond the lead are taken into it. -/
def leadUp : Nat → Nat → List Nat → Nat × List Nat
  | 0, lead, ended => (lead, ended)
  | n + 1, lead, ended => if ended.contains lead then leadUp n (lead + 1) (ended.filter (· ≠ lead)) else (lead, ended)

/-- A position of the visiting order ended. -/
def Work.endAt (w : Work) (i : Nat) : Work :=
  let (l, e) := leadUp (w.ended.length + 1) w.lead (w.ended ++ [i])
  { w with lead := l, ended := e }

/-- A work that was not stopped stops with a status and DETAIL: it starts no further chunk. -/
def Work.stopWith (w : Work) (status detail : Nat) : Work :=
  match w.stop with
  | none => { w with stop := some (status, detail) }
  | some _ => w

/-- Blocks an APPEND touches: first block, and the tokens it may append up to the window's end (R183). -/
def State.appendTokens (s : State) (w : Work) : Nat :=
  match s.seqBySid w.d.tid w.d.sid with
  | none => 0
  | some q =>
    let cap := if q.ring then 2 ^ 32 - 1 else q.slots * q.bt
    min (w.d.b 32 4) (cap - w.startLen)

/-- Positions in a descriptor's visiting order (R142, R196, R282, R342, R393). -/
def State.span (s : State) (w : Work) : Nat :=
  let d := w.d
  if d.opcode = opREAD ∨ d.opcode = opDELIVER ∨ d.opcode = opPIN ∨ d.opcode = opUNPIN ∨ d.opcode = opSCORE then d.nb * d.nl
  else if d.opcode = opAPPEND then
    (match s.seqBySid d.tid d.sid with
      | none => 0
      | some q =>
        let t := s.appendTokens w
        if t = 0 then 0 else (cdiv (w.startLen + t) q.bt - w.startLen / q.bt) * q.layers)
  else if d.opcode = opATTN then
    (match w.aux with
      | .attn a => (a.ranges.map (·.2)).foldl (· + ·) 0
      | _ => 0)
  else if d.opcode = opINSERT ∨ d.opcode = opREMOVE then d.b 40 4
  else if d.opcode = opRESHARD then d.b 40 4 * (d.b 35 1 + 1) * bits (d.b 33 1) 0 4
  else if d.opcode = opXFER then d.b 40 4 * (d.b 35 1 + 1)
  else 0

/-- Positions a descriptor goes through: an extent in pages counts no further than 0xFFFF_FFFF (R131). -/
def State.total (s : State) (w : Work) : Nat :=
  if extentUnit w.d.opcode = 1 then min (s.span w) 0xFFFFFFFF else s.span w

/-- The range reaches past what an extent can count (R131). -/
def State.overExtent (s : State) (w : Work) : Bool := extentUnit w.d.opcode = 1 && decide (0xFFFFFFFF < s.span w)

/-- Block and layer at a visiting position. -/
def State.visit (s : State) (w : Work) (i : Nat) : Nat × Nat :=
  let d := w.d
  if d.opcode = opAPPEND then
    (match s.seqBySid d.tid d.sid with
      | none => (0, 0)
      | some q => (w.startLen / q.bt + i / q.layers, i % q.layers))
  else if d.opcode = opATTN then
    (match w.aux with
      | .attn a =>
        ((a.ranges.foldl (fun (acc : Option Nat × Nat) r =>
          match acc.1 with
          | some _ => acc
          | none => if acc.2 < r.2 then (some (r.1 + acc.2), 0) else (none, acc.2 - r.2)) (none, i)).1.getD 0, d.b 32 1)
      | _ => (0, 0))
  else if d.opcode = opRESHARD then
    let n := bits (d.b 33 1) 0 4
    let nl := d.b 35 1 + 1
    let sl := i % n
    let l := i / n % nl
    let o := i / n / nl
    (d.b 36 4 + sl * d.b 40 4 + o, d.b 34 1 + l)
  else if d.opcode = opXFER then
    let nl := d.b 35 1 + 1
    (d.b 36 4 + i / nl, d.b 34 1 + i % nl)
  else if d.order = 1 then (d.fb + i % d.nb, d.fl + i / d.nb)
  else (d.fb + i / d.nl, d.fl + i % d.nl)

/-- DONE_EXTENT of a work as it stands (R130, R183, R361). -/
def State.extentOf (s : State) (w : Work) : Nat :=
  if w.d.opcode = opAPPEND then
    (match s.seqBySid w.d.tid w.d.sid with
      | none => 0
      | some q =>
        let blocks := w.lead / q.layers
        if w.lead = 0 ∨ blocks = 0 then 0
        else min (s.appendTokens w) ((w.startLen / q.bt + blocks) * q.bt - w.startLen))
  else if w.d.opcode = opINSERT ∨ w.d.opcode = opREMOVE then
    (match s.seqBySid w.d.tid w.d.sid with
      | none => 0
      | some q => w.lead * q.bt)
  else if w.d.opcode = opDELIVER then
    (match w.aux with
      | .deliver n _ covered => if n = 0 then w.lead else min w.lead covered
      | _ => w.lead)
  else if extentUnit w.d.opcode = 1 then w.lead
  else 0

/-- A running chunk leaves its work: its transient references end (R18). -/
def State.dropRun (s : State) (id : Nat) (r : Run) : State :=
  r.refs.foldl State.unhold (s.updWork id fun w => { w with run := w.run.filter (·.idx ≠ r.idx) })

/-- A page is used by a chunk: LAST for its score (R203). -/
def State.touch (s : State) (pid : Nat) : State := s.updPage pid fun g => { g with last := s.stroke }

/-- The descriptor's function: PF0 for TID 0, otherwise the tenant's VF (R114). Host addresses are flat here (log 24). -/
def Work.fn (w : Work) : Nat := w.d.tid

/-- A page's payload in plaintext (R421): decrypted with the tenant's key where it is protected. -/
def State.plainBody (s : State) (g : Page) : List Byte :=
  if hdrProt g.hdr then
    (xtsPage ((kvFind s.part.keys g.tid).getD (zeros 64)) false (hdrLAYER g.hdr) (hdrBLOCK g.hdr) (hdrGEN g.hdr)
      (hdrSTROKE g.hdr) g.body).take (hdrPAYLOAD g.hdr)
  else g.body

/-- A payload as a page holds it: encrypted under the tenant's key where the header is PROTECTED (R421). -/
def State.sealBody (s : State) (tid : Nat) (hdr body : List Byte) : List Byte :=
  if hdrProt hdr then
    xtsPage ((kvFind s.part.keys tid).getD (zeros 64)) true (hdrLAYER hdr) (hdrBLOCK hdr) (hdrGEN hdr) (hdrSTROKE hdr) body
  else body

/-- The whole 64 KiB of a page with the lossless coding removed, as READ_PAGES and DELIVER write it (R197, R275). -/
def State.pageBytes (s : State) (g : Page) : List Byte := padTo 65536 (g.hdr ++ s.plainBody g)

end Sys2Proof.Machine
end

