-- ==== Sys2Proof/Machine/Bounds.lean ====
section
/-! DEFINITION. Rings: their registers, counts and fetch bounds (R114, R115, R121, R123 to R125, R133). -/

namespace Sys2Proof.Machine

/-- BAR0 offset of a ring register: tenant, ring, offset within the ring pair (CQ rings from 0x80). -/
def fnOff (tid q rel : Nat) : Nat := 0x40000 + tid * 0x100 + 0x10 * q + rel

/-- A ring register's field. -/
def State.fn (s : State) (tid q : Nat) (f : Fld) : Nat := fieldGet (s.reg (fnOff tid q f.off)) f.lo f.w

/-- Base address of a ring: SQ with rel 0, CQ with rel 0x80. -/
def State.ringBase (s : State) (tid q rel : Nat) : Nat :=
  (s.reg (fnOff tid q rel)).toNat / 4096 * 4096 + (s.reg (fnOff tid q (rel + 4))).toNat * 2 ^ 32

def ringKey (tid q : Nat) : Nat := tid * 8 + q

def State.sqc (s : State) (tid q : Nat) : SqSt := (kvFind s.ring.sq (ringKey tid q)).getD ⟨0, 0, 0, 0⟩

def State.cqc (s : State) (tid q : Nat) : CqSt := (kvFind s.ring.cq (ringKey tid q)).getD ⟨0, 0, 0, 0, false⟩

def State.setSqc (s : State) (tid q : Nat) (c : SqSt) : State :=
  { s with ring := { s.ring with sq := kvSet s.ring.sq (ringKey tid q) c } }

def State.setCqc (s : State) (tid q : Nat) (c : CqSt) : State :=
  { s with ring := { s.ring with cq := kvSet s.ring.cq (ringKey tid q) c } }

def State.sqOn (s : State) (tid q : Nat) : Bool := s.fn tid q FN.SQ_CTRL.ENABLE == 1

def State.cqOn (s : State) (tid q : Nat) : Bool := s.fn tid q FN.CQ_CTRL.ENABLE == 1

def State.sqLen (s : State) (tid q : Nat) : Nat := 2 ^ s.fn tid q FN.SQ_CTRL.LENGTH_LOG2

def State.cqLen (s : State) (tid q : Nat) : Nat := 2 ^ s.fn tid q FN.CQ_CTRL.LENGTH_LOG2

/-- The CQ an SQ is bound to (R115). -/
def State.cqOf (s : State) (tid q : Nat) : Nat := s.fn tid q FN.SQ_CTRL.CQ

/-- Free-running 32-bit difference. -/
def sub32 (a b : Nat) : Nat := (a + 2 ^ 32 - b % 2 ^ 32) % 2 ^ 32

/-- Descriptors posted and not fetched. -/
def SqSt.posted (c : SqSt) : Nat := sub32 c.tail c.head

/-- Completions written and not consumed. -/
def CqSt.waiting (c : CqSt) : Nat := sub32 c.tail c.head

/-- Reads begun and not latched, over rings a predicate picks. -/
def State.fetching (s : State) (p : Nat → Bool) : Nat :=
  ((s.ring.sq.filter fun x => p x.1).map (·.2.inFetch)).foldl (· + ·) 0

/-- Outstanding descriptors of the card, counting reads begun. -/
def State.outCard (s : State) : Nat := s.wk.works.length + s.fetching fun _ => true

/-- Outstanding descriptors of a tenant (Table 6-7). -/
def State.outstanding (s : State) (tid : Nat) : Nat := (s.wk.works.filter (·.d.tid = tid)).length

/-- Credit in use of a CQ (Table 6-8). -/
def State.cqUsed (s : State) (tid c : Nat) : Nat :=
  (s.wk.works.filter fun w => w.d.tid = tid ∧ w.cq = c).length +
    (s.fetching fun k => k / 8 == tid && s.cqOf tid (k % 8) == c) + (s.cqc tid c).waiting

/-- Delivery streams in use on the card (R125). -/
def State.streams (s : State) : Nat := (s.wk.works.filter (·.stream)).length

def State.streamsOf (s : State) (tid : Nat) : Nat := (s.wk.works.filter fun w => w.stream ∧ w.d.tid = tid).length

/-- DESC_CAP in force of a tenant (R124, R424); TID 0 has no cap of its own (DESIGN CHOICE, log 72). -/
def State.descCap (s : State) (tid : Nat) : Nat := if tid = 0 then 65536 else s.lget PART.TENANT_CAPS.DESC_CAP tid

/-- STREAM_CAP in force of a tenant (R125, R424). -/
def State.streamCap (s : State) (tid : Nat) : Nat := if tid = 0 then 4096 else s.lget PART.TENANT_CAPS.STREAM_CAP tid

/-- A stream is free for a tenant (R125). -/
def State.streamFree (s : State) (tid : Nat) : Bool :=
  decide (s.streams < 4096) && decide (s.streamsOf tid < s.streamCap tid)

/-- A FENCE that holds a work (R133): fetched before it, in scope, its completion not yet written. -/
def State.fenced (s : State) (w : Work) : Bool :=
  s.wk.works.any fun f => f.d.opcode == opFENCE && !(f.phase == 2 && f.status == stIGNORED) && decide (f.id < w.id) &&
    f.d.tid == w.d.tid && (f.d.b 32 1 == 1 || f.d.sq == w.d.sq)

/-- A work waits for a stream: due, not held, first unadmitted of its SQ, considered at an earlier boundary (R125). -/
def State.streamWait (s : State) (w : Work) : Bool :=
  w.phase == 0 && opStream w.d.opcode && decide (w.fetched < s.stroke) && decide (w.d.notBefore ≤ s.stroke) && !s.fenced w &&
    !(s.wk.works.any fun v => v.phase == 0 && decide (v.id < w.id) && v.d.tid == w.d.tid && v.d.sq == w.d.sq)

/-- A stream descriptor whose turn it is: no other one latched before it waits for a stream that its tenant has free (R125). -/
def State.streamTurn (s : State) (w : Work) : Bool :=
  s.streamFree w.d.tid && !(s.wk.works.any fun v => decide (v.id < w.id) && s.streamWait v && s.streamFree v.d.tid)

/-- A tenant's reset is under way (R427). -/
def State.draining (s : State) (tid : Nat) : Bool := s.part.drains.any (·.tid = tid)

/-- Bits 5:2 of SQ_WAIT as the bounds stand (Table 6-8, R68). -/
def State.bounds (s : State) (tid q : Nat) : Nat :=
  let c := s.cqOf tid q
  4 * b01 (decide (65536 ≤ s.outCard) || s.tier.quiesce) +
    8 * b01 (decide (s.descCap tid ≤ s.outstanding tid + s.fetching fun k => k / 8 == tid)) +
    16 * b01 (decide (s.cqLen tid c ≤ s.cqUsed tid c)) +
    32 * b01 (s.wk.works.any fun w => w.d.tid == tid && w.d.sq == q && s.streamWait w)

/-- SQ_WAIT (Table 6-7); bit 6 while a rebuild fences the tenant (R164). -/
def State.sqWait (s : State) (tid q : Nat) : Nat :=
  b01 (!s.sqOn tid q) + 2 * b01 (s.phase != phRELEASED) + (s.bounds tid q ||| (s.sqc tid q).wait) +
    64 * b01 ((s.sq.rebuild.any fun r => r.tid = tid) && s.get XLAT.REBUILD_STATUS.STATE tid == 2) +
    128 * b01 (s.draining tid)

/-- How many descriptors one read may fetch now (R123, R124). -/
def State.fetchRoom (s : State) (tid q : Nat) : Nat :=
  let sq := s.sqc tid q
  let c := s.cqOf tid q
  min (min 32 (sq.posted - sq.inFetch)) (min (65536 - s.outCard)
    (min (s.descCap tid - (s.outstanding tid + s.fetching fun k => k / 8 == tid))
      (s.cqLen tid c - s.cqUsed tid c)))

/-- The fetch bounds in force kept until the next boundary, for every listed ring of a tenant's CQ (R124). -/
def State.keepBounds (s : State) (tid c : Nat) : State :=
  let f (x : Nat × SqSt) : Nat × SqSt :=
    if x.1 / 8 = tid ∧ s.cqOf tid (x.1 % 8) = c then
      (x.1, { x.2 with wait := x.2.wait ||| (s.bounds tid (x.1 % 8) / 16 % 2 * 16) })
    else x
  { s with ring := { s.ring with sq := s.ring.sq.map f } }

/-- At a boundary, the bits kept from the Stroke before lapse (R124). -/
def State.freeBounds (s : State) : State :=
  { s with ring := { s.ring with sq := s.ring.sq.map fun x => (x.1, { x.2 with wait := 0 }) } }

/-- A tenant's status page. -/
def State.stat (s : State) (tid : Nat) : StatPage := (kvFind s.ring.stat tid).getD ⟨0, 0, 0, []⟩

def State.setStat (s : State) (tid : Nat) (p : StatPage) : State :=
  { s with ring := { s.ring with stat := kvSet s.ring.stat tid p } }

end Sys2Proof.Machine
end

