-- ==== Sys2Proof/Machine/Log.lean ====
section
/-! DEFINITION. The flash log (R210 to R216, R525, R526, R423): records, log pages, chains, buffers, the anchor, replay, and the
reclaiming of erase blocks. Programming a log page with both its copies, and an anchor update, are each one step (DESIGN CHOICE,
log 30). -/

namespace Sys2Proof.Machine

/-! ### Records (Table 9-8) -/

def recType (r : Nat) : Nat := bits r 0 4

/-- A PAGE or LOST record (TYPE 1 or 6): the page's header, its sequence and index, and its first sector. -/
def recPage (ty : Nat) (sid p : Nat) (hdr body : List Byte) (sector : Nat) : Nat :=
  ty + b01 (hdrProt hdr) * 2 ^ 4 + b01 (hdrLatent hdr) * 2 ^ 5 + b01 (hdrRaw hdr) * 2 ^ 6 + b01 (hdrSizeRaw hdr) * 2 ^ 7 +
    sidIdx sid * 2 ^ 8 + sidGen sid * 2 ^ 32 + p * 2 ^ 40 + hdrGEN hdr % 256 * 2 ^ 72 + sectorsOf hdr body * 2 ^ 80 +
    sector * 2 ^ 88

/-- A SEQ record. -/
def recSeq (q : Seq) : Nat :=
  2 + q.idx * 2 ^ 8 + q.gen * 2 ^ 32 + q.layers * 2 ^ 40 + q.cls * 2 ^ 56 + b01 q.ring * 2 ^ 62 + b01 q.prot * 2 ^ 63 +
    (q.slots - 1) * 2 ^ 64 + q.btLog * 2 ^ 84

def recLength (q : Seq) : Nat := 3 + q.idx * 2 ^ 8 + q.gen * 2 ^ 32 + q.len * 2 ^ 40

/-- A FORK record; `n` is the blocks shared, 0xFFFF_FFFF for a ring fork. -/
def recFork (src tgt : Seq) (n : Nat) : Nat :=
  4 + src.idx * 2 ^ 8 + src.gen * 2 ^ 32 + tgt.idx * 2 ^ 40 + tgt.gen * 2 ^ 64 + n * 2 ^ 72

def recClose (q : Seq) : Nat := 5 + q.idx * 2 ^ 8 + q.gen * 2 ^ 32

def recKeycheck (tid kcv : Nat) : Nat := 8 + tid * 2 ^ 4 + kcv * 2 ^ 16

def recClean : Nat := 9
def recScrub : Nat := 10

def recKvDefine (tid : Nat) (standby : Bool) (member : Nat) (merged : Bool) (into : Nat) : Nat :=
  12 + tid * 2 ^ 4 + b01 standby * 2 ^ 14 + member * 2 ^ 15 + b01 merged * 2 ^ 20 + into * 2 ^ 21

/-- The four PREFIX records of an insert (Table 10-9), or the one of a remove. -/
def recPrefix (removed low : Bool) (sid ns slot block sector : Nat) : Nat :=
  7 + b01 removed * 2 ^ 6 + b01 low * 2 ^ 7 + sidIdx sid * 2 ^ 8 + sidGen sid * 2 ^ 32 + ns * 2 ^ 40 + slot * 2 ^ 52 +
    block * 2 ^ 56 + sector * 2 ^ 88

/-- A KEY part of a PREFIX group. -/
def recPrefixKey (part : Nat) (key : List Byte) : Nat :=
  7 + part * 2 ^ 4 + (leNat key / 2 ^ (120 * (part - 1)) % (if part = 3 then 2 ^ 16 else 2 ^ 120)) * 2 ^ 8

def recPoolDefine (r : Nat) (mirror standby : Bool) (pages mirrorOf : Nat) : Nat :=
  0xB + r * 2 ^ 6 + b01 mirror * 2 ^ 14 + b01 standby * 2 ^ 15 + pages * 2 ^ 16 + mirrorOf * 2 ^ 48

def recPoolPage (r page sector : Nat) : Nat := 0xB + 2 ^ 4 + r * 2 ^ 6 + page * 2 ^ 16 + sector * 2 ^ 88

def recPoolRelease (r : Nat) : Nat := 0xB + 2 * 2 ^ 4 + r * 2 ^ 6

/-! ### Blocks and sectors -/

/-- Sectors of 4 KiB in an erase block: a whole number of stripes of 15 data NAND pages (DESIGN CHOICE, log 31). -/
def blockSectors : Nat := (Config.blockNandPages + 1) * 60

/-- Erase blocks of the 120 TiB of user flash. -/
def userBlocks : Nat := 120 * 2 ^ 28 / blockSectors

/-- The flash carve-out in force, in GiB: nothing before the log scan starts (R377). -/
def State.carveFlash (s : State) : Nat := if s.flag TIER.LOG_SCAN_CTRL.START then s.get POOL.CARVE_FLASH.TIB * 1024 else 0

/-- Erase blocks of the flash carve-out: they are no part of the KV space (R16, R377). -/
def State.poolBlocks (s : State) : Nat := s.carveFlash * 2 ^ 18 / blockSectors

/-- A pool region's index. -/
def poolIndex (i : Nat) : Bool := decide (1024 ≤ i) && decide (i < 1280)

/-- Data blocks that the pool's regions hold, or the KV regions. -/
def State.blocksUsed (s : State) (pool : Bool) : Nat :=
  ((s.flash.chains.filter fun c => poolIndex c.index == pool).map fun c => c.blocks.length).foldl (· + ·) 0

/-- Free erase blocks of the KV space; log pages lie outside the user capacity (Table 1-1). -/
def State.blocksFree (s : State) : Nat := userBlocks - s.poolBlocks - s.blocksUsed false

/-- Free erase blocks are below 2 % of the user capacity (R206). -/
def State.flashFull (s : State) : Bool := decide (s.blocksFree * 50 < userBlocks)

/-- The flash carve-out has no free erase block. -/
def State.poolFlashFull (s : State) : Bool := decide (s.poolBlocks ≤ s.blocksUsed true)

def State.setFlash (s : State) (f : FlashSt → FlashSt) : State := { s with flash := f s.flash }

def State.chainAt (s : State) (idx : Nat) : Option Chain := s.flash.chains.find? (·.index = idx)

def State.updChain (s : State) (idx : Nat) (f : Chain → Chain) : State :=
  s.setFlash fun x => { x with chains := x.chains.map fun c => if c.index = idx then f c else c }

/-- A free erase block taken for a region's data, or for its log. -/
def State.takeBlock (s : State) (idx : Nat) (log : Bool) : State × Nat :=
  let (b, s1) := match s.flash.freeBlocks with
    | b :: t => (b, s.setFlash fun x => { x with freeBlocks := t })
    | [] => (s.flash.nextBlock, s.setFlash fun x => { x with nextBlock := x.nextBlock + 1 })
  (s1.updChain idx fun c => if log then { c with logs := c.logs ++ [b] } else { c with blocks := c.blocks ++ [b] }, b)

/-- The stripe of a sector: 15 data NAND pages, and the parity NAND page on the sixteenth die (R192). -/
def stripeOf (sector : Nat) : Nat := sector / 60

/-! ### The anchor (R216) -/

/-- A chain's log start address: its first log page, or the sector kept for it. -/
def Chain.startAt (c : Chain) : Nat := (c.pages.head?.map (·.addr)).getD c.next

/-- Place of a NAND page among the 16 of its stripe (R192). -/
def nandDieOf (nand : Nat) : Nat := (Config.nandDie (stripeOf nand) + nand / 4 % 15) % 16

/-- A place of a group's stripe has no die that holds it: its die is dead, and the stripe is not yet rebuilt onto a spare (R217). -/
def State.deadAt (s : State) (g d stripe : Nat) : Bool :=
  s.tier.dead.contains (g, d) && ((kvFind s.tier.rebuild g).all fun r => r.1 != d || r.2.contains stripe)

/-- The group and the place in its stripes of an anchor slot's erase block: groups 0, 4, 8 and 12 (R216). -/
def anchorPlace (slot : Nat) : Nat × Nat := (4 * (slot % 4), Config.anchorDie slot % 16)

/-- A slot takes a copy in its next NAND page; a full block is erased first. Its CRC-32C is valid where the die can be programmed (R216). -/
def AnchorSlot.program (x : AnchorSlot) (gen : Nat) (ok : Bool) (entries : List (Nat × Nat × Nat)) : AnchorSlot :=
  ⟨if x.used = Config.blockNandPages + 1 then 1 else x.used + 1, ok, gen, entries⟩

/-- An anchor update: one more FLASH_GEN, in slot FLASH_GEN mod 4. -/
def State.anchorUpdate (s : State) : State :=
  s.setFlash fun x =>
    let g := x.gen + 1
    let k := g % 4
    let entries := x.chains.map fun c => (c.index, c.written, c.startAt)
    let ok := !s.deadAt (anchorPlace k).1 (anchorPlace k).2 0
    { x with gen := g, written := true, slots := x.slots.set k ((x.slots.getD k ⟨0, false, 0, []⟩).program g ok entries) }

/-- The valid copy with the highest FLASH_GEN among the four slots, if any holds one (R216). -/
def FlashSt.anchor (x : FlashSt) : Option AnchorSlot :=
  (x.slots.filter (·.valid)).foldl (fun a y => match a with
    | none => some y
    | some b => if b.gen < y.gen then some y else some b) none

/-- Before the first flash write of a run, the anchor is updated (R216). -/
def State.firstWrite (s : State) : State := if s.flash.written then s else s.anchorUpdate

/-! ### Chains and buffers -/

/-- The index of the chain a tenant's records go to: the region adopted into it, or its own index (R526). -/
def State.ownIdx (s : State) (tid : Nat) : Nat := ((s.flash.adopted.find? (·.2 = tid)).map (·.1)).getD tid

/-- A set-aside index is free (R526). -/
def State.asideFree (s : State) (i : Nat) : Bool :=
  (s.chainAt i).isNone || s.get TIER.REGION_INFO.STATE i == 5

/-- The free set-aside indices. -/
def State.asides (s : State) : List Nat := ((List.range 1792).map (· + 2304)).filter s.asideFree

/-- What the region registers show of one index moved to another. -/
def State.moveRegion (s : State) (i j : Nat) : State :=
  [TIER.REGION_INFO.off, TIER.REGION_PAGES.off, TIER.REGION_ENTRIES.off, TIER.REGION_LOST_PAGES.off].foldl
    (fun s o => (s.setReg o (s.reg o i) j).setReg o 0#32 i) s

/-- The stream key of a chain's log pages, apart from its data stream. -/
def logStream (idx : Nat) : Nat := idx + 0x10000

/-- The chain at index `i` moved to index `j` with everything the run keeps of it: its buffered records, its open blocks, its programs. -/
def State.moveChain (s : State) (i j : Nat) : State :=
  let mv (k : Nat) : Nat := if k = i then j else if k = logStream i then logStream j else k
  let s1 := s.setFlash fun x =>
    { x with
      chains := x.chains.map fun c => { c with index := mv c.index }
      adopted := x.adopted.map fun a => (mv a.1, a.2)
      found := x.found.map mv
      bufs := x.bufs.map fun b => (mv b.1, b.2) }
  { s1 with tier := { s1.tier with
      streams := s1.tier.streams.map fun w => { w with index := mv w.index }
      placed := s1.tier.placed.map fun p => { p with index := mv p.index }
      ready := s1.tier.ready.map fun r => (mv r.1, r.2)
      ops := s1.tier.ops.map fun o => if o.kind = 1 then { o with index := mv o.index } else o } }

/-- The chain at index `i` set aside at the lowest free set-aside index (R526). -/
def State.setAside (s : State) (i : Nat) : State :=
  match s.chainAt i, s.asides.head? with
  | some _, some j => (s.moveChain i j).moveRegion i j
  | _, _ => s

/-- The sector of a chain's log page to come: the next NAND page of its log block, or of a block taken for it. -/
def State.logSector (s : State) (idx : Nat) : State × Nat :=
  let fresh : State × Nat :=
    let (s1, b) := s.takeBlock idx true
    ({ s1 with tier := { s1.tier with streams := s1.tier.streams.filter (·.index ≠ logStream idx) ++
        [⟨logStream idx, b, 4, s.stroke, none⟩] } }, b * blockSectors)
  match s.tier.streams.find? (·.index = logStream idx) with
  | none => fresh
  | some w =>
    let f (v : WStream) : WStream := if v.index = logStream idx then { v with off := v.off + 4 } else v
    if w.off < blockSectors then
      ({ s with tier := { s.tier with streams := s.tier.streams.map f } }, w.block * blockSectors + w.off)
    else fresh

/-- A sector kept for the chain's next log page. -/
def State.keepSector (s : State) (idx : Nat) : State :=
  let (t, a) := s.logSector idx
  t.updChain idx fun c => { c with next := a }

/-- A new empty chain at an index, its first log page's sector known (R213, R216). -/
def State.newChain (s : State) (idx : Nat) : State :=
  (s.setFlash fun x => { x with chains := x.chains.filter (·.index ≠ idx) ++ [⟨idx, idx, [], [], [], 0⟩] }).keepSector idx

/-- A record into a chain's buffer (R212). -/
def State.logRaw (s : State) (idx r : Nat) : State :=
  s.setFlash fun x =>
    match x.bufs.find? (·.1 = idx) with
    | none => { x with bufs := x.bufs ++ [(idx, [(s.stroke, r)])] }
    | some _ => { x with bufs := x.bufs.map fun b => if b.1 = idx then (b.1, b.2 ++ [(s.stroke, r)]) else b }

/-- Records in a chain's buffer. -/
def State.buffered (s : State) (idx : Nat) : List Nat := (s.flash.bufs.filter (·.1 = idx)).flatMap fun b => b.2.map (·.2)

/-- The tenant has a chain it writes: its adopted region, or one started in this run. -/
def State.hasChain (s : State) (tid : Nat) : Bool :=
  s.ownIdx tid != tid || ((s.chainAt tid).isSome && (s.flash.adopted.any (fun a => a.1 == tid && a.2 == tid) ||
    s.get TIER.REGION_INFO.STATE tid == 0 || s.get TIER.REGION_INFO.STATE tid == 5))

/-- The tenant's KV region is mirrored now: its state is SYNC or SYNCING (R402, R404). -/
def State.kvMirrored (s : State) (tid : Nat) : Bool :=
  s.flag POOL.KV_MIRROR.ENABLE tid && (s.get POOL.KV_MIRROR.STATE tid == 1 || s.get POOL.KV_MIRROR.STATE tid == 2)

/-- A record that entered a tenant's log buffer, queued for the partner where the tenant is mirrored (R402). -/
def State.queueKv (s : State) (tid r : Nat) : State :=
  if s.kvMirrored tid then { s with pool := { s.pool with kvOut := s.pool.kvOut ++ [⟨tid, some r, 0, 0, [], false⟩] } } else s

/-- A tenant's own chain started when it first needs one (R213, R526): an older chain at its index set aside, the new chain's
start recorded by an anchor update, KV_DEFINE first. -/
def State.needChain (s : State) (tid : Nat) : State :=
  if s.hasChain tid then s
  else
    let r := recKvDefine tid false 0 false 0
    ((((s.firstWrite.setAside tid).newChain tid).anchorUpdate).logRaw tid r).queueKv tid r

/-- A record of a tenant's KV region (R212), queued for the partner where the tenant is mirrored (R402). -/
def State.logKv (s : State) (tid r : Nat) : State :=
  let s1 := s.needChain tid
  (s1.logRaw (s1.ownIdx tid) r).queueKv tid r

/-! ### Replay (R214) -/

/-- A sequence as a log leaves it. -/
structure RSeq where
  idx : Nat
  gen : Nat
  layers : Nat
  cls : Nat
  ring : Bool
  prot : Bool
  slots : Nat
  btLog : Nat
  len : Nat
  deriving DecidableEq, Repr

/-- A leaf as a log leaves it: sequence index and generation, page, and its PAGE record, or none for a LOST one. -/
structure RLeaf where
  idx : Nat
  gen : Nat
  p   : Nat
  rcd : Option Nat
  deriving DecidableEq, Repr

/-- A prefix entry as a log leaves it: its part-0 record and key. -/
structure REntry where
  head : Nat
  key  : List Byte
  deriving DecidableEq, Repr

/-- What the records of a chain say. -/
structure Replay where
  seqs    : List RSeq
  leaves  : List RLeaf
  entries : List REntry
  /-- The part-0 record of the group being read, and the key so far. -/
  grp     : Option (Nat × Nat)
  /-- The last record's type. -/
  last    : Nat
  scrub   : Bool
  kvdef   : Option Nat
  kcv     : Option Nat
  /-- Pool region: DEFINE record and pages (index, sector). -/
  pool    : Option Nat
  pages   : List (Nat × Nat)
  deriving DecidableEq, Repr

def Replay.start : Replay := ⟨[], [], [], none, 0, false, none, none, none, []⟩

/-- Sequence, namespace and block of a part-0 record: what a remove names. -/
def prefixName (r : Nat) : Nat × Nat × Nat × Nat := (bits r 8 24, bits r 32 8, bits r 40 12, bits r 56 32)

/-- One record replayed. -/
def Replay.add (x : Replay) (r : Nat) : Replay :=
  let i := bits r 8 24
  let g := bits r 32 8
  let y := { x with last := recType r }
  let setLeaf (c : Option Nat) : List RLeaf :=
    x.leaves.filter (fun l => ¬ (l.idx = i ∧ l.gen = g ∧ l.p = bits r 40 32)) ++ [⟨i, g, bits r 40 32, c⟩]
  match recType r with
  | 1 => { y with leaves := setLeaf (some r) }
  | 6 => { y with leaves := setLeaf none }
  | 2 => { y with seqs := x.seqs.filter (fun q => q.idx ≠ i) ++ [⟨i, g, bits r 40 16, bits r 56 6, bits r 62 1 = 1,
      bits r 63 1 = 1, bits r 64 20 + 1, bits r 84 3, 0⟩] }
  | 3 => { y with seqs := x.seqs.map fun q => if q.idx = i ∧ q.gen = g then { q with len := max q.len (bits r 40 32) } else q }
  | 4 =>
    let t := bits r 40 24
    let tg := bits r 64 8
    let n := bits r 72 32
    let lay := ((x.seqs.find? fun q => q.idx = t ∧ q.gen = tg).map (·.layers)).getD 1
    let sh := (x.leaves.filter fun l => l.idx = i ∧ l.gen = g ∧ (n = 0xFFFFFFFF ∨ l.p / lay < n)).map fun l =>
      { l with idx := t, gen := tg }
    { y with leaves := x.leaves.filter (fun l => ¬ (l.idx = t ∧ l.gen = tg)) ++ sh }
  | 5 => { y with seqs := x.seqs.filter (fun q => ¬ (q.idx = i ∧ q.gen = g)),
                  leaves := x.leaves.filter (fun l => ¬ (l.idx = i ∧ l.gen = g)) }
  | 7 =>
    let part := bits r 4 2
    if part = 0 then
      if bits r 6 1 = 1 then { y with entries := x.entries.filter fun e => prefixName e.head ≠ prefixName r }
      else { y with grp := some (r, 0) }
    else
      (match x.grp with
        | none => y
        | some (h, k) =>
          let k1 := k + bits r 8 (if part = 3 then 16 else 120) * 2 ^ (120 * (part - 1))
          if part = 3 then { y with grp := none, entries := x.entries.filter (fun e => prefixName e.head ≠ prefixName h) ++
            [⟨h, leBytes 32 k1⟩] }
          else { y with grp := some (h, k1) })
  | 8 => { y with kcv := some (bits r 16 32) }
  | 10 => { y with scrub := true }
  | 11 =>
    let k := bits r 4 2
    if k = 0 then { y with pool := some r }
    else if k = 1 then { y with pages := x.pages.filter (·.1 ≠ bits r 16 32) ++ [(bits r 16 32, bits r 88 40)] }
    else { y with pool := none, pages := [] }
  | 12 => { y with kvdef := some r }
  | _ => y

/-- The durable records of a chain, in log order. -/
def Chain.recs (c : Chain) : List Nat := c.pages.flatMap (·.recs)

def replayOf (rs : List Nat) : Replay := rs.foldl Replay.add Replay.start

def RSeq.bt (q : RSeq) : Nat := 2 ^ q.btLog
def RSeq.fin (q : RSeq) : Nat := cdiv q.len q.bt
def RSeq.tail (q : RSeq) : Nat := if q.ring then q.fin - q.slots else 0

/-- The block a page index of a replayed sequence holds within its length, if any. -/
def RSeq.blockAt (q : RSeq) (p : Nat) : Option Nat :=
  let sl := p / max 1 q.layers
  if q.ring then (List.range (q.fin - q.tail)).map (· + q.tail) |>.find? fun b => b % q.slots = sl
  else if sl < q.fin then some sl else none

/-- The leaves an adopt rebuilds with a page or LOST: those of live blocks; a ring page of an older block is discarded (R214). The
block a stored page holds is read from its header on the media. -/
def Replay.kept (x : Replay) (media : List (Nat × List Byte)) : List RLeaf :=
  x.leaves.filter fun l =>
    match x.seqs.find? fun q => q.idx = l.idx ∧ q.gen = l.gen with
    | none => false
    | some q =>
      match q.blockAt l.p with
      | none => false
      | some b =>
        match l.rcd with
        | none => true
        | some r =>
          match kvFind media (bits r 88 40) with
          | none => true
          | some m => !q.ring || hdrBLOCK m == b

/-- Distinct pages of an adopt (TIER.REGION_PAGES). -/
def Replay.distinct (x : Replay) (media : List (Nat × List Byte)) : Nat :=
  (((x.kept media).filterMap (·.rcd)).map fun r => bits r 88 40).eraseDups.length

/-! ### Live sectors and reclaim (R525) -/

/-- A mirror that a takeover merged into a tenant's region (R213). -/
def Replay.merged (x : Replay) : Bool := x.kvdef.any fun r => bits r 20 1 == 1

/-- Sectors that a chain's durable records keep live: pages, pool pages, token sectors, and its own log pages. Of a merged mirror only the
log pages count: no adopt reads its other records (R213). -/
def Chain.liveSectors (c : Chain) (media : List (Nat × List Byte)) : List Nat :=
  let x := replayOf c.recs
  let logs := c.next :: c.pages.map (·.addr)
  if x.merged then logs
  else
    ((x.kept media).filterMap (·.rcd)).flatMap (fun r => (List.range (bits r 80 5)).map (bits r 88 40 + ·)) ++
      x.pages.flatMap (fun g => (List.range 16).map (g.2 + ·)) ++ x.entries.map (fun e => bits e.head 88 40) ++ logs

/-- Sectors the run itself still uses: flash copies of pages, placed pages, pool pages, mirrored pages, shadows (log 31). -/
def State.usedSectors (s : State) : List Nat :=
  s.sq.pages.flatMap (fun g => match g.flash with
    | none => []
    | some f => (List.range (sectorsOf g.hdr g.body)).map (f + ·)) ++
  s.tier.placed.flatMap (fun p => (List.range p.count).map (p.first + ·)) ++
  s.pool.flashAt.flatMap (fun p => (List.range 16).map (p.2 + ·)) ++
  s.pool.kvPages.flatMap (fun p => (List.range p.2.2.2.2).map (p.2.2.2.1 + ·)) ++
  (s.flash.bufs.flatMap fun b => b.2.map (·.2)).filterMap fun r => if recType r = 7 ∧ bits r 4 2 = 0 then some (bits r 88 40) else none

/-- The erase block of a sector. -/
def blockOf (sector : Nat) : Nat := sector / blockSectors

/-- Erase blocks erased and back in the free pool: what they held is gone. -/
def FlashSt.erase (x : FlashSt) (dead : List Nat) : FlashSt :=
  { x with
    freeBlocks := x.freeBlocks ++ dead
    media := x.media.filter fun m => ¬ dead.contains (blockOf m.1)
    lost := x.lost.filter fun n => ¬ dead.contains (blockOf n)
    parity := x.parity.filter fun p => ¬ dead.contains (blockOf (60 * p)) }

/-- Erase blocks that nothing keeps are erased and freed; those of a HELD region stay (R525, R66). -/
def State.reclaim (s : State) : State :=
  let live := s.flash.chains.flatMap (·.liveSectors s.flash.media) ++ s.usedSectors
  let keep (b : Nat) : Bool := live.any (fun x => blockOf x == b) || s.tier.streams.any (·.block == b)
  let held (c : Chain) : Bool := s.get TIER.REGION_INFO.STATE c.index == 6
  let dead := (s.flash.chains.filter fun c => !held c).flatMap fun c => (c.blocks ++ c.logs).filter fun b => !keep b
  s.setFlash fun x =>
    { x.erase dead with
      chains := x.chains.map fun c => if held c then c else { c with blocks := c.blocks.filter keep, logs := c.logs.filter keep } }

/-! ### Log pages (R210, R212) -/

/-- The 16,384 bytes of a log page (Table 9-7): header, records, LOG_CRC over all but itself. -/
def LogPage.bytes (p : LogPage) : List Byte :=
  let head := [0x53#8, 0x4E#8, 0x4C#8, 0x47#8, 1#8, 0#8] ++ leBytes 2 p.region ++ leBytes 8 p.lseq ++ leBytes 8 p.gen ++
    leBytes 8 (p.next % 2 ^ 40) ++ leBytes 2 p.recs.length ++ zeros 26
  let body := padTo 16320 (p.recs.flatMap (leBytes 16))
  head ++ leBytes 4 (crc32c (head ++ body)).toNat ++ body

/-- Channel group of a NAND page, by its first sector: one for the whole stripe. -/
def nandGroupOf (nand : Nat) : Nat := Config.nandGroup (stripeOf nand) % 16

/-- A log page's two channel groups (R210). -/
def copyGroups (addr : Nat) : List Nat := [nandGroupOf addr, (nandGroupOf addr + 8) % 16]

/-- The place in a group's stripes where a log page's copy lies: the NAND page that its sector names, or one of the card's choice in the
second group; while that die is dead, the next place whose die is not (R210, R217). -/
def State.copyPlace (s : State) (addr g : Nat) : Nat :=
  let d := if g = nandGroupOf addr then nandDieOf addr else Config.logDie addr g % 16
  ((List.range 16).map fun k => (d + k) % 16).find? (fun d => !s.deadAt g d (stripeOf addr)) |>.getD d

/-- The chain's next log page programmed in both copies, with the sector after it kept (R210, R212); CLEAN of its region says whether the
last record is a CLEAN mark (R64). -/
def State.logPage (s : State) (idx : Nat) (recs : List Nat) : State :=
  match s.chainAt idx with
  | none => s
  | some c =>
    let n := s.flash.logSeq + 1
    let t := s.keepSector idx
    let nx := ((t.chainAt idx).map (·.next)).getD 0
    let p : LogPage := ⟨c.next, c.written, n, s.flash.gen, nx, recs, (copyGroups c.next).map fun g => (g, s.copyPlace c.next g)⟩
    let u := (t.updChain idx fun c => { c with pages := c.pages ++ [p] }).setFlash fun x => { x with logSeq := n }
    u.put TIER.REGION_INFO.CLEAN (b01 ((recs.getLast?.map recType) == some 9)) idx

/-- The buffer's first 1,020 records programmed as a log page. -/
def State.programLog (s : State) (idx : Nat) : State :=
  if s.buffered idx = [] then s
  else
    let t := s.wakeFlash.firstWrite.logPage idx ((s.buffered idx).take 1020)
    t.setFlash fun x =>
      { x with bufs := (x.bufs.map fun b => if b.1 = idx then (b.1, b.2.drop 1020) else b).filter fun b => b.1 ≠ idx ∨ b.2 ≠ [] }

/-- A log page programmed, then the erase blocks freed that no record keeps any more (R212, R525). -/
def State.flushLog (s : State) (idx : Nat) : State := if (s.chainAt idx).isSome then (s.programLog idx).reclaim else s

/-- Every record of a chain's buffer durable now. -/
def State.flushAll (s : State) (idx : Nat) : State :=
  (List.range (cdiv (s.buffered idx).length 1020)).foldl (fun s _ => s.programLog idx) s

/-- A buffer is due: 1,020 records, or LOG_FLUSH Strokes after its oldest (R212). -/
def State.flushDue (s : State) (idx : Nat) : Bool :=
  s.flash.bufs.any fun b => b.1 == idx &&
    (decide (1020 ≤ b.2.length) || (b.2.head?.any fun r => decide (r.1 + s.get TIER.LOG_FLUSH.STROKES ≤ s.stroke)))

/-- LOG_FLUSH (R212). -/
def execLogFlush (index : Nat) (s : State) : Res :=
  .next (if s.working && s.flushDue index then s.flushLog index else s)

/-! ### Compaction (R215) -/

/-- Whether a record of a chain is live, given what the whole chain's replay leaves. -/
def Replay.liveRec (x : Replay) (media : List (Nat × List Byte)) (r : Nat) : Bool :=
  let i := bits r 8 24
  let g := bits r 32 8
  let seqOn (i g : Nat) : Bool := x.seqs.any fun q => q.idx == i && q.gen == g
  match recType r with
  | 1 => (x.kept media).any fun l => l.rcd == some r || (l.rcd.any fun c => bits c 88 40 == bits r 88 40)
  | 2 => seqOn i g
  | 3 => x.seqs.any fun q => q.idx == i && q.gen == g && q.len == bits r 40 32
  | 4 => seqOn (bits r 40 24) (bits r 64 8)
  | 6 => (x.kept media).any fun l => l.rcd.isNone && l.p == bits r 40 32
  | 7 => if bits r 4 2 = 0 then x.entries.any (·.head == r) else true
  | 8 => x.kcv == some (bits r 16 32)
  | 10 => true
  | 11 => x.pool == some r || x.pages.any fun p => bits r 4 2 == 1 && p == (bits r 16 32, bits r 88 40)
  | 12 => x.kvdef == some r
  | _ => x.last == recType r

/-- The live records of a chain: dead prefix groups lose their key parts with their first record. -/
def liveRecs (media : List (Nat × List Byte)) (rs : List Nat) : List Nat :=
  let x := replayOf rs
  (rs.foldl (fun (acc : List Nat × Bool) r =>
    if recType r = 7 ∧ bits r 4 2 ≠ 0 then (if acc.2 then (acc.1 ++ [r], true) else acc)
    else if x.liveRec media r then (acc.1 ++ [r], recType r = 7)
    else (acc.1, false)) ([], false)).1

/-- Records written as log pages of a chain. -/
def State.writePages (s : State) (idx : Nat) : Nat → List Nat → State
  | 0, _ => s
  | n + 1, rs => if rs = [] then s else (s.logPage idx (rs.take 1020)).writePages idx n (rs.drop 1020)

/-- A chain's log holds more than twice as many records as it has live ones; a held region's flash stays as it is, and before the scan is
done no log was read (R215, R66, R55). -/
def State.compactDue (s : State) (idx : Nat) : Bool :=
  match s.chainAt idx with
  | none => false
  | some c => s.flag TIER.LOG_SCAN_STATUS.DONE && decide (2 * (liveRecs s.flash.media c.recs).length < c.recs.length) && s.get TIER.REGION_INFO.STATE idx != 6

/-- The live records of a chain written as a new one that starts at a sector of its own. -/
def State.rewriteChain (s : State) (idx : Nat) (live : List Nat) : State :=
  ((s.updChain idx fun c => { c with pages := [] }).keepSector idx).writePages idx (live.length + 1) live

/-- COMPACTION (R215, R216): the live records in a new chain, the anchor's entry moved to it, then the old chain released. -/
def execCompaction (index : Nat) (s : State) : Res :=
  if !s.working || !s.compactDue index then .next s
  else
    match s.chainAt index with
    | none => .next s
    | some c => .next ((s.firstWrite.rewriteChain index (liveRecs s.flash.media c.recs)).anchorUpdate.reclaim)

end Sys2Proof.Machine
end

