-- ==== Sys2Proof/Machine/Views.lean ====
section
/-! DEFINITION. What a read of a register returns: the stored word, or what the register shows of other state; write-only
fields read zero (Table 0-2). -/

namespace Sys2Proof.Machine

/-- The lowest missing frame number at or above a cursor while a load is RECEIVING; 0xFFFF_FFFF otherwise (Table 4-10,
Table 4-7). -/
def State.missingNext (s : State) (cursor : Nat) : Nat :=
  let n := s.get IMG.FRAME_COUNT.COUNT
  if s.get IMG.LOAD_STATE.STATE ≠ 2 then 0xFFFFFFFF
  else ((List.range (n - cursor)).find? fun i => (kvFind s.img.staged (cursor + i)).isNone).elim 0xFFFFFFFF (cursor + ·)

/-- Whether a field of the row at an offset is write-only. -/
def woBits (off : Nat) : Word :=
  match findReg off with
  | none => 0#32
  | some r => r.fields.foldl (fun a f => if f.acc = .wo then fieldPut a f.lo f.w (2 ^ f.w - 1) else a) 0#32

/-- Room a constant set area has left, in MiB (R264). -/
def State.constFree (s : State) : Nat :=
  s.get CMPR.CONST_AREA.MIB - ((s.gear.consts.map (·.mib)).foldl (· + ·) 0)

/-- An action waits for the boundary: its self-clearing bit reads 1 until then (R484, R491). -/
def State.awaits (s : State) (a : BAct) : Bool := s.bnd.acts.contains a

/-- Registers that show other state, for the instance given: sequences and pages (Tables 7-9, 8-8, 9-10), search entries (Table
10-10), constant sets (Table 11-4), partitions (Table 17-4) and ring waits (Table 6-11). A self-clearing bit whose action waits for the
boundary reads 1 until then (R491); one whose action begins with the write reads 0 at once, also while that action runs on: a constant
load, a tenant's RESET or DESTROY, the Freewheel's OPEN and CLOSE, an observation window or a sequence probe (R9 gives no time for the clear:
DESIGN CHOICE, log 119). -/
def State.shown (s : State) (off inst : Nat) : Option Word :=
  let n (x : Nat) : Option Word := some (BitVec.ofNat 32 x)
  if off = TIER.FRAMES_FREE.off then n s.framesFree
  else if off = TIER.STATUS.off then
    if s.flag TIER.LOG_SCAN_STATUS.DONE then
      n (b01 (s.tier.waited && s.framesFree == 0) + 2 * b01 s.flashFull + 2 ^ 8 * (s.blocksFree * 100 / userBlocks))
    else n 0
  else if off = PART.PARTITION_CTRL.off then n (b01 (s.awaits (.partCreate inst)) + 2 * b01 (s.awaits (.partDestroy inst)))
  else if off = PART.TENANT_CTRL.off then n (b01 (s.awaits (.tenantCreate inst)))
  else if off = RDMA.REGION_CTRL.off then n (b01 (s.awaits (.regionCommit inst)) + 2 * b01 (s.awaits (.regionRelease inst)))
  else if off = TIER.READ_LAG.off then n ((794 + 100 * s.period - 1) / (100 * s.period))
  else if off = IMG.LOAD_CMD.off then n (2 * b01 (s.bnd.acts.any fun a => match a with
    | .recouple _ => true
    | _ => false))
  else if off = XLAT.AREA_STATUS.off then n s.chunksFree
  else if off = XLAT.SEQ_OPEN_COUNT.off then n (s.sq.seqs.filter (·.tid = inst)).length
  else if off = XLAT.TENANT_CHUNKS.off then n (s.chunksOf inst).length
  else if off = XLAT.SHARE_RECORDS.off then n (s.sq.xitems.filter (·.level = 4)).length
  else if off = TIER.PINNED.off then n (s.pinned inst)
  else if off = CMPR.CLASS_USERS.off then n (s.sq.seqs.filter (·.cls = inst)).length
  else if off = SRCH.NS_ENTRIES.off then n (s.srch.entries.filter (·.ns = inst)).length
  else if off = SRCH.BANK_STATUS.off then
    some (fieldPut (s.reg off inst) 16 15 (s.srch.entries.filter fun e => e.addr / 2 ^ 14 = inst % 4 * 32 + inst / 256).length)
  else if off = CMPR.CONST_FREE.off then n s.constFree
  else if off = CMPR.CONST_USERS.off then n (s.constUsers inst)
  else if off = PART.PARTITION_STATUS.off then
    some (fieldPut (s.reg off inst) 8 11 ((List.range 1023).filter fun t =>
      s.tenState (t + 1) ≠ 0 ∧ s.partOf (t + 1) = inst).length)
  else if inRingWindow off && ringRel off == 0x0C then n (s.sqWait ((off - 0x40000) / 0x100) (off / 0x10 % 8))
  else none

/-- The word a read of `off` for instance `inst` returns, the domain's state aside. -/
def State.view (s : State) (off inst : Nat) : Word :=
  if off = SYS.STROKE_COUNT_LO.off then BitVec.ofNat 32 s.stroke
  else if off = IMG.MISSING_NEXT.off then BitVec.ofNat 32 (s.missingNext (s.get IMG.MISSING_CURSOR.CURSOR))
  else match s.shown off inst with
    | some w => w
    | none => s.reg off inst &&& ~~~ (woBits off)

end Sys2Proof.Machine
end

