-- ==== Sys2Proof/Machine/Bar0.lean ====
section
/-! DEFINITION. A BAR0 write as every register shares it: which fields it writes (R524), the checks in the order of R485
(width, assignment, lock, phase, unit state, audit room), the stored word by access code (Table 0-2), the audit entry
(R107). What a register's own chapter adds is a `Handler`. -/

namespace Sys2Proof.Machine

/-- What a chapter adds for one register: whether its rules refuse the write with cause 2 (instance, old word, written
word), what the fields it changes do (instance, old word, written word), what the accepted write does at once, and what follows
after its audit entry. -/
structure Handler where
  chk  : State → Nat → Word → Word → Bool
  chg  : State → Nat → Word → Word → State := fun s _ _ _ => s
  act  : State → Nat → Word → State
  post : State → Word → State

/-- A value outside a range. -/
def outside (v lo hi : Nat) : Bool := decide (v < lo) || decide (hi < v)

/-- A register that only stores. -/
def Handler.plain : Handler := { chk := fun _ _ _ _ => false, chg := fun s _ _ _ => s, act := fun s _ _ => s, post := fun s _ => s }

/-- The fields a 32-bit write writes (R524). -/
def FieldRow.written (f : FieldRow) (old val : Word) : Bool :=
  match f.acc with
  | .wo => true
  | .w1s => fieldGet val f.lo f.w != 0
  | .w1c => fieldGet val f.lo f.w != 0
  | .rw => fieldGet val f.lo f.w != fieldGet old f.lo f.w
  | .rwl => fieldGet val f.lo f.w != fieldGet old f.lo f.w
  | .ro => false

/-- A field's part of the word after the write (Table 0-2): RW and RWL take the value, W1C clears; what a W1S or WO field
does is the register's own action; reserved bits are no field (R6). -/
def FieldRow.store (f : FieldRow) (val : Word) (w : Word) : Word :=
  match f.acc with
  | .rw => fieldPut w f.lo f.w (fieldGet val f.lo f.w)
  | .rwl => fieldPut w f.lo f.w (fieldGet val f.lo f.w)
  | .w1c => w &&& ~~~ (BitVec.ofNat 32 (fieldGet val f.lo f.w <<< f.lo))
  | .w1s => w
  | .wo => w
  | .ro => w

/-- The register's word after a write. -/
def RegRow.store (r : RegRow) (old val : Word) : Word := r.fields.foldl (fun w f => f.store val w) old

/-- The bits of a word that lie in RW or RWL fields of the row. -/
def RegRow.rwBits (r : RegRow) (w : Word) : Word :=
  r.fields.foldl (fun a f => match f.acc with
    | .rw => fieldPut a f.lo f.w (fieldGet w f.lo f.w)
    | .rwl => fieldPut a f.lo f.w (fieldGet w f.lo f.w)
    | _ => a) 0#32

/-- The bits of a word that lie in a field of the row: reserved bits are ignored (R6). -/
def RegRow.fieldBits (r : RegRow) (w : Word) : Word := r.fields.foldl (fun a f => fieldPut a f.lo f.w (fieldGet w f.lo f.w)) 0#32

/-- The instance a BAR0 access to this row acts on: what its SELECT register holds in the cycle of the access (R487). -/
def State.selInst (s : State) (r : RegRow) : Nat :=
  match r.sel with
  | none => 0
  | some o => (s.reg o).toNat

/-- Whether a lock stands against a field of the register (R9, Table 4-10, Table 5-5, R456). -/
def State.locked (s : State) (off : Nat) (f : FieldRow) : Bool :=
  if off = ROLE.MAKER_LOCK.off then s.flag ROLE.MAKER_LOCK.LOCK
  else if off = ROLE.AUDIT_POLICY.off then s.flag ROLE.AUDIT_POLICY.LOCK
  else if off = IMG.POLICY.off ∨ (IMG.INSTALLER_KEY.off ≤ off ∧ off < IMG.MIN_VERSION_SLOT.off + 4) then
    s.flag IMG.POLICY.LOCK && f.acc == .rwl
  else if off = WDOG.POLICY.off then s.flag WDOG.POLICY.LOCK
  else if off = WDOG.HOST_CTRL.off then s.flag WDOG.POLICY.LOCK && f.acc == .rw
  else if off = WDOG.HOST_PERIOD.off ∨ off = WDOG.HOST_TASKS.off ∨ off = WDOG.SYS_PERIOD.off ∨ off = WDOG.GRACE.off ∨
      off = WDOG.CRASH_BASE_LO.off ∨ off = WDOG.CRASH_BASE_HI.off ∨ off = WDOG.QUIESCE_LIMIT.off ∨
      off = WDOG.HOST_DISABLE.off then s.flag WDOG.POLICY.LOCK
  else false

/-- The phases in which a write of a field is accepted (Table 21-19, R493; Table 3-4 for the narrower rows). -/
def State.phaseOk (s : State) (off : Nat) (f : FieldRow) : Bool :=
  let ph := s.phase
  let blk := off >>> 16
  let conf := ph == phCONFIGURE
  let rel := ph == phRELEASED
  let live := ph == phLOAD || conf || rel
  let scanOpen := conf && !s.flag TIER.LOG_SCAN_CTRL.START
  if off = SYS.STROKE_PERIOD.off ∨ off = SYS.STROKE_TARGET_LO.off ∨ off = SYS.STROKE_TARGET_HI.off then conf || rel
  else if off = SYS.STROKE_CTRL.off then (if f.lo = 0 then conf || rel else conf)
  else if blk = 0x00 then live || ph == phFAULT
  else if blk = 0x14 then
    if off = ERR.SEQ_PROBE_CTRL.off then rel else live || ph == phFAULT
  else if off = CLK.DOMAIN_SELECT.off ∨ off = CLK.XING_DIRTY.off then live || ph == phFAULT
  else if off = CLK.DOMAIN_CTRL.off then (if 2 ≤ f.lo then live || ph == phFAULT else live)
  else if off = WDOG.HOST_CTRL.off ∧ f.lo = 0 then conf || rel
  else if blk = 0x01 ∨ blk = 0x02 ∨ blk = 0x03 ∨ blk = 0x12 ∨ blk = 0x13 then live
  else if off = TIER.QUIESCE_CTRL.off ∨ off = XLAT.REBUILD_CTRL.off then rel
  else if off = TIER.LOG_SCAN_CTRL.off then conf
  else if off = XLAT.AREA_CTRL.off ∨ off = CMPR.CONST_AREA.off ∨ off = POOL.CARVE_DRAM.off ∨ off = POOL.CARVE_FLASH.off ∨
      off = POOL.SWAP_CACHE.off then scanOpen
  else if off = TIER.REGION_ACTION.off then conf && s.flag TIER.LOG_SCAN_STATUS.DONE
  else if off = SPOKE.PELOTON_ID.off then conf
  else if off = SPOKE.MEMBER_CTRL.off then (if f.lo = 17 then conf || rel else conf)
  else conf || rel

/-- The domain an offset belongs to is OFF (R442). The registers of Spoke n are those of the port selected. -/
def State.offDomain (s : State) (off : Nat) : Bool :=
  let stOff (d : Nat) : Bool := s.get CLK.DOMAIN_STATUS.STATE d = 2
  let blk := off >>> 16
  if blk = 0x0B then stOff 19
  else if blk = 0x0E then stOff 20
  else if off = SPOKE.PORT_CTRL.off ∨ off = SPOKE.PORT_STATUS.off then stOff (11 + s.get SPOKE.PORT_SELECT.PORT)
  else if RDMA.PORT_MAC_LO.off ≤ off ∧ off ≤ RDMA.PORT_CTRL.off then stOff (11 + s.get RDMA.PORT_SELECT.PORT)
  else false

/-- The first cause that refuses an aligned 32-bit write to an assigned register, in the order of R485. -/
def State.refuses (s : State) (h : Handler) (r : RegRow) (off inst : Nat) (val : Word) : Option Nat :=
  let old := s.reg off inst
  let ws := r.fields.filter fun f => f.written old val
  if ws.any (s.locked off) then some causeLocked
  else if ws.any (fun f => !s.phaseOk off f) then some causePhase
  else if (!ws.isEmpty && s.offDomain off) || h.chk s inst old (r.fieldBits val) then some causeState
  else if s.flag ROLE.AUDIT_POLICY.STRICT && s.auditFull && off != ROLE.AUDIT_TAIL.off then some causeAuditFull
  else none

/-- A tenant key register: its audit entry shows zeros (R108). -/
def isKeyData (off : Nat) : Bool := PART.KEY_DATA.off ≤ off && off < PART.KEY_DATA.off + 64

/-- The accepted write: stored, its action, its audit entry, what follows (R483, R107, R108). -/
def State.accept (s : State) (h : Handler) (r : RegRow) (off inst : Nat) (val : Word) : State :=
  let old := s.view off inst
  let s1 := h.act (h.chg (s.setReg off (r.store (s.reg off inst) val) inst) inst old (r.fieldBits val)) inst (r.fieldBits val)
  let s2 :=
    if off = ROLE.AUDIT_TAIL.off then s1
    else if isKeyData off then s1.audit actorBar0 1 off
    else s1.audit actorBar0 1 off old.toNat val.toNat (s1.view off inst).toNat
  h.post s2 (r.fieldBits val)

/-- A second key of HOST_DISABLE must follow the first with no other BAR0 write between: any other discards the sequence
and is counted (R455). An accepted write acts first, so that a write that clears ILLEGAL_INFO.VALID leaves this instance captured
(R9, R112). -/
def State.breakKey (s : State) (off : Nat) : State :=
  match s.wd.key1 with
  | none => s
  | some _ =>
    if off = WDOG.HOST_DISABLE.off then s
    else ({ s with wd := { s.wd with key1 := none } }).illegal 0 causeState WDOG.HOST_DISABLE.off 0

/-- A refused write of HOST_DISABLE discards the key sequence (R455). -/
def State.dropKey (s : State) (off : Nat) : State :=
  if off = WDOG.HOST_DISABLE.off then { s with wd := { s.wd with key1 := none } } else s

/-- PF0 answers memory requests: out of reset and past phase ROM (Table 3-2). -/
def State.pf0 (s : State) : Bool := s.up && s.phase != phROM

/-- An aligned 32-bit BAR0 write with a register's handler. -/
def bar0 (h : Handler) (off : Nat) (val : Word) (s : State) : State :=
  if !s.pf0 then s
  else
    match findReg off with
    | none => (s.breakKey off).illegal 0 causeUnassigned off val.toNat
    | some r =>
      let inst := s.selInst r
      match s.refuses h r off inst val with
      | some c => ((s.breakKey off).dropKey off).illegal 0 c off val.toNat
      | none => if s.wd.key1.isSome then (s.accept h r off inst val).breakKey off else s.accept h r off inst val

/-- The write that sets one W1S bit and leaves every RW field of its register as it stands. -/
def bar0Bit (h : Handler) (f : Fld) (s : State) : State :=
  match findReg f.off with
  | none => s
  | some r => bar0 h f.off (r.rwBits (s.reg f.off (s.selInst r)) ||| BitVec.ofNat 32 (2 ^ f.lo)) s

end Sys2Proof.Machine
end

