-- ==== Sys2Proof/Machine/Rings.lean ====
section
/-! DEFINITION. Chapter 6: doorbells, fetch, the latch of a descriptor, ring control, admission as every opcode shares it, NOP and
FENCE, completions and interrupts (R114 to R136, R98, R101, R102, R42, R43). -/

namespace Sys2Proof.Machine

/-! ### Doorbells -/

/-- The tenant whose rings a function's pages reach: TID 0 for PF0, the bound tenant for a VF, none when unbound (R98). -/
def State.pageTid (s : State) (vf : Nat) : Option Nat :=
  if vf = 0 then some 0
  else
    let t := s.get FN.VF_BIND.TID vf
    if t = 0 then none else some t

/-- A doorbell error of a tenant (R120). -/
def State.dbErr (s : State) (tid : Nat) : State :=
  let p := s.stat tid
  s.setStat tid { p with dbErr := min (p.dbErr + 1) 0xFFFFFFFF }

/-- SQ_TAIL (R120, R98): a tail is recorded in every phase, or discarded and counted. -/
def execSqTail (vf q : Nat) (val : Word) (s : State) : Res :=
  if !s.pf0 then .next s
  else
    match s.pageTid vf with
    | none => .next (s.sat ROLE.UNBOUND_DOORBELL_COUNT.COUNT)
    | some tid =>
      let c := s.sqc tid q
      if decide (8 ≤ q) || !s.sqOn tid q || decide (s.sqLen tid q < sub32 val.toNat c.head) then .next (s.dbErr tid)
      else .next (s.setSqc tid q { c with tail := val.toNat })

/-- CQ_HEAD (R120, R98): a head releases consumed completions, or is discarded and counted; the credit is taken up at the next
boundary (R124). -/
def execCqHead (vf q : Nat) (val : Word) (s : State) : Res :=
  if !s.pf0 then .next s
  else
    match s.pageTid vf with
    | none => .next (s.sat ROLE.UNBOUND_DOORBELL_COUNT.COUNT)
    | some tid =>
      let c := s.cqc tid q
      if decide (8 ≤ q) || !s.cqOn tid q || decide (c.waiting < sub32 val.toNat c.head) then .next (s.dbErr tid)
      else .next ((s.keepBounds tid q).setCqc tid q { c with head := val.toNat })

/-! ### Fetch -/

/-- A ring that a fetch may serve: SQ_WAIT zero and descriptors pending (R123). -/
def State.fetchable (s : State) (key : Nat) : Bool :=
  let c := s.sqc (key / 8) (key % 8)
  s.sqWait (key / 8) (key % 8) == 0 && decide (c.inFetch < c.posted)

/-- The ring the rotation serves next (R123, R124): the first fetchable ring after the one served last. -/
def State.nextRing (s : State) : Option Nat :=
  let ks := (s.ring.sq.map (·.1)).filter s.fetchable
  match ks.find? (s.ring.lastServed < ·) with
  | some k => some k
  | none => ks.head?

/-- FETCH_START (R123, R124, R116): when the ring is the next in rotation, a read of up to 32 of its descriptors begins, cut at
the first bound. -/
def execFetchStart (tid q : Nat) (s : State) : Res :=
  if !s.working || s.nextRing != some (ringKey tid q) then .next s
  else
    let c := s.sqc tid q
    let s1 := s.setSqc tid q { c with inFetch := c.inFetch + s.fetchRoom tid q }
    .next { s1 with ring := { s1.ring with lastServed := ringKey tid q } }

/-- A work made of a descriptor latched in a Stroke: fetched, not admitted, with its slot and the CQ whose credit it takes. -/
def State.newWorkAt (s : State) (d : Desc) (fetched : Nat) : State × Nat :=
  let w : Work :=
    { id := s.wk.next, d := d, fetched := fetched, cq := s.cqOf d.tid d.sq, slot := d.count % s.sqLen d.tid d.sq, phase := 0, admitted := 0, active := false, startLen := 0, next := 0, run := [],
      ended := [], lead := 0, losses := [], flags := 0, stop := none, status := 0, detail := 0, extent := 0, results := [],
      newSid := 0, latchedAt := 0, riskDone := false, stream := false, held := false, planned := 0,
      epoch := none, writes := [], aux := .none }
  ({ s with wk := { s.wk with works := s.wk.works ++ [w], next := s.wk.next + 1 } }, s.wk.next)

/-- A work made of a descriptor latched now. -/
def State.newWork (s : State) (d : Desc) : State × Nat := s.newWorkAt d s.stroke

/-- One fetched descriptor latched (R126, R116): SQ_HEAD passes its slot; a malformed one completes IGNORED. -/
def State.latchFetch (s : State) (tid q : Nat) : State :=
  let c := s.sqc tid q
  let slot := c.head % s.sqLen tid q
  let bs := s.memRead (s.ringBase tid q 0 + 64 * slot) 64
  let d := descOf tid q c.head bs
  let s1 := s.setSqc tid q { c with head := (c.head + 1) % 2 ^ 32, inFetch := c.inFetch - 1 }
  let (s2, id) := s1.newWork d
  let m := d.malformed (leAt bs 1 1 / 4)
  if m = 0 then s2 else s2.latch id stIGNORED m 0

/-- DESCRIPTOR_FETCHED (R123, R126). -/
def execDescriptorFetched (tid q : Nat) (s : State) : Res :=
  if !s.working || (s.sqc tid q).inFetch == 0 then .next s else .next (s.latchFetch tid q)

/-! ### Ring control -/

/-- A write of SQ_CTRL (R136, Table 6-11): counts start at 0 when ENABLE rises; a ring being disabled stops fetching and loses
its recorded tail. -/
def hSqCtrl (tid q : Nat) (rise : Bool) : Handler :=
  { chk := fun s _ old v =>
      let on := fieldGet old 16 1 == 1
      let len := fieldGet v 0 5
      (decide (len < 6) || decide (16 < len)) ||
      (on && (fieldGet v 0 5 != fieldGet old 0 5 || fieldGet v 8 3 != fieldGet old 8 3)) ||
      (!on && fieldGet v 16 1 == 1 && !s.cqOn tid (fieldGet v 8 3))
    act := fun s _ v =>
      let c := s.sqc tid q
      if fieldGet v 16 1 = 0 then s.setSqc tid q { c with tail := c.head, inFetch := 0, wait := 0 }
      else if rise then s.setSqc tid q ⟨0, 0, 0, 0⟩
      else s
    post := fun s _ => s }

def State.writeSqCtrl (s : State) (tid q : Nat) (val : Word) : State :=
  bar0 (hSqCtrl tid q (!s.sqOn tid q)) (fnOff tid q FN.SQ_CTRL.rel) val s

/-- SQ_CTRL (R136). -/
def execSqCtrl (tid q : Nat) (val : Word) (s : State) : Res := .next (s.writeSqCtrl (tid % 1024) (q % 8) val)

/-- A write of CQ_CTRL (R136, Table 6-11): a VF's MSI-X table has 16 vectors, PF0's 2,048 (R135). -/
def hCqCtrl (tid c : Nat) (rise : Bool) : Handler :=
  { chk := fun s _ old v =>
      let on := fieldGet old 8 1 == 1
      let len := fieldGet v 0 5
      let size := if tid = 0 then 2048 else 16
      let bound (q : Nat) : Bool := s.cqOf tid q == c
      (decide (len < 6) || decide (16 < len)) || (on && fieldGet v 0 5 != fieldGet old 0 5) ||
      (!on && fieldGet v 8 1 == 1 && fieldGet v 9 1 == 1 && decide (size ≤ fieldGet v 16 11)) ||
      (on && fieldGet v 8 1 == 0 && ((List.range 8).any (fun q => bound q && s.sqOn tid q) ||
        s.wk.works.any fun w => w.d.tid == tid && w.cq == c))
    act := fun s _ v => if rise && fieldGet v 8 1 == 1 then s.setCqc tid c ⟨0, 0, 0, 0, false⟩ else s
    post := fun s _ => s }

def State.writeCqCtrl (s : State) (tid c : Nat) (val : Word) : State :=
  bar0 (hCqCtrl tid c (!s.cqOn tid c)) (fnOff tid c FN.CQ_CTRL.rel) val s

/-- CQ_CTRL (R136). -/
def execCqCtrl (tid q : Nat) (val : Word) (s : State) : Res := .next (s.writeCqCtrl (tid % 1024) (q % 8) val)

/-- A write of a ring's BASE registers: refused while the ring is enabled (R136). -/
def hRingBase (tid q : Nat) (cq : Bool) : Handler :=
  { Handler.plain with
    chk := fun s _ old v => (if cq then s.cqOn tid q else s.sqOn tid q) && old != v }

/-! ### Admission (R127) -/

/-- Opcode rights (Table 5-3). -/
def rightsOk (d : Desc) : Bool := d.tid != 0 || d.opcode == opNOP || d.opcode == opFENCE

/-- A page that rests on flash or is being read from it. -/
def Page.onFlash (g : Page) : Bool := g.st == 4 || g.st == 5

/-- An APPEND's first block is open and one of its pages has to be paged in (R174). -/
def State.appendPagesIn (s : State) (q : Seq) : Bool :=
  q.len % q.bt != 0 && (List.range q.layers).any fun l => (s.pageAt q.idx (q.page (q.len / q.bt) l)).any (·.onFlash)

/-- A POOL_XFER has a KV page of its range to page in, or its region rests on flash (R386, R393). -/
def State.xferPagesIn (s : State) (d : Desc) : Bool :=
  s.flag POOL.REGION_DEF.TIER (d.b 33 1) ||
    (d.b 32 1 == 1 && (s.seqBySid d.tid d.sid).any fun q => (s.sq.leaves.filter (·.sq = q.idx)).any fun l =>
      let b := l.p / q.layers
      decide (d.b 36 4 ≤ b) && decide (b < d.b 36 4 + d.b 40 4) && decide (d.b 34 1 ≤ l.p % q.layers) &&
        decide (l.p % q.layers ≤ d.b 34 1 + d.b 35 1) && (s.pageBy l.pid).any (·.onFlash))

def State.mirState (s : State) (r : Nat) : Nat := s.get POOL.REGION_STATUS.MIRROR_STATE r

/-- What is written to the region goes to the partner too (R401). -/
def State.mirrors (s : State) (r : Nat) : Bool := s.mirState r == 1 || s.mirState r == 2

/-- The resources a descriptor draws, nonzero where it needs one (R47, R199, R299, R344). DESIGN CHOICE (log 81): Table 2-1 gives the
PREFIX opcodes "at most 16" DRAM units, so each of them needs DRAM. DEDUCED (log 82): an APPEND or POOL_XFER needs flash where a page
of its range, or its region, rests on flash at its admission. -/
def State.needs (s : State) (d : Desc) : Res6 :=
  let op := d.opcode
  let z := Res6.zero
  if op = opAPPEND then
    (match s.seqBySid d.tid d.sid with
      | none => { z with dram := 16 }
      | some q => { z with dram := 16, engine := (s.classDef q.cls).engineDraw, flash := b01 (s.appendPagesIn q) })
  else if op = opREAD then { z with dram := 16, flash := 1 }
  else if op = opDELIVER then { z with dram := 16, flash := 1, spoke := 16 }
  else if op = opPIN then { z with flash := 1 }
  else if op = opSCORE then (if bits (d.b 44 1) 6 1 = 1 then { z with flash := 1 } else z)
  else if op = opFIND then { z with dram := 16, search := 1, spoke := if d.b 35 1 = 1 then 16 else 0 }
  else if op = opNEXT ∨ op = opINSERT ∨ op = opREMOVE then { z with dram := 16, search := 1 }
  else if op = opATTN then { z with dram := 16, flash := 1, engine := 1 }
  else if op = opRESHARD then (if d.b 32 1 = 2 then z else { z with dram := 16, flash := 1, spoke := 16 })
  else if op = opXFER then
    { z with dram := 16, pool := 16, flash := b01 (s.xferPagesIn d), spoke := if d.b 32 1 = 1 ∧ s.mirrors (d.b 33 1) then 16 else 0 }
  else z

/-- A needed resource whose live budget is zero (R47). -/
def State.zeroBudget (s : State) (d : Desc) : Bool :=
  let n := s.needs d
  let b := s.budget (s.partOf d.tid)
  let miss (n b : Nat) : Bool := n != 0 && b == 0
  miss n.dram b.dram || miss n.flash b.flash || miss n.engine b.engine || miss n.search b.search || miss n.spoke b.spoke ||
    miss n.pool b.pool

/-- The opcode's SID must name an OPEN sequence of the tenant (R127, R139). -/
def opSidCheck (d : Desc) : Bool :=
  !(opNoSid d.opcode) && d.opcode != opFORK && !(d.opcode == opRESHARD && d.b 32 1 == 2)

/-- The common checks of R127 in order: status and DETAIL of the one that fails. -/
def State.admitFail (s : State) (d : Desc) : Option (Nat × Nat) :=
  if !rightsOk d then some (stDENIED, 0)
  else if s.zeroBudget d then some (stDENIED, 0)
  else if opSidCheck d && (s.openSeq d.tid d.sid).isNone then some (stNOTFOUND, 0x0121)
  else none

/-- A work admitted (R42, R43, R125): it leaves the fetched state; a stream opcode takes its stream; an empty execution window is
counted, also that of a descriptor which its admission then refuses (DESIGN CHOICE, log 83). -/
def State.enter (s : State) (id : Nat) : State :=
  match s.work id with
  | none => s
  | some w =>
    let s1 := s.updWork id fun w => { w with phase := 1, admitted := s.stroke, stream := opStream w.d.opcode }
    if w.d.deadline ≠ 0 ∧ w.d.deadline ≤ w.d.notBefore then s1.sat SYS.EMPTY_WINDOW_COUNT.COUNT else s1

/-- Admission with the common checks, then an opcode's own part. -/
def State.admitWith (s : State) (id : Nat) (k : State → Work → State) : State :=
  match s.work id with
  | none => s
  | some w =>
    if w.phase ≠ 0 then s
    else
      let s1 := s.enter id
      match s.admitFail w.d with
      | some (st, dt) => s1.latch id st dt 0
      | none =>
        match s1.work id with
        | none => s1
        | some w1 => k s1 w1

/-- An earlier descriptor of the same SQ is fetched and not admitted: those of one SQ are admitted in ring order (R123). -/
def State.behind (s : State) (w : Work) : Bool :=
  s.wk.works.any fun v => v.phase == 0 && decide (v.id < w.id) && v.d.tid == w.d.tid && v.d.sq == w.d.sq

/-- What holds a fetched work back from admission now: the Stroke of its latch, an earlier one of its SQ, its tenant's reset, NOT_BEFORE, a
FENCE, a stream (R42, R123, R125, R133, R427). -/
def State.mayAdmit (s : State) (w : Work) : Bool :=
  w.phase == 0 && decide (w.fetched < s.stroke) && !s.behind w && !s.draining w.d.tid && decide (w.d.notBefore ≤ s.stroke) &&
    !s.fenced w && (!opStream w.d.opcode || s.streamTurn w)

/-- The fetched and unadmitted work of a descriptor's ring position. -/
def State.findFetched (s : State) (d : Desc) : Option Work :=
  s.wk.works.find? fun w => w.d.tid = d.tid ∧ w.d.sq = d.sq ∧ w.d.count = d.count

/-- The admission of a descriptor as a command of its own (log 22): the work fetched for its ring position, or one that the command
brings, which counts as latched in the Stroke that the last boundary ended (R42); a descriptor that is held back stays fetched. -/
def State.rowAdmit (s : State) (op : Nat) (d : Desc) (k : State → Nat → State) : State :=
  if !s.working || s.phase != phRELEASED then s
  else
    let d := { d with opcode := op, body := padTo 32 d.body }
    match s.findFetched d with
    | some w => if w.d.opcode = op ∧ s.mayAdmit w then k s w.id else s
    | none =>
      let m := d.malformed 0
      if s.draining d.tid ∨ s.tier.quiesce then s
      else if m ≠ 0 then (s.newWork d).1.latch s.wk.next stIGNORED m 0
      else
        let (s1, id) := s.newWorkAt d (s.stroke - 1)
        match s1.work id with
        | none => s1
        | some w => if s1.mayAdmit w then k s1 id else s1

/-! ### NOP and FENCE -/

/-- NOP at admission (R134). -/
def State.admitNop (s : State) (id : Nat) : State := s.admitWith id fun s w => s.latch w.id stDONE 0 0

/-- An earlier fetched work in a FENCE's scope is still outstanding (R133). -/
def State.covering (s : State) (f : Work) : Bool :=
  s.wk.works.any fun w => decide (w.id < f.id) && w.d.tid == f.d.tid && (f.d.b 32 1 == 1 || w.d.sq == f.d.sq)

/-- FENCEs whose last covered completion is written: latched now (R133). -/
def State.settleFences (s : State) : State :=
  (s.wk.works.filter fun w => w.d.opcode = opFENCE ∧ w.phase = 1).foldl
    (fun s w => if s.covering w then s else s.latch w.id stDONE 0 0) s

/-- FENCE at admission (R133). -/
def State.admitFence (s : State) (id : Nat) : State := s.admitWith id fun s _ => s.settleFences

/-- NOP (R134). -/
def execNop (d : Desc) (s : State) : Res := .next (s.rowAdmit opNOP d fun s id => s.admitNop id)

/-- FENCE (R133). -/
def execFence (d : Desc) (s : State) : Res := .next (s.rowAdmit opFENCE d fun s id => s.admitFence id)

/-! ### Completions (R118, R128, R129, R132) -/

/-- The 32 bytes of a completion (Table 6-4). -/
def State.complBytes (s : State) (w : Work) : List Byte :=
  let d := w.d
  let tail := (s.cqc d.tid w.cq).tail
  let phase := (tail / s.cqLen d.tid w.cq + 1) % 2
  let bad := w.status = stIGNORED
  leBytes 4 d.userTag ++ leBytes 4 (if w.newSid ≠ 0 then w.newSid else d.sid) ++ leBytes 2 w.slot ++
    leBytes 1 (d.sq + 128 * phase) ++ leBytes 1 w.status ++ leBytes 2 w.flags ++ leBytes 1 (if bad then 0xFF else d.opcode) ++
    leBytes 1 (if bad then 0 else extentUnit d.opcode) ++ leBytes 4 w.extent ++ leBytes 4 w.results.length ++
    leBytes 6 w.latchedAt ++ leBytes 2 w.detail

/-- The order of completions latched in one cycle: SQ number, then INDEX (R129). -/
def State.cycleKey (s : State) (id : Nat) : Nat × Nat := ((s.work id).map fun w => (w.d.sq, w.slot)).getD (0, 0)

/-- Completions latched in one cycle, those after the first `n`, put into their order (R129). -/
def State.sameCycle (s : State) (n : Nat) : State :=
  { s with wk := { s.wk with latched := s.wk.latched.take n ++ inOrder s.cycleKey (s.wk.latched.drop n) } }

/-- Result records as far as whole ones fit the buffer (R132). -/
def fitRecords : Nat → List (List Byte) → List Byte
  | _, [] => []
  | room, r :: t => if r.length ≤ room then r ++ fitRecords (room - r.length) t else []

/-- One latched completion written in step 2 of the boundary (R128, R129): the work's own writes, the completion, CQ_TAIL. The
work is then no longer outstanding. A CQ that a drain disabled takes none (R429). -/
def State.postCompletion (s : State) (id : Nat) : State :=
  match s.work id with
  | none => s
  | some w =>
    let d := w.d
    let s1 := w.writes.foldl (fun s x => s.memWrite x.1 x.2) s
    let s2 := if d.resultUnits = 0 then s1 else s1.memWrite d.resultAddr (fitRecords (d.resultUnits * 64) w.results)
    let c := w.cq
    let quiet := (d.quiet && w.status == stDONE && w.flags == 0) || !s.cqOn d.tid c
    let cq := s.cqc d.tid c
    let s3 :=
      if quiet then s2
      else
        (s2.memWrite (s.ringBase d.tid c 0x80 + 32 * (cq.tail % s.cqLen d.tid c)) (s2.complBytes w)).setCqc d.tid c
          { cq with tail := (cq.tail + 1) % 2 ^ 32, unsig := cq.unsig + 1,
                    oldest := if cq.unsig = 0 then s.stroke else cq.oldest,
                    force := cq.force || d.urgent || decide (0x20 ≤ w.status) }
    let p := s3.stat d.tid
    let s4 := if w.status = stIGNORED then s3.setStat d.tid { p with ignored := min (p.ignored + 1) 0xFFFFFFFF } else s3
    { s4 with wk := { s4.wk with works := s4.wk.works.filter (·.id ≠ id), latched := s4.wk.latched.filter (· ≠ id) } }

/-- Interrupt moderation (R135), at every boundary: at most one message per CQ; an FLR's drain signals none (R429). -/
def State.signalCqs (s : State) : State :=
  s.ring.cq.foldl (fun s x =>
    let tid := x.1 / 8
    let c := x.1 % 8
    let cq := s.cqc tid c
    let count := max 1 (s.fn tid c FN.CQ_MODERATION.COUNT)
    let strokes := s.fn tid c FN.CQ_MODERATION.STROKES
    if s.cqOn tid c && !(s.part.drains.any fun r => r.tid == tid && r.flr) && s.fn tid c FN.CQ_CTRL.IRQ_ENABLE == 1 && cq.unsig != 0 &&
        (decide (count ≤ cq.unsig) || (strokes != 0 && decide (strokes ≤ s.stroke - cq.oldest)) || cq.force) then
      (s.setCqc tid c { cq with unsig := 0, force := false }).signal tid (s.fn tid c FN.CQ_CTRL.VECTOR)
    else s) s

end Sys2Proof.Machine
end

