-- ==== Sys2Proof/Machine/Tables.lean ====
section
/-! DEFINITION. What the translation area and the share records hold as words: leaves, upper entries, tables and records (R153 to R156,
Tables 7-5 and 7-7). The state keeps leaves and pages as data; these are the words that the area holds for them. -/

namespace Sys2Proof.Machine

/-- The leaf of a page in the direct form, `pinned` being the sequence's own bit; a share record holds it with the bit 0 (Table 7-7). -/
def Page.leafWord (g : Page) (pinned : Bool) : Nat :=
  if g.st = 0 then 0
  else
    g.tier + (if g.st = 6 then 0 else sectorsOf g.hdr g.body) * 2 ^ 3 + g.gen % 256 * 2 ^ 8 + b01 (hdrProt g.hdr) * 2 ^ 16 +
      b01 pinned * 2 ^ 17 + b01 (hdrLatent g.hdr) * 2 ^ 18 + b01 (hdrRaw g.hdr) * 2 ^ 19 + b01 (hdrSizeRaw g.hdr) * 2 ^ 20 +
      g.place % 2 ^ 40 * 2 ^ 24

/-- The leaf that points to a page's share record: TIER SHARED, no SECTORS, FRAME the record's index (R155). -/
def Page.sharedWord (g : Page) (pinned : Bool) : Nat :=
  3 + g.gen % 256 * 2 ^ 8 + b01 (hdrProt g.hdr) * 2 ^ 16 + b01 pinned * 2 ^ 17 + b01 (hdrLatent g.hdr) * 2 ^ 18 +
    b01 (hdrRaw g.hdr) * 2 ^ 19 + b01 (hdrSizeRaw g.hdr) * 2 ^ 20 + Config.recordIndex g.pid % 2 ^ 40 * 2 ^ 24

/-- The leaf word of a tenant's DVA page: 0, UNWRITTEN, where no sequence has a leaf there. -/
def State.leafWord (s : State) (tid dva : Nat) : Nat :=
  match s.sq.seqs.find? fun q => q.tid = tid ∧ q.base ≤ dva ∧ dva < q.base + q.pages with
  | none => 0
  | some q =>
    match s.leafAt q.idx (dva - q.base) with
    | none => 0
    | some l => ((s.pageBy l.pid).map fun g => if g.shared then g.sharedWord l.pinned else g.leafWord l.pinned).getD 0

/-- The area holds this table of a tenant. -/
def State.hasTable (s : State) (tid level key : Nat) : Bool := s.sq.xitems.any fun i => i.tid == tid && i.level == level && i.key == key

/-- Which of its trees a tenant has: the number of rebuilds that gave it a new root (R164). -/
def State.rootOf (s : State) (tid : Nat) : Nat := (kvFind s.sq.roots tid).getD 0

/-- The address of a tenant's root table, held as the address of its L3 table (R153, R164). -/
def State.rootAddr (s : State) (tid : Nat) : Nat := Config.tableAddr tid (s.rootOf tid) 3 0 % 2 ^ 39 * 2 ^ 12

/-- The entry above table `key` of a level: PRESENT and the table's address, or 0 (R154). -/
def State.upperEntry (s : State) (tid level key : Nat) : Nat :=
  if s.hasTable tid level key then 1 + Config.tableAddr tid (s.rootOf tid) level key % 2 ^ 39 * 2 ^ 12 else 0

/-- The 512 entries of a tenant's table: leaves in an L0 table, entries to the next level above (R153). -/
def State.tableWords (s : State) (tid level key : Nat) : List Nat :=
  (List.range 512).map fun i =>
    match level with
    | 0 => s.leafWord tid (key * 512 + i)
    | n + 1 => s.upperEntry tid n (key * 512 + i)

/-- The 16 bytes of a page's share record: its leaf, REFS, PINS (R156). -/
def State.shareRecord (s : State) (g : Page) : List Byte :=
  leBytes 8 (g.leafWord false) ++ leBytes 4 (s.refsOf g.pid) ++ leBytes 2 (s.pinsOf g.pid) ++ zeros 2

end Sys2Proof.Machine
end

