-- ==== Sys2Proof/Machine/Seq.lean ====
section
/-! DEFINITION. Chapter 7: opening, closing and forking sequences, and the rebuild of a translation tree (R137 to R164, R241,
R265). -/

namespace Sys2Proof.Machine

def dtSEQ_CAP : Nat := 0x0111
def dtNO_KEY : Nat := 0x0112
def dtNO_SPACE : Nat := 0x0113
def dtNO_CLASS : Nat := 0x0114
def dtSOURCE : Nat := 0x0121
def dtTARGET : Nat := 0x0122
def dtNOT_EMPTY : Nat := 0x0123
def dtBUSY : Nat := 0x0124
def dtGEOMETRY : Nat := 0x0125
def dtBEYOND : Nat := 0x0101
def dtWRAPPED : Nat := 0x0102
def dtWINDOW_FULL : Nat := 0x0103
def dtAREA_FULL : Nat := 0x0104
def dtEXTENT_LIMIT : Nat := 0x0105
def dtCONST_LAYERS : Nat := 0x0501

/-! ### SEQ_OPEN -/

/-- The first index from `i` up that no sequence has: an adopt may have issued it (R64). -/
def skipUsed (used : List Nat) : Nat → Nat → Nat
  | 0, i => i
  | n + 1, i => if used.contains i then skipUsed used n (i + 1) else i

/-- The lowest index that was never issued. -/
def State.freshIndex (s : State) : Nat :=
  let used := s.sq.seqs.map (·.idx) ++ s.sq.closed.map (·.1) ++ s.sq.freed
  skipUsed used used.length s.sq.fresh

/-- The index the free list gives next (R138): indices never issued in ascending order, then the longest freed. -/
def State.nextIndex (s : State) : Option Nat :=
  if s.freshIndex < 2 ^ 24 then some s.freshIndex else s.sq.freed.head?

/-- That index taken from the free list. -/
def State.takeIndex (s : State) : State :=
  if s.freshIndex < 2 ^ 24 then s.setSq fun x => { x with fresh := s.freshIndex + 1 }
  else s.setSq fun x => { x with freed := x.freed.drop 1 }

/-- The lowest aligned base at which a window fits the tenant's 2^36 DVA pages (R141; DESIGN CHOICE, log 21). -/
def State.windowBase (s : State) (tid pages : Nat) : Option Nat :=
  let al := pow2Up pages
  let ws := (s.sq.seqs.filter (·.tid = tid)).map fun q => (q.base, q.base + q.pages)
  let cands := (0 :: ws.map (·.2)).map fun e => (e + al - 1) / al * al
  let fits (b : Nat) : Bool := decide (b + pages ≤ 2 ^ 36) && ws.all fun w => decide (b + pages ≤ w.1) || decide (w.2 ≤ b)
  (cands.filter fits).foldl (fun a b => match a with
    | none => some b
    | some m => some (min m b)) none

/-- SEQ_OPEN's checks of R146 and R265 in order: the DETAIL of the one that fails. -/
def State.openFail (s : State) (d : Desc) : Nat :=
  let cls := d.b 34 1
  let prot := bits (d.b 35 1) 1 1 = 1
  let cd := s.classDef cls
  if s.get XLAT.SEQ_CAP.CAP d.tid ≤ (s.sq.seqs.filter (·.tid = d.tid)).length then dtSEQ_CAP
  else if !s.classDefined cls then dtNO_CLASS
  else if prot ∧ (kvFind s.part.keys d.tid).isNone then dtNO_KEY
  else if s.nextIndex.isNone ∨ (s.windowBase d.tid (d.b 36 4 * d.b 32 2)).isNone then dtNO_SPACE
  else if cd.latent ∧ s.get CMPR.CONST_LAYERS.SET_LAYERS cd.set < d.b 32 2 then dtCONST_LAYERS
  else 0

/-- A tenant's root table, taken at the first SEQ_OPEN that finds room in the area for it (R153; DESIGN CHOICE, log 90). -/
def State.rootFor (s : State) (tid : Nat) : State := (s.addItem tid 3 0).getD s

/-- SEQ_OPEN at admission (R140, R141, R146): the sequence is OPEN with L = 0 and no table below the root; its SEQ record is logged
(R212). -/
def State.admitOpen (s : State) (id : Nat) : State :=
  s.admitWith id fun s w =>
    let d := w.d
    let f := s.openFail d
    match s.nextIndex, s.windowBase d.tid (d.b 36 4 * d.b 32 2) with
    | some idx, some base =>
      if f ≠ 0 then s.latch id stDENIED f 0
      else
        let q : Seq :=
          { idx := idx, gen := s.genOf idx, tid := d.tid, closing := false, layers := d.b 32 2, cls := d.b 34 1, slots := d.b 36 4,
            ring := bits (d.b 35 1) 0 1 = 1, prot := bits (d.b 35 1) 1 1 = 1, btLog := (s.classDef (d.b 34 1)).btLog, len := 0,
            base := base }
        let s1 := s.takeIndex.setSq fun x => { x with seqs := x.seqs ++ [q] }
        (((s1.rootFor d.tid).logKv d.tid (recSeq q)).updWork id fun w => { w with newSid := q.sid }).latch id stDONE 0 0
    | _, _ => s.latch id stDENIED f 0

/-- SEQ_OPEN (R145, R146). -/
def execSeqOpen (d : Desc) (s : State) : Res := .next (s.rowAdmit opOPEN d fun s id => s.admitOpen id)

/-! ### SEQ_CLOSE -/

/-- SEQ_CLOSE at admission (R147): the sequence becomes CLOSING. -/
def State.admitClose (s : State) (id : Nat) : State :=
  s.admitWith id fun s w =>
    match s.openSeq w.d.tid w.d.sid with
    | none => s
    | some q => s.setSeq { q with closing := true }

/-- SEQ_CLOSE (R147). -/
def execSeqClose (d : Desc) (s : State) : Res := .next (s.rowAdmit opCLOSE d fun s id => s.admitClose id)

/-- A descriptor that commits a length at the boundary that writes its completion (R143). -/
def committing (w : Work) : Bool := w.phase == 2 && w.active

/-- A descriptor other than the close runs on the sequence (R147): admitted and not ended, or with a length still to commit (DEDUCED,
log 91). -/
def State.busyOn (s : State) (q : Seq) : Bool :=
  s.wk.works.any fun w => (w.phase == 1 || committing w) && w.d.opcode != opCLOSE && w.d.tid == q.tid &&
    (w.d.sid == q.sid || (w.d.opcode == opFORK && w.d.b 32 4 == q.sid))

/-- Search entries that name a sequence (R240). -/
def State.entriesOf (s : State) (sid : Nat) : List Entry := s.srch.entries.filter (·.sid = sid)

/-- Every leaf of a sequence dropped: references and pins end (R147). -/
def State.dropSeqPages (s : State) (q : Seq) : State :=
  ((s.sq.leaves.filter (·.sq = q.idx)).map (·.p)).foldl (fun s p => s.dropLeaf q.idx p) s

/-- Pages staged for a sequence leave the card: those of a ring (R152) and those of an epoch to come (R345). -/
def State.dropStaged (s : State) (q : Seq) : State :=
  let mine := (s.wk.staged.filter (·.1 = q.idx)).map (·.2.2)
  mine.foldl State.gcPage
    { s with
      chain := { s.chain with staged := s.chain.staged.filter (·.sq ≠ q.idx) }
      wk := { s.wk with staged := s.wk.staged.filter (·.1 ≠ q.idx) } }

/-- The close of a sequence runs (R147, R138, R241, R212, R345): staged pages and pages released, CLOSE logged, generation advanced, the index freed
unless prefix entries still name it. -/
def State.runClose (s : State) (q : Seq) : State :=
  let s0 := s.dropStaged q
  let s1 := ((s0.dropSeqPages q).trimTables q.tid).logKv q.tid (recClose q)
  let gone := (s.entriesOf q.sid).isEmpty
  s1.setSq fun x => { x with
    seqs := x.seqs.filter (·.idx ≠ q.idx), gens := kvSet x.gens q.idx (q.gen % 255 + 1),
    freed := if gone then x.freed ++ [q.idx] else x.freed, closed := if gone then x.closed else x.closed ++ [(q.idx, q.tid)] }

/-- CLOSE_RUN (R147): once the last earlier descriptor has ended. -/
def execCloseRun (idx : Nat) (s : State) : Res :=
  match s.seqIdx idx with
  | none => .next s
  | some q =>
    match s.wk.works.find? fun w => w.phase = 1 ∧ w.d.opcode = opCLOSE ∧ w.d.tid = q.tid ∧ w.d.sid = q.sid with
    | none => .next s
    | some w => if !s.working || !q.closing || s.busyOn q then .next s else .next ((s.runClose q).latch w.id stDONE 0 0)

/-- The search chunks that run, by work and position (R231). -/
def State.searching (s : State) : List (Nat × Nat) :=
  (s.wk.works.filter fun w => w.d.opcode = opFIND ∨ w.d.opcode = opNEXT).flatMap fun w => w.run.map fun r => (w.id, r.idx)

/-- An address whose VALID bit is cleared is held while a search chunk runs (R231). -/
def State.holdEntry (s : State) (a : Nat) : State :=
  if s.searching = [] then s else { s with srch := { s.srch with held := s.srch.held ++ [(a, s.searching)] } }

/-- SRCH.SHADOW_PENDING: the entries whose tokens are still to be read back (R258). -/
def State.notePending (s : State) : State :=
  s.put SRCH.SHADOW_PENDING.ENTRIES (s.srch.entries.filter (·.tokens.isNone)).length

/-- An entry removed with its log record: w + 1 cycles, its address held while a search chunk runs (R229, R231, R240, R257). -/
def State.removeEntry (s : State) (tid : Nat) (e : Entry) : State :=
  let s1 := s.holdEntry e.addr
  let s2 := { s1 with srch := { s1.srch with entries := s1.srch.entries.filter (·.addr ≠ e.addr) } }
  (s2.notePending.logKv tid (recPrefix true e.low e.sid e.ns 0 e.block 0)).add64 SRCH.SEARCHES_LO.off (e.width + 1)

/-- Removal of every entry of a closed sequence (R241, R257). -/
def State.dropEntries (s : State) (tid : Nat) (es : List Entry) : State := es.foldl (fun s e => s.removeEntry tid e) s

/-- CLOSE_ENTRIES_REMOVED (R241): the closed sequence's entries are gone from every namespace and its index joins the free list; not while the Brake has halted search (R253). -/
def execCloseEntriesRemoved (idx : Nat) (s : State) : Res :=
  match s.sq.closed.find? (·.1 = idx) with
  | none => .next s
  | some c =>
    if !s.working || s.flag SRCH.BRAKE_STATUS.HALTED then .next s
    else
      let es := s.srch.entries.filter fun e => sidIdx e.sid = idx ∧ s.seqIdx idx = none
      .next ((s.dropEntries c.2 es).setSq fun x => { x with closed := x.closed.filter (·.1 ≠ idx), freed := x.freed ++ [idx] })

/-! ### SEQ_FORK -/

/-- A fork that runs and involves a sequence (R148, R150). -/
def State.forkOn (s : State) (sid : Nat) : Bool :=
  s.wk.works.any fun w => w.phase == 1 && w.d.opcode == opFORK && (w.d.sid == sid || w.d.b 32 4 == sid)

/-- A fork that runs has the sequence as its target: descriptors on it other than reads wait (R150). -/
def State.forkTarget (s : State) (sid : Nat) : Bool :=
  s.wk.works.any fun w => w.phase == 1 && w.d.opcode == opFORK && w.d.b 32 4 == sid

/-- Another fork than `id` that runs has the sequence as its target (R150). -/
def State.otherTarget (s : State) (id sid : Nat) : Bool :=
  s.wk.works.any fun w => w.id != id && w.phase == 1 && w.d.opcode == opFORK && w.d.b 32 4 == sid

/-- Blocks a fork shares (R149). -/
def forkBlocks (d : Desc) (src : Seq) : Nat :=
  if src.ring then min src.fin src.slots else min (d.b 36 4) src.fin

/-- SEQ_FORK's checks (R148) in order; `id` is the fork itself. -/
def State.forkFail (s : State) (id : Nat) (d : Desc) : Nat :=
  match s.openSeq d.tid d.sid with
  | none => dtSOURCE
  | some a =>
    match s.openSeq d.tid (d.b 32 4) with
    | none => dtTARGET
    | some t =>
      if t.len ≠ 0 then dtNOT_EMPTY
      else if s.wk.works.any fun w => w.id != id && w.phase == 1 && w.d.opcode == opFORK && w.d.tid == d.tid &&
          (w.d.sid == t.sid || w.d.b 32 4 == t.sid) then dtBUSY
      else if t.layers ≠ a.layers ∨ t.cls ≠ a.cls ∨ t.ring ≠ a.ring ∨ t.prot ≠ a.prot ∨ (a.ring ∧ t.slots ≠ a.slots) ∨
          (¬ a.ring ∧ t.slots < forkBlocks d a) then dtGEOMETRY
      else 0

/-- Blocks that a fork shares of its source as it stands. -/
def State.forkedBlocks (s : State) (d : Desc) : Nat := ((s.seqBySid d.tid d.sid).map (forkBlocks d)).getD 0

/-- SEQ_FORK at admission (R148): the block count that was checked stands (DEDUCED, log 92). -/
def State.admitFork (s : State) (id : Nat) : State :=
  s.admitWith id fun s w =>
    let f := s.forkFail id w.d
    if f ≠ 0 then s.latch id stNOTFOUND f 0
    else s.updWork id fun w => { w with aux := .fork (sidIdx (w.d.b 32 4)) [] (s.forkedBlocks w.d) false 0 }

/-- SEQ_FORK (R148). -/
def execSeqFork (d : Desc) (s : State) : Res := .next (s.rowAdmit opFORK d fun s id => s.admitFork id)

/-- A chunk that writes the sequence runs (R150). -/
def State.writerRuns (s : State) (q : Seq) : Bool :=
  s.wk.works.any fun w => w.d.tid == q.tid && w.d.sid == q.sid && !w.run.isEmpty &&
    (w.d.opcode == opAPPEND || (w.d.opcode == opXFER && w.d.b 32 1 == 0))

/-- Blocks a fork counted at its admission. -/
def Work.forkCount (w : Work) : Nat :=
  match w.aux with
  | .fork _ _ n _ _ => n
  | _ => 0

/-- A fork begins (R149, R150): what it will share and the length it gives. A ring's live blocks are those of its begin. -/
def State.beginFork (s : State) (w : Work) (a : Seq) : State :=
  let n := if a.ring then a.slots else w.forkCount
  -- the block that a ring's slot holds for a reader, if it is live
  let live (sl : Nat) : Bool := !a.ring || decide (a.tail + (sl + a.slots - a.tail % a.slots) % a.slots < a.fin)
  let todo := ((s.sq.leaves.filter fun l => l.sq = a.idx ∧ l.p / a.layers < n ∧ live (l.p / a.layers)).map fun l => (l.p, l.pid))
  let len := if a.ring then a.len else min (n * a.bt) a.len
  s.updWork w.id fun w => { w with aux := .fork (sidIdx (w.d.b 32 4)) todo n true len }

/-- One page shared into the target: a share record where the page has none, the target's tables, its leaf (R151, R156). None when
the translation area is full. -/
def State.sharePage (s : State) (t : Seq) (p pid : Nat) : Option State :=
  (s.addItem t.tid 4 pid).bind fun s1 =>
    (s1.addTables t.tid (t.base + p)).map fun s2 => (s2.updPage pid fun g => { g with shared := true }).setLeaf t p pid

/-- A fork's end (R149, R212): the target's length, FORK and LENGTH logged, the completion latched. -/
def State.endFork (s : State) (w : Work) (a t : Seq) (len : Nat) : State :=
  let t1 := { t with len := len }
  let s1 := s.setSeq t1
  let n := if a.ring then 0xFFFFFFFF else w.forkCount
  ((s1.logKv t.tid (recFork a t n)).logKv t.tid (recLength t1)).latch w.id stDONE 0 0

/-- A fork that cannot finish (R150, R163): its shares removed, the target empty. -/
def State.undoFork (s : State) (t : Seq) : State := s.dropSeqPages t

/-- Pages of one fork shared at a boundary, at most `n`; answers what is left of `n` (R149). -/
def State.forkPages (s : State) (id : Nat) (a t : Seq) : Nat → State
  | 0 => s
  | n + 1 =>
    match s.work id with
    | none => s
    | some w =>
      match w.aux with
      | .fork tg todo n0 b len =>
        (match todo with
          | [] => s
          | x :: rest =>
            match s.sharePage t x.1 x.2 with
            | some s1 => (s1.updWork id fun w => { w with aux := .fork tg rest n0 b len }).forkPages id a t n
            | none => ((s.undoFork t).sat XLAT.AREA_FULL_COUNT.COUNT).latch id stPARTIAL dtAREA_FULL 0)
      | _ => s

/-- What a fork still has to share. -/
def Aux.forkTodo (a : Aux) : List (Nat × Nat) :=
  match a with
  | .fork _ todo _ _ _ => todo
  | _ => []

/-- Running forks in the order in which a boundary serves them: partitions rotating, each boundary from the one after that served first
at the boundary before (R149). -/
def State.forkOrder (s : State) : List Work :=
  let fs := s.wk.works.filter fun w => w.phase = 1 ∧ w.d.opcode = opFORK
  let key (w : Work) : Nat := (s.partOf w.d.tid + 127 - s.bnd.forkRot % 128) % 128
  (List.range 128).flatMap fun k => fs.filter fun w => key w = k

/-- The rotation of the forks goes on to the partition served first. -/
def State.turnForks (s : State) (order : List Work) : State :=
  match order with
  | [] => s
  | w :: _ => { s with bnd := { s.bnd with forkRot := s.partOf w.d.tid } }

/-- Running forks served at a boundary (R149): 2,048 pages per µs of period in all. A fork whose source is the target of another one
waits (R150). -/
def State.serveForks (s : State) : State :=
  let order := s.forkOrder
  (order.foldl (fun (acc : State × Nat) w =>
    let s := acc.1
    match s.seqBySid w.d.tid w.d.sid, s.seqBySid w.d.tid (w.d.b 32 4) with
    | some a, some t =>
      let begun := match w.aux with
        | .fork _ _ _ b _ => b
        | _ => false
      if !begun && (s.writerRuns a || s.otherTarget w.id a.sid) then acc
      else
        let s1 := if begun then s else s.beginFork w a
        let left (s : State) : Nat := (s.work w.id).elim 0 fun w => w.aux.forkTodo.length
        let s2 := s1.forkPages w.id a t acc.2
        let used := left s1 - left s2
        (match s2.work w.id with
          | none => (s2, acc.2 - used)
          | some w2 =>
            match w2.aux with
            | .fork _ [] _ _ len => (if w2.phase = 1 then s2.endFork w2 a t len else s2, acc.2 - used)
            | _ => (s2, acc.2 - used))
    | _, _ => acc) (s.turnForks order, 2048 * s.period)).1

/-! ### Rebuild of a translation tree (R164) -/

/-- Table chunks a copy of a tenant's live tables and records fills. -/
def State.rebuildNeed (s : State) (tid : Nat) : Nat :=
  cdiv (((s.sq.xitems.filter (·.tid = tid)).map XItem.slots).foldl (· + ·) 0) chunkSlots

/-- XLAT.REBUILD_CTRL.START on the selected tenant (R164, Table 7-9). -/
def hRebuildCtrl : Handler :=
  { Handler.plain with
    act := fun s tid v =>
      if fieldGet v 0 1 = 0 then s
      else
        let mine := s.sq.rebuild.any (·.tid = tid)
        let cause :=
          if s.tenState tid = 0 then 1 else if s.sq.rebuild.isSome then 2
          else if s.chunksFree < s.rebuildNeed tid then 3 else 0
        if cause = 0 then
          ((s.put XLAT.REBUILD_STATUS.STATE 1 tid).put XLAT.REBUILD_STATUS.CAUSE 0 tid).setSq fun x =>
            { x with rebuild := some ⟨tid, s.rebuildNeed tid⟩ }
        else
          let s1 := s.put XLAT.REBUILD_STATUS.CAUSE cause tid
          if mine then s1 else s1.put XLAT.REBUILD_STATUS.STATE 4 tid }

/-- REBUILD_START (R164). -/
def execRebuildStart (s : State) : Res := .next (bar0Bit hRebuildCtrl XLAT.REBUILD_CTRL.START s)

/-- REBUILD_COPY_DONE (R164): the copy ends and the tenant's fetch stops. -/
def execRebuildCopyDone (s : State) : Res :=
  match s.sq.rebuild with
  | none => .next s
  | some r =>
    .next (if s.working ∧ s.get XLAT.REBUILD_STATUS.STATE r.tid = 1 then s.put XLAT.REBUILD_STATUS.STATE 2 r.tid else s)

/-- A tenant's items packed into chunks from a list, in order. -/
def packItems (chunks : List Nat) : List XItem → Nat → List XItem
  | [], _ => []
  | x :: t, used => { x with chunk := chunks.getD (used / chunkSlots) 0 } :: packItems chunks t (used + x.slots)

/-- The switch of a rebuild (R164): the tenant's items in as few chunks as they fill, under a new root, its cached entries removed. -/
def State.switchRebuild (s : State) : State :=
  match s.sq.rebuild with
  | none => s
  | some r =>
    -- tables first: 512 of them fill a chunk, so that none lies across two
    let own := s.sq.xitems.filter (·.tid = r.tid)
    let mine := own.filter (·.level ≠ 4) ++ own.filter (·.level = 4)
    let used := s.chunksInUse
    let free := (List.range (used.length + mine.length + 1)).filter fun c => ¬ used.contains c
    (s.setSq fun x =>
      { x with rebuild := none, roots := kvSet x.roots r.tid (s.rootOf r.tid + 1), xitems := x.xitems.filter (·.tid ≠ r.tid) ++ packItems free mine 0,
               walk := x.walk.filter (·.1 ≠ r.tid), dirs := x.dirs.filter (·.1 ≠ r.tid) }).put XLAT.REBUILD_STATUS.STATE 3 r.tid

/-- XLAT.WALK_CACHE_CTRL.FLUSH (R157). -/
def hWalkCtrl : Handler :=
  { Handler.plain with
    act := fun s _ v => if fieldGet v 0 1 = 1 then s.setSq fun x => { x with walk := [], dirs := [] } else s }

/-- WALK_CACHE_FLUSH (R157). -/
def execWalkCacheFlush (s : State) : Res := .next (bar0Bit hWalkCtrl XLAT.WALK_CACHE_CTRL.FLUSH s)

/-- XLAT.SEQ_CAP below the current count is refused (R165). -/
def hSeqCap : Handler :=
  { Handler.plain with chk := fun s tid _ v => fieldGet v 0 24 < (s.sq.seqs.filter (·.tid = tid)).length }

/-- XLAT.AREA_CTRL takes 1 to 64 GiB (Table 7-9). -/
def hAreaCtrl : Handler := { Handler.plain with chk := fun _ _ old v => fieldGet v 0 7 != fieldGet old 0 7 && outside (fieldGet v 0 7) 1 64 }

end Sys2Proof.Machine
end

