-- ==== Sys2Proof/Machine/Draws.lean ====
section
/-! DEFINITION. What every chunk shares: what a read of a block gets (R144), where a page lies in a descriptor's visiting order, the
order of service (R44), page-ins (R198, R201), losses, and how a descriptor whose chunks have all ended completes (R125, R130). -/

namespace Sys2Proof.Machine

/-- What a read of a block of a sequence gets (Table 7-2, Table 9-1). -/
inductive Gate where
  /-- Ring block below TAIL. -/
  | wrapped
  /-- Linear block at or beyond BLOCK_SLOTS. -/
  | beyond
  /-- 64 KiB of zeros with the UNWRITTEN flag. -/
  | zeros
  /-- Nothing: a loss record with a cause; whether the fault is met now. -/
  | lost (cause : Nat) (now : Bool)
  /-- On flash, or being paged in. -/
  | flash (g : Page)
  /-- In DRAM. -/
  | ready (g : Page)
  deriving DecidableEq, Repr

/-- A stored page met by a reader that expects block `b` (R158, R189). -/
def gateOf (g : Page) (b : Nat) : Gate :=
  if g.st = 0 then .zeros
  else if g.st = 6 then .lost 1 true
  else if g.st = 7 then .lost 2 false
  else if g.st = 4 ∨ g.st = 5 then .flash g
  else if hdrBLOCK g.hdr = b ∧ hdrGEN g.hdr % 256 = g.gen then .ready g else .lost 2 true

/-- A read of block `b`, layer `l` (R144). -/
def State.gate (s : State) (q : Seq) (b l : Nat) : Gate :=
  if q.ring ∧ b < q.tail then .wrapped
  else if !q.ring ∧ q.slots ≤ b then .beyond
  else if q.fin ≤ b then .zeros
  else
    match s.pageAt q.idx (q.page b l) with
    | none => .zeros
    | some g => gateOf g b

/-- What an opcode decides about its next position. -/
inductive Dec where
  /-- Not ready. -/
  | wait
  /-- Needs a new frame, and none is free (R206). -/
  | noFrame
  /-- Waits for a hook's port or slot; the state counts the wait (R308). -/
  | hookWait (s : State)
  /-- The descriptor starts no further chunk: the state so far, status and DETAIL. -/
  | stop (s : State) (status detail : Nat)
  /-- The position ends without a chunk. -/
  | pass (s : State)
  /-- A chunk: the state with what it resolved, its draw, transient references, whether it takes a new frame, its result. -/
  | go (s : State) (draw : Res6) (refs : List Nat) (frame : Bool) (res : RunRes)

/-! ### Order of service (R44) -/

/-- The deadline a work is ordered by: its own, or its admission Stroke plus the implicit horizon. -/
def State.orderOf (s : State) (w : Work) : Nat :=
  if w.d.deadline ≠ 0 then w.d.deadline
  else w.admitted + s.lget PART.IMPLICIT_HORIZON.STROKES (s.partOf w.d.tid)

/-- A partition's running works of a predicate, in order of service. -/
def State.serviceOrder (s : State) (p : Nat) (f : Work → Bool) : List Work :=
  inOrder (fun w => (s.orderOf w, w.id)) (s.wk.works.filter fun w => w.phase == 1 && s.partOf w.d.tid == p && f w)

/-- Partitions in rotating order after the one served last. -/
def State.rotation (s : State) : List Nat := (List.range 128).map fun k => (s.bnd.rot + 1 + k) % 128

/-! ### Visiting positions -/

/-- The block that a page index of a sequence holds for a reader: its slot, or in ring mode the live block of that slot. -/
def Seq.blockAt (q : Seq) (p : Nat) : Nat :=
  let sl := p / q.layers
  if q.ring then q.tail + (sl + q.slots - q.tail % q.slots) % q.slots else sl

/-- The position of block `b`, layer `l` in a descriptor's visiting order (R142, R196). -/
def State.posOf (s : State) (w : Work) (b l : Nat) : Option Nat :=
  let d := w.d
  let op := d.opcode
  if op = opAPPEND then
    (match s.seqBySid d.tid d.sid with
      | none => none
      | some q => if b < w.startLen / q.bt then none else some ((b - w.startLen / q.bt) * q.layers + l))
  else if op = opATTN then
    (match w.aux with
      | .attn a =>
        if l ≠ d.b 32 1 then none
        else (a.ranges.foldl (fun (acc : Option Nat × Nat) r =>
          match acc.1 with
          | some _ => acc
          | none => if r.1 ≤ b ∧ b < r.1 + r.2 then (some (acc.2 + (b - r.1)), 0) else (none, acc.2 + r.2)) (none, 0)).1
      | _ => none)
  else if op = opRESHARD then
    let n := bits (d.b 33 1) 0 4
    let fl := d.b 34 1
    let nl := d.b 35 1 + 1
    let fb := d.b 36 4
    let sz := d.b 40 4
    if l < fl ∨ fl + nl ≤ l ∨ b < fb ∨ fb + n * sz ≤ b then none
    else some (((b - fb) % sz * nl + (l - fl)) * n + (b - fb) / sz)
  else if op = opXFER then
    let fl := d.b 34 1
    let nl := d.b 35 1 + 1
    let fb := d.b 36 4
    if l < fl ∨ fl + nl ≤ l ∨ b < fb ∨ fb + d.b 40 4 ≤ b then none else some ((b - fb) * nl + (l - fl))
  else if opRange op then
    if l < d.fl ∨ d.fl + d.nl ≤ l ∨ b < d.fb ∨ d.fb + d.nb ≤ b then none
    else if d.order = 1 then some ((l - d.fl) * d.nb + (b - d.fb)) else some ((b - d.fb) * d.nl + (l - d.fl))
  else none

/-! ### Page-ins (R190, R194, R198) -/

/-- First sectors of the NAND pages a stored page spans (R193). -/
def Page.nands (g : Page) : List Nat :=
  match g.flash with
  | none => []
  | some f => (List.range ((f + sectorsOf g.hdr g.body - 1) / 4 - f / 4 + 1)).map fun i => (f / 4 + i) * 4

/-- READ_LAG (R194). -/
def State.readLag (s : State) : Nat := (794 + 100 * s.period - 1) / (100 * s.period)

/-- A paged-in page's delivery, read or attention chunk may start (R194, R198). -/
def State.lagged (s : State) (g : Page) : Bool := g.started == 0 || decide (g.readAt + s.readLag ≤ s.stroke)

/-- A descriptor of this kind pages in the FLASH pages of its range. -/
def pagesIn (w : Work) : Bool :=
  let op := w.d.opcode
  op == opAPPEND || op == opREAD || op == opDELIVER || op == opPIN || (op == opSCORE && bits (w.d.b 44 1) 6 1 == 1) || op == opATTN ||
    (op == opRESHARD && w.d.b 32 1 != 2) || (op == opXFER && w.d.b 32 1 == 1)

/-- A position of a RESHARD whose slice this card keeps (R342): its page is neither read nor sent. -/
def State.keptAt (s : State) (w : Work) (i : Nat) : Bool :=
  match w.aux with
  | .resh r => (r.targets[i % max 1 (bits (w.d.b 33 1) 0 4)]?).all fun t => t.2 == s.get SPOKE.MEMBER_CTRL.MEMBER_ID
  | _ => false

/-- Pages in flash that a work has still to visit, with their positions, in visiting order. -/
def State.flashAhead (s : State) (w : Work) : List (Nat × Page) :=
  match s.seqBySid w.d.tid w.d.sid with
  | none => []
  | some q =>
    if !pagesIn w || w.stop.isSome then []
    else
      let total := s.total w
      inOrder (fun x => (x.1, 0)) ((s.sq.leaves.filter (·.sq = q.idx)).filterMap fun lf =>
        let b := q.blockAt lf.p
        match s.pageBy lf.pid, s.posOf w b (lf.p % q.layers) with
        | some g, some i =>
          if (g.st = 4 ∨ g.st = 5) ∧ w.next ≤ i ∧ i < total ∧ ¬ s.keptAt w i ∧ (w.d.opcode = opAPPEND ∨ (q.tail ≤ b ∧ b < q.fin)) then some (i, g)
          else none
        | _, _ => none)

/-! ### Losses -/

/-- A page lost to a descriptor: its loss record (Table 6-10), and the fault where it is met now (R468). -/
def State.lose (s : State) (w : Work) (p cause : Nat) (now : Bool) : State :=
  let s1 := s.updWork w.id fun w => { w with losses := w.losses ++ [(p, cause)] }
  if now then s1.fault clsPAGE_LOSS 0 (tidSidInfo w.d.tid w.d.sid) else s1

/-- A coded page that does not decode where a descriptor reads it (R275). -/
def State.loseCoded (s : State) (w : Work) (p : Nat) : State := (s.lose w p 2 true).sat CMPR.DECODE_FAULTS.COUNT

/-- A flag of the completion set. -/
def State.flagWork (s : State) (id f : Nat) : State := s.updWork id fun w => { w with flags := w.flags ||| f }

/-! ### The end of a descriptor -/

/-- Its chunks have all ended: nothing runs, and it was stopped or went through its whole order. -/
def State.finished (s : State) (w : Work) : Bool :=
  w.phase == 1 && w.run.isEmpty && (w.stop.isSome || decide (s.total w ≤ w.lead))

/-- The status and DETAIL of a range descriptor that finished, the extent's limit considered (R131, Table 6-3). -/
def State.rangeStatus (s : State) (w : Work) : Nat × Nat :=
  if w.stop.isNone ∧ w.losses = [] ∧ s.overExtent w then (stPARTIAL, dtEXTENT_LIMIT) else w.endStatus

/-- A finished work's completion latched with its status and extent. -/
def State.latchEnd (s : State) (w : Work) (st : Nat × Nat) : State := s.latch w.id st.1 st.2 (s.extentOf w)

/-- A work counts one more Derailleur epoch (R19): chunks under two epochs set EPOCH_CHANGED. -/
def State.noteEpoch (s : State) (id epoch : Nat) : State :=
  s.updWork id fun w =>
    match w.epoch with
    | none => { w with epoch := some epoch }
    | some e => if e = epoch then w else { w with epoch := some epoch, flags := w.flags ||| flEPOCH }

end Sys2Proof.Machine
end

