-- ==== Sys2Proof/Machine/P384.lean ====
section
/-! DEFINITION. ECDSA on the curve P-384, which R71, R96 and R103 name for every signature: 96 bytes r then s, each
big-endian, over a SHA-384 digest, under a public point x then y. PRESUMED (log 107): the curve's constants and the
verification are those of FIPS 186-4; the spec names the algorithm and writes none of them out. -/

namespace Sys2Proof.Machine

/-- The field's prime of P-384. -/
def p384p : Nat := 2 ^ 384 - 2 ^ 128 - 2 ^ 96 + 2 ^ 32 - 1

/-- The coefficient b of P-384; its a is −3. -/
def p384b : Nat := 0xb3312fa7e23ee7e4988e056be3f82d19181d9c6efe8141120314088f5013875ac656398d8a2ed19d2a85c8edd3ec2aef

/-- The order of P-384's base point. -/
def p384n : Nat := 0xffffffffffffffffffffffffffffffffffffffffffffffffc7634d81f4372ddf581a0db248b0a77aecec196accc52973

/-- A point in Jacobian coordinates: (x / z², y / z³), the point at infinity with z = 0. -/
structure JPoint where
  x : Nat
  y : Nat
  z : Nat
  deriving DecidableEq, Repr

/-- P-384's base point. -/
def p384g : JPoint :=
  { x := 0xaa87ca22be8b05378eb1c71ef320ad746e1d3b628ba79b9859f741e082542a385502f25dbf55296c3a545e3872760ab7,
    y := 0x3617de4a96262c6f5d9e98bf9292dc29f8f41dbd289a147ce9da3113b5f0b8c00a60b1ce1d7e819d7a431d7c90ea0e5f, z := 1 }

/-- Difference modulo the field's prime of two reduced numbers. -/
def p384sub (a b : Nat) : Nat := (a + (p384p - b)) % p384p

/-- The double of a point. -/
def JPoint.double (q : JPoint) : JPoint :=
  let zz := q.z * q.z % p384p
  let yy := q.y * q.y % p384p
  let b := 4 * q.x * yy % p384p
  let a := 3 * p384sub q.x zz * (q.x + zz) % p384p
  let x3 := p384sub (a * a % p384p) (2 * b % p384p)
  { x := x3, y := p384sub (a * p384sub b x3 % p384p) (8 * yy * yy % p384p), z := 2 * q.y * q.z % p384p }

/-- The sum of two points. -/
def JPoint.add (q r : JPoint) : JPoint :=
  if q.z = 0 then r
  else if r.z = 0 then q
  else
    let zq := q.z * q.z % p384p
    let zr := r.z * r.z % p384p
    let u1 := q.x * zr % p384p
    let s1 := q.y * zr % p384p * r.z % p384p
    let h := p384sub (r.x * zq % p384p) u1
    let w := p384sub (r.y * zq % p384p * q.z % p384p) s1
    if h = 0 then (if w = 0 then q.double else { x := 1, y := 1, z := 0 })
    else
      let hh := h * h % p384p
      let hhh := h * hh % p384p
      let v := u1 * hh % p384p
      let x3 := p384sub (p384sub (w * w % p384p) hhh) (2 * v % p384p)
      { x := x3, y := p384sub (w * p384sub v x3 % p384p) (s1 * hhh % p384p), z := h * q.z % p384p * r.z % p384p }

/-- The bits of a number of 384 bits, the highest first. -/
def bits384 (k : Nat) : List Bool := (List.range 384).map fun i => k / 2 ^ (383 - i) % 2 == 1

/-- A multiple of a point. -/
def JPoint.mul (k : Nat) (q : JPoint) : JPoint :=
  (bits384 k).foldl (fun a b => if b then a.double.add q else a.double) { x := 1, y := 1, z := 0 }

/-- A power modulo a number, of an exponent of 384 bits. -/
def powMod384 (m a e : Nat) : Nat :=
  (bits384 e).foldl (fun x b => if b then x * x % m * a % m else x * x % m) 1

/-- The point of a public key of 96 bytes, x then y big-endian: none where the bytes spell no point of the curve (R96). -/
def p384Point (key : List Byte) : Option JPoint :=
  let x := beNat (key.take 48)
  let y := beNat ((key.drop 48).take 48)
  if x < p384p ∧ y < p384p ∧ (y * y + 3 * x) % p384p = (x * x * x + p384b) % p384p then some { x := x, y := y, z := 1 } else none

/-- ECDSA P-384 verification of a signature of 96 bytes over a SHA-384 digest under a key of 96 bytes (R71, R96). -/
def verifyP384 (key digest sig : List Byte) : Bool :=
  let r := beNat (sig.take 48)
  let w := beNat ((sig.drop 48).take 48)
  match p384Point key with
  | none => false
  | some q =>
    if r = 0 ∨ p384n ≤ r ∨ w = 0 ∨ p384n ≤ w then false
    else
      let i := powMod384 p384n w (p384n - 2)
      let t := (JPoint.mul (beNat digest * i % p384n) p384g).add (JPoint.mul (r * i % p384n) q)
      let zz := t.z * t.z % p384p
      -- x of the point is X / Z²: compared with r, and with r + n where that is still below p.
      t.z != 0 && (r * zz % p384p == t.x || (decide (r + p384n < p384p) && (r + p384n) * zz % p384p == t.x))

end Sys2Proof.Machine
end

