-- ==== Sys2Proof/Machine/Images.lean ====
section
/-! DEFINITION. Ndoaro images (chapter 4): the header's checks, frames, the load state machine, the serial slave port and
the BAR2 window. The gear slot handshake's later steps are with the Gear fabric. -/

namespace Sys2Proof.Machine

/-- Load states (Table 4-4). -/
def ldIDLE : Nat := 0
def ldHEADER_CHECK : Nat := 1
def ldRECEIVING : Nat := 2
def ldVERIFYING : Nat := 3
def ldAPPLYING : Nat := 4
def ldDONE : Nat := 5
def ldREJECTED : Nat := 6

/-- The load's state. -/
def State.load (s : State) : Nat := s.get IMG.LOAD_STATE.STATE

/-- Code of a gear slot's state (Table 4-9). -/
def State.slotState (s : State) (n : Nat) : Nat := s.get { IMG.SLOT_STATE.STATE_n with lo := 4 * n, w := 4 }

/-- A gear slot's state set. -/
def State.setSlotState (s : State) (n v : Nat) : State := s.put { IMG.SLOT_STATE.STATE_n with lo := 4 * n, w := 4 } v

/-- A gear slot state change due at the next boundary (R94). -/
def State.slotAtBoundary (s : State) (n v : Nat) : State :=
  { s with img := { s.img with slotNext := kvSet s.img.slotNext n v } }

/-- Most frames an image of a kind may have (Table 4-3). -/
def kindFrames (k : Nat) : Nat := if k = 1 then 4096 else if k = 2 then 256 else if k = 3 then 16384 else 4096

/-- Whether a kind is accepted in a phase (Table 4-3). -/
def kindPhase (k ph : Nat) : Bool :=
  if k = 1 then ph == phLOAD else if k = 2 ∨ k = 3 then ph == phCONFIGURE else ph == phCONFIGURE || ph == phRELEASED

/-- IMG.MIN_VERSION_ of a kind. -/
def State.minVersion (s : State) (k : Nat) : Nat := s.get { IMG.MIN_VERSION_FW.VERSION with off := IMG.MIN_VERSION_FW.off + 4 * (k - 1) }

/-- The installer key as 96 bytes, packed as R86 packs image bytes (Table 4-10). -/
def State.installerKey (s : State) : List Byte :=
  (List.range 24).flatMap fun i => leBytes 4 (s.reg (IMG.INSTALLER_KEY.off + 4 * i)).toNat

/-- The boot ROM's Hywajan image key of an index: a public point of 96 bytes, no part of the spec (Table 4-5). -/
def romImageKey (i : Nat) : List Byte := (List.range 96).map (Config.imageKeyByte i)

/-- The first failing cause of Table 4-5 up to ROLLBACK, 0 for none (R80). -/
def State.headerCause (s : State) : Nat :=
  let h := s.img.header
  let k := leAt h 12 1
  let fc := leAt h 16 4
  let il := leAt h 20 4
  let slot := s.get IMG.LOAD_CTRL.SLOT
  let shell := (List.range 4).flatMap fun i => leBytes 4 (s.reg (IMG.SHELL_ID.off + 4 * i)).toNat
  let st := s.img.slotAt
  let isig := (h.drop 208).take 96
  let key := s.installerKey
  if leAt h 5 1 ≠ 1 ∨ leAt h 6 2 ≠ 512 then 1
  else if bits (leAt h 8 2) 0 12 ≠ 0x5D7 then 2
  else if leAt h 10 1 ≠ 0x31 then 3
  else if bits (leAt h 11 1) Config.stepping 1 ≠ 1 then 4
  else if k = 0 ∨ 4 < k ∨ ¬ kindPhase k s.phase ∨ (k = 1 ∧ s.img.fwApplied) then 5
  else if fc = 0 ∨ kindFrames k < fc ∨ il ≤ (fc - 1) * 4096 ∨ fc * 4096 < il then 6
  else if k = 4 ∧ (bits (leAt h 13 1) slot 1 ≠ 1 ∨ ¬ s.img.shellLoaded ∨ (h.drop 32).take 16 ≠ shell ∨
      ¬ (st = 0 ∨ st = 1 ∨ st = 6)) then 7
  else if 3 < leAt h 15 1 ∨ bits Config.romKeysRevoked (leAt h 15 1) 1 = 1 then 8
  else if ¬ verifyP384 (romImageKey (leAt h 15 1)) (sha384 (h.take 112)) ((h.drop 112).take 96) then 9
  else if (isig ≠ zeros 96 ∧ (key = zeros 96 ∨ ¬ verifyP384 key (sha384 (h.take 208)) isig)) ∨
      (isig = zeros 96 ∧ s.flag IMG.POLICY.REQUIRE_COUNTERSIGN) then 10
  else if leAt h 24 4 < s.minVersion k then 11
  else 0

/-- The load ends DONE (cause 0) or REJECTED: state, cause, audit entry by the installer on the owning port's path, and
SSP_ATTN_N for a rejected serial load (R83, R89, Table 5-4). -/
def State.endLoad (s : State) (cause : Nat) : State :=
  let h := s.img.header
  let k := leAt h 12 1
  let port := s.get IMG.LOAD_STATE.PORT
  let s1 := (s.put IMG.LOAD_STATE.STATE (if cause = 0 then ldDONE else ldREJECTED)).put IMG.LOAD_STATE.REJECT_CAUSE cause
  let s2 := if cause ≠ 0 ∧ port = 1 then { s1 with img := { s1.img with attn := true } } else s1
  s2.audit (1 + 4 * (if port = 1 then 2 else 1)) 2
    (k + cause * 2 ^ 8 + (if k = 4 then s.get IMG.LOAD_CTRL.SLOT else 0) * 2 ^ 16) 0 0 0 ((h.drop 64).take 16) (leAt h 24 4)

/-- The result of a header or frame as LAST shows it; only a serial transaction sets it (Table 4-7). -/
def State.setLast (s : State) (port last : Nat) : State :=
  if port = 1 then { s with img := { s.img with serialLast := last } } else s

/-- A pushed header: the transport checks, then a new load unless one is under way (R78, R79); the state of the slot that
IMG.LOAD_CTRL.SLOT names is taken now, for the check that R95 makes on it. `short` is its SHORT mark. DESIGN CHOICE (log 120): a SHORT
header leaves LAST 1, not 8; REJECT_CAUSE clears when a new header begins a load. -/
def State.pushHeader (s : State) (port : Nat) (h : List Byte) (short : Bool) : State :=
  if short || h.take 4 != [0x4E#8, 0x44#8, 0x4F#8, 0x49#8] || leAt h 508 4 != (crc32c (h.take 508)).toNat then
    (s.sat IMG.HEADER_FAIL_COUNT.COUNT).setLast port (if short then 1 else 8)
  else if 1 ≤ s.load ∧ s.load ≤ 4 then (s.sat IMG.PORT_BUSY_COUNT.COUNT).setLast port 6
  else
    let slot := s.slotState (s.get IMG.LOAD_CTRL.SLOT)
    let s1 := { s with img := { s.img with header := h, staged := [], loadSlot := none, slotAt := slot } }
    let s2 := ((s1.put IMG.LOAD_STATE.STATE ldHEADER_CHECK).put IMG.LOAD_STATE.PORT port).put IMG.LOAD_STATE.REJECT_CAUSE 0
    ((((s2.put IMG.LOAD_STATE.KIND (leAt h 12 1)).put IMG.FRAME_COUNT.COUNT (leAt h 16 4)).put
      IMG.FRAMES_ACCEPTED.COUNT 0)).setLast port 0

/-- A pushed frame: tested only in RECEIVING, placed by its number (R74, R75). `short` is its SHORT mark, `argOk` that a
serial ARG agrees with the trailer (R86). DESIGN CHOICE (log 120): a SHORT frame outside RECEIVING leaves LAST 5, not 1. -/
def State.pushFrame (s : State) (port : Nat) (f : List Byte) (short argOk : Bool) : State :=
  let num := leAt f 4096 4
  if s.load ≠ ldRECEIVING then (s.sat IMG.NO_HEADER_COUNT.COUNT).setLast port 5
  else if short || !argOk || leAt f 4124 4 != (crc32c (f.take 4124)).toNat ||
      (f.drop 4100).take 4 != (s.img.header.drop 64).take 4 then
    let s1 := (s.sat IMG.CRC_FAIL_COUNT.COUNT).setLast port (if short then 1 else 2)
    if port = 1 then { s1 with img := { s1.img with attn := true } } else s1
  else if s.get IMG.FRAME_COUNT.COUNT ≤ num then (s.sat IMG.RANGE_COUNT.COUNT).setLast port 4
  else if (kvFind s.img.staged num).isSome then (s.sat IMG.DUPLICATE_COUNT.COUNT).setLast port 3
  else
    let s1 := { s with img := { s.img with staged := kvSet s.img.staged num (f.take 4096) } }
    let s2 := (s1.put IMG.FRAMES_ACCEPTED.COUNT (s.get IMG.FRAMES_ACCEPTED.COUNT + 1)).setLast port 0
    if s2.get IMG.FRAMES_ACCEPTED.COUNT = s.get IMG.FRAME_COUNT.COUNT then s2.put IMG.LOAD_STATE.STATE ldVERIFYING else s2

/-- The serial slave port takes a transaction: out of reset, from LOAD onward, not disabled (R85, Table 4-10). -/
def State.serialOn (s : State) : Bool :=
  s.working && s.phase != phROM && !s.flag IMG.POLICY.SERIAL_DISABLE

/-- The bytes of a transaction's whole words, in the order of R86. -/
def wordBytes (ws : List Word) : List Byte := ws.flatMap fun w => leBytes 4 w.toNat

/-- SHORT mark of a transaction that needs `n` words after its command word: counted, overlong ones too (R87). -/
def State.shortMark (s : State) (n : Nat) (ws : List Word) (partialWord : Bool) : Bool × State :=
  let s1 := if n < ws.length then s.sat IMG.SERIAL_OVERLONG_COUNT.COUNT else s
  if partialWord || ws.length != n then (true, s1.sat IMG.SHORT_COUNT.COUNT) else (false, s1)

/-- The four status words (Table 4-7). -/
def State.statusWords (s : State) (cursor : Nat) : List Word :=
  let w0 := s.load + s.img.serialLast * 2 ^ 4 + s.get IMG.LOAD_STATE.REJECT_CAUSE * 2 ^ 8 + 0x4E * 2 ^ 24
  let ws := [BitVec.ofNat 32 w0, BitVec.ofNat 32 (s.missingNext cursor), s.reg IMG.FRAMES_ACCEPTED.off]
  ws ++ [crc32c (wordBytes ws)]

/-- ABORT of a load, by register or serial command (R82): ends HEADER_CHECK, RECEIVING or VERIFYING. -/
def State.abortLoad (s : State) : State := if 1 ≤ s.load ∧ s.load ≤ 3 then s.endLoad 14 else s

/-- A STATUS or ABORT transaction that clocked more than its `n` words is marked SHORT and counted; R87 marks no other of them. -/
def State.overlong (s : State) (n : Nat) (ws : List Word) : State :=
  if n < ws.length then (s.sat IMG.SERIAL_OVERLONG_COUNT.COUNT).sat IMG.SHORT_COUNT.COUNT else s

/-- STATUS (R89): the status words go out, as many as the host clocks; SSP_ATTN_N is released when all four went. DESIGN CHOICE
(log 103): LAST goes on showing the transaction before it, and SHORT after a STATUS marked SHORT. -/
def State.serialStatus (s : State) (cursor : Nat) (ws : List Word) : State :=
  let s1 := s.emit (.serial ((s.statusWords cursor).take ws.length))
  let s2 := s1.overlong 4 ws
  let s3 := if 4 ≤ ws.length then { s2 with img := { s2.img with attn := false } } else s2
  if 4 < ws.length then s3.setLast 1 1 else s3

/-- ABORT over the port (R82, Table 4-6): as IMG.LOAD_CMD.ABORT; in APPLYING counted on the serial path. DESIGN CHOICE (log 104):
LAST shows 0 after it, the one ignored in APPLYING too, and SHORT after one marked SHORT, which still acts. -/
def State.serialAbort (s : State) (ws : List Word) : State :=
  let s1 := (s.overlong 0 ws).setLast 1 (if ws = [] then 0 else 1)
  if s.load = ldAPPLYING then s1.illegal 2 causeState IMG.LOAD_CMD.off 1 else s1.abortLoad

/-- A serial transaction, its whole words in order and whether a partial word followed them (R86, R87, Table 4-6): bits 31:24 of the
first word choose the command, bits 23:0 are its ARG; another CMD discards the transaction and is counted. DESIGN CHOICE (log 120): the
ARG of a HEADER or an ABORT is not looked at; a transaction that ends before one whole command word counts nothing and leaves LAST. -/
def State.serialTxn (s : State) (ws : List Word) (partialWord : Bool) : State :=
  if !s.serialOn then s
  else
    match ws with
    | [] => s
    | w :: rest =>
      let cmd := bits w.toNat 24 8
      let arg := bits w.toNat 0 24
      if cmd = 0xA5 then
        let (short, s1) := s.shortMark 128 rest partialWord
        s1.pushHeader 1 (padTo 512 (wordBytes rest)) short
      else if cmd = 0xA6 then
        let (short, s1) := s.shortMark 1032 rest partialWord
        let f := padTo 4128 (wordBytes rest)
        s1.pushFrame 1 f short (arg == bits (leAt f 4096 4) 0 24)
      else if cmd = 0x5A then s.serialStatus arg rest
      else if cmd = 0x5B then s.serialAbort rest
      else (s.sat IMG.SERIAL_BADCMD_COUNT.COUNT).setLast 1 7

/-- A command word: CMD in bits 31:24, ARG in bits 23:0 (R86). -/
def serialWord (cmd arg : Nat) : Word := BitVec.ofNat 32 (cmd % 256 * 2 ^ 24 + arg % 2 ^ 24)

/-- HEADER (R79, R87): a serial transaction whose CMD is 0xA5. -/
def execHeaderCmd (words : List Word) (partialWord : Bool) (s : State) : Res :=
  .next (s.serialTxn (serialWord 0xA5 0 :: words) partialWord)

/-- FRAME (R74, R86, R87): a serial transaction whose CMD is 0xA6, with its ARG. -/
def execFrameCmd (arg : Nat) (words : List Word) (partialWord : Bool) (s : State) : Res :=
  .next (s.serialTxn (serialWord 0xA6 arg :: words) partialWord)

/-- STATUS (R87, R89): a serial transaction whose CMD is 0x5A, with its ARG and the words clocked after the command word. -/
def execStatusCmd (cursor : StatusTxn) (s : State) : Res :=
  .next (s.serialTxn (serialWord 0x5A cursor.cursor :: cursor.words) false)

/-- SERIAL_ABORT (R82): a serial transaction whose CMD is 0x5B, with no word after the command word. -/
def execSerialAbort (s : State) : Res := .next (s.serialTxn [serialWord 0x5B 0] false)

/-- SERIAL_BADCMD (R86, R87): a serial transaction given by its whole words. One with an unknown CMD is discarded and counted; one with a
CMD of Table 4-6 is what that CMD makes it (an ABORT of too many words is given so). -/
def execSerialBadcmd (cmd : List Word) (s : State) : Res := .next (s.serialTxn cmd false)

/-- IMG.LOAD_CMD (R82, R94): ABORT in APPLYING is refused; RECOUPLE moves every slot HELD now at the next boundary. The load that an
ABORT ends has its entry after the write's own (R107). -/
def hLoadCmd : Handler :=
  { Handler.plain with
    chk := fun s _ _ v => fieldGet v 0 1 = 1 && s.load = ldAPPLYING
    act := fun s _ v =>
      let held := (List.range 8).foldl (fun a n => if s.slotState n = 5 then a + 2 ^ n else a) 0
      if fieldGet v 1 1 = 1 then s.atBoundary (.recouple held) else s
    post := fun s v => if fieldGet v 0 1 = 1 then s.abortLoad else s }

/-- ABORT (R82): the BAR0 write of IMG.LOAD_CMD.ABORT. -/
def execAbortCmd (s : State) : Res := .next (bar0 hLoadCmd IMG.LOAD_CMD.off 1#32 s)

/-- RECOUPLE (R94): the BAR0 write of IMG.LOAD_CMD.RECOUPLE. -/
def execRecouple (s : State) : Res := .next (bar0 hLoadCmd IMG.LOAD_CMD.off 2#32 s)

/-- IMG.LOAD_CTRL.SLOT is written only in IDLE, DONE or REJECTED; MANUAL_RECOUPLE at any time (Table 4-10, R524). -/
def hLoadCtrl : Handler :=
  { Handler.plain with chk := fun s _ old v => 1 ≤ s.load && s.load ≤ 4 && fieldGet v 0 3 != fieldGet old 0 3 }

/-! ### BAR2 -/

/-- Where an offset of the BAR2 window lies (Table 4-8): 0 header area, 1 frame slot word, 2 reserved. -/
def bar2Kind (off : Nat) : Nat :=
  if off < 0x200 then 0
  else if 0x2000 ≤ off ∧ off < 0x2000 + 127 * 0x2000 ∧ (off - 0x2000) % 0x2000 < 0x1020 then 1
  else 2

/-- The window serves a write: PF0 answers, the card is not in FAULT, the window is not disabled (Table 4-10). -/
def State.bar2On (s : State) : Bool := s.pf0 && s.working && !s.flag IMG.POLICY.BAR2_DISABLE

/-- `n` words of the window from an offset; a word not written since the last submission reads zero (R91). -/
def State.bar2Words (s : State) (off n : Nat) : List Word :=
  (List.range n).map fun i => spGet (fun _ => 0#32) s.img.bar2 (off + 4 * i)

/-- `n` words of the window zeroed (R91). -/
def State.bar2Zero (s : State) (off n : Nat) : State :=
  { s with img := { s.img with bar2 := s.img.bar2.filter fun p => !(off ≤ p.1 && p.1 < off + 4 * n) } }

/-- A word stored in the window. -/
def State.bar2Put (s : State) (off : Nat) (v : Word) : State :=
  { s with img := { s.img with bar2 := spPut (fun _ => 0#32) s.img.bar2 off v } }

/-- The write to 0x0_01FC: the area is copied, zeroed and handled as a serial push; no SHORT mark (R91). -/
def State.bar2Header (s : State) (v : Word) : State :=
  let s1 := s.bar2Put 0x1FC v
  (s1.bar2Zero 0 128).pushHeader 2 (wordBytes (s1.bar2Words 0 128)) false

/-- The write to a slot's FRAME_CRC: the slot is copied, zeroed and its frame checked (R91). -/
def State.bar2Frame (s : State) (k : Nat) (v : Word) : State :=
  let base := 0x2000 + k * 0x2000
  let s1 := s.bar2Put (base + 0x101C) v
  (s1.bar2Zero base 1032).pushFrame 2 (wordBytes (s1.bar2Words base 1032)) false true

/-- BAR2_WRITE (R90): stored, or discarded and counted with cause 3 or 4. A write that submits an area acts as R91. -/
def execBar2Write (off bytes : Nat) (val : BitVec 64) (s : State) : Res :=
  if !s.bar2On then .next s
  else if bytes ≠ 4 ∨ off % 4 ≠ 0 then .next (s.illegal 1 causeWidth off val.toNat)
  else if bar2Kind off = 2 then .next (s.illegal 1 causeUnassigned off val.toNat)
  else if off = 0x1FC then .next (s.bar2Header (val.truncate 32))
  else if bar2Kind off = 1 ∧ (off - 0x2000) % 0x2000 = 0x101C then
    .next (s.bar2Frame ((off - 0x2000) / 0x2000) (val.truncate 32))
  else .next (s.bar2Put off (val.truncate 32))

/-- BAR2_HEADER_SUBMIT (R91): the write to 0x0_01FC. -/
def execBar2HeaderSubmit (val : Word) (s : State) : Res := .next (if s.bar2On then s.bar2Header val else s)

/-- BAR2_FRAME_SUBMIT (R91): the write to FRAME_CRC of frame slot k, 0 to 126. -/
def execBar2FrameSubmit (slot : Nat) (val : Word) (s : State) : Res :=
  .next (if s.bar2On && decide (slot < 127) then s.bar2Frame slot val else s)

/-! ### Ends of a load's steps -/

/-- HEADER_CHECK_DONE (R80): to RECEIVING, or REJECTED with the first failing cause. -/
def execHeaderCheckDone (s : State) : Res :=
  if !s.working || s.load != ldHEADER_CHECK then .next s
  else
    let c := s.headerCause
    .next (if c = 0 then s.put IMG.LOAD_STATE.STATE ldRECEIVING else s.endLoad c)

/-- The staged payload, frames 0 to FRAME_COUNT − 1 in order (R81). -/
def State.payload (s : State) : List Byte :=
  (List.range (s.get IMG.FRAME_COUNT.COUNT)).flatMap fun i => (kvFind s.img.staged i).getD (zeros 4096)

/-- VERIFY_DONE (R81, R94, R442): the hash decides between APPLYING and REJECTED; a HASH rejection discards every staged
frame; a fabric image is rejected APPLY while the Gear fabric is OFF; a slot image starts the handshake. -/
def execVerifyDone (s : State) : Res :=
  if !s.working || s.load != ldVERIFYING then .next s
  else
    let k := leAt s.img.header 12 1
    if sha384 s.payload ≠ (s.img.header.drop 64).take 48 then
      .next ({ s with img := { s.img with staged := [] } }.endLoad 12)
    else
      let s1 := s.put IMG.LOAD_STATE.STATE ldAPPLYING
      if (k = 3 ∨ k = 4) ∧ s.get CLK.DOMAIN_STATUS.STATE 20 = 2 then .next (s1.endLoad 13)
      else if k = 4 then
        let slot := s.get IMG.LOAD_CTRL.SLOT
        .next ({ s1 with img := { s1.img with loadSlot := some slot } }.slotAtBoundary slot 2)
      else .next s1

/-- Firmware starts on all 16 cores: phase CONFIGURE, and the system watchdog's period restarts under firmware with the
task mask it enables (R57, R448, R76). -/
def State.firmwareStart (s : State) (sysMask : Nat) : State :=
  let per := s.get WDOG.SYS_PERIOD.TICKS
  let s1 := { s with img := { s.img with fwApplied := true },
                     wd := { s.wd with halted := 0, sys := { running := true, period := per, mask := sysMask % 256, served := false, starting := false } } }
  let s2 := ((s1.put WDOG.SYS_STATUS.SERVER 1).put WDOG.SYS_STATUS.COUNT 0).put WDOG.SYS_TASKS.MASK sysMask
  ((s2.put WDOG.SYS_TASKS.DONE 0).put SYS.FW_VERSION.VERSION (leAt s.img.header 24 4)).toPhase phCONFIGURE

/-- Program 0 of every Hywajan microcode image: every compute format, bias kind, CAUSAL, latent pages, HEAD_DIM to 1,024,
and no USER format (R296, R297). Its VERSION field shows the image's program version, of which the spec gives no value:
it is the payload's, as the free value gives it. -/
def progZeroInfo (payload : List Byte) : Word :=
  fieldPut 0x3FF#32 16 16 (fieldGet (Config.progInfo payload 0) 16 16)

/-- The microcode image applied: the program stores take it whole (Table 4-3, R296, R297). -/
def State.applyUcode (s : State) : State :=
  let p := s.payload
  let s1 := { s with img := { s.img with ucode := s.img.staged } }
  let s2 := (List.range 32).foldl (fun s n =>
    let info := if n = 0 then progZeroInfo p else Config.progInfo p n
    (s.setReg ENG.PROG_INFO.off info n).setReg ENG.PROG_USER_ID.off (if n = 0 then 0#32 else Config.progUserId p n) n) s1
  s2.put SYS.UCODE_VERSION.VERSION (leAt s.img.header 24 4)

def State.setGear (s : State) (f : GearSt → GearSt) : State := { s with gear := f s.gear }

/-- The identity block shown for a slot. -/
def State.setIdent (s : State) (n : Nat) (ws : List Word) : State :=
  (List.range 16).foldl (fun s i => s.setReg (GEAR.SLOT_IDENT.off + 4 * i) (ws.getD i 0#32) n) s

/-- A slot's block memory zeroed, as it is when the slot enters EMPTY or FAILED (R304). -/
def State.zeroBlocks (s : State) (n : Nat) : State := s.setGear fun g => { g with blockMem := kvDel g.blockMem n }

/-- A byte of a slot's 2 MiB of block memory (R304). -/
def State.blockByte (s : State) (n addr : Nat) : Byte :=
  match kvFind s.gear.blockMem n with
  | none => 0#8
  | some k => Config.blockByte k addr

/-- The slot's design is gone: its payload, its identity, its window, its block memory and its readback requests. -/
def State.clearSlot (s : State) (n : Nat) : State :=
  let s1 := (s.setIdent n []).zeroBlocks n
  let isWin (k : Nat) : Bool :=
    decide (GEAR.SLOT_WINDOW.off ≤ k % 0x1000000) && decide (k % 0x1000000 < GEAR.SLOT_WINDOW.off + 1024) && k / 0x1000000 == n
  let s2 := { s1 with img := { s1.img with designs := kvDel s1.img.designs n }, regs := s1.regs.filter fun p => !isWin p.1 }
  s2.setGear fun g => { g with readback := g.readback.filter (·.1 ≠ n) }

/-- The window of a slot answers: the slot is ACTIVE or HELD (R316). -/
def State.windowOn (s : State) (n : Nat) : Bool := s.slotState n == 1 || s.slotState n == 5

/-- The slot is the target of a running load of a slot image (R322). -/
def State.loadTarget (s : State) (n : Nat) : Bool :=
  1 ≤ s.load && s.load ≤ 4 && leAt s.img.header 12 1 == 4 && s.get IMG.LOAD_CTRL.SLOT == n

/-- A binding write that waits for the boundary. -/
def BAct.isBind : BAct → Bool
  | .live k _ => k % 0x1000000 == GEAR.TENANT_BIND.off
  | _ => false

/-- The fabric shell applied: every slot EMPTY with nothing of its design left, every hook unbound, SHELL_ID shown (Table 4-3, R76); binding
writes that still wait for their boundary are gone with the bindings (DEDUCED, log 121). -/
def State.applyShell (s : State) : State :=
  let s0 := (List.range 8).foldl State.clearSlot s
  let s1 := { s0 with
    img := { s0.img with shellLoaded := true, designs := [], slotNext := [] }
    gear := { s0.gear with calls := [] }
    bnd := { s0.bnd with acts := s0.bnd.acts.filter fun a => !a.isBind } }
  let s2 := (List.range 4).foldl (fun s i =>
    s.setReg (IMG.SHELL_ID.off + 4 * i) (BitVec.ofNat 32 (leAt s.img.header (64 + 4 * i) 4))) s1
  let unbind (l : List (Nat × Word)) : List (Nat × Word) := l.filter fun p => p.1 % 0x1000000 != GEAR.TENANT_BIND.off
  let s3 := { s2 with regs := unbind s2.regs, live := unbind s2.live }
  (s3.setReg IMG.SLOT_STATE.off 0#32).put SYS.SHELL_VERSION.VERSION (leAt s.img.header 24 4)

/-- APPLY_DONE (R76, R57): the application of a firmware, microcode or shell image ends. -/
def execApplyDone (ok : Bool) (sysMask : Nat) (s : State) : Res :=
  let k := leAt s.img.header 12 1
  if !s.working || s.load != ldAPPLYING || k == 4 then .next s
  else if !ok then .next (s.endLoad 13)
  else .next ((if k = 1 then s.firmwareStart sysMask else if k = 2 then s.applyUcode else s.applyShell).endLoad 0)

end Sys2Proof.Machine
end

