-- ==== Sys2Proof/Machine/Hooks.lean ====
section
/-! DEFINITION. The gear slots' hooks as chunks use them: the identity block, resolution, bursts and the slow-hook rate rule, calls,
and what a slot's fault answers (R305 to R313, Table 13-6). -/

namespace Sys2Proof.Machine

def dtHOOK_UNAVAILABLE : Nat := 0x0205

/-! ### What a design declares (Table 13-8) -/

/-- Word `i` of the identity block of a slot's design. -/
def State.ident (s : State) (slot i : Nat) : Nat := (s.reg (GEAR.SLOT_IDENT.off + 4 * i) slot).toNat

/-- The design implements a hook. -/
def State.implements (s : State) (slot hook : Nat) : Bool := bits (s.ident slot 0) (8 + hook) 1 == 1

def State.slotUserId (s : State) (slot : Nat) : Nat := s.ident slot 1
def State.hookLatency (s : State) (slot hook : Nat) : Nat := bits (s.ident slot (2 + 2 * hook)) 0 16
def State.hookII (s : State) (slot hook : Nat) : Nat := bits (s.ident slot (2 + 2 * hook)) 16 8
def State.valueBits (s : State) (slot : Nat) : Nat := bits (s.ident slot 5) 0 5
def State.scaleBytes (s : State) (slot : Nat) : Nat := bits (s.ident slot 5) 8 3
def State.biasScope (s : State) (slot : Nat) : Nat := bits (s.ident slot 9) 0 2

/-- The slot a tenant's binding in force names for a hook; 0xF is unbound (R321). -/
def State.boundSlot (s : State) (tid hook : Nat) : Nat := s.lget { GEAR.TENANT_BIND.SLOT_0 with lo := 4 * hook } tid

/-- The bound slot is ACTIVE with a design that implements the hook (R312). -/
def State.hookLive (s : State) (tid hook : Nat) : Bool :=
  let n := s.boundSlot tid hook
  decide (n < 8) && s.slotState n == 1 && s.implements n hook

/-- GEAR.BIND_FAULT of a tenant (R321). -/
def State.bindFault (s : State) (tid : Nat) : Nat :=
  ((List.range 4).map fun h =>
    let n := s.boundSlot tid h
    if n < 8 ∧ s.slotState n = 1 ∧ !s.implements n h then 2 ^ h else 0).foldl (· + ·) 0

/-! ### Bursts (R308, R309) -/

/-- Fabric cycles of a Stroke. -/
def State.fabricCycles (s : State) : Nat := 400 * s.period

/-- The next free cycle of a hook's port in this Stroke's hook window. -/
def State.portFree (s : State) (hook : Nat) : Nat := max 256 ((kvFind s.gear.port hook).getD 0)

/-- A burst of `issue` cycles could fit in some Stroke. -/
def State.burstFits (s : State) (slot hook issue : Nat) : Bool := decide (issue + 256 + s.hookLatency slot hook ≤ s.fabricCycles)

/-- It fits in what is left of this one. -/
def State.burstNow (s : State) (slot hook issue : Nat) : Bool :=
  decide (s.portFree hook + issue + s.hookLatency slot hook ≤ s.fabricCycles)

/-- A chunk that waits for a later Stroke, counted once (R308; DESIGN CHOICE, log 122: once for all the Strokes it waits). -/
def State.hookWaits (s : State) (work idx : Nat) : State :=
  if s.gear.waited.contains (work, idx) then s
  else (s.setGear fun g => { g with waited := g.waited ++ [(work, idx)] }).sat GEAR.HOOK_WAITS.COUNT

/-- How a chunk's hook resolves (R312). -/
inductive HookUse where
  /-- The built-in behaviour; the state counts an unfit burst. -/
  | builtin (s : State)
  | waits (s : State)
  | slot (n : Nat)

/-- The hook of a chunk resolved: the bound slot where it is live and the burst fits (R308, R309, R312). -/
def State.resolveHook (s : State) (tid hook issue work idx : Nat) (unfit : Bool := false) : HookUse :=
  if !s.hookLive tid hook then .builtin s
  else
    let n := s.boundSlot tid hook
    if unfit || !s.burstFits n hook issue then .builtin (s.sat GEAR.UNFIT.COUNT)
    else if s.burstNow n hook issue then .slot n
    else .waits (s.hookWaits work idx)

/-- One call issued (R305): its request beat and its 12-bit tag. -/
def State.call (s : State) (slot hook work idx pid : Nat) (req : List Byte) : State :=
  let tag := s.gear.nextTag % 4096
  (s.setGear fun g => { g with calls := g.calls ++ [⟨slot, hook, tag, work, idx, pid, [], false⟩], nextTag := g.nextTag + 1 }).emit
    (.hookCall slot hook tag req)

/-- A burst's cycles taken on its port. -/
def State.takePort (s : State) (hook issue : Nat) : State :=
  s.setGear fun g => { g with port := kvSet g.port hook (s.portFree hook + issue) }

/-- A chunk's calls, oldest first. -/
def State.callsOf (s : State) (work idx : Nat) : List HookCall := s.gear.calls.filter fun c => c.work = work ∧ c.idx = idx ∧ c.hook ≠ 0

/-- A call of the chunk is still unanswered. -/
def State.callsOpen (s : State) (work idx : Nat) : Bool := (s.callsOf work idx).any fun c => !c.ended

/-- A chunk's calls forgotten. -/
def State.dropCalls (s : State) (work idx : Nat) : State :=
  s.setGear fun g => { g with calls := g.calls.filter fun c => ¬ (c.work = work ∧ c.idx = idx ∧ c.hook ≠ 0) }

/-- `n` bytes of an answer; bytes the design did not send are undefined. -/
def answerBytes (c : HookCall) (n : Nat) : List Byte :=
  (List.range n).map fun i => (c.got[i]?).getD (Config.undefByte c.tag i)

/-! ### A slot fails (R313) -/

/-- The chunk of an unanswered call gets its fault answer (Table 13-6): an eviction call's page keeps its built-in score; a FIND or NEXT
drops every chunk it runs and begins again from block 0 with built-in keys. -/
def State.faultAnswer (s : State) (c : HookCall) : State :=
  match (if c.hook = 0 then none else s.work c.work) with
  | none => s
  | some w =>
    match w.run.find? (·.idx = c.idx) with
    | none => s
    | some r =>
      if c.hook = 3 ∧ bits (w.d.b 37 1) 4 1 = 0 then
        s.updWork w.id fun w => { w with run := w.run.map fun r =>
          if r.idx = c.idx then
            { r with res := match r.res with
              | .biased _ p h b len => .biased 15 p h b len
              | x => x }
          else r }
      else if c.hook = 2 ∧ (w.d.opcode = opFIND ∨ w.d.opcode = opNEXT) then
        match w.aux with
        | .find f =>
          let s1 := w.run.foldl (fun s r => (s.dropCalls w.id r.idx).dropRun w.id r) s
          { s1 with srch := { s1.srch with casc := s1.srch.casc.filter (·.work ≠ w.id) } }.updWork w.id fun w =>
            { w with next := 0, lead := 0, ended := [],
                     aux := .find { f with builtin := true, keys := [], hits := [], at_ := none, left := [], found := [], best := none,
                                           remote := [], words := [] } }
        | _ => s
      else (s.dropRun w.id r).updWork w.id fun w => w.stopWith stFAULT dtHOOK_UNAVAILABLE

/-- A slot to FAILED (R313, R318): its cause, the audit entry of the card, the fault of class RESOURCE, the event to PF0 and to the
tenants bound to it, and the fault answers of every burst cut. -/
def State.failSlot (s : State) (n cause : Nat) : State :=
  let open_ := s.gear.calls.filter fun c => c.slot = n ∧ !c.ended
  let bound := (List.range 1024).filter fun t => (List.range 4).any fun h => s.boundSlot t h = n
  let s1 := ((s.setSlotState n 6).zeroBlocks n).put GEAR.SLOT_FAULT.CAUSE cause n
  let s2 := (s1.audit actorCard 9 (n + cause * 2 ^ 8)).fault clsRESOURCE n 0
  let s3 := s2.event (some (0 :: bound.filter (· ≠ 0))) 0x44 (n + cause * 2 ^ 8)
  let s4 := s3.setGear fun g => { g with calls := g.calls.filter fun c => ¬ (c.slot = n ∧ !c.ended) }
  open_.foldl (fun s c => s.faultAnswer c) s4

end Sys2Proof.Machine
end

