-- ==== Sys2Proof/Machine/Place.lean ====
section
/-! DEFINITION. Write streams: how a page's sectors are placed, and how its programs become ready (R193, R206, R209, R525). -/

namespace Sys2Proof.Machine

def State.setTier (s : State) (f : TierSt → TierSt) : State := { s with tier := f s.tier }

def State.stream (s : State) (idx : Nat) : Option WStream := s.tier.streams.find? (·.index = idx)

def State.setStream (s : State) (w : WStream) : State :=
  s.setTier fun t => { t with streams := t.streams.filter (·.index ≠ w.index) ++ [w] }

/-- First sectors of the NAND pages that hold `n` sectors from sector `a` on. -/
def nandsOf (a n : Nat) : List Nat := (List.range ((a + n - 1) / 4 - a / 4 + 1)).map fun i => (a / 4 + i) * 4

/-- A NAND page of a region that is whole or closed waits for its program chunk. -/
def State.readyProgram (s : State) (idx nand : Nat) : State :=
  s.setTier fun t => { t with ready := t.ready ++ [(idx, nand, s.stroke)] }

/-- The open NAND page of a stream, partly filled, is closed with zero padding and programmed (R193). -/
def State.closeOpen (s : State) (idx : Nat) : State :=
  match s.stream idx with
  | none => s
  | some w =>
    if w.off % 4 = 0 then s
    else (s.setStream { w with off := w.off / 4 * 4 + 4, tok := none }).readyProgram idx (w.block * blockSectors + w.off / 4 * 4)

/-- A stream of the region with room for `n` contiguous sectors: its block, or a new one (R525). -/
def State.roomFor (s : State) (idx n : Nat) : State :=
  let fresh (s : State) : State :=
    let (s1, b) := s.takeBlock idx false
    s1.setStream ⟨idx, b, 0, s.stroke, none⟩
  match s.stream idx with
  | none => fresh s
  | some w => if w.off + n ≤ blockSectors then s else fresh (s.closeOpen idx)

/-- `n` sectors placed contiguously in a region's write stream (R193); answers their first sector. -/
def State.placeSectors (s : State) (idx n : Nat) : State × Nat :=
  let s0 := if n = 16 then s.closeOpen idx else s
  let s1 := s0.roomFor idx n
  match s1.stream idx with
  | none => (s1, 0)
  | some w =>
    let a := w.off
    let e := a + n
    let base := w.block * blockSectors
    let full := (List.range (e / 4 - a / 4)).map fun i => base + (a / 4 + i) * 4
    let since := if a % 4 = 0 ∨ e / 4 ≠ a / 4 then s.stroke else w.since
    (full.foldl (fun s x => s.readyProgram idx x) (s1.setStream { w with off := e, since := since }), base + a)

/-- A DIRTY page enters WRITING: its sectors are placed in its region's stream (R190, R193). While flash is full, or a page is not
DIRTY, nothing happens (R206). -/
def State.startWriting (s : State) (pid : Nat) : State :=
  match s.pageBy pid with
  | none => s
  | some g =>
    if g.st ≠ 1 ∨ s.flashFull then s
    else
      let s0 := s.needChain g.tid
      let idx := s0.ownIdx g.tid
      let n := sectorsOf g.hdr g.body
      let (s1, a) := s0.firstWrite.placeSectors idx n
      (s1.updPage pid fun g => { g with st := 2 }).setTier fun t =>
        { t with placed := t.placed ++ [⟨pid, idx, a, n, nandsOf a n, false⟩] }

/-- OPEN_NAND_PAGE_TIMEOUT is due on a region: its open NAND page is partly filled, LOG_FLUSH Strokes after its first sector. -/
def State.openDue (s : State) (idx : Nat) : Bool :=
  s.tier.streams.any fun w => w.index == idx && w.off % 4 != 0 && decide (w.since + s.get TIER.LOG_FLUSH.STROKES ≤ s.stroke)

/-- OPEN_NAND_PAGE_TIMEOUT (R193). -/
def execOpenNandPageTimeout (index : Nat) (s : State) : Res :=
  .next (if s.working && s.openDue index then s.closeOpen index else s)

/-- A page written while it is WRITING, CLEAN or DIRTY is DIRTY again: its flash copy is released, and a copy being programmed will be when
its programs end (Table 9-2). -/
def State.dirty (s : State) (pid : Nat) : State :=
  (s.updPage pid fun g => { g with st := 1, flash := none }).setTier fun t =>
    { t with placed := t.placed.map (fun p => if p.pid = pid then { p with stale := true } else p), demote := t.demote.filter (· ≠ pid) }

end Sys2Proof.Machine
end

