-- ==== Sys2Proof/Machine/Append.lean ====
section
/-! DEFINITION. APPEND: classes' registers for it, order of appends, the chunk that writes one page, buckets, and the commit of a
length (R166 to R187, R143, R151, R152, R159, R160, R272 to R277). -/

namespace Sys2Proof.Machine

def dtLENGTH_MISMATCH : Nat := 0x0201
def dtCLASS_CHANGED : Nat := 0x0202
def dtBAD_STRIDE : Nat := 0x0203
def dtNONFINITE : Nat := 0x0204
def dtINPUT_FAULT : Nat := 0x0206

/-! ### Buckets and lanes (R185, R186) -/

/-- The bucket of an APPEND's TOKENS by the edges in force. -/
def State.bucketOf (s : State) (tokens : Nat) : Nat :=
  if tokens ≤ s.lget CMPR.APPEND_BUCKETS.EDGE_0 then 0
  else if tokens ≤ s.lget CMPR.APPEND_BUCKETS_1.EDGE_1 then 1
  else if tokens ≤ s.lget CMPR.APPEND_BUCKETS_2.EDGE_2 then 2 else 3

/-- The edges rise from at least 1; the lanes sum to 16 and leave no bucket without one (R186). -/
def bucketsBad (e0 e1 e2 : Nat) : Bool := e0 == 0 || decide (e1 ≤ e0) || decide (e2 ≤ e1)

def lanesBad (v : Word) : Bool :=
  let n (i : Nat) : Nat := fieldGet v (8 * i) 5
  n 0 == 0 || n 1 == 0 || n 2 == 0 || n 3 == 0 || n 0 + n 1 + n 2 + n 3 != 16

/-- A write of an APPEND_BUCKETS register or of APPEND_LANES (R186): in force from the next boundary. -/
def hBuckets (off : Nat) : Handler :=
  { Handler.plain with
    chk := fun s _ old v =>
      let e0 := if off = CMPR.APPEND_BUCKETS.off then fieldGet v 0 21 else s.get CMPR.APPEND_BUCKETS.EDGE_0
      let e1 := if off = CMPR.APPEND_BUCKETS_1.off then fieldGet v 0 21 else s.get CMPR.APPEND_BUCKETS_1.EDGE_1
      let e2 := if off = CMPR.APPEND_BUCKETS_2.off then fieldGet v 0 21 else s.get CMPR.APPEND_BUCKETS_2.EDGE_2
      if off = CMPR.APPEND_LANES.off then old != v && lanesBad v else old != v && bucketsBad e0 e1 e2
    act := fun s _ _ => s.atBoundary (.live (regKey off 0) (s.reg off)) }

/-- The four registers of APPEND_BUCKETS (Table 8-8). -/
def bucketReg (off : Nat) : Nat :=
  if off = CMPR.APPEND_BUCKETS_1.off ∨ off = CMPR.APPEND_BUCKETS_2.off ∨ off = CMPR.APPEND_LANES.off then off
  else CMPR.APPEND_BUCKETS.off

/-- APPEND_BUCKETS (R186): a write of the edge or lane register named. -/
def execAppendBuckets (off : Nat) (val : Word) (s : State) : Res :=
  .next (bar0 (hBuckets (bucketReg off)) (bucketReg off) val s)

/-- Lanes or tiles of a bucket that running chunks of an opcode keep, whichever bucket those are of (R185, R300). -/
def State.keptBy (s : State) (op b : Nat) : Nat :=
  ((s.wk.works.filter (·.d.opcode = op)).flatMap fun w => w.run.filter (·.lane = some b)).length

/-- The bucket whose lane a chunk of bucket `bucket` takes (R185): its own, or one without a ready chunk of its own where no ready bucket
is lower than this one; none where every lane there is is kept. -/
def pickLane (busy owns : Nat → Nat) (total : Nat) (ready : List Nat) (bucket : Nat) : Option Nat :=
  if total ≤ ((List.range 4).map busy).foldl (· + ·) 0 then none
  else if busy bucket < owns bucket then some bucket
  else if ready.any (· < bucket) then none
  else (List.range 4).find? fun b => decide (busy b < owns b) && !ready.contains b

/-- The bucket whose quantiser lane an APPEND's chunk takes (R185). Lanes that a unit fault retired are gone (R474). -/
def State.laneFor (s : State) (bucket : Nat) (ready : List Nat) : Option Nat :=
  pickLane (fun b => s.keptBy opAPPEND b) (fun b => s.lget { CMPR.APPEND_LANES.LANES_0 with lo := 8 * b }) (16 - s.get ERR.UNIT_RETIRED.LANES)
    ready bucket

/-! ### Order of appends (R182, R393) -/

/-- Works that write a sequence in order: APPENDs, and POOL_XFERs of DIRECTION 0. -/
def orderedWriter (w : Work) : Bool := w.d.opcode == opAPPEND || (w.d.opcode == opXFER && w.d.b 32 1 == 0)

/-- One of a sequence's ordered writers is active. -/
def State.writerActive (s : State) (tid sid : Nat) : Bool :=
  s.wk.works.any fun w => orderedWriter w && w.active && w.d.tid == tid && w.d.sid == sid

/-- A stored page of the sequence that its class no longer describes (R168): another format or geometry in its header. -/
def ClassDef.disagrees (c : ClassDef) (hdr : List Byte) : Bool :=
  let f := hdrFORMAT hdr
  let fmtOk := if c.format = 0x80 then f == 0x80 || f == c.fallback else f == c.format
  let geo :=
    if c.latent then hdrLatent hdr && hdrELEMS hdr == c.rank
    else !hdrLatent hdr && hdrHEADS hdr == c.heads && hdrELEMS hdr == c.headDim
  !fmtOk || !geo || ((f == 4 || f == 5) && hdrGROUPLOG2 hdr != c.groupLog2)

/-- R168: the sequence's class is not defined, or is defined with another geometry or format. -/
def State.classChanged (s : State) (q : Seq) : Bool :=
  let c := s.classDef q.cls
  !s.classDefined q.cls || c.btLog != q.btLog ||
    s.sq.leaves.any fun l => l.sq == q.idx && match s.pageBy l.pid with
      | none => false
      | some g => g.st != 6 && c.disagrees g.hdr

/-- The checks of R181 in order: the DETAIL of the one that fails, 0 for none. -/
def State.appendFail (s : State) (d : Desc) (q : Seq) : Nat :=
  let c := s.classDef q.cls
  if s.classChanged q then dtCLASS_CHANGED
  else if d.b 48 4 < 4 * c.heads * c.headDim then dtBAD_STRIDE
  else if d.b 37 1 % 2 = 1 ∧ d.b 52 4 ≠ q.len then dtLENGTH_MISMATCH
  else 0

/-- An ordered writer becomes active (R182): its start length is the committed length, and R181, or item 4 of R396, is checked; a window with no room left starts no chunk (R183). -/
def State.activate (s : State) (w : Work) (q : Seq) : State :=
  let s1 := s.updWork w.id fun w => { w with active := true, startLen := q.len }
  if w.d.opcode = opAPPEND then
    let f := s.appendFail w.d q
    if f ≠ 0 then s1.latch w.id stPARTIAL f 0
    else if (if q.ring then 2 ^ 32 - 1 else q.slots * q.bt) ≤ q.len then s1.latch w.id stPARTIAL dtWINDOW_FULL 0
    else s1
  else if w.d.b 44 4 ≠ 0xFFFFFFFF ∧ w.d.b 44 4 < q.len then s1.latch w.id stPARTIAL 0x0A04 0
  else if q.layers < w.d.b 34 1 + (w.d.b 35 1 + 1) then s1.latch w.id stPARTIAL 0x0302 0
  else s1

/-- Step 4 of a boundary, and admission: on every sequence without an active writer the first waiting one in admission order becomes
active; one that has started no chunk takes the length that stands now. No fork may involve the sequence (R150). -/
def State.activateWriters (s : State) : State :=
  (inOrder (fun w => (w.admitted, w.id)) (s.wk.works.filter fun w => w.phase = 1 ∧ orderedWriter w)).foldl (fun s w =>
    match s.work w.id, s.seqBySid w.d.tid w.d.sid with
    | some w, some q =>
      if w.phase ≠ 1 ∨ s.forkOn q.sid then s
      else if w.active then (if w.next = 0 ∧ w.startLen ≠ q.len then s.activate w q else s)
      else if s.writerActive w.d.tid w.d.sid then s
      else s.activate w q
    | _, _ => s) s

/-- APPEND at admission (R181, R182, R185). -/
def State.admitAppend (s : State) (id : Nat) : State :=
  s.admitWith id fun s w =>
    (s.updWork id fun w => { w with aux := .append (s.bucketOf (w.d.b 32 4)) }).activateWriters

/-- APPEND (R178 to R185). -/
def execAppend (d : Desc) (s : State) : Res := .next (s.rowAdmit opAPPEND d fun s id => s.admitAppend id)

/-! ### The chunk -/

/-- Input row of layer `l` and token `k` of the APPEND (R179): raw bits and values, in FP32 where FP16. -/
def State.inputRow (s : State) (d : Desc) (width l k : Nat) : List Nat × List Fp :=
  let bs := s.memRead (d.b 40 8 + l * d.b 56 6 + k * d.b 48 4) (2 * width)
  let raw := (List.range width).map fun i => leAt bs (2 * i) 2
  (raw, raw.map fun r => if d.b 36 1 = 1 then fp16Decode r else bf16Decode r)

/-- A stored row of a row's values in a format (R170, R171). -/
def quantise (f : Fmt) (rule : Nat) (bf16 : Bool) (raw : List Nat) (vs : List Fp) : List Byte × List Byte :=
  if f.code = 6 ∧ bf16 then (rawRow raw vs, []) else quantRow f rule vs

/-- What a chunk appends to a page: layer, first block position, positions, first token of the APPEND. -/
structure Part where
  layer : Nat
  block : Nat
  t0    : Nat
  n     : Nat
  k0    : Nat
  deriving DecidableEq, Repr

/-- The part a visiting position of an APPEND writes (R173, R183). -/
def State.partAt (s : State) (w : Work) (q : Seq) (i : Nat) : Part :=
  let (b, l) := s.visit w i
  let t0 := if b = w.startLen / q.bt then w.startLen % q.bt else 0
  let last := w.startLen + s.appendTokens w
  ⟨l, b, t0, min q.bt (last - b * q.bt) - t0, b * q.bt + t0 - w.startLen⟩

/-- The format a page's existing rows are in, by its header. -/
def hdrFmt (h : List Byte) : Fmt :=
  let c := hdrFORMAT h
  if c = 0x80 then
    let rows := 2 * hdrHEADS h * hdrBT h
    let e := rows * hdrELEMS h
    ⟨0x80, if e = 0 then 0 else hdrVALUES h * 8 / e, if e = 0 then 0 else hdrSCALES h * 32 / e, 32⟩
  else fmtOf c (hdrGROUPLOG2 h)

/-- The lossless coding is on for what a chunk that starts now writes into a sequence (R273). -/
def State.coding (s : State) (q : Seq) : Bool := !q.prot && s.lget CMPR.CODE_POLICY.CODE_OFF q.tid == 0

/-- The header a chunk writes (Tables 7-8 and 8-5), CODER_INDEX and the raw flags by R272 and R273; `on` is whether coding was on when the
chunk started. -/
def pageHeader (on : Bool) (q : Seq) (c : ClassDef) (f : Fmt) (x : Part) (gen stroke nonfinite userId : Nat)
    (payload : List Byte) : List Byte :=
  let (raw, sizeRaw, index) := codeChoice on payload
  let rows := c.rowsPerTok * q.bt
  HdrSpec.bytes
    { format := f.code,
      flags := b01 c.latent + 2 * b01 raw + 4 * b01 q.prot + 8 * b01 q.ring + 16 * b01 sizeRaw,
      bt := q.bt, fill := x.t0 + x.n, layer := x.layer, tid := q.tid, sid := q.sid, block := x.block, gen := gen, stroke := stroke,
      dva := q.base + q.page x.block x.layer, index := index, heads := if c.latent then 0 else c.heads, cls := q.cls,
      elems := c.rowElems, groupLog2 := if f.code = 6 then 0 else Nat.log2 f.group, rule := c.rule,
      valueBytes := rows * f.rowBytes c.rowElems, scaleBytes := rows * f.rowScales c.rowElems, nonfinite := nonfinite,
      userId := userId }
    payload.length

/-- The stored rows of the appended positions in a built-in format, in the order of `ClassDef.rowsPerTok` (R170, R171, R175). -/
def State.newRows (s : State) (q : Seq) (c : ClassDef) (f : Fmt) (x : Part) (d : Desc) : List (List (List Byte × List Byte)) :=
  let bf16 := d.b 36 1 = 0
  (List.range x.n).map fun t =>
    let (raw, vs) := s.inputRow d c.width x.layer (x.k0 + t)
    if c.latent then
      let image := ((s.gear.consts.find? (·.set = c.set)).map (·.image)).getD []
      let z := projectRow image x.layer c.rank c.width c.rule vs
      [quantRow f c.rule (z.map fp32Decode)]
    else
      (List.range (2 * c.heads)).map fun r =>
        quantise f c.rule bf16 ((raw.drop (r * c.headDim)).take c.headDim) ((vs.drop (r * c.headDim)).take c.headDim)

/-- Non-finite elements in a part's input, the stage after a projection included (R172, R175). -/
def State.inputNonfinite (s : State) (c : ClassDef) (x : Part) (d : Desc) : Nat :=
  ((List.range x.n).map fun t => nonfinites (s.inputRow d c.width x.layer (x.k0 + t)).2).foldl (· + ·) 0

/-- A page's header and payload after a part is written in a built-in format. -/
def State.writtenPage (s : State) (q : Seq) (c : ClassDef) (f : Fmt) (x : Part) (d : Desc) (old : Option Page) (gen nf : Nat) :
    List Byte × List Byte :=
  let was := (old.map s.plainBody).getD []
  let body := buildPayload f c.rowElems c.rowsPerTok q.bt was x.t0 (s.newRows q c f x d)
  (pageHeader (s.coding q) q c f x gen s.stroke nf 0 body, body)

/-! ### Deciding the next chunk -/

/-- The chunk writes a new frame: no page of this block yet, or a shared one (R151, R152). -/
def State.freshFor (s : State) (old : Option Page) : Bool :=
  match old with
  | none => true
  | some g => decide (1 < s.refsOf g.pid)

/-- Groups a USER chunk sends (R305). -/
def Part.groups (x : Part) (c : ClassDef) : Nat := x.n * 2 * c.heads * (c.headDim / 32)

/-- The payload of a USER page would exceed 65,280 B (R309). -/
def State.userUnfit (s : State) (tid : Nat) (c : ClassDef) : Bool :=
  let n := s.boundSlot tid 1
  decide (65280 < c.payload ⟨0x80, s.valueBits n, s.scaleBytes n, 32⟩)

/-- How the format of a chunk resolves (R177, R314). -/
inductive AppendFmt where
  | fmt (s : State) (f : Fmt)
  | user (slot : Nat)
  /-- For a slot that is being loaded. -/
  | loading
  /-- For a later Stroke; the state counts the wait. -/
  | waits (s : State)
  /-- The descriptor ends HOOK_UNAVAILABLE; the state counts an unfit burst. -/
  | unavailable (s : State)

/-- The format of a fresh page: the class's, by the hook where it is live (R177, R314). -/
def State.freshFmt (s : State) (w : Work) (q : Seq) (c : ClassDef) (issue : Nat) : AppendFmt :=
  if c.format ≠ 0x80 then .fmt s (fmtOf c.format c.groupLog2)
  else if q.prot then .fmt s (fmtOf c.fallback c.groupLog2)
  else
    match s.resolveHook q.tid 1 issue w.id w.next (s.userUnfit q.tid c) with
    | .slot n => .user n
    | .waits s1 => .waits s1
    | .builtin s1 => .fmt s1 (fmtOf c.fallback c.groupLog2)

/-- The format of a chunk (R177): a page's rows keep their format. Rows of a protected sequence never go to a slot, so that the chunk of one
that would continue USER rows, which a fork of an unprotected sequence can leave it, ends HOOK_UNAVAILABLE (R314; DEDUCED, log 125). -/
def State.appendFmt (s : State) (w : Work) (q : Seq) (c : ClassDef) (x : Part) (old : Option Page) : AppendFmt :=
  let n := s.boundSlot q.tid 1
  let issue := cdiv (x.groups c) 8 * s.hookII n 1
  match old with
  | some g =>
    if hdrFILL g.hdr = 0 then s.freshFmt w q c issue
    else if hdrFORMAT g.hdr ≠ 0x80 then .fmt s (hdrFmt g.hdr)
    else if q.prot then .unavailable s
    else if n < 8 ∧ (s.slotState n = 2 ∨ s.slotState n = 3 ∨ s.slotState n = 4) then .loading
    else if !s.hookLive q.tid 1 || s.slotUserId n != hdrUSERID g.hdr then .unavailable s
    else
      match s.resolveHook q.tid 1 issue w.id w.next (s.userUnfit q.tid c) with
      | .slot n => .user n
      | .waits s1 => .waits s1
      | .builtin s1 => .unavailable s1
  | none => s.freshFmt w q c issue

/-- Elements a part's projection makes non-finite (R172, R175). -/
def State.projectedNonfinite (s : State) (c : ClassDef) (x : Part) (d : Desc) : Nat :=
  if !c.latent then 0
  else
    let image := ((s.gear.consts.find? (·.set = c.set)).map (·.image)).getD []
    ((List.range x.n).map fun t =>
      nonfinites ((projectRow image x.layer c.rank c.width c.rule (s.inputRow d c.width x.layer (x.k0 + t)).2).map fp32Decode)).foldl
        (· + ·) 0

/-- The 136 bytes of a quantisation request (Table 13-3), the 16-bit inputs with their values as FP32 after R306; a zero keeps its sign. -/
def quantRequest (cls tid r heads t g : Nat) (vs : List (Nat × Fp)) : List Byte :=
  let v (x : Nat × Fp) : Nat := match x.2 with
    | .nan => 0
    | .inf neg => if neg then 0xFF7FFFFF else 0x7F7FFFFF
    | .fin d => if d.m = 0 then x.1 / 2 ^ 15 * 2 ^ 31 else (toFp32 d).toNat
  let tail := cls + (r / heads) * 2 ^ 6 + (r % heads) * 2 ^ 7 + t * 2 ^ 14 + g * 2 ^ 21 + tid * 2 ^ 26
  (vs.flatMap fun x => leBytes 4 (v x)) ++ leBytes 8 tail

/-- A USER chunk's calls issued, in order of position, row and group. -/
def State.quantCalls (s : State) (w : Work) (q : Seq) (c : ClassDef) (x : Part) (slot : Nat) : State :=
  let gs := c.headDim / 32
  let ix := (List.range x.n).flatMap fun t => (List.range (2 * c.heads)).flatMap fun r => (List.range gs).map fun g => (t, r, g)
  (ix.foldl (fun s y =>
    let (t, r, g) := y
    let (raw, vs) := s.inputRow w.d c.width x.layer (x.k0 + t)
    s.call slot 1 w.id w.next 0 (quantRequest q.cls q.tid r c.heads (x.t0 + t) g (((raw.zip vs).drop (r * c.headDim + 32 * g)).take 32))) s).takePort
      1 (cdiv (x.groups c) 8 * s.hookII slot 1)

def Work.bucket (w : Work) : Nat :=
  match w.aux with
  | .append b => b
  | _ => 3

/-- The next chunk of an APPEND, its lane aside (R150, R152, R172 to R177, R182, R183). -/
def State.appendChunk (s : State) (w : Work) : Dec :=
  match s.seqBySid w.d.tid w.d.sid with
  | none => .wait
  | some q =>
    if !w.active || s.forkOn q.sid then .wait
    else
      let c := s.classDef q.cls
      let x := s.partAt w q w.next
      let p := q.page x.block x.layer
      let was := (s.leafAt q.idx p).map (·.pid)
      -- a chunk that goes on in a block reads its page; one that begins a block meets at most the page of the block's earlier writing
      let mine := (s.pageAt q.idx p).filter fun g => x.t0 ≠ 0 ∨ g.st = 6 ∨ !q.ring ∨ hdrBLOCK g.hdr = x.block
      let lost (g : Page) : Bool := x.t0 ≠ 0 && (g.st == 6 || g.st == 7)
      if mine.any lost then
        let cause := if mine.any (·.st = 6) then 1 else 2
        .stop (s.lose w p cause (cause == 1)) stMEDIA 0
      else if mine.any fun g => g.st = 4 ∨ g.st = 5 then .wait
      else if x.t0 ≠ 0 ∧ mine.any fun g => gateOf g x.block = .lost 2 true then .stop (s.lose w p 2 true) stMEDIA 0
      else if mine.any fun g => x.t0 ≠ 0 ∧ g.bad ≠ 0 then .stop (s.loseCoded w p) stMEDIA 0
      else
        let old := mine.filter fun g => g.st ≠ 6 ∧ g.st ≠ 7
        let fresh := s.freshFor old
        let resolved (s : State) : Option State := (s.resolve q p).addTables q.tid (q.base + p)
        if fresh ∧ s.framesFree = 0 then .noFrame
        else if (resolved s).isNone then .stop (s.sat XLAT.AREA_FULL_COUNT.COUNT) stPARTIAL dtAREA_FULL
        else
          let draw : Res6 := { Res6.zero with dram := 16, engine := c.engineDraw }
          let refs := (old.map (·.pid)).toList
          let gen := (old.map fun g => hdrGEN g.hdr + 1).getD 1
          let nf := s.inputNonfinite c x w.d
          let go (s : State) (res : RunRes) : Dec := .go ((resolved s).getD s) draw refs fresh res
          if c.nfStop ∧ nf + s.projectedNonfinite c x w.d ≠ 0 then .go ((resolved s).getD s) draw refs false (.stop stFAULT dtNONFINITE)
          else
            match s.appendFmt w q c x old with
            | .loading => .wait
            | .waits s2 => .hookWait s2
            | .unavailable s2 => .stop s2 stFAULT dtHOOK_UNAVAILABLE
            | .user n => go (s.quantCalls w q c x n) (.user (s.valueBits n) (s.scaleBytes n) (s.slotUserId n) p was x.t0 x.n nf (s.coding q))
            | .fmt s2 f =>
              let n := nf + s.projectedNonfinite c x w.d
              let (h, b) := s.writtenPage q c f x w.d old gen n
              go s2 (.page p was h b fresh (hdrSizeRaw h) n)

/-- A descriptor runs, was not stopped, and has a position left. -/
def State.hasLeft (s : State) (w : Work) : Bool := w.phase == 1 && w.stop.isNone && decide (w.next < s.total w)

/-- Buckets that have a ready chunk: one that lacks nothing but a lane (R185). -/
def State.readyBuckets (s : State) : List Nat :=
  ((s.wk.works.filter fun w => w.d.opcode == opAPPEND && s.hasLeft w && match s.appendChunk w with
    | .go _ draw _ _ _ => draw.le (s.available (s.partOf w.d.tid))
    | _ => false).map Work.bucket).eraseDups

/-- The next chunk of an APPEND: it takes a lane (R185). -/
def State.decAppend (s : State) (w : Work) : Dec :=
  if (s.laneFor w.bucket s.readyBuckets).isNone then .wait else s.appendChunk w

/-! ### The end of a chunk -/

/-- The counts of a page write (R277, R172). -/
def State.countWrite (s : State) (hdr body : List Byte) (nf : Nat) : State :=
  let s1 := if nf = 0 then s else s.add64 CMPR.NONFINITE_COUNT_LO.off nf
  if hdrRaw hdr then s1.add64 CMPR.PAGES_RAW_LO.off
  else (s1.add64 CMPR.PAGES_CODED_LO.off).add64 CMPR.SECTORS_SAVED_LO.off (rawSectors hdr - sectorsOf hdr body)

/-- The slot of a ring's block holds another block that is live (R152). -/
def Seq.slotLive (q : Seq) (b : Nat) : Bool :=
  let c := q.tail + (b % q.slots + q.slots - q.tail % q.slots) % q.slots
  q.ring && decide (c < q.fin) && c != b

/-- A page write lands (R152, R173): in place, in a private copy, or in a fresh frame that a ring's leaf takes at the commit, where the slot
holds another block: a live one, or one that the same APPEND wrote before it came round. A page whose
leaf an epoch switch has given another page meanwhile is out of the sequence: the chunk wrote the page of its own epoch (R19). -/
def State.installPage (s : State) (q : Seq) (p : Nat) (was : Option Nat) (hdr body : List Byte) (fresh : Bool) : State :=
  let stored := s.sealBody q.tid hdr body
  -- LAST is the Stroke in which the chunk started, as the header's STROKE (R203)
  let fill : State × Nat :=
    let (s2, pid) := s.newPage q.tid hdr stored
    (s2.updPage pid fun g => { g with last := hdrSTROKE hdr }, pid)
  let leaf := s.leafAt q.idx p
  if leaf.map (·.pid) ≠ was then s
  else if fresh ∧ q.ring ∧ (q.slotLive (hdrBLOCK hdr) ∨ (s.pageAt q.idx p).any fun g => hdrBLOCK g.hdr ≠ hdrBLOCK hdr) then
    { fill.1 with wk := { fill.1.wk with staged := fill.1.wk.staged ++ [(q.idx, p, fill.2)] } }
  else
    match leaf with
    | none => ((fill.1.addTables q.tid (q.base + p)).getD fill.1).setLeaf q p fill.2
    | some lf =>
      if fresh then (fill.1.setLeaf q p fill.2 lf.pinned).gcPage lf.pid
      else
        (s.dirty lf.pid).updPage lf.pid fun g => { g with hdr := hdr, body := stored, last := hdrSTROKE hdr, gen := hdrGEN hdr % 256, bad := 0 }

/-- An APPEND's chunk ends well: the USER page from its answers, or the page it made (R159, R306). -/
def State.endAppend (s : State) (w : Work) (r : Run) : State :=
  match s.seqBySid w.d.tid w.d.sid with
  | none => s
  | some q =>
    match r.res with
    | .page p was h b fresh raw nf =>
      let s1 := (s.countWrite h b nf).installPage q p was h b fresh
      if raw then s1.flagWork w.id flRAW else s1
    | .user vbits sbytes uid p was t0 cnt nf coded =>
      let c := s.classDef q.cls
      let f : Fmt := ⟨0x80, vbits, sbytes, 32⟩
      let x := s.partAt w q r.idx
      let gs := c.headDim / 32
      let vb := 4 * f.vbits
      let ans := (s.callsOf w.id r.idx).map fun a => answerBytes a (64 + f.sbytes)
      let rowOf (t r : Nat) : List Byte × List Byte :=
        let g := (List.range gs).map fun g => ans.getD ((t * (2 * c.heads) + r) * gs + g) []
        (g.flatMap (·.take vb), g.flatMap fun a => (a.drop 64).take f.sbytes)
      let new := (List.range cnt).map fun t => (List.range (2 * c.heads)).map fun r => rowOf t r
      let old := (was.bind s.pageBy).filter fun g => g.st ≠ 6 ∧ g.st ≠ 7 ∧ hdrBLOCK g.hdr = x.block
      let body := buildPayload f c.rowElems c.rowsPerTok q.bt ((old.map s.plainBody).getD []) t0 new
      let gen := (old.map fun g => hdrGEN g.hdr + 1).getD 1
      let h := pageHeader coded q c f x gen r.at_ nf uid body
      let s1 := ((s.dropCalls w.id r.idx).countWrite h body nf).installPage q p was h body r.frame.isSome
      if hdrSizeRaw h then s1.flagWork w.id flRAW else s1
    | .stop st dt => (s.fault clsINPUT 0 (tidSidInfo w.d.tid w.d.sid)).updWork w.id fun w => w.stopWith st dt
    | _ => s

/-- An APPEND that finished (R125, R183). -/
def State.finishAppend (s : State) (w : Work) : State :=
  let st := w.endStatus
  let full := w.stop.isNone ∧ w.losses = [] ∧ s.appendTokens w < w.d.b 32 4
  s.latchEnd w (if full then (stPARTIAL, dtWINDOW_FULL) else st)

/-! ### The commit (R143, R152, R209, R212) -/

/-- The staged pages of a ring that belong to live blocks of its new length take their leaves; the others leave the card (R152). -/
def State.switchRing (s : State) (q : Seq) (endB : Nat) : State :=
  let mine := s.wk.staged.filter (·.1 = q.idx)
  let s0 := { s with wk := { s.wk with staged := s.wk.staged.filter (·.1 ≠ q.idx) } }
  mine.foldl (fun s y =>
    let (_, p, pid) := y
    match s.pageBy pid with
    | none => s
    | some g =>
      if hdrBLOCK g.hdr < endB ∧ endB ≤ hdrBLOCK g.hdr + q.slots then
        let was := s.leafAt q.idx p
        let s1 := s.setLeaf q p pid
        (was.map fun l => s1.gcPage l.pid).getD s1
      else s.gcPage pid) s0

/-- Pages of the blocks a commit sealed enter WRITING under WRITE_SEALED (R209). -/
def State.writeSealed (s : State) (q : Seq) (old new : Nat) : State :=
  if !s.flag TIER.WRITE_SEALED.ENABLE (s.partOf q.tid) then s
  else
    (((s.sq.leaves.filter (·.sq = q.idx)).filterMap fun l => s.pageBy l.pid).filter fun g =>
      let e := (hdrBLOCK g.hdr + 1) * q.bt
      g.st = 1 ∧ old < e ∧ e ≤ new).foldl (fun s g => s.startWriting g.pid) s

/-- The length an ordered writer's completion commits, in step 2 of the boundary, and its LENGTH record, also where the length stays as it was
(R143, R212). -/
def State.commitLength (s : State) (w : Work) (len : Nat) : State :=
  match s.seqBySid w.d.tid w.d.sid with
  | none => s
  | some q =>
    let q1 := { q with len := len }
    let s1 := (s.setSeq q1).logKv q.tid (recLength q1)
    (s1.switchRing q1 q1.fin).writeSealed q1 q.len len

/-- An APPEND's commit. -/
def State.commitAppend (s : State) (w : Work) : State := if w.active then s.commitLength w (w.startLen + w.extent) else s

end Sys2Proof.Machine
end

