-- ==== Sys2Proof/Machine/Tier.lean ====
section
/-! DEFINITION. Chapter 9: READ_PAGES, PIN, UNPIN, SCORE_UPDATE, planning backwards, eviction and scores, page-ins, programs, dead
dies (R189 to R209, R217 to R222, R311). DELIVER's chunk is a message of chapter 15. -/

namespace Sys2Proof.Machine

def dtPIN_CAP : Nat := 0x0301
def dtLAYER_RANGE : Nat := 0x0302
def dtSTRIDE : Nat := 0x0303

/-! ### Planning backwards (R200 to R202) -/

/-- The NAND page lies on a dead die that is not yet rebuilt (R218). -/
def State.onDead (s : State) (nand : Nat) : Bool := s.deadAt (nandGroupOf nand) (nandDieOf nand) (stripeOf nand)

/-- Another place of the NAND page's stripe is dead (R219). -/
def State.otherDead (s : State) (nand : Nat) : Bool :=
  (List.range 16).any fun d => d != nandDieOf nand && s.deadAt (nandGroupOf nand) d (stripeOf nand)

/-- The NAND page can be reconstructed: its stripe has its parity on flash, and every other place of it can be read (R192, R219). -/
def State.striped (s : State) (nand : Nat) : Bool := s.flash.parity.contains (stripeOf nand) && !s.otherDead nand

/-- Reads of a page-in that are still to start: those of its plan, or before it begins one per NAND page. -/
def State.readPlan (s : State) (key : Nat) (nands : List Nat) : List (Nat × Bool) :=
  (kvFind s.tier.plans key).getD (nands.map fun n => (n, false))

/-- The reads of a plan as they start: a NAND page on a dead die costs the 15 reads of its reconstruction, where that is possible
(R218). -/
def State.asReads (s : State) (plan : List (Nat × Bool)) : List (Nat × Bool) :=
  plan.flatMap fun r => if !r.2 && s.onDead r.1 && s.striped r.1 then List.replicate 15 (r.1, true) else [r]

/-- Flash commands a page still needs. -/
def State.readsLeft (s : State) (g : Page) : Nat := (s.asReads (s.readPlan g.pid g.nands)).length

/-- f of R200. -/
def State.planFlash (s : State) (w : Work) : Nat := ((s.flashAhead w).map fun x => s.readsLeft x.2).foldl (· + ·) 0

/-- u of R200: Spoke units of a DELIVER, DRAM units of a READ_PAGES. -/
def State.planUnits (s : State) (w : Work) : Nat := if opStream w.d.opcode then 16 * (s.total w - w.next) else 0

/-- W of R200: the Strokes that what is left takes of the fresh budget; for an ATTN_PARTIAL the longer of its DRAM and engine terms
(R299). -/
def State.planTime (s : State) (w : Work) : Nat :=
  let b := s.budget (s.partOf w.d.tid)
  match w.aux with
  | .attn a =>
    let left := s.total w - w.next
    max (cdiv (left * 16) (max 1 b.dram)) (cdiv (left * a.draw) (max 1 b.engine))
  | _ => cdiv (s.planUnits w) (max 1 (if w.d.opcode = opDELIVER then b.spoke else b.dram))

/-- S_late of R200; a fresh budget of 0 plans nothing. -/
def State.sLate (s : State) (w : Work) : Nat :=
  let b := s.budget (s.partOf w.d.tid)
  let f := s.planFlash w
  let fl := if f = 0 then 0 else cdiv f (max 1 b.flash)
  let wt := s.planTime w
  w.d.deadline - (if 0 < fl then max (fl + s.readLag) (max wt 1) else max wt 1)

/-- JIT of a DELIVER or READ_PAGES (Tables 9-4, 9-5). -/
def Work.jit (w : Work) : Bool :=
  (w.d.opcode == opDELIVER && bits (w.d.b 46 1) 2 1 == 1) || (w.d.opcode == opREAD && bits (w.d.b 44 1) 1 1 == 1)

/-- One plan (R200, R201), at admission and in step 4 of every boundary: JIT holds page-ins until the planned start less
JIT_SLACK, and never again once that Stroke is reached. -/
def State.plan (s : State) (w : Work) (first : Bool) : State :=
  if w.d.deadline = 0 then s
  else
    let l := s.sLate w
    s.updWork w.id fun w =>
      { w with planned := l, held := w.jit && (first || w.held) && decide (s.stroke < l - s.get TIER.JIT_SLACK.STROKES) }

/-- Every admitted DELIVER, READ_PAGES, PIN, PROMOTE and ATTN_PARTIAL planned (R200, R299). -/
def State.planAll (s : State) : State :=
  (s.wk.works.filter fun w => w.phase = 1 ∧ (opStream w.d.opcode ∨ w.d.opcode = opPIN ∨ w.d.opcode = opSCORE ∨ w.d.opcode = opATTN)).foldl
    (fun s w => s.plan w false) s

/-! ### Admission of the range opcodes (R196) -/

/-- The range reaches past the sequence's layers. -/
def State.layerRange (s : State) (d : Desc) : Bool :=
  match s.seqBySid d.tid d.sid with
  | none => false
  | some q => decide (q.layers < d.fl + d.nl)

/-- Admission of a range opcode: LAYER_RANGE, then its first plan. -/
def State.admitRange (s : State) (id : Nat) : State :=
  s.admitWith id fun s w => if s.layerRange w.d then s.latch id stPARTIAL dtLAYER_RANGE 0 else s.plan w true

/-- READ_PAGES (R196, R197). -/
def execReadPages (d : Desc) (s : State) : Res := .next (s.rowAdmit opREAD d fun s id => s.admitRange id)

/-- PIN (R208). -/
def execPin (d : Desc) (s : State) : Res := .next (s.rowAdmit opPIN d fun s id => s.admitRange id)

/-- UNPIN (R208). -/
def execUnpin (d : Desc) (s : State) : Res := .next (s.rowAdmit opUNPIN d fun s id => s.admitRange id)

/-- SCORE_UPDATE (R207). -/
def execScoreUpdate (d : Desc) (s : State) : Res := .next (s.rowAdmit opSCORE d fun s id => s.admitRange id)

/-! ### READ_PAGES -/

/-- The bytes and the references of a page's read: a stored page, or 64 KiB of zeros (R197, R275). -/
def State.readDram (s : State) (g : Page) : List Byte := s.pageBytes g

/-- The next chunk of a READ_PAGES (R144, R197, R198). -/
def State.decRead (s : State) (w : Work) : Dec :=
  match s.seqBySid w.d.tid w.d.sid with
  | none => .wait
  | some q =>
    let (b, l) := s.visit w w.next
    let p := q.page b l
    let addr := w.d.b 56 8 + w.next * w.d.b 52 4
    let draw : Res6 := { Res6.zero with dram := 16 }
    match s.gate q b l with
    | .wrapped => .stop s stPARTIAL dtWRAPPED
    | .beyond => .stop s stPARTIAL dtBEYOND
    | .zeros => .go ((s.resolve q p).flagWork w.id flUNWRITTEN) draw [] false (.host addr (zeros 65536))
    | .lost c now => .pass ((s.undefTarget w.d w.next).lose w p c now)
    | .flash _ => .wait
    | .ready g =>
      if !s.lagged g then .wait
      else
        let s1 := if hdrSizeRaw g.hdr then s.flagWork w.id flRAW else s
        if g.bad ≠ 0 then .pass ((s.undefTarget w.d w.next).loseCoded w p) else .go (s1.resolve q p) draw [g.pid] false (.host addr (s.readDram g))

/-! ### PIN, UNPIN, SCORE_UPDATE -/

/-- A sequence's pin on a page set or released (R208): the leaf changes, and its cached copy is gone (R157). -/
def State.setPin (s : State) (sq p : Nat) (on : Bool) : State :=
  match s.leafAt sq p, s.seqIdx sq with
  | some l, some q =>
    if l.pinned = on then s
    else (s.setSq fun x => { x with leaves := x.leaves.map fun l => if l.sq = sq ∧ l.p = p then { l with pinned := on } else l }).unwalk q.tid
      (q.base + p)
  | _, _ => s

/-- The next position of a PIN (R208). -/
def State.decPin (s : State) (w : Work) : Dec :=
  match s.seqBySid w.d.tid w.d.sid with
  | none => .wait
  | some q =>
    if s.forkTarget q.sid then .wait else
    let (b, l) := s.visit w w.next
    let p := q.page b l
    let part := s.partOf q.tid
    match s.gate q b l with
    | .wrapped => .stop s stPARTIAL dtWRAPPED
    | .beyond => .stop s stPARTIAL dtBEYOND
    | .zeros => .pass s
    | .lost c now => .pass (s.lose w p c now)
    | .flash _ => .wait
    | .ready g =>
      if s.pinsOf g.pid = 0 ∧ s.get TIER.PIN_CAP.FRAMES part ≤ s.pinned part then .stop s stPARTIAL dtPIN_CAP
      else .pass ((s.resolve q p).setPin q.idx p true)

/-- The next position of an UNPIN (R208). -/
def State.decUnpin (s : State) (w : Work) : Dec :=
  match s.seqBySid w.d.tid w.d.sid with
  | none => .wait
  | some q =>
    if s.forkTarget q.sid then .wait else
    let (b, l) := s.visit w w.next
    match s.gate q b l with
    | .wrapped => .stop s stPARTIAL dtWRAPPED
    | .beyond => .stop s stPARTIAL dtBEYOND
    | _ => .pass (s.setPin q.idx (q.page b l) false)

/-- The built-in score of a page (R203). -/
def State.builtinScore (s : State) (g : Page) : Nat :=
  g.prio * 4096 + (4095 - (s.stroke - g.last) / 2 ^ s.get TIER.SCORE_CTRL.AGE_SHIFT)

/-- A page's score: the hook's where one is live for its tenant and has scored the page, else the built-in one (R203, R311). -/
def State.scoreOf (s : State) (g : Page) : Nat := if s.hookLive g.tid 0 then g.score.getD g.eval else g.eval

/-- The metadata changes of a SCORE_UPDATE on a page in DRAM (R207); TOUCH or a hint queues an eviction call (R311). -/
def State.scoreUpdate (s : State) (d : Desc) (g : Page) : State :=
  let m := d.b 44 1
  let hint := d.b 48 4
  let s1 := s.updPage g.pid fun g =>
    { g with prio := if bits m 4 1 = 1 then bits m 0 4 else g.prio, last := if bits m 5 1 = 1 then s.stroke else g.last, hint := hint }
  let s2 := s1.updPage g.pid fun g => { g with eval := s1.builtinScore g }
  if s.hookLive g.tid 0 ∧ (bits m 5 1 = 1 ∨ hint ≠ 0) ∧ ¬ s.gear.queued.contains g.pid then
    s2.setGear fun x => { x with queued := x.queued ++ [g.pid] }
  else s2

/-- The next position of a SCORE_UPDATE (R207). -/
def State.decScore (s : State) (w : Work) : Dec :=
  match s.seqBySid w.d.tid w.d.sid with
  | none => .wait
  | some q =>
    if s.forkTarget q.sid then .wait else
    let (b, l) := s.visit w w.next
    match s.gate q b l with
    | .wrapped => .stop s stPARTIAL dtWRAPPED
    | .beyond => .stop s stPARTIAL dtBEYOND
    | .ready g => .pass ((s.resolve q (q.page b l)).scoreUpdate w.d g)
    | .flash _ => if bits (w.d.b 44 1) 6 1 = 1 then .wait else .pass s
    | _ => .pass s

/-! ### Page-ins and programs as flash chunks (R190, R193 to R195) -/

/-- The partition whose flash budget a region's programs draw: that of the tenant that owns it, or of the pool region. -/
def State.regionPart (s : State) (idx : Nat) : Nat :=
  match s.flash.adopted.find? (·.1 = idx) with
  | some a => s.partOf a.2
  | none => if idx < 1024 then s.partOf idx else if idx < 1280 then s.get POOL.REGION_DEF.PARTITION (idx - 1024) else 0

/-- What a flash chunk could be: a page-in read of a work, or a program. -/
inductive FlashJob where
  | read (w : Work) (g : Page)
  | program (idx nand : Nat)
  /-- The next read of a swap page-in (R386). -/
  | swap (key : Nat)
  deriving DecidableEq, Repr

/-- The first page ahead of a work with reads to start. -/
def State.nextRead (s : State) (w : Work) : Option Page :=
  if w.held then none else ((s.flashAhead w).find? fun x => s.readsLeft x.2 ≠ 0).map (·.2)

/-- Sector of a pool page on flash. -/
def State.swapSector (s : State) (key : Nat) : Nat := (kvFind s.pool.flashAt key).getD 0

/-- Reads of a swap page-in that are still to start: four NAND pages, each by reconstruction while its die is dead (R386, R218). -/
def State.swapPlan (s : State) (key : Nat) : List (Nat × Bool) := s.asReads (s.readPlan key (nandsOf (s.swapSector key) 16))

/-- A partition's flash jobs in order of service (R44). -/
def State.flashJobs (s : State) (p : Nat) : List FlashJob :=
  let rs := (s.serviceOrder p fun w => w.stop.isNone).filterMap fun w => (s.nextRead w).map fun g => ((s.orderOf w, w.id), FlashJob.read w g)
  let limit := s.period * 18 / 5
  let ps := if limit ≤ s.tier.progs then [] else
    (s.tier.ready.filter fun r => s.regionPart r.1 = p).map fun r =>
      ((r.2.2 + s.lget PART.IMPLICIT_HORIZON.STROKES p, s.wk.next), FlashJob.program r.1 r.2.1)
  let ss := (s.pool.swapIn.filter fun x => s.regionPart (1024 + bits x.key 40 8) = p ∧ s.swapPlan x.key ≠ []).map fun x =>
    ((x.since + s.lget PART.IMPLICIT_HORIZON.STROKES p, s.wk.next), FlashJob.swap x.key)
  (inOrder (·.1) (rs ++ ss ++ ps)).map (·.2)

/-- A NAND operation under way: its command wakes a gated flash domain (R440). -/
def State.addOp (s : State) (kind pid nand sub : Nat) (recon : Bool) (index : Nat) : State :=
  s.wakeFlash.setTier fun t => { t with ops := t.ops ++ [⟨t.nextOp, kind, pid, nand, sub, recon, index⟩], nextOp := t.nextOp + 1 }

/-- The next read of a plan starts: what is left of it stands, and the first read of a reconstruction is counted (R218). -/
def State.takeRead (s : State) (kind key : Nat) (plan : List (Nat × Bool)) : State :=
  match s.asReads plan with
  | [] => s
  | (nand, rec) :: t =>
    let left := (t.filter (· = (nand, true))).length % 15
    let s1 := s.setTier fun x => { x with plans := kvSet x.plans key t }
    (if rec ∧ left = 14 then s1.add64 TIER.RECON_READS_LO.off else s1).addOp kind key nand (if rec then 14 - left else 0) rec 0

/-- The next NAND read of a page-in starts (R190, R194): the first takes the frame. -/
def State.startRead (s : State) (g : Page) : State :=
  let s1 :=
    if g.st = 4 then
      ((s.updPage g.pid fun g => { g with st := 5, frame := some s.newFrame, started := 0, done := 0 }).nextFree).add64
        TIER.PAGE_INS_LO.off
    else s
  (s1.updPage g.pid fun g => { g with started := g.started + 1, readAt := s.stroke }).takeRead 0 g.pid (s.readPlan g.pid g.nands)

/-- The next NAND read of a swap page-in starts (R386). -/
def State.startSwapRead (s : State) (key : Nat) : State :=
  match s.pool.swapIn.find? (·.key = key) with
  | none => s
  | some x =>
    let f (y : SwapIn) : SwapIn := if y.key = key then { y with started := y.started + 1, readAt := s.stroke } else y
    let s1 : State := { s with pool := { s.pool with swapIn := s.pool.swapIn.map f } }
    (if x.started = 0 then s1.add64 POOL.SWAP_INS_LO.off else s1).takeRead 2 key (s.readPlan key (nandsOf (s.swapSector key) 16))

/-- A program chunk starts (R193, R195). -/
def State.startProgram (s : State) (idx nand : Nat) : State :=
  (s.setTier fun t => { t with ready := t.ready.filter (fun r => ¬ (r.1 = idx ∧ r.2.1 = nand)), progs := t.progs + 1 }).addOp 1 0 nand 0
    false idx

def flashDraw : Res6 := { Res6.zero with flash := 1 }

/-- What a region's program draws: the mirrors of a partner's tenants draw no budget (R402). -/
def programDraw (idx : Nat) : Res6 := if 1280 ≤ idx ∧ idx < 2304 ∨ 4096 ≤ idx then Res6.zero else flashDraw

/-- The first program that draws nothing. -/
def State.freeProgram (s : State) : List FlashJob → Option State
  | [] => none
  | .program idx nand :: t => if programDraw idx = Res6.zero then some (s.startProgram idx nand) else s.freeProgram t
  | _ :: t => s.freeProgram t

/-- A partition's first flash chunk that may start: a page-in that needs a frame waits while none is free (R206); the first job
that lacks only budget holds the partition's others back, but for what draws nothing (R15, R44). -/
def State.flashFirst (s : State) (p : Nat) : List FlashJob → Option State
  | [] => none
  | .read _ g :: t =>
    if g.st = 4 ∧ s.framesFree = 0 then s.flashFirst p t
    else if flashDraw.le (s.available p) then some ((s.draw p flashDraw).startRead g) else s.freeProgram t
  | .swap key :: t => if flashDraw.le (s.available p) then some ((s.draw p flashDraw).startSwapRead key) else s.freeProgram t
  | .program idx nand :: t =>
    if (programDraw idx).le (s.available p) then some ((s.draw p (programDraw idx)).startProgram idx nand) else s.freeProgram t

/-! ### Pool regions and their pages (R376, R386) -/

def State.setPool (s : State) (f : PoolSt → PoolSt) : State := { s with pool := f s.pool }

/-- POOL.REGION_STATUS.STATE (Table 16-2): 0 FREE, 1 ACTIVE, 2 STANDBY, 3 LOST, 4 DESTROYING. -/
def State.poolState (s : State) (r : Nat) : Nat := s.get POOL.REGION_STATUS.STATE r

def State.poolBase (s : State) (r : Nat) : Nat := s.pair POOL.REGION_DPA_LO.off r

def State.poolFlash (s : State) (r : Nat) : Bool := s.flag POOL.REGION_DEF.TIER r

/-- Line number of a DPA. -/
def lineOf (dpa : Nat) : Nat := dpa / 64

/-- The key of a pool page. -/
def poolKey (r page : Nat) : Nat := 2 ^ 63 + r * 2 ^ 40 + page

/-! ### Media completions -/

/-- A page's leaves, with their sequences. -/
def State.leavesOf (s : State) (pid : Nat) : List (Leaf × Seq) :=
  (s.sq.leaves.filter (·.pid = pid)).filterMap fun l => (s.seqIdx l.sq).map fun q => (l, q)

/-- A page that becomes LOST (R190, R212, R219): its frame is given back, a LOST record is logged for each holder, the fault is
reported. -/
def State.losePage (s : State) (pid : Nat) : State :=
  match s.pageBy pid with
  | none => s
  | some g =>
    let s1 := (s.updPage pid fun g => { g with st := 7, frame := none }).setTier fun t => { t with plans := kvDel t.plans pid }
    let s2 := (s.leavesOf pid).foldl (fun s x => s.logKv x.2.tid (recPage 6 x.2.sid x.1.p g.hdr g.body (g.flash.getD 0))) s1
    s2.fault clsPAGE_LOSS 0 (tidSidInfo g.tid (hdrSID g.hdr))

/-- A page-in whose reads are all done (R158, R190, R203): the page is CLEAN, its LAST the Stroke of its last read's start, or LOST where its
header does not verify against its leaf. -/
def State.finishRead (s : State) (pid : Nat) : State :=
  match s.pageBy pid with
  | none => s
  | some g =>
    if g.st ≠ 5 ∨ g.done < g.started ∨ s.readsLeft g ≠ 0 then s
    else if !hdrValid g.hdr || hdrGEN g.hdr % 256 != g.gen then s.losePage pid
    else
      let prio := s.get TIER.SCORE_CTRL.DEFAULT_PRIORITY
      let t := (s.updPage pid fun g => { g with st := 3, prio := prio, last := g.readAt, score := none }).setTier fun t =>
        { t with plans := kvDel t.plans pid }
      t.updPage pid fun g => { g with eval := t.builtinScore g }

/-- Channel group state codes of TIER.GROUP_STATUS. -/
def State.groupState (s : State) (g : Nat) : Nat := s.get TIER.GROUP_STATUS.STATE g

/-- A channel group's new state, with its event and fault (R217, Table 20-2). -/
def State.setGroup (s : State) (g st : Nat) : State :=
  ((s.put TIER.GROUP_STATUS.STATE st g).event (some [0]) 0x42 (g + st * 16)).fault clsRESOURCE g 0

/-- Stripes of a channel group that hold live data and have their parity: what a rebuild reconstructs (R217). -/
def State.liveStripes (s : State) (g : Nat) : List Nat :=
  let live := s.flash.chains.flatMap (·.liveSectors s.flash.media) ++ s.usedSectors
  s.flash.parity.filter fun p => nandGroupOf (60 * p) = g ∧ live.any fun x => stripeOf x = p

/-- Erase blocks of a list of stripes. -/
def blocksOf (stripes : List Nat) : Nat := (stripes.map fun p => blockOf (60 * p)).eraseDups.length

/-- The stripes a group's rebuild has still to reconstruct, and REBUILD_BLOCKS with them. -/
def State.setRebuild (s : State) (g d : Nat) (left : List Nat) : State :=
  (s.setTier fun t => { t with rebuild := kvSet t.rebuild g (d, left) }).put TIER.REBUILD_BLOCKS.BLOCKS (blocksOf left) g

/-- A group takes a spare for a dead die and rebuilds onto it. -/
def State.takeSpare (s : State) (g d : Nat) : State :=
  ((s.put TIER.GROUP_STATUS.SPARES_LEFT (s.get TIER.GROUP_STATUS.SPARES_LEFT g - 1) g).setRebuild g d (s.liveStripes g)).setGroup g 1

/-- The die that has a place of a group's stripes: the spare that took it, if any. -/
def State.dieOf (s : State) (g d : Nat) : Nat := (kvFind s.tier.spared (g * 16 + d)).getD d

/-- A pool page whose flash copy is lost: one in the swap cache is modified from now, so that it is written anew; of any other every line is
poisoned (R387, R398). -/
def State.losePoolPage (s : State) (key : Nat) : State :=
  let r := bits key 40 8
  let page := bits key 0 40
  let l0 := lineOf (s.poolBase r + page * 65536)
  let s1 := s.setPool fun x => { x with flashAt := kvDel x.flashAt key }
  if s.pool.swap.any fun y => y.region = r ∧ y.page = page then
    s1.setPool fun x => { x with swap := x.swap.map fun y => if y.region = r ∧ y.page = page then { y with dirty := true } else y }
  else
    ((s1.setPool fun x =>
      { x with
        swapIn := x.swapIn.filter (·.key ≠ key)
        poison := x.poison ++ ((List.range 1024).map (l0 + ·)).filter fun l => ¬ x.poison.contains l }).setTier fun t =>
      { t with plans := kvDel t.plans key }).fault clsPAGE_LOSS 0 0

/-- NAND pages lost for good (R219): the FLASH and PAGING_IN pages with a sector in them become LOST (Table 9-2 gives no other state a way
there: a page in DRAM keeps its only copy, R191), and the pool pages with one are lost. -/
def State.loseNands (s : State) (ns : List Nat) : State :=
  let s1 := s.setFlash fun x => { x with lost := x.lost ++ ns.filter fun n => ¬ x.lost.contains n }
  let s2 := (s1.sq.pages.filter fun p => (p.st = 4 ∨ p.st = 5) ∧ p.nands.any ns.contains).foldl (fun s p => s.losePage p.pid) s1
  (s2.pool.flashAt.filter fun y => (nandsOf y.2 16).any ns.contains).foldl (fun s y => s.losePoolPage y.1) s2

/-- A page's flash copy has a sector in a lost NAND page. -/
def State.copyLost (s : State) (g : Page) : Bool := g.nands.any s.flash.lost.contains

/-- In a group that is EXPOSED, the NAND pages on dead dies of doubly lost stripes are lost (R219). -/
def State.loseExposed (s : State) (g : Nat) : State :=
  let used := s.sq.pages.flatMap (·.nands) ++ s.pool.flashAt.flatMap fun y => nandsOf y.2 16
  s.loseNands (used.eraseDups.filter fun n => nandGroupOf n = g ∧ s.onDead n ∧ s.otherDead n)

/-- A die's copies of log pages and of the anchor are gone: they have no parity (R210, R216). -/
def State.cutCopies (s : State) (g d : Nat) : State :=
  let cut (p : LogPage) : LogPage := { p with copies := p.copies.filter (· ≠ (g, d)) }
  s.setFlash fun x =>
    { x with
      chains := x.chains.map fun c => { c with pages := c.pages.map cut }
      slots := (List.range x.slots.length).map fun k =>
        let a := x.slots.getD k ⟨0, false, 0, []⟩
        if anchorPlace k = (g, d) then { a with valid := false } else a }

/-- A DEFINE record of a pool region (Table 16-10). -/
def isDefine (r : Nat) : Bool := recType r == 11 && bits r 4 2 == 0

/-- A flash region's DEFINE record is in no copy of its log any more (R399). -/
def State.defineLost (s : State) (r : Nat) : Bool :=
  !(s.buffered (1024 + r)).any isDefine &&
    (s.chainAt (1024 + r)).any fun c =>
      c.pages.any (fun p => p.recs.any isDefine) && c.pages.all fun p => !p.recs.any isDefine || p.copies == []

/-- A region is LOST (R399): what follows for its hosts comes at the boundary, by its state. -/
def State.loseRegion (s : State) (r : Nat) : State :=
  ((s.put POOL.REGION_STATUS.STATE 3 r).event (some [0]) 0x46 r).fault clsRESOURCE r 0

/-- Flash regions whose DEFINE record is lost in every copy become LOST (R399). -/
def State.loseDefines (s : State) : State :=
  ((List.range 256).filter fun r => (s.poolState r == 1 || s.poolState r == 2) && s.poolFlash r && s.defineLost r).foldl
    State.loseRegion s

/-- A die declared dead (R217): a spare is rebuilt, or the group is DEGRADED; with another die dead or being rebuilt it is EXPOSED. -/
def State.dieDead (s : State) (g d : Nat) : State :=
  if s.tier.dead.contains (g, d) then s
  else
    let s1 := (((s.put TIER.GROUP_STATUS.DEAD_DIES (s.get TIER.GROUP_STATUS.DEAD_DIES g ||| 2 ^ s.dieOf g d) g).setTier fun t =>
      { t with dead := t.dead ++ [(g, d)] }).cutCopies g d).loseDefines
    let st := s.groupState g
    if st = 0 then (if s.get TIER.GROUP_STATUS.SPARES_LEFT g ≠ 0 then s1.takeSpare g d else s1.setGroup g 2)
    else (if st = 3 then s1 else s1.setGroup g 3).loseExposed g

/-- Stripes that the flash commands and program slots left in a Stroke reconstruct: 15 reads and a program each (R217). -/
def State.rebuildRoom (s : State) : Nat := min (s.bnd.capLeft.flash / 16) (s.period * 18 / 5 - s.tier.progs)

/-- The rebuilds go on with what the Stroke's chunks left (R217). -/
def State.dieRebuildTurn (s : State) : State :=
  (s.tier.rebuild.foldl (fun (acc : State × Nat) r =>
    (acc.1.setRebuild r.1 r.2.1 (r.2.2.drop acc.2), acc.2 - r.2.2.length)) (s, s.rebuildRoom)).1

/-- NAND pages of a stripe that lie on dead dies. -/
def State.deadNands (s : State) (nand : Nat) : List Nat :=
  ((List.range 15).map fun i => 60 * stripeOf nand + 4 * i).filter s.onDead

/-- A read that ended without data is repeated by reconstruction, once and where the stripe has its parity (R218); else the NAND page is lost,
with those of its stripe on dead dies (R219). -/
def State.retryRead (s : State) (o : NandOp) (ended lose : State → State) : State :=
  if o.recon ∨ !s.striped o.nand then lose (s.loseNands (o.nand :: s.deadNands o.nand))
  else
    let left := (kvFind s.tier.plans o.pid).getD []
    ended (s.setTier fun t => { t with plans := kvSet t.plans o.pid (left ++ List.replicate 15 (o.nand, true)) })

/-- How a NAND read ended (R158, R194, R217 to R219): its data came, corrected or with the last read of a reconstruction, it is repeated,
or the page is lost. -/
def State.readEnds (s : State) (o : NandOp) (res : NandRes) (ended lose : State → State) : State :=
  if s.flash.lost.contains o.nand then lose s
  else match res with
  | .ok => ended (if o.recon ∧ o.sub = 14 then s.fault clsCORRECTED 0 0 else s)
  | .corrected => ended (s.fault clsCORRECTED 0 0)
  | .uncorrectable => s.retryRead o ended lose
  | .badPage => lose s
  | .badCode => ended s
  | .dieDead => (s.dieDead (nandGroupOf o.nand) (nandDieOf o.nand)).retryRead o ended lose

/-- Sub-streams of a page read do not decode: which ones is a free value, at least one (R275; DESIGN CHOICE, log 93). A raw page has none. -/
def State.markBad (s : State) (pid : Nat) : State :=
  let m := Config.badSubs s.free % 2 ^ 16
  (s.updPage pid fun g => { g with bad := if hdrRaw g.hdr then 0 else if m = 0 then 2 ^ 16 - 1 else m }).nextFree

/-- The read of one NAND page of a page-in ended (R194, R217 to R219). What the decoding finds shows where a descriptor reads the page. -/
def State.readDone (s : State) (o : NandOp) (res : NandRes) : State :=
  if !(s.pageBy o.pid).any (·.st = 5) then s
  else (if res = .badCode then s.markBad o.pid else s).readEnds o res (fun s => (s.updPage o.pid fun g => { g with done := g.done + 1 }).finishRead o.pid) fun s =>
    if (s.pageBy o.pid).any (·.st = 5) then s.losePage o.pid else s

/-- The stored form of a page as it rests on flash and crosses to another card: header, then the stored bytes (R13, R272). -/
def storedForm (g : Page) : List Byte := g.hdr ++ storedBody g.hdr g.body

/-- The KEYCHECK record before a tenant's first protected page of a run (R423). -/
def State.keyCheck (s : State) (tid : Nat) (hdr : List Byte) : State :=
  if hdrProt hdr ∧ ¬ s.flash.keyed.contains tid then
    (s.logKv tid (recKeycheck tid (s.reg PART.KEY_KCV.off tid).toNat)).setFlash fun x => { x with keyed := x.keyed ++ [tid] }
  else s

/-- Every program that holds a page's sectors completed (R190, R193, R212): the flash copy is valid, its PAGE record is logged for
each holder, and a demoted page leaves DRAM once nothing refers to it. -/
def State.pageProgrammed (s : State) (pid first : Nat) : State :=
  match s.pageBy pid with
  | none => s
  | some g =>
    if g.st ≠ 2 then s
    else
      let s1 := (s.updPage pid fun g => { g with st := 3, flash := some first }).setFlash fun x =>
        { x with media := kvSet x.media first (storedForm g) }
      let s2 := ((s.leavesOf pid).map (·.2.tid)).eraseDups.foldl (fun s t => s.keyCheck t g.hdr) s1
      let s3 := (s.leavesOf pid).foldl (fun s x =>
        let s := s.logKv x.2.tid (recPage 1 x.2.sid x.1.p g.hdr g.body first)
        if s.kvMirrored x.2.tid then
          { s with pool := { s.pool with kvOut := s.pool.kvOut ++ [⟨x.2.tid, none, x.2.sid, x.1.p, storedForm g, false⟩] } }
        else s) s2
      if s.tier.demote.contains pid then (s3.add64 TIER.DEMOTIONS_LO.off).endDemotion pid else s3

/-- A data NAND page of a stripe is programmed (R192): after the fifteenth its parity is programmed. -/
def State.stripeTurn (s : State) (nand : Nat) : State :=
  let k := stripeOf nand
  let n := (kvFind s.tier.stripes k).getD 0 + 1
  if n < 15 then s.setTier fun t => { t with stripes := kvSet t.stripes k n }
  else (s.setTier fun t => { t with stripes := kvDel t.stripes k }).setFlash fun x => { x with parity := x.parity ++ [k] }

/-- The program of one NAND page of a KV page ended (R194): placements whose last NAND page it was are complete. -/
def State.placedDone (s : State) (idx nand : Nat) : State × List Placed :=
  let hit := s.tier.placed.filter fun p => p.index = idx ∧ p.todo.contains nand
  let s1 := s.setTier fun t => { t with placed := (t.placed.map fun p =>
    if p.index = idx then { p with todo := p.todo.filter (· ≠ nand) } else p).filter fun p => p.todo ≠ [] }
  (s1, hit.filter fun p => p.todo = [nand])

/-- A rebuild ended: the spare takes the dead die's place. -/
def State.endRebuild (s : State) (g d : Nat) : State :=
  (s.setTier fun t =>
    { t with
      dead := t.dead.filter (· ≠ (g, d))
      spared := kvSet t.spared (g * 16 + d) (17 - s.get TIER.GROUP_STATUS.SPARES_LEFT g)
      rebuild := kvDel t.rebuild g }).put TIER.REBUILD_BLOCKS.BLOCKS 0 g

/-- A group after a rebuild: NORMAL, or for a die still dead the next spare, or DEGRADED. -/
def State.nextRebuild (s : State) (g : Nat) : State :=
  match s.tier.dead.find? (·.1 = g) with
  | none => s.setGroup g 0
  | some d => if s.get TIER.GROUP_STATUS.SPARES_LEFT g ≠ 0 then s.takeSpare g d.2 else s.setGroup g 2

/-- DIE_REBUILD_DONE (R217, R219, R190), once every live stripe is reconstructed: the spare takes the place of the group's first dead die;
NAND pages that the rebuild found unrecoverable are lost; a die still dead takes the next spare. -/
def execDieRebuildDone (group : Nat) (lost : List Nat) (s : State) : Res :=
  let g := group % 16
  match kvFind s.tier.rebuild g with
  | none => .next s
  | some r =>
    if !s.working || r.2 != [] then .next s
    else .next ((((s.loseNands lost).loseDefines).endRebuild g r.1).nextRebuild g)

/-! ### Eviction (R203 to R206, R311) -/

/-- A candidate (R204); a CLEAN page whose flash copy is lost has its only copy in DRAM and is none (R191). -/
def State.candidate (s : State) (g : Page) : Bool :=
  (g.st == 1 || g.st == 3) && s.refsOf g.pid == 1 && s.pinsOf g.pid == 0 && g.trans == 0 &&
    (if g.st = 3 then !s.copyLost g else (s.budget (s.partOf g.tid)).flash != 0)

/-- Candidates in the order they are taken: band, oldest LAST, lowest frame (R204). -/
def State.candidates (s : State) : List Page :=
  (s.sq.pages.filter s.candidate).mergeSort fun a b =>
    let ka := (s.scoreOf a / 1024, a.last, a.frame.getD 0)
    let kb := (s.scoreOf b / 1024, b.last, b.frame.getD 0)
    decide (ka.1 < kb.1) || (ka.1 == kb.1 && (decide (ka.2.1 < kb.2.1) || (ka.2.1 == kb.2.1 && decide (ka.2.2 ≤ kb.2.2))))

/-- EVICTION (R205): below DEMOTE_LEVEL the first candidate, below DROP_LEVEL the first CLEAN one; a CLEAN page is dropped, a DIRTY
page's demotion starts. -/
def execEviction (s : State) : Res :=
  if !s.working then .next s
  else
    let free := s.framesFree
    let cs := s.candidates
    let demote := decide (free < s.lget TIER.DEMOTE_LEVEL.FRAMES)
    let pick := if demote then cs.find? (fun g => g.st == 3 || !s.flashFull)
      else if free < s.lget TIER.DROP_LEVEL.FRAMES then cs.find? (·.st = 3) else none
    match pick with
    | none => .next s
    | some g =>
      if g.st = 3 then .next ((s.dropPage g.pid).add64 TIER.DROPS_LO.off)
      else .next ((s.setTier fun t => { t with demote := t.demote ++ [g.pid] }).startWriting g.pid)

/-- The request of an eviction call (Table 13-2). -/
def State.evictRequest (s : State) (g : Page) : List Byte :=
  let age := min (s.stroke - g.last) 0xFFFFFFFF
  leBytes 16 (age + g.hint * 2 ^ 32 + g.prio * 2 ^ 64 + b01 (g.st = 1) * 2 ^ 68 + b01 (hdrProt g.hdr) * 2 ^ 69 +
    b01 (hdrLatent g.hdr) * 2 ^ 70 + g.tid * 2 ^ 80 + s.partOf g.tid * 2 ^ 90 + hdrLAYER g.hdr % 256 * 2 ^ 97 +
    hdrBLOCK g.hdr % 2 ^ 23 * 2 ^ 105)

/-- Pages an eviction sweep may call: queued ones first, then resident pages of bound tenants after the page it reached (R311). -/
def State.sweepOrder (s : State) : List Page :=
  let ps := s.sq.pages.filter fun g => g.inDram ∧ s.hookLive g.tid 0
  let q := ps.filter fun g => s.gear.queued.contains g.pid
  let rest := ps.filter fun g => ¬ s.gear.queued.contains g.pid
  q ++ rest.filter (fun g => s.gear.sweep < g.pid) ++ rest.filter (fun g => g.pid ≤ s.gear.sweep)

/-- One burst of eviction calls, up to SCORE_BURST, within the hook window (R308, R311). -/
def State.sweepBurst (s : State) : State :=
  (s.sweepOrder.take (s.get GEAR.SCORE_BURST.PAGES)).foldl (fun s g =>
    let n := s.boundSlot g.tid 0
    let ii := s.hookII n 0
    if s.gear.calls.any (fun c => c.hook = 0 ∧ c.pid = g.pid) ∨ !s.burstNow n 0 ii then s
    else
      ((s.call n 0 0 0 g.pid (s.evictRequest g)).takePort 0 ii).setGear fun x =>
        { x with queued := x.queued.filter (· ≠ g.pid), sweep := g.pid }) s

/-- Every page's built-in score evaluated (R203). -/
def State.reevaluate (s : State) : State :=
  s.setSq fun x => { x with pages := x.pages.map fun g => if g.inDram then { g with eval := s.builtinScore g } else g }

/-- SCORE_REEVALUATE (R203, R311): every page's built-in score, and one burst of the sweep where a hook is bound. -/
def execScoreReevaluate (s : State) : Res := .next (if s.working then s.reevaluate.sweepBurst else s)

/-! ### The probe and the registers (R222) -/

/-- What TIER.PROBE_RESULT shows of a page. -/
def State.probeWord (s : State) : Word :=
  let tid := s.get TIER.PROBE_TID.TID
  match s.seqBySid tid (s.reg TIER.PROBE_SID.off).toNat with
  | none => 1#32
  | some q =>
    match s.pageAt q.idx (s.reg TIER.PROBE_PAGE.off).toNat with
    | none => 1#32
    | some g =>
      BitVec.ofNat 32 (1 + g.st * 2 + min (s.refsOf g.pid) 255 * 2 ^ 8 + (if g.inDram then s.scoreOf g else 0) * 2 ^ 16)

/-- TIER.PROBE_CTRL.GO (R222). -/
def hTierProbe : Handler :=
  { Handler.plain with act := fun s _ v => if fieldGet v 0 1 = 1 then s.setReg TIER.PROBE_RESULT.off s.probeWord else s }

/-- TIER_PROBE (R222). -/
def execTierProbe (s : State) : Res := .next (bar0Bit hTierProbe TIER.PROBE_CTRL.GO s)

/-- DROP_LEVEL and DEMOTE_LEVEL (R205, R222): in force from the next boundary. -/
def hLevel (off : Nat) : Handler :=
  { Handler.plain with
    chk := fun s _ old v =>
      let drop := if off = TIER.DROP_LEVEL.off then fieldGet v 0 23 else s.get TIER.DROP_LEVEL.FRAMES
      let dem := if off = TIER.DEMOTE_LEVEL.off then fieldGet v 0 23 else s.get TIER.DEMOTE_LEVEL.FRAMES
      fieldGet old 0 23 != fieldGet v 0 23 && (decide (drop < dem) || decide (s.get TIER.FRAMES_TOTAL.FRAMES < drop))
    act := fun s _ _ => s.atBoundary (.live (regKey off 0) (s.reg off)) }

/-- LOG_FLUSH 0 is refused (R222). -/
def hLogFlush : Handler := { Handler.plain with chk := fun _ _ _ v => fieldGet v 0 16 == 0 }

end Sys2Proof.Machine
end

