-- ==== Sys2Proof/Machine/Attn.lean ====
section
/-! DEFINITION. Chapter 12: ATTN_PARTIAL, its admission, its chunks, the triples and what OUT_ADDR holds (R279 to R303, R307). -/

namespace Sys2Proof.Machine

def dtNO_ATTN_CLASS : Nat := 0x0601
def dtNO_PROGRAM : Nat := 0x0602
def dtCAPABILITY : Nat := 0x0603
def dtHEAD_RANGE : Nat := 0x0604
def dtDRAW_LIMIT : Nat := 0x0605
def dtEXT_INVALID : Nat := 0x0606
def dtATTN_NONFINITE : Nat := 0x0607
def dtATTN_INPUT : Nat := 0x0608

/-! ### The descriptor's fields (Table 12-1) -/

def atLayer (d : Desc) : Nat := d.b 32 1
def atTokens (d : Desc) : Nat := d.b 33 1
def atHeads (d : Desc) : Nat := d.b 34 2 % 2048
def atProgram (d : Desc) : Nat := d.b 36 1 % 32
def atExt (d : Desc) : Bool := bits (d.b 37 1) 0 1 == 1
def atCausal (d : Desc) : Bool := bits (d.b 37 1) 1 1 == 1
def atBias (d : Desc) : Nat := bits (d.b 37 1) 2 2
def atStrict (d : Desc) : Bool := bits (d.b 37 1) 4 1 == 1
def atSummary (d : Desc) : Bool := bits (d.b 37 1) 5 1 == 1
def atFormat (d : Desc) : Nat := bits (d.b 37 1) 6 2
def atFirst (d : Desc) : Nat := d.b 38 2 % 2048
def atQuery (d : Desc) : Nat := d.b 48 8
def atOut (d : Desc) : Nat := d.b 56 8

/-! ### Draw and footprint (R293 to R295) -/

/-- MACs per tile and core cycle of a rate: 0 BF16, 1 FP8, 2 FP4 (Table 12-4). -/
def macRate (r : Nat) : Nat := if r = 0 then 3662 else if r = 1 then 7324 else 14648

/-- Rate of a stored format's operands. -/
def operandRate (code : Nat) : Nat := if code = 1 ∨ code = 4 then 2 else if code = 2 ∨ code = 3 ∨ code = 5 then 1 else 0

/-- Used KV heads. -/
def usedHeads (d : Desc) (g : Nat) : Nat := (atFirst d + atHeads d - 1) / g - atFirst d / g + 1

/-- Rate of the operands of a class's pages, the slowest it may store (R293, R297): USER pages that the program decodes go at the BF16 rate. -/
def classOperand (c : ClassDef) (userId : Nat) : Nat :=
  if c.latent then 0 else if c.format = 0x80 then (if userId ≠ 0 then 0 else operandRate c.fallback) else operandRate c.format

/-- Rate of the operands of a stored page (R293): its own element format. -/
def pageOperand (hdr : List Byte) : Nat := if hdrLatent hdr then 0 else operandRate (hdrFORMAT hdr)

/-- The draw of a chunk in engine units (R294), `op` being its operand rate. -/
def attnDraw (d : Desc) (c : ClassDef) (g op : Nat) : Nat :=
  let m := min (macRate (atFormat d)) (macRate op)
  let a := cdiv (atTokens d * atHeads d * c.bt * 2 * c.headDim) m
  let x := if c.latent then cdiv (c.bt * 2 * usedHeads d g * c.headDim * c.rank) 7324 else 0
  cdiv (a + x + 256) 256

/-- The footprint of a chunk in bytes (R295). -/
def attnFootprint (d : Desc) (c : ClassDef) : Nat := 65536 + atTokens d * atHeads d * (6 * c.headDim + 8)

/-- The tile share in force: 384 KiB, or 320 while the constant cache is reserved (R295). -/
def State.tileShare (s : State) : Nat := if s.get CMPR.CONST_AREA.MIB = 0 then 384 else 320

/-! ### Checks and reads of admission (R281, R283, R298, R300) -/

/-- The checks 1 to 6 of R298: the DETAIL of the first that fails. -/
def State.attnFail (s : State) (d : Desc) (q : Seq) : Nat :=
  let c := s.classDef q.cls
  let g := s.lget ENG.ATTN_GROUP.GROUP q.cls
  let p := atProgram d
  let maxDim := let m := s.get ENG.PROG_INFO.MAX_HEAD_DIM_DIV32 p; if m = 0 then 1024 else 32 * m
  if g = 0 then dtNO_ATTN_CLASS
  else if !s.flag ENG.PROG_INFO.PRESENT p then dtNO_PROGRAM
  else if bits (s.get ENG.PROG_INFO.Q_FORMATS p) (atFormat d) 1 = 0 ∨ bits (s.get ENG.PROG_INFO.BIAS_KINDS p) (atBias d) 1 = 0 ∨
      (atCausal d ∧ ¬ s.flag ENG.PROG_INFO.CAUSAL p) ∨ (c.latent ∧ ¬ s.flag ENG.PROG_INFO.LATENT p) ∨ maxDim < c.headDim then dtCAPABILITY
  else if c.heads * g < atFirst d + atHeads d then dtHEAD_RANGE
  else if q.layers ≤ atLayer d then dtLAYER_RANGE
  else if 64 < attnDraw d c g (classOperand c (s.reg ENG.PROG_USER_ID.off p).toNat) ∨ s.tileShare * 1024 < attnFootprint d c then dtDRAW_LIMIT
  else 0

/-- Bytes of the query rows. -/
def queryBytes (d : Desc) (c : ClassDef) : Nat := atTokens d * atHeads d * c.headDim * 2

/-- Address of the extension record. -/
def extAddr (d : Desc) (c : ClassDef) : Nat := atQuery d + cdiv (queryBytes d c) 64 * 64

/-- The range list is strictly ascending without overlap, every entry at least one block (R281). -/
def rangesOk : List (Nat × Nat) → Bool
  | [] => true
  | [r] => r.2 != 0
  | r :: t :: rest => r.2 != 0 && decide (r.1 + r.2 ≤ t.1) && rangesOk (t :: rest)

/-- The extension record's fields: position, ranges, mask and bias addresses; none where they break Table 12-2 or R281. -/
def State.readExt (s : State) (d : Desc) (c : ClassDef) : Option (Nat × List (Nat × Nat) × Nat × Nat) :=
  if !atExt d then some (0, [(d.b 40 4, d.b 44 4)], 0, 0)
  else
    let e := s.memRead (extAddr d c) 64
    let n := leAt e 4 2
    let ra := leAt e 8 8
    let ma := leAt e 16 8
    let ba := leAt e 24 8
    let vec := atBias d = 1 ∨ atBias d = 2
    let rs := (List.range (min n 4096)).map fun i => (leNat (s.memRead (ra + 8 * i) 4), leNat (s.memRead (ra + 8 * i + 4) 4))
    let bad := n = 0 ∨ 4096 < n ∨ leAt e 6 2 ≠ 0 ∨ ra = 0 ∨ ra % 8 ≠ 0 ∨ ma % 8 ≠ 0 ∨ ba % 4 ≠ 0 ∨ (vec ∧ ba = 0) ∨ (¬ vec ∧ ba ≠ 0) ∨
      leNat (e.drop 32) ≠ 0 ∨ ¬ rangesOk rs
    if bad then none else some (leAt e 0 4, rs, ma, ba)

/-- A BF16 that is not finite. -/
def bf16Bad (x : Nat) : Bool := bits x 7 8 == 255

/-- A bias that ends the descriptor (R286): NaN or +∞. -/
def biasBad (w : Word) : Bool := w == 0x7F800000#32 || fp32Nan w

/-- The bucket of a total of pages (R300). -/
def State.attnBucket (s : State) (pages : Nat) : Nat :=
  if pages ≤ s.lget ENG.ATTN_BUCKETS_0.EDGE then 0
  else if pages ≤ s.lget ENG.ATTN_BUCKETS_1.EDGE then 1
  else if pages ≤ s.lget ENG.ATTN_BUCKETS_2.EDGE then 2 else 3

/-! ### The triple of a page (R285 to R291) -/

/-- A triple: m, S, V. -/
abbrev Triple := Word × Word × List Word

def emptyTriple (dim : Nat) : Triple := (fp32NegInf, 0#32, List.replicate dim 0#32)

/-- The exponential of a difference that is at most 0. -/
def expDiff (a m : Word) : Word := exp32 (fadd32 a (fneg32 m))

/-- Two triples merged (R291). -/
def mergeTriple (a b : Triple) : Triple :=
  if a.1 = fp32NegInf then b
  else if b.1 = fp32NegInf then a
  else
    let m := if flt32 a.1 b.1 then b.1 else a.1
    let ca := expDiff a.1 m
    let cb := expDiff b.1 m
    let mix (x y : Word) : Word := fadd32 (fmul32 x ca) (fmul32 y cb)
    (m, mix a.2.1 b.2.1, List.zipWith mix a.2.2 b.2.2)

/-- A page as its rows are taken: for a KV head and a position, the exact K or V elements. -/
structure PageView where
  bt   : Nat
  dim  : Nat
  /-- Row of KV head κ at position t: 0 keys, 1 values. -/
  rows : List (List (List Dy) × List (List Dy))
  deriving DecidableEq, Repr

/-- The rows of the used KV heads of a page, from its own header (R170, R262, R267): position by position, keys then values. -/
def State.pageView (s : State) (c : ClassDef) (layer : Nat) (g : Page) (kv0 ku : Nat) : PageView :=
  let body := s.plainBody g
  let f := hdrFmt g.hdr
  let bt := hdrBT g.hdr
  if hdrLatent g.hdr then
    let image := ((s.gear.consts.find? (·.set = c.set)).map (·.image)).getD []
    let z (t : Nat) : List Dy :=
      let (v, sc) := payloadRow f (hdrELEMS g.hdr) 1 bt body 0 t
      decodeRow f (hdrELEMS g.hdr) v sc
    let row (t base : Nat) : List Dy := (List.range c.headDim).map fun i => multiplyOut image layer (hdrELEMS g.hdr) c.width (z t) (base + i)
    ⟨bt, c.headDim, (List.range bt).map fun t =>
      ((List.range ku).map (fun k => row t ((kv0 + k) * c.headDim)), (List.range ku).map (fun k => row t ((c.heads + kv0 + k) * c.headDim)))⟩
  else
    let e := hdrELEMS g.hdr
    let n := hdrHEADS g.hdr
    let row (r t : Nat) : List Dy :=
      let (v, sc) := payloadRow f e (2 * n) bt body r t
      decodeRow f e v sc
    ⟨bt, e, (List.range bt).map fun t => ((List.range ku).map (fun k => row (kv0 + k) t), (List.range ku).map (fun k => row (n + kv0 + k) t))⟩

/-- The query row of token `i` and head index `h` in the compute format (R288 step 2). -/
def queryRow (d : Desc) (a : AttnSt) (dim rule i h : Nat) : List Dy :=
  let raw := (a.query.drop ((i * atHeads d + h) * dim)).take dim
  let vs := raw.map fun x => bf16Decode x.toNat
  if atFormat d = 0 then vs.map fun v => match v with
    | .fin x => x
    | _ => Dy.zero
  else
    let f : Fmt := if atFormat d = 1 then ⟨2, 8, 1, 32⟩ else ⟨1, 4, 1, 32⟩
    let (v, sc) := quantRow f rule vs
    decodeRow f dim v sc

/-- Weights in the compute format (R288 step 7). -/
def weights (fmt rule : Nat) (es : List Word) : List Dy :=
  if fmt = 0 then es.map bf16Round
  else
    let n := cdiv es.length 32 * 32
    let f : Fmt := if fmt = 1 then ⟨2, 8, 1, 32⟩ else ⟨1, 4, 1, 32⟩
    let vs := (es ++ List.replicate (n - es.length) 0#32).map fp32Decode
    let (v, sc) := quantRow f rule vs
    (decodeRow f n v sc).take es.length

/-- 1 where an operation on finite operands overflowed (R288). -/
def overflowed (ins : List Word) (out : Word) : Nat := b01 (ins.all fp32Finite && fp32Inf out)

/-- A position's score and the FP32 results of it that overflowed (R288 steps 3 and 4). -/
def scoreOf (q k : List Dy) (scale bias : Word) : Word × Nat :=
  let r := r266 (List.zipWith Dy.mul q k)
  let y := fmul32 r scale
  let z := fadd32 y bias
  (z, b01 (fp32Inf r) + overflowed [r, scale] y + overflowed [y, bias] z)

/-- The triple of one (i, h) over a page's positions, with how many FP32 results overflowed (R288). `att` lists the attended positions
with their biases. Where a score is +∞ or a NaN an exponential is a NaN, and so are S and V (DESIGN CHOICE, log 96). -/
def headTriple (v : PageView) (fmt rule : Nat) (scale : Word) (q : List Dy) (k : Nat) (att : List (Nat × Word)) : Triple × Nat :=
  if att = [] then (emptyTriple v.dim, 0)
  else
    let rowK (t : Nat) : List Dy := ((v.rows.getD t ([], [])).1).getD k []
    let rowV (t : Nat) : List Dy := ((v.rows.getD t ([], [])).2).getD k []
    let sc : List (Nat × Word × Nat) := att.map fun x => (x.1, scoreOf q (rowK x.1) scale x.2)
    let m := sc.foldl (fun m x => if flt32 m x.2.1 then x.2.1 else m) fp32NegInf
    let es := (List.range v.bt).map fun t => match sc.find? (·.1 = t) with
      | some x => expDiff x.2.1 m
      | none => 0#32
    let ps := weights fmt rule es
    let one : Dy := ⟨1, 0⟩
    let sum := r266 (ps.map fun p => Dy.mul p one)
    let vs := (List.range v.dim).map fun i => r266 (List.zipWith (fun p t => Dy.mul p ((rowV t).getD i Dy.zero)) ps (List.range v.bt))
    let subs := (sc.map fun x => overflowed [x.2.1, m] (fadd32 x.2.1 (fneg32 m))).foldl (· + ·) 0
    let scores := (sc.map (·.2.2)).foldl (· + ·) 0 + subs
    if es.any fp32Nan then ((m, Config.nan32, vs.map fun _ => Config.nan32), scores)
    else ((m, sum, vs), scores + b01 (fp32Inf sum) + (vs.filter fp32Inf).length)

/-- The blocks listed before a block of the ranges, for its list index (R282). -/
def listIndex (a : AttnSt) (bt b t : Nat) : Nat :=
  let before := (a.ranges.filter fun r => r.1 + r.2 ≤ b).map (·.2)
  let cur := (a.ranges.find? fun r => r.1 ≤ b ∧ b < r.1 + r.2).map (·.1)
  (before.foldl (· + ·) 0 + (b - cur.getD b)) * bt + t

/-- σ × n rounded to FP32 (R286). -/
def linearBias (sigma : Word) (n : Int) : Word :=
  match fp32Decode sigma with
  | .nan => Config.nan32
  | .inf neg => if n = 0 then Config.nan32 else if neg != decide (n < 0) then fp32NegInf else 0x7F800000#32
  | .fin x => toFp32 (Dy.mul x ⟨n, 0⟩)

/-- The bias of (i, h, p): head index `h` counts from FIRST_QHEAD; `hook` gives a hook's values by (i, h, t) (R286, R307). -/
def biasOf (d : Desc) (a : AttnSt) (hook : Nat → Nat → Nat → Word) (bt b t i h : Nat) : Word :=
  let k := atBias d
  if k = 0 then 0#32
  else if k = 1 then a.bias.getD (listIndex a bt b t) 0#32
  else if k = 2 then linearBias (a.bias.getD h 0#32) ((b * bt + t : Nat) - (a.qpos : Int) - (i : Int))
  else hook i h t

/-- Conditions 2 to 4 of R285 for position t of block b and query token i. -/
def unmasked (d : Desc) (a : AttnSt) (bt len b t i : Nat) : Bool :=
  let p := b * bt + t
  let j := listIndex a bt b t
  decide (p < len) && (!atCausal d || decide (p ≤ a.qpos + i)) &&
    (a.maskAddr == 0 || bits ((a.mask.getD (j / 8) 0#8).toNat) (j % 8) 1 == 0)

/-- What a chunk computes of a page (R279, R285, R288): triples by (i, h), positions attended, overflows; none where a bias is NaN
or +∞. -/
def State.attnPage (s : State) (w : Work) (q : Seq) (a : AttnSt) (g : Page) (len : Nat) (hook : Nat → Nat → Nat → Word) :
    Option (List Triple × Nat × Nat) :=
  let d := w.d
  let c := s.classDef q.cls
  let kv0 := atFirst d / a.group
  let v := s.pageView c (atLayer d) g kv0 (usedHeads d a.group)
  let b := hdrBLOCK g.hdr
  let ih := (List.range (atTokens d)).flatMap fun i => (List.range (atHeads d)).map fun h => (i, h)
  let open_ := (List.range (atTokens d)).map fun i => (List.range v.bt).filter fun t => unmasked d a v.bt len b t i
  let biased (i h : Nat) : List (Nat × Word) := (open_.getD i []).map fun t => (t, biasOf d a hook v.bt b t i h)
  if ih.any fun x => (biased x.1 x.2).any fun y => biasBad y.2 then none
  else
    let att (i h : Nat) : List (Nat × Word) := (biased i h).filter fun y => y.2 ≠ fp32NegInf
    let pos := ((List.range (atTokens d)).map fun i =>
      ((open_.getD i []).filter fun t => (List.range (atHeads d)).any fun h => biasOf d a hook v.bt b t i h ≠ fp32NegInf).length).foldl (· + ·) 0
    if atProgram d = 0 then
      let ts := ih.map fun x =>
        headTriple v (atFormat d) c.rule a.scale (queryRow d a v.dim c.rule x.1 x.2) ((atFirst d + x.2) / a.group - kv0) (att x.1 x.2)
      some (ts.map (·.1), pos, (ts.map (·.2)).foldl (· + ·) 0)
    else
      let image := ((s.gear.consts.find? (·.set = c.set)).map (·.image)).getD []
      let ts := ih.map fun x =>
        let args := [(s.reg ENG.PROG_INFO.off (atProgram d)).toNat, atProgram d, atFormat d, a.group, atFirst d, x.2, a.scale.toNat]
        let row := (a.query.drop ((x.1 * atHeads d + x.2) * v.dim)).take v.dim
        let f (k : Nat) : Word := Config.progWord args image (g.hdr ++ s.plainBody g) row (att x.1 x.2) k
        if att x.1 x.2 = [] then emptyTriple v.dim else (f 0, f 1, (List.range v.dim).map fun i => f (2 + i))
      some (ts, pos, 0)

/-! ### Chunks (R287, R292, R297, R300) -/

/-- The chunk's first L and last L (Table 12-3), and the chunk counted with its draw. -/
def State.attnStart (s : State) (w : Work) (a : AttnSt) (len draw : Nat) (bypass : Bool) : State :=
  let a1 : AttnSt :=
    { a with lFirst := some (a.lFirst.getD len), lLast := len, bypassed := a.bypassed + b01 bypass }
  let s1 := ((s.add64 ENG.CHUNKS_LO.off).add64 ENG.UNITS_LO.off draw).updWork w.id fun w => { w with aux := .attn a1 }
  if bypass then s1.sat ENG.HOOK_BYPASSED.COUNT else s1

/-- Calls of a bias burst, in order: query token and HEAD (R307). -/
def biasCalls (d : Desc) (a : AttnSt) (scope : Nat) : List (Nat × Nat) :=
  let kv0 := atFirst d / a.group
  let heads := match scope with
    | 0 => (List.range (atHeads d)).map (atFirst d + ·)
    | 1 => (List.range (usedHeads d a.group)).map (kv0 + ·)
    | _ => [0]
  (List.range (atTokens d)).flatMap fun i => heads.map fun h => (i, h)

/-- The request of a bias call (Table 13-5). -/
def biasRequest (qpos p0 head layer tid : Nat) : List Byte :=
  leBytes 16 (qpos % 2 ^ 32 + p0 % 2 ^ 32 * 2 ^ 32 + head * 2 ^ 64 + layer * 2 ^ 75 + tid * 2 ^ 83)

/-- A stored page's chunk without a hook's values: its triples, or NONFINITE. -/
def State.plainTriples (s : State) (w : Work) (q : Seq) (a : AttnSt) (g : Page) : RunRes :=
  match s.attnPage w q a g q.len (fun _ _ _ => 0#32) with
  | some (t, p, o) => .triples t p o
  | none => .stop stFAULT dtATTN_NONFINITE

/-- Where a chunk's biases come from (R287, R312). -/
inductive BiasUse where
  /-- Not from a slot; whether the hook's built-in behaviour stands in for one. -/
  | plain (s : State) (bypass : Bool)
  | slot (n : Nat)
  | wait
  | hookWait (s : State)
  | unavailable (s : State)

/-- The bias of a chunk over a page of `bt` positions resolves (R287, R308, R312). -/
def State.biasUse (s : State) (w : Work) (q : Seq) (a : AttnSt) (bt : Nat) : BiasUse :=
  let d := w.d
  if atBias d ≠ 3 then .plain s false
  else
    let n := s.boundSlot q.tid 3
    let issue := (biasCalls d a (s.biasScope n)).length * cdiv bt 16 * s.hookII n 3
    let moving := n < 8 ∧ (s.slotState n = 2 ∨ s.slotState n = 3 ∨ s.slotState n = 4)
    if atStrict d ∧ moving then .wait
    else
      match s.resolveHook q.tid 3 issue w.id w.next with
      | .waits s1 => .hookWait s1
      | .builtin s1 => if atStrict d then .unavailable s1 else .plain s1 true
      | .slot m => .slot m

/-- A chunk over block `b` of `bt` positions starts, its bias resolved: with what it reads, or with no row at all (R287). `enter` is what its
start does to the state once it is not held up (R157, R297). A burst is issued for every chunk, also for one whose positions are all masked
(DEDUCED, log 95). -/
def State.attnGo (s : State) (enter : State → State) (w : Work) (q : Seq) (a : AttnSt) (b bt draw : Nat) (refs : List Nat) (read : Option Page) : Dec :=
  let d := w.d
  let need : Res6 := { Res6.zero with dram := 16, engine := draw }
  match s.biasUse w q a bt with
  | .wait => .wait
  | .hookWait s1 => .hookWait s1
  | .unavailable s1 => .stop s1 stFAULT dtHOOK_UNAVAILABLE
  | .plain s1 bypass =>
    .go ((enter s1).attnStart w a q.len draw bypass) need refs false
      (match read with
        | some g => s.plainTriples w q a g
        | none => .triples [] 0 0)
  | .slot m =>
    let calls := biasCalls d a (s.biasScope m)
    let issue := calls.length * cdiv bt 16 * s.hookII m 3
    let s1 := (calls.foldl (fun s x => s.call m 3 w.id w.next 0 (biasRequest (a.qpos + x.1) (b * bt) x.2 (atLayer d) q.tid)) s).takePort 3 issue
    .go ((enter s1).attnStart w a q.len draw false) need refs false
      (match read with
        | some g => .biased (s.biasScope m) (q.page b (atLayer d)) g.hdr (s.plainBody g) q.len
        | none => .biased (s.biasScope m) (q.page b (atLayer d)) (zeros 256) [] 0)

/-- Sub-streams of a coded page that cover a byte of a row or scale of a used KV head at a position below the length (R292). -/
def usedSubs (d : Desc) (group len : Nat) (hdr : List Byte) : List Nat :=
  let f := hdrFmt hdr
  let bt := hdrBT hdr
  let n := hdrHEADS hdr
  let e := hdrELEMS hdr
  let kv := (List.range (usedHeads d group)).map (atFirst d / group + ·)
  let rows := if hdrLatent hdr then [0] else kv ++ kv.map (n + ·)
  let all := if hdrLatent hdr then 1 else 2 * n
  let vb := f.rowBytes e
  let sb := f.rowScales e
  let blk := coderBlock (hdrPAYLOAD hdr)
  let cover (o k : Nat) : List Nat := if k = 0 ∨ blk = 0 then [] else (List.range ((o + k - 1) / blk - o / blk + 1)).map (o / blk + ·)
  rows.flatMap fun r => ((List.range bt).filter fun t => hdrBLOCK hdr * bt + t < len).flatMap fun t =>
    cover ((r * bt + t) * vb) vb ++ cover (all * bt * vb + (r * bt + t) * sb) sb

/-- A page whose rows this descriptor cannot have: the loss recorded, the page counted as lost (R292, R297). -/
def State.attnLost (s : State) (w : Work) (a : AttnSt) : State :=
  s.updWork w.id fun w => { w with aux := .attn { a with lost := a.lost + 1 } }

/-- The next chunk of an ATTN_PARTIAL, its tile aside. -/
def State.attnChunk (s : State) (w : Work) : Dec :=
  match w.aux, s.seqBySid w.d.tid w.d.sid with
  | .attn a, some q =>
    let d := w.d
    let (b, l) := s.visit w w.next
    let p := q.page b l
    match s.gate q b l with
    | .wrapped => .stop s stPARTIAL dtWRAPPED
    | .beyond => .stop s stPARTIAL dtBEYOND
    | .zeros => s.attnGo (fun s => (s.resolve q p).flagWork w.id flUNWRITTEN) w q a b q.bt a.draw [] none
    | .lost c now => .pass ((s.lose w p c now).attnLost w a)
    | .flash _ => .wait
    | .ready g =>
      let enter (s : State) : State := (if hdrSizeRaw g.hdr then s.flagWork w.id flRAW else s).resolve q p
      let draw := attnDraw d (s.classDef q.cls) a.group (pageOperand g.hdr)
      if !s.lagged g then .wait
      else if hdrFORMAT g.hdr = 0x80 ∧ ((s.reg ENG.PROG_USER_ID.off (atProgram d)).toNat ≠ hdrUSERID g.hdr ∨ atProgram d = 0) then
        s.attnGo (fun s => (enter s).lose w p 4 false) w q { a with lost := a.lost + 1 } b (hdrBT g.hdr) draw [g.pid] none
      else if g.bad ≠ 0 ∧ (usedSubs d a.group q.len g.hdr).any fun k => bits g.bad k 1 = 1 then .pass ((s.loseCoded w p).attnLost w a)
      else s.attnGo enter w q a b (hdrBT g.hdr) draw [g.pid] (some g)
  | _, _ => .wait

/-- Bucket of an ATTN_PARTIAL. -/
def attnBucketOf (w : Work) : Nat :=
  match w.aux with
  | .attn a => a.bucket
  | _ => 3

/-- The bucket whose tile an attention chunk takes (R300). Tiles that a unit fault retired are gone (R474). -/
def State.tileFor (s : State) (bucket : Nat) (ready : List Nat) : Option Nat :=
  pickLane (fun b => s.keptBy opATTN b) (fun b => 16 * s.lget { ENG.ATTN_TILES.GROUPS_0 with lo := 8 * b }) (256 - s.get ERR.UNIT_RETIRED.TILES)
    ready bucket

/-- Buckets that have a ready chunk: one that lacks nothing but a tile (R300). -/
def State.attnReady (s : State) : List Nat :=
  ((s.wk.works.filter fun w => w.d.opcode == opATTN && s.hasLeft w && match s.attnChunk w with
    | .go _ draw _ _ _ => draw.le (s.available (s.partOf w.d.tid))
    | _ => false).map attnBucketOf).eraseDups

/-- The next chunk of an ATTN_PARTIAL: it takes a tile (R300). -/
def State.decAttn (s : State) (w : Work) : Dec :=
  if (s.tileFor (attnBucketOf w) s.attnReady).isNone then .wait else s.attnChunk w

/-- A page's triples kept for the merge. -/
def State.keepTriples (s : State) (w : Work) (r : Run) (t : List Triple) (pos big : Nat) : State :=
  let s1 := if big = 0 then s else s.sat ENG.OVERFLOWS.COUNT big
  s1.updWork w.id fun w =>
    match w.aux with
    | .attn a => { w with aux := .attn { a with parts := a.parts ++ [(r.idx, t)], positions := a.positions + pos, overflows := a.overflows + big } }
    | _ => w

/-- A call's place in a burst. -/
def callIndex (l : List (Nat × Nat)) (x : Nat × Nat) : Nat := (l.findIdx? (· = x)).getD 0

/-- The end of an attention chunk: its triples, or those of a hook's biases (R307, Table 13-6). -/
def State.endAttn (s : State) (w : Work) (r : Run) : State :=
  match r.res, w.aux, s.seqBySid w.d.tid w.d.sid with
  | .triples t p o, _, _ => s.keepTriples w r t p o
  | .stop st dt, _, _ => (s.fault clsINPUT 0 (tidSidInfo w.d.tid w.d.sid)).updWork w.id fun w => w.stopWith st dt
  | .biased m pg hdr body len, .attn a, some q =>
    let d := w.d
    let g0 := (s.pageAt q.idx pg).getD
      { pid := 0, tid := q.tid, st := 1, hdr := hdr, body := body, flash := none, frame := none, prio := 0, last := 0, hint := 0,
        score := none, eval := 0, trans := 0, shared := false, started := 0, done := 0, readAt := 0, gen := hdrGEN hdr % 256, bad := 0 }
    -- the page as the chunk read it: header and plaintext as they were
    let g : Page := { g0 with hdr := hdr, body := s.sealBody q.tid hdr body }
    let zero := m = 15
    let calls := biasCalls d a m
    let ans := (s.callsOf w.id r.idx).map fun c => answerBytes c (64 * cdiv (hdrBT hdr) 16)
    let hook (i h t : Nat) : Word :=
      if zero then 0#32
      else
        let head := match m with
          | 0 => atFirst d + h
          | 1 => (atFirst d + h) / a.group
          | _ => 0
        BitVec.ofNat 32 (leAt (ans.getD (callIndex calls (i, head)) []) (4 * t) 4)
    let s1 := s.dropCalls w.id r.idx
    let s2 := if zero then (s1.sat ENG.HOOK_BYPASSED.COUNT).updWork w.id fun w => { w with aux := .attn { a with bypassed := a.bypassed + 1 } }
      else s1
    -- a chunk that read no row has no position to attend
    if body = [] then s2.keepTriples w r [] 0 0
    else
    (match s.attnPage w q a g len hook with
      | some (t, p, o) => s2.keepTriples w r t p o
      | none => (s2.fault clsINPUT 0 (tidSidInfo d.tid d.sid)).updWork w.id fun w => w.stopWith stFAULT dtATTN_NONFINITE)
  | _, _, _ => s

/-! ### The end (R284, R289, R301) -/

/-- A triple's bytes (R284). -/
def tripleBytes (t : Triple) : List Byte := leBytes 4 t.1.toNat ++ leBytes 4 t.2.1.toNat ++ t.2.2.flatMap fun x => leBytes 4 x.toNat

/-- The merged triples of the pages before a visiting position, in visiting order (R289). -/
def mergeParts (n dim upto : Nat) (parts : List (Nat × List Triple)) : List Triple :=
  let ps := ((parts.filter fun x => x.1 < upto ∧ x.2 ≠ []).mergeSort fun a b => decide (a.1 ≤ b.1)).map (·.2)
  ps.foldl (fun acc t => List.zipWith mergeTriple acc t) (List.replicate n (emptyTriple dim))

/-- The summary record (Table 12-3). -/
def attnSummary (a : AttnSt) (visited : Nat) : List Byte :=
  leBytes 4 visited ++ leBytes 4 a.lost ++ leBytes 8 a.positions ++ leBytes 4 a.bypassed ++ leBytes 4 a.overflows ++
    leBytes 4 (a.lFirst.getD 0) ++ leBytes 4 a.lLast ++ leBytes 2 a.draw ++ leBytes 1 (b01 a.valid) ++ zeros 29

/-- A finished ATTN_PARTIAL: what it writes before its completion (R301), and its completion. After DONE_PARTIAL with extent 0, after
ABORTED_RESET, and where the reads of R283 ended it (R298), nothing is written (DEDUCED, log 126: R298's words for a failed read and a
non-finite query stand for a bias that the same read finds bad). -/
def State.finishAttn (s : State) (w : Work) : State :=
  match w.aux, s.seqBySid w.d.tid w.d.sid with
  | .attn a, some q =>
    let d := w.d
    let c := s.classDef q.cls
    let st := s.rangeStatus w
    let inputStop := st.2 = dtATTN_INPUT
    let extent := if inputStop then 0 else s.extentOf w
    let n := atTokens d * atHeads d
    let size := n * (8 + 4 * c.headDim)
    let bytes :=
      if a.valid then (mergeParts n c.headDim (if inputStop then 0 else w.lead) a.parts).flatMap tripleBytes
      else (List.range size).map fun i => Config.undefByte s.free i
    let atRead := w.next = 0 ∧ (st.2 = dtATTN_INPUT ∨ st.2 = dtATTN_NONFINITE)
    let silent := (st.1 = stPARTIAL ∧ extent = 0) ∨ st.1 = stRESET ∨ (st.1 = stFAULT ∧ atRead)
    let sum := if atSummary d then [(atOut d + cdiv size 64 * 64, attnSummary a extent)] else []
    let s1 := if silent then s else s.nextFree.updWork w.id fun w => { w with writes := w.writes ++ [(atOut d, bytes)] ++ sum }
    s1.latch w.id st.1 st.2 extent
  | _, _ => s

/-- A work that is finished completes by that rule. -/
def State.endAttnWork (s : State) (id : Nat) : State :=
  match s.work id with
  | none => s
  | some w => s.finishAttn w

/-! ### Admission (R281, R283, R298 to R300) -/

/-- ATTN_PARTIAL at admission: its checks, the reads of R283, its first plan (R299). A linear bias ends the descriptor at the read where its σ
is a NaN, and at a chunk where its product with an attended distance is +∞ or a NaN (DEDUCED, log 94). -/
def State.admitAttn (s : State) (id : Nat) : State :=
  s.admitWith id fun s w =>
    let d := w.d
    match s.openSeq d.tid d.sid with
    | none => s
    | some q =>
      let f := s.attnFail d q
      if f ≠ 0 then s.latch id stPARTIAL f 0
      else
        let c := s.classDef q.cls
        match s.readExt d c with
        | none => s.latch id stPARTIAL dtEXT_INVALID 0
        | some (qpos, ranges, ma, ba) =>
          let g := s.lget ENG.ATTN_GROUP.GROUP q.cls
          let qb := s.memRead (atQuery d) (queryBytes d c)
          let query : List Word := (List.range (queryBytes d c / 2)).map fun i => BitVec.ofNat 32 (leAt qb (2 * i) 2)
          let blocks := (ranges.map (·.2)).foldl (· + ·) 0
          let mask := if ma = 0 then [] else s.memRead ma (cdiv (blocks * c.bt) 8)
          let nb := if atBias d = 1 then blocks * c.bt else if atBias d = 2 then atHeads d else 0
          let bias : List Word := (List.range nb).map fun i => BitVec.ofNat 32 (leNat (s.memRead (ba + 4 * i) 4))
          let bad := query.any (fun x => bf16Bad x.toNat) ∨
            (if atBias d = 2 then bias.any fp32Nan else bias.any biasBad)
          let a : AttnSt :=
            { query := query, ranges := ranges, qpos := qpos, maskAddr := ma, mask := mask, bias := bias, group := g,
              scale := s.liveReg ENG.ATTN_SCALE.off q.cls, draw := attnDraw d c g (classOperand c (s.reg ENG.PROG_USER_ID.off (atProgram d)).toNat),
              bucket := s.attnBucket blocks, parts := [], positions := 0, overflows := 0, bypassed := 0, lost := 0, lFirst := none,
              lLast := 0, valid := true }
          let s1 := s.updWork id fun w => { w with aux := .attn a }
          if bad then
            ((s1.fault clsINPUT 0 (tidSidInfo d.tid d.sid)).updWork id fun w => w.stopWith stFAULT dtATTN_NONFINITE).endAttnWork id
          else s1.plan { w with aux := .attn a } true

/-- ATTN_PARTIAL (R280, R298). -/
def execAttnPartial (d : Desc) (s : State) : Res := .next (s.rowAdmit opATTN d fun s id => s.admitAttn id)

/-! ### Registers (R303) -/

/-- A register in force from the next boundary. -/
def hEngLive (off : Nat) (bad : State → Nat → Word → Bool) : Handler :=
  { Handler.plain with
    chk := fun s k old v => old != v && bad s k v
    act := fun s k _ => s.atBoundary (.live (regKey off k) (s.reg off k)) }

/-- KV_HEADS × GROUP at most 1,024; GROUP 1 to 64, or 0. -/
def attnGroupBad (s : State) (k : Nat) (v : Word) : Bool :=
  decide (1024 < s.get CMPR.CLASS_GEOMETRY.KV_HEADS k * fieldGet v 0 7) || decide (64 < fieldGet v 0 7)

/-- Bucket edges strictly increasing from at least 1. -/
def attnEdgesBad (off : Nat) (s : State) (_ : Nat) (v : Word) : Bool :=
  let e (r : Nat) : Nat := if off = r then v.toNat else (s.reg r).toNat
  let e0 := e ENG.ATTN_BUCKETS_0.off
  let e1 := e ENG.ATTN_BUCKETS_1.off
  let e2 := e ENG.ATTN_BUCKETS_2.off
  e0 == 0 || decide (e1 ≤ e0) || decide (e2 ≤ e1)

end Sys2Proof.Machine
end

