-- ==== Sys2Proof/Machine/Clock.lean ====
section
/-! DEFINITION. Clock domains (chapter 18): stop, start, isolation, resets, the flash clock's gate, overruns. -/

namespace Sys2Proof.Machine

/-- A Freewheel pair's state (Table 14-2). -/
def State.pairState (s : State) (i : Nat) : Nat := s.get { SPOKE.FREEWHEEL_STATUS.STATE_i with lo := 2 * i, w := 2 }

/-- Software can stop the domain: Spoke n, Sprocket, Gear fabric (Table 18-1). -/
def stoppable (d : Nat) : Bool := 11 ≤ d && d ≤ 20

/-- The domain has an ISOLATED state: flash and the stoppable ones (Table 18-5). -/
def isolable (d : Nat) : Bool := 10 ≤ d && d ≤ 20

/-- The condition of R441 under which STOP is accepted. -/
def State.stopOk (s : State) (d : Nat) : Bool :=
  if 11 ≤ d ∧ d ≤ 18 then s.get SPOKE.PORT_CTRL.MODE (d - 11) == 0 && s.pairState ((d - 11) / 2) == 0
  else if d = 19 then
    !((List.range 4096).any fun n => s.flag SRCH.NS_CTRL.ENABLE n) && s.srch.entries.isEmpty
  else (List.range 8).all (fun n => s.slotState n == 0 || s.slotState n == 6) &&
    !(decide (ldHEADER_CHECK ≤ s.load ∧ s.load ≤ ldAPPLYING) && leAt s.img.header 12 1 == 3)

/-- A RESET of the domain is permitted now (Table 18-5). -/
def State.resetOk (s : State) (d : Nat) : Bool :=
  if 11 ≤ d ∧ d ≤ 18 then s.pairState ((d - 11) / 2) == 0
  else s.phase == phFAULT || (s.phase == phCONFIGURE && !s.flag TIER.LOG_SCAN_CTRL.START)

/-- A crossing of the domain is not empty (Table 18-6). -/
def State.xingBusy (s : State) (d : Nat) : Bool := !s.flag CLK.XING_STATUS.IN_EMPTY d || !s.flag CLK.XING_STATUS.OUT_EMPTY d

/-- CLK.DOMAIN_CTRL on the selected domain (R441, R444, R445). -/
def hDomainCtrl : Handler :=
  { chk := fun s d old v =>
      let stop := fieldGet v 0 1 = 1
      let start := fieldGet v 1 1 = 1
      let rise (b : Nat) : Bool := fieldGet v b 1 == 1 && fieldGet old b 1 == 0
      let fall (b : Nat) : Bool := fieldGet v b 1 == 0 && fieldGet old b 1 == 1
      let any := rise 2 || rise 3 || rise 4 || fall 2 || fall 3 || fall 4
      (stop && start) || (stop && (s.dom d != domRUNNING || !stoppable d || !s.stopOk d)) ||
      (start && (s.dom d != domOFF || !stoppable d)) || (any && !isolable d) ||
      ((rise 3 || rise 4) && fieldGet old 2 1 == 0) ||
      (fall 2 && (fieldGet old 3 1 == 1 || fieldGet old 4 1 == 1)) || (rise 3 && !s.resetOk d)
    act := fun s d v =>
      if fieldGet v 0 1 = 1 then (s.setDom d domOFF).put CLK.DOMAIN_STATUS.PLL_LOCKED 0 d
      else if fieldGet v 1 1 = 1 then (s.setDom d domSTARTING).put CLK.DOMAIN_STATUS.PLL_LOCKED 0 d
      else
        let st := s.dom d
        let iso := fieldGet v 2 1 = 1
        let rst := fieldGet v 3 1 = 1
        let xr := fieldGet v 4 1 = 1
        let s1 :=
          if st = domOFF then s
          else if rst then s.setDom d domIN_RESET
          else if st = domIN_RESET then s.setDom d domSTARTING
          else if iso ∧ (st = domRUNNING ∨ st = domGATED) then s.setDom d domISOLATED
          else if ¬ iso ∧ st = domISOLATED then s.setDom d domRUNNING
          else s
        if (rst ∨ xr) ∧ s.xingBusy d then
          ((((s1.setReg CLK.XING_DIRTY.off (s1.reg CLK.XING_DIRTY.off ||| BitVec.ofNat 32 (2 ^ d))).put
            CLK.XING_STATUS.IN_EMPTY 1 d).put CLK.XING_STATUS.OUT_EMPTY 1 d).fault clsUNIT d 0).event (some [0]) 0x40
            (6 + d * 2 ^ 8)
        else s1
    post := fun s _ => s }

/-- DOMAIN_STOP (R441). -/
def execDomainStop (s : State) : Res := .next (bar0Bit hDomainCtrl CLK.DOMAIN_CTRL.STOP s)

/-- DOMAIN_START (R441). -/
def execDomainStart (s : State) : Res := .next (bar0Bit hDomainCtrl CLK.DOMAIN_CTRL.START s)

/-- A write of one RW field of DOMAIN_CTRL that leaves the others. -/
def State.domCtrlField (s : State) (f : Fld) (b : Bool) : State :=
  let w := s.reg CLK.DOMAIN_CTRL.off (s.reg CLK.DOMAIN_SELECT.off).toNat
  bar0 hDomainCtrl CLK.DOMAIN_CTRL.off (fieldPut (w &&& 0x1C#32) f.lo 1 (b01 b)) s

/-- ISOLATE (R444). -/
def execIsolate (set : Bool) (s : State) : Res := .next (s.domCtrlField CLK.DOMAIN_CTRL.ISOLATE set)

/-- DOMAIN_RESET (R444). -/
def execDomainReset (set : Bool) (s : State) : Res := .next (s.domCtrlField CLK.DOMAIN_CTRL.RESET set)

/-- XING_RESET (R444). -/
def execXingReset (set : Bool) (s : State) : Res := .next (s.domCtrlField CLK.DOMAIN_CTRL.XING_RESET set)

/-- DOMAIN_RUNNING (R441): a STARTING domain reaches RUNNING, its PLL locked. -/
def execDomainRunning (domain : Nat) (s : State) : Res :=
  if !s.up || s.dom domain != domSTARTING then .next s
  else .next ((s.setDom domain domRUNNING).put CLK.DOMAIN_STATUS.PLL_LOCKED 1 domain)

/-- No NAND operation is outstanding (R440). -/
def State.nandIdle (s : State) : Bool := s.tier.ops.isEmpty

/-- FLASH_GATE (R440): with automatic gating on and nothing outstanding, the idle flash domain enters GATED. -/
def execFlashGate (s : State) : Res :=
  if s.up && s.flag CLK.AUTO_GATE.FLASH && s.dom 10 == domRUNNING && s.nandIdle && !s.xingBusy 10 then
    .next (s.setDom 10 domGATED)
  else .next s

/-- CROSSING_OVERRUN (R443, Table 18-4): the crossing's bit and count; the item is lost. -/
def execCrossingOverrun (crossing : Nat) (s : State) : Res :=
  if !s.up || decide (10 < crossing) then .next s
  else .next ((s.setReg CLK.OVERRUN_STATUS.off (s.reg CLK.OVERRUN_STATUS.off ||| BitVec.ofNat 32 (2 ^ crossing))).sat
    CLK.OVERRUN_COUNT.COUNT 1 crossing)

/-- CLK.DOMAIN_SELECT takes 0 to 21 (R487). -/
def hDomainSelect : Handler := { Handler.plain with chk := fun _ _ _ v => 21 < fieldGet v 0 5 }

/-- CLK.OVERRUN_SELECT takes 0 to 10 (R487). -/
def hOverrunSelect : Handler := { Handler.plain with chk := fun _ _ _ v => 10 < fieldGet v 0 4 }

/-- CLK.AUTO_GATE.IDLE_US is 1 to 65,535 (Table 18-6). -/
def hAutoGate : Handler := { Handler.plain with chk := fun _ _ _ v => fieldGet v 16 16 == 0 }

end Sys2Proof.Machine
end

