-- ==== Sys2Proof/Machine/Spoke.lean ====
section
/-! DEFINITION. The Spoke's base (chapter 14): the Freewheel, hops with sequence, replay and credits, routes round a ring, frames sent and
received, transactions, BEAT and HELLO (R323 to R336, R338, R349). -/

namespace Sys2Proof.Machine

def ftHELLO : Nat := 0x01
def ftACK : Nat := 0x02
def ftMARK : Nat := 0x03
def ftBEAT : Nat := 0x04
def ftMATCH_TOKEN : Nat := 0x10
def ftMATCH_REPLY : Nat := 0x11
def ftRESHARD_OPEN : Nat := 0x20
def ftRESHARD_ANSWER : Nat := 0x21
def ftPAGE_SEG : Nat := 0x22
def ftPLACED : Nat := 0x23
def ftEPOCH_PREPARE : Nat := 0x24
def ftEPOCH_READY : Nat := 0x25
def ftEPOCH_COMMIT : Nat := 0x26
def ftCOMMIT_ACK : Nat := 0x27
def ftMIRROR_WRITE : Nat := 0x30
def ftMIRROR_ACK : Nat := 0x31

/-- The types of Table 14-4. -/
def frameTypes : List Nat :=
  [ftHELLO, ftACK, ftMARK, ftBEAT, ftMATCH_TOKEN, ftMATCH_REPLY, ftRESHARD_OPEN, ftRESHARD_ANSWER, ftPAGE_SEG, ftPLACED,
    ftEPOCH_PREPARE, ftEPOCH_READY, ftEPOCH_COMMIT, ftCOMMIT_ACK, ftMIRROR_WRITE, ftMIRROR_ACK]

/-- Sequenced types (Table 14-4). -/
def sequenced (t : Nat) : Bool := t != ftHELLO && t != ftACK && t != ftMARK

/-- The virtual channel of a type (Table 14-4). -/
def vcOf (t : Nat) : Nat :=
  if t = ftMATCH_TOKEN ∨ t = ftMATCH_REPLY then 1
  else if ftRESHARD_OPEN ≤ t ∧ t ≤ ftPLACED then 2
  else if t = ftMIRROR_WRITE ∨ t = ftMIRROR_ACK then 3 else 0

end Sys2Proof.Machine

namespace Sys2Proof

/-- LENGTH of a frame in 64 B units. -/
def Frame.units (f : Frame) : Nat := Machine.cdiv f.payload.length 64

/-- Bytes of a frame on the wire. -/
def Frame.wire (f : Frame) : Nat := 32 + 64 * f.units

/-- Credits a frame takes, header included, in 64 B units (R330). -/
def Frame.cost (f : Frame) : Nat := Machine.cdiv f.wire 64

/-- `n` bytes of a frame's payload at `i`; bytes beyond the listed ones are zero padding. -/
def Frame.b (f : Frame) (i n : Nat) : Nat := Machine.leAt f.payload i n

/-- The payload with its padding: LENGTH × 64 bytes. -/
def Frame.body (f : Frame) : List Byte := Machine.padTo (64 * f.units) f.payload

/-- PAYLOAD_CRC: CRC-32C over the payload, 0 when LENGTH is 0 (Table 14-3). -/
def Frame.payloadCrc (f : Frame) : Nat := if f.units = 0 then 0 else (Machine.crc32c f.body).toNat

/-- Bytes 0 to 27 of the header (Table 14-3). -/
def Frame.head (f : Frame) : List Byte :=
  Machine.leBytes 1 f.typ ++ Machine.leBytes 1 (f.vc + 4 * Machine.b01 f.nak) ++ Machine.leBytes 2 f.units ++ Machine.leBytes 1 f.src ++
    Machine.leBytes 1 f.dst ++ Machine.leBytes 1 f.hops ++ Machine.leBytes 1 f.ring ++ Machine.leBytes 4 f.linkSeq ++
    Machine.leBytes 4 f.ackSeq ++ Machine.leBytes 2 f.credits ++ Machine.leBytes 2 f.creditVc ++ Machine.leBytes 4 f.xid ++
    Machine.leBytes 4 f.payloadCrc

/-- A frame's bytes on the wire: header with HEADER_CRC over bytes 0 to 27, then the payload (R328). -/
def Frame.bytes (f : Frame) : List Byte := f.head ++ Machine.leBytes 4 (Machine.crc32c f.head).toNat ++ f.body

end Sys2Proof

namespace Sys2Proof.Machine

/-! ### Ports and pairs -/

def State.portMode (s : State) (p : Nat) : Nat := s.get SPOKE.PORT_CTRL.MODE p

/-- A Spoke port's laser is on (R505): off in reset, in phases ROM and FAULT, and while the port's MODE is OFF. -/
def State.laserOn (s : State) (p : Nat) : Bool := !s.pw.held && s.phase != phROM && s.phase != phFAULT && s.portMode p != 0

def State.linkUp (s : State) (p : Nat) : Bool := s.flag SPOKE.PORT_STATUS.LINK_UP p

/-- The other port of the pair. -/
def otherPort (p : Nat) : Nat := if p % 2 = 0 then p + 1 else p - 1

/-- A port of an open ring pair. -/
def State.ringPort (s : State) (p : Nat) : Bool := s.portMode p == 2 && s.pairState (p / 2) == 2

/-- The open ring ports. -/
def State.ringPorts (s : State) : List Nat := (List.range 8).filter s.ringPort

def State.me (s : State) : Nat := s.get SPOKE.MEMBER_CTRL.MEMBER_ID

/-- SPOKE.MEMBER_STATUS.STATE: 0 none, 1 joining, 2 MEMBER, 3 REFUSED, 4 LEFT. -/
def State.memberState (s : State) : Nat := s.get SPOKE.MEMBER_STATUS.STATE

def State.isMember (s : State) : Bool := s.memberState == 2

/-- The roster's members, in rising order. -/
def State.roster (s : State) : List Nat := (List.range 32).filter fun m => (s.reg SPOKE.ROSTER.off).getLsbD m

def State.setChain (s : State) (f : ChainSt → ChainSt) : State := { s with chain := f s.chain }

def freshHop (p : Nat) : Hop :=
  { port := p, member := none, sent := 0, got := 0, replay := [], queue := [], credits := [0, 0, 0], owed := [0, 0, 0], fresh := true, held := none,
    delay := 0 }

def State.hop (s : State) (p : Nat) : Hop := (s.chain.hops.find? (·.port = p)).getD (freshHop p)

def State.setHop (s : State) (h : Hop) : State :=
  s.setChain fun c => { c with hops := c.hops.filter (·.port ≠ h.port) ++ [h] }

/-! ### Sending on a hop (R329, R330) -/

/-- Replay buffer of a port. -/
def replayLimit : Nat := 1048576

def Hop.creditOf (h : Hop) (vc : Nat) : Nat := if vc = 0 then 0 else h.credits.getD (vc - 1) 0

/-- The frame may leave on the hop now: room for replay, and credits on its channel. -/
def Hop.may (h : Hop) (f : Frame) : Bool :=
  (!sequenced f.typ || decide ((h.replay.map Frame.wire).foldl (· + ·) 0 + f.wire ≤ replayLimit)) &&
    (f.vc == 0 || decide (f.cost ≤ h.creditOf f.vc))

/-- LINK_SEQ counts in 32 bits (Table 14-3). -/
def seqNext (n : Nat) : Nat := (n + 1) % 2 ^ 32

/-- An acknowledgement of `ack` covers the LINK_SEQ `n`. -/
def seqCovers (ack n : Nat) : Bool := decide ((ack + 2 ^ 32 - n % 2 ^ 32) % 2 ^ 32 < 2 ^ 31)

/-- The frame leaves on a hop that may send it: LINK_SEQ, ACK_SEQ, credits drawn, kept for replay. -/
def State.transmit (s : State) (p : Nat) (f : Frame) : State :=
  let h := s.hop p
  let sq := sequenced f.typ
  let n := if sq then seqNext h.sent else 0
  let g : Frame := { f with linkSeq := n, ackSeq := h.got, ring := s.get SPOKE.PORT_CTRL.RING p }
  let cr := if f.vc = 0 then h.credits else h.credits.set (f.vc - 1) (h.creditOf f.vc - f.cost)
  let h1 : Hop := { h with sent := if sq then n else h.sent, replay := if sq then h.replay ++ [g] else h.replay, credits := cr }
  (s.setHop h1).emit (.chain p g)

/-- A frame without payload fields set: an ACK on a hop, with credits of a channel. -/
def ackFrame (me : Nat) (nak : Bool) (credits vc : Nat) : Frame :=
  { typ := ftACK, vc := 0, nak := nak, src := me, dst := 0xFF, hops := 0, ring := 0, linkSeq := 0, ackSeq := 0, credits := credits,
    creditVc := vc, xid := 0, payload := [] }

/-- The receiver acknowledges on a hop: ACK with returned credits, or NAK (R329, R330); nothing leaves on a link that is down. -/
def State.acknowledge (s : State) (p : Nat) (nak : Bool) (credits vc : Nat) : State :=
  let s1 := if nak then s.sat SPOKE.NAKS.COUNT else s
  if s1.linkUp p then s1.transmit p (ackFrame s1.me nak credits vc) else s1

/-- The receive buffer that a transit frame took is free again: its credits go back, once the link is up (R330). -/
def State.freeBuffer (s : State) (src : Option Nat) (f : Frame) : State :=
  match src with
  | none => s
  | some p =>
    let h := s.hop p
    if f.vc = 0 then s
    else if s.linkUp p then s.acknowledge p false f.cost f.vc
    else s.setHop { h with owed := h.owed.set (f.vc - 1) (h.owed.getD (f.vc - 1) 0 + f.cost) }

/-- The credits owed on a hop whose link is back. -/
def State.payOwed (s : State) (p : Nat) : State :=
  [1, 2, 3].foldl (fun s vc => if (s.hop p).owed.getD (vc - 1) 0 = 0 then s else s.acknowledge p false ((s.hop p).owed.getD (vc - 1) 0) vc) s
    |>.setHop { s.hop p with owed := [0, 0, 0] }

/-- A frame into a hop's queue: transit frames before the card's own (R331). -/
def Hop.enqueue (h : Hop) (src : Option Nat) (f : Frame) : Hop :=
  if src.isNone then { h with queue := h.queue ++ [(src, f)] }
  else { h with queue := h.queue.filter (·.1.isSome) ++ [(src, f)] ++ h.queue.filter (·.1.isNone) }

/-- A frame for a port whose link is up: at once when credits and the order on its channel let it, else queued (R330). -/
def State.sendUp (s : State) (p : Nat) (src : Option Nat) (f : Frame) : State :=
  let h := s.hop p
  if h.may f && !(h.queue.any fun g => g.2.vc == f.vc && sequenced f.typ) then (s.transmit p f).freeBuffer src f
  else s.setHop (h.enqueue src f)

/-- A frame sent on a port. While the link is down, sequenced frames are held; once the hold is over, the frame goes the other way round (R332,
R333). HELLO and ACK are not kept for a link that is down (R329). -/
def State.sendFrom (s : State) (p : Nat) (src : Option Nat) (f : Frame) : State :=
  let h := s.hop p
  if s.linkUp p then s.sendUp p src f
  else if (sequenced f.typ || f.typ == ftMARK) && h.held.isNone && s.linkUp (otherPort p) then s.sendUp (otherPort p) src f
  else if sequenced f.typ then s.setHop (h.enqueue src f)
  else s

/-- A frame of the card's own sent on a port. -/
def State.sendOn (s : State) (p : Nat) (f : Frame) : State := s.sendFrom p none f

/-- Queued frames leave as credits allow, VC 0 first, in order within a channel. -/
def State.drainHop (s : State) (p : Nat) : State :=
  if !s.linkUp p then s
  else
    let q := (s.hop p).queue
    let order := q.filter (·.2.vc = 0) ++ q.filter (·.2.vc ≠ 0)
    let s0 := s.setHop { s.hop p with queue := [] }
    (order.foldl (fun (acc : State × List Nat) x =>
      let (s, blocked) := acc
      if !blocked.contains x.2.vc && (s.hop p).may x.2 then ((s.transmit p x.2).freeBuffer x.1 x.2, blocked)
      else
        let h := s.hop p
        (s.setHop { h with queue := h.queue ++ [x] }, x.2.vc :: blocked)) (s0, [])).1

/-- Replay of a hop from what is not acknowledged (R329). -/
def State.replayHop (s : State) (p : Nat) : State :=
  let h := s.hop p
  if h.replay = [] ∨ !s.linkUp p then s
  else h.replay.foldl (fun s f => s.emit (.chain p { f with ackSeq := h.got })) (s.sat SPOKE.REPLAYS.COUNT)

/-- What the header of any received frame says of the hop: acknowledged frames released, credits returned, a NAK replayed. -/
def State.takeAck (s : State) (p : Nat) (f : Frame) : State :=
  let h := s.hop p
  let cr := if f.creditVc = 0 then h.credits else h.credits.set (f.creditVc - 1) (h.creditOf f.creditVc + f.credits)
  let s1 := s.setHop { h with replay := h.replay.filter (fun g => !seqCovers f.ackSeq g.linkSeq), credits := cr }
  (if f.nak then s1.replayHop p else s1).drainHop p

/-! ### Routes (R331, R332) -/

/-- A pair put into a list of pairs that rises by RING ID. -/
def State.putRing (s : State) (i : Nat) : List Nat → List Nat
  | [] => [i]
  | j :: t => if s.get SPOKE.PORT_CTRL.RING (2 * i) < s.get SPOKE.PORT_CTRL.RING (2 * j) then i :: j :: t else j :: s.putRing i t

/-- The open ring pairs, by RING ID; pairs of one ID by their number. -/
def State.rings (s : State) : List Nat := ((List.range 4).filter fun i => s.ringPort (2 * i)).foldl (fun l i => s.putRing i l) []

/-- The pair whose ring frames of a turn use: rings that are up, in the order of their RING IDs, turn by turn (R332). -/
def State.ringFor (s : State) (turn : Nat) : Option Nat :=
  let any := s.rings
  let up := any.filter fun i => s.linkUp (2 * i) || s.linkUp (2 * i + 1)
  let l := if up = [] then any else up
  if l = [] then none else l[turn % l.length]?

/-- The card's place among the ring's members, taken in the order of their numbers (PRESUMED, log 40). -/
def State.ringOrder (s : State) : List Nat := (List.range 32).filter fun m => s.roster.contains m || m == s.me

def indexIn (l : List Nat) (x : Nat) : Nat := (l.findIdx? (· = x)).getD 0

/-- The port of a ring that leads to the next member: the one whose hop shows it, else the odd port. -/
def State.upPort (s : State) (i : Nat) : Nat :=
  let l := s.ringOrder
  let next := l.getD ((indexIn l s.me + 1) % max 1 l.length) s.me
  if (s.hop (2 * i)).member = some next ∧ (s.hop (2 * i + 1)).member ≠ some next then 2 * i else 2 * i + 1

/-- The port towards a member: the shorter way, half-way by XID, the other way round while that port's link is down. -/
def State.routeTo (s : State) (i dst xid : Nat) : Nat :=
  let l := s.ringOrder
  let n := max 1 l.length
  let du := (indexIn l dst + n - indexIn l s.me) % n
  let dd := n - du
  let up := s.upPort i
  let p := if du < dd ∨ (du = dd ∧ xid % 2 = 0) then up else otherPort up
  if !s.linkUp p && s.linkUp (otherPort p) then otherPort p else p

/-- The port of a ring that frames for every member leave on. -/
def State.allPort (s : State) (i : Nat) : Nat :=
  let up := s.upPort i
  if s.linkUp up || !s.linkUp (otherPort up) then up else otherPort up

/-- The cards a frame for every member is to pass, this one included. -/
def State.ringSpan (s : State) : Nat := max (s.get SPOKE.MEMBER_CTRL.EXPECTED) s.ringOrder.length

/-- A frame of the card's own for a member, or for all (HOPS such that it passes every other member once). -/
def State.sendTo (s : State) (turn typ dst xid : Nat) (payload : List Byte) : State :=
  match s.ringFor turn with
  | none => s
  | some i =>
    let f : Frame :=
      { typ := typ, vc := vcOf typ, nak := false, src := s.me, dst := dst, hops := if dst = 0xFF then s.ringSpan - 2 else 31, ring := 0,
        linkSeq := 0, ackSeq := 0, credits := 0, creditVc := 0, xid := xid, payload := payload }
    if dst = 0xFF then s.sendOn (s.allPort i) f
    else s.sendOn (s.routeTo i dst xid) f

/-- The next transaction number (R334). -/
def State.takeXid (s : State) : State × Nat := (s.setChain fun c => { c with nextXid := (c.nextXid + 1) % 2 ^ 32 }, s.chain.nextXid)

/-- A transaction begun: its frames are kept to be sent once more (R334). -/
def State.openTxn (s : State) (turn typ dst work : Nat) (payloads : List (List Byte)) : State × Nat :=
  let (s1, x) := s.takeXid
  let fs : List Frame := payloads.map fun pl =>
    { typ := typ, vc := vcOf typ, nak := false, src := s.me, dst := dst, hops := 31, ring := turn, linkSeq := 0, ackSeq := 0, credits := 0,
      creditVc := 0, xid := x, payload := pl }
  let s2 := payloads.foldl (fun s pl => s.sendTo turn typ dst x pl) s1
  (s2.setChain fun c => { c with txns := c.txns ++ [⟨x, typ, dst, work, s.stroke, false, fs⟩] }, x)

def State.txn (s : State) (xid : Nat) : Option Txn := s.chain.txns.find? (·.xid = xid)

def State.endTxn (s : State) (xid : Nat) : State := s.setChain fun c => { c with txns := c.txns.filter (·.xid ≠ xid) }

/-- A source's XID noted with the answers to it, among that source's last 65,536 (R334). -/
def State.remember (s : State) (src xid : Nat) (answers : List Frame) : State :=
  s.setChain fun c =>
    { c with seen := (src, xid, answers) :: ((c.seen.filter fun y => y.1 = src ∧ y.2.1 ≠ xid).take 65535 ++ c.seen.filter (·.1 ≠ src)) }

/-- An answer recorded for a source's XID and sent (R334). -/
def State.answer (s : State) (f : Frame) (typ : Nat) (payload : List Byte) : State :=
  (s.remember f.src f.xid [{ f with typ := typ, payload := payload }]).sendTo 0 typ f.src f.xid payload

/-- A request taken without an answer yet. -/
def State.noteXid (s : State) (f : Frame) : State := s.remember f.src f.xid []

/-- A request: a repeated XID is answered again and not acted on (R334). -/
def State.once (s : State) (f : Frame) (k : State → State) : State :=
  match s.chain.seen.find? fun y => y.1 = f.src ∧ y.2.1 = f.xid with
  | some y => y.2.2.foldl (fun s g => s.sendTo 0 g.typ f.src f.xid g.payload) s
  | none => k s

/-! ### The Freewheel (R324, R325, R349) -/

def State.setPairSt (s : State) (i v : Nat) : State := s.put { SPOKE.FREEWHEEL_STATUS.STATE_i with lo := 2 * i, w := 2 } v

/-- FREEWHEEL_SWITCH_DONE (R325): OPENING ends in OPEN, CLOSING in CLOSED. -/
def execFreewheelSwitchDone (pair : Nat) (s : State) : Res :=
  let i := pair % 4
  .next (if s.pairState i = 1 then s.setPairSt i 2 else if s.pairState i = 3 then s.setPairSt i 0 else s)

/-- SPOKE.PORT_CTRL (R324, R349): MODE only while the pair is CLOSED, RING not while it is OPEN; MODE 3 is none of Table 14-1. -/
def hPortCtrl : Handler :=
  { Handler.plain with
    chk := fun s p old v => (fieldGet old 0 2 != fieldGet v 0 2 && s.pairState (p / 2) != 0) ||
      (fieldGet old 8 8 != fieldGet v 8 8 && s.pairState (p / 2) == 2) || fieldGet v 0 2 == 3 }

/-- SPOKE.PEER_TENANT must name a tenant of this card, or 0 (R349). -/
def hPeerTenant : Handler :=
  { Handler.plain with chk := fun s _ _ v => fieldGet v 0 10 != 0 && s.tenState (fieldGet v 0 10) == 0 }

/-- SPOKE.PELOTON_ID after release, or while joining or MEMBER (R349). -/
def hPelotonId : Handler :=
  { Handler.plain with chk := fun s _ old v => old != v && (s.memberState == 1 || s.memberState == 2) }

/-- The local tenant for a remote member and TID: 0 for none (R343). The register's instance is MEMBER + TID × 2^16. -/
def State.peerTenant (s : State) (member tid : Nat) : Nat := s.get SPOKE.PEER_TENANT.LOCAL_TID (member + tid * 2 ^ 16)

/-! ### Membership (R335, R336) -/

/-- The members of the roster, with PACER as the lowest (R336). A card that is pacer no more awaits MARKs from now (R337). -/
def State.setRoster (s : State) (ms : List Nat) : State :=
  let w := ms.foldl (fun w m => w ||| BitVec.ofNat 32 (2 ^ m)) 0#32
  let pacer := ms.foldl min 31
  let s1 := (s.setReg SPOKE.ROSTER.off w).put SPOKE.MEMBER_STATUS.PACER (if ms = [] then 0 else pacer)
  if s1.isMember then
    let s2 := if s1.flag SYS.STROKE_STATUS.PACER ∧ pacer ≠ s.me then s1.setChain fun c => { c with lastMark := s.stroke } else s1
    s2.put SYS.STROKE_STATUS.PACER (b01 (pacer == s.me))
  else s1

/-- Members whose BEAT was latched within the timeout, and the card itself while it is joining or MEMBER. -/
def State.liveMembers (s : State) : List Nat :=
  (List.range 32).filter fun m =>
    (m == s.me && (s.memberState == 1 || s.isMember)) ||
      s.chain.beats.any fun b => b.1 == m && decide (s.stroke ≤ b.2 + s.get SPOKE.MEMBER_TIMEOUT.STROKES)

/-- A joining card is the lowest member: it is the pacer, and its own count stands. -/
def State.becomeMember (s : State) : State :=
  let s1 := (s.put SPOKE.MEMBER_STATUS.STATE 2).setChain fun c => { c with joinAt := none, takeCount := false, lastMark := s.stroke }
  s1.setRoster s1.liveMembers

/-- The join refused with a cause (R335). -/
def State.refuseJoin (s : State) (cause : Nat) : State :=
  ((s.put SPOKE.MEMBER_STATUS.STATE 3).put SPOKE.MEMBER_STATUS.CAUSE cause).setChain fun c => { c with joinAt := none }

/-- The conditions of R335 that are met so far decide the join: refused for a duplicate number or another period; once all hold, the
count is taken at the next MARK (R33, R336), or stands where the card is the lowest member of a peloton that does not run yet. -/
def State.tryJoin (s : State) : State :=
  if s.memberState ≠ 1 ∨ s.chain.joinAt = none then s
  else if s.chain.dupId then s.refuseJoin 2
  else if s.chain.badPeriod then s.refuseJoin 3
  else if s.ringPorts.all s.chain.helloOn.contains ∧ s.get SPOKE.MEMBER_CTRL.EXPECTED ≤ (s.chain.beats.filter (·.1 ≠ s.me)).length + 1 then
    let s1 := s.setRoster s.liveMembers
    if (s.chain.beats.all fun b => decide (s.me < b.1)) ∧ !s.chain.running then (s1.becomeMember).put SYS.STROKE_STATUS.LOCKED 1
    else s1.setChain fun c => { c with joinAt := none, takeCount := true }
  else s

/-! ### Receiving (R328, R329, R331) -/

/-- A frame goes on out of the other port of its pair. A forwarded MARK carries the card's residence (R338). -/
def State.forward (s : State) (p : Nat) (f : Frame) : State :=
  if f.typ = ftMARK then
    let pl := (padTo 64 f.payload).take 14 ++ leBytes 4 (f.b 14 4 + Config.nanoTime s.free) ++ leBytes 1 (f.b 18 1 + 1) ++
      (padTo 64 f.payload).drop 19
    let g : Frame := { f with hops := f.hops - 1, payload := pl }
    s.nextFree.sendFrom (otherPort p) (some p) g
  else s.sendFrom (otherPort p) (some p) { f with hops := f.hops - 1 }

/-- A BEAT with this card's number is another member's: it came over the ring, past fewer cards than there are other members. The card's own
comes round past all of them, where fewer cards are on the ring than EXPECTED says (R335; DEDUCED, log 131). -/
def State.foreignBeat (s : State) (p : Nat) (f : Frame) : Bool :=
  p != s.allPort (p / 2) && decide (s.ringSpan - 2 - f.hops < (s.chain.beats.filter (·.1 ≠ s.me)).length)

/-- A frame of a type received on a ring port: the hop's order, then consumed, forwarded or both. -/
def State.receive (s : State) (p typ : Nat) (f0 : Frame) (k : State → Frame → State) : State :=
  let f : Frame := { f0 with typ := typ, vc := vcOf typ }
  if !s.working || !s.ringPort p || !s.linkUp p then s
  else
    let s1 := s.takeAck p f
    let h := s1.hop p
    if sequenced typ ∧ f.linkSeq ≠ seqNext h.got then s1.acknowledge p true 0 0
    else
      let on := decide (f.dst ≠ s.me ∧ 0 < f.hops)
      let s2 := if sequenced typ then
          (s1.setHop { h with got := f.linkSeq }).acknowledge p false (if f.vc = 0 ∨ on then 0 else f.cost) f.vc
        else s1
      if typ = ftHELLO ∨ typ = ftACK then k s2 f
      else
        let s3 := if on then s2.forward p f else s2
        if f.src = s.me then
          (if typ = ftBEAT ∧ s3.memberState = 1 ∧ s3.foreignBeat p f then (s3.setChain fun c => { c with dupId := true }).tryJoin else s3)
        else if f.dst = s.me ∨ f.dst = 0xFF then k s3 f
        else s3

/-- ACK (R329, R330): what it says is taken with its header. -/
def execAckCmd (port : Nat) (f : Frame) (s : State) : Res := .next (s.receive port ftACK f fun s _ => s)

/-- A header breaks HEADER_CRC (Table 14-3); a header cut short has none. -/
def headerBad (header : List Byte) : Bool := decide (header.length < 32) || leAt header 28 4 != (crc32c (header.take 28)).toNat

/-- A payload breaks the PAYLOAD_CRC of its header, which is 0 when LENGTH is 0; a payload cut short breaks it. -/
def payloadBad (header payload : List Byte) : Bool :=
  let n := 64 * leAt header 2 2
  decide (payload.length < n) || leAt header 24 4 != (if n = 0 then 0 else (crc32c (payload.take n)).toNat)

/-- BAD_FRAME (R328): the bytes of a frame with a failing HEADER_CRC are discarded; a failing PAYLOAD_CRC is answered with a NAK; an unknown
TYPE is counted. Bytes that are none of these are no bad frame, and change nothing. -/
def execBadFrame (port : Nat) (header payload : List Byte) (s : State) : Res :=
  if !s.working || !s.ringPort port || !s.linkUp port || headerBad header then .next s
  else if payloadBad header payload then .next (s.acknowledge port true 0 0)
  else if !frameTypes.contains (leAt header 0 1) then .next (s.sat SPOKE.BAD_FRAMES.COUNT)
  else .next s

/-- REPLAY_TIMEOUT (R329): no acknowledgement for 4 µs. -/
def execReplayTimeout (port : Nat) (s : State) : Res := .next (if s.working && s.ringPort port then s.replayHop port else s)

/-! ### BEAT and HELLO -/

/-- The payload of a BEAT (Table 14-4). -/
def State.beatBytes (s : State) : List Byte :=
  leBytes 4 (s.reg SPOKE.PELOTON_ID.off).toNat ++ leBytes 4 (s.reg SPOKE.ROSTER.off).toNat ++
    leBytes 1 (b01 (s.flag SYS.STROKE_STATUS.LOCKED))

/-- A BEAT to every member (R336), at every 128th Stroke, once. -/
def State.sendBeat (s : State) : State :=
  if !s.working || !(s.memberState == 1 || s.isMember) || s.stroke % 128 != 0 || s.chain.lastBeat == some s.stroke then s
  else (s.sendTo 0 ftBEAT 0xFF 0 s.beatBytes).setChain fun c => { c with lastBeat := some s.stroke }

/-- BEAT_SEND (R336). -/
def execBeatSend (s : State) : Res := .next s.sendBeat

/-- BEAT (R335, R336): the sender is in the roster from now. -/
def State.takeBeat (s : State) (f : Frame) : State :=
  if f.b 0 4 ≠ (s.reg SPOKE.PELOTON_ID.off).toNat ∨ 32 ≤ f.src then s
  else
    let s1 := s.setChain fun c => { c with beats := kvSet c.beats f.src s.stroke, running := c.running || bits (f.b 8 1) 0 1 == 1 }
    (if s1.isMember then s1.setRoster (s1.roster ++ [f.src]) else s1).tryJoin

def execBeatCmd (port : Nat) (f : Frame) (s : State) : Res := .next (s.receive port ftBEAT f fun s f => s.takeBeat f)

/-- The payload of a HELLO (Table 14-4): the card's clock, the time echoed, initial credits of 256 KiB each. -/
def State.helloBytes (s : State) (p echoed : Nat) : List Byte :=
  leBytes 4 (s.reg SPOKE.PELOTON_ID.off).toNat ++ leBytes 1 s.me ++ leBytes 1 (s.get SPOKE.PORT_CTRL.RING p) ++ zeros 2 ++
    leBytes 8 (Config.nanoTime s.free) ++ leBytes 8 echoed ++ leBytes 4 s.period ++ leBytes 2 256 ++ leBytes 2 256 ++ leBytes 2 256 ++
    zeros 30

/-- A HELLO on a port. -/
def State.sayHello (s : State) (p echoed : Nat) : State :=
  s.nextFree.sendOn p
    { typ := ftHELLO, vc := 0, nak := false, src := s.me, dst := 0xFF, hops := 0, ring := 0, linkSeq := 0, ackSeq := 0, credits := 0,
      creditVc := 0, xid := 0, payload := s.helloBytes p echoed }

/-- HELLOs on every open ring port (R338), at every 1,024th Stroke, once. -/
def State.sendHellos (s : State) : State :=
  if !s.working || s.stroke % 1024 != 0 || s.chain.lastHello == some s.stroke then s
  else (s.ringPorts.foldl (fun s p => if s.linkUp p then s.sayHello p 0 else s) s).setChain fun c => { c with lastHello := some s.stroke }

/-- HELLO_SEND (R338). -/
def execHelloSend (s : State) : Res := .next s.sendHellos

/-- HELLO (R329, R332, R335, R338): the member across the hop, its initial credits, and the hop's delay from an echoed time; a HELLO that
echoes nothing is answered with one that does. -/
def State.takeHello (s : State) (p : Nat) (f : Frame) : State :=
  let m := f.b 4 1
  let h := s.hop p
  let first := h.fresh || h.member != some m
  let h1 : Hop := { h with
    member := some m, fresh := false, credits := if first then [f.b 28 2 * 16, f.b 30 2 * 16, f.b 32 2 * 16] else h.credits,
    delay := if f.b 16 8 = 0 then h.delay else (Config.nanoTime s.free - f.b 16 8) / 2 }
  let s1 := ((s.nextFree.setHop h1).put SPOKE.PORT_STATUS.PARTNER m p)
  let same := f.b 0 4 = (s.reg SPOKE.PELOTON_ID.off).toNat
  let on := if same ∧ s.memberState = 1 ∧ ¬ s.chain.helloOn.contains p then s.chain.helloOn ++ [p] else s.chain.helloOn
  let s2 := s1.setChain fun c =>
    { c with helloOn := on, badPeriod := c.badPeriod || (same && f.b 24 4 != s.period), dupId := c.dupId || (same && m == s.me) }
  let s3 := if f.b 16 8 = 0 then s2.sayHello p (max 1 (f.b 8 8)) else s2
  (s3.drainHop p).tryJoin

def execHelloCmd (port : Nat) (f : Frame) (s : State) : Res := .next (s.receive port ftHELLO f fun s f => s.takeHello port f)

end Sys2Proof.Machine
end

