-- ==== Sys2Proof/Machine/Derail.lean ====
section
/-! DEFINITION. The Derailleur (R342 to R348): RESHARD's MOVE, COPY and ADVANCE on the card that runs them and on the members they
name, staged pages and the epoch switch. -/

namespace Sys2Proof.Machine

def dtSTALE_EPOCH : Nat := 0x0801
def dtTARGET_REFUSED : Nat := 0x0802
def dtNOT_MEMBER : Nat := 0x0803
def dtMEMBER_LOST : Nat := 0x0804
def dtNOT_READY : Nat := 0x0805
def dtEPOCH_BUSY : Nat := 0x0806
def dtCOMMIT_UNCONFIRMED : Nat := 0x0807

/-- A tenant's epoch E. -/
def State.epochOf (s : State) (tid : Nat) : Nat := s.get SPOKE.TENANT_EPOCH.EPOCH tid

/-! ### Fields of Table 14-6 -/

def rsKind (d : Desc) : Nat := d.b 32 1
def rsSlices (d : Desc) : Nat := bits (d.b 33 1) 0 4
def rsEpoch (d : Desc) : Nat := d.b 44 4
def rsTable (d : Desc) : Nat := d.b 48 8
def rsSwitch (d : Desc) : Nat := d.b 56 6

/-- The work is a MOVE or COPY. -/
def Work.isSend (w : Work) : Bool := w.d.opcode == opRESHARD && rsKind w.d != 2

/-- The work is an ADVANCE. -/
def Work.isAdvance (w : Work) : Bool := w.d.opcode == opRESHARD && rsKind w.d == 2

/-- TARGET_SID and MEMBER of each slice, from the target table (R342). -/
def State.targetTable (s : State) (d : Desc) : List (Nat × Nat) :=
  (List.range (rsSlices d)).map fun i =>
    let e := s.memRead (rsTable d + 8 * i) 8
    (leAt e 0 4, leAt e 4 1)

/-! ### Plans of a switch -/

def State.plan_ (s : State) (tid e : Nat) : EpochPlan :=
  (s.chain.plans.find? fun p => p.tid = tid ∧ p.epoch = e).getD
    { tid := tid, epoch := e, lens := [], moved := [], asked := [], switchAt := 0, commit := none }

def State.setPlan (s : State) (p : EpochPlan) : State :=
  s.setChain fun c => { c with plans := c.plans.filter (fun q => ¬ (q.tid = p.tid ∧ q.epoch = p.epoch)) ++ [p] }

/-- An answer to a request recorded earlier (R334). -/
def State.answerTo (s : State) (src xid typ : Nat) (payload : List Byte) : State :=
  s.answer { typ := typ, vc := 0, nak := false, src := src, dst := s.me, hops := 0, ring := 0, linkSeq := 0, ackSeq := 0, credits := 0,
             creditVc := 0, xid := xid, payload := [] } typ payload

/-! ### Admission (R343) -/

/-- The check of R343 that fails first: its DETAIL, 0 for none. -/
def State.reshardFail (s : State) (w : Work) : Nat :=
  let d := w.d
  let e := s.epochOf d.tid
  let ok := if rsKind d = 2 then rsEpoch d == e || rsEpoch d == e + 1 else rsEpoch d == e + 1
  if !s.isMember then dtNOT_MEMBER
  else if !ok then dtSTALE_EPOCH
  else if s.wk.works.any fun v => v.id != w.id && v.phase != 2 && v.isAdvance && v.d.tid == d.tid then dtEPOCH_BUSY
  else if rsKind d != 2 && (s.targetTable d).any fun t => !s.roster.contains t.2 then dtNOT_MEMBER
  else 0

/-- The payload of a RESHARD_OPEN (Table 14-4). -/
def State.openBytes (s : State) (d : Desc) (q : Seq) (sid : Nat) : List Byte :=
  leBytes 4 sid ++ leBytes 2 d.tid ++ leBytes 4 (rsEpoch d) ++ leBytes 4 q.len ++ leBytes 2 q.layers ++ leBytes 1 q.cls ++
    leBytes 1 (b01 q.prot) ++ leBytes 4 (if q.prot then (s.reg PART.KEY_KCV.off d.tid).toNat else 0) ++ zeros 42

/-- A MOVE or COPY admitted: its table read, every remote target asked (R342, R343). -/
def State.openTargets (s : State) (w : Work) (q : Seq) : State :=
  let ts := s.targetTable w.d
  let remote := (ts.filter (·.2 ≠ s.me)).eraseDups
  let (s1, opening) := remote.foldl (fun (acc : State × List (Nat × Nat)) t =>
    let (s2, x) := acc.1.openTxn 0 ftRESHARD_OPEN t.2 w.id [acc.1.openBytes w.d q t.1]
    (s2, acc.2 ++ [(x, t.2)])) (s, [])
  s1.updWork w.id fun w =>
    { w with aux := .resh { targets := ts, opening := opening, unplaced := [] } }

/-- MOVE or COPY at admission; layers past the sequence's own end it (DESIGN CHOICE, log 60). -/
def State.admitSend (s : State) (id : Nat) : State :=
  s.admitWith id fun s w =>
    let f := s.reshardFail w
    match s.seqBySid w.d.tid w.d.sid with
    | none => s
    | some q =>
      if f ≠ 0 then s.latch id stPARTIAL f 0
      else if q.layers < w.d.b 34 1 + w.d.b 35 1 + 1 then s.latch id stPARTIAL dtLAYER_RANGE 0
      else s.openTargets w q

/-! ### Chunks of a MOVE or COPY (R344) -/

def Work.resh (w : Work) : ReshSt :=
  match w.aux with
  | .resh r => r
  | _ => { targets := [], opening := [], unplaced := [] }

def Work.setResh (w : Work) (f : ReshSt → ReshSt) : Work := { w with aux := .resh (f w.resh) }

/-- The PAGE_SEG payloads of a page in its stored form: up to 16 KiB each. -/
def segBytes (sid b l e : Nat) (g : Page) : List (List Byte) :=
  let form := storedForm g
  let n := cdiv form.length 16384
  (List.range n).map fun i =>
    leBytes 4 sid ++ leBytes 4 b ++ leBytes 2 l ++ leBytes 4 e ++ leBytes 1 i ++ leBytes 1 n ++ leBytes 2 (cdiv form.length 64) ++
      leBytes 1 (leafFlags g.hdr false) ++ zeros 45 ++ (form.drop (16384 * i)).take 16384

/-- A page sent to a member, on the next ring (R332), with the place it takes in a MOVE's plan. -/
def State.sendPage (s : State) (w : Work) (q : Seq) (b l sid member : Nat) (g : Page) : State × Nat :=
  let (s1, x) := s.openTxn s.chain.pageTurn ftPAGE_SEG member w.id (segBytes sid b l (rsEpoch w.d) g)
  let s2 := (s1.setChain fun c => { c with pageTurn := c.pageTurn + 1 }).updWork w.id fun w => w.setResh fun r => { r with unplaced := r.unplaced ++ [(x, w.next, member)] }
  let p := s2.plan_ w.d.tid (rsEpoch w.d)
  (if rsKind w.d = 0 then s2.setPlan { p with moved := p.moved ++ [(q.idx, q.page b l)] } else s2, x)

/-- The next position of a MOVE or COPY. -/
def State.decReshard (s : State) (w : Work) : Dec :=
  match s.seqBySid w.d.tid w.d.sid with
  | none => .wait
  | some q =>
    let r := w.resh
    if r.opening ≠ [] ∨ s.forkTarget q.sid then .wait
    else
      let (b, l) := s.visit w w.next
      let t := r.targets.getD (w.next % max 1 (rsSlices w.d)) (0, s.me)
      if s.keptAt w w.next then .pass s
      else
        match s.gate q b l with
        | .wrapped => .stop s stPARTIAL dtWRAPPED
        | .beyond => .stop s stPARTIAL dtBEYOND
        | .zeros => .pass (s.flagWork w.id flUNWRITTEN)
        | .lost c now => .pass (s.lose w (q.page b l) c now)
        | .flash _ => .wait
        | .ready g =>
          if !s.lagged g then .wait
          else if g.bad ≠ 0 then .pass (s.loseCoded w (q.page b l))
          else
            let draw : Res6 := { Res6.zero with dram := 16, spoke := 16 }
            let s0 := if hdrSizeRaw g.hdr then s.flagWork w.id flRAW else s
            let (s1, x) := (s0.resolve q (q.page b l)).sendPage w q b l t.1 t.2 g
            .go s1 draw [g.pid] false (.sent x)

/-- A MOVE or COPY whose chunks have ended and whose pages are placed completes (R344, R347). -/
def State.settleReshard (s : State) (id : Nat) : State :=
  match s.work id with
  | none => s
  | some w =>
    if w.isSend && s.finished w && w.resh.opening.isEmpty && w.resh.unplaced.isEmpty then s.latchEnd w (s.rangeStatus w) else s

/-- A sending chunk ends: its position has ended where the page is placed already. -/
def State.endSend (s : State) (w : Work) (r : Run) : State :=
  s.updWork w.id fun w => if w.resh.unplaced.any (·.2.1 = r.idx) then w else w.endAt r.idx

/-- Pages towards a member given up, and their transactions. -/
def State.forget (s : State) (id : Nat) (lost : Nat × Nat × Nat → Bool) : State :=
  match s.work id with
  | none => s
  | some w =>
    let gone := w.resh.unplaced.filter lost
    (s.setChain fun c => { c with txns := c.txns.filter fun t => !gone.any (·.1 == t.xid) }).updWork id fun w =>
      w.setResh fun r => { r with unplaced := r.unplaced.filter fun x => !lost x }

/-- A MOVE or COPY loses a member (R347, Table 14-5): no further chunk, MEMBER_LOST. -/
def State.sendLost (s : State) (id member : Nat) : State :=
  let s1 := (s.forget id fun x => x.2.2 == member).setChain fun c => { c with txns := c.txns.filter fun t => ¬ (t.typ = ftRESHARD_OPEN ∧ t.work = id) }
  (s1.updWork id fun w => (w.setResh fun r => { r with opening := [] }).stopWith stFAULT dtMEMBER_LOST).settleReshard id

/-- A page to a member is left: sent and not placed, or still to be sent, which one that reads as UNWRITTEN is not (R344, R347). -/
def State.pageLeft (s : State) (w : Work) (m : Nat) : Bool :=
  w.resh.unplaced.any (·.2.2 == m) ||
    ((List.range (s.total w)).drop w.next).any fun i =>
      (w.resh.targets.getD (i % max 1 (rsSlices w.d)) (0, s.me)).2 == m && !((s.seqBySid w.d.tid w.d.sid).any fun q =>
        match s.gate q (s.visit w i).1 (s.visit w i).2 with
        | .zeros => true
        | _ => false)

/-- Every MOVE and COPY with pages still to place on a lost member, or that waits for its answer (R347). -/
def State.memberLostSends (s : State) (m : Nat) : State :=
  ((s.wk.works.filter fun w => w.phase == 1 && w.isSend && s.pageLeft w m).foldl (fun s w => s.sendLost w.id m) s).sameCycle s.wk.latched.length

/-- RESHARD_ANSWER (R343): the last acceptance lets chunks start; a refusal ends the RESHARD. -/
def State.takeOpenAnswer (s : State) (xid cause : Nat) : State :=
  match s.txn xid with
  | none => s
  | some t =>
    if t.typ ≠ ftRESHARD_OPEN then s
    else
      let s1 := s.endTxn xid
      if cause = 0 then s1.updWork t.work fun w => w.setResh fun r => { r with opening := r.opening.filter (·.1 ≠ xid) }
      else (s1.setChain fun c => { c with txns := c.txns.filter fun y => ¬ (y.typ = ftRESHARD_OPEN ∧ y.work = t.work) }).latch t.work
        stPARTIAL dtTARGET_REFUSED 0

def execReshardAnswer (port : Nat) (f : Frame) (s : State) : Res :=
  .next (s.receive port ftRESHARD_ANSWER f fun s f => s.takeOpenAnswer f.xid (f.b 0 1))

/-- PLACED (R344): a page is in the target's DRAM. -/
def State.takePlaced (s : State) (xid : Nat) : State :=
  match s.txn xid with
  | none => s
  | some t =>
    if t.typ ≠ ftPAGE_SEG then s
    else
      let s1 := (s.endTxn xid).updWork t.work fun w =>
        match w.resh.unplaced.find? (·.1 = xid) with
        | none => w
        | some x =>
          let w1 := w.setResh fun r => { r with unplaced := r.unplaced.filter (·.1 ≠ xid) }
          if w1.run.any (·.idx = x.2.1) then w1 else w1.endAt x.2.1
      s1.settleReshard t.work

def execPlaced (port : Nat) (f : Frame) (s : State) : Res :=
  .next (s.receive port ftPLACED f fun s f => s.takePlaced (f.b 0 4))

/-! ### The target member (R343, R344) -/

/-- The cause a RESHARD_OPEN is refused with, 0 when accepted, and what it names here. -/
def State.openCause (s : State) (f : Frame) : Nat × Option (Nat × Seq) :=
  let tid := s.peerTenant f.src (f.b 4 2)
  if tid = 0 ∨ s.tenState tid = 0 then (1, none)
  else
    match s.openSeq tid (f.b 0 4) with
    | none => (2, none)
    | some q =>
      if q.ring ∨ q.layers ≠ f.b 14 2 ∨ q.cls ≠ f.b 16 1 then (3, none)
      else if f.b 6 4 ≠ s.epochOf tid + 1 then (4, none)
      else if bits (f.b 17 1) 0 1 = 1 ∧ ((kvFind s.part.keys tid).isNone ∨ (s.reg PART.KEY_KCV.off tid).toNat ≠ f.b 18 4) then (5, none)
      else (0, some (tid, q))

/-- RESHARD_OPEN (R343): answered; an accepted one leaves the source's L for the switch (R345). -/
def State.takeOpen (s : State) (f : Frame) : State :=
  s.once f fun s =>
    let (c, t) := s.openCause f
    let s1 := match t with
      | none => s
      | some (tid, q) =>
        let p := s.plan_ tid (f.b 6 4)
        s.setPlan { p with lens := kvSet p.lens q.idx (max (f.b 10 4) ((kvFind p.lens q.idx).getD 0)) }
    s1.answer f ftRESHARD_ANSWER (leBytes 1 c)

def execReshardOpen (port : Nat) (f : Frame) (s : State) : Res := .next (s.receive port ftRESHARD_OPEN f fun s f => s.takeOpen f)

/-- The local tenant and sequence that a page for a SID goes to, in an epoch that may still come. -/
def State.stageFor (s : State) (f : Frame) : Option (Nat × Seq) :=
  let e := f.b 10 4
  (s.chain.plans.filter (·.epoch = e)).findSome? fun p =>
    if s.epochOf p.tid + 1 ≠ e then none
    else ((s.openSeq p.tid (f.b 0 4)).filter fun q => (kvFind p.lens q.idx).isSome).map fun q => (p.tid, q)

/-- A whole page staged in fresh frames, out of every reader's sight, and answered PLACED. A page outside its target's window, or
without a frame or table for it, is not staged and not answered (DESIGN CHOICE, log 61). -/
def State.stagePage (s : State) (f : Frame) (xid : Nat) (form : List Byte) : State :=
  match s.stageFor f with
  | some (tid, q) =>
    let (h, body, bad) := unstore form
    let b := f.b 4 4
    let l := f.b 8 2
    let p := q.page b l
    let old := s.chain.staged.filter fun g => g.tid = tid ∧ g.epoch = f.b 10 4 ∧ g.sq = q.idx ∧ g.p = p
    if q.slots ≤ b ∨ q.layers ≤ l ∨ (old = [] ∧ s.framesFree = 0) then s
    else
      match s.addTables tid (q.base + p) with
      | none => s
      | some s1 =>
        (s1.setChain fun c => { c with staged := c.staged.filter (fun g => ¬ old.contains g) ++ [⟨tid, f.b 10 4, q.idx, p, h, body, bad, s.newFrame⟩] }).nextFree.answer
          { f with xid := xid } ftPLACED (leBytes 4 xid)
  | none => s

/-- One segment gathered (R344); the last one of a page stages it. -/
def State.takeSeg (s : State) (f : Frame) : State :=
  s.once f fun s =>
    let page := f.b 4 4 * 65536 + f.b 8 2
    let mine (g : SegBuf) : Bool := g.src == f.src && g.sid == f.b 0 4 && g.page == page
    let first := f.b 14 1 = 0
    let was := (s.chain.segs.find? mine).filter fun g => !first || g.xid == f.xid
    let g : SegBuf := was.getD { src := f.src, sid := f.b 0 4, page := page, xid := f.xid, segs := f.b 15 1, got := [] }
    let size := f.b 16 2 * 64
    let here := min 16384 (size - 16384 * f.b 14 1)
    let g1 : SegBuf := { g with xid := if first then f.xid else g.xid, got := kvSet g.got (f.b 14 1) (padTo here (f.payload.drop 64)) }
    let rest := s.chain.segs.filter fun x => !mine x
    if g1.got.length < g1.segs then s.setChain fun c => { c with segs := rest ++ [g1] }
    else (s.setChain fun c => { c with segs := rest }).stagePage f g1.xid (g1.got.flatMap (·.2))

def execPageSeg (port : Nat) (f : Frame) (s : State) : Res := .next (s.receive port ftPAGE_SEG f fun s f => s.takeSeg f)

/-! ### The switch (R345) -/

/-- A staged page takes its target leaf. -/
def State.placeStaged (s : State) (g : StagedPage) : State :=
  match s.seqIdx g.sq with
  | none => s
  | some q =>
    let was := s.leafAt g.sq g.p
    let (s1, pid) := s.newPage g.tid g.hdr g.body
    let s2 := (s1.updPage pid fun x => { x with frame := some g.frame, bad := g.bad }).setLeaf q g.p pid
    (was.map fun l => s2.gcPage l.pid).getD s2

/-- Target pages whose source page was read as UNWRITTEN (R344). Nothing is sent for such a page and the spec does not say how the
target learns of it: which unstaged pages of a target sequence they are is a free value (DESIGN CHOICE, log 84). -/
def State.unwrittenTargets (s : State) (p : EpochPlan) (mine : List StagedPage) : List (Nat × Nat) :=
  (s.sq.leaves.filter fun l => (kvFind p.lens l.sq).isSome && !(mine.any fun g => g.sq == l.sq && g.p == l.p) &&
    Config.sourceUnwritten s.free l.sq l.p).map fun l => (l.sq, l.p)

/-- The epoch switch of a tenant to `e` (R345). -/
def State.switchEpoch (s : State) (tid e : Nat) : State :=
  let p := s.plan_ tid e
  let mine := s.chain.staged.filter fun g => g.tid = tid ∧ g.epoch = e
  let s1 := s.setChain fun c =>
    { c with staged := c.staged.filter (fun g => ¬ (g.tid = tid ∧ g.epoch = e)), plans := c.plans.filter fun q => ¬ (q.tid = tid ∧ q.epoch = e) }
  let s2 := (s.unwrittenTargets p mine).foldl (fun s x => s.dropLeaf x.1 x.2) (mine.foldl State.placeStaged s1).nextFree
  let s3 := p.lens.foldl (fun s x =>
    match s.seqIdx x.1 with
    | none => s
    | some q => if q.tid = tid ∧ q.len < x.2 then (s.setSeq { q with len := x.2 }).logKv tid (recLength { q with len := x.2 }) else s) s2
  let s4 := (p.moved.filter fun x => ¬ mine.any fun g => g.sq = x.1 ∧ g.p = x.2).foldl (fun s x => s.dropLeaf x.1 x.2) s3
  s4.put SPOKE.TENANT_EPOCH.EPOCH e tid

/-- Switches due at a boundary. -/
def State.dueSwitches (s : State) : State :=
  (s.chain.plans.filter fun p => p.commit.any (· ≤ s.stroke)).foldl (fun s p => s.switchEpoch p.tid p.epoch) s

/-! ### ADVANCE (R346) -/

def Work.adv (w : Work) : AdvSt :=
  match w.aux with
  | .adv a => a
  | _ => { asked := [], ready := [], committed := false, acked := [] }

def Work.setAdv (w : Work) (f : AdvSt → AdvSt) : Work := { w with aux := .adv (f w.adv) }

/-- The TID that a member gives this card's tenant, as PEER_TENANT maps it (DEDUCED, log 62); the tenant's own where none does. -/
def State.remoteTid (s : State) (member tid : Nat) : Nat :=
  if member = s.me then tid else ((List.range 1024).find? fun t => s.peerTenant member t = tid).getD tid

/-- The payload of an EPOCH_PREPARE (Table 14-4); the other epoch frames carry its bytes 0 to 5. -/
def epochBytes (tid e x : Nat) : List Byte := leBytes 2 tid ++ leBytes 4 e ++ leBytes 6 x

/-- This card's READY holds: its E is the epoch already, or no MOVE or COPY of the tenant for it is outstanding. -/
def State.epochReady (s : State) (tid e : Nat) : Bool :=
  s.epochOf tid == e || !(s.wk.works.any fun w => w.phase != 2 && w.isSend && w.d.tid == tid && rsEpoch w.d == e)

/-- A READY counted for the ADVANCE of a work. -/
def State.countReady (s : State) (id member : Nat) : State :=
  s.updWork id fun w => w.setAdv fun a => { a with ready := a.ready.filter (· ≠ member) ++ [member] }

/-- READYs of a tenant sent: to the members that asked, and to an ADVANCE of this card. -/
def State.sendReadies (s : State) (tid : Nat) : State :=
  let s1 := (s.chain.plans.filter fun p => p.tid = tid ∧ p.asked ≠ [] ∧ s.epochReady tid p.epoch).foldl (fun s p =>
    p.asked.foldl (fun s a => s.answerTo a.1 a.2 ftEPOCH_READY (leBytes 2 tid ++ leBytes 4 p.epoch)) (s.setPlan { p with asked := [] })) s
  (s1.wk.works.filter fun w => w.phase == 1 && w.isAdvance && w.d.tid == tid && !w.adv.ready.contains s.me &&
    s1.epochReady tid (rsEpoch w.d)).foldl (fun s w => s.countReady w.id s.me) s1

/-- EPOCH_READY_SEND (R346). -/
def execEpochReadySend (tid : Nat) (s : State) : Res := .next (if s.working then s.sendReadies tid else s)

/-- EPOCH_PREPARE (R346): recorded, and answered as soon as the card is ready. -/
def State.takePrepare (s : State) (f : Frame) : State :=
  s.once f fun s =>
    let tid := f.b 0 2
    if s.tenState tid = 0 then s
    else
      let p := s.plan_ tid (f.b 2 4)
      ((s.noteXid f).setPlan { p with asked := p.asked ++ [(f.src, f.xid)], switchAt := f.b 6 6 }).sendReadies tid

def execEpochPrepare (port : Nat) (f : Frame) (s : State) : Res := .next (s.receive port ftEPOCH_PREPARE f fun s f => s.takePrepare f)

/-- An ADVANCE admitted (R346): PREPARE to every member, this card included. -/
def State.admitAdvance (s : State) (id : Nat) : State :=
  s.admitWith id fun s w =>
    let f := s.reshardFail w
    if f ≠ 0 then s.latch id stPARTIAL f 0
    else
      let e := rsEpoch w.d
      let ms := s.ringOrder
      let s1 := s.updWork id fun w => { w with aux := .adv { asked := ms, ready := [], committed := false, acked := [] } }
      let p := s1.plan_ w.d.tid e
      let s2 := s1.setPlan { p with switchAt := rsSwitch w.d }
      let s3 := (ms.filter (· ≠ s.me)).foldl (fun s m =>
        (s.openTxn 0 ftEPOCH_PREPARE m id [epochBytes (s.remoteTid m w.d.tid) e (rsSwitch w.d)]).1) s2
      s3.sendReadies w.d.tid

/-- RESHARD at admission, by its KIND. -/
def State.admitReshard (s : State) (id : Nat) : State :=
  match s.work id with
  | none => s
  | some w => if w.isAdvance then s.admitAdvance id else s.admitSend id

/-- The table's RESHARD rows name the KIND: MOVE is 0, COPY 1, ADVANCE 2. -/
def withKind (d : Desc) (k : Nat) : Desc := { d with body := BitVec.ofNat 8 k :: (padTo 32 d.body).drop 1 }

/-- RESHARD_MOVE (R344). -/
def execReshardMove (d : Desc) (s : State) : Res := .next (s.rowAdmit opRESHARD (withKind d 0) fun s id => s.admitReshard id)

/-- RESHARD_COPY (R344). -/
def execReshardCopy (d : Desc) (s : State) : Res := .next (s.rowAdmit opRESHARD (withKind d 1) fun s id => s.admitReshard id)

/-- ADVANCE (R346). -/
def execAdvance (d : Desc) (s : State) : Res := .next (s.rowAdmit opRESHARD (withKind d 2) fun s id => s.admitReshard id)

/-- EPOCH_READY (R346). -/
def State.takeReady (s : State) (f : Frame) : State :=
  match s.txn f.xid with
  | none => s
  | some t => if t.typ ≠ ftEPOCH_PREPARE then s else (s.endTxn f.xid).countReady t.work f.src

def execEpochReady (port : Nat) (f : Frame) (s : State) : Res := .next (s.receive port ftEPOCH_READY f fun s f => s.takeReady f)

/-- A COMMIT recorded on this card (R346): the switch at X, or at the next boundary where X has begun; answers the outcome. -/
def State.recordCommit (s : State) (tid e : Nat) : State × Nat :=
  if s.epochOf tid = e then (s, 3)
  else
    let p := s.plan_ tid e
    if s.stroke < p.switchAt then (s.setPlan { p with commit := some p.switchAt }, 0)
    else ((s.setPlan { p with commit := some (s.stroke + 1) }).sat SPOKE.LATE_SWITCHES.COUNT, 1)

/-- EPOCH_COMMIT (R346): recorded and answered; COMMIT_ACK says whether the switch is late. -/
def State.takeCommit (s : State) (f : Frame) : State :=
  s.once f fun s =>
    let (s1, o) := s.recordCommit (f.b 0 2) (f.b 2 4)
    s1.answer f ftCOMMIT_ACK (leBytes 2 (f.b 0 2) ++ leBytes 4 (f.b 2 4) ++ leBytes 1 (b01 (o = 1)))

def execEpochCommit (port : Nat) (f : Frame) (s : State) : Res := .next (s.receive port ftEPOCH_COMMIT f fun s f => s.takeCommit f)

/-- Every member's READY is in. -/
def Work.allReady (w : Work) : Bool := w.adv.asked.all w.adv.ready.contains

/-- COMMIT sent to every member, this card included. -/
def State.sendCommits (s : State) (w : Work) : State :=
  let e := rsEpoch w.d
  let (s1, o) := s.recordCommit w.d.tid e
  let s2 := s1.updWork w.id fun w => w.setAdv fun a => { a with committed := true, acked := [(s.me, o)] }
  (w.adv.asked.filter (· ≠ s.me)).foldl (fun s m =>
    (s.openTxn 0 ftEPOCH_COMMIT m w.id [leBytes 2 (s.remoteTid m w.d.tid) ++ leBytes 4 e]).1) s2

/-- The course of an uncommitted ADVANCE: COMMIT once every READY is latched by Stroke X − 2, NOT_READY from Stroke X − 1 on; `lead` is 1 at a
boundary, where the READYs in are those of the Stroke before, and 2 within a Stroke. -/
def State.advanceTurn (s : State) (w : Work) (lead : Nat) : State :=
  if w.phase ≠ 1 ∨ !w.isAdvance ∨ w.adv.committed then s
  else if w.allReady ∧ s.stroke + lead ≤ rsSwitch w.d then s.sendCommits w
  else if rsSwitch w.d ≤ s.stroke + 1 then
    (s.setChain fun c => { c with txns := c.txns.filter (·.work ≠ w.id) }).latch w.id stPARTIAL dtNOT_READY 0
  else s

/-- ADVANCE_READY_DEADLINE (R346). -/
def execAdvanceReadyDeadline (work : Nat) (s : State) : Res :=
  match s.work work with
  | none => .next s
  | some w => .next (if s.working then s.advanceTurn w 2 else s)

/-- A committed ADVANCE whose acknowledgements are all in ends in Stroke X or later, with a record per member (R346). -/
def State.settleAdvance (s : State) (id : Nat) : State :=
  match s.work id with
  | none => s
  | some w =>
    let a := w.adv
    if w.phase ≠ 1 ∨ !w.isAdvance ∨ !a.committed ∨ s.stroke < rsSwitch w.d ∨ a.asked.any (fun m => (kvFind a.acked m).isNone) then s
    else
      let recs := a.asked.map fun m => leBytes 1 m ++ leBytes 1 ((kvFind a.acked m).getD 2) ++ zeros 6
      let s1 := s.updWork id fun w => { w with results := recs }
      if a.acked.any (·.2 = 2) then s1.latch id stFAULT dtCOMMIT_UNCONFIRMED 0 else s1.latch id stDONE 0 0

/-- Every ADVANCE at a boundary: before the switches, and after them. -/
def State.advanceTurns (s : State) : State := s.wk.works.foldl (fun s w => s.advanceTurn w 1) s

def State.settleAdvances (s : State) : State := s.wk.works.foldl (fun s w => s.settleAdvance w.id) s

/-- One member's outcome of a COMMIT. -/
def State.countAck (s : State) (id member o : Nat) : State :=
  (s.updWork id fun w => w.setAdv fun a => { a with acked := kvSet a.acked member o }).settleAdvance id

/-- The outcome that a COMMIT_ACK tells: switched late, else switched at X or already at e. Table 14-4 gives the frame no field for the last two:
which one it is, is a free value (DESIGN CHOICE, log 132). -/
def State.ackOutcome (s : State) (f : Frame) : Nat :=
  if bits (f.b 6 1) 0 1 = 1 then 1 else if Config.alreadyAt s.free then 3 else 0

/-- COMMIT_ACK (R346). -/
def State.takeCommitAck (s : State) (f : Frame) : State :=
  match s.txn f.xid with
  | none => s
  | some t => if t.typ ≠ ftEPOCH_COMMIT then s else (s.endTxn f.xid).nextFree.countAck t.work f.src (s.ackOutcome f)

def execCommitAck (port : Nat) (f : Frame) (s : State) : Res := .next (s.receive port ftCOMMIT_ACK f fun s f => s.takeCommitAck f)

end Sys2Proof.Machine
end

