-- ==== Sys2Proof/Machine/Rdma.lean ====
section
/-! DEFINITION. Remote access (chapter 15): queue pairs, regions, DELIVER as requester, host regions as responder, spray, congestion
control, port events (R350 to R374). -/

namespace Sys2Proof.Machine

def dtQP_ACCESS : Nat := 0x0901
def dtKEY : Nat := 0x0902
def dtRANGE : Nat := 0x0903
def dtQP_STATE : Nat := 0x0904
def dtQP_ERROR : Nat := 0x0905

/-- BTH opcodes: RDMA WRITE first, middle, last, only; FLUSH and its response; ACK; CNP (InfiniBand, as R350 takes them: PRESUMED,
log 63); spray (R366, R369). -/
def bthFirst : Nat := 0x06
def bthMiddle : Nat := 0x07
def bthLast : Nat := 0x08
def bthOnly : Nat := 0x0A
def bthFlush : Nat := 0x1C
def bthFlushResp : Nat := 0x10
def bthAck : Nat := 0x11
def bthCnp : Nat := 0x81
def bthSpray : Nat := 0xC0
def bthSprayAck : Nat := 0xC1

/-! ### Numbers that wrap at 24 bits -/

def add24 (a n : Nat) : Nat := (a + n) % 2 ^ 24

/-- `a` comes before `b`. -/
def before24 (a b : Nat) : Bool := a != b && decide ((b + 2 ^ 24 - a) % 2 ^ 24 < 2 ^ 23)

/-! ### Queue pairs -/

/-- PATH_MTU in bytes. -/
def State.qpMtu (s : State) (q : Nat) : Nat := 512 * 2 ^ s.get RDMA.QP_PATH.PATH_MTU q

def State.sprayPaths (s : State) (q : Nat) : Nat := s.get RDMA.QP_PATH.SPRAY_PATHS q

/-- A 128-bit address in four words from an offset. -/
def State.ipAt (s : State) (off inst : Nat) : Nat :=
  (List.range 4).foldl (fun a i => a + (s.reg (off + 4 * i) inst).toNat * 2 ^ (32 * i)) 0

/-! ### DELIVER: its completion (R357, R360, R361) -/

/-- FLUSH_PAGES, pages covered by a FLUSH sent, pages a response covers. -/
def Work.deliverSt (w : Work) : Nat × Nat × Nat :=
  match w.aux with
  | .deliver n a b => (n, a, b)
  | _ => (0, 0, 0)

def dlQp (d : Desc) : Nat := d.b 44 2 % 2 ^ 14
def dlWhole (d : Desc) : Bool := bits (d.b 46 1) 1 1 == 1

/-- PAYLOAD_LENGTH of a sequence's pages: what one of them says, or what its class gives where it has none yet (R197). -/
def State.payloadOf (s : State) (q : Seq) : Nat :=
  ((s.sq.leaves.findSome? fun l => if l.sq = q.idx then s.pageBy l.pid else none).map fun g => hdrPAYLOAD g.hdr).getD
    (s.get CMPR.CLASS_STATUS.PAYLOAD_BYTES q.cls)

/-- Bytes written per page (R197): the whole page, or its payload. -/
def State.deliverBytes (s : State) (d : Desc) : Nat :=
  if dlWhole d then 65536
  else
    match s.seqBySid d.tid d.sid with
    | none => 1
    | some q => s.payloadOf q

/-- A packet on a QP's port. -/
def State.sendPacket (s : State) (q : Nat) (p : Packet) : State := s.emit (.packet (s.qpPort q) p)

/-- The UDP source port of a QP's packets on a path (R365, R366). -/
def State.udpSource (s : State) (q path : Nat) : Nat :=
  if s.sprayPaths q = 0 then Config.udpPort q % 2 ^ 16 else 0xC000 + (q * 16 + path) % 0x4000

/-- A packet of a QP with its addresses, and nothing else set. -/
def State.packetOf (s : State) (q opcode psn : Nat) : Packet :=
  { srcIp := s.ipAt RDMA.PORT_IP.off (s.qpPort q), qpn := s.get RDMA.QP_REMOTE.DEST_QPN q, opcode := opcode, psn := psn, ce := false,
    malformed := false, va := 0, rkey := 0, length := 0, offset := 0, msn := 0, first := false, last := false, path := 0,
    syndrome := 0, basePsn := 0, bitmap := 0, payload := [], udpSrc := s.udpSource q 0,
    vlan := if s.flag RDMA.PORT_CTRL.VLAN_ON (s.qpPort q) then some (s.get RDMA.PORT_CTRL.VLAN (s.qpPort q)) else none,
    srcMac := s.get RDMA.PORT_MAC_LO.MAC (s.qpPort q) + 2 ^ 32 * s.get RDMA.PORT_MAC_HI.MAC (s.qpPort q), dscp := s.get RDMA.QP_PATH.DSCP q }

/-- A FLUSH over the target span of pages `a` to `b − 1` of a DELIVER (R361, R370). -/
def State.sendFlush (s : State) (w : Work) (a b : Nat) : State :=
  let q := (dlQp w.d)
  let x := s.qp q
  let stride := w.d.b 52 4
  let key := w.d.b 48 4 % 2 ^ 24
  let p : Packet := { s.packetOf q bthFlush x.sqPsn with
    va := w.d.b 56 8 + a * stride, rkey := s.lget RDMA.REGION_REMOTE_KEY.KEY key, length := (b - a - 1) * stride + s.deliverBytes w.d }
  let n := w.deliverSt.1
  let c := w.deliverSt.2.2
  ((s.setQp { x with sqPsn := add24 x.sqPsn 1, out := x.out ++ [⟨x.sqPsn, x.msnOut, 0, 0, p⟩],
                     flushOut := x.flushOut ++ [(x.sqPsn, w.id, b)] }).updWork w.id fun w => { w with aux := .deliver n b c }).sendPacket q p

/-- A DELIVER's FLUSHes that are due: after every FLUSH_PAGES pages, and after its last page. -/
def State.flushDeliver (s : State) (id : Nat) : Nat → State
  | 0 => s
  | k + 1 =>
    match s.work id with
    | none => s
    | some w =>
      let (n, a, _) := w.deliverSt
      let st := s.qpState (dlQp w.d)
      if n = 0 ∨ w.phase ≠ 1 ∨ !(st = qpRTS ∨ st = qpSQD) then s
      else if a + n ≤ w.lead then (s.sendFlush w a (a + n)).flushDeliver id k
      else if s.finished w ∧ a < w.lead then s.sendFlush w a w.lead
      else s

/-- A DELIVER that has ended completes (R125, R361, R357): every page done is DONE though its QP has failed meanwhile. -/
def State.settleDeliver (s : State) (id : Nat) : State :=
  let s := s.flushDeliver id 65536
  match s.work id with
  | none => s
  | some w =>
    let (n, _, c) := w.deliverSt
    if !s.finished w ∨ w.d.opcode ≠ opDELIVER then s
    else
      let all := decide (s.total w ≤ w.lead) && (n == 0 || decide (w.lead ≤ c))
      if w.stop = some (stFAULT, dtQP_ERROR) then
        if all then s.latchEnd w (s.rangeStatus { w with stop := none }) else s.latchEnd w w.endStatus
      else if n = 0 ∨ w.lead ≤ c then s.latchEnd w (s.rangeStatus w)
      else s

/-- A page chunk's message is acknowledged: the chunk ends (R360). -/
def State.endMessage (s : State) (id : Nat) (r : Run) : State :=
  ((s.dropRun id r).updWork id fun w => w.endAt r.idx).settleDeliver id

/-- Page chunks of a QP whose messages are acknowledged by now. -/
def State.endMessages (s : State) (q : Nat) : State :=
  let x := s.qp q
  let acked (m : Nat) : Bool :=
    if 0 < s.sprayPaths q then before24 m x.cumAck
    else !(x.out.any fun o => o.msn == m && o.pkt.opcode != bthFlush)
  let done := s.wk.works.flatMap fun w => w.run.filterMap fun r =>
    match r.res with
    | .message k _ _ m => if k = q ∧ acked m then some (w.id, r) else none
    | _ => none
  (done.foldl (fun s y => s.endMessage y.1 y.2) s).sameCycle s.wk.latched.length

/-! ### Errors (R357) -/

/-- SQ_DRAINED (Table 15-3): SQD with nothing unacknowledged, once. -/
def State.sayDrained (s : State) (q : Nat) : State :=
  let x := s.qp q
  if s.qpState q = qpSQD ∧ x.out = [] ∧ !x.drainedSaid then
    (s.setQp { x with drainedSaid := true }).rdmaEvent 0x12 0 (s.qpPort q) q 0 0 (s.qpPd q)
  else s

/-- DELIVERs of a QP. -/
def State.deliversOn (s : State) (q : Nat) : List Work :=
  s.wk.works.filter fun w => w.phase = 1 ∧ w.d.opcode = opDELIVER ∧ (dlQp w.d) = q

/-- The QP enters ERR (R357): its DELIVERs end, those with running chunks once the Stroke's acknowledgements are in. -/
def State.enterErr (s : State) (q cause : Nat) : State :=
  let st := s.qpState q
  if st = qpRESET ∨ st = qpERR then s
  else
    ((s.deliversOn q).foldl (fun s w =>
      if w.run = [] then s.latch w.id stFAULT dtQP_ERROR 0
      else s.updWork w.id fun w => { w with stop := some (stFAULT, dtQP_ERROR) }) (s.markErr q cause)).sameCycle s.wk.latched.length

/-- Messages of QPs that entered ERR in the Stroke before: cut, and their DELIVERs end. -/
def State.cutErr (s : State) : State :=
  (s.rdma.qps.filter fun x => x.errAt.isSome).foldl (fun s x =>
    let s1 := s.setQp { s.qp x.qp with out := [], flushOut := [], errAt := none }
    (s.deliversOn x.qp).foldl (fun s w => (w.run.foldl (fun s r => s.dropRun w.id r) s).settleDeliver w.id) s1) s

/-- The words of a QP's registers. -/
def isQpReg (off : Nat) : Bool := RDMA.QP_BIND.off ≤ off && off ≤ RDMA.QP_STATUS.off

/-- RESET (Table 15-3): from any state other than ERR the effects of R357 first; then every field at its power-up value. -/
def State.qpToReset (s : State) (q : Nat) : State :=
  let s1 := s.enterErr q 8
  let s2 := ((s1.deliversOn q).foldl (fun s w => (w.run.foldl (fun s r => s.dropRun w.id r) s).settleDeliver w.id) s1).sameCycle
    s.wk.latched.length
  { s2 with regs := s2.regs.filter fun p => !(isQpReg (p.1 % 0x1000000) && p.1 / 0x1000000 == q),
            rdma := { s2.rdma with qps := s2.rdma.qps.filter (·.qp ≠ q) } }

/-! ### Moves by the installer (R356) -/

/-- The move is in Table 15-3. -/
def moveAllowed (st next : Nat) : Bool :=
  if next = qpRESET then true
  else if next = qpINIT then st == qpRESET
  else if next = qpRTR then st == qpINIT
  else if next = qpRTS then st == qpRTR || st == qpSQD
  else if next = qpSQD then st == qpRTS
  else if next = qpERR then qpINIT ≤ st && st ≤ qpSQD
  else false

/-- The fields the move requires were given: written in their state, PATH_MTU and TIMEOUT not 0 (DEDUCED, log 65). -/
def State.moveFields (s : State) (q st next : Nat) : Bool :=
  let g := (s.qp q).given
  if next = qpINIT then s.pdOn (s.qpPd q) && s.portMode (s.qpPort q) == 1
  else if next = qpRTR then
    g.contains RDMA.QP_REMOTE.off && g.contains RDMA.QP_REMOTE_IP.off && g.contains RDMA.QP_PSN.off &&
      s.get RDMA.QP_PATH.PATH_MTU q != 0
  else if next = qpRTS ∧ st = qpRTR then g.contains RDMA.QP_SQ_PSN.off && s.get RDMA.QP_RETRY.TIMEOUT q != 0
  else true

/-- RDMA.QP_CTRL: the move is judged against the state in force and acts at the next boundary. -/
def hQpCtrl : Handler :=
  { Handler.plain with
    chk := fun s q _ v =>
      let n := fieldGet v 0 3
      let st := s.qpState q
      !(moveAllowed st n && s.moveFields q st n)
    act := fun s q v => s.atBoundary (.qpMove q (fieldGet v 0 3)) }

/-- A move in force (R356): dropped where an error move came first. -/
def State.qpMove (s : State) (q next : Nat) : State :=
  let st := s.qpState q
  if !moveAllowed st next then s
  else if next = qpRESET then s.qpToReset q
  else if next = qpERR then s.enterErr q 8
  else
    let s1 := s.put RDMA.QP_STATUS.STATE next q
    let x := s1.qp q
    if next = qpRTR then
      s1.setQp { x with rqPsn := s.get RDMA.QP_PSN.RQ_PSN q, basePsn := s.get RDMA.QP_PSN.RQ_PSN q }
    else if next = qpRTS ∧ st = qpRTR then
      let p := s.get RDMA.QP_SQ_PSN.SQ_PSN q
      s1.setQp { x with sqPsn := p, lastAck := add24 p (2 ^ 24 - 1) }
    else if next = qpSQD then (s1.setQp { x with drainedSaid := false }).sayDrained q
    else s1

/-- The BAR0 write of NEXT_STATE to the selected QP. -/
def State.writeQpCtrl (s : State) (next : Nat) : State := bar0 hQpCtrl RDMA.QP_CTRL.off (BitVec.ofNat 32 next) s

/-- QP_RESET (R356). -/
def execQpReset (s : State) : Res := .next (s.writeQpCtrl qpRESET)

/-- QP_INIT (R356). -/
def execQpInit (s : State) : Res := .next (s.writeQpCtrl qpINIT)

/-- QP_RTR (R356). -/
def execQpRtr (s : State) : Res := .next (s.writeQpCtrl qpRTR)

/-- QP_RTS (R356). -/
def execQpRts (s : State) : Res := .next (s.writeQpCtrl qpRTS)

/-- QP_SQD (R356). -/
def execQpSqd (s : State) : Res := .next (s.writeQpCtrl qpSQD)

/-- QP_ERR (R356, R357). -/
def execQpErr (s : State) : Res := .next (s.writeQpCtrl qpERR)

/-- A QP field with the state in which it is written (Table 15-9, R374); `off` is noted as given by a write in that state. SPRAY_PATHS is 0 to 16. -/
def hQpField (off : Nat) (st : Option Nat) : Handler :=
  { Handler.plain with
    chk := fun s q old v => (old != v && st.any (· != s.qpState q)) || (off == RDMA.QP_PATH.off && decide (16 < fieldGet v 16 5))
    act := fun s q _ =>
      let x := s.qp q
      if x.given.contains off ∨ st.any (· ≠ s.qpState q) then s else s.setQp { x with given := x.given ++ [off] } }

/-- RDMA.PD_CTRL: not while the PD has a QP that is not RESET or a region that is not FREE (R374). -/
def State.pdBusy (s : State) (pd : Nat) : Bool :=
  s.liveQps.any (fun q => s.qpPd q == pd) ||
    (((s.regs.filter fun p => p.1 % 0x1000000 = RDMA.REGION_STATUS.off).map fun p => p.1 / 0x1000000).any fun r =>
      s.get RDMA.REGION_STATUS.STATE r != 0 && s.lget RDMA.REGION_KIND.PD r == pd)

def hPdCtrl : Handler := { Handler.plain with chk := fun s pd old v => old != v && s.pdBusy pd }

/-! ### Regions (R353 to R355) -/

def State.rgState (s : State) (r : Nat) : Nat := s.get RDMA.REGION_STATUS.STATE r
/-- A pair of a region's entry as its COMMIT read it (R489). -/
def State.rgPair (s : State) (off r : Nat) : Nat := (s.liveReg off r).toNat + (s.liveReg (off + 4) r).toNat * 2 ^ 32

def State.rgBase (s : State) (r : Nat) : Nat := s.rgPair RDMA.REGION_BASE_LO.off r
def State.rgLength (s : State) (r : Nat) : Nat :=
  s.lget RDMA.REGION_LENGTH_LO.LENGTH r + s.lget RDMA.REGION_LENGTH_HI.LENGTH r * 2 ^ 32
def State.rgCounter (s : State) (r : Nat) : Nat := s.rgPair RDMA.REGION_COUNTER_LO.off r
def State.rgHost (s : State) (r : Nat) : Bool := s.lget RDMA.REGION_KIND.KIND r == 1

/-- The words of an entry: KIND to COUNTER. -/
def regionWords : List Nat := (List.range 8).map fun i => RDMA.REGION_KIND.off + 4 * i

/-- A COMMIT reads the entry's words in the cycle of its write (R489). -/
def State.readEntry (s : State) (r : Nat) : State := regionWords.foldl (fun s o => s.setLive o (s.reg o r) r) s

/-- The card key of a region (R354). -/
def State.cardKey (s : State) (r : Nat) : Nat := r + s.get RDMA.REGION_STATUS.KEY_BYTE r * 2 ^ 24

/-- The entry as read keeps Table 15-2. -/
def State.entryOk (s : State) (r : Nat) : Bool :=
  let n := s.rgLength r
  !outside n 1 (2 ^ 40) && decide (s.rgBase r + n ≤ 2 ^ 64) &&
    (!s.rgHost r || (s.rgBase r % 4096 == 0 && s.rgCounter r % 8 == 0))

/-- RDMA.REGION_CTRL (R355, R374). -/
def hRegionCtrl : Handler :=
  { Handler.plain with
    chk := fun s r _ v =>
      let c := fieldGet v 0 1 == 1
      let d := fieldGet v 1 1 == 1
      (c && d) || (c && (s.rgState r != 0 || !(s.readEntry r).entryOk r)) || (d && s.rgState r != 1)
    act := fun s r v =>
      if fieldGet v 0 1 = 1 then (s.readEntry r).atBoundary (.regionCommit r)
      else if fieldGet v 1 1 = 1 then s.atBoundary (.regionRelease r) else s }

/-- COMMIT (R355). -/
def execCommitCmd (s : State) : Res := .next (bar0 hRegionCtrl RDMA.REGION_CTRL.off 1#32 s)

/-- REGION_RELEASE (R355). -/
def execRegionRelease (s : State) : Res := .next (bar0 hRegionCtrl RDMA.REGION_CTRL.off 2#32 s)

/-- An entry's registers are written only while it is FREE (R374). -/
def hRegionField : Handler := { Handler.plain with chk := fun s r old v => old != v && s.rgState r != 0 }

/-- A descriptor or an inbound message uses a region. -/
def State.regionUsed (s : State) (r : Nat) : Bool :=
  s.wk.works.any (fun w => w.phase != 0 && w.d.opcode == opDELIVER && w.d.b 48 4 % 2 ^ 24 == r) ||
    s.rdma.qps.any fun x => x.inMsgs.any (·.region % 2 ^ 24 == r)

/-- DRAINING regions that nothing uses become FREE (R355, R354): the key byte advances and REGION_FREE is raised. -/
def State.freeRegions (s : State) : State :=
  (((s.regs.filter fun p => p.1 % 0x1000000 = RDMA.REGION_STATUS.off).map fun p => p.1 / 0x1000000).filter fun r =>
    s.rgState r = 2 ∧ !s.regionUsed r).foldl (fun s r =>
      let k := s.get RDMA.REGION_STATUS.KEY_BYTE r
      ((s.put RDMA.REGION_STATUS.STATE 0 r).put RDMA.REGION_STATUS.KEY_BYTE (k % 255 + 1) r).rdmaEvent 0x20 0 0xFF 0xFFFF
        (s.cardKey r) 0 (s.lget RDMA.REGION_KIND.PD r)) s

/-! ### DELIVER as requester (R358 to R361) -/

/-- The check of R358 that fails first, 0 for none. -/
def State.deliverFail (s : State) (d : Desc) : Nat :=
  let pd := s.qpPd (dlQp d)
  let key := d.b 48 4
  let r := key % 2 ^ 24
  let n := d.nb * d.nl
  let lo := d.b 56 8
  if !s.pdOn pd ∨ s.pdOwner pd ≠ d.tid then dtQP_ACCESS
  else if 1048576 ≤ r ∨ s.rgState r ≠ 1 ∨ s.cardKey r ≠ key ∨ s.rgHost r ∨ s.lget RDMA.REGION_KIND.PD r ≠ pd ∨
      s.lget RDMA.REGION_KIND.PORT r ≠ s.qpPort (dlQp d) then dtKEY
  else if lo < s.rgBase r ∨ s.rgBase r + s.rgLength r < lo + (n - 1) * d.b 52 4 + s.deliverBytes d then dtRANGE
  else 0

/-- DELIVER at admission: R358 within step 1 of R127, the common checks, then LAYER_RANGE, STRIDE and QP_STATE. -/
def State.admitDeliver (s : State) (id : Nat) : State :=
  match s.work id with
  | none => s
  | some w =>
    let f := s.deliverFail w.d
    if w.phase = 0 ∧ rightsOk w.d ∧ f ≠ 0 then (s.enter id).latch id stDENIED f 0
    else
      s.admitWith id fun s w =>
        let st := s.qpState (dlQp w.d)
        if s.layerRange w.d then s.latch id stPARTIAL dtLAYER_RANGE 0
        else if w.d.b 52 4 < s.deliverBytes w.d then s.latch id stPARTIAL dtSTRIDE 0
        else if st ≠ qpRTS ∧ st ≠ qpSQD then s.latch id stPARTIAL dtQP_STATE 0
        else (s.updWork id fun w => { w with aux := .deliver (s.get RDMA.QP_FLUSH.FLUSH_PAGES (dlQp w.d)) 0 0 }).plan w true

/-- DELIVER (R197, R358, R359). -/
def execDeliver (d : Desc) (s : State) : Res := .next (s.rowAdmit opDELIVER d fun s id => s.admitDeliver id)

/-- The path a sprayed QP's next packet takes: in rotation, retired ones skipped while another is left (R367). -/
def Qp.pathFrom (x : Qp) (n : Nat) : Nat :=
  let ps := (List.range n).map fun k => (x.nextPath + k) % n
  (ps.find? fun p => (kvFind x.retired p).isNone).getD (x.nextPath % max 1 n)

/-- One raise of a QP's rate (R371), between MIN_RATE and the port's rate. -/
def Qp.raise (x : Qp) (floor addRate hyper : Nat) : Qp :=
  let k := x.raises + 1
  let t := if k ≤ 5 then x.target else min portRate (x.target + 1000 * (if 10 ≤ k then hyper else addRate))
  { x with raises := k, target := t, rate := min portRate (max floor ((x.rate + t) / 2)) }

/-- MIN_RATE in kb/s. -/
def State.minRate (s : State) : Nat := 1000 * s.get RDMA.CC_MIN_RATE.MBPS

/-- A raise by the card's rates. -/
def State.raiseQp (s : State) (x : Qp) : Qp := x.raise s.minRate (s.get RDMA.CC_RATES.ADD_RATE) (s.get RDMA.CC_RATES.HYPER_RATE)

/-- Bytes sent on a QP, resent ones too: the rate is raised after every BYTE_COUNTER bytes (R371). -/
def State.countBytes (s : State) (q n : Nat) : State :=
  let x := s.qp q
  let k := s.get RDMA.CC_BYTE_COUNTER.KIB * 1024
  if k = 0 then s.setQp { x with bytes := x.bytes + n }
  else s.setQp ((List.range ((x.bytes + n) / k)).foldl (fun x _ => s.raiseQp x) { x with bytes := (x.bytes + n) % k })

/-- A packet sent again, counted (R369, R371). -/
def State.sendAgain (s : State) (q : Nat) (p : Packet) : State :=
  ((s.sendPacket q p).sat RDMA.RETRANSMITS.COUNT).countBytes q p.payload.length

/-- One packet of a message sent: standard or sprayed (R359, R366). -/
def State.sendData (s : State) (q msn va rkey total i n : Nat) (bs : List Byte) : State :=
  let x := s.qp q
  let paths := s.sprayPaths q
  let mtu := s.qpMtu q
  let path := if paths = 0 then 0 else x.pathFrom paths
  let op := if paths ≠ 0 then bthSpray else if n = 1 then bthOnly else if i = 0 then bthFirst else if i + 1 = n then bthLast else bthMiddle
  let p : Packet := { s.packetOf q op x.sqPsn with
    va := if paths = 0 then va else va + i * mtu, rkey := rkey, length := total, offset := i * mtu, msn := msn, first := i == 0,
    last := i + 1 == n, path := path, payload := bs, udpSrc := s.udpSource q path, ect0 := true }
  ((s.setQp { x with sqPsn := add24 x.sqPsn 1, out := x.out ++ [⟨x.sqPsn, msn, path, 0, p⟩],
                     nextPath := if paths = 0 then 0 else (path + 1) % paths }).sendPacket q p).countBytes q bs.length

/-- One message sent on a QP: its packets in PSN order; answers its first and last PSN and its MSN. -/
def State.sendMessage (s : State) (q va rkey : Nat) (bs : List Byte) : State × Nat × Nat × Nat :=
  let x := s.qp q
  let mtu := max 1 (s.qpMtu q)
  let n := max 1 (cdiv bs.length mtu)
  let s1 := (List.range n).foldl (fun s i => s.sendData q x.msnOut va rkey bs.length i n ((bs.drop (i * mtu)).take mtu)) s
  (s1.setQp { s1.qp q with msnOut := add24 x.msnOut 1 }, x.sqPsn, add24 x.sqPsn (n - 1), x.msnOut)

/-- Messages of a sprayed QP not cumulatively acknowledged (R367). -/
def Qp.inFlight (x : Qp) : Nat := (x.msnOut + 2 ^ 24 - x.cumAck) % 2 ^ 24

/-- The next page chunk of a DELIVER (R197, R198, R359). -/
def State.decDeliver (s : State) (w : Work) : Dec :=
  match s.seqBySid w.d.tid w.d.sid with
  | none => .wait
  | some q =>
    let k := (dlQp w.d)
    if s.qpState k ≠ qpRTS ∨ (0 < s.sprayPaths k ∧ 1024 ≤ (s.qp k).inFlight) then .wait
    else
      let (b, l) := s.visit w w.next
      let p := q.page b l
      let rkey := s.lget RDMA.REGION_REMOTE_KEY.KEY (w.d.b 48 4 % 2 ^ 24)
      let draw : Res6 := { Res6.zero with dram := 16, spoke := 16 }
      let send (s : State) (refs : List Nat) (bs : List Byte) : Dec :=
        let (s1, a, z, m) := s.sendMessage k (w.d.b 56 8 + w.next * w.d.b 52 4) rkey bs
        .go s1 draw refs false (.message k a z m)
      match s.gate q b l with
      | .wrapped => .stop s stPARTIAL dtWRAPPED
      | .beyond => .stop s stPARTIAL dtBEYOND
      | .zeros => send ((s.resolve q p).flagWork w.id flUNWRITTEN) [] (zeros (s.deliverBytes w.d))
      | .lost c now => .pass (s.lose w p c now)
      | .flash _ => .wait
      | .ready g =>
        if !s.lagged g then .wait
        else if g.bad ≠ 0 then .pass (s.loseCoded w p)
        else
          let s1 := if hdrSizeRaw g.hdr then s.flagWork w.id flRAW else s
          send (s1.resolve q p) [g.pid] (if dlWhole w.d then s.pageBytes g else (s.plainBody g).take (hdrPAYLOAD g.hdr))

/-! ### Answers to the requester (R359 to R361, R369) -/

/-- A RoCEv2 packet that arrives on an Ethernet-mode port for a QP of it, from its partner (R350, R351): the QP. One whose source is not the
partner of the QP it names is counted. -/
def State.packetFor (s : State) (port : Nat) (p : Packet) : State × Option Nat :=
  let q := p.qpn - 0x100
  if !s.working || s.portMode port != 1 || !s.linkUp port || decide (p.qpn < 0x100) || decide (16384 ≤ q) || !p.icrcOk || p.udpDst != 4791 then
    (s, none)
  else if s.ipAt RDMA.QP_REMOTE_IP.off q ≠ p.srcIp then (s.sat RDMA.FOREIGN_PACKETS.COUNT, none)
  else if s.qpState q = qpRESET ∨ s.qpPort q ≠ port then (s, none)
  else (s, some q)

/-- The requester of a QP takes answers: in RTS or SQD, or in ERR within the Stroke of its entry. -/
def State.takesAnswers (s : State) (q : Nat) : Bool :=
  let st := s.qpState q
  st == qpRTS || st == qpSQD || (st == qpERR && (s.qp q).errAt == some s.stroke)

/-- The first valid packet in RTR raises QP_ESTABLISHED (Table 15-3). -/
def State.established (s : State) (q : Nat) : State :=
  let x := s.qp q
  if s.qpState q = qpRTR ∧ !x.established then
    (s.setQp { x with established := true }).rdmaEvent 0x10 0 (s.qpPort q) q 0 0 (s.qpPd q)
  else s

/-- Packets up to a PSN acknowledged on a standard QP. -/
def State.ackTo (s : State) (q psn : Nat) : State :=
  let x := s.qp q
  let keep := x.out.filter fun o => before24 psn o.psn || x.flushOut.any (·.1 == o.psn)
  ((s.setQp { x with out := keep, lastAck := if before24 x.lastAck psn then psn else x.lastAck,
                     tries := if keep.length < x.out.length then 0 else x.tries }).endMessages q).sayDrained q

/-- Every packet a QP still keeps is sent again (go-back-N). -/
def State.resendAll (s : State) (q : Nat) : State :=
  (s.qp q).out.foldl (fun s o => s.sendAgain q o.pkt) s

/-- The ERR cause a NAK class leads to (Table 15-7). -/
def nakCause (syndrome : Nat) : Nat := if syndrome = 2 then 3 else if syndrome = 3 then 2 else 4

/-- An answer packet of a QP. -/
def State.respond (s : State) (q opcode psn syndrome : Nat) : State := s.sendPacket q { s.packetOf q opcode psn with syndrome := syndrome }

/-- A CNP for a QP, at most one per CNP_INTERVAL (R364, R371). -/
def State.sendCnp (s : State) (q : Nat) : State :=
  let x := s.qp q
  let gap := cdiv (s.get RDMA.CC_CTRL.CNP_INTERVAL_US) (max 1 s.period)
  if x.cnpAt.any fun t => s.stroke < t + gap then s
  else ((s.setQp { x with cnpAt := some s.stroke }).sat RDMA.CNPS_SENT.COUNT).respond q bthCnp 0 0

/-- An invalid request NAK: the QP enters ERR with LOCAL_INVALID. -/
def State.nakInvalid (s : State) (q psn : Nat) : State := (s.respond q bthAck psn 2).enterErr q 7

/-- A QP in RTR, RTS or SQD takes packets, unless its owner is being reset (R357, R362, R427). -/
def State.takesPackets (s : State) (q : Nat) : Bool :=
  let st := s.qpState q
  (st == qpRTR || st == qpRTS || st == qpSQD) && !s.draining (s.pdOwner (s.qpPd q))

/-- A packet that carries CE is answered with a CNP (R371). -/
def State.noteCe (s : State) (q : Nat) (p : Packet) : State := if p.ce && s.takesPackets q then s.sendCnp q else s

/-- RDMA_ACK (R360): an acknowledgement, or a NAK. -/
def execRdmaAck (port : Nat) (p : Packet) (s : State) : Res :=
  match s.packetFor port p with
  | (s1, none) => .next s1
  | (s0, some q) =>
    let s1 := s0.noteCe q p
    if !s1.takesAnswers q then .next s1
    else if p.syndrome = 0 then .next (s1.ackTo q p.psn)
    else if p.syndrome = 1 then .next ((s1.ackTo q (add24 p.psn (2 ^ 24 - 1))).resendAll q)
    else .next (s1.enterErr q (if (s1.qp q).flushOut.any (·.1 = p.psn) then 4 else nakCause p.syndrome))

/-- FLUSH_RESPONSE (R361): the pages the FLUSH covered are placed, or a NAK ends the QP. -/
def execFlushResponse (port : Nat) (p : Packet) (s : State) : Res :=
  match s.packetFor port p with
  | (s1, none) => .next s1
  | (s0, some q) =>
    let s1 := s0.noteCe q p
    let x := s1.qp q
    match x.flushOut.find? (·.1 = p.psn) with
    | none => .next s1
    | some f =>
      if !s1.takesAnswers q then .next s1
      else if p.syndrome ≠ 0 then .next (s1.enterErr q 4)
      else
        let s2 := s1.setQp { x with flushOut := x.flushOut.filter (·.1 ≠ p.psn), out := x.out.filter (·.psn ≠ p.psn) }
        let s3 := if 0 < s1.sprayPaths q then s2 else s2.ackTo q p.psn
        .next (((s3.updWork f.2.1 fun w =>
          let (n, a, c) := w.deliverSt
          { w with aux := .deliver n a (max c f.2.2) }).settleDeliver f.2.1).sayDrained q)

/-- SPRAY_ACK (R369): messages below CUM_MSN are acknowledged, packets of the bitmap covered. A standard QP does not take it: an invalid request,
answered in RTR and RTS (R350, R365). -/
def execSprayAck (port : Nat) (p : Packet) (s : State) : Res :=
  match s.packetFor port p with
  | (s1, none) => .next s1
  | (s0, some q) =>
    let s1 := s0.noteCe q p
    if s1.sprayPaths q = 0 then .next (if s1.takesPackets q ∧ s1.qpState q ≠ qpSQD then s1.nakInvalid q p.psn else s1)
    else if !s1.takesAnswers q then .next s1
    else
      let x := s1.qp q
      let covered (n : Nat) : Bool :=
        before24 n p.basePsn || (before24 p.basePsn n && bits p.bitmap ((n + 2 ^ 24 - p.basePsn) % 2 ^ 24 - 1) 1 == 1 &&
          decide ((n + 2 ^ 24 - p.basePsn) % 2 ^ 24 ≤ 64))
      let keep := x.out.filter fun o => !covered o.psn || x.flushOut.any (·.1 == o.psn)
      let cum := if before24 x.cumAck p.msn then p.msn else x.cumAck
      let last := add24 p.basePsn (2 ^ 24 - 1)
      let s2 := s1.setQp { x with out := keep, cumAck := cum, lastAck := if before24 x.lastAck last then last else x.lastAck }
      .next ((s2.endMessages q).sayDrained q)

/-- ACK_TIMEOUT (R356, Table 15-7): what is unacknowledged is sent again, or RETRY_EXCEEDED. On a sprayed QP it is a FLUSH's. -/
def execAckTimeout (qp : Nat) (s : State) : Res :=
  let x := s.qp qp
  let st := s.qpState qp
  let mine := x.out.filter fun o => s.sprayPaths qp == 0 || o.pkt.opcode == bthFlush
  if !s.working || !(st == qpRTS || st == qpSQD) || mine.isEmpty then .next s
  else if s.get RDMA.QP_RETRY.RETRY_COUNT qp ≤ x.tries then .next (s.enterErr qp 1)
  else .next (mine.foldl (fun s o => s.sendAgain qp o.pkt) (s.setQp { x with tries := x.tries + 1 }))

/-- SPRAY_TIMEOUT (R369): the packet goes out again on the next path, and its path is retired. -/
def execSprayTimeout (qp psn : Nat) (s : State) : Res :=
  let x := s.qp qp
  let st := s.qpState qp
  match x.out.find? fun o => o.psn = psn ∧ o.pkt.opcode = bthSpray with
  | none => .next s
  | some o =>
    if !s.working || !(st == qpRTS || st == qpSQD) then .next s
    else if s.get RDMA.QP_RETRY.RETRY_COUNT qp ≤ o.tries then .next (s.enterErr qp 1)
    else
      let n := s.sprayPaths qp
      let fresh := (kvFind x.retired o.path).isNone
      let x1 := { x with retired := kvSet x.retired o.path (s.stroke + 1024) }
      let path := x1.pathFrom n
      let pkt := { o.pkt with path := path, udpSrc := s.udpSource qp path }
      let x2 := { x1 with nextPath := (path + 1) % max 1 n, out := x1.out.map fun y =>
        if y.psn = psn then { y with path := path, tries := y.tries + 1, pkt := pkt } else y }
      let s1 := (s.setQp x2).sendAgain qp pkt
      .next (if fresh then s1.rdmaEvent 0x13 0 (s.qpPort qp) qp 0 o.path (s.qpPd qp) else s1)

/-- PATH_RESTORED (R369): a path's 1,024 Strokes are over. -/
def execPathRestored (qp path : Nat) (s : State) : Res :=
  let x := s.qp qp
  match kvFind x.retired path with
  | none => .next s
  | some e =>
    if !s.working || decide (s.stroke < e) then .next s
    else .next ((s.setQp { x with retired := kvDel x.retired path }).rdmaEvent 0x14 0 (s.qpPort qp) qp 0 path (s.qpPd qp))

/-! ### Host regions as responder (R350, R362, R363, R368 to R370) -/

/-- A remote access NAK (R362): counted, reported, and the QP enters ERR with LOCAL_ACCESS. -/
def State.nakAccess (s : State) (q : Nat) (p : Packet) (addr : Nat) : State :=
  let s1 := (s.sat RDMA.ACCESS_VIOLATIONS.COUNT).rdmaEvent 0x21 0 (s.qpPort q) q p.rkey addr (s.qpPd q)
  (s1.respond q bthAck p.psn 3).enterErr q 6

/-- The HOST region that an inbound packet's bytes lie in, with the access it needs: none is a remote access error. `cont` is a message
whose first packet was accepted before a RELEASE. -/
def State.hostRegion (s : State) (q rkey va n access : Nat) (cont : Bool) : Option Nat :=
  let r := rkey % 2 ^ 24
  let st := s.rgState r
  if 1048576 ≤ r ∨ !(st = 1 ∨ (st = 2 ∧ cont)) ∨ s.cardKey r ≠ rkey ∨ !s.rgHost r ∨ s.lget RDMA.REGION_KIND.PD r ≠ s.qpPd q ∨
      s.rgLength r < va + n ∨ bits (s.lget RDMA.REGION_KIND.ACCESS r) access 1 = 0 then none
  else some r

/-- A whole message advances its region's counter (R363). -/
def State.advance (s : State) (r len : Nat) : State :=
  let a := s.rgCounter r
  if a = 0 then s else s.memWrite a (leBytes 8 ((leNat (s.memRead a 8) + len) % 2 ^ 64))

/-- What the inbound buffers still hold when a packet arrives: no more than was in them (R364). -/
def State.drainBuffers (s : State) : State :=
  if s.rdma.held = [] then s
  else { s.nextFree with rdma := { s.rdma with
    held := (s.rdma.held.map fun x => (x.1, min x.2 (Config.stillHeld s.free x.1))).filter (·.2 ≠ 0) } }

/-- Bytes in a port's inbound buffer. -/
def State.portHeld (s : State) (port : Nat) : Nat := ((s.rdma.held.filter fun x => s.qpPort x.1 = port).map (·.2)).foldl (· + ·) 0

/-- An arriving payload into its port's inbound buffer of 4 MiB (R364): a full buffer drops it, or sends a pause where PFC is enabled; a QP's
share above 256 KiB gets a CNP. Answers whether it was taken. When the buffer drains is a free value (DESIGN CHOICE, log 133). -/
def State.bufferIn (s : State) (port q n : Nat) : State × Bool :=
  if n = 0 then (s, true)
  else
    let s1 := s.drainBuffers
    let mine := (kvFind s1.rdma.held q).getD 0 + n
    let full := decide (4 * 2 ^ 20 < s1.portHeld port + n)
    if full ∧ !s1.flag RDMA.PORT_CTRL.PFC_ON port then (s1, false)
    else
      let s2 : State := { s1 with rdma := { s1.rdma with held := kvSet s1.rdma.held q mine } }
      let s3 := if full then s2.emit (.pause port) else s2
      (if 256 * 1024 < mine then s3.sendCnp q else s3, true)

/-- A packet within Table 15-1 and the QP's kind (R350, R365). -/
def State.supported (s : State) (q : Nat) (p : Packet) (ops : List Nat) (sprayed : Bool) : Bool :=
  ops.contains p.opcode && sprayed == decide (0 < s.sprayPaths q) && (p.opcode != bthFlush || (p.globalVis && p.regionRange))

/-- An inbound packet meets a QP that takes packets: the packet's CE, its form, the state of the QP, the buffer (R350, R364, R371). -/
def State.inbound (s : State) (port : Nat) (p : Packet) (ops : List Nat) (sprayed : Bool) (k : State → Nat → State) : State :=
  match s.packetFor port p with
  | (s1, none) => s1
  | (s1, some q) =>
    -- a tenant's reset discards packets to its HOST regions without an answer (R427)
    if !s1.takesPackets q then s1
    else
      let s2 := s1.noteCe q p
      if !s1.supported q p ops sprayed then (if s1.qpState q = qpSQD then s2 else s2.nakInvalid q p.psn)
      else
        let (s3, taken) := s2.bufferIn port q p.payload.length
        if taken then k s3 q else s3

/-- A WRITE's payload has a size that its place in a message of a QP allows: PATH_MTU, or less in the last packet (R350, R367). -/
def State.sizeOk (s : State) (q n : Nat) (last : Bool) : Bool := decide (1 ≤ n ∧ n ≤ s.qpMtu q) && (last || n == s.qpMtu q)

/-- A WRITE packet in order on a standard QP (R362, R363). -/
def State.takeWrite (s : State) (q : Nat) (p : Packet) : State :=
  let x := s.qp q
  let starts := p.opcode = bthFirst ∨ p.opcode = bthOnly
  let ends := p.opcode = bthLast ∨ p.opcode = bthOnly
  let m : InMsg := if starts then ⟨x.cumMsn, p.rkey, p.length, 0, p.va, p.psn⟩ else (x.inMsgs.head?).getD ⟨0, 0, 0, 0, 0, 0⟩
  if starts ≠ x.inMsgs.isEmpty then s.nakInvalid q p.psn
  else
    let va := m.start + m.got
    match s.hostRegion q m.region va p.payload.length 0 (!starts) with
    | none => s.nakAccess q { p with rkey := m.region } va
    | some r =>
      let got := m.got + p.payload.length
      if p.malformed ∨ !s.sizeOk q p.payload.length ends ∨ 2 ^ 30 < m.len ∨ m.len < got ∨ (ends ∧ got ≠ m.len) then s.nakInvalid q p.psn
      else
        let s1 := (s.established q).memWrite (s.rgBase r + va) p.payload
        let y := s1.qp q
        let y1 := { y with rqPsn := add24 y.rqPsn 1, inMsgs := if ends then [] else [{ m with got := got }],
                           cumMsn := if ends then add24 y.cumMsn 1 else y.cumMsn }
        let s2 := s1.setQp y1
        (if ends then s2.advance r m.len else s2).respond q bthAck p.psn 0

/-- A packet of a standard QP by its PSN: the expected one acts, a repeated one is acknowledged again, one ahead gets a PSN NAK. -/
def State.inOrderPsn (s : State) (q : Nat) (p : Packet) (k : State → State) : State :=
  let x := s.qp q
  if p.psn = x.rqPsn then k s
  else if before24 p.psn x.rqPsn then s.respond q bthAck (add24 x.rqPsn (2 ^ 24 - 1)) 0
  else s.respond q bthAck x.rqPsn 1

/-- RDMA_WRITE (R362, R363). -/
def execRdmaWrite (port : Nat) (p : Packet) (s : State) : Res :=
  .next (s.inbound port p [bthFirst, bthMiddle, bthLast, bthOnly] false fun s q => s.inOrderPsn q p fun s => s.takeWrite q p)

/-- A SPRAY_ACK sent (R369): the lowest MSN not whole, the lowest PSN missing, and the 64 that follow it. -/
def State.sendSprayAck (s : State) (q : Nat) : State :=
  let x := s.qp q
  let bm := ((List.range 64).map fun i => if x.psns.contains (add24 x.basePsn (i + 1)) then 2 ^ i else 0).foldl (· + ·) 0
  (s.setQp { x with unacked := 0 }).sendPacket q
    { s.packetOf q bthSprayAck 0 with msn := x.cumMsn, basePsn := x.basePsn, bitmap := bm }

/-- The lowest number at or after `n` that is not in a list, and the list without what lies below it. -/
def slide : Nat → Nat → List Nat → Nat × List Nat
  | 0, n, l => (n, l)
  | k + 1, n, l => if l.contains n then slide k (add24 n 1) (l.filter (· ≠ n)) else (n, l)

/-- A PSN marked received. -/
def Qp.mark (x : Qp) (psn : Nat) : Qp :=
  let (b, ps) := slide (x.psns.length + 1) x.basePsn (x.psns ++ [psn])
  { x with basePsn := b, psns := ps }

/-- A FLUSH may be executed: every packet before it is in, and every message that one of them began is whole (R370). -/
def Qp.flushReady (x : Qp) (psn : Nat) : Bool := before24 psn x.basePsn && !x.inMsgs.any fun m => before24 m.psn psn

/-- FLUSHes whose earlier messages are all whole are answered (R370). -/
def State.answerFlushes (s : State) (q : Nat) : State :=
  let x := s.qp q
  (x.flushes.filter x.flushReady).foldl (fun s f => s.respond q bthFlushResp f 0)
    (s.setQp { x with flushes := x.flushes.filter fun f => !x.flushReady f })

/-- The lower of two PSNs. -/
def min24 (a b : Nat) : Nat := if before24 b a then b else a

/-- A packet counted towards the message of its MSN; a message is whole when the count equals MSG_LENGTH (R368). -/
def State.countSpray (s : State) (q r : Nat) (p : Packet) : State :=
  let y := (s.qp q).mark p.psn
  if before24 p.msn y.cumMsn ∨ y.whole.contains p.msn then s.setQp y
  else
    let old : InMsg := (y.inMsgs.find? (·.msn = p.msn)).getD ⟨p.msn, p.rkey, p.length, 0, p.va - p.offset, p.psn⟩
    let m : InMsg := { old with got := old.got + p.payload.length, psn := min24 old.psn p.psn }
    let rest := y.inMsgs.filter (·.msn ≠ p.msn)
    if m.got ≠ m.len then s.setQp { y with inMsgs := rest ++ [m] }
    else
      let (c, wh) := slide (y.whole.length + 1) y.cumMsn (y.whole ++ [p.msn])
      (s.setQp { y with inMsgs := rest, cumMsn := c, whole := wh, lens := kvSet y.lens p.msn m.len }).advance r m.len

/-- A packet received towards the next SPRAY_ACK: one is sent after every 16 (R369). -/
def State.countAcks (s : State) (q : Nat) : State :=
  let y := s.qp q
  let s1 := s.setQp { y with unacked := y.unacked + 1 }
  if 16 ≤ y.unacked + 1 then s1.sendSprayAck q else s1

/-- MSG_LENGTH as an earlier packet of the same MSN gave it (R368). -/
def Qp.lengthOf (x : Qp) (msn : Nat) : Option Nat :=
  match x.inMsgs.find? (·.msn = msn) with
  | some m => some m.len
  | none => if before24 msn x.cumMsn ∨ x.whole.contains msn then kvFind x.lens msn else none

/-- A SPRAY_WRITE packet (R368): too far ahead, dropped; a PSN seen before, counted no more; else checked, placed and counted. -/
def State.takeSpray (s : State) (q : Nat) (p : Packet) : State :=
  let x := s.qp q
  let n := p.payload.length
  if 1024 ≤ (p.msn + 2 ^ 24 - x.cumMsn) % 2 ^ 24 ∧ !before24 p.msn x.cumMsn then s
  else if before24 p.psn x.basePsn ∨ x.psns.contains p.psn then s.countAcks q
  else
    match s.hostRegion q p.rkey p.va n 0 (x.lengthOf p.msn).isSome with
    | none => s.nakAccess q p p.va
    | some r =>
      if p.malformed ∨ !s.sizeOk q n true ∨ 2 ^ 30 < p.length ∨ p.length < p.offset + n ∨ (x.lengthOf p.msn).any (· ≠ p.length) then s.nakInvalid q p.psn
      else ((((s.established q).memWrite (s.rgBase r + p.va) p.payload).countSpray q r p).countAcks q).answerFlushes q

/-- SPRAY_WRITE (R365, R368). -/
def execSprayWrite (port : Nat) (p : Packet) (s : State) : Res :=
  .next (s.inbound port p [bthSpray] true fun s q => s.takeSpray q p)

/-- SPRAY_ACK_SEND (R369): packets received are still unanswered. -/
def execSprayAckSend (qp : Nat) (s : State) : Res :=
  let st := s.qpState qp
  .next (if s.working && (st == qpRTR || st == qpRTS || st == qpSQD) && (s.qp qp).unacked != 0 then s.sendSprayAck qp else s)

/-- FLUSH (R362, R370): executed once every message sent before it is whole, then answered. -/
def execFlush (port : Nat) (p : Packet) (s : State) : Res :=
  let act (s : State) (q : Nat) (k : State → State) : State :=
    match s.hostRegion q p.rkey p.va p.length 1 false with
    | none => s.nakAccess q p p.va
    | some _ => if p.malformed then s.nakInvalid q p.psn else k (s.established q)
  match s.packetFor port p with
  | (s1, none) => .next s1
  | (_, some q) =>
    if 0 < s.sprayPaths q then
      .next (s.inbound port p [bthFlush] true fun s q => act s q fun s =>
        let x := s.qp q
        if before24 p.psn x.basePsn ∨ x.psns.contains p.psn then s
        else (s.setQp ({ x with flushes := x.flushes ++ [p.psn] }.mark p.psn)).answerFlushes q)
    else
      .next (s.inbound port p [bthFlush] false fun s q => s.inOrderPsn q p fun s => act s q fun s =>
        let x := s.qp q
        (s.setQp { x with rqPsn := add24 x.rqPsn 1 }).respond q bthFlushResp p.psn 0)

/-! ### Congestion control (R371) -/

/-- CNP (R371): the QP's rate is cut; a QP that takes no packets discards it (R357). -/
def execCnp (port : Nat) (p : Packet) (s : State) : Res :=
  match s.packetFor port p with
  | (s1, none) => .next s1
  | (s1, some q) =>
    let x := s1.qp q
    let g := s1.get RDMA.CC_G.G_1024THS
    let floor := s1.minRate
    if !s1.takesPackets q then .next s1
    else
    let r := x.rate * (2 ^ 21 - x.alpha) / 2 ^ 21
    let a := ((1024 - g) * x.alpha + g * 2 ^ 20) / 1024
    .next ((s1.sat RDMA.CNPS_RECEIVED.COUNT).setQp { x with target := x.rate, rate := min portRate (max floor r), alpha := a, raises := 0, bytes := 0 })

/-- RATE_TIMER (R371): no CNP for the timer's length. -/
def execRateTimer (qp : Nat) (s : State) : Res :=
  let x := s.qp qp
  let g := s.get RDMA.CC_G.G_1024THS
  if !s.working || s.qpState qp == qpRESET then .next s
  else .next (s.setQp (s.raiseQp { x with alpha := (1024 - g) * x.alpha / 1024 }))

/-! ### Ports (R372) -/

/-- The port carries Ethernet. -/
def State.etherPort (s : State) (p : Nat) : Bool := s.portMode p == 1

/-- PORT_DOWN: every QP of the port that is not in RESET enters ERR. -/
def State.portDown (s : State) (p : Nat) : State :=
  ((s.liveQps.filter fun q => s.qpPort q = p).foldl (fun s q => s.enterErr q 5) (s.portEvent 0x02 p 0)).sameCycle s.wk.latched.length

/-- PFC_STORM (Table 15-6): pause received for 100 ms. -/
def execPfcStorm (port : Nat) (s : State) : Res :=
  .next (if s.working && s.etherPort port && s.flag RDMA.PORT_CTRL.PFC_ON port then s.portEvent 0x04 port 0 else s)

/-- FEC_DEGRADED (Table 15-6): corrected symbols of the last 10^6 Strokes above FEC_LIMIT. -/
def execFecDegraded (port count : Nat) (s : State) : Res :=
  .next (if s.working && s.etherPort port && decide (s.get RDMA.FEC_LIMIT.COUNT < count) then s.portEvent 0x03 port count else s)

/-- RDMA.EVENT_CTRL (Table 15-9): VECTOR within the function's MSI-X table; a ring that is enabled counts from 0. -/
def hEventCtrl : Handler :=
  { Handler.plain with
    chk := fun _ tid old v => fieldGet v 1 11 != fieldGet old 1 11 && decide ((if tid = 0 then 2048 else 16) ≤ fieldGet v 1 11)
    act := fun s tid v =>
      if fieldGet v 0 1 = 0 then { s with err := { s.err with evSeq := kvDel s.err.evSeq tid } } else s }

end Sys2Proof.Machine
end

