-- ==== Sys2Proof/Machine/Pool.lean ====
section
/-! DEFINITION. Chapter 16: the pool's regions, host table and access lists, the Hub directory with its recalls, bandwidth and DevLoad,
the swap cache, POOL_XFER, poison (R375 to R399, R407, R408). -/

namespace Sys2Proof.Machine

def dtREGION_STATE : Nat := 0x0A01
def dtPOOL_RANGE : Nat := 0x0A02
def dtSEQUENCE_KIND : Nat := 0x0A03
def dtLENGTH : Nat := 0x0A04
def dtBAD_PAGE : Nat := 0x0A05
def dtREGION_LOST : Nat := 0x0A06

/-! ### Regions and pool memory (R376, R378) -/

def gib : Nat := 2 ^ 30

def State.poolBytes (s : State) (r : Nat) : Nat := s.get POOL.REGION_SIZE.GIB r * gib

def State.poolPart (s : State) (r : Nat) : Nat := s.get POOL.REGION_DEF.PARTITION r

/-- The region whose window holds a DPA. -/
def State.poolRegion (s : State) (dpa : Nat) : Option Nat :=
  (List.range 256).find? fun r => s.poolState r != 0 && decide (s.poolBase r ≤ dpa) && decide (dpa < s.poolBase r + s.poolBytes r)

/-- What pool memory that nothing has written reads as (R378). -/
def poolDefault (_ : Nat) : Byte := 0#8

def State.poolRead (s : State) (a n : Nat) : List Byte := (List.range n).map fun i => spGet poolDefault s.pool.mem (a + i)

def State.poolWrite (s : State) (a : Nat) : List Byte → State
  | [] => s
  | b :: t => (s.setPool fun x => { x with mem := spPut poolDefault x.mem a b }).poolWrite (a + 1) t

/-- A window's bytes back to zero. -/
def State.poolClear (s : State) (a n : Nat) : State :=
  s.setPool fun x => { x with mem := x.mem.filter fun c => decide (c.1 < a) || decide (a + n ≤ c.1) }

/-! ### Hosts (R381, R382) -/

/-- POOL.HOST_STATUS.STATE: 0 FREE, 1 ACTIVE, 2 DRAINING, 3 FAILED. -/
def State.hostState (s : State) (slot : Nat) : Nat := s.get POOL.HOST_STATUS.STATE slot

def State.hostHid (s : State) (slot : Nat) : Nat := s.lget POOL.HOST_CTRL.HID slot

/-- The HID of a request: the source port's, or POOL.DIRECT_HID for a host attached directly, which has none (Table 16-1; 4,096 stands for a
request without a source port ID). -/
def State.hidOf (s : State) (hid : Nat) : Nat := if hid < 4096 then hid else s.get POOL.DIRECT_HID.HID

/-- The slot in use with a HID: the one in service, if there is one (R382). -/
def State.hostSlot (s : State) (hid : Nat) : Option Nat :=
  let mine := (List.range 64).filter fun n => s.hostState n != 0 && s.hostHid n == s.hidOf hid
  (mine.find? fun n => s.hostState n == 1).or mine.head?

/-- Entry `i` of a region's access list in force: slot and access. -/
def State.accessEntry (s : State) (r i : Nat) : Nat × Nat :=
  let w := s.liveReg (POOL.REGION_ACCESS.off + 4 * i) r
  (fieldGet w 0 6, fieldGet w 8 2)

/-- The access the list in force gives a slot. -/
def State.listed (s : State) (r slot : Nat) : Nat :=
  ((List.range 16).find? fun i => (s.accessEntry r i).1 == slot && (s.accessEntry r i).2 != 0).elim 0 fun i => (s.accessEntry r i).2

/-- The access a slot has: the list's, or the one a release under way still serves; none once a release ended (R380). -/
def State.accessOf (s : State) (r slot : Nat) : Nat :=
  if s.pool.gone.contains (slot, r) then 0
  else if s.listed r slot ≠ 0 then s.listed r slot
  else ((s.pool.releasing.find? fun x => x.1 = slot ∧ x.2.1 = r).map (·.2.2.2)).getD 0

/-! ### Balances and DevLoad (R384, R385) -/

def kvGet (l : List (Nat × Nat)) (k : Nat) : Nat := (kvFind l k).getD 0

/-- A line's draw of its partition: a pool and a DRAM unit with the first of each 64 (Table 2-1, Table 17-1; log 87). A resource whose budget
is 0 is not drawn: only a host's data, which no budget may stop, is served then. -/
def State.lineUnit (s : State) (p : Nat) : Res6 :=
  { Res6.zero with pool := min 1 (s.budget p).pool, dram := min 1 (s.budget p).dram }

/-- The budgets that a line draws are not 0 (R384; log 87). -/
def State.lineBudget (s : State) (p : Nat) : Bool := (s.budget p).pool != 0 && (s.budget p).dram != 0

/-- Both balances are above zero for a line, and the Spoke balance for its mirror traffic where it has any. -/
def State.lineRoom (s : State) (r slot : Nat) (mirrored : Bool) : Bool :=
  let p := s.poolPart r
  let rate := s.lget POOL.HOST_RATE.UNITS slot
  (rate == 0 || decide (kvGet s.pool.served slot < 64 * rate)) &&
    (kvGet s.pool.lines p % 64 != 0 || (s.lineUnit p).le (s.available p)) &&
    (!mirrored || kvGet s.pool.mirrored p % 64 != 0 || decide (1 ≤ (s.available p).spoke))

/-- A line counted against the balances: its partition's unit per 64 lines, and a unit of the Spoke budget per 64 mirrored ones. -/
def State.drawLine (s : State) (r slot : Nat) (mirrored : Bool) : State :=
  let p := s.poolPart r
  let n := kvGet s.pool.lines p
  let m := kvGet s.pool.mirrored p
  let s1 := if n % 64 = 0 then s.draw p (s.lineUnit p) else s
  let s2 := if mirrored ∧ m % 64 = 0 then s1.draw p { Res6.zero with spoke := 1 } else s1
  s2.setPool fun x => { x with
    served := kvSet x.served slot (kvGet x.served slot + 1), lines := kvSet x.lines p (n + 1),
    mirrored := if mirrored then kvSet x.mirrored p (m + 1) else x.mirrored }

/-- DevLoad of a response (Table 16-3). Of a host without a slot, and of an address in no region, there is nothing that could have waited or
drawn (DESIGN CHOICE, log 127). -/
def State.devLoad (s : State) (slot part : Option Nat) (severe : Bool) : Nat :=
  if severe then 3
  else if slot.any s.pool.hostWait.contains || part.any s.pool.partWait.contains then 2
  else if (slot.all fun h => s.lget POOL.HOST_RATE.UNITS h == 0 ||
        decide (2 * kvGet s.pool.hostDrew h < 64 * s.lget POOL.HOST_RATE.UNITS h)) &&
      part.all fun p => decide (2 * kvGet s.pool.partDrew p < (s.budget p).pool) then 0 else 1

/-- The partition of the region that holds an address. -/
def State.poolPartAt (s : State) (dpa : Nat) : Option Nat := (s.poolRegion dpa).map s.poolPart

/-- The request waited DEVLOAD_SEVERE Strokes, or needed a page-in or a capacity recall. -/
def State.severe (s : State) (q : PReq) : Bool := q.severe || decide (q.at_ + s.get POOL.DEVLOAD_SEVERE.STROKES ≤ s.stroke)

/-- A response to a request of a slot: data, poison, the state granted (0 none, 1 S, 2 E); a poisoned one is counted (R398). -/
def State.answerHost (s : State) (q : PReq) (part : Nat) (data : List Byte) (poison : Bool) (grant : Nat) : State :=
  let s1 := s.emit (.cxlResp (s.hostHid q.slot) q.tag data poison (s.devLoad (some q.slot) (some part) (s.severe q)) grant)
  if poison then s1.sat POOL.POISONED_RESPONSES.COUNT else s1

/-- A response without data to a request that is not served: poison for a read (R375, R382, R400). -/
def State.refuseHost (s : State) (hid tag dpa : Nat) (slot : Option Nat) (poison severe : Bool) : State :=
  let s1 := s.emit (.cxlResp hid tag [] poison (s.devLoad slot (s.poolPartAt dpa) severe) 0)
  if poison then s1.sat POOL.POISONED_RESPONSES.COUNT else s1

/-- A foreign request (R382): poison for a read, nothing for a write; counted, and a fault of class HOST with the DPA and the HID. -/
def State.foreign (s : State) (hid tag kind dpa : Nat) (slot : Option Nat) (severe : Bool) : State :=
  ((s.sat POOL.FOREIGN_REQUESTS.COUNT).fault clsHOST (slot.getD 0) (dpa + hid * 2 ^ 52)).refuseHost hid tag dpa slot (decide (kind < 3)) severe

/-! ### The Hub directory (R388 to R390) -/

def State.dirEnt (s : State) (line : Nat) : Option DirEnt := s.pool.dir.find? (·.line = line)

/-- An entry written; one without holders is I and leaves the directory. -/
def State.setDir (s : State) (line st : Nat) (holders : List Nat) : State :=
  s.setPool fun x =>
    let rest := x.dir.filter (·.line ≠ line)
    { x with dir := if holders = [] then rest else rest ++ [⟨line, st, holders, x.clock⟩], clock := x.clock + 1 }

/-- Back-invalidation snoops of a line are outstanding: its entry is in RECALL. -/
def State.recalling (s : State) (line : Nat) : Bool := s.pool.snoops.any (·.line = line)

/-- A response granted for the line is still to be sent: its MIRROR_ACK is not latched yet. No recall of the line is sent before it, and no
other write of the line is accepted (R389, R401). -/
def State.mirWaits (s : State) (line : Nat) : Bool := s.pool.mirror.any (·.line == line) || s.pool.mirNow.any (·.2.2.line == line)

/-- A POOL_XFER's chunk that writes the line runs: until it ends nobody gets a copy (R394). -/
def State.xferHolds (s : State) (dpa : Nat) : Bool :=
  s.wk.works.any fun w => w.run.any fun r => match r.res with
    | .pool g off _ => decide (s.poolBase g + off ≤ dpa) && decide (dpa < s.poolBase g + off + 65536)
    | _ => false

/-- A back-invalidation snoop sent to a holder, unless one is outstanding to it for the line. -/
def State.snoop (s : State) (line slot kind who : Nat) : State :=
  if s.pool.snoops.any fun x => x.line = line ∧ x.slot = slot then s
  else ((s.setPool fun x => { x with snoops := x.snoops ++ [⟨slot, line, kind, s.stroke, who⟩] }).emit
    (.snoop slot (line * 64) kind)).add64 POOL.RECALLS_LO.off

/-- BISnpInv to a list of holders of a line. -/
def State.snoopInv (s : State) (line : Nat) (hs : List Nat) (who : Nat := 0) : State := hs.foldl (fun s h => s.snoop line h 2 who) s

/-- The set of a line. -/
def dirSetOf (line : Nat) : Nat := Config.dirSet line % 2 ^ 20

/-- Room for an entry of a line: it has one, or its set is not full. -/
def State.dirRoom (s : State) (line : Nat) : Bool :=
  (s.dirEnt line).isSome || decide ((s.pool.dir.filter fun e => dirSetOf e.line = dirSetOf line).length < 16)

/-- The least recently used entry of a full set that is not in RECALL is recalled (R388); answers its line. -/
def State.recallOldest (s : State) (line : Nat) : State × Option Nat :=
  let es := s.pool.dir.filter fun e => dirSetOf e.line = dirSetOf line ∧ ¬ s.recalling e.line ∧ ¬ s.mirWaits e.line
  match es.foldl (fun (a : Option DirEnt) e => match a with
    | none => some e
    | some b => if e.used < b.used then some e else some b) none with
  | none => (s, none)
  | some e => (s.snoopInv e.line e.holders, some e.line)

/-- Room made for a request's entry: one recall for it at a time (R388). -/
def State.makeRoom (s : State) (q : PReq) : State × Option Nat :=
  if q.victim.any s.recalling then (s, q.victim) else s.recallOldest (lineOf q.dpa)

/-! ### The swap cache (R386, R387) -/

def State.swapAt (s : State) (key : Nat) : Option SwapPage := s.pool.swap.find? fun x => poolKey x.region x.page = key

def State.updSwap (s : State) (key : Nat) (f : SwapPage → SwapPage) : State :=
  s.setPool fun x => { x with swap := x.swap.map fun y => if poolKey y.region y.page = key then f y else y }

/-- Pool page key of a DPA of a region. -/
def State.pageKey (s : State) (r dpa : Nat) : Nat := poolKey r ((dpa - s.poolBase r) / 65536)

/-- Frames of the swap cache. -/
def State.swapFrames (s : State) : Nat := s.get POOL.SWAP_CACHE.GIB * 16384

/-- A request, a recall or a POOL_XFER chunk uses a cached page. -/
def State.swapBusy (s : State) (y : SwapPage) : Bool :=
  let lo := s.poolBase y.region + y.page * 65536
  let inPage (a : Nat) : Bool := decide (lo ≤ a) && decide (a < lo + 65536)
  s.pool.waiting.any (fun q => inPage q.dpa) || s.pool.snoops.any (fun x => inPage (x.line * 64)) ||
    s.wk.works.any fun w => w.d.opcode == opXFER && w.d.b 33 1 == y.region &&
      w.run.any fun r => w.d.b 48 8 + 65536 * r.idx == y.page * 65536

/-- The write of a modified pool page to new sectors begins (R387). -/
def State.swapOut (s : State) (y : SwapPage) : State :=
  if s.poolFlashFull then s
  else
    let idx := 1024 + y.region
    let key := poolKey y.region y.page
    let (s1, a) := s.firstWrite.placeSectors idx 16
    (s1.updSwap key fun y => { y with writing := some a }).setTier fun t => { t with placed := t.placed ++ [⟨key, idx, a, 16, nandsOf a 16, false⟩] }

/-- Room in the swap cache: a free frame, else the least recently used page that nothing uses leaves, once it is clean (R387). Answers
whether a frame is free now. -/
def State.swapRoom (s : State) : State × Bool :=
  if s.pool.swap.length + s.pool.swapIn.length < s.swapFrames then (s, true)
  else
    let cs := s.pool.swap.filter fun y => !s.swapBusy y && (!y.dirty || (s.budget (s.poolPart y.region)).flash != 0)
    match cs.foldl (fun (a : Option SwapPage) y => match a with
      | none => some y
      | some b => if y.used < b.used then some y else some b) none with
    | none => (s, false)
    | some y =>
      if !y.dirty then
        ((s.poolClear (s.poolBase y.region + y.page * 65536) 65536).setPool fun x =>
          { x with swap := x.swap.filter fun z => ¬ (z.region = y.region ∧ z.page = y.page) }, true)
      else (if y.writing.isSome then s else s.swapOut y, false)

/-- A pool page entered in the swap cache, usable from a Stroke. -/
def State.enterSwap (s : State) (r page usable : Nat) (dirty : Bool) : State :=
  s.setPool fun x => { x with swap := x.swap ++ [⟨r, page, dirty, x.clock, none, usable⟩], clock := x.clock + 1 }

/-- What a pool page is for a use now: usable; being paged in or waiting for a frame (with the state that began it); `whole` is a use
that overwrites the page. -/
def State.wantPage (s : State) (r dpa : Nat) (whole : Bool) : State × Bool :=
  if !s.poolFlash r then (s, true)
  else
    let key := s.pageKey r dpa
    let page := (dpa - s.poolBase r) / 65536
    match s.swapAt key with
    | some y => (s.updSwap key fun y => { y with used := s.pool.clock }, whole || decide (y.usable ≤ s.stroke))
    | none =>
      if s.pool.swapIn.any (·.key = key) then (s, false)
      else
        let (s1, ok) := s.swapRoom
        if !ok then (s1, false)
        else if whole || (kvFind s.pool.flashAt key).isNone then (s1.enterSwap r page 0 false, true)
        else (s1.setPool fun x => { x with swapIn := x.swapIn ++ [⟨key, s.stroke, 0, 0, 0⟩] }, false)

/-- Pool memory of a region written: a swap page is modified, and a write to flash under way no longer counts (R387). -/
def State.poolStore (s : State) (r dpa : Nat) (bs : List Byte) : State :=
  let s1 := s.poolWrite dpa bs
  if !s.poolFlash r then s1
  else
    let key := s.pageKey r dpa
    (s1.updSwap key fun y => { y with dirty := true, writing := none }).setTier fun t => 
      { t with placed := t.placed.map fun p => if p.pid = key then { p with stale := true } else p }

/-! ### Mirrored data leaves (R401, Table 16-9) -/

/-- The 64 header bytes of a MIRROR_WRITE. -/
def mirHeader (kind region count tid page gen sectors seg segs leaf : Nat) : List Byte :=
  leBytes 1 kind ++ leBytes 1 region ++ leBytes 2 count ++ leBytes 2 tid ++ zeros 2 ++ leBytes 8 page ++ leBytes 4 gen ++
    leBytes 1 sectors ++ leBytes 1 seg ++ leBytes 1 segs ++ leBytes 1 leaf ++ zeros 40

/-- The partner's member number. -/
def State.partner (s : State) : Nat := s.get SPOKE.TANDEM_PARTNER.MEMBER

/-- A MIRROR_WRITE sent to the partner. -/
def State.sendMirror (s : State) (payload : List Byte) : State × Nat :=
  s.openTxn s.chain.nextXid ftMIRROR_WRITE s.partner 0 [payload]

/-- Four MIRROR_WRITEs with the segments of a 64 KiB pool page. -/
def State.sendPoolPage (s : State) (r page : Nat) (bs : List Byte) : State × List Nat :=
  (List.range 4).foldl (fun (acc : State × List Nat) i =>
    let (s1, x) := acc.1.sendMirror (mirHeader 2 r 1 0 page 0 0 i 4 0 ++ (bs.drop (16384 * i)).take 16384)
    (s1, acc.2 ++ [x])) (s, [])

/-! ### Requests (R382, R389) -/

/-- How a try to serve a request ended. -/
inductive Try where
  /-- Answered without a line served, or data taken. -/
  | served (s : State)
  /-- Its line was served: it counts in the rotation (R390). -/
  | given (s : State)
  /-- It waits for a balance. -/
  | balance (s : State)
  /-- It waits in its line's queue, for a recall or a swap page; `hard` makes its response a severe overload; `victim` is the line that is
  recalled to make room for its entry. -/
  | line (s : State) (hard : Bool) (victim : Option Nat)

/-- A write's MetaValue asks for a directory entry. -/
def PReq.enters (q : PReq) : Bool := q.metaV == 2 || q.metaV == 3

/-- The state of a line after a write, by its MetaValue (PRESUMED, log 70: 0 invalid, 2 any, 3 shared). -/
def State.metaState (s : State) (q : PReq) : State :=
  let x := lineOf q.dpa
  if q.metaV = 2 then s.setDir x 2 [q.slot] else if q.metaV = 3 then s.setDir x 1 [q.slot] else s.setDir x 1 []

/-- A line's poison set (R398). -/
def State.setPoison (s : State) (line : Nat) : State :=
  s.setPool fun x => { x with poison := if x.poison.contains line then x.poison else x.poison ++ [line] }

/-- A read answered: data, poison where the line is poisoned, as an uncorrectable DRAM error makes it (R398). -/
def State.giveData (s : State) (r : Nat) (q : PReq) (grant : Nat) : State :=
  let s0 := s.drawLine r q.slot false
  let s1 := if q.bad then s0.setPoison (lineOf q.dpa) else s0
  s1.answerHost q (s.poolPart r) (s.poolRead (lineOf q.dpa * 64) 64) (s.pool.poison.contains (lineOf q.dpa)) grant

/-- The line's bytes after a write under its byte mask. -/
def maskedLine (old data : List Byte) (mask : Nat) : List Byte :=
  (List.range 64).map fun i => if bits mask i 1 = 1 then data.getD i 0#8 else old.getD i 0#8

/-- A write applied (R398): a whole line clears the poison; poisoned data poison the line. -/
def State.applyWrite (s : State) (r : Nat) (q : PReq) : State :=
  let a := lineOf q.dpa * 64
  let s1 := s.poolStore r a (maskedLine (s.poolRead a 64) q.data q.mask)
  if q.bad then s1.setPoison (lineOf q.dpa)
  else if q.mask % 2 ^ 64 = 2 ^ 64 - 1 then s1.setPool fun x => { x with poison := x.poison.filter (· ≠ lineOf q.dpa) } else s1

/-- A line of a mirrored region goes to the partner, with the completion that waits for it, if any (R401). -/
def State.mirrorLine (s : State) (r : Nat) (q : PReq) (answers : Bool) : State :=
  let x := lineOf q.dpa
  s.setPool fun y =>
    { y with mirNow := y.mirNow ++ [(r, s.poolRead (x * 64) 64, ⟨0, x, q.slot, q.tag, s.poolPart r, q.at_, q.severe, answers⟩)] }

/-- One MIRROR_WRITE with up to 128 of the lines of a region. -/
def State.sendLines (s : State) (r : Nat) (ls : List (Nat × List Byte × MirWait)) : State :=
  let body := ls.flatMap fun l => leBytes 8 (l.2.2.line * 64 - s.poolBase r) ++ zeros 56 ++ l.2.1
  let (t, x) := s.sendMirror (mirHeader 1 r ls.length 0 0 0 0 0 0 0 ++ body)
  t.setPool fun y => { y with mirror := y.mirror ++ ls.map fun l => { l.2.2 with xid := x } }

/-- Lines accepted in one command lie within 1 µs of one another: each region's are sent together, 128 to a MIRROR_WRITE (R401,
Table 16-9; DESIGN CHOICE, log 144). -/
def State.flushLines (s : State) : State :=
  let all := s.pool.mirNow
  (all.map (·.1)).eraseDups.foldl (fun s r =>
    let mine := all.filter (·.1 = r)
    (List.range (cdiv mine.length 128)).foldl (fun s i => s.sendLines r ((mine.drop (128 * i)).take 128)) s)
    (s.setPool fun y => { y with mirNow := [] })

/-- A host write served: applied, completed, or sent to the partner with the completion held back (R401). -/
def State.giveWrite (s : State) (r : Nat) (q : PReq) : State :=
  let m := s.mirrors r
  let s1 := (s.drawLine r q.slot m).applyWrite r q
  if m then s1.mirrorLine r q true else s1.answerHost q (s.poolPart r) [] false 0

/-- Holders of a line that its region's list does not name: with 16 others they make a new sharer one too many (R381, Table 16-4; log 127). -/
def State.unlisted (s : State) (r : Nat) (hs : List Nat) : List Nat := hs.filter fun h => s.listed r h = 0

/-- A request to a line that no recall holds, with both balances and its memory at hand (Table 16-5). -/
def State.directory (s : State) (r : Nat) (q : PReq) (kind : Nat) : Try :=
  let x := lineOf q.dpa
  let h := q.slot
  let room : Try :=
    let (t, v) := s.makeRoom q
    .line t true v
  match s.dirEnt x with
  | none =>
    if kind = 0 then .given (s.giveData r q 0)
    else if kind = 3 then
      (if q.cur ∧ q.enters ∧ !s.dirRoom x then room
      else .given (if q.cur then (s.giveWrite r q).metaState q else s.giveWrite r q))
    else if !s.dirRoom x then room
    else if kind = 1 then .given ((s.setDir x 1 [h]).giveData r q 1)
    else .given ((s.setDir x 2 [h]).giveData r q 2)
  | some e =>
    let others := e.holders.filter (· ≠ h)
    if kind = 0 then
      (if e.st = 2 ∧ others ≠ [] ∧ !q.cur then .line (others.foldl (fun s g => s.snoop x g 0 0) s) false none
      else .given ((s.setDir x e.st e.holders).giveData r q 0))
    else if kind = 1 then
      (if e.st = 2 ∧ others ≠ [] then .line (others.foldl (fun s g => s.snoop x g 1 0) s) false none
      else if 16 ≤ others.length then .line (s.snoopInv x (s.unlisted r others)) false none
      else .given ((s.setDir x 1 (if e.st = 2 then [h] else others ++ [h])).giveData r q 1))
    else if others ≠ [] then .line (s.snoopInv x others) false none
    else if kind = 2 then .given ((s.setDir x 2 [h]).giveData r q 2)
    else .given ((s.giveWrite r q).metaState q)

/-- Data for memory that a host held, or that the partner mirrors: it is no request of Table 16-5. -/
def isData (q : PReq) : Bool := decide (4 ≤ q.kind)

/-- A host's data, or the partner's, tried: a line served like any other, which a budget of 0 does not stop (log 87); in a mirrored region it
goes to the partner too (R390, R401). A writeback (kind 4) is answered, poisoned in FAULT (R400). -/
def State.tryData (s : State) (r : Nat) (q : PReq) : Try :=
  let p := s.poolPart r
  let answer (s : State) : State := if q.kind = 4 then s.answerHost q p [] (s.phase == phFAULT) 0 else s
  let mine := q.slot != 64
  let m := mine && s.mirrors r
  if s.poolState r = 3 ∨ s.poolState r = 4 then .served (answer s)
  else if mine && (s.mirWaits (lineOf q.dpa) || s.xferHolds q.dpa) then .line s false none
  else if mine && !s.lineRoom r q.slot (m && (s.budget p).spoke != 0) then .balance s
  else
    let (s1, ok) := s.wantPage r q.dpa false
    if !ok then .line s1 true none
    else
      let s2 := s1.applyWrite r q
      let s3 := if mine then s2.drawLine r q.slot (m && (s.budget p).spoke != 0) else s2
      .served (if m then s3.mirrorLine r q (q.kind == 4) else answer s3)

/-- One request tried: FAULT, foreign, LOST, budget 0, recall, balance, swap page, directory, in that order (R382, R384, R386, R388,
R399, R400). -/
def State.tryReq (s : State) (q : PReq) : Try :=
  let hid := s.hostHid q.slot
  match s.poolRegion q.dpa with
  | none => .served (if isData q then s else s.foreign hid q.tag q.kind q.dpa (some q.slot) (s.severe q))
  | some r =>
    let p := s.poolPart r
    if isData q then s.tryData r q
    else if s.phase = phFAULT then .served (s.answerHost q p [] true 0)
    else if s.phase ≠ phRELEASED ∨ s.hostState q.slot ≠ 1 ∨ s.accessOf r q.slot = 0 ∨ (q.kind = 3 ∧ s.accessOf r q.slot ≠ 2) ∨
        (s.poolState r ≠ 1 ∧ s.poolState r ≠ 3) then .served (s.foreign hid q.tag q.kind q.dpa (some q.slot) (s.severe q))
    else if s.poolState r = 3 then .served (s.answerHost q p [] (decide (q.kind < 3)) 0)
    else if !s.lineBudget p then .served (s.answerHost q p [] true 0)
    else if s.recalling (lineOf q.dpa) || s.mirWaits (lineOf q.dpa) || s.xferHolds q.dpa then .line s false none
    else if !s.lineRoom r q.slot (q.kind == 3 && s.mirrors r) then .balance s
    else
      let (s1, ok) := s.wantPage r q.dpa false
      if !ok then .line s1 true none
      else s1.directory r q (if q.kind = 2 ∧ s.accessOf r q.slot = 1 then 1 else q.kind)

def State.dropReq (s : State) (q : PReq) : State := s.setPool fun x => { x with waiting := x.waiting.erase q }

def State.swapReq (s : State) (q q1 : PReq) : State :=
  s.setPool fun x => { x with waiting := x.waiting.map fun y => if y = q then q1 else y }

/-- The waiting in the order in which one cycle takes them: data, then requests in rotating order from DIR_ROT, each host's own in arrival
order (R384, R390). -/
def State.turnOrder (s : State) : List PReq :=
  let rot := s.get POOL.DIR_ROT.SLOT
  s.pool.waiting.filter isData ++
    (List.range 65).flatMap fun k => s.pool.waiting.filter fun q => !isData q && q.slot == (rot + k) % 65

/-- The request at the head of a line's queue, if it has one: it goes before every other to the line (R390). -/
def State.lineHead (s : State) (x : Nat) : Option PReq := s.pool.waiting.find? fun q => q.lined && !isData q && lineOf q.dpa == x

/-- What a pass over the waiting carries: the state, hosts and lines that wait, whether the rotation moved. -/
structure Pass where
  s     : State
  hosts : List Nat
  lines : List Nat
  moved : Bool

/-- One waiting request's turn: behind one that waits for a balance its host's others wait, behind one that waits for its line every other to
the line; the first request served moves DIR_ROT (R384, R390). -/
def Pass.take (a : Pass) (q : PReq) : Pass :=
  let x := lineOf q.dpa
  if a.lines.contains x then a
  else if !isData q ∧ a.hosts.contains q.slot then { a with lines := x :: a.lines }
  else if !isData q ∧ (a.s.lineHead x).any (· ≠ q) then a
  else
    match a.s.tryReq q with
    | .served s1 => { a with s := s1.dropReq q }
    | .given s1 =>
      let s2 := s1.dropReq q
      { a with s := if a.moved then s2 else s2.put POOL.DIR_ROT.SLOT ((q.slot + 1) % 65), moved := true }
    | .balance s1 => { a with s := s1, hosts := q.slot :: a.hosts, lines := x :: a.lines }
    | .line s1 hard v =>
      { a with s := s1.swapReq q { q with severe := q.severe || hard, victim := v, lined := true }, lines := x :: a.lines }

/-- Passes over the waiting until one serves nobody. -/
def State.servePasses (s : State) (moved : Bool) : Nat → State
  | 0 => s
  | n + 1 =>
    let a := s.turnOrder.foldl Pass.take ⟨s, [], [], moved⟩
    if a.s.pool.waiting.length < s.pool.waiting.length then a.s.servePasses a.moved n else a.s

/-- Waiting requests served as far as they can be (R384, R390), and their mirror traffic sent (R401). -/
def State.serveWaiting (s : State) : State := (s.servePasses false s.pool.waiting.length).flushLines

/-- A host's request is latched (R382): in FAULT it is poisoned (R400), with a feature of no row of Table 16-1 it is not served (R375), and with
a HID without a slot in use it is foreign. -/
def State.hostReq (s : State) (src : CxlSource) (tag kind dpa : Nat) (data : List Byte) (mask metaV : Nat) : State :=
  let hid := s.hidOf src.hid
  if !s.up || !s.pw.cxlLink then s
  else if s.phase = phFAULT then s.refuseHost hid tag dpa (s.hostSlot hid) true false
  else if src.how = .unsupported then
    (s.sat POOL.FOREIGN_REQUESTS.COUNT).refuseHost hid tag dpa (s.hostSlot hid) (decide (kind < 3)) false
  else
    match s.hostSlot hid with
    | none => s.foreign hid tag kind dpa none false
    | some slot =>
      (s.setPool fun x => { x with waiting := x.waiting ++
        [⟨kind, slot, tag, dpa, data, mask, metaV, s.stroke, false, false, decide (src.how = .bad), none, false⟩] }).serveWaiting

/-- CXL_READ_NOCACHE (R389, R382). -/
def execCxlReadNocache (src : CxlSource) (tag dpa : Nat) (s : State) : Res := .next (s.hostReq src tag 0 dpa [] 0 0)

/-- CXL_SHARED_READ (R389, R382). -/
def execCxlSharedRead (src : CxlSource) (tag dpa : Nat) (s : State) : Res := .next (s.hostReq src tag 1 dpa [] 0 0)

/-- CXL_OWNERSHIP_READ (R389, R382). -/
def execCxlOwnershipRead (src : CxlSource) (tag dpa : Nat) (s : State) : Res := .next (s.hostReq src tag 2 dpa [] 0 0)

/-- CXL_WRITE (R389, R382, R401): `mask` has a bit per byte, `mval` is the MetaValue. -/
def execCxlWrite (src : CxlSource) (tag dpa : Nat) (data : List Byte) (mask mval : Nat) (s : State) : Res :=
  .next (s.hostReq src tag 3 dpa data mask mval)

/-- POOL_REQUEST_SERVE (R384). -/
def execPoolRequestServe (s : State) : Res := .next (if s.up then s.serveWaiting else s)

/-! ### Writebacks, snoop responses, failed hosts (R390, R391) -/

/-- Whole-line data for memory, ahead of every request and behind the data that wait: a writeback (kind 4) or data without a completion
(kind 5). -/
def State.takeData (s : State) (kind slot dpa : Nat) (data : List Byte) (bad : Bool) : State :=
  let q : PReq := ⟨kind, slot, 0, lineOf dpa * 64, padTo 64 data, 2 ^ 64 - 1, 0, s.stroke, false, false, bad, none, false⟩
  let keep (s : State) : State :=
    s.setPool fun x => { x with waiting := x.waiting.filter isData ++ [q] ++ x.waiting.filter fun y => !isData y }
  if s.pool.waiting.any fun y => isData y ∧ lineOf y.dpa = lineOf dpa then keep s
  else
    match s.tryReq q with
    | .served s1 => s1
    | .given s1 => s1
    | .balance s1 => keep s1
    | .line s1 _ _ => keep s1

/-- A slot that the host with a HID holds a line's snoop in. -/
def State.snoopOf (s : State) (hid line : Nat) : Option Snoop :=
  s.pool.snoops.find? fun y => y.line = line ∧ s.hostState y.slot ≠ 0 ∧ s.hostHid y.slot = s.hidOf hid

/-- The owner of a line may write it: its region serves it, read-write (R382). -/
def State.ownerWrites (s : State) (slot dpa : Nat) : Bool :=
  s.phase == phRELEASED && s.hostState slot == 1 && (s.poolRegion dpa).any (fun r => s.poolState r == 1 && s.accessOf r slot == 2) &&
    (s.dirEnt (lineOf dpa)).any fun e => e.st == 2 && e.holders == [slot]

/-- WRITEBACK (R390, R382): while a recall to the host is outstanding it is the recall's data; an owner's data goes to memory and the line is
I; any other is a write under Table 16-5. -/
def execWriteback (hid dpa : Nat) (data : LineData) (s : State) : Res :=
  let write := s.hostReq ⟨hid, if data.bad then .bad else .plain⟩ 0 3 dpa data.bytes (2 ^ 64 - 1) 0
  if !s.up || !s.pw.cxlLink then .next s
  else
    match s.snoopOf hid (lineOf dpa), s.hostSlot hid with
    | some y, _ => if s.phase = phRELEASED then .next (s.takeData 4 y.slot dpa data.bytes data.bad).flushLines else .next write
    | none, some slot =>
      if s.ownerWrites slot dpa then .next (((s.takeData 4 slot dpa data.bytes data.bad).setDir (lineOf dpa) 1 []).serveWaiting) else .next write
    | none, none => .next write

/-- A draining slot (R392): each line it still holds is recalled with BISnpInv, once what was outstanding for the line is answered; after the
last recall it is FREE. -/
def State.drainEnd (s : State) (slot : Nat) : State :=
  if s.hostState slot ≠ 2 then s
  else
    let held := (s.pool.dir.filter fun e => e.holders.contains slot).map (·.line)
    let s1 := (held.filter fun l => ¬ s.mirWaits l).foldl (fun s l => s.snoop l slot 2 0) s
    if held = [] ∧ ¬ s.pool.snoops.any (·.slot = slot) then s1.put POOL.HOST_STATUS.STATE 0 slot else s1

/-- The first waiting request of a line, other than data, has its recall made. -/
def markCur (line : Nat) : List PReq → List PReq
  | [] => []
  | q :: t => if lineOf q.dpa = line ∧ !isData q then { q with cur := true } :: t else q :: markCur line t

/-- The holders a line keeps when a host has answered a snoop. -/
def State.afterSnoop (s : State) (y : Snoop) (keeps : Bool) : State :=
  match s.dirEnt y.line with
  | none => s
  | some e =>
    if y.kind = 0 ∧ keeps then s
    else if y.kind = 1 ∧ keeps then s.setDir y.line 1 e.holders
    else s.setDir y.line e.st (e.holders.filter (· ≠ y.slot))

/-- SNOOP_RESPONSE (R390): its data goes to memory, the holder is removed or keeps its copy, and what waited goes on. -/
def execSnoopResponse (hid dpa : Nat) (data : Option LineData) (keeps : Bool) (s : State) : Res :=
  match s.snoopOf hid (lineOf dpa) with
  | none => .next s
  | some y =>
    if !s.up then .next s
    else
      let s1 := match data with
        | none => s
        | some d => s.takeData 5 y.slot dpa d.bytes d.bad
      let s2 := (s1.afterSnoop y keeps).setPool fun x =>
        { x with
          snoops := x.snoops.filter fun z => ¬ (z.slot = y.slot ∧ z.line = y.line)
          waiting := if y.who = 0 then markCur y.line x.waiting else x.waiting
          curDone := if y.kind = 0 ∧ y.who ≠ 0 then x.curDone ++ [(y.who - 1, y.line)] else x.curDone }
      .next ((s2.drainEnd y.slot).serveWaiting)

/-- A host's slot fails (R391): its exclusive lines are poisoned, its shared holdings removed, its waiting requests poisoned. -/
def State.failHost (s : State) (slot : Nat) : State :=
  let own := (s.pool.dir.filter fun e => e.st = 2 ∧ e.holders.contains slot).map (·.line)
  let s1 := ((s.put POOL.HOST_STATUS.STATE 3 slot).sat POOL.BI_TIMEOUTS.COUNT).fault clsHOST slot (s.hostHid slot * 2 ^ 52)
  let s2 := s1.event (some [0]) 0x45 (slot + s.hostHid slot * 2 ^ 8)
  let mine := s.pool.waiting.filter fun q => q.slot = slot ∧ !isData q
  let f (e : DirEnt) : DirEnt := { e with holders := e.holders.filter (· ≠ slot) }
  let s3 := s2.setPool fun x =>
    { x with
      poison := x.poison ++ own.filter fun l => ¬ x.poison.contains l
      dir := (x.dir.map f).filter (·.holders ≠ [])
      snoops := x.snoops.filter (·.slot ≠ slot)
      waiting := x.waiting.filter fun q => ¬ (q.slot = slot ∧ !isData q) }
  let s4 := mine.foldl (fun s q => s.answerHost q (((s.poolRegion q.dpa).map s.poolPart).getD 0) [] true 0) s3
  s4.serveWaiting

/-- A snoop's timeout is over (R391, R39). -/
def State.snoopDue (s : State) (y : Snoop) : Bool := decide (y.sent + s.get POOL.BI_TIMEOUT.STROKES < s.stroke)

/-- BI_TIMEOUT (R391). -/
def execBiTimeout (slot dpa : Nat) (s : State) : Res :=
  .next (if s.working && s.pool.snoops.any fun y => y.slot == slot && y.line == lineOf dpa && s.snoopDue y then s.failHost slot else s)

/-- Every host with a snoop whose timeout is over fails, at a boundary. -/
def State.dueSnoops (s : State) : State :=
  (List.range 64).foldl (fun s slot => if s.pool.snoops.any fun y => y.slot == slot && s.snoopDue y then s.failHost slot else s) s

/-- HOST_VIRAL (R391). -/
def execHostViral (hid : Nat) (s : State) : Res :=
  let mine := (List.range 64).filter fun n => (s.hostState n == 1 || s.hostState n == 2) && s.hostHid n == s.hidOf hid
  .next (if s.working then mine.foldl State.failHost s else s)

/-! ### The host table (R381, R392, R408) -/

/-- A write of POOL.HOST_CTRL: no two enabled slots hold one HID; in force from the next boundary. -/
def hPoolHost : Handler :=
  { Handler.plain with
    chk := fun s slot _ v => fieldGet v 31 1 == 1 && (List.range 64).any fun n =>
      n != slot && s.flag POOL.HOST_CTRL.ENABLE n && s.get POOL.HOST_CTRL.HID n == fieldGet v 0 12
    act := fun s slot _ => s.atBoundary (.hostCtrl slot (s.reg POOL.HOST_CTRL.off slot)) }

/-- HOST_CTRL (R392). -/
def execHostCtrl (val : Word) (s : State) : Res := .next (bar0 hPoolHost POOL.HOST_CTRL.off val s)

/-- A slot's control word comes into force (R381, R391, R392). -/
def State.hostCtrlTurn (s : State) (slot : Nat) (w : Word) : State :=
  let on := fieldGet w 31 1 = 1
  let s1 := s.setLive POOL.HOST_CTRL.off w slot
  let st := s.hostState slot
  if on then (if st = 0 then s1.put POOL.HOST_STATUS.STATE 1 slot else s1)
  else if st = 3 then s1.put POOL.HOST_STATUS.STATE 0 slot
  else if st = 1 then
    ((s.put POOL.HOST_STATUS.STATE 2 slot).setLive POOL.HOST_CTRL.off (fieldPut w 0 12 (s.hostHid slot)) slot).drainEnd slot
  else s1

/-- HOST_DRAIN_DONE (R392). -/
def execHostDrainDone (slot : Nat) (s : State) : Res := .next (if s.up then s.drainEnd slot else s)

/-- A register whose written value comes into force at the next boundary. -/
def hLater (off : Nat) : Handler :=
  { Handler.plain with act := fun s i _ => s.atBoundary (.live (regKey off i) (s.reg off i)) }

/-- Entry `i` of an access list (R381, R408): its slot is enabled and stands once in the list. -/
def hRegionAccess (i : Nat) : Handler :=
  { Handler.plain with
    chk := fun s r _ v => fieldGet v 8 2 == 3 || (fieldGet v 8 2 != 0 && (!s.flag POOL.HOST_CTRL.ENABLE (fieldGet v 0 6) ||
      (List.range 16).any fun j => j != i && fieldGet (s.reg (POOL.REGION_ACCESS.off + 4 * j) r) 8 2 != 0 &&
        fieldGet (s.reg (POOL.REGION_ACCESS.off + 4 * j) r) 0 6 == fieldGet v 0 6))
    act := fun s r _ => s.atBoundary (.live (regKey (POOL.REGION_ACCESS.off + 4 * i) r) (s.reg (POOL.REGION_ACCESS.off + 4 * i) r)) }

/-! ### Dynamic capacity (R380, R399) -/

/-- Capacity adds and releases at a boundary, from release onward. -/
def State.accessTurn (s : State) : State :=
  let pairs := (List.range 256).flatMap fun r => if s.poolState r = 0 then [] else
    (List.range 16).filterMap fun i => if (s.accessEntry r i).2 = 0 then none else some ((s.accessEntry r i).1, r, (s.accessEntry r i).2)
  let s1 := s.setPool fun x => { x with gone := x.gone.filter fun g => pairs.any fun y => (y.1, y.2.1) = g }
  let s2 := pairs.foldl (fun s y =>
    let has := s.pool.added.any fun a => a.1 = y.1 ∧ a.2.1 = y.2.1
    if s.poolState y.2.1 ≠ 1 ∨ s.phase ≠ phRELEASED then s
    else if has then s.setPool fun x => { x with added := x.added.map fun a => if a.1 = y.1 ∧ a.2.1 = y.2.1 then y else a }
    else (s.setPool fun x => { x with added := x.added ++ [y], gone := x.gone.filter (· ≠ (y.1, y.2.1)) }).emit (.dcEvent y.1 y.2.1 0)) s1
  s2.pool.added.foldl (fun s a =>
    let under := s.pool.releasing.any fun x => x.1 = a.1 ∧ x.2.1 = a.2.1
    if under ∨ (s.listed a.2.1 a.1 ≠ 0 ∧ s.poolState a.2.1 = 1) then s
    else (s.setPool fun x => { x with releasing := x.releasing ++ [(a.1, a.2.1, s.stroke, a.2.2)] }).emit (.dcEvent a.1 a.2.1 1)) s2

/-- A release ends: the host's further requests to the region are foreign (R380). -/
def State.endRelease (s : State) (slot r : Nat) : State :=
  if s.pool.releasing.any fun x => x.1 = slot ∧ x.2.1 = r then
    s.setPool fun x =>
      { x with
        releasing := x.releasing.filter fun y => ¬ (y.1 = slot ∧ y.2.1 = r)
        added := x.added.filter fun y => ¬ (y.1 = slot ∧ y.2.1 = r)
        gone := if s.listed r slot ≠ 0 then x.gone ++ [(slot, r)] else x.gone }
  else s

/-- DC_RELEASE_ACK (R380). -/
def execDcReleaseAck (hid region : Nat) (s : State) : Res :=
  match s.pool.releasing.find? fun x => x.2.1 = region ∧ s.hostState x.1 ≠ 0 ∧ s.hostHid x.1 = s.hidOf hid with
  | none => .next s
  | some x => .next (if s.up then s.endRelease x.1 region else s)

/-- The wait of a release is over. -/
def State.releaseDue (s : State) (slot r : Nat) : Bool :=
  s.pool.releasing.any fun x => x.1 == slot && x.2.1 == r && decide (x.2.2.1 + s.get POOL.RELEASE_WAIT.STROKES < s.stroke)

/-- RELEASE_WAIT_EXPIRY (R380, R39). -/
def execReleaseWaitExpiry (slot region : Nat) (s : State) : Res :=
  .next (if s.up && s.releaseDue slot region then s.endRelease slot region else s)

/-- Releases whose wait is over end, at a boundary. -/
def State.dueReleases (s : State) : State :=
  s.pool.releasing.foldl (fun s x => if s.releaseDue x.1 x.2.1 then s.endRelease x.1 x.2.1 else s) s

/-! ### Regions created, destroyed, taken over (R378, R379, R405, R408) -/

/-- The DRAM carve-out in force, in GiB: nothing before the log scan starts (R377). -/
def State.carveDram (s : State) : Nat := if s.flag TIER.LOG_SCAN_CTRL.START then s.get POOL.CARVE_DRAM.GIB else 0

/-- GiB the regions of a tier take. -/
def State.regionsGib (s : State) (flash : Bool) : Nat :=
  (((List.range 256).filter fun r => s.poolState r ≠ 0 ∧ s.poolFlash r = flash).map fun r => s.get POOL.REGION_SIZE.GIB r).foldl (· + ·) 0

/-- The carve-out of a region's tier has room for it: a DRAM carve-out less the directory's 256 MiB and the swap cache. -/
def State.poolRoom (s : State) (r : Nat) : Bool :=
  let n := s.get POOL.REGION_SIZE.GIB r
  if s.poolFlash r then decide (s.regionsGib true + n ≤ s.carveFlash)
  else decide ((s.regionsGib false + n + s.get POOL.SWAP_CACHE.GIB) * 1024 + 256 ≤ s.carveDram * 1024)

/-- The item of R378 that fails, 0 for none. A flash region's number under which the flash still has a chain that is not this run's (UNDECIDED,
HELD or FAILED) has no room (DESIGN CHOICE, log 128): a hold changes nothing on flash (R66), and two chains cannot have one index. -/
def State.createCause (s : State) (r : Nat) : Nat :=
  let n := s.get POOL.REGION_SIZE.GIB r
  if n = 0 ∨ (s.poolFlash r ∧ n % 64 ≠ 0) then 1
  else if !s.poolRoom r || (s.poolFlash r && (s.chainAt (1024 + r)).isSome) then 2
  else if !s.poolFlash r ∧ s.get POOL.REGION_DEF.STACK_MASK r = 0 then 3
  else if s.poolFlash r ∧ s.get POOL.SWAP_CACHE.GIB = 0 then 4
  else if !s.partCreated (s.poolPart r) then 5 else 0

/-- The lowest 1 GiB aligned DPA at which a region's window fits (R376; DESIGN CHOICE, log 71). -/
def State.dpaFor (s : State) (bytes : Nat) : Nat :=
  let ws := ((List.range 256).filter fun r => s.poolState r ≠ 0).map fun r => (s.poolBase r, s.poolBase r + s.poolBytes r)
  let fits (b : Nat) : Bool := ws.all fun w => decide (b + bytes ≤ w.1) || decide (w.2 ≤ b)
  (((0 :: ws.map (·.2)).filter fits).foldl (fun (a : Option Nat) b => match a with
    | none => some b
    | some m => some (min m b)) none).getD 0

/-- The DEFINE record of a region (Table 16-10). -/
def State.defineRecord (s : State) (r : Nat) (standby : Bool) : Nat :=
  recPoolDefine r (s.flag POOL.REGION_DEF.MIRROR r) standby (s.get POOL.REGION_SIZE.GIB r * 16384) (s.get POOL.REGION_DEF.MIRROR_OF r)

/-- A region becomes ACTIVE or STANDBY at a window of its own; a flash region starts its chain (R378). -/
def State.createRegion (s : State) (r : Nat) : State :=
  let standby := s.flag POOL.REGION_DEF.STANDBY r
  let s1 := (s.setPair POOL.REGION_DPA_LO.off (s.dpaFor (s.poolBytes r)) r).put POOL.REGION_STATUS.REFUSE_CAUSE 0 r
  let s2 := (s1.put POOL.REGION_STATUS.STATE (if standby then 2 else 1) r).put POOL.REGION_STATUS.MIRROR_STATE
    (if s.flag POOL.REGION_DEF.MIRROR r then 3 else 0) r
  if s.poolFlash r then
    ((s2.firstWrite.newChain (1024 + r)).anchorUpdate).logRaw (1024 + r) (s.defineRecord r standby)
  else s2

/-- A POOL_XFER that has not ended names the region, admitted or not (R379). -/
def State.xferOn (s : State) (r : Nat) : Bool := s.wk.works.any fun w => w.phase != 2 && w.d.opcode == opXFER && w.d.b 33 1 == r

/-- A host has access to the region: listed, added or under release (R379). -/
def State.hostsOn (s : State) (r : Nat) : Bool :=
  (List.range 16).any (fun i => (s.accessEntry r i).2 != 0 || fieldGet (s.reg (POOL.REGION_ACCESS.off + 4 * i) r) 8 2 != 0) ||
    s.pool.added.any (·.2.1 == r)

/-- A line lies in a region's window. -/
def State.lineIn (s : State) (r l : Nat) : Bool :=
  decide (lineOf (s.poolBase r) ≤ l) && decide (l < lineOf (s.poolBase r) + s.poolBytes r / 64)

/-- Lines of a region's window leave the directory. -/
def State.forgetLines (s : State) (r : Nat) : State :=
  s.setPool fun x =>
    { x with
      dir := x.dir.filter fun e => !s.lineIn r e.line
      snoops := x.snoops.filter fun e => !s.lineIn r e.line
      mirLast := x.mirLast.filter fun y => !s.lineIn r (y.1 / 32) }

/-- A write of POOL.REGION_CTRL (R378, R379, R405, R408). -/
def hPoolRegionCtrl : Handler :=
  { Handler.plain with
    chk := fun s r _ v =>
      (fieldGet v 0 1 == 1 && s.poolState r != 0) ||
      (fieldGet v 1 1 == 1 && (s.poolState r == 0 || s.poolState r == 4 || s.hostsOn r || s.xferOn r)) ||
      (fieldGet v 2 1 == 1 && (s.poolState r != 2 || !s.flag POOL.TANDEM_STATUS.PARTNER_LOST))
    act := fun s r v =>
      if fieldGet v 0 1 = 1 then
        (let c := s.createCause r
        if c = 0 then s.createRegion r else s.put POOL.REGION_STATUS.REFUSE_CAUSE c r)
      else if fieldGet v 1 1 = 1 then
        (let s1 := s.put POOL.REGION_STATUS.STATE 4 r
        if s.poolFlash r then ((s1.logRaw (1024 + r) (recPoolRelease r)).flushAll (1024 + r)).reclaim else s1)
      else if fieldGet v 2 1 = 1 then
        (let s1 := ((s.forgetLines r).put POOL.REGION_STATUS.STATE 1 r).put POOL.REGION_DEF.STANDBY 0 r
        if s.poolFlash r then s1.logRaw (1024 + r) (s1.defineRecord r false) else s1)
      else s }

/-- CREATE (R378). -/
def execCreateCmd (s : State) : Res := .next (bar0Bit hPoolRegionCtrl POOL.REGION_CTRL.CREATE s)

/-- DESTROY (R379). -/
def execDestroy (s : State) : Res := .next (bar0Bit hPoolRegionCtrl POOL.REGION_CTRL.DESTROY s)

/-- TAKEOVER (R405). -/
def execTakeover (s : State) : Res := .next (bar0Bit hPoolRegionCtrl POOL.REGION_CTRL.TAKEOVER s)

/-- A chain and its blocks erased, with the anchor update that drops its entry. -/
def State.eraseChain (s : State) (idx : Nat) : State :=
  match s.chainAt idx with
  | none => s
  | some c =>
    let s1 := s.setFlash fun x =>
      { x.erase (c.blocks ++ c.logs) with chains := x.chains.filter (·.index ≠ idx), bufs := x.bufs.filter (·.1 ≠ idx) }
    ((s1.setTier fun t =>
      { t with
        streams := t.streams.filter fun w => w.index ≠ idx ∧ w.index ≠ logStream idx
        placed := t.placed.filter (·.index ≠ idx)
        ready := t.ready.filter (·.1 ≠ idx) }).put TIER.REGION_INFO.CLEAN 0 idx).anchorUpdate

/-- A region's window and everything kept of it gone. -/
def State.dropRegion (s : State) (r : Nat) : State :=
  let own (key : Nat) : Bool := key / 2 ^ 40 == 2 ^ 23 + r
  let s1 := ((s.forgetLines r).poolClear (s.poolBase r) (s.poolBytes r)).setPool fun x =>
    { x with
      swap := x.swap.filter (·.region ≠ r)
      swapIn := x.swapIn.filter fun y => !own y.key
      flashAt := x.flashAt.filter fun y => !own y.1
      poison := x.poison.filter fun l => !s.lineIn r l
      unset := x.unset.filter (· ≠ r)
      gone := x.gone.filter (·.2 ≠ r) }
  s1.setPair POOL.REGION_DPA_LO.off 0 r

/-- DESTROY_DONE (R379): frames released, or blocks erased; the region is FREE. -/
def execDestroyDone (region : Nat) (s : State) : Res :=
  if !s.working || s.poolState region != 4 then .next s
  else
    let s1 := if s.poolFlash region then (s.dropRegion region).eraseChain (1024 + region) else s.dropRegion region
    .next ((s1.put POOL.REGION_STATUS.STATE 0 region).put POOL.REGION_STATUS.MIRROR_STATE 0 region)

/-- REGION_SIZE and REGION_DEF are written while the region is FREE (R408); of an adopted region the installer writes PARTITION afterwards
(R407), once (DESIGN CHOICE, log 128). -/
def hRegionDef : Handler :=
  { Handler.plain with
    chk := fun s r old v => old != v && s.poolState r != 0 && !(s.pool.unset.contains r && fieldPut old 16 7 (fieldGet v 16 7) == v)
    chg := fun s r old v => if old = v then s else s.setPool fun x => { x with unset := x.unset.filter (· ≠ r) } }

/-- REGION_SIZE (R408). -/
def hRegionSize : Handler := { Handler.plain with chk := fun s r old v => old != v && s.poolState r != 0 }

/-- CARVE_DRAM takes 0 or 1 to 320 GiB and leaves room for the swap cache (R377, R408). -/
def hCarveDram : Handler :=
  { Handler.plain with chk := fun s _ old v =>
      old != v && (decide (320 < fieldGet v 0 9) ||
        (s.get POOL.SWAP_CACHE.GIB != 0 && decide (fieldGet v 0 9 < s.get POOL.SWAP_CACHE.GIB + 1))) }

/-- CARVE_FLASH takes 0 to 120 TiB (Table 16-11). -/
def hCarveFlash : Handler := { Handler.plain with chk := fun _ _ old v => old != v && decide (120 < fieldGet v 0 7) }

/-- SWAP_CACHE is at most CARVE_DRAM less 1 GiB (R408). -/
def hSwapCache : Handler :=
  { Handler.plain with chk := fun s _ old v =>
      old != v && fieldGet v 0 9 != 0 && decide (s.get POOL.CARVE_DRAM.GIB < fieldGet v 0 9 + 1) }

/-! ### Swap pages on the media -/

/-- A swap page-in whose reads are all done: its bytes enter the cache, usable READ_LAG Strokes after its last read started (R386). -/
def State.finishSwapIn (s : State) (key : Nat) : State :=
  match s.pool.swapIn.find? (·.key = key) with
  | none => s
  | some x =>
    if x.done < x.started ∨ s.swapPlan key ≠ [] then s
    else
      let r := bits key 40 8
      let page := bits key 0 40
      let bs := (kvFind s.flash.media (s.swapSector key)).getD []
      let s1 := s.setPool fun y => { y with swapIn := y.swapIn.filter (·.key ≠ key) }
      let s2 := (s1.poolWrite (s.poolBase r + page * 65536) bs).enterSwap r page (x.readAt + s.readLag) false
      (s2.setTier fun t => { t with plans := kvDel t.plans key }).serveWaiting

/-- A swap page lost on flash (R387, R398): its lines are poisoned, and what waited for it goes on. -/
def State.loseSwap (s : State) (key : Nat) : State :=
  (if s.pool.swapIn.any (·.key = key) then s.losePoolPage key else s).serveWaiting

/-- One NAND read of a swap page-in ended. -/
def State.swapReadDone (s : State) (o : NandOp) (res : NandRes) : State :=
  let done (s : State) : State :=
    (s.setPool fun y => { y with swapIn := y.swapIn.map fun x => if x.key = o.pid then { x with done := x.done + 1 } else x }).finishSwapIn o.pid
  if ¬ s.pool.swapIn.any (·.key = o.pid) then s else s.readEnds o res done fun s => s.loseSwap o.pid

/-- A pool page's program completed (R387, R212): its new sectors hold it, its POOL record is logged, the cached page is clean. -/
def State.swapWritten (s : State) (key first : Nat) : State :=
  match s.swapAt key with
  | none => s
  | some y =>
    let a := s.poolBase y.region + y.page * 65536
    let s1 := s.setFlash fun x => { x with media := kvSet x.media first (s.poolRead a 65536) }
    let s2 := s1.setPool fun x => { x with flashAt := kvSet x.flashAt key first }
    ((s2.updSwap key fun y => { y with dirty := false, writing := none }).logRaw (1024 + y.region)
      (recPoolPage y.region y.page first)).serveWaiting

/-! ### POOL_XFER (R393 to R397) -/

/-- Pages a POOL_XFER visits. -/
def xferPages (d : Desc) : Nat := d.b 40 4 * (d.b 35 1 + 1)

/-- Items 1 to 3 of R396. -/
def State.xferFail (s : State) (d : Desc) (q : Seq) : Nat :=
  let r := d.b 33 1
  if s.poolState r ≠ 1 then dtREGION_STATE
  else if s.poolBytes r < d.b 48 8 + 65536 * xferPages d then dtPOOL_RANGE
  else if q.ring ∨ q.prot then dtSEQUENCE_KIND else 0

/-- Item 5 of R396. -/
def xferLayers (d : Desc) (q : Seq) : Bool := decide (q.layers < d.b 34 1 + (d.b 35 1 + 1))

/-- Item 4 of R396: the greatest SET_LENGTH. -/
def xferLong (d : Desc) (q : Seq) : Bool :=
  d.b 32 1 == 0 && d.b 44 4 != 0xFFFFFFFF && decide ((d.b 36 4 + d.b 40 4) * q.bt < d.b 44 4)

/-- POOL_XFER at admission (R396, R395): rights by the region's partition, then the items in order; a DIRECTION 0 transfer joins the
sequence's writers, and the part of item 4 that needs its start length is checked when it becomes active, with item 5 after it. -/
def State.admitXfer (s : State) (id : Nat) : State :=
  match s.work id with
  | none => s
  | some w0 =>
    if w0.phase = 0 ∧ s.poolPart (w0.d.b 33 1) ≠ s.partOf w0.d.tid then (s.enter id).latch id stDENIED 0 0
    else s.admitWith id fun s w =>
      match s.openSeq w.d.tid w.d.sid with
      | none => s
      | some q =>
        let f := s.xferFail w.d q
        if f ≠ 0 then s.latch id stPARTIAL f 0
        else if xferLong w.d q then s.latch id stPARTIAL dtLENGTH 0
        else if (w.d.b 32 1 = 1 ∨ w.d.b 44 4 = 0xFFFFFFFF) ∧ xferLayers w.d q then s.latch id stPARTIAL dtLAYER_RANGE 0
        else if w.d.b 32 1 = 0 then s.activateWriters else s

/-- POOL_XFER (R393). -/
def execPoolXfer (d : Desc) (s : State) : Res := .next (s.rowAdmit opXFER d fun s id => s.admitXfer id)

/-- DPA of the span's `i`-th page. -/
def State.xferDpa (s : State) (w : Work) (i : Nat) : Nat := s.poolBase (w.d.b 33 1) + w.d.b 48 8 + 65536 * i

/-- A host's data for a line of a 64 KiB span waits for its balance or its swap page. -/
def State.dataOn (s : State) (dpa : Nat) : Bool :=
  s.pool.waiting.any fun q => isData q && decide (lineOf dpa ≤ lineOf q.dpa) && decide (lineOf q.dpa < lineOf dpa + 1024)

/-- A response granted for a line of a 64 KiB span is still to be sent (R389). -/
def State.spanWaits (s : State) (dpa : Nat) : Bool := (List.range 1024).any fun i => s.mirWaits (lineOf dpa + i)

/-- The card's own agent, slot 64, was served: the rotation moves past it (R390). -/
def State.agentServed (s : State) : State := s.put POOL.DIR_ROT.SLOT 0

/-- Directory entries of a 64 KiB span. -/
def State.spanEnts (s : State) (dpa : Nat) : List DirEnt :=
  s.pool.dir.filter fun e => lineOf dpa ≤ e.line ∧ e.line < lineOf dpa + 1024

/-- The header of a page copied in (R395): the target's values, GEN by R160, coded under R272. -/
def State.copiedHeader (s : State) (q : Seq) (b l gen : Nat) (h body : List Byte) : List Byte :=
  let on := s.lget CMPR.CODE_POLICY.CODE_OFF q.tid == 0
  let (raw, sizeRaw, index) := codeChoice on body
  let fl := hdrFLAGS h % 2 + 2 * b01 raw + 8 * b01 q.ring + 16 * b01 sizeRaw
  sealHdr (h.take 6 ++ leBytes 1 fl ++ (h.drop 7).take 3 ++ leBytes 2 l ++ leBytes 2 q.tid ++ (h.drop 14).take 2 ++ leBytes 4 q.sid ++
    leBytes 4 b ++ leBytes 4 gen ++ leBytes 6 s.stroke ++ (h.drop 34).take 6 ++ leBytes 8 (q.base + q.page b l) ++ (h.drop 48).take 16 ++
    padTo 64 (index.flatMap (leBytes 4)) ++ (h.drop 128).take 124)

/-- The copy is a page of the target's class (R395): header, FORMAT, FORMAT_AREA and FILL agree with it. -/
def State.fitsClass (s : State) (q : Seq) (h : List Byte) : Bool :=
  hdrValid h && !(s.classDef q.cls).disagrees h && decide (hdrFILL h ≤ q.bt)

/-- The next page of a DIRECTION 1 POOL_XFER (R394). -/
def State.decXferOut (s : State) (w : Work) (q : Seq) : Dec :=
  let r := w.d.b 33 1
  let (b, l) := s.visit w w.next
  let p := q.page b l
  let dpa := s.xferDpa w w.next
  let es := s.spanEnts dpa
  let draw : Res6 := { Res6.zero with dram := 16, pool := 16, spoke := if s.mirrors r then 16 else 0 }
  if s.poolState r ≠ 1 then .stop s stFAULT dtREGION_LOST
  else
    match s.gate q b l with
    | .wrapped => .stop s stPARTIAL dtWRAPPED
    | .beyond => .stop s stPARTIAL dtBEYOND
    | .lost c now => .pass (s.lose w p c now)
    | .flash _ => .wait
    | g =>
      if s.dataOn dpa ∨ s.spanWaits dpa then .wait
      else if es ≠ [] then .hookWait (es.foldl (fun s e => s.snoopInv e.line e.holders (w.id + 1)) s)
      else
        let (s1, ok) := s.wantPage r dpa true
        if !ok then .hookWait s1
        else
          match g with
          | .ready g =>
            if !s.lagged g then .wait
            else if g.bad ≠ 0 then .pass (s.loseCoded w p)
            else
              let s2 := if hdrSizeRaw g.hdr then s1.flagWork w.id flRAW else s1
              .go (s2.agentServed.resolve q p) draw [g.pid] false (.pool r (w.d.b 48 8 + 65536 * w.next) (s.pageBytes g))
          | _ => .go ((s1.agentServed.resolve q p).flagWork w.id flUNWRITTEN) draw [] false (.pool r (w.d.b 48 8 + 65536 * w.next) (zeros 65536))

/-- The page of an inward transfer whose own lines are current: written into the sequence, unwritten where it is all zeros, or refused
(R393, R395). -/
def State.xferInPage (s : State) (w : Work) (q : Seq) (b l : Nat) (draw : Res6) : Dec :=
  let p := q.page b l
  let dpa := s.xferDpa w w.next
  let s2 := s.setPool fun x => { x with curDone := x.curDone.filter (·.1 ≠ w.id) }
  let bs := s.poolRead dpa 65536
  let old := s.pageAt q.idx p
  let held := (old.map (·.pid)).toList
  if bs.all (· == 0#8) then .go (s2.agentServed.resolve q p) draw held false (.unwrite p ((s.leafAt q.idx p).map (·.pid)))
  else if !s.fitsClass q bs then .stop s stPARTIAL dtBAD_PAGE
  else
    let fresh := s.freshFor old || old.any fun g => g.frame.isNone || g.st == 5
    if fresh ∧ s.framesFree = 0 then .noFrame
    else
      match (s2.agentServed.resolve q p).addTables q.tid (q.base + p) with
      | none => .stop (s.sat XLAT.AREA_FULL_COUNT.COUNT) stPARTIAL dtAREA_FULL
      | some s3 =>
        let body := (bs.drop 256).take (hdrPAYLOAD bs)
        let gen := (old.map fun g => hdrGEN g.hdr + 1).getD 1
        let h := s.copiedHeader q b l gen (bs.take 256) body
        .go s3 draw held fresh (.page p ((s.leafAt q.idx p).map (·.pid)) h body fresh (hdrSizeRaw h) 0)

/-- The next page of a DIRECTION 0 POOL_XFER (R395, R396). -/
def State.decXferIn (s : State) (w : Work) (q : Seq) : Dec :=
  let r := w.d.b 33 1
  let (b, l) := s.visit w w.next
  let p := q.page b l
  let dpa := s.xferDpa w w.next
  let own := (s.spanEnts dpa).filter fun e => e.st = 2 ∧ ¬ s.pool.curDone.contains (w.id, e.line)
  let draw : Res6 := { Res6.zero with dram := 16, pool := 16 }
  if !w.active || s.forkOn q.sid then .wait
  else if s.poolState r ≠ 1 then .stop s stFAULT dtREGION_LOST
  else if q.slots ≤ b then .stop s stPARTIAL dtBEYOND
  else if s.dataOn dpa ∨ s.spanWaits dpa then .wait
  else if own ≠ [] then .hookWait (own.foldl (fun s e => e.holders.foldl (fun s h => s.snoop e.line h 0 (w.id + 1)) s) s)
  else
    let (s1, ok) := s.wantPage r dpa false
    if !ok then .hookWait s1
    else if s.pool.poison.any fun x => lineOf dpa ≤ x ∧ x < lineOf dpa + 1024 then .pass (s1.lose w p 3 false)
    else s1.xferInPage w q b l draw

/-- The next page of a POOL_XFER. -/
def State.decXfer (s : State) (w : Work) : Dec :=
  match s.seqBySid w.d.tid w.d.sid with
  | none => .wait
  | some q => if w.d.b 32 1 = 1 then s.decXferOut w q else s.decXferIn w q

/-- A POOL_XFER's chunk ends: the pool's 64 KiB written, the target page written or made UNWRITTEN (R394, R395). -/
def State.endXfer (s : State) (w : Work) (r : Run) : State :=
  match s.seqBySid w.d.tid w.d.sid, r.res with
  | some _, .pool g off bs =>
    let dpa := s.poolBase g + off
    let s1 := (s.poolStore g dpa bs).setPool fun x => { x with poison := x.poison.filter fun l => ¬ (lineOf dpa ≤ l ∧ l < lineOf dpa + 1024) }
    if s.mirrors g then (s1.sendPoolPage g (off / 65536) bs).1 else s1
  | some q, .unwrite p was => if (s.leafAt q.idx p).map (·.pid) = was then s.dropLeaf q.idx p else s
  | some q, .page p was h b fresh raw nf =>
    let s1 := (s.countWrite h b nf).installPage q p was h b fresh
    if raw then s1.flagWork w.id flRAW else s1
  | _, _ => s

/-- A POOL_XFER that finished (R395, R396). -/
def State.finishXfer (s : State) (w : Work) : State :=
  (s.latchEnd w (s.rangeStatus w)).setPool fun x => { x with curDone := x.curDone.filter (·.1 ≠ w.id) }

/-- The length a DIRECTION 0 transfer commits at the boundary that writes its completion (R395). -/
def State.commitXfer (s : State) (w : Work) : State :=
  if w.active ∧ w.d.opcode = opXFER ∧ w.status = stDONE ∧ w.d.b 44 4 ≠ 0xFFFFFFFF then s.commitLength w (w.d.b 44 4) else s

end Sys2Proof.Machine
end

