-- ==== Sys2Proof/Machine/Search.lean ====
section
/-! DEFINITION. Chapter 10: keys, entries, PREFIX_FIND, PREFIX_NEXT, PREFIX_INSERT, PREFIX_REMOVE, the cascade, peloton search, the Brake
and reshapes (R223 to R259). -/

namespace Sys2Proof.Machine

def dtNOT_SEALED : Nat := 0x0401
def dtCASSETTE_FULL : Nat := 0x0402
def dtNS_CAP : Nat := 0x0403
def dtNO_PARENT : Nat := 0x0404
def dtRING : Nat := 0x0405
def dtBLOCK_MISMATCH : Nat := 0x0406
def dtNOT_PELOTON : Nat := 0x0407
def dtPROTECTED_HOOK : Nat := 0x0701

def State.setSrch (s : State) (f : SrchSt → SrchSt) : State := { s with srch := f s.srch }

/-! ### Namespaces (R224) -/

def State.nsOn (s : State) (n : Nat) : Bool := s.flag SRCH.NS_CTRL.ENABLE n
def State.nsOwner (s : State) (n : Nat) : Nat := s.get SRCH.NS_CTRL.OWNER_TID n
/-- Units of a key of the namespace: 1, 2 or 4. -/
def State.nsUnits (s : State) (n : Nat) : Nat := 2 ^ (s.get SRCH.NS_CTRL.WIDTH n - 1)
def State.nsTokens (s : State) (n : Nat) : Nat := 2 ^ s.get SRCH.NS_CTRL.BLOCK_TOKENS_LOG2 n
def State.nsScope (s : State) (n : Nat) : Nat := s.get SRCH.NS_CTRL.SCOPE n
/-- The card computes the namespace's keys. -/
def State.nsCard (s : State) (n : Nat) : Bool := s.flag SRCH.NS_CTRL.KEY_SOURCE n
/-- Keys come from the prefix hash hook (R226). -/
def State.nsHook (s : State) (n : Nat) : Bool := s.nsCard n && s.flag SRCH.NS_CTRL.HOOK n
def State.nsSalt (s : State) (n : Nat) : List Byte :=
  (List.range 4).flatMap fun i => leBytes 4 (s.reg (SRCH.NS_SALT.off + 4 * i) n).toNat

/-- The namespace is enabled and belongs to the tenant (R224, R242). -/
def State.nsMine (s : State) (tid n : Nat) : Bool := s.nsOn n && s.nsOwner n == tid

/-! ### Query items and keys (R223, R232) -/

def itemSize (bt : Nat) : Nat := cdiv (32 + 4 * bt) 64 * 64

/-- Key bytes and token bytes of a query item. -/
def State.item (s : State) (q bt j : Nat) : List Byte × List Byte :=
  (s.memRead (q + j * itemSize bt) 32, s.memRead (q + j * itemSize bt + 32) (4 * bt))

/-- The built-in key of a block (R223). -/
def nextKey (prev toks salt : List Byte) : List Byte := sha256 (prev ++ toks ++ salt)

/-- Keys of items `j` to `j + n - 1` chained from a key. -/
def State.chainKeys (s : State) (ns q : Nat) (prev : List Byte) (j : Nat) : Nat → List (List Byte)
  | 0 => []
  | n + 1 =>
    let k := nextKey prev (s.item q (s.nsTokens ns) j).2 (s.nsSalt ns)
    k :: s.chainKeys ns q k (j + 1) n

/-- The request of a prefix hash call (Table 13-4). -/
def State.hashRequest (s : State) (ns block : Nat) (prev toks : List Byte) : List Byte :=
  prev ++ s.nsSalt ns ++ leBytes 4 block ++ leBytes 4 ns ++ padTo 512 toks

/-! ### Entries (R227, R228, R238) -/

/-- The units of a key (Table 10-1). -/
def unitsOf (units ns block : Nat) (key : List Byte) : List Nat :=
  let h (i : Nat) : Nat := leAt key (8 * i) 8
  let u (i top low : Nat) : Nat := h i + (top * 2 ^ 14 + i * 2 ^ 12 + low) * 2 ^ 64
  if units = 1 then [u 0 1 ns]
  else if units = 2 then [u 0 2 ns, u 1 2 ns]
  else [u 0 3 ns, u 1 3 (block % 4096), u 2 3 (block / 4096 % 4096), u 3 3 (block / 2 ^ 24 % 256)]

/-- A bank's registers' instance: die in bits 7:0, bank above (SRCH.BANK_SELECT). -/
def bankInst (b : Nat) : Nat := b / 32 + b % 32 * 256

/-- Width in force of bank `b` (die × 32 + bank), in units. -/
def State.bankUnits (s : State) (b : Nat) : Nat := 2 ^ (s.get SRCH.BANK_STATUS.WIDTH (bankInst b) - 1)

/-- The bank takes inserts: it is not being reshaped. -/
def State.bankReady (s : State) (b : Nat) : Bool := !(s.srch.reshape.any fun r => r.1 == b)

/-- Addresses held: a search chunk that ran when they were cleared still runs (R231). -/
def State.heldAddrs (s : State) : List Nat :=
  let now := s.searching
  (s.srch.held.filter fun h => h.2.any now.contains).map (·.1)

/-- Addresses of a bank that a new entry may not take: valid entries and cleared ones still held (R231), in rows of its width. -/
def State.bankTaken (s : State) (b : Nat) : List Nat :=
  (((s.srch.entries.map (·.addr)) ++ s.heldAddrs).filter fun a => a / 2 ^ 14 = b).map fun a => a - a % s.bankUnits b

/-- The lowest, or the highest, free entry address of a bank. -/
def State.bankFree (s : State) (b u : Nat) (low : Bool) : Option Nat :=
  let taken := s.bankTaken b
  let base := b * 2 ^ 14
  let cands := if low then (base + 2 ^ 14 - u) :: (taken.filter (base + u ≤ ·)).map (· - u) else base :: taken.map (· + u)
  let ok := cands.filter fun a => base ≤ a ∧ a + u ≤ base + 2 ^ 14 ∧ ¬ taken.contains a
  ok.foldl (fun acc a => match acc with
    | none => some a
    | some m => some (if low then max m a else min m a)) none

/-- The lowest free entry in the banks of a width, or the highest under PLACE_LOW (R238). -/
def State.freeEntry (s : State) (u : Nat) (low : Bool) : Option Nat :=
  let bs := (List.range 128).filter fun b => s.bankUnits b = u ∧ s.bankReady b
  (if low then bs.reverse else bs).findSome? fun b => s.bankFree b u low

/-- The entry of a sequence's block in a namespace. -/
def State.entryOf (s : State) (ns sid block : Nat) : Option Entry :=
  s.srch.entries.find? fun e => e.ns = ns ∧ e.sid = sid ∧ e.block = block

/-- The same block's entry, wherever it lies: a reshape moves an entry, and a FIND never returns one record twice (R256). -/
def Entry.same (a b : Entry) : Bool := a.ns == b.ns && a.sid == b.sid && a.block == b.block

/-- One search (R228): the highest-priority match beyond a cursor, and MORE; entries already met are passed over (R256). -/
def State.search (s : State) (ns block : Nat) (key : List Byte) (after : Option Nat) (met : List Entry := []) : Option (Entry × Bool) :=
  let us := unitsOf (s.nsUnits ns) ns block key
  let beyond (a : Nat) : Bool := match after with
    | none => true
    | some c => decide (c < a)
  let m := s.srch.entries.filter fun e => e.units = us ∧ beyond e.addr ∧ ¬ met.any e.same
  match m.mergeSort fun a b => decide (a.addr ≤ b.addr) with
  | [] => none
  | a :: t => some (a, t ≠ [])

/-! ### Verification (R232) -/

inductive Verdict where
  | stale | miss | hit
  deriving DecidableEq, Repr

/-- A hit examined against a key and tokens, or against the key alone: by its record and shadow as the search found them, which R231
keeps for the chunks that ran at the clear. DESIGN CHOICE (log 109): also for a hit whose search chunk has ended. -/
def State.verify (s : State) (tid : Nat) (e : Entry) (key : List Byte) (toks : Option (List Byte)) : Verdict :=
  if (s.openSeq tid e.sid).isNone then .stale
  else
    let same : Bool := match e.tokens, toks with
      | some t, some u => t == u
      | _, _ => true
    if e.key == key && same then .hit else .miss

/-- Counts of verdicts and Sprocket cycles. -/
structure Tally where
  cycles : Nat
  misses : Nat
  stales : Nat
  shadows : Nat
  deriving DecidableEq, Repr

def Tally.zero : Tally := ⟨0, 0, 0, 0⟩

def State.tally (s : State) (t : Tally) : State :=
  ((s.add64 SRCH.SEARCHES_LO.off t.cycles).sat SRCH.VERIFY_MISSES.COUNT t.misses).sat SRCH.STALE_HITS.COUNT t.stales

/-- The query of a FIND or NEXT as resolution sees it: namespace, first block, the items' address, the tenant, records wanted. -/
structure Query where
  tid : Nat
  ns  : Nat
  /-- Block of key 0. -/
  b0  : Nat
  q   : Nat
  maxN : Nat
  deriving DecidableEq, Repr

def queryOf (d : Desc) : Query :=
  { tid := d.tid, ns := d.b 32 2, b0 := if d.opcode = opNEXT then d.b 36 4 else 0, q := d.b 40 8, maxN := d.b 34 1 }

/-- A hit at a key examined: the FIND's state after it. -/
def State.examine (s : State) (qy : Query) (f : FindSt) (t : Tally) (k : Nat) (a : Entry) (tries : Nat) (more : Bool) : FindSt × Tally :=
  let toks := (s.item qy.q (s.nsTokens qy.ns) k).2
  let g : FindSt := { f with at_ := some (k, a, tries), more := more }
  match s.verify qy.tid a (f.keys.getD k []) (some toks) with
  | .stale => (g, { t with stales := t.stales + 1 })
  | .miss =>
    let m : FindSt := { g with at_ := some (k, a, tries + 1), flags := f.flags ||| 16 }
    (m, { t with misses := t.misses + 1, shadows := t.shadows + 1 })
  | .hit =>
    let h : FindSt := { g with best := some k, found := f.found ++ [a] }
    (h, { t with shadows := t.shadows + 1 })

/-- The greatest key with a cascade hit of another card. -/
def FindSt.remoteKey (f : FindSt) : Option Nat :=
  (f.remote.map fun r => r.getD 0 0).foldl (fun a k => match a with
    | none => some k
    | some m => some (max m k)) none

/-- The deepest verified key, of this card or of another of the cascade. -/
def FindSt.deepest (f : FindSt) : Option Nat :=
  match f.best, f.remoteKey with
  | some a, some b => some (max a b)
  | some a, none => some a
  | none, x => x

/-- MULTI (R233): the last search made at the deepest verified key left another matching entry. -/
def FindSt.multi (f : FindSt) : Bool :=
  match f.deepest with
  | none => false
  | some k => if f.best = some k then f.more else (kvFind f.left k).getD false

/-- The key being resolved is left where it has no further hit to try and none verified (R232): the next shallower one follows. -/
def FindSt.leave (f : FindSt) (tries : Nat) : FindSt :=
  match f.best, f.at_ with
  | none, some (k, _, n) =>
    if f.more ∧ n < tries then f else { f with at_ := none, limit := k, more := false, left := f.left ++ [(k, f.more)] }
  | _, _ => f

/-- Resolution has nothing left to do. -/
def FindSt.resolved (f : FindSt) (maxN : Nat) : Bool :=
  match f.best with
  | some _ => decide (maxN ≤ f.found.length) || !f.more
  | none => f.at_.isNone &&
    !(f.hits.any fun h => decide (h.1 < f.limit) && (match f.remoteKey with
      | none => true
      | some r => decide (r ≤ h.1)))

/-- Resolution steps (R232): at most `n` cursor searches or first examinations, while shadows are left. -/
def State.resolveSteps (s : State) (qy : Query) (maxTries : Nat) : Nat → FindSt → Tally → FindSt × Tally
  | 0, f, t => (f, t)
  | n + 1, f, t =>
    if f.resolved qy.maxN || decide (16 ≤ t.shadows) then (f, t)
    else
      let step (k : Nat) (a : Entry) (tries : Nat) : FindSt × Tally :=
        let t1 := { t with cycles := t.cycles + 1 }
        match s.search qy.ns (qy.b0 + k) (f.keys.getD k []) (some a.addr) (a :: f.found) with
        | none => ({ f with more := false }, t1)
        | some (b, more) => s.examine qy f t1 k b tries more
      let next : FindSt × Tally :=
        match f.best, f.at_ with
        | some _, some (k, a, tries) => step k a tries
        | some _, none => ({ f with more := false }, t)
        | none, some (k, a, tries) => step k a tries
        | none, none =>
          let c := f.hits.filter (·.1 < f.limit)
          match c.foldl (fun (a : Option (Nat × Entry × Bool)) h => match a with
            | none => some h
            | some m => some (if m.1 < h.1 then h else m)) none with
          | none => (f, t)
          | some (k, a, more) => s.examine qy f t k a 0 more
      s.resolveSteps qy maxTries n (next.1.leave maxTries) next.2

/-! ### Admission (R242, R244) -/

def FindSt.start (limit : Nat) (builtin : Bool) : FindSt :=
  { keys := [], hits := [], at_ := none, limit := limit, left := [], found := [], best := none, more := false, cycles := 0, remote := [], words := [],
    flags := 0, asked := [], replies := [], waitEnd := none, builtin := builtin }

/-- FIND and NEXT at admission. -/
def State.admitFind (s : State) (id : Nat) : State :=
  s.admitWith id fun s w =>
    let ns := w.d.b 32 2
    if !s.nsMine w.d.tid ns then s.latch id stNOTFOUND 0 0
    else if w.d.opcode = opFIND ∧ w.d.b 35 1 = 1 ∧ s.nsScope ns ≠ 2 then s.latch id stPARTIAL dtNOT_PELOTON 0
    else s.updWork id fun w => { w with aux := .find (FindSt.start (if w.d.opcode = opFIND then w.d.b 36 4 else 1) false) }

/-- PREFIX_FIND (R232). -/
def execPrefixFind (d : Desc) (s : State) : Res := .next (s.rowAdmit opFIND d fun s id => s.admitFind id)

/-- PREFIX_NEXT (R234). -/
def execPrefixNext (d : Desc) (s : State) : Res := .next (s.rowAdmit opNEXT d fun s id => s.admitFind id)

/-- INSERT and REMOVE at admission: namespace, ring, BLOCK_TOKENS, the hook of a protected sequence (R314). The parent of R239 is no
admission check (Table 10-8). -/
def State.admitUpdate (s : State) (id : Nat) : State :=
  s.admitWith id fun s w =>
    let d := w.d
    let ns := d.b 32 2
    match s.openSeq d.tid d.sid with
    | none => s
    | some q =>
      if !s.nsMine d.tid ns then s.latch id stNOTFOUND 0 0
      else if q.ring then s.latch id stPARTIAL dtRING 0
      else if q.bt ≠ s.nsTokens ns then s.latch id stPARTIAL dtBLOCK_MISMATCH 0
      else if d.opcode = opINSERT ∧ q.prot ∧ s.nsHook ns then s.latch id stPARTIAL dtPROTECTED_HOOK 0
      else s

/-- PREFIX_INSERT (R238). -/
def execPrefixInsert (d : Desc) (s : State) : Res := .next (s.rowAdmit opINSERT d fun s id => s.admitUpdate id)

/-- PREFIX_REMOVE (R240). -/
def execPrefixRemove (d : Desc) (s : State) : Res := .next (s.rowAdmit opREMOVE d fun s id => s.admitUpdate id)

/-! ### The cascade (R245 to R249) -/

/-- A search of the namespace goes round the ring: SCOPE cascade, the cascade up, more than one card. -/
def State.cascades (s : State) (ns : Nat) : Bool :=
  s.nsScope ns == 1 && s.flag SRCH.ENUM_STATUS.CASCADE_UP && decide (0 < s.get SRCH.ENUM_STATUS.SIZE_M1)

/-- The 60 bytes of a cascade word before its CRC-32C, in the order in which R245 names what a word carries. PRESUMED (log 110): the
spec gives no places; these fields at these widths fill the 64 bytes. -/
def cascadeBytes (c : CascadeWord) : List Byte :=
  let h (i : Nat) : Nat := (c.hit.getD []).getD i 0
  leBytes 1 c.origin ++ leBytes 2 c.tag ++ leBytes 2 c.ns ++ leBytes 4 c.block ++ padTo 32 c.key ++
    leBytes 1 (b01 c.hit.isSome) ++ leBytes 1 (h 0) ++ leBytes 1 (h 1) ++ leBytes 1 (h 2) ++ leBytes 2 (h 3) ++ leBytes 4 (h 4) ++
    leBytes 4 (h 5) ++ leBytes 4 (h 6) ++ leBytes 1 (b01 c.verifyMiss + 2 * b01 c.halted)

/-- A word sealed with its CRC-32C, as it goes out (R245). -/
def sealWord (c : CascadeWord) : CascadeWord := { c with crc := crc32c (cascadeBytes c) }

/-- A word's CRC-32C holds (R248). -/
def wordOk (c : CascadeWord) : Bool := c.crc == crc32c (cascadeBytes c)

/-- Words of a search chunk's keys sent round the ring; their tags wait on the FIND. -/
def State.sendWords (s : State) (w : Work) (idx : Nat) (qy : Query) (keys : List (Nat × List Byte)) : State × List Nat :=
  keys.foldl (fun (acc : State × List Nat) k =>
    let s := acc.1
    let word := sealWord
      { origin := s.get SRCH.ENUM_STATUS.POSITION, tag := s.srch.nextTag, ns := qy.ns, block := qy.b0 + k.1, key := k.2, hit := none,
        verifyMiss := false, halted := false, crc := 0#32 }
    let o : CascOut := ⟨word.tag, w.id, idx, k.1, s.stroke, false, word⟩
    ((s.setSrch fun x => { x with casc := x.casc ++ [o], nextTag := x.nextTag + 1 }).emit (.cascade word), acc.2 ++ [word.tag])) (s, [])

/-- This card's own verified hit of a word (R246), on the full key only, stepping under VERIFY_TRIES. -/
def State.wordHit (s : State) (ns block : Nat) (key : List Byte) : Nat → Option Nat → Nat → Tally → Option Entry × Tally
  | 0, _, _, t => (none, t)
  | n + 1, after, tries, t =>
    let t1 := { t with cycles := t.cycles + 1 }
    match s.search ns block key after with
    | none => (none, t1)
    | some (a, more) =>
      match s.verify (s.nsOwner ns) a key none with
      | .hit => (some a, { t1 with shadows := t1.shadows + 1 })
      | .stale =>
        let t2 := { t1 with stales := t1.stales + 1 }
        if more then s.wordHit ns block key n (some a.addr) tries t2 else (none, t2)
      | .miss =>
        let t2 := { t1 with misses := t1.misses + 1, shadows := t1.shadows + 1 }
        if more ∧ tries + 1 < s.get SRCH.VERIFY_TRIES.TRIES then s.wordHit ns block key n (some a.addr) (tries + 1) t2 else (none, t2)

def State.halted (s : State) : Bool := s.flag SRCH.BRAKE_STATUS.HALTED

/-- A word of another card: searched here, updated and passed on; a card that the Brake halts sets HALTED on every word (R246). -/
def State.passWord (s : State) (c : CascadeWord) : State :=
  if s.halted then s.emit (.cascade (sealWord { c with halted := true }))
  else if !s.nsOn c.ns || s.nsScope c.ns != 1 then s.emit (.cascade c)
  else
    let (a, t) := s.wordHit c.ns c.block c.key 4096 none 0 Tally.zero
    let pos := s.get SRCH.ENUM_STATUS.POSITION
    let better := match c.hit with
      | none => true
      | some h => decide (pos < h.getD 0 0)
    let hit := match a with
      | none => c.hit
      | some e =>
        if better then some [pos, e.addr / 2 ^ 19, e.addr / 2 ^ 14 % 32, e.addr % 2 ^ 14, e.sid, e.addr, c.block + 1] else c.hit
    let c1 : CascadeWord := { c with hit := hit, verifyMiss := c.verifyMiss || t.misses != 0 }
    (s.tally t).emit (.cascade (sealWord c1))

/-- A hit of another card lies beyond the cursor of a PREFIX_NEXT: by card position first, then by address (R228, R234). -/
def beyondCursor (d : Desc) (h : List Nat) : Bool :=
  let c := d.b 48 8
  d.opcode != opNEXT || c == 0 ||
    decide (c % 2 ^ 23 < h.getD 0 0 * 2 ^ 21 + h.getD 1 0 * 2 ^ 19 + h.getD 2 0 * 2 ^ 14 + h.getD 3 0)

/-- A word of this card that came back (R246): its hit, its flags. -/
def State.ownWord (s : State) (c : CascadeWord) : State :=
  match s.srch.casc.find? (·.tag = c.tag) with
  | none => s
  | some o =>
    let s1 := s.setSrch fun x => { x with casc := x.casc.filter (·.tag ≠ c.tag) }
    s1.updWork o.work fun w =>
      match w.aux with
      | .find f =>
        let r := match c.hit with
          | some h => if beyondCursor w.d h then f.remote ++ [o.key :: h] else f.remote
          | none => f.remote
        let g : FindSt := { f with words := f.words.filter (· ≠ c.tag), remote := r,
                                   flags := f.flags ||| (if c.halted then 4 else 0) ||| (if c.verifyMiss then 16 else 0) }
        { w with aux := .find g }
      | _ => w

/-- Enumeration: every bank at its After power-up width with no valid entry (R249). -/
def State.enumBanks (s : State) : State :=
  let keep (l : List (Nat × Word)) : List (Nat × Word) :=
    l.filter fun p => p.1 % 0x1000000 ≠ SRCH.BANK_CTRL.off ∧ p.1 % 0x1000000 ≠ SRCH.BANK_STATUS.off
  { s with regs := keep s.regs, srch := { s.srch with entries := [], held := [], reshape := [] } }

/-- ENUM_DONE (R249): local enumeration; with `ring`, all positions have answered over the ring by now. -/
def execEnumDone (ring : Bool) (s : State) : Res :=
  let ph := s.phase
  if !s.up || !(ph == phCONFIGURE || ph == phRELEASED) || s.dom 19 != domRUNNING then .next s
  else
    let s0 := if s.flag SRCH.ENUM_STATUS.ENUM_DONE then s else s.enumBanks
    let s1 := (((s0.put SRCH.ENUM_STATUS.DIES_LOCAL 15).put SRCH.ENUM_STATUS.ENUM_DONE 1).put SRCH.ENUM_STATUS.POSITION s.pw.casPos).put
      SRCH.ENUM_STATUS.SIZE_M1 s.pw.casSize
    let up := s.pw.casSize = 0 ∨ (ring ∧ ¬ s.flag SRCH.ENUM_STATUS.CASCADE_INCOMPLETE)
    .next (if up then s1.put SRCH.ENUM_STATUS.CASCADE_UP 1 else s1)

/-- CASCADE_ENUM_TIMEOUT (R249). -/
def execCascadeEnumTimeout (s : State) : Res :=
  if !s.up || s.dom 19 == domOFF || s.flag SRCH.ENUM_STATUS.CASCADE_UP || s.pw.casSize == 0 ||
      !(s.phase == phCONFIGURE || s.phase == phRELEASED) then .next s
  else .next (s.put SRCH.ENUM_STATUS.CASCADE_INCOMPLETE 1)

/-- CASCADE_DOWN (R248): the sideband ring broke. -/
def execCascadeDown (s : State) : Res := .next (s.put SRCH.ENUM_STATUS.CASCADE_UP 0)

/-! ### FIND and NEXT: chunks (R226, R232, R246, R250) -/

/-- Search chunks of a FIND or NEXT before resolution. -/
def searchChunks (d : Desc) : Nat := if d.opcode = opNEXT then 1 else cdiv (d.b 36 4) 64

/-- The tokens sent to every other member (R250, R340): one transaction each; answers the members asked. -/
def State.askPeloton (s : State) (w : Work) (ns : Nat) (keys : List (List Byte)) : State × List Nat :=
  let ms := if s.isMember then s.roster.filter (· ≠ s.me) else []
  let n := keys.length
  let segs := cdiv n 256
  let pl := (List.range segs).map fun i =>
    let ks := (keys.drop (256 * i)).take 256
    padTo 64 (leBytes 2 ns ++ leBytes 2 i ++ leBytes 2 segs ++ leBytes 4 (256 * i) ++ leBytes 2 ks.length ++ leBytes 2 w.d.tid) ++
      ks.flatMap (padTo 32)
  (ms.foldl (fun s m => (s.openTxn 0 ftMATCH_TOKEN m w.id pl).1) s, ms)

/-- Spoke units of the tokens (R250; DESIGN CHOICE, log 50: at most one chunk's draw). -/
def State.askDraw (s : State) (n : Nat) : Nat :=
  let ms := if s.isMember then s.roster.filter (· ≠ s.me) else []
  min 16 (cdiv (ms.length * (cdiv n 256 * 96 + 32 * n)) 4096)

/-- The search results of a chunk's keys. -/
def State.searchKeys (s : State) (qy : Query) (keys : List (Nat × List Byte)) (after : Option Nat) : List (Nat × Entry × Bool) :=
  keys.filterMap fun k => (s.search qy.ns (qy.b0 + k.1) k.2 after).map fun h => (k.1, h.1, h.2)

/-- Where a CURSOR leaves off among this card's entries, by card position first (R228, R234): all of them are beyond a cursor of a
lower position, none beyond one of a higher. -/
def cursorOf (pos c : Nat) : Option Nat :=
  let at_ := c % 2 ^ 23
  if c = 0 ∨ at_ / 2 ^ 21 < pos then none else if pos < at_ / 2 ^ 21 then some (2 ^ 21) else some (at_ % 2 ^ 21)

/-- The keys of one search chunk: index and key. -/
def chunkKeys (d : Desc) (keys : List (List Byte)) (c : Nat) : List (Nat × List Byte) :=
  if d.opcode = opNEXT then [(0, keys.getD 0 [])]
  else (List.range (min 64 (d.b 36 4 - 64 * c))).map fun i => (64 * c + i, keys.getD (64 * c + i) [])

/-- A search chunk's search at its start, with words sent round the cascade. -/
def State.startSearch (s : State) (w : Work) (f : FindSt) (c : Nat) : State × RunRes :=
  let qy := (queryOf w.d)
  let ks := chunkKeys w.d f.keys c
  let after := if w.d.opcode = opNEXT then cursorOf (s.get SRCH.ENUM_STATUS.POSITION) (w.d.b 48 8) else none
  let hits := s.searchKeys qy ks after
  let s1 := s.add64 SRCH.SEARCHES_LO.off ks.length
  let down := decide (s.nsScope qy.ns = 1) && !s.flag SRCH.ENUM_STATUS.CASCADE_UP
  let (s2, tags) := if s.cascades qy.ns then s1.sendWords w c qy ks else (s1, [])
  let g : FindSt := { f with cycles := f.cycles + ks.length, words := f.words ++ tags, flags := f.flags ||| b01 down }
  (s2.updWork w.id fun w => { w with aux := .find g }, .hits hits ks.length)

/-- The key that a PREFIX_NEXT's key is chained from, where the card computes keys: block 0 chains from zeros; of a later block the one
query item gives no such key and R225 ignores the item's own, so it is a free value (log 108). -/
def State.nextFrom (s : State) (d : Desc) : List Byte :=
  if d.b 36 4 = 0 then zeros 32 else (List.range 32).map (Config.undefByte s.free)

/-- The keys of a FIND or NEXT that need no hook: all at its first chunk (R223, R225). -/
def State.plainKeys (s : State) (d : Desc) : List (List Byte) :=
  let ns := d.b 32 2
  let q := d.b 40 8
  let bt := s.nsTokens ns
  if d.opcode = opNEXT then
    if s.nsCard ns then [nextKey (s.nextFrom d) (s.item q bt 0).2 (s.nsSalt ns)] else [(s.item q bt 0).1]
  else if s.nsCard ns then s.chainKeys ns q (zeros 32) 0 (d.b 36 4)
  else (List.range (d.b 36 4)).map fun j => (s.item q bt j).1

/-- A FIND asks the peloton. -/
def asksPeloton (d : Desc) : Bool := d.opcode == opFIND && d.b 35 1 == 1

/-- The match tokens of a whole key chain sent, and the reply timer set (R250, R251). -/
def State.askAll (s : State) (w : Work) (f : FindSt) : State × FindSt :=
  if asksPeloton w.d then
    let (s1, asked) := s.askPeloton w (w.d.b 32 2) f.keys
    let wait := if asked = [] then f.waitEnd else some (s.stroke + s.get SRCH.PELOTON_WAIT.STROKES)
    (s1, { f with asked := f.asked ++ asked, waitEnd := wait })
  else (s, f)

/-- Items `i` to `i + n - 1` of a list at an address: keys and tokens. -/
def State.items (s : State) (addr bt i n : Nat) : List (List Byte × List Byte) := (List.range n).map fun j => s.item addr bt (i + j)

/-- The next chunk of a FIND or NEXT (R226, R232, R250). The tokens of a peloton search leave with its first search chunk; where a hook
computes the keys, with the chunk that completes their chain (DEDUCED, log 111). -/
def State.decFind (s : State) (w : Work) : Dec :=
  match w.aux with
  | .find f =>
    let d := w.d
    let ns := d.b 32 2
    let n := searchChunks d
    let one : Res6 := { Res6.zero with search := 1 }
    if s.halted then .wait
    else if w.next < n then
      let lastC := decide (w.next + 1 = n)
      if lastC && !w.run.isEmpty then .wait
      else
        let count := if d.opcode = opNEXT then 1 else min 64 (d.b 36 4 - 64 * w.next)
        let go (s : State) (f : FindSt) : Dec :=
          let first := w.next = 0
          let f1 : FindSt := if f.keys = [] then { f with keys := s.plainKeys d } else f
          let (s1, f2) := if first then s.askAll w f1 else (s, f1)
          let (s2, res) := s1.startSearch w f2 w.next
          let any : Bool := match res with
            | .hits h _ => !h.isEmpty || !f2.hits.isEmpty
            | _ => false
          let spoke := if first ∧ asksPeloton d then s.askDraw f1.keys.length else 0
          .go (if d.opcode = opNEXT then s2.nextFree else s2) { one with dram := b01 (lastC && any), spoke := spoke } [] false res
        if s.nsHook ns ∧ ¬ f.builtin then
          if f.keys.length < 64 * w.next then .wait
          else
            match s.resolveHook d.tid 2 (count * (s.hookLatency (s.boundSlot d.tid 2) 2 + 1)) w.id w.next with
            | .waits s1 => .hookWait s1
            | .slot m =>
              let prev := if d.opcode = opNEXT then s.nextFrom d else if w.next = 0 then zeros 32 else f.keys.getLastD (zeros 32)
              let block := if d.opcode = opNEXT then d.b 36 4 else 64 * w.next
              let items := s.items (d.b 40 8) (s.nsTokens ns) (64 * w.next) count
              let toks := (items.getD 0 ([], [])).2
              let s1 := (s.call m 2 w.id w.next 0 (s.hashRequest ns block prev toks)).takePort 2 (count * (s.hookLatency m 2 + 1))
              let spoke := if lastC ∧ asksPeloton d then s.askDraw (d.b 36 4) else 0
              .go (if d.opcode = opNEXT then s1.nextFree else s1) { one with dram := b01 lastC, spoke := spoke } [] false
                (.hashing m (64 * w.next) count [] items)
            | .builtin s1 =>
              if w.next = 0 then go s1 { f with builtin := true }
              else if w.run.isEmpty then
                -- every key of the descriptor becomes built-in, from block 0 (Table 13-6)
                let g : FindSt := { FindSt.start (d.b 36 4) true with cycles := f.cycles, flags := f.flags }
                .pass ((s1.setSrch fun x => { x with casc := x.casc.filter (·.work ≠ w.id) }).updWork w.id fun w =>
                  { w with next := 0, lead := 0, ended := [], aux := .find g })
              else .wait
        else go s f
    else if !w.run.isEmpty || f.resolved (d.b 34 1) then .wait
    else
      let r := s.resolveSteps (queryOf d) (s.get SRCH.VERIFY_TRIES.TRIES) 64 f Tally.zero
      .go s { one with dram := r.2.shadows } [] false (.hits [] 0)
  | _ => .wait

/-- No key of the chunk is still with a hook. -/
def Run.hashDone (r : Run) : Bool :=
  match r.res with
  | .hashing _ _ n keys _ => n == keys.length
  | _ => true

/-- The end of a FIND's or NEXT's chunk: hits recorded; after the last search chunk its deepest hit is verified; a resolution chunk's
steps. -/
def State.endFind (s : State) (w : Work) (r : Run) : State :=
  match w.aux with
  | .find f0 =>
    let qy := (queryOf w.d)
    let tries := s.get SRCH.VERIFY_TRIES.TRIES
    let resolve (steps : Nat) (f : FindSt) : State :=
      let (f1, t) := s.resolveSteps qy tries steps f Tally.zero
      (s.tally t).updWork w.id fun w => { w with aux := .find { f1 with cycles := f1.cycles + t.cycles } }
    if r.idx < searchChunks w.d then
      let hits := match r.res with
        | .hits h _ => h
        | _ => []
      let f1 : FindSt := { f0 with hits := f0.hits ++ hits }
      if r.idx + 1 < searchChunks w.d then s.updWork w.id fun w => { w with aux := .find f1 } else resolve 1 f1
    else resolve 64 f0
  | _ => s

/-- A FIND or NEXT is complete: searched, resolved, every word back and every member answered or given up. -/
def State.findDone (s : State) (w : Work) : Bool :=
  match w.aux with
  | .find f =>
    w.phase == 1 && w.run.isEmpty && (w.stop.isSome ||
      (decide (searchChunks w.d ≤ w.next) && f.resolved (w.d.b 34 1) && f.words.isEmpty &&
        (f.waitEnd.isNone || f.asked.all fun m => (kvFind f.replies m).isSome)))
  | _ => false

/-- A match record (Table 10-3). -/
def matchRecord (sid blocks kind card keyOnly rcd cursor stroke : Nat) : List Byte :=
  leBytes 4 sid ++ leBytes 4 blocks ++ leBytes 1 kind ++ leBytes 1 card ++ leBytes 1 keyOnly ++ zeros 1 ++ leBytes 4 rcd ++
    leBytes 8 cursor ++ leBytes 6 stroke ++ zeros 2

/-- CURSOR of an entry: first row, bank, cascade die, bit 23 (Table 10-3). -/
def cursorBits (pos a : Nat) : Nat := a % 2 ^ 19 + (pos * 4 + a / 2 ^ 19) * 2 ^ 19 % 2 ^ 23 + 2 ^ 23

/-- The records of a finished FIND or NEXT, and its best match length (R235, R236, R246, R251). -/
def State.findRecords (s : State) (w : Work) (f : FindSt) : List (List Byte) × Nat :=
  let qy := (queryOf w.d)
  let pos := s.get SRCH.ENUM_STATUS.POSITION
  let key := f.deepest
  let own : List (Nat × List Byte) := match f.best, key with
    | some k, some m =>
      if k ≠ m then []
      else f.found.map fun e =>
        (pos * 2 ^ 24 + e.addr,
          matchRecord e.sid (qy.b0 + k + 1) 1 0xFF (b01 e.tokens.isNone) e.addr (cursorBits pos e.addr) e.stroke)
    | _, _ => []
  let rem : List (Nat × List Byte) := (f.remote.filter fun r => some (r.getD 0 0) = key).map fun r =>
    let a := r.getD 2 0 * 2 ^ 19 + r.getD 3 0 * 2 ^ 14 + r.getD 4 0
    (r.getD 1 0 * 2 ^ 24 + a, matchRecord (r.getD 5 0) (r.getD 7 0) 2 (r.getD 1 0) 1 (r.getD 6 0) (cursorBits (r.getD 1 0) a) 0)
  let local_ := ((own ++ rem).mergeSort fun a b => decide (a.1 ≤ b.1)).map (·.2)
  let cut := local_.take (w.d.b 34 1)
  let best0 := match key with
    | some k => qy.b0 + k + 1
    | none => 0
  let pel := (f.asked.mergeSort (· ≤ ·)).map fun m =>
    match kvFind f.replies m with
    | some p => matchRecord (leAt p 4 4) (leAt p 0 4) 3 m 1 (leAt p 8 4) 0 (leAt p 12 6)
    | none => matchRecord 0 0 4 m 1 0 0 0
  let bestP := (f.replies.map fun r => leAt r.2 0 4).foldl max 0
  (cut ++ pel, max best0 bestP)

/-- A finished FIND or NEXT latched with its summary and records (R235, R236). -/
def State.finishFind (s : State) (w : Work) : State :=
  match w.aux with
  | .find f =>
    (match w.stop with
      | some (st, dt) => s.latch w.id st dt 0
      | none =>
        let (recs, best) := s.findRecords w f
        let replied := f.replies.length
        let flags := f.flags % 16 ||| (if f.builtin then 8 else 0)
        let summary := leBytes 4 best ++ leBytes 4 f.cycles ++ leBytes 1 flags ++ leBytes 1 f.asked.length ++ leBytes 1 replied ++ zeros 21
        let fl := (if f.flags / 16 % 2 = 1 then flVERIFY else 0) ||| (if f.multi then flMULTI else 0)
        ((s.updWork w.id fun w => { w with results := summary :: recs, flags := w.flags ||| fl }).latch w.id stDONE (min best 65535) 0))
  | _ => s

/-! ### INSERT and REMOVE (R229, R238 to R241, R257) -/

/-- The tokens of a block in a token sector of a region's stream: sector and slot. -/
def State.placeTokens (s : State) (tid : Nat) (toks : List Byte) : State × Nat × Nat :=
  let s0 := s.needChain tid
  let idx := s0.ownIdx tid
  let (s1, a, k) : State × Nat × Nat :=
    match (s0.stream idx).bind (·.tok) with
    | some (a, k) => if k < 8 then (s0, a, k) else let (t, a) := s0.firstWrite.placeSectors idx 1; (t, a, 0)
    | none => let (t, a) := s0.firstWrite.placeSectors idx 1; (t, a, 0)
  let old := (kvFind s1.flash.media a).getD (zeros 4096)
  let new := old.take (512 * k) ++ padTo 512 toks ++ old.drop (512 * k + 512)
  let s2 := s1.setFlash fun x => { x with media := kvSet x.media a new }
  let s3 := match s2.stream idx with
    | some w => s2.setStream { w with tok := some (a, k + 1) }
    | none => s2
  (s3, a, k)

/-- One entry written with its record and shadow, and its log records (R238 steps 2 to 7, R257). -/
def State.insertEntry (s : State) (q : Seq) (ns block addr : Nat) (low : Bool) (key toks : List Byte) : State :=
  let u := s.nsUnits ns
  let e : Entry :=
    { addr := addr, width := u, units := unitsOf u ns block key, ns := ns, sid := q.sid, block := block, stroke := s.stroke, key := key,
      tokens := some toks, low := low, pend := none }
  let s1 := s.setSrch fun x => { x with entries := x.entries ++ [e] }
  let (s2, sec, slot) := s1.placeTokens q.tid toks
  ([recPrefix false low q.sid ns slot block sec, recPrefixKey 1 key, recPrefixKey 2 key, recPrefixKey 3 key].foldl
    (fun s r => s.logKv q.tid r) s2).add64 SRCH.SEARCHES_LO.off (u + 2)

/-- Entries a namespace holds. -/
def State.nsCount (s : State) (ns : Nat) : Nat := (s.srch.entries.filter (·.ns = ns)).length

/-- Blocks `i` to `upto - 1` of an INSERT; answers the first block not done and the cause. Keys given in a list are a hook's; `items` are the
query items of the chunk, from block `i0` on. -/
def State.insertBlocks (s : State) (w : Work) (q : Seq) (keys : Option (List (List Byte))) (items : List (List Byte × List Byte)) (i0 : Nat) :
    Nat → Nat → State × Option Nat
  | 0, _ => (s, none)
  | n + 1, i =>
    let d := w.d
    let ns := d.b 32 2
    let block := d.b 36 4 + i
    let low := bits (d.b 34 1) 0 1 = 1
    if (s.entryOf ns d.sid block).isSome then (s.updWork w.id fun w => w.endAt i).insertBlocks w q keys items i0 n (i + 1)
    else if q.len / q.bt ≤ block then (s, some dtNOT_SEALED)
    else
      match s.freeEntry (s.nsUnits ns) low with
      | none => (s, some dtCASSETTE_FULL)
      | some a =>
        if s.get SRCH.NS_ENTRY_CAP.ENTRIES ns ≤ s.nsCount ns then (s, some dtNS_CAP)
        else
          let (ik, toks) := items.getD (i - i0) ([], [])
          let parent := if block = 0 then some (zeros 32) else (s.entryOf ns d.sid (block - 1)).map (·.key)
          let key : Option (List Byte) :=
            match keys with
            | some ks => ks[i - i0]?
            | none => if !s.nsCard ns then some ik else parent.map fun p => nextKey p toks (s.nsSalt ns)
          match key with
          | none => (s, some dtNO_PARENT)
          | some k =>
            ((s.insertEntry q ns block a low k toks).updWork w.id fun w => w.endAt i).insertBlocks w q keys items i0 n (i + 1)

/-- Blocks a chunk of an update takes: up to 64 Sprocket cycles, and 16 shadows for an INSERT. -/
def State.updateBlocks (s : State) (w : Work) : Nat :=
  let u := s.nsUnits (w.d.b 32 2)
  min (w.d.b 40 4 - w.next) (if w.d.opcode = opINSERT then min (64 / (u + 2)) 16 else 64 / (u + 1))

/-- The next chunk of an INSERT or REMOVE: its chunks run one after another. -/
def State.decUpdate (s : State) (w : Work) : Dec :=
  let d := w.d
  let ns := d.b 32 2
  if s.halted || !w.run.isEmpty || s.forkTarget d.sid then .wait
  else
    let n := s.updateBlocks w
    let draw : Res6 := { Res6.zero with search := 1, dram := if d.opcode = opINSERT then n else 0 }
    let items := if d.opcode = opINSERT then s.items (d.b 48 8) (s.nsTokens ns) w.next n else []
    let plain (s : State) : Dec := .go s draw [] false (.blocks (w.next + n) items)
    if d.opcode = opINSERT ∧ s.nsHook ns then
      let m := s.boundSlot d.tid 2
      if m < 8 ∧ (s.slotState m = 2 ∨ s.slotState m = 3 ∨ s.slotState m = 4) then .wait
      else
        match s.resolveHook d.tid 2 (n * (s.hookLatency m 2 + 1)) w.id w.next with
        | .waits s1 => .hookWait s1
        | .builtin s1 =>
          -- built-in where no slot is bound (R22) or the design lacks the hook (R321); else the slot is not ACTIVE, or as if it were not (R309)
          if 8 ≤ m ∨ (s.slotState m = 1 ∧ !s.implements m 2) then plain s1 else .stop s1 stFAULT dtHOOK_UNAVAILABLE
        | .slot m =>
          let block := d.b 36 4 + w.next
          match (if block = 0 then some (zeros 32) else (s.entryOf ns d.sid (block - 1)).map (·.key)) with
          | none => .stop s stPARTIAL dtNO_PARENT
          | some prev =>
            let toks := (items.getD 0 ([], [])).2
            let s1 := (s.call m 2 w.id w.next 0 (s.hashRequest ns block prev toks)).takePort 2 (n * (s.hookLatency m 2 + 1))
            .go s1 draw [] false (.hashing m w.next n [] items)
    else plain s

/-- An INSERT that chains from a parent has none (R239). -/
def State.orphan (s : State) (d : Desc) : Bool :=
  s.nsCard (d.b 32 2) && decide (0 < d.b 36 4) && (s.entryOf (d.b 32 2) d.sid (d.b 36 4 - 1)).isNone

/-- The end of an update chunk. -/
def State.endUpdate (s : State) (w : Work) (r : Run) : State :=
  match s.seqBySid w.d.tid w.d.sid with
  | none => s
  | some q =>
    let (upto, keys, items) : Nat × Option (List (List Byte)) × List (List Byte × List Byte) := match r.res with
      | .blocks u items => (u, none, items)
      | .hashing _ first n keys items => (first + n, some keys, items)
      | _ => (r.idx, none, [])
    if w.d.opcode = opINSERT ∧ r.idx = 0 ∧ s.orphan w.d then s.updWork w.id fun w => w.stopWith stPARTIAL dtNO_PARENT
    else if w.d.opcode = opINSERT then
      let (s1, c) := s.insertBlocks w q keys items r.idx (upto - r.idx) r.idx
      match c with
      | none => s1
      | some dt => s1.updWork w.id fun w => w.stopWith stPARTIAL dt
    else
      ((List.range (upto - r.idx)).map (r.idx + ·)).foldl (fun s i =>
        let s1 := match s.entryOf (w.d.b 32 2) w.d.sid (w.d.b 36 4 + i) with
          | none => s
          | some e => s.removeEntry w.d.tid e
        s1.updWork w.id fun w => w.endAt i) s

/-- Cleared addresses that no search chunk holds any more are forgotten (R231). -/
def State.freeHeld (s : State) : State :=
  let now := s.searching
  s.setSrch fun x => { x with held := x.held.filter fun h => h.2.any now.contains }

/-- A finished INSERT or REMOVE. -/
def State.finishUpdate (s : State) (w : Work) : State := s.latchEnd w w.endStatus

/-- The next chunk of a search-unit descriptor. -/
def State.decSearch (s : State) (w : Work) : Dec :=
  if w.d.opcode = opFIND ∨ w.d.opcode = opNEXT then s.decFind w else s.decUpdate w

/-- A chunk's last key is in: the keys join the FIND's, tokens leave once the chain is whole, and the chunk searches (R226, R232). -/
def State.hashed (s : State) (w : Work) (r : Run) (keys : List (List Byte)) : State :=
  match w.aux with
  | .find f =>
    let f1 : FindSt := { f with keys := f.keys ++ keys }
    let (s1, f2) := if f1.keys.length = w.d.b 36 4 then s.askAll w f1 else (s, f1)
    let (s2, res) := s1.startSearch w f2 r.idx
    s2.updWork w.id fun w => { w with run := w.run.map fun x => if x.idx = r.idx then { x with res := res } else x }
  | _ => s

/-- A slot's key for a hashing chunk: the next call, or the chunk's last key (R310). -/
def State.hashNext (s : State) (w : Work) (r : Run) (key : List Byte) : State :=
  match r.res with
  | .hashing m first n keys items =>
    let ks := keys ++ [key]
    let s1 := s.updWork w.id fun w => { w with run := w.run.map fun x =>
      if x.idx = r.idx then { x with res := .hashing m first n ks items } else x }
    if n ≤ ks.length then (if w.d.opcode = opINSERT then s1 else s1.hashed w r ks)
    else
      let i := first + ks.length
      let block := if w.d.opcode = opINSERT then w.d.b 36 4 + i else i
      s1.call m 2 w.id r.idx 0 (s.hashRequest (w.d.b 32 2) block key (items.getD ks.length ([], [])).2)
  | _ => s

/-! ### Peloton search (R250, R251, R340) -/

/-- The payload of a MATCH_REPLY. -/
def replyBytes (blocks sid rcd stroke : Nat) (halted : Bool) : List Byte :=
  leBytes 4 blocks ++ leBytes 4 sid ++ leBytes 4 rcd ++ leBytes 6 stroke ++ leBytes 1 (b01 halted)

def PelReq.frame (r : PelReq) : Frame :=
  { typ := ftMATCH_TOKEN, vc := 1, nak := false, src := r.src, dst := 0, hops := 0, ring := 0, linkSeq := 0, ackSeq := 0, credits := 0,
    creditVc := 0, xid := r.xid, payload := [] }

/-- Keys of a request searched from the last down: every key once, the hits of the deepest verified under VERIFY_TRIES; each 64 cycles
are one search unit of the partition, and the request waits where the balance has none (R15, R229, R250). -/
def State.pelKeys (s : State) (p : Nat) (keys : List (List Byte)) : Nat → PelReq → State × PelReq
  | 0, r => (s, { r with left := some 0 })
  | k + 1, r =>
    let (e, t) : Option Entry × Tally :=
      if r.best.isSome then (none, { Tally.zero with cycles := 1 }) else s.wordHit r.ns k (keys.getD k []) 4096 none 0 Tally.zero
    let units := cdiv (t.cycles - r.credit) 64
    if (s.available p).search < units then (s, { r with left := some (k + 1) })
    else
      let best := match r.best, e with
        | none, some e => some (k, e.sid, e.addr, e.stroke)
        | b, _ => b
      ((s.draw p { Res6.zero with search := units }).tally t).pelKeys p keys k
        { r with credit := r.credit + 64 * units - t.cycles, best := best }

/-- One whole request served as far as the balance goes, and answered once every key is searched (R250). -/
def State.servePel (s : State) (r : PelReq) : State :=
  let tid := s.peerTenant r.src r.tid
  let gone (s : State) : State := s.setSrch fun x => { x with pel := x.pel.filter fun y => ¬ (y.src = r.src ∧ y.xid = r.xid) }
  let no (s : State) (h : Bool) : State := (gone s).answer r.frame ftMATCH_REPLY (replyBytes 0 0 0 0 h)
  if tid = 0 ∨ ¬ s.nsMine tid r.ns ∨ s.nsScope r.ns ≠ 2 then no s false
  else if s.halted then no s true
  else
    let keys := (List.range r.segs).flatMap fun i => (kvFind r.got i).getD []
    let (s1, r1) := s.pelKeys (s.partOf tid) keys (r.left.getD keys.length) r
    if r1.left ≠ some 0 then
      s1.setSrch fun x => { x with pel := x.pel.map fun y => if y.src = r.src ∧ y.xid = r.xid then r1 else y }
    else
      match r1.best with
      | none => no s1 false
      | some (k, sid, a, stroke) => (gone s1).answer r.frame ftMATCH_REPLY (replyBytes (k + 1) sid a stroke false)

/-- Whole requests that wait, served in order. -/
def State.servePels (s : State) : State :=
  (s.srch.pel.filter fun r => r.got.length = r.segs).foldl (fun s r => s.servePel r) s

/-- A token segment taken (R340). -/
def State.takeToken (s : State) (f : Frame) : State :=
  s.once f fun s =>
    let n := f.b 10 2
    let keys := (List.range n).map fun i => padTo 32 ((f.payload.drop (64 + 32 * i)).take 32)
    let seg := f.b 2 2
    let old := s.srch.pel.find? fun y => y.src = f.src ∧ y.xid = f.xid
    let r : PelReq := match old with
      | some r => { r with got := kvSet r.got seg keys }
      | none => { src := f.src, xid := f.xid, tid := f.b 12 2 % 1024, ns := f.b 0 2 % 4096, segs := f.b 4 2, got := [(seg, keys)], left := none, credit := 0,
                  best := none }
    let s1 := s.setSrch fun x => { x with pel := x.pel.filter (fun y => ¬ (y.src = f.src ∧ y.xid = f.xid)) ++ [r] }
    if r.got.length = r.segs then s1.servePel r else s1

/-- MATCH_TOKEN (R250). -/
def execMatchToken (port : Nat) (f : Frame) (s : State) : Res := .next (s.receive port ftMATCH_TOKEN f fun s f => s.takeToken f)

/-- A reply recorded for the FIND that waits (R251); a late one is discarded. -/
def State.takeReply (s : State) (f : Frame) : State :=
  match s.txn f.xid with
  | none => s
  | some t =>
    if t.typ ≠ ftMATCH_TOKEN ∨ t.member ≠ f.src then s
    else
      (s.endTxn f.xid).updWork t.work fun w =>
        match w.aux with
        | .find g =>
          if g.waitEnd.isNone then w
          else
            let h : FindSt := { g with replies := kvSet g.replies f.src (padTo 19 f.payload),
                                       flags := g.flags ||| (if f.b 18 1 % 2 = 1 then 4 else 0) }
            { w with aux := .find h }
        | _ => w

/-- A FIND or NEXT settled when it is complete. -/
def State.settleFind (s : State) (id : Nat) : State :=
  match s.work id with
  | none => s
  | some w => if s.findDone w then s.finishFind w else s

/-- CASCADE_WORD (R246, R248): a word with a failing CRC is discarded. -/
def execCascadeWord (c : CascadeWord) (s : State) : Res :=
  if !s.working || s.dom 19 == domOFF || !wordOk c then .next s
  else if c.origin = s.get SRCH.ENUM_STATUS.POSITION then
    let id := ((s.srch.casc.find? (·.tag = c.tag)).map (·.work)).getD s.wk.next
    .next ((s.ownWord c).settleFind id)
  else .next (s.passWord c)

/-- CASCADE_WAIT_EXPIRY is due on a tag (R248). -/
def State.cascDue (s : State) (tag : Nat) : Bool :=
  s.srch.casc.any fun o => o.tag == tag && decide (o.sent + s.get SRCH.CASCADE_WAIT.STROKES < s.stroke)

/-- A word that did not return is reissued once, then counted as lost. -/
def State.cascExpire (s : State) (tag : Nat) : State :=
  match s.srch.casc.find? (·.tag = tag) with
  | none => s
  | some o =>
    if !o.again then
      (s.setSrch fun x => { x with casc := x.casc.map fun y => if y.tag = tag then { y with again := true, sent := s.stroke } else y }).emit
        (.cascade o.word)
    else
      (((s.setSrch fun x => { x with casc := x.casc.filter (·.tag ≠ tag) }).sat SRCH.RING_LOSSES.COUNT).updWork o.work fun w =>
        match w.aux with
        | .find f => { w with aux := .find { f with words := f.words.filter (· ≠ tag), flags := f.flags ||| 2 } }
        | _ => w).settleFind o.work

/-- CASCADE_WAIT_EXPIRY (R248). -/
def execCascadeWaitExpiry (tag : Nat) (s : State) : Res := .next (if s.working && s.cascDue tag then s.cascExpire tag else s)

/-- MATCH_REPLY (R251). -/
def execMatchReply (port : Nat) (f : Frame) (s : State) : Res :=
  .next (s.receive port ftMATCH_REPLY f fun s f =>
    let id := ((s.txn f.xid).map (·.work)).getD s.wk.next
    (s.takeReply f).settleFind id)

/-- PELOTON_WAIT_EXPIRY is due on a work (R251). -/
def State.pelDue (s : State) (id : Nat) : Bool :=
  (s.work id).any fun w => match w.aux with
    | .find f => f.waitEnd.any (· < s.stroke)
    | _ => false

/-- The reply timer fires: the FIND completes with what is verified by then; members without a reply are given up, their transactions
end, its chunks and the words it still awaits go (R251). -/
def State.pelExpire (s : State) (id : Nat) : State :=
  match s.work id with
  | none => s
  | some w =>
    let s1 := s.setChain fun c => { c with txns := c.txns.filter fun t => ¬ (t.typ = ftMATCH_TOKEN ∧ t.work = id) }
    let s2 := w.run.foldl (fun s r => (s.dropCalls id r.idx).dropRun id r) s1
    let s3 := s2.setSrch fun x => { x with casc := x.casc.filter (·.work ≠ id) }
    let s4 := s3.updWork id fun w => match w.aux with
      | .find f => { w with aux := .find { f with waitEnd := none } }
      | _ => w
    match s4.work id with
    | none => s4
    | some w => s4.freeHeld.finishFind w

/-- PELOTON_WAIT_EXPIRY (R251). -/
def execPelotonWaitExpiry (work : Nat) (s : State) : Res := .next (if s.working && s.pelDue work then s.pelExpire work else s)

/-! ### The Brake (R252) -/

def brakeEdges : List Int := [85, 95, 100, 105]

/-- The step a temperature gives from the step in force: a step is left downward only below its lower edge less 2 °C. -/
def brakeStep (t : Int) : Nat → Nat
  | 0 => (brakeEdges.filter (· ≤ t)).length
  | n + 1 =>
    let nat := (brakeEdges.filter (· ≤ t)).length
    if n + 1 ≤ nat then nat else if t < brakeEdges.getD n 0 - 2 then brakeStep t n else n + 1

def brakePercent (step : Nat) : Nat := if step = 0 then 100 else if step = 1 then 75 else if step = 2 then 50 else 25

/-- The step in force. -/
def State.brakeNow (s : State) : Nat :=
  if s.halted then 4
  else
    let p := s.get SRCH.BRAKE_STATUS.PERCENT
    if p = 100 then 0 else if p = 75 then 1 else if p = 50 then 2 else 3

/-- BRAKE_SAMPLE (R252): the local dies' temperatures; the step waits for the next boundary. -/
def execBrakeSample (temps : List Int) (s : State) : Res :=
  if !s.up || s.dom 19 == domOFF then .next s
  else
    let ts := temps.take 4
    let hot := ts.foldl max (-128)
    let byte (t : Int) : Nat := (t % 256).toNat
    let word := ((List.range 4).map fun i => byte (ts.getD i 0) * 256 ^ i).foldl (· + ·) 0
    let s1 := (s.setReg SRCH.DIE_TEMP.off (BitVec.ofNat 32 word)).put SRCH.BRAKE_STATUS.HOTTEST_C (byte hot)
    .next (s1.setSrch fun x => { x with brakeNext := some (brakeStep hot s.brakeNow) })

/-- The step measured takes effect (R51, R252), at a boundary. -/
def State.brakeApply (s : State) : State :=
  match s.srch.brakeNext with
  | none => s
  | some n => ((s.put SRCH.BRAKE_STATUS.PERCENT (brakePercent n)).put SRCH.BRAKE_STATUS.HALTED (b01 (n == 4))).setSrch fun x =>
      { x with brakeNext := none }

/-! ### Bank widths (R255) -/

/-- Free entries of a bank at its width. -/
def State.bankRoom (s : State) (b : Nat) : Nat := 2 ^ 14 / s.bankUnits b - (s.bankTaken b).length

def State.bankValid (s : State) (b : Nat) : Nat := (s.srch.entries.filter fun e => e.addr / 2 ^ 14 = b).length

/-- The bank a register instance names: die × 32 + bank. -/
def instBank (i : Nat) : Nat := i % 4 * 32 + i / 256 % 32

def sisterOf (b : Nat) : Nat := if b % 2 = 0 then b + 1 else b - 1

/-- The cause that refuses a reshape, 0 for none. -/
def State.reshapeCause (s : State) (b : Nat) : Nat :=
  if s.srch.reshape.any fun r => r.1 == b || r.1 == sisterOf b then 3
  else if s.bankUnits (sisterOf b) ≠ s.bankUnits b then 1
  else if s.bankRoom (sisterOf b) < s.bankValid b then 2 else 0

/-- SRCH.BANK_CTRL (R255): a width written for an empty bank in CONFIGURE, which R524 takes as written only when it changes; RESHAPE. -/
def hBankCtrl : Handler :=
  { Handler.plain with
    chk := fun s i old v =>
      (fieldGet v 0 2 != fieldGet old 0 2 && (s.phase != phCONFIGURE || s.bankValid (instBank i) != 0)) || fieldGet v 0 2 == 0 ||
        fieldGet v 4 2 == 0
    chg := fun s i old v => if fieldGet v 0 2 ≠ fieldGet old 0 2 then s.put SRCH.BANK_STATUS.WIDTH (fieldGet v 0 2) i else s
    act := fun s i v =>
      let b := instBank i
      if fieldGet v 8 1 = 0 then s
      else
        let c := s.reshapeCause b
        if c ≠ 0 then
          let s2 := s.put SRCH.BANK_STATUS.REFUSE_CAUSE c i
          if s.srch.reshape.any (·.1 = b) then s2 else s2.put SRCH.BANK_STATUS.STATE 3 i
        else ((s.put SRCH.BANK_STATUS.STATE 1 i).put SRCH.BANK_STATUS.REFUSE_CAUSE 0 i).setSrch fun x =>
          { x with reshape := x.reshape ++ [(b, fieldGet v 4 2)] } }

/-- RESHAPE (R255). -/
def execReshape (s : State) : Res := .next (bar0Bit hBankCtrl SRCH.BANK_CTRL.RESHAPE s)

/-- One entry of a drained bank moved to the sister with its record and shadow, its old address held while a search chunk runs (R231,
R255): an insert's and a remove's cycles. -/
def State.moveEntry (s : State) (e : Entry) : State :=
  let sis := sisterOf (e.addr / 2 ^ 14)
  match s.bankFree sis (s.bankUnits sis) e.low with
  | none => s
  | some a =>
    ((s.holdEntry e.addr).setSrch fun x => { x with entries := x.entries.map fun y => if y.addr = e.addr then { y with addr := a } else y }).add64
      SRCH.SEARCHES_LO.off (2 * e.width + 3)

/-- RESHAPE_DRAIN_DONE (R255): the bank's entries are in the sister, its rows are cleared, the width waits for the boundary. While the
sister has too little room, which inserts may have taken since, the drain is not done (DEDUCED, log 112). -/
def execReshapeDrainDone (bank : Nat) (s : State) : Res :=
  match s.srch.reshape.find? (·.1 = bank) with
  | none => .next s
  | some r =>
    if !s.working || s.halted || s.get SRCH.BANK_STATUS.STATE (bankInst bank) != 1 ||
        decide (s.bankRoom (sisterOf bank) < s.bankValid bank) then .next s
    else
      let es := (s.srch.entries.filter fun e => e.addr / 2 ^ 14 = bank).mergeSort fun a b => decide (a.addr ≤ b.addr)
      let s1 := es.foldl (fun s e => s.moveEntry e) s
      .next ((s1.put SRCH.BANK_STATUS.STATE 2 (bankInst bank)).atBoundary (.bankWidth (bankInst bank) r.2))

/-- The new width in force. -/
def State.bankWidthNow (s : State) (inst w : Nat) : State :=
  ((s.put SRCH.BANK_STATUS.WIDTH w inst).put SRCH.BANK_STATUS.STATE 0 inst).setSrch fun x =>
    { x with reshape := x.reshape.filter (·.1 ≠ instBank inst) }

/-! ### Adopted shadows (R258) -/

/-- SHADOW_TOKENS_RESTORED (R258): the token list of an entry, by address, read back from the slot its log record names. -/
def execShadowTokensRestored (entry : Nat) (s : State) : Res :=
  match s.srch.entries.find? (·.addr = entry) with
  | none => .next s
  | some e =>
    match (if s.working && e.tokens.isNone then e.pend else none) with
    | none => .next s
    | some (sec, slot) =>
      let toks := (((kvFind s.flash.media sec).getD (zeros 4096)).drop (512 * slot)).take (4 * s.nsTokens e.ns)
      .next (s.setSrch fun x => { x with entries := x.entries.map fun y =>
        if y.addr = entry then { y with tokens := some toks, pend := none } else y }).notePending

/-! ### Registers (R259) -/

/-- SRCH.NS_CTRL. -/
def hNsCtrl : Handler :=
  { Handler.plain with
    chk := fun s ns old v =>
      let on := fieldGet old 31 1 == 1
      (on && fieldGet old 0 19 != fieldGet v 0 19) || (on && fieldGet v 31 1 == 0 && s.nsCount ns != 0) ||
        (fieldGet v 0 10 != fieldGet old 0 10 && (fieldGet v 0 10 == 0 || s.tenState (fieldGet v 0 10) == 0)) ||
        fieldGet v 10 2 == 0 || outside (fieldGet v 12 3) 2 7 || fieldGet v 17 2 == 3 }

/-- SRCH.VERIFY_TRIES takes 1 to 8. -/
def hVerifyTries : Handler := { Handler.plain with chk := fun _ _ _ v => outside (fieldGet v 0 4) 1 8 }

/-- SRCH.CASCADE_WAIT and PELOTON_WAIT take 1 to 65,535. -/
def hSearchWait : Handler := { Handler.plain with chk := fun _ _ _ v => fieldGet v 0 16 == 0 }

end Sys2Proof.Machine
end

