-- ==== Sys2Proof/Machine/Power.lean ====
section
/-! DEFINITION. Reset and the bring-up phases of chapter 3: the conditions that hold the card in reset, the state at reset
exit, DRAM training, PF0 ready, the release write. -/

namespace Sys2Proof.Machine

/-- What a whole-card reset leaves: every register, key, table, page and image gone (R20, R55, R56). Flash, host memory,
the pins, and the model's own fields (queue, outputs, free-value counter) stay. -/
def State.wipe (s : State) : State :=
  { State.reset with
    pending := s.pending, regs := [], hmem := s.hmem, out := s.out, free := s.free, flash := s.flash.atReset,
    pw := { PowerSt.init with inA := s.pw.inA, inB := s.pw.inB, perst := s.pw.perst, resetIn := s.pw.resetIn,
                              casPos := s.pw.casPos, casSize := s.pw.casSize, cxlLink := s.pw.cxlLink,
                              temps := s.pw.temps, vin := s.pw.vin, pin := s.pw.pin, tripHold := s.pw.tripHold,
                              causes := s.pw.causes, expiryNext := s.pw.expiryNext, held := s.pw.held } }

/-- Entry into reset, or one more condition of the present reset: `cause` is the RESET_CAUSE bit (R54). A running card is
wiped as it enters. -/
def State.intoReset (s : State) (cause : Nat) : State :=
  if s.pw.held then { s with pw := { s.pw with causes := s.pw.causes ||| cause } }
  else
    let t := s.wipe
    { t with pw := { t.pw with held := true, causes := cause, expiryNext := 0#32 } }

/-- A condition of R54 holds. -/
def State.resetCondition (s : State) : Bool := !s.pw.inA || !s.pw.inB || s.pw.perst || s.pw.resetIn || s.pw.tripHold

/-- POWER_INPUT_CHANGE (R495, R54, R11): an input leaving tolerance puts the card into reset and drops the holds, since
the wiped card's pairs read CLOSED (R497, R21). -/
def execPowerInputChange (input : Nat) (inTol : Bool) (s : State) : Res :=
  let s1 := if inTol then s else s.intoReset 1
  .next { s1 with pw := if input = 0 then { s1.pw with inA := inTol } else { s1.pw with inB := inTol } }

/-- PERST_CHANGE (R54): assertion holds the card in reset, deassertion ends that condition. -/
def execPerstChange (asserted : Bool) (s : State) : Res :=
  let s1 := if asserted then s.intoReset 2 else s
  .next { s1 with pw := { s1.pw with perst := asserted } }

/-- RESET_IN_CHANGE (R511): a recognised low level acts in full; deassertion ends the condition of R54. -/
def execResetInChange (asserted : Bool) (s : State) : Res :=
  let s1 := if asserted then s.intoReset 8 else s
  .next { s1 with pw := { s1.pw with resetIn := asserted } }

/-- HOT_RESET (R56, R54): a whole-card reset; without effect while the card is held in reset. -/
def execHotReset (s : State) : Res := .next (if s.pw.held then s else s.intoReset 4)

/-- FLR_PF0 (R56, R54): a whole-card reset; without effect while the card is held in reset. -/
def execFlrPf0 (s : State) : Res := .next (if s.pw.held then s else s.intoReset 32)

/-- RESET_EXIT (R54, R55, R26, R508, R466): with no condition left, the card leaves reset: counter 0, boot ROM, RESET_CAUSE
and LAST_EXPIRY set, straps sampled. -/
def execResetExit (s : State) : Res :=
  if !s.pw.held || s.resetCondition then .next s
  else
    let s1 := { s with stroke := 0, pw := { s.pw with held := false, causes := 0, expiryNext := 0#32, trip := 0 } }
    let s2 := (s1.put SYS.RESET_CAUSE.CAUSE s.pw.causes).setReg WDOG.LAST_EXPIRY.off s.pw.expiryNext
    .next ((s2.put SRCH.ENUM_STATUS.POSITION s.pw.casPos).put SRCH.ENUM_STATUS.SIZE_M1 s.pw.casSize)

/-- DRAM_TRAINING_DONE (R56, R57): the stack shows TRAINED, or FAILED and the card enters FAULT (class FATAL). -/
def execDramTrainingDone (stack : Nat) (ok : Bool) (s : State) : Res :=
  let b := 2 ^ (stack % 8)
  if s.pw.held ∨ s.get SYS.DRAM_STATUS.TRAINED / b % 2 = 1 ∨ s.get SYS.DRAM_STATUS.FAILED / b % 2 = 1 then .next s
  else if ok then .next (s.put SYS.DRAM_STATUS.TRAINED (s.get SYS.DRAM_STATUS.TRAINED ||| b))
  else .next (((s.put SYS.DRAM_STATUS.FAILED (s.get SYS.DRAM_STATUS.FAILED ||| b)).fault clsFATAL (stack % 8) 0).enterFault)

/-- PF0_READY (R57): from ROM the card enters LOAD. -/
def execPf0Ready (s : State) : Res :=
  .next (if s.pw.held ∨ s.phase ≠ phROM then s else s.toPhase phLOAD)

/-- SYS.BRINGUP_CTRL: a RELEASE is evaluated in step 5 of the next boundary; in RELEASED it has no effect (R67). -/
def hBringupCtrl : Handler :=
  { Handler.plain with
    act := fun s _ v =>
      if fieldGet v 0 1 = 1 ∧ s.phase ≠ phRELEASED ∧ ¬ s.flag SYS.BRINGUP_CTRL.RELEASE then
        (s.put SYS.BRINGUP_CTRL.RELEASE 1).atBoundary .release
      else s }

/-- RELEASE (R67): the installer's release write. -/
def execReleaseCmd (s : State) : Res := .next (bar0 hBringupCtrl SYS.BRINGUP_CTRL.off 1#32 s)

/-- States a region's index can have that matter to a release: 1 UNDECIDED, 2 ADOPTING, 4 SCRUBBING, 7 FAILED. -/
def State.regionState (s : State) (i : Nat) : Nat := s.get TIER.REGION_INFO.STATE i

/-- The release's cause of refusal, 0 for none (R67): 5 in FAULT, else the lowest that holds. -/
def State.releaseCause (s : State) : Nat :=
  let idx := s.flash.found
  let latched (i : Nat) : Bool := s.flash.actions.any (·.index = i)
  if s.phase = phFAULT then 5
  else if ¬ s.flag TIER.LOG_SCAN_STATUS.DONE then 1
  else if idx.any (fun i => (s.regionState i = 1 ∨ s.regionState i = 7) ∧ ¬ latched i) then 2
  else if idx.any (fun i => s.regionState i = 2 ∨ s.regionState i = 4 ∨ latched i) then 3
  else if ¬ s.img.fwApplied then 4
  else 0

/-- The release evaluated in step 5 of the boundary (R67). -/
def State.evalRelease (s : State) : State :=
  let c := s.releaseCause
  let s1 := (s.put SYS.BRINGUP_CTRL.RELEASE 0).put SYS.BRINGUP_STATUS.REFUSE_CAUSE c
  if c = 0 then s1.toPhase phRELEASED else s1.put SYS.BRINGUP_STATUS.RELEASE_REFUSED 1

end Sys2Proof.Machine
end

