-- ==== Sys2Proof/Machine/Wdog.lean ====
section
/-! DEFINITION. Watchdogs (chapter 19): units, windows, check-ins, the disable key, expiry, crash save and grace. The
always-on tick has no command of its own: it is what a step does while no command waits. -/

namespace Sys2Proof.Machine

/-- Length of the open window of a period (R449). -/
def wdWindow (p : Nat) : Nat := max 1 (p / 2 ^ Config.windowLog2)

/-- Whether a unit lies in the open window [P − W, P) (R449). -/
def wdInWindow (p unit : Nat) : Bool := p - wdWindow p ≤ unit && unit < p

/-- The maker's scan scope is open: both watchdogs and the clock-stop monitor are frozen (R465). -/
def State.scanOpen (s : State) : Bool := s.flag ROLE.MAKER_STATUS.SESSION && bits (s.get ROLE.MAKER_STATUS.SCOPE) 2 1 == 1

/-- Enabled tasks without a check-in in this period, system watchdog. -/
def State.sysMissing (s : State) : Nat := s.wd.sys.mask &&& (255 - s.get WDOG.SYS_TASKS.DONE)

/-- Enabled tasks without a check-in in this period, host-liveness watchdog. -/
def State.hostMissing (s : State) : Nat := s.wd.host.mask &&& (255 - s.get WDOG.HOST_STATUS.DONE)

/-! ### Expiry -/

/-- The base of the crash save area, 64 KiB aligned (R464). -/
def State.crashBase (s : State) : Nat := s.pair WDOG.CRASH_BASE_LO.off

/-- A core's 256-byte record at the trap (Table 19-4). What a core holds (PC, PRIVILEGE, TASK, registers) is free; STATE is halted for
a core that is halted, running for core 0 under the boot ROM (Table 3-1), and free for a core that firmware runs on. -/
def State.coreRecord (s : State) (c : Nat) : List Byte :=
  let b (i : Nat) : Byte := Config.coreRecord s.free c i
  let st : Nat := if bits s.wd.halted c 1 = 1 then 1 else if s.wd.halted ≠ 0 then 0 else (b 9).toNat % 3
  (List.range 8).map b ++ [b 8 % 2#8, BitVec.ofNat 8 st, 0#8, 0#8] ++ (List.range 244).map fun i => b (12 + i)

/-- The 16 core records at +0x0100 (Table 19-3). -/
def State.writeCores (s : State) : State :=
  if s.crashBase = 0 then s
  else
    let bs := (List.range 16).flatMap s.coreRecord
    (s.memWrite (s.crashBase + 0x100) bs).nextFree

/-- R460 and R463: FAULT, trap, core records, grace; after a core-clock stop only the hold and the grace timer. DEDUCED (log 102): a
core-clock stop does not move the phase to FAULT, since R463 lists all that the always-on domain then does. -/
def State.expireNow (s : State) (core : Bool) : State :=
  let g := s.get WDOG.GRACE.TICKS
  let arm (t : State) : State := { t with wd := { t.wd with grace := some g, qlimit := none } }
  if core then
    let t := arm s.dropHolds
    { t with wd := { t.wd with coreStop := true } }
  else arm ((s.fault clsFATAL 0 0).enterFault.writeCores)

/-- The header a first expiry fills. -/
def State.newHdr (s : State) (wd cause domain missing seq : Nat) : CrashHdr :=
  { watchdog := wd, cause := cause, domain := domain, missing := missing, phase := s.phase, quiesce := 0, seq := seq,
    stroke := s.stroke }

/-- An expiry: bit 1 system, bit 2 host-liveness (R460, R461, R465). -/
def State.expire (s : State) (host : Bool) (cause domain missing seq : Nat) : State :=
  let bit := if host then 2 else 1
  let core := cause = 4 ∧ domain = 0
  match s.wd.hdr with
  | some h =>
    -- During grace or the power-down: only what the first expiry left at zero; a system expiry cuts a power-down.
    let h1 := { h with watchdog := h.watchdog ||| bit, missing := if h.missing = 0 then missing else h.missing }
    if s.wd.qlimit.isSome ∧ ¬ host then
      ({ s with wd := { s.wd with hdr := some { h1 with quiesce := 3 } } }).expireNow core
    else { s with wd := { s.wd with hdr := some h1 } }
  | none =>
    let s1 := { s with wd := { s.wd with hdr := some (s.newHdr bit cause domain missing seq) } }
    if host ∧ s.flag WDOG.HOST_CTRL.ACTION ∧ s.phase = phRELEASED then
      let s2 := { s1 with wd := { s1.wd with qlimit := some (s.get WDOG.QUIESCE_LIMIT.TICKS) } }
      let s3 := s2.put TIER.QUIESCE_CTRL.START 1
      { s3 with tier := { s3.tier with quiesce := true } }
    else s1.expireNow core

/-- The crash header's 256 bytes (Table 19-4). -/
def crashHeader (h : CrashHdr) (logBytes fw : Nat) : List Byte :=
  let b := [0x57#8, 0x44#8, 0x43#8, 0x52#8] ++ leBytes 1 1 ++ leBytes 1 h.watchdog ++ leBytes 1 h.cause ++
    leBytes 1 h.domain ++ leBytes 1 h.missing ++ leBytes 1 h.phase ++ leBytes 1 h.quiesce ++ leBytes 1 h.seq ++
    leBytes 6 h.stroke ++ zeros 2 ++ leBytes 4 logBytes ++ leBytes 4 fw
  let p := padTo 252 b
  p ++ leBytes 4 (crc32c p).toNat

/-- WDOG.LAST_EXPIRY after the reset (R466, Table 19-5). -/
def expiryWord (h : CrashHdr) : Word :=
  BitVec.ofNat 32 (h.watchdog % 4 + h.cause % 8 * 2 ^ 2 + h.missing % 256 * 2 ^ 8 +
    (if h.cause = 4 then h.domain % 32 else 0) * 2 ^ 16)

/-- The end of grace: log and header written, then a whole-card reset with RESET_CAUSE[4] (R462, R463). -/
def State.graceEnd (s : State) (log : List Byte) : State :=
  match s.wd.hdr, s.wd.grace with
  | some h, some _ =>
    let log := log.take 61184
    let s1 :=
      if s.crashBase = 0 ∨ s.wd.coreStop then s
      else (s.memWrite (s.crashBase + 0x1100) log).memWrite s.crashBase
        (crashHeader h log.length (s.get SYS.FW_VERSION.VERSION))
    let s2 := s1.intoReset 16
    { s2 with pw := { s2.pw with expiryNext := expiryWord h } }
  | _, _ => s

/-- CRASH_DONE (R462): the trap handler's log is in the save area and the card resets. -/
def execCrashDone (log : List Byte) (s : State) : Res := .next (if s.pw.held || s.wd.coreStop then s else s.graceEnd log)

/-- The grace timer stands at its last tick. -/
def State.graceDue (s : State) : Bool :=
  match s.wd.grace with
  | some n => n ≤ 1
  | none => false

/-- GRACE_EXPIRY (R462): the last tick of grace. -/
def execGraceExpiry (s : State) : Res := .next (if !s.pw.held && s.graceDue then s.graceEnd [] else s)

/-- The power-down's limit is reached: QUIESCE 2, then R460 (R461). -/
def State.quiesceLimit (s : State) : State :=
  match s.wd.hdr, s.wd.qlimit with
  | some h, some _ => ({ s with wd := { s.wd with hdr := some { h with quiesce := 2 }, qlimit := none } }).expireNow false
  | _, _ => s

/-- QUIESCE_LIMIT stands at its last tick. -/
def State.qlimitDue (s : State) : Bool :=
  match s.wd.qlimit with
  | some n => n ≤ 1
  | none => false

/-- QUIESCE_LIMIT_EXPIRY (R461). -/
def execQuiesceLimitExpiry (s : State) : Res := .next (if s.up && s.qlimitDue then s.quiesceLimit else s)

/-! ### Units -/

/-- COUNT and IN_WINDOW of the system watchdog. -/
def State.setSysCount (s : State) (c : Nat) : State :=
  (s.put WDOG.SYS_STATUS.COUNT c).put WDOG.SYS_STATUS.IN_WINDOW (b01 (wdInWindow s.wd.sys.period c))

/-- COUNT and IN_WINDOW of the host-liveness watchdog. -/
def State.setHostCount (s : State) (c : Nat) : State :=
  (s.put WDOG.HOST_COUNT.COUNT c).put WDOG.HOST_STATUS.IN_WINDOW (b01 (wdInWindow s.wd.host.period c))

/-- A new period of the system watchdog: unit 0, SEQ advanced, tasks cleared, the written period in force (R450, R452). -/
def State.sysPeriod (s : State) : State :=
  let s1 := { s with wd := { s.wd with sys := { s.wd.sys with period := s.get WDOG.SYS_PERIOD.TICKS, served := false } } }
  ((s1.put WDOG.SYS_TASKS.SEQ ((s.get WDOG.SYS_TASKS.SEQ + 1) % 256)).put WDOG.SYS_TASKS.DONE 0).setSysCount 0

/-- A new period of the host-liveness watchdog; the first has SEQ 0 (R450, R452, R454). -/
def State.hostPeriod (s : State) : State :=
  let seq := if s.wd.host.starting then 0 else (s.get WDOG.HOST_STATUS.SEQ + 1) % 256
  let s1 := { s with wd := { s.wd with host :=
    { running := true, period := s.get WDOG.HOST_PERIOD.UNITS, mask := s.get WDOG.HOST_TASKS.MASK, served := false,
      starting := false } } }
  ((s1.put WDOG.HOST_STATUS.SEQ seq).put WDOG.HOST_STATUS.DONE 0).setHostCount 0

/-- The system watchdog expires by TIMEOUT (Table 19-2). -/
def State.sysTimeout (s : State) : State :=
  let m := s.sysMissing
  let s1 := { s with wd := { s.wd with sys := { s.wd.sys with running := false } } }
  s1.expire false 1 0xFF m (s.get WDOG.SYS_TASKS.SEQ)

/-- The host-liveness watchdog expires by TIMEOUT. -/
def State.hostTimeout (s : State) : State :=
  let m := s.hostMissing
  let s1 := { s with wd := { s.wd with host := { s.wd.host with running := false } } }
  s1.expire true 1 0xFF m (s.get WDOG.HOST_STATUS.SEQ)

/-- One unit of the system watchdog passes. -/
def State.sysUnit (s : State) : State :=
  if !s.wd.sys.running then s
  else
    let c := s.get WDOG.SYS_STATUS.COUNT
    if s.wd.sys.served then s.sysPeriod
    else if s.wd.sys.period ≤ c + 1 then (if s.sysMissing = 0 then s.sysPeriod else s.sysTimeout)
    else s.setSysCount (c + 1)

/-- One unit of the host-liveness watchdog passes. -/
def State.hostUnit (s : State) : State :=
  if !s.wd.host.running then s
  else
    let c := s.get WDOG.HOST_COUNT.COUNT
    if s.wd.host.served || s.wd.host.starting then s.hostPeriod
    else if s.wd.host.period ≤ c + 1 then (if s.hostMissing = 0 then s.hostPeriod else s.hostTimeout)
    else s.setHostCount (c + 1)

/-- One tick of the always-on clock: watchdog units, the grace timer, the power-down limit (R449, R457, R461, R462). -/
def State.tick (s : State) : State :=
  if s.pw.held || s.scanOpen then s
  else
    let s1 :=
      match s.wd.grace with
      | some n => if n ≤ 1 then s.graceEnd [] else { s with wd := { s.wd with grace := some (n - 1) } }
      | none =>
        match s.wd.qlimit with
        | some n => if n ≤ 1 then s.quiesceLimit else { s with wd := { s.wd with qlimit := some (n - 1) } }
        | none => s
    if s1.pw.held || s1.wd.coreStop then s1
    else
      let s2 := s1.sysUnit
      if s2.flag WDOG.HOST_CTRL.CLOCK then s2 else s2.hostUnit

/-- WATCHDOG_TIMEOUT (R451): unit P − 1 ends with an enabled task missing. -/
def execWatchdogTimeout (host : Bool) (s : State) : Res :=
  if !s.up || s.scanOpen then .next s
  else if host then
    .next (if s.wd.host.running && !s.wd.host.served && !s.wd.host.starting && s.hostMissing != 0 &&
        decide (s.wd.host.period ≤ s.get WDOG.HOST_COUNT.COUNT + 1) then s.hostTimeout else s)
  else
    .next (if s.wd.sys.running && !s.wd.sys.served && s.sysMissing != 0 &&
        decide (s.wd.sys.period ≤ s.get WDOG.SYS_STATUS.COUNT + 1) then s.sysTimeout else s)

/-! ### Check-ins -/

/-- SYS_CHECKIN (R450, R451): accepted, serving the period with the last one missing, or an expiry EARLY or BAD_SEQ. -/
def execSysCheckin (task seq : Nat) (s : State) : Res :=
  if !s.up || s.scanOpen || !s.wd.sys.running || bits s.wd.sys.mask task 1 != 1 then .next s
  else if !wdInWindow s.wd.sys.period (s.get WDOG.SYS_STATUS.COUNT) || s.wd.sys.served then
    .next (if s.wd.sys.served then s else
      ({ s with wd := { s.wd with sys := { s.wd.sys with running := false } } }).expire false 2 0xFF s.sysMissing
        (s.get WDOG.SYS_TASKS.SEQ))
  else if seq ≠ s.get WDOG.SYS_TASKS.SEQ then
    .next (({ s with wd := { s.wd with sys := { s.wd.sys with running := false } } }).expire false 3 0xFF s.sysMissing
      (s.get WDOG.SYS_TASKS.SEQ))
  else
    let s1 := s.put WDOG.SYS_TASKS.DONE (s.get WDOG.SYS_TASKS.DONE ||| 2 ^ task)
    .next (if s1.sysMissing = 0 then { s1 with wd := { s1.wd with sys := { s1.wd.sys with served := true } } } else s1)

/-- The cause for which a check-in expires the host-liveness watchdog: 2 EARLY, 3 BAD_SEQ, 0 for none (R451). -/
def State.checkinCause (s : State) (seq : Nat) : Nat :=
  if s.wd.host.starting ∨ ¬ wdInWindow s.wd.host.period (s.get WDOG.HOST_COUNT.COUNT) then 2
  else if seq ≠ s.get WDOG.HOST_STATUS.SEQ then 3 else 0

/-- WDOG.HOST_CHECKIN (R450, R451): a task that is not enabled is refused with cause 2. An expiry follows the write's own audit entry (R107). -/
def hHostCheckin : Handler :=
  { Handler.plain with
    chk := fun s _ _ v => !s.wd.host.running || bits s.wd.host.mask (fieldGet v 0 3) 1 != 1
    act := fun s _ v =>
      let task := fieldGet v 0 3
      let seq := fieldGet v 8 8
      if s.scanOpen ∨ s.wd.host.served ∨ s.checkinCause seq ≠ 0 then s
      else
        let s1 := s.put WDOG.HOST_STATUS.DONE (s.get WDOG.HOST_STATUS.DONE ||| 2 ^ task)
        if s1.hostMissing = 0 then { s1 with wd := { s1.wd with host := { s1.wd.host with served := true } } } else s1
    post := fun s v =>
      let c := s.checkinCause (fieldGet v 8 8)
      if s.scanOpen ∨ s.wd.host.served ∨ c = 0 then s
      else
        ({ s with wd := { s.wd with host := { s.wd.host with running := false } } } : State).expire true c 0xFF s.hostMissing
          (s.get WDOG.HOST_STATUS.SEQ) }

/-- HOST_CHECKIN (R450): a write of WDOG.HOST_CHECKIN. -/
def execHostCheckin (val : Word) (s : State) : Res := .next (bar0 hHostCheckin WDOG.HOST_CHECKIN.off val s)

/-- WDOG.HOST_DISABLE (R455): 0x5D70, then 0xA28F in the same or the next Stroke; anything else is refused. -/
def hHostDisable : Handler :=
  { Handler.plain with
    chk := fun s _ _ v =>
      match s.wd.key1 with
      | none => fieldGet v 0 16 != 0x5D70
      | some a => fieldGet v 0 16 != 0xA28F || a + 1 < s.stroke
    act := fun s _ v =>
      if fieldGet v 0 16 = 0x5D70 then { s with wd := { s.wd with key1 := some s.stroke } }
      else
        let s1 := { s with wd := { s.wd with key1 := none, host := { s.wd.host with running := false, served := false,
                                                                                     starting := false } } }
        let s2 := (s1.put WDOG.HOST_CTRL.ENABLE 0).put WDOG.HOST_COUNT.COUNT 0
        s2.setReg WDOG.HOST_STATUS.off 0#32 }

/-- HOST_DISABLE (R455): one write of the key sequence. -/
def execHostDisable (key : Word) (s : State) : Res := .next (bar0 hHostDisable WDOG.HOST_DISABLE.off key s)

/-- WDOG.HOST_CTRL (R454): ENABLE with a zero task mask is refused; CLOCK and ACTION only while disabled. -/
def hHostCtrl : Handler :=
  { Handler.plain with
    chk := fun s _ old v =>
      (fieldGet v 0 1 == 1 && s.get WDOG.HOST_TASKS.MASK == 0) ||
      (s.flag WDOG.HOST_STATUS.ENABLED && fieldGet v 1 2 != fieldGet old 1 2)
    act := fun s _ v =>
      if fieldGet v 0 1 = 1 ∧ ¬ s.flag WDOG.HOST_CTRL.ENABLE then
        let s1 := { s with wd := { s.wd with host :=
          { running := true, period := s.get WDOG.HOST_PERIOD.UNITS, mask := s.get WDOG.HOST_TASKS.MASK, served := false,
            starting := true } } }
        ((s1.put WDOG.HOST_CTRL.ENABLE 1).setReg WDOG.HOST_STATUS.off 1#32).put WDOG.HOST_COUNT.COUNT 0
      else s }

/-- HOST_ENABLE (R454). -/
def execHostEnable (s : State) : Res := .next (bar0Bit hHostCtrl WDOG.HOST_CTRL.ENABLE s)

/-- A host-liveness period or task mask is written in the open window, or while the watchdog does not run; in range and
not zero (R452, Table 19-1). DEDUCED (log 12): the set-up steps write them before ENABLE, when no window is open. -/
def hHostPeriod (lo : Nat) : Handler :=
  { Handler.plain with
    chk := fun s _ old v =>
      old != v && ((s.wd.host.running && !s.flag WDOG.HOST_STATUS.IN_WINDOW) || v.toNat % 2 ^ 24 < lo) }

/-- WDOG.SYS_PERIOD is written in the open window, 328 to 1,048,575 (R452). -/
def hSysPeriod : Handler :=
  { Handler.plain with
    chk := fun s _ old v => old != v && (!s.flag WDOG.SYS_STATUS.IN_WINDOW || fieldGet v 0 20 < 328) }

/-- WDOG.GRACE is 33 to 65,535 (Table 19-5). -/
def hGrace : Handler := { Handler.plain with chk := fun _ _ _ v => fieldGet v 0 16 < 33 }

/-! ### The clock-stop monitor -/

/-- CLOCK_STOP_CHECK (R458, R463): of the clocks found stopped, those whose domain is RUNNING are recorded; the lowest is
a system expiry with CAUSE 4. -/
def execClockStopCheck (stopped : List Nat) (s : State) : Res :=
  if !s.up || s.scanOpen then .next s
  else
    let st := (List.range 22).filter fun d => stopped.contains d && s.get CLK.DOMAIN_STATUS.STATE d == 0
    match st with
    | [] => .next s
    | d :: _ =>
      let s1 := s.setReg WDOG.CLOCK_STATUS.off
        (st.foldl (fun w k => w ||| BitVec.ofNat 32 (2 ^ k)) (s.reg WDOG.CLOCK_STATUS.off))
      .next (s1.expire false 4 d s.sysMissing (s.get WDOG.SYS_TASKS.SEQ))

/-- XTAL_FAIL (R459): the always-on domain goes on with the RC oscillator; reported in ERR, no expiry. -/
def execXtalFail (s : State) : Res :=
  if !s.up || s.flag WDOG.CLOCK_STATUS.XTAL_FAIL then .next s
  else .next (((s.put WDOG.CLOCK_STATUS.XTAL_FAIL 1).fault clsRESOURCE 0 0).event (some [0]) 0x47 0)

end Sys2Proof.Machine
end

