-- ==== Sys2Proof/Machine/Region.lean ====
section
/-! DEFINITION. Flash regions at bring-up: the log scan, region actions, adopts and scrubs; the orderly power-down; NAND completions
(R60 to R66, R68, R194, R213, R214, R258, R526). -/

namespace Sys2Proof.Machine

/-! ### The log scan (R61) -/

/-- A write of TIER.LOG_SCAN_CTRL: START once every stack is trained (R61). DESIGN CHOICE (log 100): the scan runs once in a run; a START
after DONE is refused with cause 2. START is a W1S bit for which no clear is named: it reads 1 from then on, also once DONE is set (log 85). -/
def hLogScanCtrl : Handler :=
  { Handler.plain with
    chk := fun s _ _ v => fieldGet v 0 1 == 1 && (s.get SYS.DRAM_STATUS.TRAINED != 0xFF || s.flag TIER.LOG_SCAN_STATUS.DONE)
    act := fun s _ v =>
      if fieldGet v 0 1 = 1 ∧ ¬ s.flag TIER.LOG_SCAN_CTRL.START then
        (s.put TIER.LOG_SCAN_CTRL.START 1).put TIER.FRAMES_TOTAL.FRAMES s.frameTotal
      else s }

/-- LOG_SCAN_START (R61). -/
def execLogScanStart (s : State) : Res := .next (bar0 hLogScanCtrl TIER.LOG_SCAN_CTRL.off 1#32 s)

/-- A KV region, by its index. -/
def kvIndex (i : Nat) : Bool := decide (i < 1024) || decide (1280 ≤ i)

/-- The region holds protected pages. -/
def Replay.prot (x : Replay) (media : List (Nat × List Byte)) : Bool :=
  (x.kept media).any fun l => l.rcd.any fun r => bits r 4 1 == 1

/-- The scan lists a chain: no merged mirror, and no pool region that was released. -/
def Replay.listed (x : Replay) (idx : Nat) : Bool := if kvIndex idx then !x.merged else x.pool.isSome

/-- The region is a mirror or a STANDBY pool region by its last DEFINE or KV_DEFINE record (R403). -/
def Replay.standby (x : Replay) (idx : Nat) : Bool :=
  if kvIndex idx then x.kvdef.any fun r => bits r 14 1 == 1 else x.pool.any fun r => bits r 15 1 == 1

/-- What the scan shows of one chain. -/
def State.listChain (s : State) (c : Chain) : State :=
  let x := replayOf c.recs
  let m := s.flash.media
  if !x.listed c.index then s
  else
    let i := c.index
    let owner := if kvIndex i then (x.kvdef.map fun r => bits r 4 10).getD (i % 1024) else i - 1024
    let member := if x.standby i ∧ kvIndex i then (x.kvdef.map fun r => bits r 15 5).getD 0 else 0
    let s1 := ((s.put TIER.REGION_INFO.OWNER owner i).put TIER.REGION_INFO.PROTECTED (b01 (x.prot m)) i).put TIER.REGION_INFO.CLEAN
      (b01 (x.last == 9)) i
    let s2 := ((s1.put TIER.REGION_INFO.SCRUB_MARKED (b01 x.scrub) i).put TIER.REGION_INFO.STANDBY (b01 (x.standby i)) i).put
      TIER.REGION_INFO.SOURCE_MEMBER member i
    let s3 := ((s2.put TIER.REGION_INFO.STATE 1 i).put TIER.REGION_PAGES.PAGES (x.distinct m) i).put TIER.REGION_ENTRIES.ENTRIES
      x.entries.length i
    s3.setFlash fun f => { f with found := f.found ++ [i] }

/-- A chain's log pages followed from a sector through NEXT: the walk stops at a page without a valid copy, of another REGION, or whose
LOG_SEQ is not greater than the page's before it (R215). -/
def followLog (pages : List LogPage) (region : Nat) : Nat → Nat → Nat → List LogPage
  | 0, _, _ => []
  | n + 1, a, last =>
    match pages.find? fun p => p.addr = a ∧ p.copies ≠ [] ∧ p.region = region ∧ last < p.lseq with
    | none => []
    | some p => p :: followLog pages region n p.next p.lseq

/-- The chains as the scan finds them on the media (R215, R216): those the anchor in force names, each followed from its start address, its
kind by its own records. One without a log page holds no data, and a merged mirror is no region: it takes no index of one. -/
def FlashSt.scan (x : FlashSt) : List Chain :=
  let entries := (x.anchor.map (·.entries)).getD []
  entries.foldl (fun acc e =>
    match x.chains.find? fun c => c.startAt = e.2.2 with
    | none => acc
    | some c =>
      let ps := followLog c.pages e.2.1 c.pages.length e.2.2 0
      let d : Chain := { c with index := e.1, written := e.2.1, pages := ps, next := (ps.getLast?.map (·.next)).getD c.next }
      if ps = [] then acc
      else acc ++ [if (replayOf d.recs).merged then { d with index := 4096 + acc.length } else d]) []

/-- What the scan found stands; blocks of no region are free again (R525), erased as the scan ends (DESIGN CHOICE, log 135). -/
def FlashSt.scanned (x : FlashSt) : FlashSt :=
  let cs := x.scan
  let kept := cs.flatMap fun c => c.blocks ++ c.logs
  { x.erase ((x.chains.flatMap fun c => c.blocks ++ c.logs).filter fun b => ¬ kept.contains b) with
    chains := cs, gen := ((x.anchor.map (·.gen)).getD 0) }

/-- LOG_SCAN_DONE (R61): every region found is listed, and DONE is set. -/
def execLogScanDone (s : State) : Res :=
  if !s.working || !s.flag TIER.LOG_SCAN_CTRL.START || s.flag TIER.LOG_SCAN_STATUS.DONE then .next s
  else
    let s0 := s.setFlash FlashSt.scanned
    let s1 := s0.flash.chains.foldl State.listChain s0
    .next ((s1.put TIER.LOG_SCAN_STATUS.REGIONS s1.flash.found.length).put TIER.LOG_SCAN_STATUS.DONE 1)

/-! ### Region actions (R62, R526) -/

/-- KV regions that are HELD or adopted into another tenant than their OWNER, or will be by a latched action. -/
def State.strayRegions (s : State) : List Nat :=
  s.flash.found.filter fun i => kvIndex i && !(decide (1280 ≤ i) && decide (i < 2304)) &&
    (s.regionState i == 6 || s.flash.adopted.any (fun a => a.1 == i && a.2 != s.get TIER.REGION_INFO.OWNER i) ||
      s.flash.actions.any (fun a => a.index == i && (a.action == 3 || (a.action == 1 && a.target != s.get TIER.REGION_INFO.OWNER i))) ||
      s.flash.acting.any fun a => a.index == i && a.action == 1 && a.target != s.get TIER.REGION_INFO.OWNER i)

/-- A KV mirror's index (R61). -/
def mirrorIndex (i : Nat) : Bool := decide (1280 ≤ i) && decide (i < 2304)

/-- A hold, or an adopt into another tenant than the OWNER, of a KV region that is no mirror takes a set-aside index (R526). -/
def State.straysBy (s : State) (i action target : Nat) : Bool :=
  kvIndex i && !mirrorIndex i && (action == 3 || (action == 1 && target != s.get TIER.REGION_INFO.OWNER i))

/-- A write of TIER.REGION_ACTION on the selected region: latched, or refused (R62, R526). A region that is scrub-marked or counts as such
accepts no hold: it can only be scrubbed, and an adopt of it fails (R65, R403; DEDUCED, log 88). -/
def hRegionAction : Handler :=
  { Handler.plain with
    chk := fun s i _ v =>
      let a := fieldGet v 0 2
      let st := s.regionState i
      let marked := s.flag TIER.REGION_INFO.SCRUB_MARKED i || s.flag TIER.REGION_INFO.STANDBY i
      a != 0 && ((st != 1 && st != 7) || s.flash.actions.any (·.index == i) || (a == 3 && marked) ||
        (s.straysBy i a (fieldGet v 16 10) && decide (s.asides.length < (s.strayRegions.filter (· ≠ i)).length + 1)))
    act := fun s i v =>
      let a := fieldGet v 0 2
      if a = 0 then s else s.setFlash fun f => { f with actions := f.actions ++ [⟨i, a, fieldGet v 16 10⟩] } }

/-- REGION_ADOPT (R63). -/
def execRegionAdopt (tid : Nat) (s : State) : Res :=
  .next (bar0 hRegionAction TIER.REGION_ACTION.off (BitVec.ofNat 32 (1 + tid % 1024 * 2 ^ 16)) s)

/-- REGION_SCRUB (R65). -/
def execRegionScrub (s : State) : Res := .next (bar0 hRegionAction TIER.REGION_ACTION.off 2#32 s)

/-- REGION_HOLD (R66). -/
def execRegionHold (s : State) : Res := .next (bar0 hRegionAction TIER.REGION_ACTION.off 3#32 s)

/-- A loaded key's KCV differs from the last KEYCHECK record of a log (Table 3-6, R423). -/
def State.keyDiffers (s : State) (x : Replay) (tid : Nat) : Bool :=
  (kvFind s.part.keys tid).isSome && x.kcv.any (· != (s.reg PART.KEY_KCV.off tid).toNat)

/-- The condition of Table 3-6 that an adopt fails, 0 for none. A pool region whose number is in use has no room (DESIGN CHOICE, log 89). -/
def State.adoptCause (s : State) (a : RegAct) : Nat :=
  match s.chainAt a.index with
  | none => 1
  | some c =>
    let x := replayOf c.recs
    if x.scrub ∨ x.standby a.index then 1
    else if kvIndex a.index then
      if s.tenState a.target = 0 then 2
      else if s.flash.adopted.any (·.2 = a.target) then 3
      else if x.prot s.flash.media ∧ (kvFind s.part.keys a.target).isNone then 4
      else if s.keyDiffers x a.target then 5
      else 0
    else
      let r := a.index - 1024
      let n := ((x.pool.map fun d => bits d 16 32).getD 0) / 16384
      if s.poolState r ≠ 0 ∨ s.carveFlash < s.regionsGib true + n then 6 else 0

/-- A region action ends: the region's STATE, and its audit entry (R107, Table 5-4). -/
def State.regionEnds (s : State) (i st : Nat) : State :=
  (s.put TIER.REGION_INFO.STATE st i).audit actorCard 3 (i + st * 2 ^ 16 + s.get TIER.REGION_INFO.FAIL_CAUSE i * 2 ^ 20)

/-- REGION_ACTION_START (R62, R63, R65, R66): the next latched action starts: an adopt that passes its conditions, a scrub whose mark
is made durable first, or a hold, which ends at once. -/
def execRegionActionStart (s : State) : Res :=
  match s.flash.acting, s.flash.actions with
  | none, a :: rest =>
    if !s.working then .next s
    else
      let s1 := s.setFlash fun f => { f with actions := rest }
      let go (s : State) : State := s.setFlash fun f => { f with acting := some a }
      if a.action = 1 then
        (let c := s.adoptCause a
        if c = 0 then .next (go ((s1.put TIER.REGION_INFO.STATE 2 a.index).put TIER.REGION_INFO.FAIL_CAUSE 0 a.index))
        else .next ((s1.put TIER.REGION_INFO.FAIL_CAUSE c a.index).regionEnds a.index 7))
      else if a.action = 2 then
        (let s2 := ((s1.logRaw a.index recScrub).flushAll a.index).anchorUpdate
        .next (go ((s2.put TIER.REGION_INFO.STATE 4 a.index).put TIER.REGION_INFO.SCRUB_MARKED 1 a.index)))
      else .next (s1.regionEnds a.index 6)
  | _, _ => .next s

/-! ### Replay into a tenant (R63, R64, R214, R258, R405) -/

/-- A page rebuilt: in flash at the sector that its PAGE record names, with the record's GEN, or ABSENT. What the sector holds shows when it is
paged in (R158, R275). -/
def State.rebuildPage (s : State) (tid : Nat) (rc : Option Nat) : State × Nat :=
  let pid := s.sq.nextPid
  let sector := rc.map fun r => bits r 88 40
  let (h, body, bad) := unstore ((sector.bind fun a => kvFind s.flash.media a).getD [])
  let g : Page :=
    { pid := pid, tid := tid, st := if rc.isSome then 4 else 6, hdr := h, body := body, gen := (rc.map fun r => bits r 72 8).getD 0, bad := bad,
      flash := sector, frame := none, prio := 0, last := s.stroke, hint := 0, score := none, eval := 0,
      trans := 0, shared := false, started := 0, done := 0, readAt := 0 }
  (s.setSq fun x => { x with pages := x.pages ++ [g], nextPid := pid + 1 }, pid)

/-- A rebuilt page takes a leaf; one with several references has a share record (R156). Where the translation area has no room for them the leaf
is set without (DESIGN CHOICE, log 136). -/
def State.rebuildLeaf (s : State) (q : Seq) (p pid : Nat) : State :=
  let s1 := ((s.addTables q.tid (q.base + p)).getD s).setLeaf q p pid
  if s1.refsOf pid ≤ 1 then s1
  else ((s1.addItem q.tid 4 pid).getD s1).updPage pid fun g => { g with shared := true }

/-- One sequence of a replay rebuilt (R64, R214): its kept leaves, and ABSENT pages where the length has no page. `fresh` gives a SID
of this run. Answers the state, the sequence, and the sectors' pages so far. -/
def State.rebuildSeq (s : State) (tid : Nat) (x : Replay) (r : RSeq) (fresh : Bool) (known : List (Nat × Nat)) :
    State × Option Seq × List (Nat × Nat) :=
  let anew := fresh || (s.seqIdx r.idx).isSome
  match (if anew then s.nextIndex else some r.idx), s.windowBase tid (r.slots * r.layers) with
  | some idx, some base =>
    let q : Seq :=
      { idx := idx, gen := if anew then s.genOf idx else r.gen, tid := tid, closing := false, layers := r.layers, cls := r.cls, slots := r.slots,
        ring := r.ring, prot := r.prot, btLog := r.btLog, len := r.len, base := base }
    let s0 := if anew then s.takeIndex else s
    let s1 := s0.setSq fun y => { y with seqs := y.seqs ++ [q], gens := kvSet y.gens idx q.gen, freed := y.freed.filter (· ≠ idx) }
    let mine := (x.kept s.flash.media).filter fun l => l.idx = r.idx ∧ l.gen = r.gen
    let (s2, known2) := mine.foldl (fun (acc : State × List (Nat × Nat)) l =>
      let (s, known) := acc
      match l.rcd with
      | none =>
        let (t, pid) := s.rebuildPage tid none
        (t.rebuildLeaf q l.p pid, known)
      | some rc =>
        let a := bits rc 88 40
        match kvFind known a with
        | some pid => (s.rebuildLeaf q l.p pid, known)
        | none =>
          let (t, pid) := s.rebuildPage tid (some rc)
          (t.rebuildLeaf q l.p pid, kvSet known a pid)) (s1, known)
    let want := (List.range (q.fin - q.tail)).flatMap fun k => (List.range q.layers).map fun l => q.page (q.tail + k) l
    let gaps := want.filter fun p => ¬ mine.any (·.p = p)
    let s3 := gaps.foldl (fun s p =>
      let (t, pid) := s.rebuildPage tid none
      t.rebuildLeaf q p pid) s2
    (s3, some q, known2)
  | _, _ => (s, none, known)

/-- A logged prefix entry reinserted (R258), for the sequence it now names; skipped and counted where its namespace does not fit. -/
def State.reinsert (s : State) (tid : Nat) (q : Seq) (e : REntry) : State :=
  let ns := bits e.head 40 12
  let low := bits e.head 7 1 = 1
  let block := bits e.head 56 32
  let skip := s.sat SRCH.ADOPT_SKIPPED.COUNT
  if !s.nsMine tid ns || s.nsTokens ns != q.bt then skip
  else
    match s.freeEntry (s.nsUnits ns) low with
    | none => skip
    | some a =>
      let n : Entry :=
        { addr := a, width := s.nsUnits ns, units := unitsOf (s.nsUnits ns) ns block e.key, ns := ns, sid := q.sid, block := block,
          stroke := s.stroke, key := e.key, tokens := none, low := low,
          pend := some (bits e.head 88 40, bits e.head 52 3) }
      (s.setSrch fun x => { x with entries := x.entries ++ [n] }).notePending.add64 SRCH.SEARCHES_LO.off (n.width + 2)

/-- A whole replay into a tenant: its sequences, then its prefix entries. Answers the old and new SIDs. -/
def State.replayInto (s : State) (tid : Nat) (x : Replay) (fresh : Bool) : State × List (Nat × Seq) :=
  let (s1, map, _) := x.seqs.foldl (fun (acc : State × List (Nat × Seq) × List (Nat × Nat)) r =>
    let (s, map, known) := acc
    let (t, q, k) := s.rebuildSeq tid x r fresh known
    match q with
    | none => (t, map, k)
    | some q => (t, map ++ [(r.idx + r.gen * 2 ^ 24, q)], k)) (s, [], [])
  (x.entries.foldl (fun s e =>
    match map.find? fun y => y.1 = bits e.head 8 24 + bits e.head 32 8 * 2 ^ 24 with
    | none => s.sat SRCH.ADOPT_SKIPPED.COUNT
    | some y => s.reinsert tid y.2 e) s1, map)

/-- ABSENT pages of some sequences. DESIGN CHOICE (log 101): a lost page that several of them share counts once for each leaf. -/
def State.absentIn (s : State) (qs : List Seq) : Nat :=
  (s.sq.leaves.filter fun l => qs.any (·.idx = l.sq) ∧ (s.pageBy l.pid).any (·.st = 6)).length

/-- A pool region adopted (R407): its number, size and tier from the log, ACTIVE at a window of its own; partition and access lists are
the installer's. -/
def State.adoptPool (s : State) (r : Nat) (x : Replay) : State :=
  let d := x.pool.getD 0
  let s1 := (((s.put POOL.REGION_SIZE.GIB (bits d 16 32 / 16384) r).put POOL.REGION_DEF.TIER 1 r).put POOL.REGION_DEF.MIRROR (bits d 14 1) r).put
    POOL.REGION_DEF.MIRROR_OF (bits d 48 8) r
  let s2 := ((s1.setPair POOL.REGION_DPA_LO.off (s1.dpaFor (s1.poolBytes r)) r).put POOL.REGION_STATUS.STATE 1 r).put
    POOL.REGION_STATUS.MIRROR_STATE (if bits d 14 1 = 1 then 3 else 0) r
  s2.setPool fun y => { y with unset := y.unset ++ [r], flashAt := x.pages.foldl (fun l p => kvSet l (poolKey r p.1) p.2) y.flashAt }

/-- ADOPT_DONE (R63, R64, R258, R407). -/
def execAdoptDone (s : State) : Res :=
  match s.flash.acting with
  | none => .next s
  | some a =>
    if !s.working || a.action != 1 then .next s
    else
      match s.chainAt a.index with
      | none => .next s
      | some c =>
        let x := replayOf c.recs
        let s1 := s.setFlash fun f => { f with acting := none }
        if kvIndex a.index then
          (let (s2, map) := s1.replayInto a.target x false
          let s3 := s2.put TIER.REGION_LOST_PAGES.LOST (s2.absentIn (map.map (·.2))) a.index
          .next ((s3.setFlash fun f => { f with adopted := f.adopted ++ [(a.index, a.target)] }).regionEnds a.index 3))
        else .next ((s1.adoptPool (a.index - 1024) x).regionEnds a.index 3)

/-- Chains that belong to a region: its own, and mirrors merged into its owner (R405). -/
def State.chainsOf (s : State) (idx : Nat) : List Nat :=
  idx :: ((s.flash.chains.filter fun c =>
    let x := replayOf c.recs
    c.index ≠ idx ∧ decide (1280 ≤ c.index) ∧ x.merged ∧ x.kvdef.any fun r => bits r 21 10 = idx).map (·.index))

/-- SCRUB_DONE (R65). -/
def execScrubDone (s : State) : Res :=
  match s.flash.acting with
  | none => .next s
  | some a =>
    if !s.working || a.action != 2 then .next s
    else
      let s1 := (s.chainsOf a.index).foldl (fun s i => s.eraseChain i) s
      .next ((s1.setFlash fun f => { f with acting := none }).regionEnds a.index 5)

/-! ### The orderly power-down (R68, R461) -/

/-- A write of TIER.QUIESCE_CTRL.START. -/
def hQuiesceCtrl : Handler :=
  { Handler.plain with
    act := fun s _ v => if fieldGet v 0 1 = 1 then (s.put TIER.QUIESCE_CTRL.START 1).setTier fun t => { t with quiesce := true } else s }

/-- QUIESCE_START (R68). -/
def execQuiesceStart (s : State) : Res := .next (bar0 hQuiesceCtrl TIER.QUIESCE_CTRL.off 1#32 s)

/-- Under a quiesce, once no descriptor is outstanding: every DIRTY page enters WRITING, and partly filled NAND pages are closed. -/
def State.quiesceTurn (s : State) : State :=
  if !s.tier.quiesce || !s.wk.works.isEmpty then s
  else
    let s1 := (s.sq.pages.filter (·.st = 1)).foldl (fun s g => s.startWriting g.pid) s
    (s1.tier.streams.filter (·.index < 0x10000)).foldl (fun s w => s.closeOpen w.index) s1

/-- KV regions that the card writes in this run: adopted ones, those of its tenants, and the mirrors it keeps; a merged mirror is no
region. -/
def State.liveRegions (s : State) : List Nat :=
  (s.flash.chains.map (·.index)).filter fun i => kvIndex i && decide (i < 4096) &&
    (s.regionState i == 0 || s.regionState i == 3 || s.regionState i == 5)

/-- No page is held only in DRAM. -/
def State.allOnFlash (s : State) : Bool := s.sq.pages.all fun g => g.st != 1 && g.st != 2

/-- The tenant whose KV region a chain is: the one it was adopted into, or its own; a mirror is no tenant's of this card. -/
def State.regionTid (s : State) (i : Nat) : Option Nat :=
  ((s.flash.adopted.find? (·.1 = i)).map (·.2)).or (if i < 1024 then some i else none)

/-- The CLEAN mark written to the log of a KV region, and queued for the partner as its other records are (R68, R402). -/
def State.cleanRegion (s : State) (i : Nat) : State :=
  let s1 := (s.logRaw i recClean).flushAll i
  match s.regionTid i with
  | none => s1
  | some t => s1.queueKv t recClean

/-- The CLEAN mark written to the log of every KV region of this run (R68). -/
def State.markClean (s : State) : State := (s.liveRegions.foldl State.cleanRegion s.firstWrite).reclaim

/-- QUIESCE_DONE (R68, R461): the CLEAN marks are durable; a watchdog's power-down goes on to its expiry. -/
def execQuiesceDone (s : State) : Res :=
  if !s.working || !s.tier.quiesce || s.flag TIER.QUIESCE_STATUS.DONE || !s.wk.works.isEmpty || !s.allOnFlash then .next s
  else
    let s1 := s.markClean.put TIER.QUIESCE_STATUS.DONE 1
    match s.wd.hdr, s.wd.qlimit with
    | some h, some _ => .next (({ s1 with wd := { s1.wd with hdr := some { h with quiesce := 1 } } }).expireNow false)
    | _, _ => .next s1

/-! ### NAND completions (R194) -/

/-- NAND_READ_DONE (R194, R217 to R219, R386). -/
def execNandReadDone (op : Nat) (res : NandRes) (s : State) : Res :=
  match s.tier.ops.find? (·.id = op) with
  | none => .next s
  | some o =>
    if !s.working || o.kind = 1 then .next s
    else
      let s1 := s.setTier fun t => { t with ops := t.ops.filter (·.id ≠ op) }
      .next (if o.kind = 0 then s1.readDone o res else s1.swapReadDone o res)

/-- Every program of a mirrored page's form ended (R402, R212): it is on the media, and its PAGE record enters the mirror's log. -/
def State.mirrorWritten (s : State) (k idx first n : Nat) : State :=
  match kvFind s.pool.kvPlaced k with
  | none => s
  | some (tid, sid, page, form) =>
    let s1 := s.setFlash fun x => { x with media := kvSet x.media first form }
    let s2 := s1.setPool fun x =>
      { x with
        kvPlaced := kvDel x.kvPlaced k
        kvPages := x.kvPages.filter (fun y => ¬ (y.1 = tid ∧ y.2.1 = sid ∧ y.2.2.1 = page)) ++ [(tid, sid, page, first, n)] }
    let rc := recPage 1 sid page (padTo 256 form) [] first
    s2.logRaw idx (rc - bits rc 80 5 * 2 ^ 80 + n * 2 ^ 80)

/-- PROGRAM_DONE (R194, R193): the pages whose last NAND page it was are on flash; a program that fails declares its die dead and is
made again. -/
def execProgramDone (op : Nat) (ok : Bool) (s : State) : Res :=
  match s.tier.ops.find? (·.id = op) with
  | none => .next s
  | some o =>
    if !s.working || o.kind != 1 then .next s
    else
      let s1 := s.setTier fun t => { t with ops := t.ops.filter (·.id ≠ op) }
      let ends (s : State) (p : Placed) : State :=
        if p.stale then s
        else if p.pid < 2 ^ 63 then s.pageProgrammed p.pid p.first
        else if p.pid < 2 ^ 64 then s.swapWritten p.pid p.first
        else s.mirrorWritten (p.pid - 2 ^ 64) p.index p.first p.count
      if !ok then .next ((s1.dieDead (nandGroupOf o.nand) (nandDieOf o.nand)).readyProgram o.index o.nand)
      else
        let (s2, hit) := (s1.stripeTurn o.nand).placedDone o.index o.nand
        .next (hit.foldl ends s2)

end Sys2Proof.Machine
end

