-- ==== Sys2Proof/Machine/Tandem.lean ====
section
/-! DEFINITION. The Tandem pair (chapter 16): mirror writes sent and applied, the loss of the partner, KV takeover, resync (R341, R400 to
R406). -/

namespace Sys2Proof.Machine

/-- This card has a partner in use (R341). -/
def State.tandemOn (s : State) : Bool := s.flag SPOKE.TANDEM_PARTNER.ENABLE

/-- A host write that waited for its mirror completes, with the DevLoad of its own wait (R385, R401); in FAULT it is poisoned (R400). -/
def State.completeMirror (s : State) (m : MirWait) : State :=
  if m.answers then
    s.answerHost ⟨3, m.slot, m.tag, 0, [], 0, 0, m.at_, m.severe, false, false, none, false⟩ m.part [] (s.phase == phFAULT) 0
  else s

/-- What an acknowledgement lets go on: recalls of lines that waited for a response to be sent, and requests to them (R389, R392). -/
def State.afterMirror (s : State) : State := ((List.range 64).foldl State.drainEnd s).serveWaiting

/-- Regions and tenants that are mirrored by their settings. -/
def State.mirrorRegions (s : State) : List Nat :=
  (List.range 256).filter fun r => s.poolState r != 0 && s.flag POOL.REGION_DEF.MIRROR r

def State.mirrorTenants (s : State) : List Nat := (List.range 1024).filter fun t => s.flag POOL.KV_MIRROR.ENABLE t

/-- The partner is lost (R404): everything mirrored reads UNMIRRORED, every write that waits for an acknowledgement completes. -/
def State.partnerLost (s : State) : State :=
  let s1 := (s.put POOL.TANDEM_STATUS.PARTNER_LOST 1).put POOL.TANDEM_STATUS.SYNCING 0
  let s2 := s.mirrorRegions.foldl (fun s r => s.put POOL.REGION_STATUS.MIRROR_STATE 3 r) s1
  let s3 := s.mirrorTenants.foldl (fun s t => s.put POOL.KV_MIRROR.STATE 3 t) s2
  let s4 := s.pool.mirror.foldl State.completeMirror s3
  ((s4.setPool fun x => { x with mirror := [], mirNow := [], kvOut := [], kvSent := [], resync := [], copying := [] }).setChain fun c =>
    { c with txns := c.txns.filter (·.typ ≠ ftMIRROR_WRITE) }).afterMirror

/-- POOL.KV_MIRROR.ENABLE (R402): a tenant newly mirrored is UNMIRRORED until a resync. -/
def hKvMirror : Handler :=
  { Handler.plain with
    act := fun s t v =>
      if fieldGet v 0 1 = 0 then (s.put POOL.KV_MIRROR.STATE 0 t).setPool fun x => { x with kvOut := x.kvOut.filter (·.tid ≠ t) }
      else if s.get POOL.KV_MIRROR.STATE t = 0 then s.put POOL.KV_MIRROR.STATE 3 t
      else s }

/-! ### Sending (R402) -/

/-- Bytes cut into pieces of 16 KiB. -/
def segments : Nat → List Byte → List (List Byte)
  | 0, _ => []
  | n + 1, bs => if bs = [] then [] else bs.take 16384 :: segments n (bs.drop 16384)

/-- The MIRROR_WRITEs of a KV page's stored form; answers their numbers. -/
def State.sendKvPage (s : State) (tid sid page : Nat) (form : List Byte) : State × List Nat :=
  let segs := segments 4 form
  (List.range segs.length).foldl (fun (acc : State × List Nat) i =>
    let hdr := mirHeader 4 0 1 tid (sid + page * 2 ^ 32) (hdrGEN form) (cdiv form.length 4096) i segs.length (leafFlags form false)
    let (t, x) := acc.1.sendMirror (hdr ++ segs.getD i [])
    (t, acc.2 ++ [x])) (s, [])

/-- Up to 1,020 records of a tenant in one MIRROR_WRITE. -/
def State.sendRecords (s : State) (tid : Nat) (rs : List Nat) : State × Nat :=
  s.sendMirror (mirHeader 3 0 rs.length tid 0 0 0 0 0 0 ++ rs.flatMap (leBytes 16))

/-- What a page's mirror traffic draws: a Spoke unit per 4 KiB (R401). -/
def KvItem.draw (k : KvItem) : Res6 := { Res6.zero with spoke := if k.rcd.isSome then 0 else cdiv k.bytes.length 4096 }

/-- The first item that may leave: a tenant's go one after another, each once the one before it is acknowledged (R341); a page waits for its
partition's Spoke budget, and the pages of that partition's other tenants behind it (R15, R44). -/
def State.nextKvOut (s : State) : List Nat → List Nat → List KvItem → Option KvItem
  | _, _, [] => none
  | ts, ps, k :: t =>
    let p := s.partOf k.tid
    if ts.contains k.tid then s.nextKvOut ts ps t
    else if !s.kvMirrored k.tid then some k
    else if s.pool.kvSent.any (·.2 = k.tid) then s.nextKvOut (k.tid :: ts) ps t
    else if k.rcd.isSome then some k
    else if ps.contains p ∨ ¬ k.draw.le (s.available p) then s.nextKvOut (k.tid :: ts) (p :: ps) t
    else some k

/-- An item's MIRROR_WRITEs sent, with up to 1,020 records of the tenant that stand one after another in its order; those of a resync's copies are
noted (R401, R402, R406). -/
def State.sendKvItem (s : State) (k : KvItem) : State :=
  let run := if k.rcd.isSome then ((s.pool.kvOut.filter (·.tid = k.tid)).takeWhile (·.rcd.isSome)).take 1020 else [k]
  let (s1, xs) : State × List Nat :=
    if k.rcd.isSome then
      let (t, x) := s.sendRecords k.tid (run.filterMap (·.rcd))
      (t, [x])
    else (s.draw (s.partOf k.tid) k.draw).sendKvPage k.tid k.sid k.page k.bytes
  s1.setPool fun x =>
    { x with
      kvOut := run.foldl (fun l y => l.erase y) x.kvOut
      kvSent := x.kvSent ++ xs.map fun n => (n, k.tid)
      copying := if run.any (·.copy) then x.copying ++ xs.map fun n => (n, true, k.tid) else x.copying }

/-- Records and pages of mirrored tenants leave as far as they can; those of a tenant that is mirrored no more are dropped (R402, R404). -/
def State.sendKvOut (s : State) : Nat → State
  | 0 => s
  | n + 1 =>
    match s.nextKvOut [] [] s.pool.kvOut with
    | none => s
    | some k =>
      if !s.kvMirrored k.tid then (s.setPool fun x => { x with kvOut := x.kvOut.filter (·.tid ≠ k.tid) }).sendKvOut n
      else (s.sendKvItem k).sendKvOut n

/-! ### Receiving (R341, R402, R403) -/

/-- The STANDBY region that pairs with a region of the partner. -/
def State.standbyOf (s : State) (r : Nat) : Option Nat :=
  (List.range 256).find? fun n => s.poolState n = 2 ∧ s.get POOL.REGION_DEF.MIRROR_OF n = r

/-- The mirror's chain for a tenant of the partner: begun with its own KV_DEFINE record (R213). -/
def State.mirrorChain (s : State) (src tid : Nat) : State :=
  let i := 1280 + tid
  if (s.chainAt i).isSome then s
  else ((s.firstWrite.newChain i).anchorUpdate).logRaw i (recKvDefine tid true src false 0)

/-- A record of the partner's tenant into the mirror's log; PAGE records are written when the page is here, and the mirror has a
KV_DEFINE record of its own (log 58). -/
def State.mirrorRecord (s : State) (tid r : Nat) : State :=
  if recType r = 1 ∨ recType r = 12 then s else s.logRaw (1280 + tid) r

/-- The `i`-th segment of a KV page; with the last one the page is placed in the mirror's write stream. -/
def State.mirrorSegment (s : State) (f : Frame) : State :=
  let tid := f.b 4 2 % 1024
  let sid := f.b 8 4
  let page := f.b 12 4
  let key := sid + page * 2 ^ 32 + tid * 2 ^ 64
  let got := kvSet ((kvFind s.pool.kvSegs key).getD []) (f.b 21 1) ((padTo 16448 f.payload).drop 64)
  if got.length < f.b 22 1 then s.setPool fun x => { x with kvSegs := kvSet x.kvSegs key got }
  else
    let n := max 1 (f.b 20 1 % 32)
    let form := ((got.map (·.2)).flatten).take (n * 4096)
    let (s1, a) := s.firstWrite.placeSectors (1280 + tid) n
    let k := (s.pool.kvPlaced.map (·.1 + 1)).foldl max 0
    (s1.setPool fun x => { x with kvSegs := kvDel x.kvSegs key, kvPlaced := kvSet x.kvPlaced k (tid, sid, page, form) }).setTier fun t =>
      { t with placed := t.placed ++ [⟨2 ^ 64 + k, 1280 + tid, a, n, nandsOf a n, false⟩] }

/-- No MIRROR_WRITE of the source with a higher XID was applied to the line: one that arrives late changes nothing there (R341). XIDs count
in 32 bits. -/
def State.mirNewer (s : State) (line : Nat) (f : Frame) : Bool :=
  (kvFind s.pool.mirLast (line * 32 + f.src % 32)).all fun x => x != f.xid && seqCovers f.xid x

def State.stampLine (s : State) (line : Nat) (f : Frame) : State :=
  s.setPool fun x => { x with mirLast := kvSet x.mirLast (line * 32 + f.src % 32) f.xid }

/-- What a member's mirror writes left of their order, and the frames of it that wait, forgotten with the member: after its reset its XIDs count
from 1 again (R334). -/
def State.forgetSource (s : State) (m : Nat) : State :=
  (s.setPool fun x => { x with mirLast := x.mirLast.filter (·.1 % 32 ≠ m), mirIn := x.mirIn.filter (·.src ≠ m) }).setChain fun c =>
    { c with seen := c.seen.filter (·.1 ≠ m) }

/-- The lines of a MIRROR_WRITE of kind 1 placed in a region (R401). -/
def State.mirrorLines (s : State) (r : Nat) (f : Frame) : State × Nat :=
  let off (i : Nat) : Nat := f.b (64 + 128 * i) 8
  let room (i : Nat) : Bool := decide (off i + 64 ≤ s.poolBytes r)
  let line (i : Nat) : List Byte := (padTo (64 + 128 * i + 128) f.payload).drop (64 + 128 * i + 64)
  let is := List.range (f.b 2 2)
  (is.foldl (fun s1 i =>
    let x := lineOf (s1.poolBase r + off i)
    if room i ∧ s1.mirNewer x f then (s1.stampLine x f).takeData 5 64 (s1.poolBase r + off i) (line i) false else s1) s,
    if is.all room then 0 else 2)

/-- The quarter of a page that a MIRROR_WRITE of kind 2 carries, placed in a region (R401). -/
def State.mirrorQuarter (s : State) (r : Nat) (f : Frame) : State × Nat :=
  let off := f.b 8 8 * 65536 + f.b 21 1 * 16384
  if s.poolBytes r < off + 16384 then (s, 2)
  else
    let (s1, ok) := s.wantPage r (s.poolBase r + off) true
    let bs := ((padTo 16448 f.payload).drop 64).take 16384
    let x0 := lineOf (s.poolBase r + off)
    if !ok then (s1, 2)
    else
      ((List.range 256).foldl (fun s i =>
        if s.mirNewer (x0 + i) f then (s.stampLine (x0 + i) f).poolStore r (64 * (x0 + i)) ((bs.drop (64 * i)).take 64) else s) s1, 0)

/-- A MIRROR_WRITE applied (Table 16-9); answers the OUTCOME. -/
def State.applyMirror (s : State) (f : Frame) : State × Nat :=
  let kind := f.b 0 1
  if !s.tandemOn || f.src != s.partner then (s, 1)
  else if kind = 1 ∨ kind = 2 then
    match s.standbyOf (f.b 1 1) with
    | none => (s, 2)
    | some r =>
      if kind = 1 then s.mirrorLines r f else s.mirrorQuarter r f
  else if kind = 3 then
    let s1 := s.mirrorChain f.src (f.b 4 2 % 1024)
    ((List.range (f.b 2 2)).foldl (fun s i => s.mirrorRecord (f.b 4 2 % 1024) (f.b (64 + 16 * i) 16)) s1, 0)
  else if kind = 4 then ((s.mirrorChain f.src (f.b 4 2 % 1024)).mirrorSegment f, 0)
  else (s, 1)

/-- The memory that a MIRROR_WRITE needs is there: every stack is trained (R56); for KV data the scan is done too, before which no log is
written (R55; DEDUCED, log 129). -/
def State.mirReady (s : State) (f : Frame) : Bool :=
  s.get SYS.DRAM_STATUS.TRAINED == 0xFF && (f.b 0 1 == 1 || f.b 0 1 == 2 || s.flag TIER.LOG_SCAN_STATUS.DONE)

/-- A MIRROR_WRITE placed and acknowledged (R341). -/
def State.placeMirror (s : State) (f : Frame) : State :=
  let (s1, o) := s.applyMirror f
  s1.answer f ftMIRROR_ACK (padTo 64 (leBytes 4 f.xid ++ leBytes 1 o))

/-- MIRROR_WRITE (R341, R402): one that cannot be placed yet waits (R56). -/
def State.takeMirror (s : State) (f : Frame) : State :=
  s.once f fun s =>
    if s.mirReady f then s.placeMirror f else (s.noteXid f).setPool fun x => { x with mirIn := x.mirIn ++ [f] }

/-- MIRROR_WRITEs that waited for memory, placed in XID order (R56, R341), at a boundary. -/
def State.mirrorTurn (s : State) : State :=
  let now := s.pool.mirIn.filter s.mirReady
  (inOrder (fun f => (f.xid, 0)) now).foldl State.placeMirror (s.setPool fun x => { x with mirIn := x.mirIn.filter fun f => !s.mirReady f })

def execMirrorWrite (port : Nat) (f : Frame) (s : State) : Res := .next (s.receive port ftMIRROR_WRITE f fun s f => s.takeMirror f)

/-! ### Resync (R406) -/

/-- A region or tenant whose copies are all sent and acknowledged reads SYNC. -/
def State.resyncEnd (s : State) (tenant : Bool) (num : Nat) : State :=
  let st := if tenant then s.get POOL.KV_MIRROR.STATE num else s.mirState num
  if st ≠ 2 ∨ (tenant ∧ s.pool.kvOut.any fun k => k.copy ∧ k.tid = num) ∨ (s.pool.resync.any fun x => x.1 = tenant ∧ x.2.1 = num) ∨ s.pool.copying.any (fun x => x.2.1 = tenant ∧ x.2.2 = num) then s
  else
    let s1 := if tenant then s.put POOL.KV_MIRROR.STATE 1 num else s.put POOL.REGION_STATUS.MIRROR_STATE 1 num
    let more := s1.mirrorRegions.any (fun r => s1.mirState r == 2) || s1.mirrorTenants.any fun t => s1.get POOL.KV_MIRROR.STATE t == 2
    if more then s1 else s1.put POOL.TANDEM_STATUS.SYNCING 0

/-- RESYNC_DONE (R406). -/
def execResyncDone (tenant : Bool) (num : Nat) (s : State) : Res := .next (if s.working then s.resyncEnd tenant num else s)

/-- A MIRROR_ACK (R401, R404): the waiting host write completes; an OUTCOME other than 0 is the loss of the partner. -/
def State.takeMirrorAck (s : State) (f : Frame) : State :=
  let x := f.b 0 4
  match s.txn x with
  | none => s
  | some t =>
    if t.typ ≠ ftMIRROR_WRITE ∨ f.src ≠ t.member then s
    else
      let s1 := s.endTxn x
      if f.b 4 1 ≠ 0 then s1.partnerLost
      else
        let s2 := (s1.pool.mirror.filter (·.xid = x)).foldl State.completeMirror s1
        let mine := s.pool.copying.filter (·.1 = x)
        let s3 := s2.setPool fun y =>
          { y with mirror := y.mirror.filter (·.xid ≠ x), copying := y.copying.filter (·.1 ≠ x), kvSent := y.kvSent.filter (·.1 ≠ x) }
        (mine.foldl (fun s c => s.resyncEnd c.2.1 c.2.2) s3).afterMirror

/-- MIRROR_ACK (R401). -/
def execMirrorAck (port : Nat) (f : Frame) (s : State) : Res := .next (s.receive port ftMIRROR_ACK f fun s f => s.takeMirrorAck f)

/-- A write of POOL.TANDEM_CTRL.RESYNC (R406, R408): every mirrored region and tenant enters SYNCING; a tenant's live records leave at
once. -/
def hTandemCtrl : Handler :=
  { Handler.plain with
    chk := fun s _ _ v => fieldGet v 0 1 == 1 && s.flag POOL.TANDEM_STATUS.SYNCING
    act := fun s _ v =>
      if fieldGet v 0 1 = 0 then s
      else
        let rs := s.mirrorRegions.filter fun r => s.poolState r = 1
        let ts := s.mirrorTenants
        let s1 := rs.foldl (fun s r => s.put POOL.REGION_STATUS.MIRROR_STATE 2 r) (s.put POOL.TANDEM_CTRL.RESYNC 1)
        let s2 := ts.foldl (fun s t => s.put POOL.KV_MIRROR.STATE 2 t) s1
        let s3 := (s2.setPool fun x => { x with resync := rs.map (fun r => (false, r, 0)) ++ ts.map fun t => (true, t, 0) }).put
          POOL.TANDEM_STATUS.SYNCING (b01 (rs ≠ [] ∨ ts ≠ []))
        ts.foldl (fun s t =>
          let recs := ((s.chainAt (s.ownIdx t)).map fun c => liveRecs s.flash.media c.recs).getD [] ++
            s.buffered (s.ownIdx t)
          s.setPool fun x => { x with kvOut := x.kvOut ++ recs.map fun r => ⟨t, some r, 0, 0, [], true⟩ }) s3 }

/-- RESYNC (R406). -/
def execResync (s : State) : Res := .next (bar0Bit hTandemCtrl POOL.TANDEM_CTRL.RESYNC s)

/-- A leaf's key for a resync's order. -/
def leafKey (l : Leaf) : Nat := l.sq * 2 ^ 40 + l.p

/-- The next flash-resident page of a tenant from a leaf key on. -/
def State.nextCopy (s : State) (tid key : Nat) : Option (Leaf × Seq × Page) :=
  let ls := (s.sq.leaves.filterMap fun l =>
    match s.seqIdx l.sq, s.pageBy l.pid with
    | some q, some g => if q.tid = tid ∧ g.flash.isSome ∧ key ≤ leafKey l then some (l, q, g) else none
    | _, _ => none)
  (inOrder (fun x => (leafKey x.1, 0)) ls).head?

/-- The entry of the resync list replaced, or taken out. -/
def State.setResync (s : State) (x : Bool × Nat × Nat) (next : Option Nat) : State :=
  s.setPool fun y =>
    { y with resync := match next with
      | none => y.resync.filter fun z => ¬ (z.1 = x.1 ∧ z.2.1 = x.2.1)
      | some n => y.resync.map fun z => if z.1 = x.1 ∧ z.2.1 = x.2.1 then (x.1, x.2.1, n) else z }

/-- One copy of a resync for a partition, once its balance holds 16 DRAM and 16 Spoke units and what the page-in needs (R406). -/
def State.resyncChunk (s : State) (p : Nat) : Option State :=
  let mine := s.pool.resync.filter fun x => p = if x.1 then s.partOf x.2.1 else s.poolPart x.2.1
  match mine.head? with
  | none => none
  | some x =>
    let base : Res6 := { Res6.zero with dram := 16, spoke := 16 }
    let note (s : State) (xs : List Nat) : State := s.setPool fun y => { y with copying := y.copying ++ xs.map fun n => (n, x.1, x.2.1) }
    if x.1 then
      match s.nextCopy x.2.1 x.2.2 with
      | none => some ((s.setResync x none).resyncEnd true x.2.1)
      | some (l, q, g) =>
        let need : Res6 := { base with flash := if g.inDram then 0 else g.nands.length }
        if need.le (s.available p) then
          let (s1, xs) := (s.draw p need).sendKvPage q.tid q.sid l.p (storedForm g)
          some ((note s1 xs).setResync x (some (leafKey l + 1)))
        else none
    else
      let r := x.2.1
      if s.poolBytes r ≤ x.2.2 * 65536 then some ((s.setResync x none).resyncEnd false r)
      else
        let a := s.poolBase r + x.2.2 * 65536
        let (s1, ok) := s.wantPage r a false
        if !ok then (if s1 = s then none else some s1)
        else if base.le (s.available p) then
          let (s2, xs) := (s1.draw p base).sendPoolPage r x.2.2 (s1.poolRead a 65536)
          some ((note s2 xs).setResync x (some (x.2.2 + 1)))
        else none

/-! ### KV takeover (R405) -/

/-- What the mirror of a source tenant of a member holds, buffered records included: nothing where this card keeps no mirror of that member's
tenant (DESIGN CHOICE, log 130). -/
def State.mirrorReplay (s : State) (src member : Nat) : Replay :=
  let x := replayOf (((s.chainAt (1280 + src)).map (·.recs)).getD [] ++ s.buffered (1280 + src))
  if x.kvdef.any fun r => bits r 15 5 = member then x else Replay.start

/-- A write of POOL.TAKEOVER_KV: GO starts a takeover, or fails it by Table 3-6. -/
def hTakeoverKv : Handler :=
  { Handler.plain with
    chk := fun s _ _ v => fieldGet v 31 1 == 1 && s.get POOL.TAKEOVER_STATUS.STATE == 1
    act := fun s _ v =>
      if fieldGet v 31 1 = 0 then s
      else
        let src := fieldGet v 0 10
        let member := fieldGet v 10 5
        let tgt := fieldGet v 16 10
        let x := s.mirrorReplay src member
        let cause :=
          if s.tenState tgt = 0 then 2
          else if x.prot s.flash.media ∧ (kvFind s.part.keys tgt).isNone then 4
          else if s.keyDiffers x tgt then 5
          else 0
        let s1 := ((s.put POOL.TAKEOVER_KV.GO 1).put POOL.TAKEOVER_STATUS.FAIL_CAUSE cause).put POOL.TAKEOVER_STATUS.SEQUENCES 0
        if cause ≠ 0 then s1.put POOL.TAKEOVER_STATUS.STATE 3
        else (s1.put POOL.TAKEOVER_STATUS.STATE 1).setPool fun y => { y with takeover := some (src, member, tgt) } }

/-- TAKEOVER_KV (R405): GO with the register's fields as they stand. -/
def execTakeoverKv (s : State) : Res := .next (bar0Bit hTakeoverKv POOL.TAKEOVER_KV.GO s)

/-- The log records that rebuild one sequence in its new region: SEQ, LENGTH, and a PAGE record per page the mirror holds. -/
def State.logRebuilt (s : State) (q : Seq) : State :=
  let s1 := (s.logKv q.tid (recSeq q)).logKv q.tid (recLength q)
  ((s.sq.leaves.filter (·.sq = q.idx))).foldl (fun s l =>
    match s.pageBy l.pid with
    | some g => (match g.flash with
      | some a => (s.keyCheck q.tid g.hdr).logKv q.tid (recPage 1 q.sid l.p g.hdr g.body a)
      | none => s)
    | none => s) s1

/-- The log records of the prefix entries that now name a sequence, with the token slots the mirror's records name. -/
def State.logEntries (s : State) (q : Seq) (old : Nat) (x : Replay) : State :=
  (s.entriesOf q.sid).foldl (fun s e =>
    let h := ((x.entries.find? fun r => bits r.head 8 24 + bits r.head 32 8 * 2 ^ 24 = old ∧ bits r.head 40 12 = e.ns ∧
      bits r.head 56 32 = e.block).map (·.head)).getD 0
    [recPrefix false e.low q.sid e.ns (bits h 52 3) e.block (bits h 88 40), recPrefixKey 1 e.key, recPrefixKey 2 e.key,
      recPrefixKey 3 e.key].foldl (fun s r => s.logKv q.tid r) s) s

/-- The number of a chain that is no region any more: the lowest free one beyond the region indices (R213). -/
def State.mergedIdx (s : State) : Nat :=
  ((List.range (s.flash.chains.length + 1)).find? fun k => (s.chainAt (4096 + k)).isNone).elim 4096 (4096 + ·)

/-- TAKEOVER_KV_DONE (R405): the mirror replayed under fresh SIDs and logged in the target's region, the SID map written, the mirror
merged; before DRAM is trained and the log scanned it waits (R56). -/
def execTakeoverKvDone (s : State) : Res :=
  match s.pool.takeover with
  | none => .next s
  | some (src, member, tgt) =>
    if !s.working || s.get SYS.DRAM_STATUS.TRAINED != 0xFF || !s.flag TIER.LOG_SCAN_STATUS.DONE then .next s
    else
      let i := 1280 + src
      let s0 := s.flushAll i
      let x := s0.mirrorReplay src member
      let (s1, map) := s0.replayInto tgt x true
      let s2 := map.foldl (fun s m => (s.logRebuilt m.2).logEntries m.2 m.1 x) s1
      let base := s.pair POOL.TAKEOVER_MAP_LO.off
      let s3 := s2.memWrite base (map.flatMap fun m => leBytes 4 m.1 ++ leBytes 4 m.2.sid)
      let s4 := if x.kvdef.isSome then ((s3.logRaw i (recKvDefine src false 0 true tgt)).flushAll i).moveChain i s3.mergedIdx else s3
      let s5 := s4.setPool fun y => { y with takeover := none, kvPages := if x.kvdef.isSome then y.kvPages.filter (·.1 ≠ src) else y.kvPages }
      .next ((s5.put POOL.TAKEOVER_STATUS.STATE 2).put POOL.TAKEOVER_STATUS.SEQUENCES map.length)

end Sys2Proof.Machine
end

