-- ==== Sys2Proof/Machine/Chunks.lean ====
section
/-! DEFINITION. How units start and end chunks: readiness, order of service, budgets, and what the end of a chunk installs (R18, R28, R35,
R36, R44, R48, R125, R150, R254, R427). -/

namespace Sys2Proof.Machine

/-! ### Ends of descriptors -/

/-- A finished descriptor's completion latched, each opcode by its own rule (R125, R130). -/
def State.settle (s : State) (id : Nat) : State :=
  match s.work id with
  | none => s
  | some w =>
    let op := w.d.opcode
    if op = opFIND ∨ op = opNEXT then s.settleFind id
    else if op = opDELIVER then s.settleDeliver id
    else if op = opRESHARD then s.settleReshard id
    else if !s.finished w then s
    else if op = opAPPEND then s.finishAppend w
    else if op = opATTN then s.finishAttn w
    else if op = opINSERT ∨ op = opREMOVE then s.finishUpdate w
    else if op = opXFER then s.finishXfer w
    else if opRange op then s.latchEnd w (s.rangeStatus w)
    else s

/-! ### Starts -/

/-- The unit that runs an opcode's chunks (Table 2-1); PIN, UNPIN and SCORE_UPDATE are the tier manager's. -/
def unitOf (op : Nat) : Option UnitKind :=
  if op = opAPPEND then some .append
  else if op = opDELIVER then some .deliver
  else if op = opREAD then some .readPages
  else if op = opATTN then some .attention
  else if op = opFIND ∨ op = opNEXT ∨ op = opINSERT ∨ op = opREMOVE then some .search
  else if op = opRESHARD then some .reshard
  else if op = opXFER then some .poolXfer
  else if op = opPIN ∨ op = opUNPIN ∨ op = opSCORE then some .tier
  else none

/-- What an opcode decides about its next position. -/
def State.decide_ (s : State) (w : Work) : Dec :=
  let op := w.d.opcode
  if op = opAPPEND then s.decAppend w
  else if op = opDELIVER then s.decDeliver w
  else if op = opREAD then s.decRead w
  else if op = opATTN then s.decAttn w
  else if op = opRESHARD then s.decReshard w
  else if op = opXFER then s.decXfer w
  else if op = opPIN then s.decPin w
  else if op = opUNPIN then s.decUnpin w
  else if op = opSCORE then s.decScore w
  else s.decSearch w

/-- An APPEND inside a block it has begun: R427 lets these chunks start during a drain. -/
def State.inBlock (s : State) (w : Work) : Bool :=
  w.d.opcode == opAPPEND && match s.seqBySid w.d.tid w.d.sid with
    | none => false
    | some q => w.next % q.layers != 0

/-- A work may try for a chunk: it runs, was not stopped, has a position left, and no reset holds it (R427). -/
def State.mayStart (s : State) (w : Work) : Bool :=
  w.phase == 1 && w.stop.isNone && (w.d.opcode == opFIND || w.d.opcode == opNEXT || decide (w.next < s.total w)) &&
    (!s.draining w.d.tid || s.inBlock w)

/-- The next position after a chunk with a result. -/
def nextAfter (w : Work) (res : RunRes) : Nat :=
  if w.d.opcode = opINSERT ∨ w.d.opcode = opREMOVE then
    match res with
    | .blocks upto _ => upto
    | .hashing _ first n _ _ => first + n
    | _ => w.next + 1
  else w.next + 1

/-- During a drain an APPEND stops at the end of a block it began (Table 17-3). -/
def State.drainStop (s : State) (id : Nat) : State :=
  match s.work id with
  | none => s
  | some w =>
    match s.part.drains.find? (·.tid = w.d.tid) with
    | none => s
    | some r => if s.inBlock w ∨ s.total w ≤ w.next then s else s.updWork id fun w => w.stopWith stRESET (if r.flr then 0x0B01 else 0x0B02)

/-- How a try for a chunk ends: the work is not ready, its partition's balance is short, or something happened. -/
inductive Start where
  | skip (s : State)
  | blocked
  | did (s : State)

/-- A chunk starts (R35, R18, R19, R203): its draw, its transient references, LAST of the pages it reads, the epoch it sees. -/
def State.begin (s : State) (w : Work) (unit : UnitKind) (draw : Res6) (refs : List Nat) (frame : Bool) (res : RunRes) : State :=
  let s1 := (s.draw (s.partOf w.d.tid) draw).noteEpoch w.id (s.get SPOKE.TENANT_EPOCH.EPOCH w.d.tid)
  let s2 := refs.foldl (fun s g => (s.hold g).touch g) s1
  let fr := if frame then some s2.newFrame else none
  let lane := match unit with
    | .append => s.laneFor w.bucket s.readyBuckets
    | .attention => s.tileFor (attnBucketOf w) s.attnReady
    | _ => none
  ((if frame then s2.nextFree else s2).updWork w.id fun v =>
    { v with next := nextAfter v res, run := v.run ++ [{ idx := v.next, unit := unit, at_ := s.stroke, frame := fr, refs := refs, res := res, lane := lane }] }).drainStop
    w.id

/-- A position passed without a chunk; a FIND or NEXT sets its own next position. -/
def State.passed (s : State) (w : Work) : State :=
  if w.d.opcode = opFIND ∨ w.d.opcode = opNEXT then s
  else ((s.updWork w.id fun v => { v.endAt v.next with next := v.next + 1 }).settle w.id)

/-- The chunks behind a work's next one that wait for their burst as it does, each counted (R308): those of an APPEND or an ATTN_PARTIAL may
start beside one another. -/
def State.countAhead (s : State) (w : Work) : State :=
  if w.d.opcode = opAPPEND ∨ w.d.opcode = opATTN then
    (List.range (s.total w - (w.next + 1))).foldl (fun s i =>
      match s.decide_ { w with next := w.next + 1 + i } with
      | .hookWait s1 => s1
      | _ => s) s
  else s

/-- One work tries for its next chunk. -/
def State.tryStart (s : State) (w : Work) (unit : UnitKind) : Start :=
  if !s.mayStart w then .skip s
  else
    match s.decide_ w with
    | .wait => .skip s
    | .noFrame => .skip s
    | .hookWait s1 => .skip (s1.countAhead w)
    | .stop s1 st dt => .did ((s1.updWork w.id fun v => v.stopWith st dt).settle w.id)
    | .pass s1 => .did (s1.passed w)
    | .go s1 draw refs frame res => if draw.le (s.available (s.partOf w.d.tid)) then .did (s1.begin w unit draw refs frame res) else .blocked

/-- A partition's works of a unit in order of service (R44): the first that is ready starts; one short of balance holds the later
ones back. -/
def State.tryAll (s : State) (unit : UnitKind) : List Work → State × Bool
  | [] => (s, false)
  | w :: t =>
    match s.work w.id with
    | none => s.tryAll unit t
    | some w =>
      match s.tryStart w unit with
      | .skip s1 => s1.tryAll unit t
      | .blocked => (s, false)
      | .did s1 => (s1, true)

/-- A partition's turn for the flash unit (R44, R193 to R195, R206). -/
def State.flashTurn (s : State) (p : Nat) : State × Bool :=
  match s.flashFirst p (s.flashJobs p) with
  | some s1 => (s1, true)
  | none => (s, false)

/-- A partition's turn for a unit; the pool unit serves resync copies after its POOL_XFERs (R406). -/
def State.turnOf (s : State) (unit : UnitKind) (p : Nat) : State × Bool :=
  match unit with
  | .flash => s.flashTurn p
  | _ =>
    let r := s.tryAll unit (s.serviceOrder p fun w => unitOf w.d.opcode == some unit)
    if r.2 || unit != .poolXfer then r
    else
      match r.1.resyncChunk p with
      | some s1 => (s1, true)
      | none => r

/-- Partitions in rotation until one starts a chunk (R44). DESIGN CHOICE (log 98): one rotation serves every unit and resource, and it
begins after partition 0. -/
def State.rotate (s : State) (unit : UnitKind) : List Nat → State
  | [] => s
  | p :: t =>
    let r := s.turnOf unit p
    if r.2 then { r.1 with bnd := { r.1.bnd with rot := p } } else r.1.rotate unit t

/-- A chunk waits for a frame (R206): none is free, and a work's next chunk or a page-in needs one. -/
def State.frameWaits (s : State) : Bool :=
  s.framesFree == 0 && s.wk.works.any fun w => s.mayStart w &&
    ((s.nextRead w).any (·.st == 4) || match s.decide_ w with
      | .noFrame => true
      | _ => false)

/-- A wait for a frame noted: TIER.STATUS.FRAME_WAIT, and the Stroke counted at its end (R206). -/
def State.noteWaits (s : State) : State := if s.frameWaits then s.setTier fun t => { t with waited := true } else s

/-- CHUNK_START (R35, R44): the unit starts its next ready chunk, if the balance of a partition lets one start. -/
def execChunkStart (unit : UnitKind) (s : State) : Res := .next (if s.working then (s.rotate unit s.rotation).noteWaits else s)

/-! ### Ends of chunks -/

/-- A run that a command cannot end: a message waits for its acknowledgement, a hook's calls are open, keys are still hashed, a
cascade word is out (R247). -/
def State.runOpen (s : State) (w : Work) (r : Run) : Bool :=
  (match r.res with
    | .message _ _ _ _ => true
    | _ => false) || s.callsOpen w.id r.idx || !r.hashDone || s.srch.casc.any fun o => o.work == w.id && o.idx == r.idx

/-- What a chunk installs. -/
def State.install (s : State) (w : Work) (r : Run) : State :=
  let op := w.d.opcode
  if op = opAPPEND then s.endAppend w r
  else if op = opATTN then s.endAttn w r
  else if op = opFIND ∨ op = opNEXT then s.endFind w r
  else if op = opINSERT ∨ op = opREMOVE then s.endUpdate w r
  else if op = opRESHARD then s.endSend w r
  else if op = opXFER then s.endXfer w r
  else
    match r.res with
    | .host addr bytes => s.memWrite addr bytes
    | _ => s

/-- Opcodes whose installation moves the extent itself. -/
def ownsExtent (op : Nat) : Bool := op == opFIND || op == opNEXT || op == opINSERT || op == opREMOVE || op == opRESHARD

/-- A chunk ended well: its result stands, its position has ended unless the result itself stopped the descriptor. -/
def State.endRun (s : State) (w : Work) (r : Run) : State :=
  let s0 := ((s.dropRun w.id r).updWork w.id fun v => { v with stop := none }).install w r
  -- a page the chunk created lies in the chunk's frame
  let s1 := if r.frame.isSome then s0.updPage s.sq.nextPid fun g => { g with frame := r.frame } else s0
  let mine := (s1.work w.id).bind (·.stop)
  let s2 := s1.updWork w.id fun v =>
    { (if mine.isSome || ownsExtent w.d.opcode then v else v.endAt r.idx) with stop := if w.stop.isSome then w.stop else mine }
  (s2.dropCalls w.id r.idx).freeHeld.settle w.id

/-- A chunk's own host read failed (Table 20-1, class INPUT): it installs nothing and its descriptor ends ABORTED_FAULT. -/
def State.inputFault (s : State) (w : Work) (r : Run) : State :=
  let s1 := (s.fault clsINPUT 0 (tidSidInfo w.d.tid w.d.sid)).dropRun w.id r
  let s2 := (s1.dropCalls w.id r.idx).updWork w.id fun v =>
    v.stopWith stFAULT dtINPUT_FAULT
  s2.freeHeld.settle w.id

/-- Opcodes whose chunks read host memory. -/
def readsHost (op : Nat) : Bool := op == opAPPEND || op == opFIND || op == opNEXT || op == opINSERT

/-- The read of R283 fails, before an ATTN_PARTIAL's first chunk: the descriptor ends ABORTED_FAULT with extent 0 (R298). -/
def State.queryFault (s : State) (w : Work) : State :=
  if w.d.opcode ≠ opATTN ∨ w.phase ≠ 1 ∨ w.next ≠ 0 ∨ w.stop.isSome then s
  else
    ((s.fault clsINPUT 0 (tidSidInfo w.d.tid w.d.sid)).updWork w.id fun v => v.stopWith stFAULT dtATTN_INPUT).settle w.id

/-- CHUNK_END (R35, R125). An input fault of an ATTN_PARTIAL that has started no chunk is that of its reads (R283, R298; DESIGN CHOICE,
log 97: the table has no row of its own for it). -/
def execChunkEnd (work chunk : Nat) (res : ChunkRes) (s : State) : Res :=
  .next (match (if s.working then s.work work else none) with
    | none => s
    | some w =>
      match w.run.find? (·.idx = chunk) with
      | none => if res = .inputFault then s.queryFault w else s
      | some r =>
        if res = .inputFault then (if readsHost w.d.opcode then s.inputFault w r else s)
        else if s.runOpen w r then s
        else s.endRun w r)

/-! ### THROTTLED (R254) -/

/-- A search work's chunk is ready, whether or not search is halted, and lacks no resource but search. -/
def State.searchReady (s : State) (w : Work) : Bool :=
  let t := s.put SRCH.BRAKE_STATUS.HALTED 0
  t.mayStart w && match t.decSearch w with
    | .go _ draw _ _ _ => { draw with search := 0 }.le (t.available (t.partOf w.d.tid))
    | _ => false

/-- A descriptor carries THROTTLED, and is counted the first time. -/
def State.markThrottled (s : State) (w : Work) : State :=
  if w.flags / flTHROTTLED % 2 = 1 then s else (s.flagWork w.id flTHROTTLED).sat SRCH.THROTTLED_COUNT.COUNT

/-- Works of one partition that an unbraked balance of `u` units would have let start. -/
def State.throttlePart (s : State) (short : Bool) : Nat → List Work → State
  | _, [] => s
  | 0, _ => s
  | u + 1, w :: t => if s.searchReady w then ((if short then s.markThrottled w else s).throttlePart short u t) else s.throttlePart short (u + 1) t

/-- At the end of a Stroke: search chunks that were ready and that the Brake kept from starting (R254): the scaled balance, carry included, is
spent and the unscaled one is not. A descriptor counts once. -/
def State.throttle (s : State) : State :=
  s.bnd.bal.foldl (fun s b =>
    let ws := s.serviceOrder b.part fun w => unitOf w.d.opcode == some .search
    if s.halted then ws.foldl (fun s w => if s.searchReady w then s.markThrottled w else s) s
    else s.throttlePart (b.fresh.search + b.carry.search == 0) b.unbraked ws) s

end Sys2Proof.Machine
end

