-- ==== Sys2Proof/Machine/Links.lean ====
section
/-! DEFINITION. Links and Freewheel pairs: a port loses its link or regains it, a pair is opened or closed (R324, R325, R333, R349,
Table 15-6). -/

namespace Sys2Proof.Machine

/-- A ring port's frames are held from now (R333). -/
def State.holdHop (s : State) (p : Nat) : State := s.setHop { s.hop p with held := some s.stroke }

/-- A port without its link: a ring port holds its frames, an Ethernet port raises PORT_DOWN and its QPs enter ERR. -/
def State.loseLink (s : State) (p : Nat) : State :=
  let s1 := (s.put SPOKE.PORT_STATUS.LINK_UP 0 p).fault clsLINK p 0
  if s.portMode p = 2 then s1.holdHop p else if s.portMode p = 1 then s1.portDown p else s1

/-- A pair starts closing: both its ports are without a link. -/
def State.closePair (s : State) (i : Nat) : State := ((s.setPairSt i 3).loseLink (2 * i)).loseLink (2 * i + 1)

/-- A write of SPOKE.FREEWHEEL_CTRL: OPEN of a CLOSED pair whose modes agree, CLOSE of an OPEN one (R324, R325, R349). -/
def hFreewheelCtrl : Handler :=
  { Handler.plain with
    chk := fun s _ _ v => (List.range 4).any fun i =>
      let m := s.portMode (2 * i)
      (fieldGet v i 1 == 1 && (s.pairState i != 0 || m == 0 || m != s.portMode (2 * i + 1))) ||
        (fieldGet v (4 + i) 1 == 1 && s.pairState i != 2)
    act := fun s _ v => (List.range 4).foldl (fun s i =>
      if fieldGet v i 1 = 1 then s.setPairSt i 1 else if fieldGet v (4 + i) 1 = 1 then s.closePair i else s) s }

/-- FREEWHEEL_OPEN (R324). -/
def execFreewheelOpen (pair : Nat) (s : State) : Res :=
  .next (bar0 hFreewheelCtrl SPOKE.FREEWHEEL_CTRL.off (BitVec.ofNat 32 (2 ^ (pair % 4))) s)

/-- FREEWHEEL_CLOSE (R325). -/
def execFreewheelClose (pair : Nat) (s : State) : Res :=
  .next (bar0 hFreewheelCtrl SPOKE.FREEWHEEL_CTRL.off (BitVec.ofNat 32 (2 ^ (4 + pair % 4))) s)

/-- LINK_DOWN (R333). -/
def execLinkDown (port : Nat) (s : State) : Res :=
  .next (if s.working && decide (port < 8) && s.linkUp port then s.loseLink port else s)

/-- The hold of a port's frames is over. -/
def State.holdDue (s : State) (p : Nat) : Bool :=
  match (s.hop p).held with
  | none => false
  | some t => !s.linkUp p && decide (t + s.get SPOKE.LINK_HOLD.STROKES < s.stroke)

/-- Frames kept for replay, then those that wait, with the ports whose buffers hold them. -/
def Hop.kept (h : Hop) : List (Option Nat × Frame) := h.replay.map (fun f => (none, f)) ++ h.queue

/-- The held frames go the other way round (R332, R333); the hop's numbering begins anew with its next link (R329). -/
def State.endHold (s : State) (p : Nat) : State :=
  let h := s.hop p
  h.kept.foldl (fun s x => s.sendFrom (otherPort p) x.1 x.2) (s.setHop { freshHop p with member := h.member })

/-- LINK_HOLD_EXPIRY (R333). -/
def execLinkHoldExpiry (port : Nat) (s : State) : Res := .next (if s.working && s.holdDue port then s.endHold port else s)

/-- Every hold that is over ends, at a boundary. -/
def State.dueHolds (s : State) : State := (List.range 8).foldl (fun s p => if s.holdDue p then s.endHold p else s) s

/-- Frames that wait at the other port of the pair, whose link is down and its hold over: they go by way of this one (R332, R333). -/
def State.strandedAt (s : State) (p : Nat) : List (Option Nat × Frame) :=
  if !s.linkUp p && (s.hop p).held.isNone then (s.hop p).queue else []

/-- A ring port's link is back (R333): to the same member within the hold, it replays; to another, frames for the one that left are discarded;
then, as after a hold that expired, the rest goes under new numbers, once the new hop's HELLO gives credits. -/
def State.relink (s : State) (p member : Nat) : State :=
  let h := s.hop p
  if h.held.isSome ∧ h.member = some member then (((s.setHop { h with held := none }).payOwed p).replayHop p).drainHop p
  else
    let gone (x : Option Nat × Frame) : Bool := h.member != some member && h.member == some x.2.dst
    let o := otherPort p
    let keep := h.kept.filter (fun x => !gone x) ++ s.strandedAt o
    let s1 := if s.strandedAt o = [] then s else s.setHop { s.hop o with queue := [] }
    ((s1.setHop { freshHop p with member := some member, queue := keep }).put SPOKE.PORT_STATUS.PARTNER member p).drainHop p

/-- LINK_UP (R333, R505, Table 15-6): only a port of an open pair whose laser is on has a link. -/
def execLinkUp (port member : Nat) (s : State) : Res :=
  if !s.working || decide (8 ≤ port) || s.linkUp port || s.pairState (port / 2) != 2 || !s.laserOn port then .next s
  else
    let s1 := s.put SPOKE.PORT_STATUS.LINK_UP 1 port
    .next (if s.portMode port = 2 then s1.relink port member else s1.portEvent 0x01 port 0)

end Sys2Proof.Machine
end

