-- ==== Sys2Proof/Machine/Peloton.lean ====
section
/-! DEFINITION. Membership of a peloton: joining and leaving, MARKs and the agreement of the count, members lost, transactions that go
unanswered (R31 to R34, R334 to R339). -/

namespace Sys2Proof.Machine

/-! ### Leaving, and members lost -/

/-- Tenants with a RESHARD or ADVANCE towards a member (Table 20-2). -/
def State.tenantsTowards (s : State) (m : Nat) : List Nat :=
  (((s.wk.works.filter fun w => w.phase == 1 && ((w.isSend && w.resh.targets.any (·.2 == m)) || (match w.aux with
    | .adv a => a.asked.contains m
    | _ => false))).map (·.d.tid)).filter (· ≠ 0)).eraseDups

/-- A member is lost (R337, R347, R404): dropped from the roster, counted, announced; RESHARDs towards it and the Tandem pair follow. -/
def State.loseMember (s : State) (m : Nat) : State :=
  let s1 := (s.event (some (0 :: s.tenantsTowards m)) 0x43 m).fault clsLINK 0 0
  let s2 := ((s1.setRoster (s1.roster.filter (· ≠ m))).sat SPOKE.ROSTER_CHANGES.COUNT).setChain fun c => { c with beats := kvDel c.beats m }
  let s3 := (s2.forgetSource m).memberLostSends m
  if s.tandemOn ∧ s.partner = m then s3.partnerLost else s3

/-- The card leaves the peloton (R32, R337). -/
def State.leave (s : State) : State :=
  let s1 := (((s.put SPOKE.MEMBER_STATUS.STATE 4).put SYS.STROKE_STATUS.LOCKED 0).put SYS.STROKE_STATUS.PACER 0).setReg SPOKE.ROSTER.off 0#32
  let s2 := (s.roster.filter (· ≠ s.me)).foldl (fun s m => s.memberLostSends m) (s1.setChain fun c => { c with beats := [], takeCount := false })
  if s.tandemOn then s2.partnerLost else s2

/-! ### JOIN and LEAVE (R335, R337, R349) -/

/-- A write of SPOKE.MEMBER_CTRL: JOIN and LEAVE are W1S bits for which no clear is named, so they read 1 from then on (R9, log 85). EXPECTED
is 1 to 32 (Table 14-8). A write of both joins and then leaves (DESIGN CHOICE, log 131). -/
def hMemberCtrl : Handler :=
  { Handler.plain with
    chk := fun s _ old v =>
      let st := s.memberState
      let join := fieldGet v 16 1 == 1
      let other := fieldGet v 0 5 != fieldGet old 0 5 || fieldGet v 8 6 != fieldGet old 8 6
      ((join || other) && (st == 1 || st == 2)) || (join && st == 4) || fieldGet v 8 6 == 0 || decide (32 < fieldGet v 8 6)
    act := fun s _ v =>
      let s1 := if fieldGet v 16 1 = 1 then
          ((((s.put SPOKE.MEMBER_CTRL.JOIN 1).put SPOKE.MEMBER_STATUS.STATE 1).put SPOKE.MEMBER_STATUS.CAUSE 0).setChain fun c =>
            { c with joinAt := some s.stroke, beats := [], helloOn := [], badPeriod := false, dupId := false, takeCount := false,
                     running := false }).tryJoin
        else s
      if fieldGet v 17 1 = 1 then
        let s2 := s1.put SPOKE.MEMBER_CTRL.LEAVE 1
        if s1.memberState = 1 ∨ s1.isMember then s2.leave else s2
      else s1 }

/-- JOIN (R335). -/
def execJoinCmd (s : State) : Res := .next (bar0Bit hMemberCtrl SPOKE.MEMBER_CTRL.JOIN s)

/-- LEAVE (R337). -/
def execLeaveCmd (s : State) : Res := .next (bar0Bit hMemberCtrl SPOKE.MEMBER_CTRL.LEAVE s)

/-- 2 s have passed since JOIN and its conditions are not met. -/
def State.joinDue (s : State) : Bool :=
  s.memberState == 1 && match s.chain.joinAt with
    | none => false
    | some t => decide (2000000 ≤ (s.stroke - t) * s.period)

/-- JOIN_TIMEOUT (R335). -/
def execJoinTimeout (s : State) : Res := .next (if s.working && s.joinDue then s.refuseJoin 1 else s)

/-! ### MARKs (R31, R32, R336, R338, R339) -/

/-- The payload of a MARK of the Stroke that begins. -/
def State.markBytes (s : State) : List Byte :=
  let t := s.bnd.armedPeriod.getD 0
  padTo 64 (leBytes 6 s.stroke ++ leBytes 8 (Config.nanoTime s.free) ++ leBytes 4 0 ++ leBytes 1 0 ++
    leBytes 1 (if t = 0 then 0 else s.get SYS.STROKE_PERIOD.NEXT_US) ++ leBytes 6 t)

/-- The pacer's MARK towards every member, at each boundary (R338): a card that became pacer at this boundary sends from the next (R337). -/
def State.sendMark (s : State) (was : Bool) : State :=
  if was && s.working && s.isMember && s.flag SYS.STROKE_STATUS.PACER then s.nextFree.sendTo 0 ftMARK 0xFF 0 s.markBytes else s

/-- A member arms the period switch a MARK announces (R339). -/
def State.armFrom (s : State) (next target : Nat) : State :=
  if target = 0 then s
  else
    let s1 := (s.put SYS.STROKE_PERIOD.NEXT_US next).put SYS.STROKE_STATUS.ARMED 1
    { s1 with bnd := { s1.bnd with armedPeriod := some target } }

/-- The card takes the count from the first MARK it latches: the next boundary begins the Stroke after the MARK's (R26, R336). -/
def State.takeCountFrom (s : State) (n : Nat) : State :=
  let s1 := s.becomeMember
  let s2 := s1.setChain fun c => { c with lastMark := n + 1, beats := c.beats.map fun b => (b.1, n + 1) }
  { s2 with bnd := { s2.bnd with preset := some (n + 1) } }

/-- A MARK's offset judged: within ±(200 ns + 20 ns per hop) 16 times running sets LOCKED; beyond 1 µs the card leaves. A MARK of a
Stroke beyond the one this card begins next means another number, hence an offset of whole periods (R31, R32). -/
def State.judgeMark (s : State) (n : Nat) (off : Int) (hops : Nat) : State :=
  let sat : Int := max (-32767) (min 32767 off)
  let s1 := s.put SYS.STROKE_STATUS.OFFSET_NS ((sat % 65536).toNat)
  let inB := decide (off.natAbs ≤ 200 + 20 * hops)
  let k := if inB then s.chain.marks + 1 else 0
  let s2 := s1.setChain fun c => { c with lastMark := s.stroke, marks := k }
  if 1000 < off.natAbs ∨ s.stroke + 1 < n then s2.leave else if 16 ≤ k then s2.put SYS.STROKE_STATUS.LOCKED 1 else s2

/-- A MARK latched from the pacer (R338). Its byte 18 counts the cards that forwarded it, so it has taken one hop more (DEDUCED, log 131). -/
def State.takeMark (s : State) (f : Frame) (off : Int) : State :=
  let n := f.b 0 6
  if s.memberState = 1 ∧ s.chain.takeCount then (s.takeCountFrom n).armFrom (f.b 19 1 % 128) (f.b 20 6)
  else if f.src ≠ s.get SPOKE.MEMBER_STATUS.PACER then s
  else if !s.isMember || decide (n + 1024 < s.stroke) then s
  else (s.judgeMark n off (f.b 18 1 + 1)).armFrom (f.b 19 1 % 128) (f.b 20 6)

/-- MARK_RECEIVE (R338): `offsetNs` is the boundary offset the member works out from the MARK. -/
def execMarkReceive (port : Nat) (f : Frame) (offsetNs : Int) (s : State) : Res :=
  .next (s.receive port ftMARK f fun s f => s.takeMark f offsetNs)

/-- No MARK was latched for twice MEMBER_TIMEOUT Strokes. -/
def State.markDue (s : State) : Bool :=
  s.isMember && !s.flag SYS.STROKE_STATUS.PACER && decide (s.chain.lastMark + 2 * s.get SPOKE.MEMBER_TIMEOUT.STROKES < s.stroke)

/-- MARK_TIMEOUT (R337). -/
def execMarkTimeout (s : State) : Res := .next (if s.working && s.markDue then s.leave else s)

/-- A member of the roster whose BEAT was not latched within MEMBER_TIMEOUT Strokes. -/
def State.rosterDue (s : State) (m : Nat) : Bool := s.isMember && s.roster.contains m && !s.liveMembers.contains m

/-- ROSTER_TIMEOUT (R337). -/
def execRosterTimeout (member : Nat) (s : State) : Res := .next (if s.working && s.rosterDue member then s.loseMember member else s)

/-! ### Unanswered transactions (R334, Table 14-5) -/

/-- An EPOCH_PREPARE sent again whose ADVANCE runs: it waits for its READY as long as the epoch rules let it (Table 14-5, R346). -/
def State.awaitsReady (s : State) (t : Txn) : Bool := t.typ == ftEPOCH_PREPARE && t.again && (s.work t.work).any (·.phase == 1)

/-- A transaction's wait is over; a match token has its own timer. -/
def State.txnDue (s : State) (t : Txn) : Bool :=
  t.typ != ftMATCH_TOKEN && !s.awaitsReady t && decide (t.sent + s.get SPOKE.XFER_WAIT.STROKES < s.stroke)

/-- A transaction fails. -/
def State.failTxn (s : State) (t : Txn) : State :=
  if t.typ = ftRESHARD_OPEN then s.takeOpenAnswer t.xid 1
  else if t.typ = ftPAGE_SEG then (s.endTxn t.xid).sendLost t.work t.member
  else if t.typ = ftEPOCH_COMMIT then (s.endTxn t.xid).countAck t.work t.member 2
  else if t.typ = ftMIRROR_WRITE then (s.endTxn t.xid).partnerLost
  else s.endTxn t.xid

/-- A transaction sent once more. -/
def State.resend (s : State) (t : Txn) : State :=
  let f (y : Txn) : Txn := if y.xid = t.xid then { y with again := true, sent := s.stroke } else y
  t.frames.foldl (fun s g => s.sendTo g.ring g.typ g.dst g.xid g.payload) (s.setChain fun c => { c with txns := c.txns.map f })

def State.txnTurn (s : State) (t : Txn) : State := if t.again then s.failTxn t else s.resend t

/-- XFER_WAIT_EXPIRY (R334). -/
def execXferWaitExpiry (xid : Nat) (s : State) : Res :=
  match s.txn xid with
  | none => .next s
  | some t => .next (if s.working && s.txnDue t then s.txnTurn t else s)

/-- The peloton's timers at a boundary (R39). -/
def State.duePeloton (s : State) : State :=
  let s1 := if s.joinDue then s.refuseJoin 1 else s
  let s2 := if s1.markDue then s1.leave else s1
  let s3 := (List.range 32).foldl (fun s m => if s.rosterDue m then s.loseMember m else s) s2
  s3.chain.txns.foldl (fun s t => match s.txn t.xid with
    | none => s
    | some t => if s.txnDue t then s.txnTurn t else s) s3

end Sys2Proof.Machine
end

