-- ==== Sys2Proof/Machine/Tenants.lean ====
section
/-! DEFINITION. Chapter 17: partitions, tenants and their functions, keys, and the reset of a tenant (R409 to R414, R417 to R420, R427 to
R432). -/

namespace Sys2Proof.Machine

/-- Register numbers with a word other than power-up's at an offset. -/
def State.listed_ (s : State) (off : Nat) : List Nat := (s.regs.filter fun p => p.1 % 0x1000000 = off).map fun p => p.1 / 0x1000000

/-! ### Partitions -/

/-- A tenant that is not FREE is bound to the partition, live or by its shadow, or a pool region names it (R410). -/
def State.partInUse (s : State) (p : Nat) : Bool :=
  (s.listed_ PART.TENANT_STATUS.off).any (fun t => s.tenState t != 0 && (s.partOf t == p || s.get PART.TENANT_PARTITION.NEXT t == p)) ||
    (s.listed_ POOL.REGION_STATUS.off).any fun r => s.poolState r != 0 && s.poolPart r == p

/-- PART.PARTITION_CTRL (R409, R410, R432). -/
def hPartitionCtrl : Handler :=
  { Handler.plain with
    chk := fun s p _ v =>
      let c := fieldGet v 0 1 == 1
      let d := fieldGet v 1 1 == 1
      (c && d) || ((c || d) && p == 0) || (c && s.partCreated p)
    act := fun s p v =>
      if fieldGet v 0 1 = 1 then s.atBoundary (.partCreate p)
      else if fieldGet v 1 1 = 1 ∧ s.partCreated p ∧ !s.partInUse p then s.atBoundary (.partDestroy p)
      else s }

/-- PARTITION_CREATE (R409). -/
def execPartitionCreate (s : State) : Res := .next (bar0Bit hPartitionCtrl PART.PARTITION_CTRL.CREATE s)

/-- PARTITION_DESTROY (R410). -/
def execPartitionDestroy (s : State) : Res := .next (bar0Bit hPartitionCtrl PART.PARTITION_CTRL.DESTROY s)

/-- A partition's registers at their After-power-up values. -/
def State.clearPart (s : State) (p : Nat) : State :=
  let mine (x : Nat × Word) : Bool :=
    x.1 / 0x1000000 == p && decide (PART.BUDGET_DRAM.off ≤ x.1 % 0x1000000) && decide (x.1 % 0x1000000 < PART.SWITCH_CTRL.off)
  { s with regs := s.regs.filter fun x => !mine x, live := s.live.filter fun x => !mine x }

/-- A creation at the boundary: zero budgets, an empty balance (R409). -/
def State.createPart (s : State) (p : Nat) : State :=
  let s1 := (s.clearPart p).put PART.PARTITION_STATUS.CREATED 1 p
  { s1 with bnd := { s1.bnd with bal := s1.bnd.bal.filter (·.part ≠ p) ++ [⟨p, Res6.zero, Res6.zero, 0, 0⟩] } }

/-- A destruction at the boundary (R410). -/
def State.destroyPart (s : State) (p : Nat) : State :=
  let s1 := (s.clearPart p).put PART.PARTITION_STATUS.CREATED 0 p
  { s1 with bnd := { s1.bnd with bal := s1.bnd.bal.filter (·.part ≠ p) } }

/-! ### Resets (R427, R428) -/

/-- DETAIL of an ABORTED_RESET (R428). -/
def dtReset (flr : Bool) : Nat := if flr then 0x0B01 else 0x0B02

/-- Every chunk of a work has been started, and nothing stopped it: what is left is its running chunks' end. A search that waits on other members is
none of these (Table 17-3). -/
def State.allBegun (s : State) (w : Work) : Bool :=
  w.stop.isNone && w.d.opcode != opFIND && w.d.opcode != opNEXT && decide (s.total w ≤ w.next)

/-- One outstanding descriptor met by its tenant's reset (Table 17-3): one whose work only has to end completes as it would (R428). -/
def State.resetWork (s : State) (id : Nat) (flr : Bool) : State :=
  match s.work id with
  | none => s
  | some w =>
    let dt := dtReset flr
    let begun := w.next ≠ 0 ∨ w.run ≠ []
    let stop : State := (s.updWork id fun v => v.stopWith stRESET dt).settle id
    let out : State := (s.setChain fun c => { c with txns := c.txns.filter (·.work ≠ id) }).latch id stRESET dt 0
    if w.phase = 0 then s.latch id stRESET dt 0
    else if w.phase ≠ 1 ∨ w.d.opcode = opCLOSE then s
    else if w.d.opcode = opFORK then
      (match s.seqBySid w.d.tid (w.d.b 32 4) with
        | none => out
        | some t => (s.undoFork t).latch id stRESET dt 0)
    else if !begun then out
    else if s.allBegun w then s
    else if w.d.opcode = opAPPEND ∧ s.inBlock w then s
    else stop

/-- A tenant reset starts (R427): fetch and chunk starts stop, every outstanding descriptor meets it. -/
def State.startReset (s : State) (tid : Nat) (flr destroy : Bool) : State :=
  if s.draining tid then s
  else
    let quiet (x : Nat × SqSt) : Nat × SqSt := if x.1 / 8 = tid then (x.1, { x.2 with inFetch := 0 }) else x
    let s1 := s.put PART.TENANT_STATUS.STATE (if destroy then 3 else 2) tid
    let dr : Drain := ⟨tid, s.stroke, flr, destroy⟩
    let s2 : State := { s1 with part := { s1.part with drains := s1.part.drains ++ [dr] }, ring := { s1.ring with sq := s1.ring.sq.map quiet } }
    (((s2.wk.works.filter (·.d.tid = tid)).map (·.id)).foldl (fun s id => s.resetWork id flr) s2).sameCycle s.wk.latched.length

/-- An FLR of a VF (R427, R429): the function retries configuration requests while its tenant's drain lasts. An unbound VF, or one whose
tenant is not ACTIVE, only has its MSI-X state reset. -/
def execFlrVf (vf : Nat) (s : State) : Res :=
  .next (
    if !s.pf0 || vf == 0 || decide (1023 < vf) then s
    else
      let t := s.get FN.VF_BIND.TID vf
      let s1 := { s with msix := s.msix.filter fun c => c.1 / 2 ^ 16 ≠ vf }
      if t = 0 ∨ s.tenState t ≠ 1 then s1
      else ({ s1 with part := { s1.part with vfCrs := s1.part.vfCrs ++ [vf] } }).startReset t true false)

/-! ### Tenants -/

/-- The conditions of a DESTROY (R414). -/
def State.mayDestroy (s : State) (t : Nat) : Bool :=
  !(s.sq.seqs.any (·.tid = t)) && !((s.listed_ SRCH.NS_CTRL.off).any fun n => s.nsMine t n) &&
    !((s.listed_ RDMA.PD_CTRL.off).any fun p => s.pdOn p && s.pdOwner p == t) && !(s.chain.staged.any (·.tid = t)) &&
    !(s.pool.takeover.any fun x => x.2.2 = t)

/-- Caps in range (R411). -/
def State.capsOk (s : State) (t : Nat) : Bool :=
  !outside (s.get PART.TENANT_CAPS.DESC_CAP t) 1 65536 && !outside (s.get PART.TENANT_CAPS.STREAM_CAP t) 1 4096

/-- The cause that refuses a CREATE (R411), 0 for none. -/
def State.createFail (s : State) (t : Nat) : Nat :=
  if !s.partCreated (s.get PART.TENANT_PARTITION.NEXT t) then 2 else if !s.capsOk t then 3 else 0

/-- PART.TENANT_CTRL (R411, R414, R427, R432). -/
def hTenantCtrl : Handler :=
  { Handler.plain with
    chk := fun s t _ v =>
      let c := fieldGet v 0 1 == 1
      let d := fieldGet v 1 1 == 1
      let r := fieldGet v 2 1 == 1
      (c && d) || (c && r) || (d && r) || ((c || d || r) && t == 0) || (c && s.tenState t != 0) ||
        (r && s.tenState t != 1)
    act := fun s t v =>
      let cause (n : Nat) : State := s.put PART.TENANT_STATUS.REFUSE_CAUSE n t
      if fieldGet v 0 1 = 1 then
        let f := s.createFail t
        if f = 0 then (cause 0).atBoundary (.tenantCreate t) else cause f
      else if fieldGet v 1 1 = 1 then
        (if s.tenState t ≠ 1 then cause 1 else if !s.mayDestroy t then cause 4 else (cause 0).startReset t false true)
      else if fieldGet v 2 1 = 1 then s.startReset t false false
      else s }

/-- PART.TENANT_PARTITION and TENANT_CAPS: not of tenant 0 (Table 17-4, R432). -/
def hTenantField : Handler := { Handler.plain with chk := fun _ t old v => t == 0 && old != v }

/-- TENANT_CREATE (R411). -/
def execTenantCreate (s : State) : Res := .next (bar0Bit hTenantCtrl PART.TENANT_CTRL.CREATE s)

/-- TENANT_DESTROY (R414). -/
def execTenantDestroy (s : State) : Res := .next (bar0Bit hTenantCtrl PART.TENANT_CTRL.DESTROY s)

/-- TENANT_RESET (R427). -/
def execTenantReset (s : State) : Res := .next (bar0Bit hTenantCtrl PART.TENANT_CTRL.RESET s)

/-- SELECT registers that name a tenant: what a DESTROY returns to power-up values (R414). -/
def tenantSelects : List Nat :=
  [PART.TENANT_SELECT.off, XLAT.TENANT_SELECT.off, CMPR.CODE_TENANT_SELECT.off, GEAR.TENANT_SELECT.off, SPOKE.TENANT_SELECT.off,
   RDMA.EVENT_TID_SELECT.off, POOL.KV_TID_SELECT.off]

/-- A register word is a setting of the tenant. -/
def settingOf (t : Nat) (key : Nat) : Bool :=
  let off := key % 0x1000000
  let k := key / 0x1000000
  if inRingWindow off then (off - 0x40000) / 0x100 == t
  else k == t && (match findReg off with
    | none => false
    | some r => r.sel.any fun o => tenantSelects.contains o)

/-- What a CREATE keeps of the tenant's registers: state, partition and caps as the installer wrote them. -/
def createKeeps (off : Nat) : Bool := off == PART.TENANT_STATUS.off || off == PART.TENANT_PARTITION.off || off == PART.TENANT_CAPS.off

/-- A creation at the boundary: ACTIVE, with the partition and caps of its shadows, every other setting at its After-power-up value (R411). -/
def State.createTenant (s : State) (t : Nat) : State :=
  let f := s.createFail t
  if s.tenState t ≠ 0 then s
  else if f ≠ 0 then s.put PART.TENANT_STATUS.REFUSE_CAUSE f t
  else
    let mine (x : Nat × Word) : Bool := settingOf t x.1 && !createKeeps (x.1 % 0x1000000)
    let s0 : State := { s with regs := s.regs.filter fun x => !mine x, live := s.live.filter fun x => !settingOf t x.1 }
    ((s0.put PART.TENANT_STATUS.STATE 1 t).put PART.TENANT_PARTITION.LIVE (s.get PART.TENANT_PARTITION.NEXT t) t).setLive
      PART.TENANT_CAPS.off (s.reg PART.TENANT_CAPS.off t) t

/-- FN.VF_BIND (R412): one VF and one ACTIVE tenant each; only while the tenants concerned have no enabled ring. -/
def hVfBind : Handler :=
  { Handler.plain with
    chk := fun s vf old v =>
      let t := fieldGet v 0 10
      let was := fieldGet old 0 10
      let ringOn (t : Nat) : Bool := (List.range 8).any fun q => s.sqOn t q || s.cqOn t q
      vf == 0 || (t != was && ((was != 0 && ringOn was) ||
        (t != 0 && (s.tenState t != 1 || ringOn t || (s.listed_ FN.VF_BIND.off).any fun f => f != vf && s.get FN.VF_BIND.TID f == t)))) }

/-- What a DESTROY clears when its drain ends (R414); members' tenants mapped to it are mapped no more (DESIGN CHOICE, log 137). -/
def State.freeTenant (s : State) (t : Nat) : State :=
  let unbind (x : Nat × Word) : Bool := (x.1 % 0x1000000 == FN.VF_BIND.off || x.1 % 0x1000000 == SPOKE.PEER_TENANT.off) && fieldGet x.2 0 10 == t
  { s with regs := s.regs.filter fun x => !settingOf t x.1 && !unbind x, live := s.live.filter fun x => !settingOf t x.1,
           part := { s.part with keys := kvDel s.part.keys t }, ring := { s.ring with stat := kvDel s.ring.stat t },
           err := { s.err with evSeq := kvDel s.err.evSeq t } }

/-! ### The drain's end (R429, R430) -/

/-- Nothing is left that the drain waits for: SEQ_CLOSE runs on (Table 17-3). -/
def State.drained (s : State) (t : Nat) : Bool := s.wk.works.all fun w => w.d.tid != t || (w.d.opcode == opCLOSE && w.phase == 1)

/-- The tenant's rings disabled, their counts discarded (R429). -/
def State.dropRings (s : State) (t : Nat) : State :=
  let s1 := (List.range 8).foldl (fun s q =>
    let sq := fnOff t q FN.SQ_CTRL.rel
    let cq := fnOff t q FN.CQ_CTRL.rel
    (s.setReg sq (fieldPut (s.reg sq) 16 1 0)).setReg cq (fieldPut (s.reg cq) 8 1 0)) s
  { s1 with ring := { s1.ring with sq := s1.ring.sq.filter (·.1 / 8 ≠ t), cq := s1.ring.cq.filter (·.1 / 8 ≠ t) } }

/-- One drain that has nothing left to wait for ends, after the completions of a boundary (R429). A SEQ_CLOSE that still runs writes no
completion. -/
def State.endDrain (s : State) (d : Drain) : State :=
  let t := d.tid
  let hush (w : Work) : Work :=
    if w.d.tid = t then { w with d := { w.d with quiet := true, deadline := 0, resultUnits := 0 } } else w
  let vf := s.vfOf t
  let s1 := { s with wk := { s.wk with works := s.wk.works.map hush },
                     part := { s.part with drains := s.part.drains.filter (·.tid ≠ t),
                                           vfCrs := s.part.vfCrs.filter fun v => some v ≠ vf } }
  let s2 := ((s1.dropRings t).put PART.TENANT_STATUS.STATE (if d.destroy then 0 else 1) t).put PART.TENANT_STATUS.DRAIN_STROKES
    (min (s.stroke - d.since) 65535) t
  if d.destroy then
    (s2.freeTenant t).put PART.TENANT_STATUS.DRAIN_STROKES (min (s.stroke - d.since) 65535) t
  else s2

/-- Step 2 of a boundary, after its completions: drains that are over end. -/
def State.endDrains (s : State) : State := s.part.drains.foldl (fun s d => if s.drained d.tid then s.endDrain d else s) s

/-- The drain of a tenant has lasted RESET_DRAIN Strokes (R430). -/
def State.drainDue (s : State) (t : Nat) : Bool :=
  s.part.drains.any fun d => d.tid == t && decide (d.since + s.get PART.RESET_DRAIN.STROKES ≤ s.stroke)

/-- At expiry what still runs ends RESET_TIMEOUT with its extent; its runs and calls are abandoned (R430). -/
def State.expireDrain (s : State) (t : Nat) : State :=
  ((s.wk.works.filter fun w => w.d.tid = t ∧ w.phase = 1 ∧ w.d.opcode ≠ opCLOSE).foldl (fun s w =>
    let s1 := w.run.foldl (fun s r => (s.dropCalls w.id r.idx).dropRun w.id r) s
    let s2 := s1.setChain fun c => { c with txns := c.txns.filter (·.work ≠ w.id) }
    match s2.work w.id with
    | none => s2
    | some v =>
      let s3 := s2.updWork w.id fun v => { v with stop := some (stFAULT, 0x0B03), aux := match v.aux with
        | .resh r => .resh { r with unplaced := [], opening := [] }
        | x => x }
      let s4 := if v.d.opcode = opDELIVER then s3 else s3.settle w.id
      if (s4.work w.id).any (·.phase = 1) then s4.latch w.id stFAULT 0x0B03 (s.extentOf v) else s4) s).sameCycle s.wk.latched.length

/-- RESET_DRAIN_EXPIRY (R430). -/
def execResetDrainExpiry (tid : Nat) (s : State) : Res := .next (if s.working && s.drainDue tid then s.expireDrain tid else s)

/-- Step 3 of a boundary: drains that have lasted too long. -/
def State.dueDrains (s : State) : State := s.part.drains.foldl (fun s d => if s.drainDue d.tid then s.expireDrain d.tid else s) s

/-! ### Keys (R417 to R420) -/

/-- The 64 bytes of KEY_DATA of the selected tenant. -/
def State.keyData (s : State) (t : Nat) : List Byte := (List.range 16).flatMap fun i => leBytes 4 (s.reg (PART.KEY_DATA.off + 4 * i) t).toNat

/-- Every KEY_DATA word zeroed (R417). -/
def State.zeroKeyData (s : State) (t : Nat) : State := (List.range 16).foldl (fun s i => s.setReg (PART.KEY_DATA.off + 4 * i) 0#32 t) s

/-- KEY_DATA_0 to _15: held until a LOAD, read as zero (R417). -/
def hKeyData (off : Nat) : Handler :=
  { Handler.plain with
    chk := fun _ t _ _ => t == 0
    act := fun s t v => s.setReg off v t }

/-- The cause that refuses a LOAD (R417). -/
def State.loadFail (s : State) (t : Nat) : Nat :=
  let k := s.keyData t
  let a := k.take 32
  let b := k.drop 32
  if s.tenState t ≠ 1 then 1
  else if (kvFind s.part.keys t).isSome then 2
  else if a = b then 3
  else if a = zeros 32 ∨ b = zeros 32 then 4
  else 0

/-- Protected data or an action needs the tenant's key (R420). -/
def State.keyNeeded (s : State) (t : Nat) : Bool :=
  s.sq.seqs.any (fun q => q.tid == t && q.prot) ||
    (s.flash.actions ++ s.flash.acting.toList).any (fun a => a.action == 1 && a.target == t && (decide (a.index < 1024) || decide (2304 ≤ a.index))) ||
    s.pool.takeover.any (fun x => x.2.2 == t) || s.pool.resync.any fun x => x.1 && x.2.1 == t

/-- PART.KEY_CTRL (R417, R419, R420). -/
def hKeyCtrl : Handler :=
  { Handler.plain with
    chk := fun _ t _ v => (t == 0 && fieldGet v 0 2 != 0) || fieldGet v 0 2 == 3
    act := fun s t v =>
      if fieldGet v 0 1 = 1 then
        let f := s.loadFail t
        let k := s.keyData t
        let s1 := (s.zeroKeyData t).put PART.KEY_STATUS.REFUSE_CAUSE f t
        if f ≠ 0 then s1
        else
          ({ s1 with part := { s1.part with keys := kvSet s1.part.keys t k } }.put PART.KEY_STATUS.LOADED 1 t).setReg PART.KEY_KCV.off
            (BitVec.ofNat 32 (kcv k)) t
      else if fieldGet v 1 1 = 1 then
        (if s.keyNeeded t then s.put PART.KEY_STATUS.REFUSE_CAUSE 5 t
        else
          (({ s with part := { s.part with keys := kvDel s.part.keys t } }.put PART.KEY_STATUS.REFUSE_CAUSE 0 t).put PART.KEY_STATUS.LOADED
            0 t).setReg PART.KEY_KCV.off 0#32 t)
      else s }

/-- KEY_LOAD (R417). -/
def execKeyLoad (s : State) : Res := .next (bar0Bit hKeyCtrl PART.KEY_CTRL.LOAD s)

/-- KEY_CLEAR (R420). -/
def execKeyClear (s : State) : Res := .next (bar0Bit hKeyCtrl PART.KEY_CTRL.CLEAR s)

end Sys2Proof.Machine
end

