-- ==== Sys2Proof/Machine/Faults.lean ====
section
/-! DEFINITION. Chapter 20: a lost DRAM stack, unit faults and retired units, the sequence probe, the observation window (R41, R471 to
R474, R476, R479). -/

namespace Sys2Proof.Machine

def dtUNIT_FAULT : Nat := 0x0C01
def dtSTACK_LOST : Nat := 0x0C02

/-- A running chunk ends by a fault: its descriptor starts no further one (R472, R474). -/
def State.cutRun (s : State) (id : Nat) (r : Run) (detail : Nat) : State :=
  (((s.dropCalls id r.idx).dropRun id r).updWork id fun w => w.stopWith stFAULT detail).freeHeld.settle id

/-! ### A lost stack (R471 to R473) -/

/-- A frame on the stack. -/
def onStack (stack : Nat) (f : Option Nat) : Bool := f.any fun f => stackOf f == stack

/-- Running chunks with a frame on the stack end STACK_LOST. -/
def State.cutStack (s : State) (stack : Nat) : State :=
  let hit (r : Run) : Bool := onStack stack r.frame || r.refs.any fun g => (s.pageBy g).any fun g => onStack stack g.frame
  (s.wk.works.flatMap fun w => (w.run.filter hit).map fun r => (w.id, r)).foldl (fun s x => s.cutRun x.1 x.2 dtSTACK_LOST) s

/-- A page's frame lies on the stack (Table 20-3): unwritten copies are ABSENT, clean ones FLASH, a page-in starts over. -/
def State.losePageFrame (s : State) (g : Page) : State :=
  if g.st = 1 ∨ g.st = 2 then
    let s1 := (s.updPage g.pid fun g => { g with st := 6, frame := none, flash := none }).setTier fun t =>
      { t with placed := t.placed.filter (·.pid ≠ g.pid), demote := t.demote.filter (· ≠ g.pid) }
    (s.leavesOf g.pid).foldl (fun s x => s.logKv x.2.tid (recPage 6 x.2.sid x.1.p g.hdr g.body 0)) s1
  else
    (s.updPage g.pid fun g => { g with st := 4, frame := none, started := 0, done := 0 }).setTier fun t =>
      { t with ops := t.ops.filter fun o => ¬ (o.kind = 0 ∧ o.pid = g.pid), plans := kvDel t.plans g.pid,
               demote := t.demote.filter (· ≠ g.pid) }

/-- A staged Derailleur page is discarded: its target page is UNWRITTEN from the switch on. -/
def State.loseStaged (s : State) (g : StagedPage) : State :=
  let p := s.plan_ g.tid g.epoch
  (s.setPlan { p with moved := p.moved ++ [(g.sq, g.p)] }).setChain fun c => { c with staged := c.staged.filter (· ≠ g) }

/-- A swap-cache page on the stack: dropped, with every line poisoned where it was modified (R398). -/
def State.loseSwapPage (s : State) (y : SwapPage) : State :=
  let l0 := lineOf (s.poolBase y.region + y.page * 65536)
  s.setPool fun x =>
    { x with swap := x.swap.filter (· ≠ y),
             poison := x.poison ++ (if y.dirty then ((List.range 1024).map (l0 + ·)).filter fun l => ¬ x.poison.contains l else []) }

/-- Stacks that have failed. -/
def State.stacksLost (s : State) : Nat := ((List.range 8).filter fun k => bits (s.get ERR.STACK_STATUS.FAILED) k 1 = 1).length

/-- What the failure of a stack does to everything on it (R472, Table 20-3). -/
def State.stackFates (s : State) (stack : Nat) : State :=
  let s1 := s.cutStack stack
  let s2 := (s1.sq.pages.filter fun g => onStack stack g.frame).foldl State.losePageFrame s1
  let s3 := (s2.chain.staged.filter fun g => stackOf g.frame = stack).foldl State.loseStaged s2
  let hit (r : Nat) : Bool := (s3.poolState r == 1 || s3.poolState r == 2) && !s3.poolFlash r &&
    bits (s3.get POOL.REGION_DEF.STACK_MASK r) stack 1 == 1
  let s4 := ((List.range 256).filter hit).foldl State.loseRegion s3
  (s4.pool.swap.filter fun y => Config.swapStack (poolKey y.region y.page) % 8 = stack).foldl State.loseSwapPage s4

/-- STACK_FAILURE (R472, R473): a trained stack fails; FAULT while tables are still being rebuilt, or with fewer than two stacks left. -/
def execStackFailure (stack : Nat) (s : State) : Res :=
  if !s.working || decide (8 ≤ stack) || bits (s.get SYS.DRAM_STATUS.TRAINED) stack 1 == 0 ||
      bits (s.get ERR.STACK_STATUS.FAILED) stack 1 == 1 then .next s
  else
    let s1 := s.put ERR.STACK_STATUS.FAILED (s.get ERR.STACK_STATUS.FAILED ||| 2 ^ stack)
    let s2 := (((s1.fault clsRESOURCE stack 0).event none 0x41 stack).stackFates stack).sameCycle s.wk.latched.length
    let s3 := { s2 with err := { s2.err with rebuilding := s2.err.rebuilding ++ [stack] } }
    if !s.err.rebuilding.isEmpty || decide (6 < s1.stacksLost) then .next ((s3.fault clsFATAL stack 0).enterFault) else .next s3

/-- TABLE_REBUILD_DONE (R471): every item of the failed stack has two copies again. -/
def execTableRebuildDone (stack : Nat) (s : State) : Res :=
  .next (if s.working then { s with err := { s.err with rebuilding := s.err.rebuilding.filter (· ≠ stack) } } else s)

/-! ### Unit faults (R474) -/

/-- Unit kinds of Table 20-2. -/
def unitKind (u : RetireUnit) : Nat :=
  match u with
  | .tile => 1
  | .lane => 2
  | .encoder => 3
  | .decoder => 4
  | .spokeBuffer => 5
  | .crossing => 6

/-- The unit is retired; a further one beyond the limits enters FAULT (R474). -/
def State.retire (s : State) (u : RetireUnit) (index : Nat) : State :=
  let one (f : Fld) (limit : Nat) : State :=
    if s.get f < limit then s.put f (s.get f + 1) else (s.fault clsFATAL (index % 256) 0).enterFault
  match u with
  | .tile => one ERR.UNIT_RETIRED.TILES 16
  | .lane => one ERR.UNIT_RETIRED.LANES 4
  | .encoder => one ERR.UNIT_RETIRED.ENCODERS 4
  | .decoder => one ERR.UNIT_RETIRED.DECODERS 16
  | .spokeBuffer => if index < 8 ∧ s.pairState (index / 2) ≠ 0 ∧ s.pairState (index / 2) ≠ 3 then s.closePair (index / 2) else s
  | .crossing => s

/-- INFO of the event UNIT_FAULT: the kind of unit and its index. -/
def unitInfo (unit : RetireUnit) (index : Nat) : Nat := unitKind unit + index % 2 ^ 16 * 2 ^ 8

/-- A work whose ATTN_PARTIAL output is no longer valid (R301). -/
def invalidated (w : Work) : Work :=
  match w.aux with
  | .attn a => { w with aux := .attn { a with valid := false } }
  | _ => w

/-- A unit's fault counted and reported: to the card, and to the tenant whose chunk it served. -/
def State.unitReport (s : State) (unit : RetireUnit) (index tid info : Nat) : State :=
  (s.fault clsUNIT (index % 256) info).event (some (0 :: if tid = 0 then [] else [tid])) 0x40 (unitInfo unit index)

/-- UNIT_FAULT (R474): the chunk on the unit ends, and its descriptor starts no further one; an ATTN_PARTIAL's output is not valid
(R301). -/
def execUnitFault (unit : RetireUnit) (index work chunk : Nat) (s : State) : Res :=
  if !s.working then .next s
  else
    match (s.work work).bind fun w => (w.run.find? (·.idx = chunk)).map fun r => (w, r) with
    | none => .next ((s.unitReport unit index 0 0).retire unit index)
    | some (w, r) =>
      .next ((((s.unitReport unit index w.d.tid (tidSidInfo w.d.tid w.d.sid)).updWork w.id invalidated).cutRun w.id r dtUNIT_FAULT).retire
        unit index)

/-! ### The sequence probe (R476, R480) -/

/-- ERR.SEQ_PROBE_CTRL.GO: refused while a probe runs. -/
def hSeqProbe : Handler :=
  { Handler.plain with
    chk := fun s _ _ v => fieldGet v 0 1 == 1 && s.err.probing
    act := fun s _ v =>
      if fieldGet v 0 1 = 1 then
        let s1 := s.put ERR.SEQ_PROBE_RESULT.DONE 0
        { s1 with err := { s1.err with probing := true } }
      else s }

/-- SEQ_PROBE (R476). -/
def execSeqProbe (s : State) : Res := .next (bar0Bit hSeqProbe ERR.SEQ_PROBE_CTRL.GO s)

/-- ABSENT pages in a sequence's live blocks. -/
def State.absentPages (s : State) (q : Seq) : Nat :=
  (s.sq.leaves.filter fun l =>
    let b := q.blockAt l.p
    l.sq = q.idx ∧ q.tail ≤ b ∧ b < q.fin ∧ (s.pageBy l.pid).any (·.st = 6)).length

/-- A running probe reports, at the boundary that ends its Stroke and before that boundary's commits (R476). -/
def State.probeTurn (s : State) : State :=
  if !s.err.probing then s
  else
    let show_ (st len absent : Nat) : State :=
      (((s.put ERR.SEQ_PROBE_RESULT.DONE 1).put ERR.SEQ_PROBE_RESULT.STATE st).put ERR.SEQ_PROBE_LENGTH.L len).put
        ERR.SEQ_PROBE_ABSENT.PAGES absent
    let s1 :=
      match s.seqBySid (s.get ERR.SEQ_PROBE_TID.TID) (s.get ERR.SEQ_PROBE_SID.SID) with
      | none => show_ 0 0 0
      | some q => show_ (if q.closing then 2 else 1) q.len (s.absentPages q)
    { s1 with err := { s1.err with probing := false } }

/-! ### The observation window (R41, R479) -/

def State.setObs (s : State) (m : ObsMode) : State := { s with err := { s.err with obs := m } }

/-- Every window counter zeroed. -/
def State.zeroObs (s : State) : State :=
  ((List.range 8).foldl (fun s i => s.setReg (ERR.OBS_COUNT.off + 4 * i) 0#32) s).setReg ERR.OBS_LATE.off 0#32

/-- An empty window: counted, its counters zero and VALID. -/
def State.emptyWindow (s : State) : State :=
  (((s.zeroObs.put ERR.OBS_STATUS.OPEN 0).put ERR.OBS_STATUS.VALID 1).sat SYS.EMPTY_WINDOW_COUNT.COUNT).setObs .closed

/-- A START latched (R41). -/
def State.obsStart (s : State) : State :=
  match s.err.obs with
  | .closed => if s.err.obsEatStart then { s with err := { s.err with obsEatStart := false } } else s.setObs .pendingStart
  | _ => s

/-- A STOP latched (R41, R479). -/
def State.obsStop (s : State) : State :=
  match s.err.obs with
  | .closed => { s.emptyWindow with err := { s.emptyWindow.err with obsEatStart := true } }
  | .open _ => { s with err := { s.err with obsStop := true } }
  | _ => s.emptyWindow

/-- An ARM latched (R479): the range [a, OBS_END), or an empty window. -/
def State.obsArm (s : State) : State :=
  let a := max (s.pair ERR.OBS_START_LO.off) (s.stroke + 1)
  let e := s.pair ERR.OBS_END_LO.off
  if e ≤ a then s.emptyWindow else s.setObs (.armed a e)

/-- ERR.OBS_CTRL: ARM is refused while a window is pending or open; the bits act in the order START, STOP, ARM. -/
def hObsCtrl : Handler :=
  { Handler.plain with
    chk := fun s _ _ v => fieldGet v 2 1 == 1 && s.err.obs != .closed
    act := fun s _ v =>
      let s1 := if fieldGet v 0 1 = 1 then s.obsStart else s
      let s2 := if fieldGet v 1 1 = 1 then s1.obsStop else s1
      if fieldGet v 2 1 = 1 ∧ s2.err.obs = .closed then s2.obsArm else s2 }

/-- OBS_START, OBS_END: refused while a window is pending or open (R479). -/
def hObsRange : Handler := { Handler.plain with chk := fun s _ old v => old != v && s.err.obs != .closed }

/-- OBS_START (R479). -/
def execObsStart (s : State) : Res := .next (bar0Bit hObsCtrl ERR.OBS_CTRL.START s)

/-- OBS_STOP (R479). -/
def execObsStop (s : State) : Res := .next (bar0Bit hObsCtrl ERR.OBS_CTRL.STOP s)

/-- OBS_ARM (R479). -/
def execObsArm (s : State) : Res := .next (bar0Bit hObsCtrl ERR.OBS_CTRL.ARM s)

/-- The window opens with its counters cleared. -/
def State.openObs (s : State) (e : Option Nat) : State :=
  ((s.zeroObs.put ERR.OBS_STATUS.OPEN 1).put ERR.OBS_STATUS.VALID 0).setObs (.open e)

/-- The window closes: its counters stand. -/
def State.closeObs (s : State) : State :=
  let s1 := ((s.put ERR.OBS_STATUS.OPEN 0).put ERR.OBS_STATUS.VALID 1).setObs .closed
  { s1 with err := { s1.err with obsStop := false } }

/-- The window at the boundary that begins the present Stroke (R41, R479). -/
def State.obsTurn (s : State) : State :=
  match s.err.obs with
  | .closed => s
  | .pendingStart => s.openObs none
  | .armed a e => if s.stroke < a then s else if e ≤ s.stroke then s.emptyWindow else s.openObs (some e)
  | .open e => if s.err.obsStop ∨ e.any (· ≤ s.stroke) then s.closeObs else s

end Sys2Proof.Machine
end

