-- ==== Sys2Proof/Machine/Budget.lean ====
section
/-! DEFINITION. Budgets at a boundary: the card's capacity, the armed switches of the period and of the PART shadows, the refill (R25 to
R27, R34, R47 to R53, R247, R424, R425, R472, R474, R522). -/

namespace Sys2Proof.Machine

/-! ### Capacity (R50, R51) -/

/-- Capacity at a period of `t` µs: Table 2-4, less the losses of failed stacks (R472) and of retired tiles (R474). -/
def State.capacityAt (s : State) (t : Nat) : Res6 :=
  { dram := 2048 * t - s.stacksLost * (256 * t), flash := 11 * t, engine := (256 - s.get ERR.UNIT_RETIRED.TILES) * 1600 * t / 256,
    search := 25 * t / 2, spoke := 3125 * t / 16, pool := 56 * t }

/-- Search units kept for the words of a cascade's other cards (R247). -/
def State.cascadeReserve (s : State) (t : Nat) : Nat :=
  if s.flag SRCH.ENUM_STATUS.CASCADE_UP ∧ s.get SRCH.ENUM_STATUS.SIZE_M1 ≠ 0 then cdiv (9 * t) 32 else 0

/-- The capacity in force: the search capacity scaled by the Brake (R51) and less the cascade's reserve. -/
def State.capacityNow (s : State) : Res6 :=
  let c := s.capacityAt s.period
  { c with search := c.search * s.get SRCH.BRAKE_STATUS.PERCENT / 100 - s.cascadeReserve s.period }

/-- PART.CAPACITY_* show the capacity in force (R50). DESIGN CHOICE (log 78): CAPACITY_SEARCH shows the capacity as the Brake scales it;
R51 scales the search capacity and names no register. -/
def State.showCapacity (s : State) : State :=
  let c := s.capacityNow
  (((((s.put PART.CAPACITY_DRAM.UNITS c.dram).put PART.CAPACITY_FLASH.UNITS c.flash).put PART.CAPACITY_ENGINE.UNITS c.engine).put
    PART.CAPACITY_SEARCH.UNITS c.search).put PART.CAPACITY_SPOKE.UNITS c.spoke).put PART.CAPACITY_POOL.UNITS c.pool

/-- TIER.FRAMES_TOTAL without the frames of failed stacks (R472). -/
def State.showFrames (s : State) : State :=
  if s.stacksLost = 0 ∨ ¬ s.flag TIER.LOG_SCAN_CTRL.START then s
  else s.put TIER.FRAMES_TOTAL.FRAMES (s.frameTotal - s.stacksLost * (s.frameTotal / 8))

/-! ### The armed switches (R49, R52, R53, R425, R522) -/

/-- The shadow budgets of a partition. -/
def State.shadow (s : State) (p : Nat) : Res6 :=
  { dram := s.get PART.BUDGET_DRAM.NEXT p, flash := s.get PART.BUDGET_FLASH.NEXT p, engine := s.get PART.BUDGET_ENGINE.NEXT p,
    search := s.get PART.BUDGET_SEARCH.NEXT p, spoke := s.get PART.BUDGET_SPOKE.NEXT p, pool := s.get PART.BUDGET_POOL.NEXT p }

/-- The greatest draw of a chunk (Table 2-1). -/
def maxDraw : Res6 := { dram := 16, flash := 1, engine := 64, search := 1, spoke := 16, pool := 16 }

/-- Created partitions. -/
def State.parts (s : State) : List Nat := s.bnd.bal.map (·.part)

def Res6.sum (l : List Res6) : Res6 := l.foldl (fun a b => a.map2 Nat.add b) Res6.zero

/-- The partition a tenant is in after the switch of the shadows (R424). -/
def State.nextPart (s : State) (t : Nat) : Nat := if t = 0 then 0 else s.get PART.TENANT_PARTITION.NEXT t

/-- A shadow budget that is not zero lies below the greatest draw (R49). -/
def belowDraw (b : Res6) : Bool :=
  let low (x m : Nat) : Bool := x != 0 && decide (x < m)
  low b.dram maxDraw.dram || low b.flash maxDraw.flash || low b.engine maxDraw.engine || low b.search maxDraw.search ||
    low b.spoke maxDraw.spoke || low b.pool maxDraw.pool

/-- A resource is needed and its budget is zero. -/
def lacks (n b : Res6) : Bool :=
  let miss (n b : Nat) : Bool := n != 0 && b == 0
  miss n.dram b.dram || miss n.flash b.flash || miss n.engine b.engine || miss n.search b.search || miss n.spoke b.spoke ||
    miss n.pool b.pool

/-- Tenants that are not FREE. -/
def State.tenants (s : State) : List Nat := (s.listed_ PART.TENANT_STATUS.off).filter fun t => s.tenState t ≠ 0

/-- Why the switch of the PART shadows is refused at a period of `t` µs, 0 for none: the lowest cause that holds (Table 2-12). -/
def State.switchCause (s : State) (t : Nat) (periodBad : Bool) : Nat :=
  let nx := s.parts.map s.shadow
  if !(Res6.sum nx).le (s.capacityAt t) then 1
  else if nx.any belowDraw then 2
  else if periodBad then 3
  else if s.wk.works.any (fun w => w.phase == 1 && lacks (s.needs w.d) (s.shadow (s.nextPart w.d.tid))) then 4
  else if s.tenants.any (fun n => !s.partCreated (s.nextPart n)) then 5
  else 0

/-- A partition's shadows in force. -/
def State.takeShadow (s : State) (p : Nat) : State :=
  let b := s.shadow p
  let s1 := ((((s.put PART.BUDGET_DRAM_LIVE.LIVE b.dram p).put PART.BUDGET_FLASH_LIVE.LIVE b.flash p).put PART.BUDGET_ENGINE_LIVE.LIVE b.engine
    p).put PART.BUDGET_SEARCH_LIVE.LIVE b.search p).put PART.BUDGET_SPOKE_LIVE.LIVE b.spoke p
  ((s1.put PART.BUDGET_POOL_LIVE.LIVE b.pool p).setLive PART.RISK_MARGIN.off (s.reg PART.RISK_MARGIN.off p) p).setLive
    PART.IMPLICIT_HORIZON.off (s.reg PART.IMPLICIT_HORIZON.off p) p

/-- A tenant's shadows in force (R424). -/
def State.moveTenant (s : State) (t : Nat) : State :=
  (s.put PART.TENANT_PARTITION.LIVE (s.nextPart t) t).setLive PART.TENANT_CAPS.off (s.reg PART.TENANT_CAPS.off t) t

/-- Every PART shadow in force; what is left of the unscaled search balance is cut to the budget it came from (R52, R254). -/
def State.takeShadows (s : State) : State :=
  let cut (b : Balance) : Balance := { b with unbraked := min b.unbraked (s.budget b.part).search }
  let s1 := { s with bnd := { s.bnd with bal := s.bnd.bal.map cut } }
  s.tenants.foldl State.moveTenant (s.parts.foldl State.takeShadow s1)

/-- A switch armed at a target is due in the Stroke that has begun (R522). -/
def State.dueAt (s : State) (a : Option Nat) : Bool := a.any (· ≤ s.stroke)

/-- It is done after its target (R522). -/
def State.lateAt (s : State) (a : Option Nat) : Bool := a.any (· < s.stroke)

/-- The period switch, done or refused: it is no longer armed (Tables 2-7, 2-8, 2-9). -/
def State.endPeriod (s : State) (ok : Bool) : State :=
  let late := s.lateAt s.bnd.armedPeriod
  let s1 := (s.put SYS.STROKE_CTRL.ARM_PERIOD 0).put SYS.STROKE_STATUS.ARMED 0
  let s2 := { s1 with bnd := { s1.bnd with armedPeriod := none } }
  if !ok then s2.put SYS.STROKE_STATUS.REFUSED 1
  else
    let s3 := s2.put SYS.STROKE_PERIOD.PERIOD_US (s.get SYS.STROKE_PERIOD.NEXT_US)
    if late then s3.put SYS.STROKE_STATUS.SWITCH_LATE 1 else s3

/-- A switch refused with a cause of Table 2-12: no live budget changes (R49). -/
def State.refuseSwitch (s : State) (cause : Nat) : State :=
  (s.put PART.SWITCH_STATUS.REFUSE_CAUSE cause).put PART.SWITCH_STATUS.REFUSED 1

/-- The switch of the PART shadows, done or refused (R49, R52, Table 2-12). -/
def State.endPart (s : State) (cause : Nat) : State :=
  let late := s.lateAt s.bnd.armedPart
  let s1 := (s.put PART.SWITCH_CTRL.ARM 0).put PART.SWITCH_STATUS.ARMED 0
  let s2 := { s1 with bnd := { s1.bnd with armedPart := none } }
  if cause ≠ 0 then s2.refuseSwitch cause
  else
    let s3 := (s2.put PART.SWITCH_STATUS.REFUSE_CAUSE 0).takeShadows
    if late then s3.put PART.SWITCH_STATUS.SWITCH_LATE 1 else s3

/-- The cause that refuses the switches now due, 0 for none (R49, R53). `p` and `b` say which are due, `bad` that NEXT_US refuses the
period switch: the period in force from this Stroke is then the present one. A period switch due alone is held against the live
budgets (DEDUCED, log 79). -/
def State.dueCause (s : State) (p b bad : Bool) : Nat :=
  let t := if p && !bad then s.get SYS.STROKE_PERIOD.NEXT_US else s.period
  if b then s.switchCause t bad
  else if p && !bad && !(Res6.sum (s.parts.map s.budget)).le (s.capacityAt t) then 1
  else 0

/-- Step 5: the armed switches that are due, evaluated together; one refused refuses the other (R53), and one audit entry (R107). -/
def State.switches (s : State) : State :=
  let p := s.dueAt s.bnd.armedPeriod
  let b := s.dueAt s.bnd.armedPart
  let bad := p && outside (s.get SYS.STROKE_PERIOD.NEXT_US) 2 64
  let cause := s.dueCause p b bad
  let ok := !bad && cause == 0
  if !p && !b then s
  else
    let s1 := if p then s.endPeriod ok else s
    let s2 := if b then s1.endPart cause else if cause ≠ 0 then s1.refuseSwitch cause else s1
    s2.audit actorCard 5 (b01 p + 2 * b01 b + 4 * b01 !ok)

/-! ### The refill (R44, R48, R51, R254) -/

/-- A search budget scaled by the Brake, never below 1 when nonzero (R51). -/
def brakeScale (b percent : Nat) : Nat := if b = 0 then 0 else max 1 (b * percent / 100)

/-- The fresh budgets of a partition for a Stroke. -/
def State.freshOf (s : State) (p : Nat) : Res6 :=
  let b := s.budget p
  { b with search := brakeScale b.search (s.get SRCH.BRAKE_STATUS.PERCENT) }

/-- A partition's balance refilled: fresh budget, and as carry what it left of the last Stroke's (R48). -/
def State.refillOne (s : State) (b : Balance) : Balance :=
  let live := s.budget b.part
  { part := b.part, fresh := s.freshOf b.part, carry := b.fresh.map2 min live, unbraked := live.search + min b.unbraked live.search,
    poolDrawn := 0 }

/-- The refill of every partition; carry is served from the capacity that all fresh budgets leave (R44). Fresh budget is available in
full (R48), also where the search capacity lies below the sum of the fresh budgets (R51, R247); a lost stack or tile alone makes
partitions share the reduced capacity (R472, R474). -/
def State.refill (s : State) : State :=
  let cap := s.capacityNow
  let bal := s.bnd.bal.map s.refillOne
  let sum := Res6.sum (bal.map (·.fresh))
  { s with bnd := { s.bnd with bal := bal, capLeft := { cap.map2 max sum with dram := cap.dram, engine := cap.engine },
                               carryCap := cap.map2 Nat.sub sum } }

/-- The pool's counts of the Stroke that ended, for DevLoad (R384, R385). -/
def State.poolTurn (s : State) : State :=
  let waits := s.pool.waiting.filter fun q => q.kind < 4
  let drew := s.bnd.bal.map fun b => (b.part, b.poolDrawn)
  let parts := waits.filterMap fun q => (s.poolRegion q.dpa).map s.poolPart
  s.setPool fun x =>
    { x with hostDrew := x.served, partDrew := drew, hostWait := (waits.map (·.slot)).eraseDups, partWait := parts.eraseDups, served := [],
             lines := [], mirrored := [] }

end Sys2Proof.Machine
end

