-- ==== Sys2Proof/Machine/Cmpr.lean ====
section
/-! DEFINITION. The CMPR registers: classes defined and undefined (R166 to R168, R188, R261), constant sets (R263, R264, R278), the coding
policy (R273). -/

namespace Sys2Proof.Machine

/-! ### Classes -/

/-- The format's code is built in (Table 8-2). -/
def fmtBuiltin (c : Nat) : Bool := 1 ≤ c && c ≤ 6

/-- Elements of a scale group; 32 for a format without one. -/
def groupOf (code log2 : Nat) : Nat := if code = 4 ∨ code = 5 then 2 ^ log2 else 32

/-- The cause that refuses DEFINE (R167, R261), 0 for none. -/
def State.defineCause (s : State) (k : Nat) : Nat :=
  let c := s.classDef k
  let f := if c.format = 0x80 then c.fallback else c.format
  let int := f = 4 ∨ f = 5
  if c.heads = 0 ∨ 128 < c.heads ∨ c.headDim = 0 ∨ 1024 < c.headDim ∨ c.btLog < 2 ∨ 7 < c.btLog ∨
      c.headDim % groupOf f c.groupLog2 ≠ 0 then 1
  else if !(fmtBuiltin c.format || c.format == 0x80) || !fmtBuiltin f || (decide int && outside c.groupLog2 5 7) then 2
  else if c.latent then
    if c.format = 0x80 ∨ (int ∧ c.groupLog2 ≠ 5) then 2
    else if c.rank % 32 ≠ 0 ∨ c.rank < 32 ∨ 1024 < c.rank ∨ c.heads * c.headDim < c.rank ∨ 65280 < c.payload (fmtOf f c.groupLog2) ∨
        s.get CMPR.CONST_STATUS.STATE c.set ≠ 2 ∨ s.get CMPR.CONST_SHAPE.SET_RANK c.set ≠ c.rank ∨
        s.get CMPR.CONST_SHAPE.SET_WIDTH_DIV32 c.set * 32 ≠ c.width then 3
    else if 64 < c.engineDraw then 4 else 0
  else if 65280 < c.payload (fmtOf f c.groupLog2) then 3 else 0

/-- Sequences of a class that are not FREE. -/
def State.classUsers (s : State) (k : Nat) : Nat := (s.sq.seqs.filter (·.cls = k)).length

/-- DEFINE of the selected class. -/
def State.define (s : State) (k : Nat) : State :=
  let cause := s.defineCause k
  let c := s.classDef k
  let f := if c.format = 0x80 then c.fallback else c.format
  if cause = 0 then
    (((s.put CMPR.CLASS_STATUS.DEFINED 1 k).put CMPR.CLASS_STATUS.REFUSE_CAUSE 0 k).put CMPR.CLASS_STATUS.PAYLOAD_BYTES
      (c.payload (fmtOf f c.groupLog2)) k).put CMPR.CLASS_STATUS.ENGINE_DRAW c.engineDraw k
  else s.put CMPR.CLASS_STATUS.REFUSE_CAUSE cause k

/-- CMPR.CLASS_CTRL (R167, R168, R188). -/
def hClassCtrl : Handler :=
  { Handler.plain with
    chk := fun s k _ v =>
      (fieldGet v 0 1 == 1 && s.classDefined k) || (fieldGet v 1 1 == 1 && s.classUsers k != 0)
    act := fun s k v =>
      if fieldGet v 0 1 = 1 then s.define k
      else if fieldGet v 1 1 = 1 ∧ s.classDefined k then
        (((s.put CMPR.CLASS_STATUS.DEFINED 0 k).put CMPR.CLASS_STATUS.PAYLOAD_BYTES 0 k).put CMPR.CLASS_STATUS.ENGINE_DRAW 0 k).put
          CMPR.CLASS_STATUS.REFUSE_CAUSE 0 k
      else s }

/-- A write of CLASS_CTRL: an UNDEFINE refused for open users leaves its cause too (Table 8-8). -/
def State.writeClassCtrl (s : State) (val : Word) : State :=
  let t := bar0 hClassCtrl CMPR.CLASS_CTRL.off val s
  let k := s.get CMPR.CLASS_SELECT.CLASS
  if s.pf0 ∧ (s.phase = phCONFIGURE ∨ s.phase = phRELEASED) ∧ fieldGet val 1 1 = 1 ∧ s.classUsers k ≠ 0 then
    t.put CMPR.CLASS_STATUS.REFUSE_CAUSE 5 k
  else t

/-- DEFINE (R167). -/
def execDefineCmd (s : State) : Res := .next (s.writeClassCtrl 1#32)

/-- UNDEFINE (R168). -/
def execUndefine (s : State) : Res := .next (s.writeClassCtrl 2#32)

/-- A field of a defined class is not written (R188). -/
def hClassField : Handler := { Handler.plain with chk := fun s k old v => s.classDefined k && old != v }

/-! ### Constant sets -/

/-- Bytes of a set's image (R263). -/
def State.constBytes (s : State) (k : Nat) : Nat :=
  let r := s.get CMPR.CONST_SHAPE.SET_RANK k
  let n := s.get CMPR.CONST_SHAPE.SET_WIDTH_DIV32 k * 32
  s.get CMPR.CONST_LAYERS.SET_LAYERS k * (2 * (r * n + r * n / 32))

/-- Room of a set in MiB. -/
def State.constMib (s : State) (k : Nat) : Nat := cdiv (s.constBytes k) 1048576

/-- The shape fields keep their limits (Table 11-4). -/
def State.constShapeOk (s : State) (k : Nat) : Bool :=
  let r := s.get CMPR.CONST_SHAPE.SET_RANK k
  let n := s.get CMPR.CONST_SHAPE.SET_WIDTH_DIV32 k
  let l := s.get CMPR.CONST_LAYERS.SET_LAYERS k
  !outside r 32 1024 && r % 32 == 0 && !outside n 2 8192 && !outside l 1 256

def State.constState (s : State) (k : Nat) : Nat := s.get CMPR.CONST_STATUS.STATE k

/-- A set's state and cause. -/
def State.setConst (s : State) (k st cause : Nat) : State :=
  (s.put CMPR.CONST_STATUS.STATE st k).put CMPR.CONST_STATUS.FAIL_CAUSE cause k

/-- LOAD of the selected set begins, or fails at once (R264). -/
def State.constLoad (s : State) (k : Nat) : State :=
  if s.constUsers k ≠ 0 then s.put CMPR.CONST_STATUS.FAIL_CAUSE 5 k
  else
    let s1 := s.setGear fun g => { g with consts := g.consts.filter (·.set ≠ k) }
    if !s1.constShapeOk k then s1.setConst k 3 3
    else if s1.constFree < s1.constMib k then s1.setConst k 3 1
    else (s1.setConst k 1 0).setGear fun g => { g with loading := some k, consts := g.consts ++ [⟨k, [], s1.constMib k⟩] }

/-- UNLOAD of the selected set. -/
def State.constUnload (s : State) (k : Nat) : State :=
  if s.constUsers k ≠ 0 then s.put CMPR.CONST_STATUS.FAIL_CAUSE 5 k
  else (s.setConst k 0 0).setGear fun g => { g with consts := g.consts.filter (·.set ≠ k) }

/-- CMPR.CONST_CTRL (R264, R278). -/
def hConstCtrl : Handler :=
  { Handler.plain with
    chk := fun s _ _ v => fieldGet v 0 2 != 0 && s.gear.loading.isSome
    act := fun s k v =>
      if fieldGet v 0 1 = 1 then s.constLoad k else if fieldGet v 1 1 = 1 then s.constUnload k else s }

/-- CONST_LOAD (R264). -/
def execConstLoad (s : State) : Res := .next (bar0Bit hConstCtrl CMPR.CONST_CTRL.LOAD s)

/-- CONST_UNLOAD (R264). -/
def execConstUnload (s : State) : Res := .next (bar0Bit hConstCtrl CMPR.CONST_CTRL.UNLOAD s)

/-- A byte of an image that R264 forbids: value 0x7F or 0xFF, scale 0xFF. -/
def constBad (rn : Nat) (image : List Byte) : Bool :=
  let half := rn + rn / 32
  (image.zipIdx).any fun x => x.1 == 0xFF#8 || (x.1 == 0x7F#8 && decide (x.2 % half < rn))

/-- CONST_LOAD_DONE (R264): the image is in, or a read failed. The set lies in card DRAM, so the load ends well only once every stack is
trained (R56). -/
def execConstLoadDone (ok : Bool) (s : State) : Res :=
  match s.gear.loading with
  | none => .next s
  | some k =>
    if !s.working then .next s
    else
      let idle (s : State) : State := s.setGear fun g => { g with loading := none }
      let fail (s : State) (c : Nat) : State := (idle (s.setConst k 3 c)).setGear fun g => { g with consts := g.consts.filter (·.set ≠ k) }
      if !ok then .next (fail s 2)
      else if s.get SYS.DRAM_STATUS.TRAINED ≠ 0xFF then .next s
      else
        let image := s.memRead (s.pair CMPR.CONST_ADDR_LO.off k) (s.constBytes k)
        let rn := s.get CMPR.CONST_SHAPE.SET_RANK k * (s.get CMPR.CONST_SHAPE.SET_WIDTH_DIV32 k * 32)
        if constBad rn image then .next (fail s 4)
        else
          let s1 := idle ((s.setConst k 2 0).put CMPR.CONST_CHECK.CRC (crc32c image).toNat k)
          .next (s1.setGear fun g => { g with consts := g.consts.map fun c => if c.set = k then { c with image := image } else c })

/-- CONST_SHAPE, CONST_LAYERS and CONST_ADDR of a set that is LOADING or LOADED (R278). -/
def hConstField : Handler :=
  { Handler.plain with chk := fun s k old v => (s.constState k == 1 || s.constState k == 2) && old != v }

/-- CMPR.CONST_AREA takes 0 to 4,096 MiB. -/
def hConstArea : Handler := { Handler.plain with chk := fun _ _ _ v => 4096 < fieldGet v 0 13 }

/-- CMPR.CODE_POLICY (R273): in force from the next boundary. -/
def hCodePolicy : Handler :=
  { Handler.plain with act := fun s tid _ => s.atBoundary (.live (regKey CMPR.CODE_POLICY.off tid) (s.reg CMPR.CODE_POLICY.off tid)) }

end Sys2Proof.Machine
end

