-- ==== Sys2Proof/Machine/Gear.lean ====
section
/-! DEFINITION. The Gear fabric's side of chapter 13: responses of slot designs, slot faults, the control window, readback and
scrub, and the slot handshake after a verified image (R94, R305, R313, R316 to R322). -/

namespace Sys2Proof.Machine

/-- The slot's outputs are not clamped: it holds a design out of reset (Table 4-9). -/
def State.slotDrives (s : State) (n : Nat) : Bool :=
  decide (n < 8) && (s.slotState n == 1 || s.slotState n == 2 || s.slotState n == 4 || s.slotState n == 5)

/-- A slot fails; where it is the target of the running load before its configuration is written, the load goes on, and where it was
starting, the load ends REJECTED (R94, R313). -/
def State.slotFails (s : State) (n cause : Nat) : State :=
  let starting := decide (s.slotState n = 4)
  let s1 := s.failSlot n cause
  if starting ∧ s.img.loadSlot = some n then
    ({ s1 with img := { s1.img with loadSlot := none, slotNext := kvDel s1.img.slotNext n } }).endLoad 13
  else if starting then { s1 with img := { s1.img with slotNext := kvDel s1.img.slotNext n } }
  else s1

/-! ### Hook answers (R305, R313) -/

/-- The oldest unanswered call of a slot's hook under a tag. -/
def State.openCall (s : State) (slot hook tag : Nat) : Option HookCall :=
  s.gear.calls.find? fun c => c.slot = slot ∧ c.hook = hook ∧ c.tag = tag ∧ !c.ended

/-- A response beat: 512 bits, and the scale bytes beyond them in a quantisation answer (Table 13-3); bytes the design does not drive are
undefined. -/
def State.beat (s : State) (slot hook : Nat) (data : List Byte) : List Byte :=
  (List.range (64 + if hook = 1 then s.scaleBytes slot else 0)).map fun i => (data[i]?).getD (Config.undefByte s.free i)

/-- The first open call of a slot's hook under a tag replaced or, for none, removed. -/
def setFirst (c : HookCall) (new : Option HookCall) : List HookCall → List HookCall
  | [] => []
  | x :: t => if x.slot = c.slot ∧ x.hook = c.hook ∧ x.tag = c.tag ∧ x.ended = false then new.toList ++ t else x :: setFirst c new t

/-- One call replaced or, for none, removed: the oldest of its tag, of which a Stroke's bursts may issue more than one (log 123). -/
def State.setCall (s : State) (c : HookCall) (new : Option HookCall) : State :=
  s.setGear fun g => { g with calls := setFirst c new g.calls }

/-- A beat delivered to its call: the score of a page, the key of a prefix hash, or a beat kept for the chunk's end. -/
def State.deliver (s : State) (c : HookCall) (last : Bool) (data : List Byte) : State :=
  let got := c.got ++ s.beat c.slot c.hook data
  let s1 := s.nextFree
  if c.hook = 0 then
    (s1.setCall c none).updPage c.pid fun g => { g with score := some (leAt got 0 2) }
  else if c.hook = 2 then
    let s2 := s1.setCall c none
    match s2.work c.work with
    | none => s2
    | some w =>
      match w.run.find? (·.idx = c.idx) with
      | none => s2
      | some r => s2.hashNext w r (got.take 32)
  else s1.setCall c (some { c with got := got, ended := last })

/-- HOOK_RESPONSE (R305, R313): a beat on a hook's response lines. -/
def execHookResponse (slot hook tag : Nat) (last : Bool) (data : List Byte) (s : State) : Res :=
  if !s.working || !s.slotDrives slot then .next s
  else if !s.implements slot hook then .next (s.slotFails slot 3)
  else
    match s.openCall slot hook (tag % 4096) with
    | none => .next (s.slotFails slot 2)
    | some c => .next (s.deliver c last data)

/-- HOOK_LATENCY_TIMEOUT (R313): a call's LATENCY passed without its last beat. -/
def execHookLatencyTimeout (slot hook tag : Nat) (s : State) : Res :=
  if !s.working || !s.slotDrives slot || (s.openCall slot hook (tag % 4096)).isNone then .next s
  else .next (s.slotFails slot 1)

/-- SLOT_FAULT_ASSERT (R313). -/
def execSlotFaultAssert (slot : Nat) (s : State) : Res :=
  if !s.working || !s.slotDrives slot then .next s else .next (s.slotFails slot 4)

/-! ### The control window (R316) -/

/-- A write of GEAR.SLOT_WINDOW. -/
def hSlotWindow : Handler := { Handler.plain with chk := fun s n _ _ => !s.windowOn n }

/-- A read of the window answered with a value; while the slot is neither ACTIVE nor HELD it returns 0 and is counted. -/
def State.windowRead (s : State) (addr : Nat) (value : Word) : State :=
  let off := GEAR.SLOT_WINDOW.off + 4 * (addr % 256)
  if s.windowOn (s.get GEAR.SLOT_SELECT.SLOT) then s.emit (.readReturn 0 off value)
  else (s.illegal 0 causeState off 0).emit (.readReturn 0 off 0#32)

/-- SLOT_WINDOW (R316): an installer's access; `rdata` is what the design returns to a read. -/
def execSlotWindow (addr : Nat) (wr : Option Word) (rdata : Word) (s : State) : Res :=
  match wr with
  | some v => .next (bar0 hSlotWindow (GEAR.SLOT_WINDOW.off + 4 * (addr % 256)) v s)
  | none => .next (if s.pf0 then s.windowRead addr rdata else s)

/-- WINDOW_TIMEOUT (R316): a read to which the design raised no WIN_ACK within 64 fabric cycles. -/
def execWindowTimeout (addr : Nat) (s : State) : Res :=
  if !s.pf0 then .next s
  else if s.windowOn (s.get GEAR.SLOT_SELECT.SLOT) then .next ((s.sat GEAR.WINDOW_TIMEOUTS.COUNT).windowRead addr 0#32)
  else .next (s.windowRead addr 0#32)

/-! ### Readback and scrub (R318) -/

/-- Frames of the design in a slot. -/
def State.slotFrames (s : State) (n : Nat) : List (Nat × List Byte) := (kvFind s.img.designs n).getD []

/-- CFG_RD_REQ (R92, R318): a request for a frame outside the slot is answered at once, but while the loader holds the port; any other
waits its turn. -/
def execCfgRdReq (slot frame : Nat) (s : State) : Res :=
  if !s.working || !s.slotDrives slot then .next s
  else if (s.slotFrames slot).length ≤ frame ∧ s.load ≠ ldAPPLYING then .next (s.emit (.cfgMatch slot false))
  else .next (s.setGear fun g => { g with readback := g.readback ++ [(slot, frame)] })

/-- The request served next, in rotating order of slot. -/
def State.nextReadback (s : State) : Option (Nat × Nat) :=
  (List.range 8).findSome? fun k => s.gear.readback.find? (·.1 = (s.gear.rbLast + 1 + k) % 8)

/-- The slot the scrub reads back now, from its place on, with the frame (0 where it has moved to another slot). -/
def State.scrubAt (s : State) : Option (Nat × Nat) :=
  let n := s.gear.scrub.1
  if s.slotState n = 1 ∧ s.gear.scrub.2 < (s.slotFrames n).length then some s.gear.scrub
  else ((List.range 8).map fun k => (n + 1 + k) % 8).find? (fun m => s.slotState m = 1) |>.map fun m => (m, 0)

/-- CFG_READBACK_DONE (R318): the readback of the frame at the head ends; `ok` is whether its CRC-32C equals the recorded one. -/
def execCfgReadbackDone (ok : Bool) (s : State) : Res :=
  if !s.working || s.load == ldAPPLYING then .next s
  else
    match s.nextReadback with
    | some (n, f) =>
      if (s.slotFrames n).length ≤ f then
        .next ((s.setGear fun g => { g with readback := g.readback.erase (n, f), rbLast := n }).emit (.cfgMatch n false))
      else
      let data := if ok then (kvFind (s.slotFrames n) f).getD (zeros 4096) else (List.range 4096).map (Config.undefByte s.free)
      .next (((s.setGear fun g => { g with readback := g.readback.erase (n, f), rbLast := n }).nextFree.emit (.cfgData n data)).emit
        (.cfgMatch n ok))
    | none =>
      if !s.flag GEAR.SCRUB_CTRL.ENABLE then .next s
      else
        match s.scrubAt with
        | none => .next s
        | some (n, f) =>
          let s1 := s.setGear fun g => { g with scrub := (n, f + 1) }
          .next (if ok then s1 else s1.slotFails n 5)

/-! ### The slot handshake (R94, R319, R322) -/

/-- The largest LATENCY of a hook (Table 13-1). -/
def hookLimit (h : Nat) : Nat := if h = 0 then 128 else if h = 2 then 6 else 64

/-- The identity block passes the checks of R319. -/
def identOk (w : Nat → Nat) : Bool :=
  let impl (h : Nat) : Bool := bits (w 0) (8 + h) 1 == 1
  bits (w 0) 0 8 == 1 && bits (w 0) 8 4 != 0 &&
  (List.range 4).all (fun h => !impl h ||
    (!outside (bits (w (2 + 2 * h)) 0 16) 1 (hookLimit h) && bits (w (2 + 2 * h)) 16 8 != 0)) &&
  (!impl 1 || (w 1 != 0 && !outside (bits (w 5) 0 5) 2 16 && decide (bits (w 5) 8 3 ≤ 4))) &&
  (!impl 3 || bits (w 9) 0 2 != 3)

/-- The slot in the starting or loading step fails and its load ends REJECTED with APPLY (R94). -/
def State.loadFails (s : State) (n : Nat) : State :=
  let s1 := (s.setSlotState n 6).zeroBlocks n
  ({ s1 with img := { s1.img with loadSlot := none, slotNext := kvDel s1.img.slotNext n } }).endLoad 13

/-- SLOT_CONFIG_DONE (R94): configuration write and readback of a LOADING slot end; the image initialises the slot's block memory (R304). -/
def execSlotConfigDone (slot : Nat) (ok : Bool) (s : State) : Res :=
  if !s.working || s.img.loadSlot != some slot || s.slotState slot != 3 then .next s
  else if !ok then .next (s.loadFails slot)
  else
    let s1 := (s.setGear fun g => { g with blockMem := kvSet g.blockMem slot s.free }).nextFree
    .next ({ s1 with img := { s1.img with designs := kvSet s1.img.designs slot s1.img.staged } }.setSlotState slot 4)

/-- SLOT_READY (R94, R319): READY is latched with the identity block. -/
def execSlotReady (slot : Nat) (ident : List Word) (s : State) : Res :=
  if !s.working || s.img.loadSlot != some slot || s.slotState slot != 4 || (kvFind s.img.slotNext slot).isSome then .next s
  else if !identOk (fun i => (ident.getD i 0#32).toNat) then .next (s.loadFails slot)
  else
    let s1 := s.setIdent slot ident
    if s.flag IMG.LOAD_CTRL.MANUAL_RECOUPLE then
      .next (({ s1 with img := { s1.img with loadSlot := none } }.setSlotState slot 5).endLoad 0)
    else .next (s1.slotAtBoundary slot 1)

/-- SLOT_READY_TIMEOUT (R94): 64 µs after reset release without READY. -/
def execSlotReadyTimeout (slot : Nat) (s : State) : Res :=
  if !s.working || s.img.loadSlot != some slot || s.slotState slot != 4 || (kvFind s.img.slotNext slot).isSome then .next s
  else .next (s.loadFails slot)

/-- One due slot change at a boundary: DECOUPLING leads on to LOADING or EMPTY, ACTIVE ends the load DONE (R94, R322). Calls a
design left unanswered in its last Stroke fail it first (R313). -/
def State.turnSlot (s : State) (n v : Nat) : State :=
  let s := if (v = 0 ∨ v = 3) ∧ s.gear.calls.any (fun c => c.slot = n ∧ !c.ended) then s.failSlot n 1 else s
  if v = 2 then (s.setSlotState n 2).slotAtBoundary n (if s.img.loadSlot = some n then 3 else 0)
  else if v = 1 then
    let s1 := s.setSlotState n 1
    if s.img.loadSlot = some n then { s1 with img := { s1.img with loadSlot := none } }.endLoad 0 else s1
  else (s.clearSlot n).setSlotState n v

/-- The slot changes due at this boundary. -/
def State.turnSlots (s : State) : State :=
  s.img.slotNext.foldl (fun s x => s.turnSlot x.1 x.2) { s with img := { s.img with slotNext := [] } }

/-- GEAR.SLOT_CTRL (R322). A slot on its way to EMPTY already is left so. -/
def hSlotCtrl : Handler :=
  { Handler.plain with
    chk := fun s n _ v => fieldGet v 0 1 == 1 && (s.slotState n == 0 || s.loadTarget n)
    act := fun s n v =>
      if fieldGet v 0 1 = 1 ∧ (s.slotState n = 1 ∨ s.slotState n = 5 ∨ s.slotState n = 6) ∧ (kvFind s.img.slotNext n).isNone then
        s.slotAtBoundary n 2
      else s }

/-- UNLOAD (R322): the BAR0 write of GEAR.SLOT_CTRL.UNLOAD. -/
def execUnloadCmd (s : State) : Res := .next (bar0Bit hSlotCtrl GEAR.SLOT_CTRL.UNLOAD s)

/-- GEAR.TENANT_BIND (R321, R322): a field written with 8 to 0xE is refused; in force from the next boundary. -/
def hTenantBind : Handler :=
  { Handler.plain with
    chk := fun _ _ old v => (List.range 4).any fun h =>
      fieldGet v (4 * h) 4 != fieldGet old (4 * h) 4 && !outside (fieldGet v (4 * h) 4) 8 14
    act := fun s tid _ => s.atBoundary (.live (regKey GEAR.TENANT_BIND.off tid) (s.reg GEAR.TENANT_BIND.off tid)) }

/-- TENANT_BIND (R321): the BAR0 write of GEAR.TENANT_BIND. -/
def execTenantBind (val : Word) (s : State) : Res := .next (bar0 hTenantBind GEAR.TENANT_BIND.off val s)

/-- GEAR.SCORE_BURST of 0 is refused (R322). -/
def hScoreBurst : Handler := { Handler.plain with chk := fun _ _ _ v => fieldGet v 0 16 == 0 }

end Sys2Proof.Machine
end

