-- ==== Sys2Proof/Machine/Reads.lean ====
section
/-! DEFINITION. Reads of registers on a path: what a read returns, the latch of a _LO register, each path's own copies (R442, R478, R486,
R488, R490). -/

namespace Sys2Proof.Machine

/-- Every RO register named _LO whose _HI partner follows R478 (R490). -/
def roPairs : List Nat :=
  [SYS.STROKE_COUNT_LO.off, ROLE.ILLEGAL_STROKE_LO.off, XLAT.WALK_HITS_LO.off, XLAT.WALK_MISSES_LO.off, TIER.PAGE_INS_LO.off,
   TIER.DEMOTIONS_LO.off, TIER.DROPS_LO.off, TIER.RECON_READS_LO.off, SRCH.SEARCHES_LO.off, CMPR.NONFINITE_COUNT_LO.off,
   CMPR.PAGES_CODED_LO.off, CMPR.PAGES_RAW_LO.off, CMPR.SECTORS_SAVED_LO.off, ENG.CHUNKS_LO.off, ENG.UNITS_LO.off,
   POOL.REGION_DPA_LO.off, POOL.RECALLS_LO.off, POOL.SWAP_INS_LO.off, CLK.WAKES_LO.off, ERR.FIRST_STROKE_LO.off,
   ERR.FIRST_INFO_LO.off, ERR.COUNT_CORRECTED_LO.off, ERR.COUNT_PAGE_LOSS_LO.off, ERR.COUNT_INPUT_LO.off, ERR.COUNT_UNIT_LO.off,
   ERR.COUNT_LINK_LO.off, ERR.COUNT_RESOURCE_LO.off, ERR.COUNT_HOST_LO.off, ERR.COUNT_FATAL_LO.off]

/-- Key of a path's own word: 0 BAR0, 2 SMBus, 3 maker channel (Table 5-4). -/
def pathKey (path key : Nat) : Nat := key + path * 2 ^ 40

/-- A path's own word; none was written since reset: 0. -/
def State.pathWord (s : State) (path key : Nat) : Word := spGet (fun _ => 0#32) s.paths (pathKey path key)

/-- The instance an access on a path acts on: BAR0's SELECT registers, or the path's own copy (R487, R488). -/
def State.pathInst (s : State) (path : Nat) (r : RegRow) : Nat :=
  if path = 0 then s.selInst r else r.sel.elim 0 fun o => (s.pathWord path (regKey o 0)).toNat

/-- The high half of a latched pair as it stands. -/
def State.highOf (s : State) (off inst : Nat) : Word :=
  if off = SYS.STROKE_COUNT_LO.off then BitVec.ofNat 32 (s.stroke / 2 ^ 32) else s.view (off + 4) inst

/-- What a read of an assigned register returns, the domain's state aside (R321, R295). -/
def State.readWord (s : State) (path off inst : Nat) : Word :=
  if off ≥ 4 ∧ roPairs.contains (off - 4) then s.pathWord path (regKey off inst)
  else if off = GEAR.BIND_FAULT.off then BitVec.ofNat 32 (s.bindFault inst)
  else if off = ENG.TILE_SHARE.off then BitVec.ofNat 32 s.tileShare
  else s.view off inst

/-- An offset of the control window, GEAR.SLOT_WINDOW. -/
def isWindow (off : Nat) : Bool := decide (GEAR.SLOT_WINDOW.off ≤ off) && decide (off < GEAR.SLOT_WINDOW.off + 1024)

/-- A 32-bit read on a path (R442, R478, R490): an unassigned register, or one of an OFF domain, reads zero; a _LO register latches
its high half for the path. A word of a slot's control window is its design's, a free value, while the slot is ACTIVE or HELD, and otherwise 0
and counted (R316; DESIGN CHOICE, log 124: such a read is answered in time, WINDOW_TIMEOUT is the one that is not). -/
def State.readPath (s : State) (path off : Nat) : State × Word :=
  match findReg off with
  | none => (s, 0#32)
  | some r =>
    if s.offDomain off then (s, 0#32)
    else
      let inst := s.pathInst path r
      let w := s.readWord path off inst
      if isWindow off then (if s.windowOn inst then (s.nextFree, Config.winData s.free) else (s.illegal path causeState off 0, 0#32))
      else if roPairs.contains off then
        ({ s with paths := spPut (fun _ => 0#32) s.paths (pathKey path (regKey (off + 4) inst)) (s.highOf off inst) }, w)
      else (s, w)

/-- The word at an offset of a tenant's status page (Table 6-7). -/
def State.statWord (s : State) (tid o : Nat) : Nat :=
  let r := o / 4 % 8
  let p := s.stat tid
  if o < 0x20 then (s.sqc tid r).head
  else if o < 0x40 then s.sqWait tid r
  else if o < 0x60 then (s.cqc tid r).tail
  else if o = 0x60 then s.outstanding tid
  else if o = 0x64 then s.streamsOf tid
  else if o = 0x68 then s.descCap tid
  else if o = 0x6C then s.streamCap tid
  else if o = 0x70 then p.ignored
  else if o = 0x74 then p.dbErr
  else if o = 0x80 then p.arHead
  else if 0x800 ≤ o ∧ o < 0x1000 then leAt ((kvFind p.notices ((o - 0x800) / 16)).getD []) (o % 16) 4
  else 0

/-- The word at an offset of a function's two pages, the doorbell page (Table 6-6a) from 0 and the status page from 0x1000: PF0's BAR4 for
function 0, else a VF's BAR; an unbound VF's pages read zero (R98). -/
def State.pageWord (s : State) (vf off : Nat) : Word :=
  match s.pageTid vf with
  | none => 0#32
  | some tid =>
    BitVec.ofNat 32 (if 0x1000 ≤ off then s.statWord tid (off - 0x1000)
      else if off < 0x20 then (s.sqc tid (off / 4)).tail
      else if 0x40 ≤ off ∧ off < 0x60 then (s.cqc tid (off / 4 - 16)).head
      else 0)

/-- Registers SMBus may read (Table 5-2): identity, BRINGUP_PHASE, STROKE_STATUS, and the ERR block. -/
def smbusMay (off : Nat) : Bool :=
  off == SYS.IDENTITY.off || off == SYS.REVISION.off || (decide (SYS.UNIQUE_ID.off ≤ off) && decide (off < SYS.UNIQUE_ID.off + 16)) ||
    off == SYS.BRINGUP_PHASE.off || off == SYS.STROKE_STATUS.off || off >>> 16 == 0x14

/-- BAR0 offsets of the MSI-X table and pending-bit array, exempt from R112 (R482). -/
def msixSpace (off : Nat) : Bool :=
  (decide (0xF00000 ≤ off) && decide (off < 0xF08000)) || (decide (0xF80000 ≤ off) && decide (off < 0xF80100))

/-- Why a BAR0 read is an illegal register sequence (R112, R485): it is misaligned, or its offset is unassigned. -/
def illegalRead (off : Nat) : Option Nat :=
  if off % 4 ≠ 0 then some causeWidth
  else if (findReg off).isNone then some causeUnassigned
  else none

/-- A word of PF0's MSI-X table; an access that PCIe does not permit, and the pending-bit array, read zero (R482). -/
def State.msixWord (s : State) (off : Nat) : Word :=
  if off % 4 = 0 ∧ off < 0xF08000 then
    BitVec.ofNat 32 (leNat ((List.range 4).map fun i => spGet memDefault s.msix (off - 0xF00000 + i)))
  else 0#32

/-- A read of BAR0 of a width in bytes: an illegal one, also of another width than 32 bits, is counted and returns zero (R112). -/
def State.readBar0 (s : State) (bytes off : Nat) : State × Word :=
  if msixSpace off then (s, s.msixWord off)
  else
    match (if bytes = 4 then illegalRead off else some causeWidth) with
    | some c => (s.illegal 0 c off 0, 0#32)
    | none => s.readPath 0 off

/-- A read on any path, of 32 bits but on BAR0, which may be given another width: BAR0 (0), the BAR2 window (1), which reads zero (R90), SMBus
(2) and the maker channel (3), where that path may read, and from 4 up the doorbell and status pages of function `path - 4` (R98, R121). -/
def State.readAny (s : State) (path bytes off : Nat) : Option (State × Word) :=
  if path = 0 then (if s.pf0 then some (s.readBar0 bytes off) else none)
  else if path = 1 then (if s.pf0 then some (s, 0#32) else none)
  else if path = 2 then (if !s.pw.held ∧ smbusMay off ∧ off % 4 = 0 then some (s.readPath 2 off) else none)
  else if path = 3 then (if s.up ∧ s.flag ROLE.MAKER_STATUS.SESSION ∧ off % 4 = 0 then some (s.readPath 3 off) else none)
  else if s.pf0 ∧ off % 4 = 0 then some (s, s.pageWord (path - 4) off)
  else none

/-- COUNT_LO_READ (R478, R490): a read, and what it returns on its path. -/
def execCountLoRead (path : Nat) (span : Span) (s : State) : Res :=
  .next (match s.readAny path span.bytes span.off with
    | none => s
    | some (s1, w) => s1.emit (.readReturn path span.off w))

end Sys2Proof.Machine
end

