-- ==== Sys2Proof/Machine/Maker.lean ====
section
/-! DEFINITION. Chapter 5's own commands: the maker challenge, response, lock and actions (R103 to R106), the audit ring's
TAIL and its registers (R109, Table 5-5). -/

namespace Sys2Proof.Machine

/-- ACTOR byte of the maker on the maker channel: role 2, path 3 (Table 5-4). -/
def actorMaker : Nat := 2 + 4 * 3

/-- The channel refuses every challenge: the lock is set, or three responses failed (R104, R106). -/
def State.makerRefuses (s : State) : Bool := s.flag ROLE.MAKER_LOCK.LOCK || s.get ROLE.MAKER_STATUS.FAILS = 3

/-- The phase serves every scope named: diagnostics always, fuses and scan in ROM, LOAD and FAULT (R105). A request that names no scope, one above
7, or one that is not served beside others is refused whole (DESIGN CHOICE, log 134). -/
def State.scopeServed (s : State) (scope : Nat) : Bool :=
  scope != 0 && scope < 8 && (scope == 1 || s.phase == phROM || s.phase == phLOAD || s.phase == phFAULT)

/-- A refused maker session: result 2 on the channel, an audit entry (R107, R513). -/
def State.refuseMaker (s : State) (scope : Nat) : State :=
  (s.emit (.makerFrame 4 [2#8])).audit actorMaker 6 (scope % 256 + Config.sessionCode 2 % 256 * 2 ^ 8 + 2 ^ 16)

/-- MAKER_CHALLENGE_REQUEST (R103, R105): a fresh nonce and the unique ID go out, or the request is refused. A nonce that is outstanding is replaced
(DESIGN CHOICE, log 134). -/
def execMakerChallengeRequest (scope : Nat) (s : State) : Res :=
  if s.pw.held then .next s
  else if s.makerRefuses || !s.scopeServed scope then .next (s.refuseMaker scope)
  else
    let nb := (List.range 32).map (Config.nonceByte s.free) ++ (List.range 16).map Config.uniqueId
    let s1 := { s.nextFree with role := { s.role with nonce := some { bytes := nb, scope := scope, issued := s.stroke } } }
    .next (s1.emit (.makerFrame 2 nb))

/-- The session opens with a scope (R103), in place of the scope of a session that is open, without a close entry (DESIGN CHOICE, log 134); entering
scan moves the card to FAULT (R105). -/
def State.openMaker (s : State) (scope : Nat) : State :=
  let s1 := (s.put ROLE.MAKER_STATUS.SESSION 1).put ROLE.MAKER_STATUS.SCOPE scope
  let s2 := (s1.emit (.makerFrame 4 [0#8])).audit actorMaker 6 (scope + Config.sessionCode 0 % 256 * 2 ^ 8)
  if bits scope 2 1 = 1 then s2.enterFault else s2

/-- A response's signature verifies under a maker key that is not revoked (R103). -/
def makerVerifies (n : Nonce) (sig : List Byte) : Bool :=
  let d := sha384 (n.bytes ++ leBytes 1 n.scope)
  (List.range 2).any fun k => bits Config.romKeysRevoked (4 + k) 1 == 0 && verifyP384 ((List.range 96).map (Config.makerKeyByte k)) d sig

/-- A response failed: counted, the third failure refuses every later challenge (R104); result 1, an audit entry (R107, R513). -/
def State.failMaker (s : State) (scope : Nat) : State :=
  let f := s.get ROLE.MAKER_STATUS.FAILS + 1
  let t := ((s.put ROLE.MAKER_STATUS.FAILS f).put ROLE.MAKER_STATUS.REFUSING (b01 (f = 3))).emit (.makerFrame 4 [1#8])
  t.audit actorMaker 6 (scope + Config.sessionCode 2 % 256 * 2 ^ 8 + 2 ^ 16)

/-- MAKER_RESPONSE (R103, R104, R106): opens the session or counts a failure; a nonce serves one response. One that verifies for a scope which is
served no more counts as failed (DESIGN CHOICE, log 134). -/
def execMakerResponse (sig : List Byte) (s : State) : Res :=
  if s.pw.held then .next s
  else
    let s1 := { s with role := { s.role with nonce := none } }
    match s.role.nonce with
    | none =>
      if s.makerRefuses then .next (s1.refuseMaker 0)
      else
        .next (s1.failMaker 0)
    | some n =>
      if s.makerRefuses then .next (s1.refuseMaker n.scope)
      else if makerVerifies n sig && s.scopeServed n.scope then .next (s1.openMaker n.scope)
      else
        .next (s1.failMaker n.scope)

/-- The challenge's nonce has expired: 131,072 Strokes have passed since its issue (R103). -/
def State.nonceDue (s : State) : Bool :=
  match s.role.nonce with
  | none => false
  | some n => n.issued + 131072 ≤ s.stroke

/-- The expired nonce dropped. -/
def State.expireNonce (s : State) : State :=
  if s.nonceDue then { s with role := { s.role with nonce := none } } else s

/-- NONCE_EXPIRY (R103). -/
def execNonceExpiry (s : State) : Res := .next (if s.pw.held then s else s.expireNonce)

/-- The open session closes (R106, R107). -/
def State.closeMaker (s : State) : State :=
  if s.flag ROLE.MAKER_STATUS.SESSION then
    let sc := s.get ROLE.MAKER_STATUS.SCOPE
    ((s.put ROLE.MAKER_STATUS.SESSION 0).put ROLE.MAKER_STATUS.SCOPE 0).audit actorMaker 6
      (sc + Config.sessionCode 1 % 256 * 2 ^ 8)
  else s

/-- MAKER_ACTION (R105, R107, R111): an action under a granted scope makes an audit entry; refused without the scope, out
of its phase, or in STRICT mode with no room for the entry. A diagnostics action reads the register it names (Table 5-2). -/
def execMakerAction (scope code off : Nat) (s : State) : Res :=
  if s.pw.held || !s.flag ROLE.MAKER_STATUS.SESSION then .next s
  else if s.flag ROLE.AUDIT_POLICY.STRICT && s.auditFull then .next (s.illegal 3 causeAuditFull off 0)
  else
    let subj := scope % 256 + code % 256 * 2 ^ 8
    if (scope &&& s.get ROLE.MAKER_STATUS.SCOPE) != scope || !s.scopeServed scope then
      .next (s.audit actorMaker 7 (subj + 2 ^ 16))
    else
      let (s0, w) := s.readPath 3 off
      let s1 := if bits scope 0 1 = 1 then s0.emit (.readReturn 3 off w) else s
      .next (s1.audit actorMaker 7 subj)

/-- ROLE.MAKER_LOCK (R106, R107): the setting makes an entry of its own after the write's, then an open session closes. -/
def hMakerLock : Handler :=
  { Handler.plain with
    post := fun s _ =>
      if s.flag ROLE.MAKER_LOCK.LOCK then
        ((s.put ROLE.MAKER_STATUS.REFUSING 1).audit actorBar0 8 0).closeMaker
      else s }

/-- MAKER_LOCK (R106): the BAR0 write that sets the lock. -/
def execMakerLock (s : State) : Res :=
  if s.flag ROLE.MAKER_LOCK.LOCK then .next (bar0 Handler.plain ROLE.MAKER_LOCK.off 1#32 s)
  else .next (bar0 hMakerLock ROLE.MAKER_LOCK.off 1#32 s)

/-- ROLE.AUDIT_TAIL moves forward by no more than the pending count (R109). -/
def hAuditTail : Handler :=
  { Handler.plain with
    chk := fun s _ old v =>
      (s.get ROLE.AUDIT_HEAD.COUNT + 2 ^ 32 - old.toNat) % 2 ^ 32 < (v.toNat + 2 ^ 32 - old.toNat) % 2 ^ 32 }

/-- AUDIT_TAIL (R109): entries consumed. -/
def execAuditTail (val : Word) (s : State) : Res := .next (bar0 hAuditTail ROLE.AUDIT_TAIL.off val s)

/-- ROLE.AUDIT_BASE_LO and _HI: a write while ENABLE is 1 is illegal (Table 5-5). -/
def hAuditBase : Handler :=
  { Handler.plain with chk := fun s _ old v => s.flag ROLE.AUDIT_CTRL.ENABLE && old != v }

end Sys2Proof.Machine
end

