-- ==== Sys2Proof/Machine/Physical.lean ====
section
/-! DEFINITION. Chapter 22: the thermal sample, warnings and trips, the SMBus commands (R500, R501, R514, R515). -/

namespace Sys2Proof.Machine

/-! ### Sensors (R500, R501) -/

/-- Warning levels in °C of groups 1 to 6 (Table 22-4). -/
def warnLevel (g : Nat) : Int := if g = 1 then 95 else if g = 2 then 85 else if g = 3 then 85 else if g = 4 then 70 else if g = 5 then 75 else 100

/-- Trip levels in °C of groups 1 to 6 (Table 22-4). -/
def tripLevel (g : Nat) : Int := if g = 1 then 110 else if g = 2 then 95 else if g = 3 then 115 else if g = 4 then 85 else if g = 5 then 85 else 120

/-- A sample's temperature: 0 the coolant inlet, 1 to 6 the hottest of a group, 7 the coolant outlet. -/
def tempAt (ts : List Int) (i : Nat) : Int := ts.getD i (-128)

/-- A group's warning flag after a sample, from its flag before: set at the warning level, cleared 3 °C within it (R500). -/
def warnAfter (ts : List Int) (vin : List Nat) (was : Bool) (g : Nat) : Bool :=
  let i := tempAt ts 0
  let o := tempAt ts 7
  if g = 0 then
    let bad := (i ≠ -128 ∧ (i < 15 ∨ 45 < i)) ∨ 55 ≤ o
    let good := (i = -128 ∨ (18 ≤ i ∧ i ≤ 42)) ∧ o ≤ 52
    bad || (was && !good)
  else if g = 7 then vin.any fun v => outside v 11400 12600
  else decide (warnLevel g ≤ tempAt ts g) || (was && decide (warnLevel g - 3 < tempAt ts g))

/-- Groups at or above their trip level, by bit. -/
def tripBits (ts : List Int) : Nat :=
  (((List.range 6).map (· + 1)).map fun g => if tripLevel g ≤ tempAt ts g then 2 ^ g else 0).foldl (· + ·) 0

/-- Every group is 10 °C below its trip level. -/
def tripCool (ts : List Int) : Bool := ((List.range 6).map (· + 1)).all fun g => decide (tempAt ts g ≤ tripLevel g - 10)

/-- The Sprocket, Gear fabric and Spoke clocks stop (R501). -/
def State.stopClocks (s : State) : State :=
  ((List.range 10).map (· + 11)).foldl (fun s d => (s.setDom d domOFF).put CLK.DOMAIN_STATUS.PLL_LOCKED 0 d) s

/-- A thermal trip of a group (R501). -/
def State.thermalTrip (s : State) (g : Nat) : State := ((s.fault clsFATAL g 0).enterFault).stopClocks

/-- THERMAL_SAMPLE (R500, R501): the sensors' values, the warning flags with SMB_ALERT, and trips; one latched in reset holds the card
there until it has cooled by 10 °C. -/
def execThermalSample (temps : List Int) (vin pin : List Nat) (s : State) : Res :=
  let flag (g : Nat) : Bool := warnAfter temps vin (bits s.pw.warn g 1 == 1) g
  let warn := ((List.range 8).map fun g => if flag g then 2 ^ g else 0).foldl (· + ·) 0
  let hot := tripBits temps
  let fresh := (List.range 8).find? fun g => bits hot g 1 == 1 && bits s.pw.trip g 1 == 0
  let hold := s.pw.held && (hot != 0 || (s.pw.tripHold && !tripCool temps))
  let s1 := { s with pw := { s.pw with temps := temps, vin := vin, pin := pin, warn := warn, smbAlert := warn != 0,
                                       trip := s.pw.trip ||| hot, tripHold := hold } }
  match fresh with
  | none => .next s1
  | some g => .next (if s.up then s1.thermalTrip g else s1)

/-! ### SMBus (R514, R515) -/

/-- SET_OFFSET (Table 22-9). -/
def execSetOffset (off : Nat) (s : State) : Res := .next { s with pw := { s.pw with smOffset := off % 2 ^ 24 } }

/-- READ_DWORD (R515, Table 22-9): NACKed while the card is held in reset; an offset outside the subset reads zero. -/
def execReadDword (s : State) : Res :=
  if s.pw.held then .next (s.emit .smbusNack)
  else
    let o := s.pw.smOffset
    let (s1, w) := if smbusMay o && o % 4 == 0 then s.readPath 2 o else (s, 0#32)
    .next ({ s1 with pw := { s1.pw with smOffset := (o + 4) % 2 ^ 24 } }.emit (.smbus (leBytes 4 w.toNat)))

/-- A signed byte. -/
def byteOfInt (x : Int) : Byte := BitVec.ofInt 8 x

/-- Pairs that are OPEN, by bit (R512). -/
def State.openPairs (s : State) : Nat := ((List.range 4).map fun i => if s.pairState i = 2 then 2 ^ i else 0).foldl (· + ·) 0

/-- The telemetry block (Table 22-10). -/
def State.telemetry (s : State) : List Byte :=
  let ts := s.pw.temps
  [byteOfInt (max (tempAt ts 0) (tempAt ts 7))] ++ (List.range 7).map (fun i => byteOfInt (tempAt ts (i + 1))) ++
    leBytes 2 (s.pw.vin.getD 0 0) ++ leBytes 2 (s.pw.vin.getD 1 0) ++ leBytes 2 (s.pw.pin.getD 0 0) ++ leBytes 2 (s.pw.pin.getD 1 0) ++
    leBytes 1 s.pw.warn ++ leBytes 1 s.pw.trip ++ leBytes 1 (if s.pw.held then 0 else s.phase) ++ leBytes 1 s.openPairs ++ zeros 12

/-- TELEMETRY (R515): served in reset too. -/
def execTelemetry (s : State) : Res := .next (s.emit (.smbus s.telemetry))

end Sys2Proof.Machine
end

