-- ==== Sys2Proof/Machine/Risk.lean ====
section
/-! DEFINITION. AT_RISK: the projection of a partition's admitted descriptors, and the notice (R45, R46, R122, R424). -/

namespace Sys2Proof.Machine

/-- What a descriptor has still to do, in its visiting order: `n` chunks alike, or one page with the flash commands of its page-in. -/
structure Ahead where
  /-- The work, none for a program or a swap page-in of the partition (R44, R193, R386): it takes flash commands only. -/
  id    : Option Nat
  n     : Nat
  reads : Nat
  draw  : Res6
  /-- First Stroke in which JIT lets the page-in start (R201). -/
  hold  : Nat
  /-- First Stroke in which the chunk may start, once every read has started (R194). -/
  ready : Nat
  deriving DecidableEq, Repr

/-- The draw of a descriptor's chunks (Table 2-1). -/
def State.chunkDraw (s : State) (w : Work) : Res6 :=
  let op := w.d.opcode
  let z := Res6.zero
  if op = opAPPEND then { s.needs w.d with flash := 0 }
  else if op = opREAD then { z with dram := 16 }
  else if op = opDELIVER ∨ op = opRESHARD then { z with dram := 16, spoke := 16 }
  else if op = opATTN then { z with dram := 16, engine := match w.aux with
    | .attn a => a.draw
    | _ => 1 }
  else if op = opXFER then { z with dram := 16, pool := 16, spoke := if w.d.b 32 1 = 1 ∧ s.mirrors (w.d.b 33 1) then 16 else 0 }
  else if op = opFIND ∨ op = opNEXT ∨ op = opREMOVE then { z with search := 1 }
  else if op = opINSERT then { z with search := 1, dram := 16 }
  else z

/-- Chunks a descriptor has still to start: none where its positions draw nothing. -/
def State.chunksLeft (s : State) (w : Work) : Nat :=
  let op := w.d.opcode
  if w.stop.isSome ∨ s.chunkDraw w = Res6.zero then 0
  else if op = opFIND ∨ op = opNEXT then searchChunks w.d - w.next
  else if op = opINSERT ∨ op = opREMOVE then cdiv (s.total w - w.next) (max 1 (s.updateBlocks w))
  else s.total w - w.next

/-- Pages of a RESHARD that are sent, from its next position up to one (R344): a kept page, or one that reads as UNWRITTEN, draws nothing. -/
def State.sendsTo (s : State) (w : Work) (upto : Nat) : Nat :=
  match s.seqBySid w.d.tid w.d.sid with
  | none => 0
  | some q => ((s.sq.leaves.filter (·.sq = q.idx)).filter fun lf =>
      (s.posOf w (q.blockAt lf.p) (lf.p % q.layers)).any fun i => decide (w.next ≤ i) && decide (i < upto) && !s.keptAt w i).length

/-- A page-in that a descriptor has ahead of it: its page or pool page, its NAND reads still to start, and the first Stroke in which the chunk
may start as far as the reads that started go (R194). -/
structure PageIn where
  pos   : Nat
  key   : Nat
  reads : Nat
  ready : Nat

/-- The positions of a descriptor from one on, its page-ins each on its own; `seen` are pages an earlier one pages in. -/
def aheadFrom (w : Work) (draw : Res6) (hold stroke : Nat) (seen : List Nat) (last : Nat) : Nat → List PageIn → List Ahead
  | i, [] => [⟨some w.id, last - i, 0, draw, 0, stroke⟩]
  | i, g :: t =>
    ⟨some w.id, g.pos - i, 0, draw, 0, stroke⟩ :: ⟨some w.id, 1, if seen.contains g.key then 0 else g.reads, draw, hold, g.ready⟩ ::
      aheadFrom w draw hold stroke seen last (g.pos + 1) t

/-- Page-ins of pages of its sequence that a descriptor has ahead. -/
def State.kvAhead (s : State) (w : Work) : List PageIn :=
  let ready (g : Page) : Nat := if g.st = 5 ∧ g.started ≠ 0 then max s.stroke (g.readAt + s.readLag) else s.stroke
  let resh := w.d.opcode = opRESHARD
  ((if resh then (s.flashAhead w).filter fun x => !s.keptAt w x.1 else s.flashAhead w).map fun x =>
    ⟨if resh then w.next + s.sendsTo w x.1 else x.1, x.2.pid, s.readsLeft x.2, ready x.2⟩)

/-- Swap page-ins that an inward POOL_XFER has ahead: pool pages of its span that rest on flash only (R386, R393). -/
def State.swapAhead (s : State) (w : Work) : List PageIn :=
  if w.d.opcode ≠ opXFER ∨ w.d.b 32 1 ≠ 0 ∨ w.stop.isSome then []
  else
    let first := w.d.b 48 8 / 65536
    inOrder (fun g => (g.pos, 0)) (s.pool.flashAt.filterMap fun y =>
      let page := bits y.1 0 40
      if bits y.1 40 8 = w.d.b 33 1 ∧ first + w.next ≤ page ∧ page < first + s.total w ∧ (s.swapAt y.1).isNone then
        some ⟨page - first, y.1, (s.swapPlan y.1).length, ((s.pool.swapIn.find? (·.key = y.1)).map fun x =>
          if x.started = 0 then s.stroke else max s.stroke (x.readAt + s.readLag)).getD s.stroke⟩
      else none)

/-- What a descriptor has ahead; its running chunks end in this Stroke at the earliest. -/
def State.ahead (s : State) (seen : List Nat) (w : Work) : List Ahead :=
  let hold := if w.held then w.planned - s.get TIER.JIT_SLACK.STROKES else 0
  let last := w.next + (if w.d.opcode = opRESHARD ∧ w.stop.isNone then s.sendsTo w (s.total w) else s.chunksLeft w)
  let pages := if w.d.opcode = opXFER ∧ w.d.b 32 1 = 0 then s.swapAhead w else s.kvAhead w
  ⟨some w.id, 0, 0, Res6.zero, 0, s.stroke⟩ :: aheadFrom w (s.chunkDraw w) hold s.stroke seen last w.next pages

/-- A partition's descriptors in order of service, and what each has ahead, with its place in that order. -/
def State.aheadWorks (s : State) : List Nat → List Work → List ((Nat × Nat) × List Ahead)
  | _, [] => []
  | seen, w :: t => ((s.orderOf w, w.id), s.ahead seen w) :: s.aheadWorks (seen ++ (s.kvAhead w ++ s.swapAhead w).map (·.key)) t

/-- Programs of a partition that wait for flash commands, and swap page-ins that no descriptor of it awaits, with their place in the order of
service (log 49). -/
def State.aheadJobs (s : State) (p : Nat) : List ((Nat × Nat) × List Ahead) :=
  let horizon := s.lget PART.IMPLICIT_HORIZON.STROKES p
  let job (since n : Nat) : (Nat × Nat) × List Ahead := ((since + horizon, s.wk.next), [⟨none, 0, n, Res6.zero, 0, s.stroke⟩])
  (s.tier.ready.filter fun r => s.regionPart r.1 = p).map (fun r => job r.2.2 1) ++
    (s.pool.swapIn.filter fun x => s.regionPart (1024 + bits x.key 40 8) = p ∧
      ¬ s.wk.works.any fun w => w.phase == 1 && s.partOf w.d.tid == p && (s.swapAhead w).any (·.key == x.key)).map fun x =>
      job x.since (s.swapPlan x.key).length

/-- Everything a partition has ahead, in order of service (R44, R45). -/
def State.aheadAll (s : State) (p : Nat) : List Ahead :=
  (inOrder (·.1) (s.aheadWorks [] (s.serviceOrder p fun _ => true) ++ s.aheadJobs p)).flatMap (·.2)

/-- What a partition holds in a Stroke of the projection: fresh budget left and carry left. -/
structure Purse where
  fresh : Res6
  carry : Res6

/-- A draw from it, carry first. -/
def Purse.take (p : Purse) (d : Res6) : Purse :=
  let c := d.map2 min p.carry
  { carry := p.carry.map2 Nat.sub c, fresh := p.fresh.map2 Nat.sub (d.map2 Nat.sub c) }

/-- How often a draw is covered. -/
def Purse.covers (p : Purse) (d : Res6) (n : Nat) : Nat :=
  let a := p.fresh.map2 Nat.add p.carry
  let q (x y : Nat) : Nat := if y = 0 then n else x / y
  min n (min (min (q a.dram d.dram) (q a.engine d.engine)) (min (min (q a.search d.search) (q a.spoke d.spoke)) (q a.pool d.pool)))

def Res6.times (d : Res6) (k : Nat) : Res6 := d.map2 (fun a _ => a * k) d

/-- Page-ins of one Stroke, in order; whether anything was read. -/
def readAhead (stroke lag : Nat) : List Ahead → Purse → List Ahead × Purse × Bool
  | [], p => ([], p, false)
  | x :: t, p =>
    if x.reads = 0 then
      let (l, p1, b) := readAhead stroke lag t p
      (x :: l, p1, b)
    else
      let k := if stroke < x.hold then 0 else min x.reads (p.fresh.flash + p.carry.flash)
      let p1 := p.take { Res6.zero with flash := k }
      if k < x.reads then ({ x with reads := x.reads - k } :: t, p1, k != 0)
      else
        let (l, p2, _) := readAhead stroke lag t p1
        ({ x with reads := 0, ready := stroke + lag } :: l, p2, true)

/-- Chunks of one Stroke, in order; the descriptors that end get the Stroke. -/
def runAhead (stroke : Nat) : List Ahead → Purse → List (Nat × Nat) → List Ahead × Purse × List (Nat × Nat) × Bool
  | [], p, e => ([], p, e, false)
  | x :: t, p, e =>
    match x.id with
    | none =>
      let (l, p2, e2, b) := runAhead stroke t p e
      (if x.reads = 0 then l else x :: l, p2, e2, b)
    | some id =>
    if x.reads ≠ 0 ∨ stroke < x.ready then (x :: t, p, e, false)
    else
      let k := p.covers x.draw x.n
      let p1 := p.take (x.draw.times k)
      if k < x.n then ({ x with n := x.n - k } :: t, p1, e, k != 0)
      else
        let e1 := if x.n = 0 ∧ x.draw ≠ Res6.zero then e else kvSet e id stroke
        let (l, p2, e2, b) := runAhead stroke t p1 e1
        (l, p2, e2, b || k != 0)

/-- The next Stroke in which something can happen when nothing did. -/
def nextAhead (stroke : Nat) (l : List Ahead) : Nat :=
  let holds := (l.filter fun x => x.reads ≠ 0).map (·.hold)
  let c := (l.head?.map (·.ready)).toList ++ (holds.head?).toList
  let later := c.filter (stroke + 1 < ·)
  later.foldl min (later.headD (stroke + 1))

/-- The projection from a Stroke on: the last Stroke of each descriptor that ends (R45). -/
def project (fresh : Res6) (lag : Nat) : Nat → Nat → List Ahead → Purse → List (Nat × Nat) → List (Nat × Nat)
  | 0, _, _, _, e => e
  | n + 1, stroke, l, p, e =>
    let (l1, p1, b1) := readAhead stroke lag l p
    let (l2, p2, e2, b2) := runAhead stroke l1 p1 e
    if !l2.any (·.id.isSome) then e2
    else
      let next := if b1 || b2 then stroke + 1 else nextAhead stroke l2
      let carry := if next = stroke + 1 then p2.fresh else fresh
      project fresh lag n next l2 { fresh := fresh, carry := carry } e2

/-- Strokes a projection needs at most: each starts something, or waits once. -/
def fuelFor (l : List Ahead) : Nat := (l.map fun x => 2 * x.n + 2 * x.reads + 6).foldl (· + ·) 2

/-- The last Stroke of each of a partition's descriptors, from the boundary that begins the present Stroke (R45, R48). -/
def State.projectPart (s : State) (p : Nat) : List (Nat × Nat) :=
  let fresh := s.freshOf p
  let left := ((s.balance p).map (·.fresh)).getD Res6.zero
  let l := s.aheadAll p
  project fresh s.readLag (fuelFor l) s.stroke l { fresh := fresh, carry := left.map2 min (s.budget p) } []

/-- A descriptor's completion waits on a remote card or a host (R46). -/
def State.remoteWait (s : State) (w : Work) : Bool :=
  let op := w.d.opcode
  op == opRESHARD || (op == opFIND && w.d.b 35 1 == 1) || (op == opDELIVER && w.phase == 1 && decide (s.total w ≤ w.next)) ||
    ((op == opFIND || op == opNEXT) && s.nsScope (w.d.b 32 2) == 1 && s.flag SRCH.ENUM_STATUS.CASCADE_UP &&
      s.get SRCH.ENUM_STATUS.SIZE_M1 != 0) ||
    (op == opXFER && s.pool.snoops.any fun y => y.who == w.id + 1)

/-- The projected last Stroke of a descriptor, from the projections of its partition; a fork goes by its pages (R149), a FENCE by the
descriptors it covers, none where no budget lets it end. -/
def State.projected (s : State) (e : List (Nat × Nat)) (w : Work) : Option Nat :=
  if w.phase = 2 then some s.stroke
  else if w.d.opcode = opFORK then some (s.stroke + cdiv w.aux.forkTodo.length (2048 * s.period))
  else if w.d.opcode = opFENCE then
    let cov := s.wk.works.filter fun v => v.id < w.id ∧ v.phase = 1 ∧ v.d.tid = w.d.tid ∧ (w.d.b 32 1 = 1 ∨ v.d.sq = w.d.sq)
    if cov.all fun v => (kvFind e v.id).isSome then some ((cov.map fun v => (kvFind e v.id).getD 0).foldl max s.stroke) else none
  else kvFind e w.id

/-- A notice (Table 2-3) placed in the tenant's at-risk list (R122). -/
def State.notify (s : State) (w : Work) (projected : Nat) : State :=
  let d := w.d
  let b := leBytes 2 w.slot ++ leBytes 1 d.sq ++ leBytes 1 0 ++ leBytes 6 s.stroke ++ leBytes 6 projected
  let p := s.stat d.tid
  let s1 := s.setStat d.tid { p with arHead := (p.arHead + 1) % 2 ^ 32, notices := kvSet p.notices (p.arHead % 128) b }
  (s1.updWork w.id fun w => { w with riskDone := true }).sat PART.AT_RISK_COUNT.COUNT 1 (s.partOf d.tid)

/-- One descriptor considered: at most one notice, the first time its projection reaches the deadline less the margin (R45). -/
def State.consider (s : State) (e : List (Nat × Nat)) (w : Work) : State :=
  let due := w.d.deadline - s.lget PART.RISK_MARGIN.STROKES (s.partOf w.d.tid)
  match s.projected e w with
  | none => s.notify w strokeMax
  | some x => if due ≤ x then s.notify w (if s.remoteWait w then strokeMax else x) else s

/-- A descriptor that the projection of this boundary covers: admitted, with a deadline, not noticed yet; one that its admission at this
boundary ended at once counts as admitted. -/
def State.riskOpen (s : State) (w : Work) : Bool :=
  w.d.deadline != 0 && !w.riskDone && (w.phase == 1 || (w.phase == 2 && w.admitted == s.stroke && w.latchedAt == s.stroke &&
    w.status != stIGNORED && w.status != stDENIED && w.status != stNOTFOUND))

/-- Step 4: projections recomputed and notices raised (R45). -/
def State.riskTurn (s : State) : State :=
  s.parts.foldl (fun s p =>
    let ws := s.wk.works.filter fun w => s.partOf w.d.tid = p ∧ s.riskOpen w
    if ws = [] then s
    else
      let e := s.projectPart p
      ws.foldl (fun s w => s.consider e w) s) s

end Sys2Proof.Machine
end

