-- ==== Sys2Proof/Machine/Stroke.lean ====
section
/-! DEFINITION. The Stroke boundary and its five steps; the counter's end; the registers of the Stroke timer and of the armed switches
(R26 to R30, R34, R37 to R42, R52, R110, R164, R372, R469, R470, R491, R522). -/

namespace Sys2Proof.Machine

/-! ### Registers of the Stroke (Tables 2-7, 2-8, 2-12) -/

/-- Only the pacer of a running peloton arms a period switch (R34). -/
def State.mayArm (s : State) : Bool := !s.isMember || s.flag SYS.STROKE_STATUS.PACER

/-- ARM_PERIOD: armed at STROKE_TARGET, or refused on a member that is not the pacer (R34, R489). -/
def State.armPeriod (s : State) : State :=
  if s.flag SYS.STROKE_CTRL.ARM_PERIOD then s
  else if !s.mayArm then s.put SYS.STROKE_STATUS.REFUSED 1
  else
    let s1 := (s.put SYS.STROKE_CTRL.ARM_PERIOD 1).put SYS.STROKE_STATUS.ARMED 1
    { s1 with bnd := { s1.bnd with armedPeriod := some (s.pair SYS.STROKE_TARGET_LO.off) } }

/-- PRESET: the next boundary begins the target Stroke; a target above 0x7FFF_FFFF_FFFF is refused (R26). -/
def State.armPreset (s : State) : State :=
  if s.flag SYS.STROKE_CTRL.PRESET then s
  else
    let t := s.pair SYS.STROKE_TARGET_LO.off
    if 0x7FFFFFFFFFFF < t then s.put SYS.STROKE_STATUS.REFUSED 1
    else
      let s1 := s.put SYS.STROKE_CTRL.PRESET 1
      { s1 with bnd := { s1.bnd with preset := some t } }

/-- SYS.STROKE_CTRL. An arming refused has a shadow switch's entry after the write's own (R107). -/
def hStrokeCtrl : Handler :=
  { Handler.plain with
    act := fun s _ v =>
      let s1 := if fieldGet v 0 1 = 1 then s.armPeriod else s
      if fieldGet v 1 1 = 1 then s1.armPreset else s1
    post := fun s v => if fieldGet v 0 1 = 1 ∧ ¬ s.flag SYS.STROKE_CTRL.ARM_PERIOD ∧ ¬ s.mayArm then s.audit actorCard 5 5 else s }

/-- A target register: not while its switch is armed (R489). -/
def hTarget (armed : Fld) : Handler := { Handler.plain with chk := fun s _ old v => old != v && s.flag armed }

/-- PART.SWITCH_CTRL.ARM: the switch of the PART shadows armed at SWITCH_TARGET (R52, R489). -/
def hSwitchCtrl : Handler :=
  { Handler.plain with
    act := fun s _ v =>
      if fieldGet v 0 1 = 0 ∨ s.flag PART.SWITCH_CTRL.ARM then s
      else
        let s1 := (s.put PART.SWITCH_CTRL.ARM 1).put PART.SWITCH_STATUS.ARMED 1
        { s1 with bnd := { s1.bnd with armedPart := some (s.pair PART.SWITCH_TARGET_LO.off) } } }

/-! ### Event rings (R372, R469, Table 15-5) -/

/-- Tenants with an enabled event ring; 0 is PF0's. -/
def State.eventRings (s : State) : List Nat := (s.listed_ RDMA.EVENT_CTRL.off).filter fun t => s.flag RDMA.EVENT_CTRL.ENABLE t

/-- The 32 bytes of an event entry. -/
def Event.bytes (e : Event) (seq : Nat) : List Byte :=
  padTo 32 (leBytes 4 seq ++ leBytes 6 e.stroke ++ leBytes 1 e.code ++ leBytes 1 e.cause ++ leBytes 1 e.port ++ zeros 1 ++
    leBytes 2 e.qp ++ leBytes 4 e.key ++ leBytes 8 e.info)

/-- An event written to one ring, and its vector signalled; an FLR's drain signals none (R429). -/
def State.writeEvent (s : State) (e : Event) (t : Nat) : State :=
  let n := (kvFind s.err.evSeq t).getD 0
  let base := s.get RDMA.EVENT_BASE_LO.ADDR t * 4096 + s.get RDMA.EVENT_BASE_HI.ADDR t * 2 ^ 32
  let s1 := s.memWrite (base + 32 * (n % 256)) (e.bytes n)
  let s2 := { s1 with err := { s1.err with evSeq := kvSet s1.err.evSeq t ((n + 1) % 2 ^ 32) } }
  if s.part.drains.any fun d => d.tid == t && d.flr then s2 else s2.signal t (s.get RDMA.EVENT_CTRL.VECTOR t)

/-- The events latched in the Stroke that ended, in order, to every enabled ring they go to. -/
def State.writeEvents (s : State) : State :=
  let rings := s.eventRings
  s.err.events.foldl (fun s e =>
    let dst := match e.dests with
      | none => rings
      | some l => rings.filter l.contains
    dst.foldl (fun s t => s.writeEvent e t) s) { s with err := { s.err with events := [] } }

/-- ERR's interrupt, once per boundary (R470). -/
def State.signalErr (s : State) : State :=
  if s.err.irqPend then ({ s with err := { s.err with irqPend := false } }).signal 0 (s.get ERR.IRQ_VECTOR.VECTOR) else s

/-! ### Step 2: completions -/

/-- One latched completion: the length its work commits, then the completion (R129, R143). -/
def State.retireWork (s : State) (id : Nat) : State :=
  match s.work id with
  | none => s
  | some w =>
    let s1 := if w.d.opcode = opAPPEND then s.commitAppend w else if w.d.opcode = opXFER then s.commitXfer w else s
    s1.postCompletion id

/-- The switch of a rebuild whose fence is over: the last completion of the tenant was written at an earlier boundary (R164). -/
def State.rebuildTurn (s : State) : State :=
  match s.sq.rebuild with
  | none => s
  | some r =>
    if s.get XLAT.REBUILD_STATUS.STATE r.tid = 2 ∧ ¬ s.wk.works.any (·.d.tid = r.tid) ∧ s.fetching (fun k => k / 8 == r.tid) = 0 then
      s.switchRebuild
    else s

/-- Step 2 (R37): completions in the order of their latch, the interrupts, the events and the held audit entries that follow them, drains
and QP errors that are over. -/
def State.stepTwo (s : State) : State :=
  let s1 := s.wk.latched.foldl State.retireWork s.rebuildTurn
  (((s1.signalCqs.endDrains.writeEvents.signalErr).auditDrain 64).cutErr).sameCycle 0

/-! ### Step 3: timers -/

/-- Cascade words and peloton replies that are overdue (R248, R251). -/
def State.dueSearch (s : State) : State :=
  let s1 := s.srch.casc.foldl (fun s o => if s.cascDue o.tag then s.cascExpire o.tag else s) s
  s1.wk.works.foldl (fun s w => if s.pelDue w.id then s.pelExpire w.id else s) s1

/-- Log buffers and open NAND pages whose time is over (R193, R212). -/
def State.dueLog (s : State) : State :=
  let s1 := s.tier.streams.foldl (fun s w => if decide (w.index < 0x10000) && s.openDue w.index then s.closeOpen w.index else s) s
  s1.flash.bufs.foldl (fun s b => if s.flushDue b.1 then s.flushLog b.1 else s) s1

/-- Step 3 (R37, R39): every timer whose last Stroke was the one just ended. -/
def State.stepThree (s : State) : State :=
  (((s.advanceTurns.duePeloton.dueSnoops.dueReleases).dueHolds.dueDrains.expireNonce).dueSearch.dueLog).sameCycle s.wk.latched.length

/-! ### Step 4: admissions -/

/-- One fetched work admitted, by its opcode (R127). -/
def State.admitOne (s : State) (w : Work) : State :=
  let op := w.d.opcode
  if op = opNOP then s.admitNop w.id
  else if op = opFENCE then s.admitFence w.id
  else if op = opOPEN then s.admitOpen w.id
  else if op = opCLOSE then s.admitClose w.id
  else if op = opFORK then s.admitFork w.id
  else if op = opAPPEND then s.admitAppend w.id
  else if op = opREAD ∨ op = opPIN ∨ op = opUNPIN ∨ op = opSCORE then s.admitRange w.id
  else if op = opDELIVER then s.admitDeliver w.id
  else if op = opFIND ∨ op = opNEXT then s.admitFind w.id
  else if op = opINSERT ∨ op = opREMOVE then s.admitUpdate w.id
  else if op = opATTN then s.admitAttn w.id
  else if op = opRESHARD then s.admitReshard w.id
  else if op = opXFER then s.admitXfer w.id
  else s

/-- Fetched works admitted, each SQ in ring order (R42, R123). -/
def State.admissions (s : State) : State :=
  s.wk.works.foldl (fun s w =>
    match s.work w.id with
    | none => s
    | some w => if s.mayAdmit w then s.admitOne w else s) s

/-- Step 4 (R37): epoch switches, before anything starts (R345), admissions, plans, forks, FENCEs, projections. -/
def State.stepFour (s : State) : State :=
  let s0 := s.dueSwitches
  let s1 := if s0.phase = phRELEASED then s0.admissions else s0
  (((s1.settleAdvances).activateWriters.planAll).settleFences.serveForks.sameCycle s.wk.latched.length).riskTurn

/-! ### Step 5: switches, boundary-effective writes, refill -/

/-- The register a boundary-effective action belongs to. -/
def BAct.key : BAct → Nat × Nat
  | .live k _ => (0, k)
  | .partCreate p => (1, p)
  | .partDestroy p => (1, p)
  | .tenantCreate t => (2, t)
  | .qpMove q _ => (3, q)
  | .regionCommit r => (4, r)
  | .regionRelease r => (4, r)
  | .hostCtrl n _ => (5, n)
  | .release => (6, 0)
  | .recouple n => (7, n)
  | .bankWidth k _ => (8, k)

/-- Of several writes to one register the last one acts (R491). -/
def lastActs : List BAct → List BAct
  | [] => []
  | a :: t => if t.any (·.key = a.key) then lastActs t else a :: lastActs t

/-- Slots that were HELD when RECOUPLE was latched become ACTIVE (R94). -/
def State.recoupleNow (s : State) (held : Nat) : State :=
  (List.range 8).foldl (fun s n => if bits held n 1 = 1 ∧ s.slotState n = 5 then s.setSlotState n 1 else s) s

/-- One boundary-effective action in force (Table 21-18). -/
def State.actNow (s : State) (a : BAct) : State :=
  match a with
  | .live k w => { s with live := spPut regDefault s.live k w }
  | .partCreate p => s.createPart p
  | .partDestroy p => if s.partInUse p then s else s.destroyPart p
  | .tenantCreate t => s.createTenant t
  | .qpMove q n => s.qpMove q n
  | .regionCommit r => if s.rgState r = 0 then s.put RDMA.REGION_STATUS.STATE 1 r else s
  | .regionRelease r => if s.rgState r = 1 then s.put RDMA.REGION_STATUS.STATE 2 r else s
  | .hostCtrl n w => s.hostCtrlTurn n w
  | .release =>
    let s1 := s.evalRelease
    if s1.phase = phRELEASED ∧ s1.memberState = 1 then s1.refuseJoin 4 else s1
  | .recouple h => s.recoupleNow h
  | .bankWidth k w => s.bankWidthNow k w

/-- The actions latched in the Stroke that ended. -/
def State.takeActs (s : State) : State :=
  (lastActs s.bnd.acts).foldl State.actNow { s with bnd := { s.bnd with acts := [] } }

/-- Counts that begin anew in each Stroke: hook ports, program chunks, the frame wait (R195, R206, R308); chunks that wait for a hook no more are
forgotten. -/
def State.newStroke (s : State) : State :=
  let s1 := if s.tier.waited then s.sat TIER.FRAME_WAIT_STROKES.COUNT else s
  { s1 with
    tier := { s1.tier with waited := false, progs := 0 }
    gear := { s1.gear with
      port := []
      waited := s1.gear.waited.filter fun x => (s1.work x.1).any fun w => w.phase == 1 && decide (w.next ≤ x.2) } }

/-- What units do on their own in a new Stroke: scores (R203), a burst of eviction calls (R311), a quiesce, peloton and host requests that waited for budget, mirror
writes that waited for memory, mirrored records, the MARK of a card that was pacer as the boundary began, BEAT and HELLO. -/
def State.unitTurns (s : State) (pacer : Bool) : State :=
  let s1 := if s.stroke % 2 ^ s.get TIER.SCORE_CTRL.AGE_SHIFT = 0 then s.reevaluate else s
  let s2 := s1.sweepBurst.quiesceTurn.servePels.mirrorTurn.serveWaiting
  ((s2.sendKvOut s2.pool.kvOut.length).sendMark pacer).sendBeat.sendHellos

/-- Step 5 (R37): the armed switches, the boundary-effective writes, and the refill. -/
def State.stepFive (s : State) : State :=
  let s1 := s.switches.takeActs.turnSlots.brakeApply.accessTurn.freeRegions
  (s1.showFrames.showCapacity.poolTurn.refill).freeBounds.newStroke

/-! ### The boundary -/

/-- The Stroke that the next boundary begins (R26). -/
def State.nextStroke (s : State) : Nat := s.bnd.preset.getD (s.stroke + 1)

/-- The counter runs and the card is up. -/
def State.counting (s : State) : Bool := s.up && !s.flag SYS.STROKE_STATUS.HALTED

/-- The next boundary would begin Stroke 0xFFFF_FFFF_FFFF (R30). -/
def State.lastBoundary (s : State) : Bool := decide (strokeMax ≤ s.nextStroke)

/-- R30: the counter stops, and the card enters FAULT with a fault of class FATAL. -/
def State.haltCounter (s : State) : State :=
  (({ s with stroke := strokeMax }.put SYS.STROKE_STATUS.HALTED 1).fault clsFATAL 0 0).enterFault

/-- The new Stroke's number, in 48 bits (R26); a window opens or closes with it (R41). -/
def State.beginStroke (s : State) : State :=
  ({ s with stroke := s.nextStroke % 2 ^ 48, bnd := { s.bnd with preset := none } }.put SYS.STROKE_CTRL.PRESET 0).obsTurn

/-- A boundary that begins a Stroke (R37). In FAULT no unit works: events, interrupts, switches and writes in force go on. -/
def State.boundary (s : State) : State :=
  let s1 := if s.working then s.throttle.probeTurn.dieRebuildTurn.noteWaits else s
  let s2 := s1.beginStroke
  if s2.working then (s2.stepTwo.stepThree.stepFour.stepFive.unitTurns (s2.flag SYS.STROKE_STATUS.PACER)).noteWaits
  else ((s2.signalCqs.writeEvents.signalErr).auditDrain 64).expireNonce.stepFive

/-- STROKE_BOUNDARY (R37). -/
def execStrokeBoundary (s : State) : Res :=
  .next (if !s.counting then s else if s.lastBoundary then s.haltCounter else s.boundary)

/-- The next boundary begins a Stroke at or after the target of an armed switch (R522). -/
def State.dueNext (s : State) (a : Option Nat) : Bool := s.counting && !s.lastBoundary && a.any (· ≤ s.nextStroke)

/-- PERIOD_SWITCH (R27, R522): a change of period takes effect only at a boundary, so the event is the boundary at which the armed
switch is due (DESIGN CHOICE, log 80). -/
def execPeriodSwitch (s : State) : Res := .next (if s.dueNext s.bnd.armedPeriod then s.boundary else s)

/-- SHADOW_SWITCH (R52, R522): the boundary at which the armed switch of the PART shadows is due (DESIGN CHOICE, log 80). -/
def execShadowSwitch (s : State) : Res := .next (if s.dueNext s.bnd.armedPart then s.boundary else s)

/-- COUNTER_HALT (R30): the boundary that would begin Stroke 0xFFFF_FFFF_FFFF. -/
def execCounterHalt (s : State) : Res := .next (if s.counting && s.lastBoundary then s.haltCounter else s)

end Sys2Proof.Machine
end

