-- ==== Sys2Proof/Machine/Registers.lean ====
section
/-! DEFINITION. REGISTER_WRITE: a BAR0 write to any offset, with the rules each register's chapter adds
(R112, R482 to R487, R524). -/

namespace Sys2Proof.Machine

/-- A SELECT register that takes no 0 (R487). -/
def hSelectNot0 : Handler := { Handler.plain with chk := fun _ _ old v => old != v && v == 0#32 }

/-- Registers of blocks SYS, ROLE and IMG. -/
def handlerCard (s : State) (off : Nat) : Handler :=
  if off = SYS.BRINGUP_CTRL.off then hBringupCtrl
  else if off = SYS.STROKE_CTRL.off then hStrokeCtrl
  else if off = SYS.STROKE_TARGET_LO.off ∨ off = SYS.STROKE_TARGET_HI.off then hTarget SYS.STROKE_STATUS.ARMED
  else if off = ROLE.MAKER_LOCK.off then (if s.flag ROLE.MAKER_LOCK.LOCK then Handler.plain else hMakerLock)
  else if off = ROLE.AUDIT_BASE_LO.off ∨ off = ROLE.AUDIT_BASE_HI.off then hAuditBase
  else if off = ROLE.AUDIT_TAIL.off then hAuditTail
  else if off = IMG.LOAD_CTRL.off then hLoadCtrl
  else if off = IMG.LOAD_CMD.off then hLoadCmd
  else Handler.plain

/-- Registers of block PART. -/
def handlerPart (off : Nat) : Handler :=
  if off = PART.PARTITION_CTRL.off then hPartitionCtrl
  else if off = PART.SWITCH_CTRL.off then hSwitchCtrl
  else if off = PART.SWITCH_TARGET_LO.off ∨ off = PART.SWITCH_TARGET_HI.off then hTarget PART.SWITCH_STATUS.ARMED
  else if off = PART.TENANT_SELECT.off then hSelectNot0
  else if off = PART.TENANT_CTRL.off then hTenantCtrl
  else if off = PART.TENANT_PARTITION.off ∨ off = PART.TENANT_CAPS.off then hTenantField
  else if isKeyData off then hKeyData off
  else if off = PART.KEY_CTRL.off then hKeyCtrl
  else Handler.plain

/-- Registers of blocks XLAT and TIER. -/
def handlerPages (off : Nat) : Handler :=
  if off = XLAT.AREA_CTRL.off then hAreaCtrl
  else if off = XLAT.SEQ_CAP.off then hSeqCap
  else if off = XLAT.REBUILD_CTRL.off then hRebuildCtrl
  else if off = XLAT.WALK_CACHE_CTRL.off then hWalkCtrl
  else if off = TIER.LOG_SCAN_CTRL.off then hLogScanCtrl
  else if off = TIER.REGION_ACTION.off then hRegionAction
  else if off = TIER.QUIESCE_CTRL.off then hQuiesceCtrl
  else if off = TIER.DROP_LEVEL.off ∨ off = TIER.DEMOTE_LEVEL.off then hLevel off
  else if off = TIER.LOG_FLUSH.off then hLogFlush
  else if off = TIER.PROBE_CTRL.off then hTierProbe
  else Handler.plain

/-- The group counts of ENG.ATTN_TILES: 16 in all, none of them 0 (R303). -/
def attnTilesBad (_ : State) (_ : Nat) (v : Word) : Bool := lanesBad v

/-- Registers of blocks SRCH, CMPR and ENG. -/
def handlerUnits (off : Nat) : Handler :=
  if off = SRCH.BANK_CTRL.off then hBankCtrl
  else if off = SRCH.NS_CTRL.off then hNsCtrl
  else if off = SRCH.VERIFY_TRIES.off then hVerifyTries
  else if off = SRCH.CASCADE_WAIT.off ∨ off = SRCH.PELOTON_WAIT.off then hSearchWait
  else if off = CMPR.CLASS_GEOMETRY.off ∨ off = CMPR.CLASS_FORMAT.off ∨ off = CMPR.CLASS_LATENT.off then hClassField
  else if off = CMPR.CLASS_CTRL.off then hClassCtrl
  else if CMPR.APPEND_BUCKETS.off ≤ off ∧ off ≤ CMPR.APPEND_LANES.off then hBuckets off
  else if off = CMPR.CONST_AREA.off then hConstArea
  else if off = CMPR.CONST_SHAPE.off ∨ off = CMPR.CONST_LAYERS.off ∨ off = CMPR.CONST_ADDR_LO.off ∨
      off = CMPR.CONST_ADDR_HI.off then hConstField
  else if off = CMPR.CONST_CTRL.off then hConstCtrl
  else if off = CMPR.CODE_POLICY.off then hCodePolicy
  else if off = ENG.ATTN_SCALE.off then hEngLive off fun _ _ _ => false
  else if off = ENG.ATTN_GROUP.off then hEngLive off attnGroupBad
  else if off = ENG.ATTN_TILES.off then hEngLive off attnTilesBad
  else if off = ENG.ATTN_BUCKETS_0.off ∨ off = ENG.ATTN_BUCKETS_1.off ∨ off = ENG.ATTN_BUCKETS_2.off then
    hEngLive off (attnEdgesBad off)
  else Handler.plain

/-- Registers of blocks GEAR and SPOKE. -/
def handlerGear (off : Nat) : Handler :=
  if off = GEAR.TENANT_BIND.off then hTenantBind
  else if off = GEAR.SLOT_CTRL.off then hSlotCtrl
  else if off = GEAR.SCORE_BURST.off then hScoreBurst
  else if GEAR.SLOT_WINDOW.off ≤ off ∧ off < GEAR.SLOT_WINDOW.off + 1024 then hSlotWindow
  else if off = SPOKE.PORT_CTRL.off then hPortCtrl
  else if off = SPOKE.FREEWHEEL_CTRL.off then hFreewheelCtrl
  else if off = SPOKE.PELOTON_ID.off then hPelotonId
  else if off = SPOKE.MEMBER_CTRL.off then hMemberCtrl
  else if off = SPOKE.PEER_TENANT.off then hPeerTenant
  else Handler.plain

/-- Registers of block RDMA (Table 15-9). -/
def handlerRdma (off : Nat) : Handler :=
  if off = RDMA.PD_CTRL.off then hPdCtrl
  else if off = RDMA.QP_BIND.off then hQpField off (some qpRESET)
  else if RDMA.QP_REMOTE.off ≤ off ∧ off < RDMA.QP_PATH.off then hQpField off (some qpINIT)
  else if off = RDMA.QP_PSN.off then hQpField off (some qpINIT)
  else if off = RDMA.QP_SQ_PSN.off then hQpField off (some qpRTR)
  else if off = RDMA.QP_PATH.off ∨ off = RDMA.QP_RETRY.off ∨ off = RDMA.QP_FLUSH.off then hQpField off none
  else if off = RDMA.QP_CTRL.off then hQpCtrl
  else if RDMA.REGION_KIND.off ≤ off ∧ off ≤ RDMA.REGION_COUNTER_HI.off then hRegionField
  else if off = RDMA.REGION_CTRL.off then hRegionCtrl
  else if off = RDMA.EVENT_CTRL.off then hEventCtrl
  else Handler.plain

/-- Registers of block POOL. -/
def handlerPool (off : Nat) : Handler :=
  if off = POOL.CARVE_DRAM.off then hCarveDram
  else if off = POOL.CARVE_FLASH.off then hCarveFlash
  else if off = POOL.SWAP_CACHE.off then hSwapCache
  else if off = POOL.HOST_CTRL.off then hPoolHost
  else if off = POOL.HOST_RATE.off then hLater off
  else if off = POOL.REGION_SIZE.off then hRegionSize
  else if off = POOL.REGION_DEF.off then hRegionDef
  else if off = POOL.REGION_CTRL.off then hPoolRegionCtrl
  else if POOL.REGION_ACCESS.off ≤ off ∧ off < POOL.REGION_ACCESS.off + 64 then hRegionAccess ((off - POOL.REGION_ACCESS.off) / 4)
  else if off = POOL.KV_MIRROR.off then hKvMirror
  else if off = POOL.TANDEM_CTRL.off then hTandemCtrl
  else if off = POOL.TAKEOVER_KV.off then hTakeoverKv
  else Handler.plain

/-- Registers of blocks CLK, WDOG, ERR and FN. -/
def handlerCare (off : Nat) : Handler :=
  if off = CLK.DOMAIN_SELECT.off then hDomainSelect
  else if off = CLK.DOMAIN_CTRL.off then hDomainCtrl
  else if off = CLK.AUTO_GATE.off then hAutoGate
  else if off = CLK.OVERRUN_SELECT.off then hOverrunSelect
  else if off = WDOG.SYS_PERIOD.off then hSysPeriod
  else if off = WDOG.HOST_CTRL.off then hHostCtrl
  else if off = WDOG.HOST_PERIOD.off then hHostPeriod 64
  else if off = WDOG.HOST_TASKS.off then hHostPeriod 1
  else if off = WDOG.HOST_CHECKIN.off then hHostCheckin
  else if off = WDOG.HOST_DISABLE.off then hHostDisable
  else if off = WDOG.GRACE.off then hGrace
  else if off = ERR.SEQ_PROBE_CTRL.off then hSeqProbe
  else if off = ERR.OBS_CTRL.off then hObsCtrl
  else if ERR.OBS_START_LO.off ≤ off ∧ off ≤ ERR.OBS_END_HI.off then hObsRange
  else if off = FN.VF_SELECT.off then hSelectNot0
  else if off = FN.VF_BIND.off then hVfBind
  else Handler.plain

/-- A register of the FN ring window (R136). -/
def handlerRing (s : State) (off : Nat) : Handler :=
  let tid := (off - 0x40000) / 0x100
  let q := off % 0x80 / 0x10
  let cq := ringRel off / 0x80 == 1
  let r := off % 0x10
  if r = 0 ∨ r = 4 then hRingBase tid q cq
  else if r = 8 then (if cq then hCqCtrl tid q (!s.cqOn tid q) else hSqCtrl tid q (!s.sqOn tid q))
  else Handler.plain

/-- What its chapter adds for the register at an offset. -/
def State.handler (s : State) (off : Nat) : Handler :=
  let blk := off >>> 16
  if inRingWindow off then handlerRing s off
  else if blk ≤ 3 then handlerCard s off
  else if blk = 8 then handlerPart off
  else if blk = 9 ∨ blk = 10 then handlerPages off
  else if 11 ≤ blk ∧ blk ≤ 13 then handlerUnits off
  else if blk = 14 ∨ blk = 15 then handlerGear off
  else if blk = 16 then handlerRdma off
  else if blk = 17 then handlerPool off
  else handlerCare off

/-- The low 32 bits that PF0's MSI-X table holds at an offset of it. -/
def State.msixLow (s : State) (o : Nat) : Nat := leNat ((List.range 4).map fun i => spGet memDefault s.msix (o + i))

/-- PF0's MSI-X table and pending-bit array (R482): an aligned 32- or 64-bit write of the table is stored, any other is discarded, and
none is counted. The stored write is an installer's write to BAR0 like any other (R107), refused where its entry would be dropped (R111);
the entry shows the low 32 bits (log 86). -/
def State.msixWrite (s : State) (off bytes : Nat) (val : BitVec 64) : State :=
  let o := off - 0xF00000
  if decide (o < 2048 * 16) && (bytes == 4 || bytes == 8) && off % bytes == 0 then
    if s.flag ROLE.AUDIT_POLICY.STRICT && s.auditFull then s.illegal 0 causeAuditFull off (val.toNat % 2 ^ 32)
    else
      let t : State := { s with msix := (leBytes bytes val.toNat).zipIdx.foldl (fun m x => spPut memDefault m (o + x.2) x.1) s.msix }
      t.audit actorBar0 1 off (s.msixLow o) (val.toNat % 2 ^ 32) (t.msixLow o)
  else s

/-- A BAR0 write to a register, wherever it lies (R112, R483, R485). -/
def State.registerWrite (s : State) (off bytes : Nat) (val : BitVec 64) : State :=
  if !s.pf0 then s
  else if (0xF00000 ≤ off ∧ off < 0xF08000) ∨ (0xF80000 ≤ off ∧ off < 0xF80100) then (s.breakKey off).msixWrite off bytes val
  else if bytes ≠ 4 ∨ off % 4 ≠ 0 then ((s.breakKey off).dropKey off).illegal 0 causeWidth off (val.toNat % 2 ^ 32)
  else if off = CMPR.CLASS_CTRL.off then s.writeClassCtrl (val.truncate 32)
  else bar0 (s.handler off) off (val.truncate 32) s

/-- REGISTER_WRITE (R483): a write of `bytes` bytes at an offset of BAR0's 16 MiB. -/
def execRegisterWrite (off bytes : Nat) (val : BitVec 64) (s : State) : Res := .next (s.registerWrite (off % 2 ^ 24) bytes val)

end Sys2Proof.Machine
end

