-- ==== Sys2Proof/Machine/Dispatch.lean ====
section
/-! DEFINITION. One arm per command: a direct call of its meaning. -/

namespace Sys2Proof.Machine

def exec (i : Instr) (s : State) : Host.Outcome State Fault Refusal :=
  match i with
  | .strokeBoundary => Sys2Proof.Machine.execStrokeBoundary s
  | .shadowSwitch => Sys2Proof.Machine.execShadowSwitch s
  | .periodSwitch => Sys2Proof.Machine.execPeriodSwitch s
  | .counterHalt => Sys2Proof.Machine.execCounterHalt s
  | .chunkStart unit => Sys2Proof.Machine.execChunkStart unit s
  | .chunkEnd work chunk res => Sys2Proof.Machine.execChunkEnd work chunk res s
  | .markReceive port f offsetNs => Sys2Proof.Machine.execMarkReceive port f offsetNs s
  | .markTimeout => Sys2Proof.Machine.execMarkTimeout s
  | .beatSend => Sys2Proof.Machine.execBeatSend s
  | .rosterTimeout member => Sys2Proof.Machine.execRosterTimeout member s
  | .helloSend => Sys2Proof.Machine.execHelloSend s
  | .joinCmd => Sys2Proof.Machine.execJoinCmd s
  | .joinTimeout => Sys2Proof.Machine.execJoinTimeout s
  | .leaveCmd => Sys2Proof.Machine.execLeaveCmd s
  | .powerInputChange input inTol => Sys2Proof.Machine.execPowerInputChange input inTol s
  | .perstChange asserted => Sys2Proof.Machine.execPerstChange asserted s
  | .resetInChange asserted => Sys2Proof.Machine.execResetInChange asserted s
  | .hotReset => Sys2Proof.Machine.execHotReset s
  | .flrPf0 => Sys2Proof.Machine.execFlrPf0 s
  | .resetExit => Sys2Proof.Machine.execResetExit s
  | .dramTrainingDone stack ok => Sys2Proof.Machine.execDramTrainingDone stack ok s
  | .pf0Ready => Sys2Proof.Machine.execPf0Ready s
  | .logScanStart => Sys2Proof.Machine.execLogScanStart s
  | .logScanDone => Sys2Proof.Machine.execLogScanDone s
  | .regionAdopt tid => Sys2Proof.Machine.execRegionAdopt tid s
  | .regionScrub => Sys2Proof.Machine.execRegionScrub s
  | .regionHold => Sys2Proof.Machine.execRegionHold s
  | .regionActionStart => Sys2Proof.Machine.execRegionActionStart s
  | .adoptDone => Sys2Proof.Machine.execAdoptDone s
  | .scrubDone => Sys2Proof.Machine.execScrubDone s
  | .releaseCmd => Sys2Proof.Machine.execReleaseCmd s
  | .quiesceStart => Sys2Proof.Machine.execQuiesceStart s
  | .quiesceDone => Sys2Proof.Machine.execQuiesceDone s
  | .bar2Write off bytes val => Sys2Proof.Machine.execBar2Write off bytes val s
  | .bar2HeaderSubmit val => Sys2Proof.Machine.execBar2HeaderSubmit val s
  | .bar2FrameSubmit slot val => Sys2Proof.Machine.execBar2FrameSubmit slot val s
  | .headerCmd words partialWord => Sys2Proof.Machine.execHeaderCmd words partialWord s
  | .frameCmd arg words partialWord => Sys2Proof.Machine.execFrameCmd arg words partialWord s
  | .statusCmd cursor => Sys2Proof.Machine.execStatusCmd cursor s
  | .serialAbort => Sys2Proof.Machine.execSerialAbort s
  | .serialBadcmd cmd => Sys2Proof.Machine.execSerialBadcmd cmd s
  | .headerCheckDone => Sys2Proof.Machine.execHeaderCheckDone s
  | .verifyDone => Sys2Proof.Machine.execVerifyDone s
  | .abortCmd => Sys2Proof.Machine.execAbortCmd s
  | .slotConfigDone slot ok => Sys2Proof.Machine.execSlotConfigDone slot ok s
  | .slotReady slot ident => Sys2Proof.Machine.execSlotReady slot ident s
  | .slotReadyTimeout slot => Sys2Proof.Machine.execSlotReadyTimeout slot s
  | .recouple => Sys2Proof.Machine.execRecouple s
  | .applyDone ok sysMask => Sys2Proof.Machine.execApplyDone ok sysMask s
  | .auditTail val => Sys2Proof.Machine.execAuditTail val s
  | .makerLock => Sys2Proof.Machine.execMakerLock s
  | .makerChallengeRequest scope => Sys2Proof.Machine.execMakerChallengeRequest scope s
  | .makerResponse sig => Sys2Proof.Machine.execMakerResponse sig s
  | .nonceExpiry => Sys2Proof.Machine.execNonceExpiry s
  | .makerAction scope code off => Sys2Proof.Machine.execMakerAction scope code off s
  | .registerWrite off bytes val => Sys2Proof.Machine.execRegisterWrite off bytes val s
  | .countLoRead path span => Sys2Proof.Machine.execCountLoRead path span s
  | .sqTail vf q val => Sys2Proof.Machine.execSqTail vf q val s
  | .cqHead vf q val => Sys2Proof.Machine.execCqHead vf q val s
  | .fetchStart tid q => Sys2Proof.Machine.execFetchStart tid q s
  | .descriptorFetched tid q => Sys2Proof.Machine.execDescriptorFetched tid q s
  | .sqCtrl tid q val => Sys2Proof.Machine.execSqCtrl tid q val s
  | .cqCtrl tid q val => Sys2Proof.Machine.execCqCtrl tid q val s
  | .nop d => Sys2Proof.Machine.execNop d s
  | .fence d => Sys2Proof.Machine.execFence d s
  | .seqOpen d => Sys2Proof.Machine.execSeqOpen d s
  | .seqClose d => Sys2Proof.Machine.execSeqClose d s
  | .closeRun idx => Sys2Proof.Machine.execCloseRun idx s
  | .closeEntriesRemoved idx => Sys2Proof.Machine.execCloseEntriesRemoved idx s
  | .seqFork d => Sys2Proof.Machine.execSeqFork d s
  | .append d => Sys2Proof.Machine.execAppend d s
  | .readPages d => Sys2Proof.Machine.execReadPages d s
  | .deliver d => Sys2Proof.Machine.execDeliver d s
  | .pin d => Sys2Proof.Machine.execPin d s
  | .unpin d => Sys2Proof.Machine.execUnpin d s
  | .scoreUpdate d => Sys2Proof.Machine.execScoreUpdate d s
  | .prefixFind d => Sys2Proof.Machine.execPrefixFind d s
  | .prefixNext d => Sys2Proof.Machine.execPrefixNext d s
  | .prefixInsert d => Sys2Proof.Machine.execPrefixInsert d s
  | .prefixRemove d => Sys2Proof.Machine.execPrefixRemove d s
  | .attnPartial d => Sys2Proof.Machine.execAttnPartial d s
  | .reshardMove d => Sys2Proof.Machine.execReshardMove d s
  | .reshardCopy d => Sys2Proof.Machine.execReshardCopy d s
  | .advance d => Sys2Proof.Machine.execAdvance d s
  | .poolXfer d => Sys2Proof.Machine.execPoolXfer d s
  | .rebuildStart => Sys2Proof.Machine.execRebuildStart s
  | .rebuildCopyDone => Sys2Proof.Machine.execRebuildCopyDone s
  | .walkCacheFlush => Sys2Proof.Machine.execWalkCacheFlush s
  | .tierProbe => Sys2Proof.Machine.execTierProbe s
  | .defineCmd => Sys2Proof.Machine.execDefineCmd s
  | .undefine => Sys2Proof.Machine.execUndefine s
  | .appendBuckets off val => Sys2Proof.Machine.execAppendBuckets off val s
  | .nandReadDone op res => Sys2Proof.Machine.execNandReadDone op res s
  | .programDone op ok => Sys2Proof.Machine.execProgramDone op ok s
  | .dieRebuildDone group lost => Sys2Proof.Machine.execDieRebuildDone group lost s
  | .openNandPageTimeout index => Sys2Proof.Machine.execOpenNandPageTimeout index s
  | .eviction => Sys2Proof.Machine.execEviction s
  | .scoreReevaluate => Sys2Proof.Machine.execScoreReevaluate s
  | .logFlush index => Sys2Proof.Machine.execLogFlush index s
  | .compaction index => Sys2Proof.Machine.execCompaction index s
  | .cascadeWord w => Sys2Proof.Machine.execCascadeWord w s
  | .cascadeWaitExpiry tag => Sys2Proof.Machine.execCascadeWaitExpiry tag s
  | .enumDone ring => Sys2Proof.Machine.execEnumDone ring s
  | .cascadeEnumTimeout => Sys2Proof.Machine.execCascadeEnumTimeout s
  | .matchToken port f => Sys2Proof.Machine.execMatchToken port f s
  | .matchReply port f => Sys2Proof.Machine.execMatchReply port f s
  | .pelotonWaitExpiry work => Sys2Proof.Machine.execPelotonWaitExpiry work s
  | .brakeSample temps => Sys2Proof.Machine.execBrakeSample temps s
  | .reshape => Sys2Proof.Machine.execReshape s
  | .reshapeDrainDone bank => Sys2Proof.Machine.execReshapeDrainDone bank s
  | .shadowTokensRestored entry => Sys2Proof.Machine.execShadowTokensRestored entry s
  | .constLoad => Sys2Proof.Machine.execConstLoad s
  | .constLoadDone ok => Sys2Proof.Machine.execConstLoadDone ok s
  | .constUnload => Sys2Proof.Machine.execConstUnload s
  | .hookResponse slot hook tag last data => Sys2Proof.Machine.execHookResponse slot hook tag last data s
  | .hookLatencyTimeout slot hook tag => Sys2Proof.Machine.execHookLatencyTimeout slot hook tag s
  | .slotFaultAssert slot => Sys2Proof.Machine.execSlotFaultAssert slot s
  | .slotWindow addr wr rdata => Sys2Proof.Machine.execSlotWindow addr wr rdata s
  | .windowTimeout addr => Sys2Proof.Machine.execWindowTimeout addr s
  | .cfgRdReq slot frame => Sys2Proof.Machine.execCfgRdReq slot frame s
  | .cfgReadbackDone ok => Sys2Proof.Machine.execCfgReadbackDone ok s
  | .unloadCmd => Sys2Proof.Machine.execUnloadCmd s
  | .tenantBind val => Sys2Proof.Machine.execTenantBind val s
  | .helloCmd port f => Sys2Proof.Machine.execHelloCmd port f s
  | .ackCmd port f => Sys2Proof.Machine.execAckCmd port f s
  | .beatCmd port f => Sys2Proof.Machine.execBeatCmd port f s
  | .badFrame port header payload => Sys2Proof.Machine.execBadFrame port header payload s
  | .replayTimeout port => Sys2Proof.Machine.execReplayTimeout port s
  | .reshardOpen port f => Sys2Proof.Machine.execReshardOpen port f s
  | .reshardAnswer port f => Sys2Proof.Machine.execReshardAnswer port f s
  | .pageSeg port f => Sys2Proof.Machine.execPageSeg port f s
  | .placed port f => Sys2Proof.Machine.execPlaced port f s
  | .epochPrepare port f => Sys2Proof.Machine.execEpochPrepare port f s
  | .epochReadySend tid => Sys2Proof.Machine.execEpochReadySend tid s
  | .epochReady port f => Sys2Proof.Machine.execEpochReady port f s
  | .advanceReadyDeadline work => Sys2Proof.Machine.execAdvanceReadyDeadline work s
  | .epochCommit port f => Sys2Proof.Machine.execEpochCommit port f s
  | .commitAck port f => Sys2Proof.Machine.execCommitAck port f s
  | .xferWaitExpiry xid => Sys2Proof.Machine.execXferWaitExpiry xid s
  | .mirrorWrite port f => Sys2Proof.Machine.execMirrorWrite port f s
  | .mirrorAck port f => Sys2Proof.Machine.execMirrorAck port f s
  | .linkDown port => Sys2Proof.Machine.execLinkDown port s
  | .linkHoldExpiry port => Sys2Proof.Machine.execLinkHoldExpiry port s
  | .linkUp port member => Sys2Proof.Machine.execLinkUp port member s
  | .freewheelOpen pair => Sys2Proof.Machine.execFreewheelOpen pair s
  | .freewheelClose pair => Sys2Proof.Machine.execFreewheelClose pair s
  | .freewheelSwitchDone pair => Sys2Proof.Machine.execFreewheelSwitchDone pair s
  | .qpReset => Sys2Proof.Machine.execQpReset s
  | .qpInit => Sys2Proof.Machine.execQpInit s
  | .qpRtr => Sys2Proof.Machine.execQpRtr s
  | .qpRts => Sys2Proof.Machine.execQpRts s
  | .qpSqd => Sys2Proof.Machine.execQpSqd s
  | .qpErr => Sys2Proof.Machine.execQpErr s
  | .commitCmd => Sys2Proof.Machine.execCommitCmd s
  | .regionRelease => Sys2Proof.Machine.execRegionRelease s
  | .rdmaWrite port p => Sys2Proof.Machine.execRdmaWrite port p s
  | .sprayWrite port p => Sys2Proof.Machine.execSprayWrite port p s
  | .flush port p => Sys2Proof.Machine.execFlush port p s
  | .flushResponse port p => Sys2Proof.Machine.execFlushResponse port p s
  | .rdmaAck port p => Sys2Proof.Machine.execRdmaAck port p s
  | .sprayAck port p => Sys2Proof.Machine.execSprayAck port p s
  | .sprayAckSend qp => Sys2Proof.Machine.execSprayAckSend qp s
  | .sprayTimeout qp psn => Sys2Proof.Machine.execSprayTimeout qp psn s
  | .ackTimeout qp => Sys2Proof.Machine.execAckTimeout qp s
  | .pathRestored qp path => Sys2Proof.Machine.execPathRestored qp path s
  | .cnp port p => Sys2Proof.Machine.execCnp port p s
  | .rateTimer qp => Sys2Proof.Machine.execRateTimer qp s
  | .pfcStorm port => Sys2Proof.Machine.execPfcStorm port s
  | .cxlReadNocache src tag dpa => Sys2Proof.Machine.execCxlReadNocache src tag dpa s
  | .cxlSharedRead src tag dpa => Sys2Proof.Machine.execCxlSharedRead src tag dpa s
  | .cxlOwnershipRead src tag dpa => Sys2Proof.Machine.execCxlOwnershipRead src tag dpa s
  | .cxlWrite src tag dpa data mask mval => Sys2Proof.Machine.execCxlWrite src tag dpa data mask mval s
  | .writeback hid dpa data => Sys2Proof.Machine.execWriteback hid dpa data s
  | .snoopResponse hid dpa data keeps => Sys2Proof.Machine.execSnoopResponse hid dpa data keeps s
  | .biTimeout slot dpa => Sys2Proof.Machine.execBiTimeout slot dpa s
  | .hostViral hid => Sys2Proof.Machine.execHostViral hid s
  | .poolRequestServe => Sys2Proof.Machine.execPoolRequestServe s
  | .dcReleaseAck hid region => Sys2Proof.Machine.execDcReleaseAck hid region s
  | .releaseWaitExpiry slot region => Sys2Proof.Machine.execReleaseWaitExpiry slot region s
  | .createCmd => Sys2Proof.Machine.execCreateCmd s
  | .destroy => Sys2Proof.Machine.execDestroy s
  | .destroyDone region => Sys2Proof.Machine.execDestroyDone region s
  | .takeover => Sys2Proof.Machine.execTakeover s
  | .takeoverKv => Sys2Proof.Machine.execTakeoverKv s
  | .takeoverKvDone => Sys2Proof.Machine.execTakeoverKvDone s
  | .resync => Sys2Proof.Machine.execResync s
  | .resyncDone tenant num => Sys2Proof.Machine.execResyncDone tenant num s
  | .hostCtrl val => Sys2Proof.Machine.execHostCtrl val s
  | .hostDrainDone slot => Sys2Proof.Machine.execHostDrainDone slot s
  | .partitionCreate => Sys2Proof.Machine.execPartitionCreate s
  | .partitionDestroy => Sys2Proof.Machine.execPartitionDestroy s
  | .tenantCreate => Sys2Proof.Machine.execTenantCreate s
  | .tenantDestroy => Sys2Proof.Machine.execTenantDestroy s
  | .tenantReset => Sys2Proof.Machine.execTenantReset s
  | .flrVf vf => Sys2Proof.Machine.execFlrVf vf s
  | .resetDrainExpiry tid => Sys2Proof.Machine.execResetDrainExpiry tid s
  | .keyLoad => Sys2Proof.Machine.execKeyLoad s
  | .keyClear => Sys2Proof.Machine.execKeyClear s
  | .domainStop => Sys2Proof.Machine.execDomainStop s
  | .domainStart => Sys2Proof.Machine.execDomainStart s
  | .domainRunning domain => Sys2Proof.Machine.execDomainRunning domain s
  | .isolate set => Sys2Proof.Machine.execIsolate set s
  | .domainReset set => Sys2Proof.Machine.execDomainReset set s
  | .xingReset set => Sys2Proof.Machine.execXingReset set s
  | .flashGate => Sys2Proof.Machine.execFlashGate s
  | .crossingOverrun crossing => Sys2Proof.Machine.execCrossingOverrun crossing s
  | .sysCheckin task seq => Sys2Proof.Machine.execSysCheckin task seq s
  | .hostCheckin val => Sys2Proof.Machine.execHostCheckin val s
  | .hostDisable key => Sys2Proof.Machine.execHostDisable key s
  | .hostEnable => Sys2Proof.Machine.execHostEnable s
  | .watchdogTimeout host => Sys2Proof.Machine.execWatchdogTimeout host s
  | .clockStopCheck stopped => Sys2Proof.Machine.execClockStopCheck stopped s
  | .xtalFail => Sys2Proof.Machine.execXtalFail s
  | .quiesceLimitExpiry => Sys2Proof.Machine.execQuiesceLimitExpiry s
  | .crashDone log => Sys2Proof.Machine.execCrashDone log s
  | .graceExpiry => Sys2Proof.Machine.execGraceExpiry s
  | .stackFailure stack => Sys2Proof.Machine.execStackFailure stack s
  | .tableRebuildDone stack => Sys2Proof.Machine.execTableRebuildDone stack s
  | .unitFault unit index work chunk => Sys2Proof.Machine.execUnitFault unit index work chunk s
  | .seqProbe => Sys2Proof.Machine.execSeqProbe s
  | .obsStart => Sys2Proof.Machine.execObsStart s
  | .obsStop => Sys2Proof.Machine.execObsStop s
  | .obsArm => Sys2Proof.Machine.execObsArm s
  | .thermalSample temps vin pin => Sys2Proof.Machine.execThermalSample temps vin pin s
  | .setOffset off => Sys2Proof.Machine.execSetOffset off s
  | .readDword => Sys2Proof.Machine.execReadDword s
  | .telemetry => Sys2Proof.Machine.execTelemetry s
  | .cascadeDown => Sys2Proof.Machine.execCascadeDown s
  | .fecDegraded port count => Sys2Proof.Machine.execFecDegraded port count s

end Sys2Proof.Machine
end

