-- ==== Sys2Proof/Safety.lean ====
section
/-! DEFINITION. What counts as a safe run: every store in its canonical form, the Stroke counter within its 48 bits, and nothing
sent ever taken back. -/

namespace Sys2Proof.Machine

/-- Every store of the card is in its canonical form: keys strictly rising, no entry equal to what an unlisted key reads as. -/
def State.canonical (s : State) : Bool :=
  spWf regDefault s.regs && spWf regDefault s.live && spWf (fun _ => 0#32) s.paths && Memory.wf s.hmem && spWf memDefault s.msix

/-- The invariant of a run: the stores are canonical and the Stroke counter is at most 0xFFFF_FFFF_FFFF (R26, R30). -/
def State.Inv (s : State) : Prop := s.canonical = true ∧ s.stroke ≤ strokeMax

/-- What no command may do to what has been: the record of what was sent only grows, and so does the count of free values. -/
def State.Extends (s t : State) : Prop := s.out <+: t.out ∧ s.free ≤ t.free

/-! ### BAR0 writes -/

/-- No rule that holds for every register turns a BAR0 write away: PF0 answers, no key sequence of WDOG.HOST_DISABLE stands open (R455),
and ROLE.AUDIT_POLICY.STRICT is 0 (R111). -/
def State.writable (s : State) : Bool := s.pf0 && s.wd.key1.isNone && !s.flag ROLE.AUDIT_POLICY.STRICT

/-- The phase is CONFIGURE or RELEASED, in which most registers take writes (Table 21-19). -/
def State.serving (s : State) : Bool := s.phase == phCONFIGURE || s.phase == phRELEASED

/-- The phase is LOAD, CONFIGURE or RELEASED. -/
def State.living (s : State) : Bool := s.phase == phLOAD || s.serving

/-- What an accepted write leaves: `t`, the state its action made, and the audit entry of the write: actor installer on BAR0, event
REGISTER_WRITE, the offset, and the register's word before, as written and after (R107, R108, Table 5-4). -/
def State.recorded (s t : State) (off inst : Nat) (val : Word) : State :=
  t.audit actorBar0 1 off (s.view off inst).toNat val.toNat (t.view off inst).toNat

/-! ### Descriptors -/

/-- A row's descriptor as a ring would hold it: the row's opcode and a body of 32 bytes. -/
def asPosted (op : Nat) (d : Desc) : Desc := { d with opcode := op, body := padTo 32 d.body }

/-- The work of a descriptor at its admission (R42). -/
def State.admitted (s : State) (w : Work) : Work := { w with phase := 1, admitted := s.stroke, stream := opStream w.d.opcode }

/-- The descriptor `d` of opcode `op` stands fetched as the work `w`, is the next of its queue and passes every check of R127: `e` is the
state in which it is admitted, as the work `a`. -/
def State.Admits (s : State) (op : Nat) (d : Desc) (w : Work) (e : State) (a : Work) : Prop :=
  s.working = true ∧ s.phase = phRELEASED ∧ s.findFetched (asPosted op d) = some w ∧ w.d.opcode = op ∧ s.work w.id = some w ∧
  s.mayAdmit w = true ∧ s.admitFail w.d = none ∧ e = s.enter w.id ∧ a = s.admitted w

/-- The opcode and descriptor of a descriptor row; none for every other command. -/
def rowOf (c : Instr) : Option (Nat × Desc) :=
  match c with
  | .nop d => some (opNOP, d)
  | .fence d => some (opFENCE, d)
  | .seqOpen d => some (opOPEN, d)
  | .seqClose d => some (opCLOSE, d)
  | .seqFork d => some (opFORK, d)
  | .append d => some (opAPPEND, d)
  | .readPages d => some (opREAD, d)
  | .deliver d => some (opDELIVER, d)
  | .pin d => some (opPIN, d)
  | .unpin d => some (opUNPIN, d)
  | .scoreUpdate d => some (opSCORE, d)
  | .prefixFind d => some (opFIND, d)
  | .prefixNext d => some (opNEXT, d)
  | .prefixInsert d => some (opINSERT, d)
  | .prefixRemove d => some (opREMOVE, d)
  | .attnPartial d => some (opATTN, d)
  | .reshardMove d => some (opRESHARD, withKind d 0)
  | .reshardCopy d => some (opRESHARD, withKind d 1)
  | .advance d => some (opRESHARD, withKind d 2)
  | .poolXfer d => some (opXFER, d)
  | _ => none

/-! ### The boundary -/

/-- The Stroke that the next boundary begins, as its step 1 leaves it (R37): what waits in the Stroke that ends is judged first. -/
def State.begun (s : State) : State :=
  (if s.working then s.throttle.probeTurn.dieRebuildTurn.noteWaits else s).beginStroke

/-- The state in which step 5 of the next boundary begins (R37): steps 2 to 4 are done, or, in FAULT, what of them goes on. -/
def State.beforeSwitches (s : State) : State :=
  if s.begun.working then s.begun.stepTwo.stepThree.stepFour
  else ((s.begun.signalCqs.writeEvents.signalErr).auditDrain 64).expireNonce

/-! ### Frames -/

/-- A frame of type `typ` with the header and payload of `f0`, in the virtual channel of its type. -/
def frameOf (typ : Nat) (f0 : Frame) : Frame := { f0 with typ := typ, vc := vcOf typ }

/-- What the hop does with a frame that arrives in order: the state once the hop has taken its acknowledgement, counted it and answered
it, with the credits of its buffer unless it goes on to another member (R329, R330). -/
def State.hopTook (s : State) (p typ : Nat) (f : Frame) : State :=
  if sequenced typ then
    ((s.takeAck p f).setHop { (s.takeAck p f).hop p with got := f.linkSeq }).acknowledge p false
      (if f.vc = 0 ∨ (f.dst ≠ s.me ∧ 0 < f.hops) then 0 else f.cost) f.vc
  else s.takeAck p f

/-- `hopTook`, with what goes on to other members passed on (R331). -/
def State.hopPassed (s : State) (p typ : Nat) (f : Frame) : State :=
  if f.dst ≠ s.me ∧ 0 < f.hops then (s.hopTook p typ f).forward p f else s.hopTook p typ f

/-- A frame of type `typ` from another member arrives in order at ring port `p`, whose link is up, for this card or for every member:
`f` is the frame, and `t` the state once the hop has taken it and what goes on to other members has gone on (R329, R331). -/
def State.Arrives (s : State) (p typ : Nat) (f0 f : Frame) (t : State) : Prop :=
  s.working = true ∧ s.ringPort p = true ∧ s.linkUp p = true ∧ f = frameOf typ f0 ∧
  (sequenced typ = true → f.linkSeq = seqNext ((s.takeAck p f).hop p).got) ∧ f.src ≠ s.me ∧ (f.dst = s.me ∨ f.dst = 0xFF) ∧
  t = s.hopPassed p typ f

/-- The port, type and frame of a row that receives a frame of Table 14-4 from another member's hop; none for every other command, and for
HELLO and ACK, which no hop passes on. -/
def frameRow (c : Instr) : Option (Nat × Nat × Frame) :=
  match c with
  | .markReceive p f _ => some (p, ftMARK, f)
  | .beatCmd p f => some (p, ftBEAT, f)
  | .matchToken p f => some (p, ftMATCH_TOKEN, f)
  | .matchReply p f => some (p, ftMATCH_REPLY, f)
  | .reshardOpen p f => some (p, ftRESHARD_OPEN, f)
  | .reshardAnswer p f => some (p, ftRESHARD_ANSWER, f)
  | .pageSeg p f => some (p, ftPAGE_SEG, f)
  | .placed p f => some (p, ftPLACED, f)
  | .epochPrepare p f => some (p, ftEPOCH_PREPARE, f)
  | .epochReady p f => some (p, ftEPOCH_READY, f)
  | .epochCommit p f => some (p, ftEPOCH_COMMIT, f)
  | .commitAck p f => some (p, ftCOMMIT_ACK, f)
  | .mirrorWrite p f => some (p, ftMIRROR_WRITE, f)
  | .mirrorAck p f => some (p, ftMIRROR_ACK, f)
  | _ => none

/-! ### Reset -/

/-- `t` is the card of `s` held in reset (R20, R54, R56, R418): of the run it holds no register, sequence, page, key, descriptor or image;
flash, host memory and what was sent stand as they were. -/
def State.WipedTo (s t : State) : Prop :=
  t.pw.held = true ∧ t.stroke = 0 ∧ t.regs = [] ∧ t.live = [] ∧ t.img = ImgSt.init ∧ t.ring = RingSt.init ∧ t.part = PartSt.init ∧
  t.sq = SeqSt.init ∧ t.wk = WorkSt.init ∧ t.tier = TierSt.init ∧ t.srch = SrchSt.init ∧ t.gear = GearSt.init ∧ t.chain = ChainSt.init ∧
  t.rdma = RdmaSt.init ∧ t.pool = PoolSt.init ∧ t.hmem = s.hmem ∧ t.out = s.out ∧ t.flash.media = s.flash.media ∧
  t.flash.chains = s.flash.chains

/-! ### The Stroke counter -/

/-- The commands that may move the Stroke counter: the boundary, a switch whose boundary has come (R37, R52) and the counter's end (R26, R30), and whatever puts the card into reset
or takes it out (R54, R56, R462, R511). -/
def movesCounter (c : Instr) : Bool :=
  match c with
  | .strokeBoundary => true
  | .shadowSwitch => true
  | .periodSwitch => true
  | .counterHalt => true
  | .powerInputChange _ _ => true
  | .perstChange _ => true
  | .resetInChange _ => true
  | .hotReset => true
  | .flrPf0 => true
  | .resetExit => true
  | .crashDone _ => true
  | .graceExpiry => true
  | _ => false

/-- A step that goes on. -/
def Goes (s t : State) : Prop := step s = .next t

end Sys2Proof.Machine
end

