-- ==== Sys2Proof/Certificates/Slice0/Obligations.lean ====
section
/-! DEFINITION. The statements for the provers: what the spec's rules say the card's commands and the whole machine do. -/

open Sys2Proof Sys2Proof.Machine

/-! ### The whole machine -/

/-- A step takes the command at the front of the queue and runs it with the queue's rest. -/
def Obligations.StepRunsFrontCommand : Prop :=
  ∀ (s : State) (c : Instr) (rest : List Instr), s.pending = c :: rest → step s = exec c { s with pending := rest }

/-- With no command waiting, a step is one tick of the always-on clock and nothing else; a card that is held in reset, or whose maker scan scope
is open, stands still (R465). The tick in place of idling is the model's choice (log 1). Every command, in every state, is answered with a next
state, and its effect leaves the queue alone: the model stops on none. -/
def Obligations.EveryStepGoesOn : Prop :=
  (∀ s : State, s.pending = [] → step s = .next s.tick ∧ (s.pw.held = true ∨ s.scanOpen = true → step s = .next s)) ∧
  (∀ (c : Instr) (s : State), ∃ t, exec c s = .next t ∧ t.pending = s.pending)

/-- The state after reset meets the invariant. -/
def Obligations.ResetMeetsInvariant : Prop := State.reset.Inv

/-- A step keeps every store in its canonical form and the Stroke counter within 48 bits, from every state in which they are. -/
def Obligations.StepKeepsInvariant : Prop :=
  ∀ s t : State, s.Inv → step s = .next t → t.Inv

/-- Nothing that was sent is taken back, and no free value is drawn twice: a step only adds to the record of what was sent and to the count of
free values drawn. -/
def Obligations.StepOnlyAddsToWhatWasSent : Prop :=
  ∀ s t : State, step s = .next t → s.Extends t

/-- The Stroke counter (R26): it is 0 when the card leaves reset; a boundary advances it by one, or to the Stroke that a preset names; no other
command moves it but a switch of the period or of the shadows, which is the boundary at which it is due (log 80), and the ones that hold
the card in reset; and it stays within 48 bits. -/
def Obligations.StrokeCounter : Prop :=
  (∀ s : State, s.pw.held = true → s.resetCondition = false → ∃ t, exec .resetExit s = .next t ∧ t.pw.held = false ∧ t.stroke = 0) ∧
  (∀ s : State, s.counting = true → s.bnd.preset = none → s.stroke + 1 < strokeMax →
    ∃ t, exec .strokeBoundary s = .next t ∧ t.stroke = s.stroke + 1) ∧
  (∀ (s : State) (n : Nat), s.counting = true → s.bnd.preset = some n → n < strokeMax →
    ∃ t, exec .strokeBoundary s = .next t ∧ t.stroke = n) ∧
  (∀ (c : Instr) (s t : State), movesCounter c = false → exec c s = .next t → t.stroke = s.stroke) ∧
  (∀ (c : Instr) (s t : State), s.stroke ≤ strokeMax → exec c s = .next t → t.stroke ≤ strokeMax)

/-- The end of the counter (R30): the boundary that would begin Stroke 0xFFFF_FFFF_FFFF stops the counter there, sets HALTED, raises a fault of
class FATAL, and the card is in FAULT with no work left; none of the five steps is carried out (no completion is written to a ring, no shadow
switches, no budget is refilled, what waits for the boundary still waits), and no later boundary follows. -/
def Obligations.CounterStopsAtItsEnd : Prop :=
  ∀ s : State, s.canonical = true → s.counting = true → s.lastBoundary = true → s.phase ≠ phFAULT →
    ∃ t, exec .strokeBoundary s = .next t ∧ exec .counterHalt s = .next t ∧ t.stroke = 0xFFFFFFFFFFFF ∧
      t.flag SYS.STROKE_STATUS.HALTED = true ∧ bits (t.reg ERR.STATUS.off).toNat clsFATAL 1 = 1 ∧ t.phase = phFAULT ∧ t.wk.works = [] ∧
      t.wk.latched = [] ∧ t.bnd = s.bnd ∧ t.ring = s.ring ∧ t.live = s.live ∧ (∃ e es, t.err.events = s.err.events ++ e :: es) ∧
      exec .strokeBoundary t = .next t

/-- The card right after a cold power-up (R26, R54, R55, R409, Table 3-1, Table 18-6): Stroke 0, boot ROM, cause cold power-up, no sequence, page,
key, tenant or descriptor, partition 0 and no other, core and flash domains RUNNING, every Spoke, the Sprocket and the Gear fabric OFF, and every
Freewheel pair closed. The memory of the host that nothing has written reads 0 (the model's choice, log 4). -/
def Obligations.ResetState : Prop :=
  State.reset.stroke = 0 ∧ State.reset.pending = [] ∧ State.reset.pw.held = false ∧ State.reset.phase = phROM ∧
  State.reset.get SYS.RESET_CAUSE.CAUSE = 1 ∧ State.reset.period = 8 ∧
  State.reset.sq.seqs = [] ∧ State.reset.sq.pages = [] ∧ State.reset.part.keys = [] ∧ State.reset.wk.works = [] ∧
  State.reset.partCreated 0 = true ∧ State.reset.partCreated 1 = false ∧ State.reset.partCreated 127 = false ∧
  State.reset.tenState 1 = 0 ∧ State.reset.tenState 1023 = 0 ∧
  (List.range 22).all (fun d => State.reset.dom d == if 11 ≤ d ∧ d ≤ 20 then domOFF else domRUNNING) = true ∧
  (List.range 4).all (fun i => State.reset.pairState i == 0) = true ∧
  (∀ a, State.reset.memByte a = 0#8)

/-- Host memory reads back what was written, and a write of bytes leaves every byte outside them (R4). -/
def Obligations.HostMemoryReadsBack : Prop :=
  ∀ (s : State) (a : Nat) (b : Byte) (bs : List Byte), s.canonical = true →
    (s.memPut a b).memByte a = b ∧
    (∀ a', (∀ i < bs.length, hostAddr a' ≠ hostAddr (a + i)) → (s.memWrite a bs).memByte a' = s.memByte a')

/-! ### Power-up and bring-up (chapter 3) -/

/-- Each of the conditions of R54 and R56 holds the card in reset and leaves nothing of the run: a 12V input out of tolerance, PERST#, RESET_IN, a
hot reset and an FLR of PF0. The reset's cause is the one recorded for RESET_CAUSE. The end of a condition is noted and changes nothing else. -/
def Obligations.ResetsBegin : Prop :=
  ∀ s : State, s.pw.held = false →
    (∀ input, ∃ t, exec (.powerInputChange input false) s = .next t ∧ s.WipedTo t ∧ t.pw.causes = 1 ∧ t.resetCondition = true) ∧
    (∃ t, exec (.perstChange true) s = .next t ∧ s.WipedTo t ∧ t.pw.causes = 2 ∧ t.pw.perst = true ∧ t.resetCondition = true) ∧
    (∃ t, exec (.resetInChange true) s = .next t ∧ s.WipedTo t ∧ t.pw.causes = 8 ∧ t.pw.resetIn = true ∧ t.resetCondition = true) ∧
    (∃ t, exec .hotReset s = .next t ∧ s.WipedTo t ∧ t.pw.causes = 4) ∧
    (∃ t, exec .flrPf0 s = .next t ∧ s.WipedTo t ∧ t.pw.causes = 32) ∧
    exec (.powerInputChange 0 true) s = .next { s with pw := { s.pw with inA := true } } ∧
    exec (.powerInputChange 1 true) s = .next { s with pw := { s.pw with inB := true } } ∧
    exec (.perstChange false) s = .next { s with pw := { s.pw with perst := false } } ∧
    exec (.resetInChange false) s = .next { s with pw := { s.pw with resetIn := false } }

/-- Leaving reset (R54, R466, R508): with no condition left the card runs, RESET_CAUSE shows the causes collected, LAST_EXPIRY what a watchdog
left, and the straps are sampled; every other register stays as the reset left it. In reset a hot reset or an FLR of PF0 has no effect, and a
further condition adds its bit to the causes. -/
def Obligations.ResetExit : Prop :=
  ∀ s : State, s.canonical = true → s.pw.held = true →
    exec .hotReset s = .next s ∧ exec .flrPf0 s = .next s ∧
    exec (.perstChange true) s = .next { s with pw := { s.pw with causes := s.pw.causes ||| 2, perst := true } } ∧
    exec (.resetInChange true) s = .next { s with pw := { s.pw with causes := s.pw.causes ||| 8, resetIn := true } } ∧
    (s.resetCondition = false → s.pw.causes < 64 → s.pw.casPos < 4 → s.pw.casSize < 4 →
      ∃ t, exec .resetExit s = .next t ∧ t.pw.held = false ∧ t.stroke = 0 ∧ t.get SYS.RESET_CAUSE.CAUSE = s.pw.causes ∧
        t.reg WDOG.LAST_EXPIRY.off = s.pw.expiryNext ∧ t.get SRCH.ENUM_STATUS.POSITION = s.pw.casPos ∧
        t.get SRCH.ENUM_STATUS.SIZE_M1 = s.pw.casSize ∧ t.hmem = s.hmem ∧ t.flash = s.flash ∧
        ∀ o i, o < 0x1000000 → o ≠ SYS.RESET_CAUSE.off → o ≠ WDOG.LAST_EXPIRY.off → o ≠ SRCH.ENUM_STATUS.off → t.reg o i = s.reg o i)

/-- DRAM training and the boot ROM's end (R56, R57): a trained stack shows in TRAINED and changes nothing else; a failed one puts the card into
FAULT; from ROM, PF0's readiness moves the card to LOAD, with the audit entry of the move. The installer's bring-up writes when their phase and
their condition hold (R61, R62, R63, R65, R66, R67, R68): a release waits for the boundary, a log scan starts, an orderly power-down begins, and a
region's action joins the queue of actions. That a HOLD of a region marked for a scrub, or of one whose last definition says STANDBY, is
refused is the model's choice (log 88), as is that a second START of a scan that is done is (log 100). -/
def Obligations.BringUp : Prop :=
  (∀ (s : State) (k : Nat), s.canonical = true → s.pw.held = false → k < 8 →
    s.get SYS.DRAM_STATUS.TRAINED / 2 ^ k % 2 = 0 → s.get SYS.DRAM_STATUS.FAILED / 2 ^ k % 2 = 0 →
      exec (.dramTrainingDone k true) s = .next (s.put SYS.DRAM_STATUS.TRAINED (s.get SYS.DRAM_STATUS.TRAINED ||| 2 ^ k)) ∧
      (∃ t, exec (.dramTrainingDone k false) s = .next t ∧ t.phase = phFAULT) ∧
      (s.phase = phROM → exec .pf0Ready s = .next (s.toPhase phLOAD) ∧ (s.toPhase phLOAD).phase = phLOAD)) ∧
  (∀ (s : State) (i : Nat), s.canonical = true → s.writable = true → (s.reg TIER.REGION_SELECT.off).toNat = i →
    (s.living = true → s.phase ≠ phRELEASED → s.flag SYS.BRINGUP_CTRL.RELEASE = false →
      exec .releaseCmd s =
        .next (s.recorded ((s.put SYS.BRINGUP_CTRL.RELEASE 1).atBoundary .release) SYS.BRINGUP_CTRL.off 0 1#32)) ∧
    (s.phase = phCONFIGURE → s.get SYS.DRAM_STATUS.TRAINED = 0xFF → s.flag TIER.LOG_SCAN_STATUS.DONE = false →
      s.flag TIER.LOG_SCAN_CTRL.START = false →
      exec .logScanStart s =
        .next (s.recorded ((s.put TIER.LOG_SCAN_CTRL.START 1).put TIER.FRAMES_TOTAL.FRAMES s.frameTotal) TIER.LOG_SCAN_CTRL.off 0 1#32)) ∧
    (s.phase = phRELEASED →
      exec .quiesceStart s =
        .next (s.recorded ((s.put TIER.QUIESCE_CTRL.START 1).setTier fun t => { t with quiesce := true }) TIER.QUIESCE_CTRL.off 0 1#32)) ∧
    (s.phase = phCONFIGURE → s.flag TIER.LOG_SCAN_STATUS.DONE = true → (s.regionState i = 1 ∨ s.regionState i = 7) →
      s.flash.actions.any (·.index == i) = false →
      exec .regionScrub s = .next (s.recorded (s.setFlash fun f => { f with actions := f.actions ++ [⟨i, 2, 0⟩] })
        TIER.REGION_ACTION.off i 2#32) ∧
      (s.flag TIER.REGION_INFO.SCRUB_MARKED i = true ∨ s.flag TIER.REGION_INFO.STANDBY i = true →
        exec .regionHold s = .next (s.illegal 0 causeState TIER.REGION_ACTION.off 3)) ∧
      (s.flag TIER.REGION_INFO.SCRUB_MARKED i = false → s.flag TIER.REGION_INFO.STANDBY i = false →
        s.straysBy i 3 0 = false ∨ (s.strayRegions.filter (· ≠ i)).length + 1 ≤ s.asides.length →
        exec .regionHold s = .next (s.recorded (s.setFlash fun f => { f with actions := f.actions ++ [⟨i, 3, 0⟩] })
          TIER.REGION_ACTION.off i 3#32)) ∧
      ∀ tid, tid < 1024 →
        s.straysBy i 1 tid = false ∨ (s.strayRegions.filter (· ≠ i)).length + 1 ≤ s.asides.length →
        exec (.regionAdopt tid) s = .next (s.recorded (s.setFlash fun f => { f with actions := f.actions ++ [⟨i, 1, tid⟩] })
          TIER.REGION_ACTION.off i (BitVec.ofNat 32 (1 + tid * 2 ^ 16)))))

/-- The events of a log scan, of region actions and of an orderly power-down (R61 to R66, R68, R107): the scan reads the newest valid
anchor slot, follows each chain that it names, lists those that a record defines, and sets DONE;
the oldest latched action starts, an adopt that fails its conditions ends FAILED at once, a hold ends HELD; an adopt and a scrub that run end
ADOPTED and SCRUBBED, each with its audit entry; the power-down ends once every page is on flash, and one that a watchdog began goes on to that
watchdog's expiry (R461). -/
def Obligations.RegionEvents : Prop :=
  ∀ s : State, s.working = true →
    (s.flag TIER.LOG_SCAN_CTRL.START = true → s.flag TIER.LOG_SCAN_STATUS.DONE = false →
      ∀ u v : State, u = s.setFlash FlashSt.scanned → v = u.flash.chains.foldl State.listChain u →
      exec .logScanDone s = .next ((v.put TIER.LOG_SCAN_STATUS.REGIONS v.flash.found.length).put TIER.LOG_SCAN_STATUS.DONE 1)) ∧
    (∀ a rest, s.flash.acting = none → s.flash.actions = a :: rest →
      (a.action = 1 → s.adoptCause a = 0 →
        exec .regionActionStart s = .next ((((s.setFlash fun f => { f with actions := rest }).put TIER.REGION_INFO.STATE 2 a.index).put
          TIER.REGION_INFO.FAIL_CAUSE 0 a.index).setFlash fun f => { f with acting := some a })) ∧
      (a.action = 1 → s.adoptCause a ≠ 0 →
        exec .regionActionStart s = .next (((s.setFlash fun f => { f with actions := rest }).put TIER.REGION_INFO.FAIL_CAUSE
          (s.adoptCause a) a.index).regionEnds a.index 7)) ∧
      (a.action = 2 →
        exec .regionActionStart s = .next (((((((s.setFlash fun f => { f with actions := rest }).logRaw a.index recScrub).flushAll
          a.index).anchorUpdate).put TIER.REGION_INFO.STATE 4 a.index).put TIER.REGION_INFO.SCRUB_MARKED 1 a.index).setFlash
          fun f => { f with acting := some a })) ∧
      (a.action = 3 →
        exec .regionActionStart s = .next ((s.setFlash fun f => { f with actions := rest }).regionEnds a.index 6))) ∧
    (∀ a c, s.flash.acting = some a → a.action = 1 → kvIndex a.index = false → s.chainAt a.index = some c →
      exec .adoptDone s = .next (((s.setFlash fun f => { f with acting := none }).adoptPool (a.index - 1024)
        (replayOf c.recs)).regionEnds a.index 3)) ∧
    (∀ a c u map, s.flash.acting = some a → a.action = 1 → kvIndex a.index = true → s.chainAt a.index = some c →
      (s.setFlash fun f => { f with acting := none }).replayInto a.target (replayOf c.recs) false = (u, map) →
      exec .adoptDone s = .next (((u.put TIER.REGION_LOST_PAGES.LOST (u.absentIn (map.map (·.2))) a.index).setFlash fun f =>
        { f with adopted := f.adopted ++ [(a.index, a.target)] }).regionEnds a.index 3)) ∧
    (∀ a, s.flash.acting = some a → a.action = 2 →
      exec .scrubDone s = .next ((((s.chainsOf a.index).foldl State.eraseChain s).setFlash fun f =>
        { f with acting := none }).regionEnds a.index 5)) ∧
    (s.tier.quiesce = true → s.flag TIER.QUIESCE_STATUS.DONE = false → s.wk.works = [] → s.allOnFlash = true →
      (s.wd.hdr = none → exec .quiesceDone s = .next (s.markClean.put TIER.QUIESCE_STATUS.DONE 1)) ∧
      ∀ h n, s.wd.hdr = some h → s.wd.qlimit = some n →
        exec .quiesceDone s = .next (({ s.markClean.put TIER.QUIESCE_STATUS.DONE 1 with
          wd := { (s.markClean.put TIER.QUIESCE_STATUS.DONE 1).wd with hdr := some { h with quiesce := 1 } } }).expireNow false))

/-! ### Ndoaro images (chapter 4) -/

/-- A header push (R75, R79, R80, R90, R91): on the serial port and in the BAR2 window, 512 bytes that pass the transport checks while no load
runs start a load: HEADER_CHECK, the port noted, no frame accepted; then the header's checks end in RECEIVING, or in REJECTED with the first
failing cause. -/
def Obligations.HeaderPush : Prop :=
  ∀ s : State, s.canonical = true →
    (∀ (p : Nat) (h : List Byte), p < 4 → h.take 4 = [0x4E#8, 0x44#8, 0x4F#8, 0x49#8] → leAt h 508 4 = (crc32c (h.take 508)).toNat →
      (s.load = ldIDLE ∨ s.load = ldDONE ∨ s.load = ldREJECTED) →
      (s.pushHeader p h false).load = ldHEADER_CHECK ∧ (s.pushHeader p h false).img.header = h ∧
      (s.pushHeader p h false).img.staged = [] ∧ (s.pushHeader p h false).get IMG.LOAD_STATE.PORT = p ∧
      (s.pushHeader p h false).get IMG.LOAD_STATE.REJECT_CAUSE = 0 ∧ (s.pushHeader p h false).get IMG.FRAMES_ACCEPTED.COUNT = 0) ∧
    (∀ words : List Word, s.serialOn = true → words.length = 128 →
      exec (.headerCmd words false) s = .next (s.pushHeader 1 (padTo 512 (wordBytes words)) false)) ∧
    (∀ val : Word, s.bar2On = true → exec (.bar2HeaderSubmit val) s =
      .next (((s.bar2Put 0x1FC val).bar2Zero 0 128).pushHeader 2 (wordBytes ((s.bar2Put 0x1FC val).bar2Words 0 128)) false)) ∧
    (s.working = true → s.load = ldHEADER_CHECK →
      (s.headerCause = 0 → exec .headerCheckDone s = .next (s.put IMG.LOAD_STATE.STATE ldRECEIVING)) ∧
      (s.headerCause ≠ 0 → exec .headerCheckDone s = .next (s.endLoad s.headerCause)))

/-- A frame push (R74, R75, R90, R91): while RECEIVING, a missing frame of the image whose CRC and manifest hash agree is staged and counted, and
the last one begins VERIFYING; a frame already accepted is only counted. -/
def Obligations.FramePush : Prop :=
  ∀ s : State, s.canonical = true →
    (∀ (p : Nat) (f : List Byte), s.load = ldRECEIVING → leAt f 4124 4 = (crc32c (f.take 4124)).toNat →
      (f.drop 4100).take 4 = (s.img.header.drop 64).take 4 → leAt f 4096 4 < s.get IMG.FRAME_COUNT.COUNT →
      (kvFind s.img.staged (leAt f 4096 4) = none → s.get IMG.FRAMES_ACCEPTED.COUNT + 1 < 2 ^ 32 →
        (s.pushFrame p f false true).img.staged = kvSet s.img.staged (leAt f 4096 4) (f.take 4096) ∧
        (s.pushFrame p f false true).get IMG.FRAMES_ACCEPTED.COUNT = s.get IMG.FRAMES_ACCEPTED.COUNT + 1 ∧
        (s.pushFrame p f false true).load =
          if s.get IMG.FRAMES_ACCEPTED.COUNT + 1 = s.get IMG.FRAME_COUNT.COUNT then ldVERIFYING else ldRECEIVING) ∧
      (∀ x, kvFind s.img.staged (leAt f 4096 4) = some x →
        s.pushFrame p f false true = (s.sat IMG.DUPLICATE_COUNT.COUNT).setLast p 3)) ∧
    (∀ (arg : Nat) (words : List Word), s.serialOn = true → words.length = 1032 →
      exec (.frameCmd arg words false) s = .next (s.pushFrame 1 (padTo 4128 (wordBytes words)) false
        (arg % 2 ^ 24 == bits (leAt (padTo 4128 (wordBytes words)) 4096 4) 0 24))) ∧
    (∀ (slot : Nat) (val : Word), s.bar2On = true → slot < 127 → exec (.bar2FrameSubmit slot val) s =
      .next (((s.bar2Put (0x2000 + slot * 0x2000 + 0x101C) val).bar2Zero (0x2000 + slot * 0x2000) 1032).pushFrame 2
        (wordBytes ((s.bar2Put (0x2000 + slot * 0x2000 + 0x101C) val).bar2Words (0x2000 + slot * 0x2000) 1032)) false true)) ∧
    (∀ (off : Nat) (val : BitVec 64), s.bar2On = true → off % 4 = 0 → bar2Kind off ≠ 2 → off ≠ 0x1FC →
      ¬ (bar2Kind off = 1 ∧ (off - 0x2000) % 0x2000 = 0x101C) →
      exec (.bar2Write off 4 val) s = .next (s.bar2Put off (val.truncate 32)))

/-- ABORT, by register and by serial command (R82): it ends HEADER_CHECK, RECEIVING and VERIFYING as REJECTED with cause ABORTED; in APPLYING it
is ignored and counted; in every other state it has no effect. That LAST shows 0 after a serial ABORT is the model's choice (log 104). -/
def Obligations.AbortOfALoad : Prop :=
  ∀ s : State, s.canonical = true →
    (s.load = ldHEADER_CHECK ∨ s.load = ldRECEIVING ∨ s.load = ldVERIFYING →
      (s.writable = true → s.living = true →
        exec .abortCmd s = .next ((s.recorded s IMG.LOAD_CMD.off 0 1#32).endLoad 14)) ∧
      (s.serialOn = true → exec .serialAbort s = .next ({ s with img := { s.img with serialLast := 0 } }.endLoad 14)) ∧
      (s.endLoad 14).load = ldREJECTED ∧ (s.endLoad 14).get IMG.LOAD_STATE.REJECT_CAUSE = 14) ∧
    (s.load = ldAPPLYING →
      (s.writable = true → s.living = true → exec .abortCmd s = .next (s.illegal 0 causeState IMG.LOAD_CMD.off 1)) ∧
      (s.serialOn = true →
        exec .serialAbort s = .next ({ s with img := { s.img with serialLast := 0 } }.illegal 2 causeState IMG.LOAD_CMD.off 1))) ∧
    (s.load = ldIDLE ∨ s.load = ldDONE ∨ s.load = ldREJECTED →
      (s.writable = true → s.living = true → exec .abortCmd s = .next (s.recorded s IMG.LOAD_CMD.off 0 1#32)) ∧
      (s.serialOn = true → exec .serialAbort s = .next { s with img := { s.img with serialLast := 0 } }))

/-- The other serial transactions (R86, R87, R89): the first word's bits 31:24 choose the command. STATUS shifts out the status words and releases
SSP_ATTN_N; one with more words than its four is counted; a command byte that Table 4-6 does not have is counted and discarded. What LAST shows
after a STATUS is the model's choice (log 103). -/
def Obligations.SerialCommands : Prop :=
  ∀ s : State, s.serialOn = true →
    (∀ x : StatusTxn, x.words.length = 4 → exec (.statusCmd x) s =
      .next { s with out := s.out ++ [.serial (s.statusWords (x.cursor % 2 ^ 24))], img := { s.img with attn := false } }) ∧
    (∀ x : StatusTxn, 4 < x.words.length → ∃ t : State, exec (.statusCmd x) s = .next t ∧
      t.out = s.out ++ [.serial (s.statusWords (x.cursor % 2 ^ 24))] ∧ t.img.attn = false ∧
      t.regs = ((s.sat IMG.SERIAL_OVERLONG_COUNT.COUNT).sat IMG.SHORT_COUNT.COUNT).regs) ∧
    (∀ (w : Word) (rest : List Word), ∀ cmd, cmd = bits w.toNat 24 8 →
      (cmd ≠ 0xA5 → cmd ≠ 0xA6 → cmd ≠ 0x5A → cmd ≠ 0x5B →
        exec (.serialBadcmd (w :: rest)) s =
          .next { s.put IMG.SERIAL_BADCMD_COUNT.COUNT (min (s.get IMG.SERIAL_BADCMD_COUNT.COUNT + 1) (2 ^ 32 - 1)) with
            img := { s.img with serialLast := 7 } }) ∧
      (cmd = 0xA5 → exec (.serialBadcmd (w :: rest)) s = exec (.headerCmd rest false) s) ∧
      (cmd = 0xA6 → exec (.serialBadcmd (w :: rest)) s = exec (.frameCmd (bits w.toNat 0 24) rest false) s) ∧
      (cmd = 0x5A → exec (.serialBadcmd (w :: rest)) s = exec (.statusCmd ⟨bits w.toNat 0 24, rest⟩) s) ∧
      (cmd = 0x5B → rest = [] → exec (.serialBadcmd (w :: rest)) s = exec .serialAbort s))

/-- Verification and application (R57, R76, R81, R94, R442): a payload whose hash is not the manifest's is discarded and the load rejected; else
APPLYING begins, and for a slot image the slot is LOADING from the next boundary; a fabric image is rejected while the Gear fabric is OFF. The
application of a firmware image starts the cores and moves the card to CONFIGURE, a microcode image fills the program stores, a shell leaves every
slot EMPTY; a failed one is rejected with cause APPLY. -/
def Obligations.VerifyAndApply : Prop :=
  ∀ s : State, s.working = true →
    (s.load = ldVERIFYING →
      (sha384 s.payload ≠ (s.img.header.drop 64).take 48 →
        exec .verifyDone s = .next ({ s with img := { s.img with staged := [] } }.endLoad 12)) ∧
      (sha384 s.payload = (s.img.header.drop 64).take 48 →
        ((leAt s.img.header 12 1 = 3 ∨ leAt s.img.header 12 1 = 4) → s.dom 20 = domOFF →
          exec .verifyDone s = .next ((s.put IMG.LOAD_STATE.STATE ldAPPLYING).endLoad 13)) ∧
        (leAt s.img.header 12 1 = 4 → s.dom 20 ≠ domOFF →
          exec .verifyDone s = .next (({ s.put IMG.LOAD_STATE.STATE ldAPPLYING with
            img := { s.img with loadSlot := some (s.get IMG.LOAD_CTRL.SLOT) } }).slotAtBoundary (s.get IMG.LOAD_CTRL.SLOT) 2)) ∧
        (leAt s.img.header 12 1 ≠ 4 → (leAt s.img.header 12 1 = 3 → s.dom 20 ≠ domOFF) →
          exec .verifyDone s = .next (s.put IMG.LOAD_STATE.STATE ldAPPLYING)))) ∧
    (s.load = ldAPPLYING → leAt s.img.header 12 1 ≠ 4 →
      (∀ m, exec (.applyDone false m) s = .next (s.endLoad 13)) ∧
      (∀ m, leAt s.img.header 12 1 = 1 → exec (.applyDone true m) s = .next ((s.firmwareStart m).endLoad 0)) ∧
      (∀ m, leAt s.img.header 12 1 = 2 → exec (.applyDone true m) s = .next (s.applyUcode.endLoad 0)) ∧
      (∀ m, leAt s.img.header 12 1 = 3 → exec (.applyDone true m) s = .next (s.applyShell.endLoad 0)))

/-- The slot handshake (R94, R322): the target slot's configuration is written and it becomes STARTING; a design that shows a good IDENT becomes
ACTIVE at the next boundary, or HELD at once under MANUAL_RECOUPLE; one that does not, or not in time, fails the load. RECOUPLE waits for the
boundary with the slots HELD now, UNLOAD with its slot. -/
def Obligations.SlotHandshake : Prop :=
  ∀ (s : State) (n : Nat), s.working = true →
    (s.img.loadSlot = some n → s.slotState n = 3 →
      (∀ u : State, u = { s with gear := { s.gear with blockMem := kvSet s.gear.blockMem n s.free }, free := s.free + 1 } →
        exec (.slotConfigDone n true) s =
          .next ({ u with img := { u.img with designs := kvSet u.img.designs n u.img.staged } }.setSlotState n 4)) ∧
      exec (.slotConfigDone n false) s = .next (s.loadFails n)) ∧
    (s.img.loadSlot = some n → s.slotState n = 4 → kvFind s.img.slotNext n = none →
      (∀ ident, identOk (fun i => (ident.getD i 0#32).toNat) = false → exec (.slotReady n ident) s = .next (s.loadFails n)) ∧
      (∀ ident, identOk (fun i => (ident.getD i 0#32).toNat) = true → s.flag IMG.LOAD_CTRL.MANUAL_RECOUPLE = false →
        exec (.slotReady n ident) s = .next ((s.setIdent n ident).slotAtBoundary n 1)) ∧
      (∀ ident, identOk (fun i => (ident.getD i 0#32).toNat) = true → s.flag IMG.LOAD_CTRL.MANUAL_RECOUPLE = true →
        exec (.slotReady n ident) s = .next (({ s.setIdent n ident with
          img := { (s.setIdent n ident).img with loadSlot := none } }.setSlotState n 5).endLoad 0)) ∧
      exec (.slotReadyTimeout n) s = .next (s.loadFails n)) ∧
    (∀ held, s.canonical = true → s.writable = true → s.living = true →
      held = (List.range 8).foldl (fun a n => if s.slotState n = 5 then a + 2 ^ n else a) 0 →
      exec .recouple s = .next (s.recorded (s.atBoundary (.recouple held)) IMG.LOAD_CMD.off 0 2#32)) ∧
    (s.canonical = true → s.writable = true → s.serving = true → s.dom 20 ≠ domOFF → (s.reg GEAR.SLOT_SELECT.off).toNat = n →
      (s.slotState n = 1 ∨ s.slotState n = 5 ∨ s.slotState n = 6) → s.loadTarget n = false → kvFind s.img.slotNext n = none →
      exec .unloadCmd s = .next (s.recorded (s.slotAtBoundary n 2) GEAR.SLOT_CTRL.off n 1#32))

/-! ### Budgets, audit and the maker port (chapters 2 and 5) -/

/-- The two switches (R27, R49, R52, R107, R425, R522). Each of the two commands is the boundary at which its armed switch is due, and while no switch
is due it changes nothing: that the table's rows name the boundary is the model's choice (log 80). The boundary begins the next Stroke, whose step
5 begins with the switches that are due: a period of 2 to 64 µs under which the budgets fit takes effect; any other is refused, and the period stays
as it was; the shadows of all partitions take effect together, or are refused with the cause of the first rule that they break, and every live
register stays as it was; two that are due at one boundary are judged, and take effect or are refused, together. A switch that is done after its
target sets SWITCH_LATE. Each boundary with a switch makes one audit entry. That a period switch alone is held against the live budgets is the
model's choice (log 79). -/
def Obligations.PeriodAndPartitionSwitch : Prop :=
  (∀ s u : State, s.counting = true → s.lastBoundary = false → u = s.beforeSwitches →
    u.stroke = s.nextStroke ∧
    u.stepFive = ((u.switches.takeActs.turnSlots.brakeApply.accessTurn.freeRegions).showFrames.showCapacity.poolTurn.refill).freeBounds.newStroke ∧
    (∀ n, s.bnd.armedPeriod = some n →
      (n ≤ s.nextStroke → s.begun.working = true →
        exec .periodSwitch s = .next (u.stepFive.unitTurns (s.begun.flag SYS.STROKE_STATUS.PACER)).noteWaits) ∧
      (n ≤ s.nextStroke → s.begun.working = false → exec .periodSwitch s = .next u.stepFive) ∧
      (s.nextStroke < n → exec .periodSwitch s = .next s)) ∧
    (∀ n, s.bnd.armedPart = some n →
      (n ≤ s.nextStroke → s.begun.working = true →
        exec .shadowSwitch s = .next (u.stepFive.unitTurns (s.begun.flag SYS.STROKE_STATUS.PACER)).noteWaits) ∧
      (n ≤ s.nextStroke → s.begun.working = false → exec .shadowSwitch s = .next u.stepFive) ∧
      (s.nextStroke < n → exec .shadowSwitch s = .next s)) ∧
    (s.bnd.armedPeriod = none → exec .periodSwitch s = .next s) ∧ (s.bnd.armedPart = none → exec .shadowSwitch s = .next s)) ∧
  (∀ s : State,
    (s.dueAt s.bnd.armedPeriod = false → s.dueAt s.bnd.armedPart = false → s.switches = s) ∧
    (s.dueAt s.bnd.armedPeriod = true → s.dueAt s.bnd.armedPart = false →
      (2 ≤ s.get SYS.STROKE_PERIOD.NEXT_US → s.get SYS.STROKE_PERIOD.NEXT_US ≤ 64 →
        (Res6.sum (s.parts.map s.budget)).le (s.capacityAt (s.get SYS.STROKE_PERIOD.NEXT_US)) = true →
        s.switches = (s.endPeriod true).audit actorCard 5 1) ∧
      (s.get SYS.STROKE_PERIOD.NEXT_US < 2 ∨ 64 < s.get SYS.STROKE_PERIOD.NEXT_US →
        s.switches = (s.endPeriod false).audit actorCard 5 5) ∧
      (2 ≤ s.get SYS.STROKE_PERIOD.NEXT_US → s.get SYS.STROKE_PERIOD.NEXT_US ≤ 64 →
        (Res6.sum (s.parts.map s.budget)).le (s.capacityAt (s.get SYS.STROKE_PERIOD.NEXT_US)) = false →
        s.switches = ((s.endPeriod false).refuseSwitch 1).audit actorCard 5 5)) ∧
    (s.dueAt s.bnd.armedPeriod = false → s.dueAt s.bnd.armedPart = true →
      (s.switchCause s.period false = 0 → s.switches = (s.endPart 0).audit actorCard 5 2) ∧
      (s.switchCause s.period false ≠ 0 → s.switches = (s.endPart (s.switchCause s.period false)).audit actorCard 5 6)) ∧
    (s.dueAt s.bnd.armedPeriod = true → s.dueAt s.bnd.armedPart = true →
      (2 ≤ s.get SYS.STROKE_PERIOD.NEXT_US → s.get SYS.STROKE_PERIOD.NEXT_US ≤ 64 →
        (s.switchCause (s.get SYS.STROKE_PERIOD.NEXT_US) false = 0 →
          s.switches = ((s.endPeriod true).endPart 0).audit actorCard 5 3) ∧
        (∀ k, k = s.switchCause (s.get SYS.STROKE_PERIOD.NEXT_US) false → k ≠ 0 →
          s.switches = ((s.endPeriod false).endPart k).audit actorCard 5 7)) ∧
      (s.get SYS.STROKE_PERIOD.NEXT_US < 2 ∨ 64 < s.get SYS.STROKE_PERIOD.NEXT_US →
        s.switches = ((s.endPeriod false).endPart (s.switchCause s.period true)).audit actorCard 5 7))) ∧
  (∀ s : State, s.canonical = true →
    ((s.endPeriod true).period = s.get SYS.STROKE_PERIOD.NEXT_US ∧ (s.endPeriod true).flag SYS.STROKE_CTRL.ARM_PERIOD = false ∧
      (s.endPeriod true).bnd.armedPeriod = none ∧
      ((s.endPeriod true).flag SYS.STROKE_STATUS.SWITCH_LATE = true ↔
        s.flag SYS.STROKE_STATUS.SWITCH_LATE = true ∨ ∃ n, s.bnd.armedPeriod = some n ∧ n < s.stroke)) ∧
    ((s.endPeriod false).period = s.period ∧ (s.endPeriod false).flag SYS.STROKE_STATUS.REFUSED = true ∧
      (s.endPeriod false).flag SYS.STROKE_CTRL.ARM_PERIOD = false ∧ (s.endPeriod false).bnd.armedPeriod = none) ∧
    ((∀ p ∈ s.parts, p < 128 → (s.endPart 0).budget p = s.shadow p) ∧ (s.endPart 0).flag PART.SWITCH_CTRL.ARM = false ∧
      (s.endPart 0).bnd.armedPart = none ∧ (s.endPart 0).get PART.SWITCH_STATUS.REFUSE_CAUSE = 0 ∧
      ((s.endPart 0).flag PART.SWITCH_STATUS.SWITCH_LATE = true ↔
        s.flag PART.SWITCH_STATUS.SWITCH_LATE = true ∨ ∃ n, s.bnd.armedPart = some n ∧ n < s.stroke)) ∧
    (∀ k, 0 < k → k < 8 → (s.endPart k).live = s.live ∧ (s.endPart k).flag PART.SWITCH_STATUS.REFUSED = true ∧
      (s.endPart k).get PART.SWITCH_STATUS.REFUSE_CAUSE = k ∧ (s.endPart k).flag PART.SWITCH_CTRL.ARM = false ∧
      (s.endPart k).bnd.armedPart = none))

/-- The starts and ends of chunks (R15, R35, R44, R184, R247, R298). A unit asks the partitions in rotating order from the one after the last served,
each once; the first that has a chunk to start takes the turn, and the rotation stands at it (one rotation for every unit and resource is the
model's choice, log 98). Of a partition's works the first that is ready starts when its whole draw is there, and holds the later ones back when it
is not; a chunk that starts stands in its work's run with its Stroke, its pages and its result. A running chunk whose calls have ended, whose keys
are hashed and whose cascade words are back is installed at its end; a poisoned host read ends the work with an INPUT fault; a chunk that still
waits runs on. -/
def Obligations.Chunks : Prop :=
  (∀ (s : State) (unit : UnitKind), s.working = true →
    s.rotation.length = 128 ∧ (∀ k < 128, s.rotation[k]? = some ((s.bnd.rot + 1 + k) % 128)) ∧
    ((s.turnOf unit ((s.bnd.rot + 1) % 128)).2 = true →
      exec (.chunkStart unit) s = .next ({ (s.turnOf unit ((s.bnd.rot + 1) % 128)).1 with
        bnd := { (s.turnOf unit ((s.bnd.rot + 1) % 128)).1.bnd with rot := (s.bnd.rot + 1) % 128 } }.noteWaits)) ∧
    ((∀ p < 128, s.turnOf unit p = (s, false)) → exec (.chunkStart unit) s = .next s.noteWaits)) ∧
  (∀ (s s1 : State) (unit : UnitKind) (w : Work) (l : List Work) (draw : Res6) (refs : List Nat) (frame : Bool) (res : RunRes),
    s.work w.id = some w → s.mayStart w = true → s.decide_ w = .go s1 draw refs frame res →
    (draw.le (s.available (s.partOf w.d.tid)) = true → s.tryAll unit (w :: l) = (s1.begin w unit draw refs frame res, true)) ∧
    (draw.le (s.available (s.partOf w.d.tid)) = false → s.tryAll unit (w :: l) = (s, false))) ∧
  (∀ (s : State) (unit : UnitKind) (w : Work) (draw : Res6) (refs : List Nat) (frame : Bool) (res : RunRes), s.work w.id = some w →
    ∃ (v : Work) (r : Run), (s.begin w unit draw refs frame res).work w.id = some v ∧ v.run = w.run ++ [r] ∧ r.idx = w.next ∧ r.at_ = s.stroke ∧
      r.refs = refs ∧ r.res = res) ∧
  (∀ (s : State) (work chunk : Nat) (w : Work) (r : Run), s.working = true → s.work work = some w →
    w.run.find? (·.idx = chunk) = some r →
    (s.runOpen w r = false → exec (.chunkEnd work chunk .ok) s = .next (s.endRun w r)) ∧
    (s.runOpen w r = true → exec (.chunkEnd work chunk .ok) s = .next s) ∧
    (readsHost w.d.opcode = true → exec (.chunkEnd work chunk .inputFault) s = .next (s.inputFault w r)))

/-- The audit ring's consumer and MAKER_LOCK (R106, R107, R109): a tail within the entries written is taken, without an entry of its own; one
beyond them is refused; setting the lock makes an entry of its own, leaves the channel refusing, and closes the maker's session. -/
def Obligations.AuditTailAndMakerLock : Prop :=
  ∀ s : State, s.canonical = true → s.writable = true →
    (∀ val : Word, s.living = true →
      ((val.toNat + 2 ^ 32 - (s.reg ROLE.AUDIT_TAIL.off).toNat) % 2 ^ 32 ≤
          (s.get ROLE.AUDIT_HEAD.COUNT + 2 ^ 32 - (s.reg ROLE.AUDIT_TAIL.off).toNat) % 2 ^ 32 →
        exec (.auditTail val) s = .next (s.setReg ROLE.AUDIT_TAIL.off val)) ∧
      ((s.get ROLE.AUDIT_HEAD.COUNT + 2 ^ 32 - (s.reg ROLE.AUDIT_TAIL.off).toNat) % 2 ^ 32 <
          (val.toNat + 2 ^ 32 - (s.reg ROLE.AUDIT_TAIL.off).toNat) % 2 ^ 32 →
        exec (.auditTail val) s = .next (s.illegal 0 causeState ROLE.AUDIT_TAIL.off val.toNat))) ∧
    (∀ t : State, s.living = true → s.flag ROLE.MAKER_LOCK.LOCK = false →
      t = (s.setReg ROLE.MAKER_LOCK.off (fieldPut (s.reg ROLE.MAKER_LOCK.off) 0 1 1)).audit actorBar0 1 ROLE.MAKER_LOCK.off
        (s.view ROLE.MAKER_LOCK.off 0).toNat 1 ((s.setReg ROLE.MAKER_LOCK.off (fieldPut (s.reg ROLE.MAKER_LOCK.off) 0 1 1)).view
          ROLE.MAKER_LOCK.off 0).toNat →
      t.flag ROLE.MAKER_LOCK.LOCK = true ∧ t.makerRefuses = true ∧
      exec .makerLock s = .next ((t.put ROLE.MAKER_STATUS.REFUSING 1).audit actorBar0 8 0).closeMaker)

/-- The maker channel (R103, R104, R105, R107, R111, R513): a scope that may be served gets a fresh nonce, followed by the card's unique ID; any other
request is refused. A response uses its nonce up: one that verifies under a key that is not revoked opens the session with the nonce's scope, any
other counts a failure, and the third leaves the port refusing. A nonce lasts 131,072 Strokes. An action under a granted scope that the phase serves
makes its audit entry, one outside makes an entry that says so, and in STRICT mode one without room for its entry is refused. The session codes in
the entries are the model's free values (log 13). -/
def Obligations.MakerSession : Prop :=
  ∀ s : State, s.pw.held = false →
    (∀ scope nb, s.makerRefuses = false → s.scopeServed scope = true →
      nb = (List.range 32).map (Config.nonceByte s.free) ++ (List.range 16).map Config.uniqueId →
      exec (.makerChallengeRequest scope) s = .next { s with
        free := s.free + 1, out := s.out ++ [.makerFrame 2 nb], role := { s.role with nonce := some ⟨nb, scope, s.stroke⟩ } }) ∧
    (∀ scope, s.makerRefuses = true ∨ s.scopeServed scope = false →
      exec (.makerChallengeRequest scope) s = .next (s.refuseMaker scope)) ∧
    (∀ sig n (u : State), s.makerRefuses = false → s.role.nonce = some n → s.scopeServed n.scope = true →
      u = { s with role := { s.role with nonce := none } } →
      exec (.makerResponse sig) s = .next (if makerVerifies n sig then u.openMaker n.scope else u.failMaker n.scope) ∧
      (∃ t : State, (bits n.scope 2 1 = 0 → u.openMaker n.scope = t.audit actorMaker 6 (n.scope + Config.sessionCode 0 % 256 * 2 ^ 8)) ∧
        (bits n.scope 2 1 = 1 → u.openMaker n.scope = (t.audit actorMaker 6 (n.scope + Config.sessionCode 0 % 256 * 2 ^ 8)).enterFault) ∧
        t.role.nonce = none ∧ t.out = s.out ++ [.makerFrame 4 [0#8]] ∧
        (s.canonical = true → t.flag ROLE.MAKER_STATUS.SESSION = true ∧ t.get ROLE.MAKER_STATUS.SCOPE = n.scope))) ∧
    (∀ scope, s.makerRefuses = false → ∃ t : State, s.failMaker scope =
        t.audit actorMaker 6 (scope + Config.sessionCode 2 % 256 * 2 ^ 8 + 2 ^ 16) ∧
      t.role = s.role ∧ t.out = s.out ++ [.makerFrame 4 [1#8]] ∧
      (s.canonical = true → t.get ROLE.MAKER_STATUS.FAILS = s.get ROLE.MAKER_STATUS.FAILS + 1 ∧
        (t.flag ROLE.MAKER_STATUS.REFUSING = true ↔ s.get ROLE.MAKER_STATUS.FAILS + 1 = 3))) ∧
    (∀ sig, s.makerRefuses = false → s.role.nonce = none → exec (.makerResponse sig) s = .next (s.failMaker 0)) ∧
    (∀ n, s.role.nonce = some n →
      (n.issued + 131072 ≤ s.stroke → exec .nonceExpiry s = .next { s with role := { s.role with nonce := none } }) ∧
      (s.stroke < n.issued + 131072 → exec .nonceExpiry s = .next s)) ∧
    (∀ scope code off, s.flag ROLE.MAKER_STATUS.SESSION = true →
      (s.flag ROLE.AUDIT_POLICY.STRICT = true → s.auditFull = true →
        exec (.makerAction scope code off) s = .next (s.illegal 3 causeAuditFull off 0)) ∧
      (s.flag ROLE.AUDIT_POLICY.STRICT = false ∨ s.auditFull = false →
        ((scope &&& s.get ROLE.MAKER_STATUS.SCOPE) ≠ scope ∨ s.scopeServed scope = false →
          exec (.makerAction scope code off) s =
            .next (s.audit actorMaker 7 (scope % 256 + code % 256 * 2 ^ 8 + 2 ^ 16))) ∧
        ((scope &&& s.get ROLE.MAKER_STATUS.SCOPE) = scope → s.scopeServed scope = true →
          (bits scope 0 1 = 1 → exec (.makerAction scope code off) s =
            .next (((s.readPath 3 off).1.emit (.readReturn 3 off (s.readPath 3 off).2)).audit actorMaker 7 (scope % 256 + code % 256 * 2 ^ 8))) ∧
          (bits scope 0 1 ≠ 1 → exec (.makerAction scope code off) s =
            .next (s.audit actorMaker 7 (scope % 256 + code % 256 * 2 ^ 8))))))

/-- Register writes on BAR0 (R107, R112, R485, R493): a write that is not an aligned word, an offset without a register, a locked field, a phase
that the table does not list and a value out of its range are each refused, in this order, with their cause, and change nothing but the count and
the record of illegal writes; in STRICT mode so is a write that finds no room for its entry; any other is stored and acts as its register says, and
makes an audit entry with the word before, as written and after (a write of AUDIT_TAIL none, a key's without its words), and what follows the entry
follows. Reading the low word of a 64-bit count (R478, R490): the read latches the high word on its path, and a later read of the high word returns
it. A read of BAR2 returns 0 (R90); a read of BAR0 that is misaligned or not of 32 bits, or of an unassigned offset, is counted as illegal and
returns 0 (R112). -/
def Obligations.RegisterWritesAndCountReads : Prop :=
  (∀ (s : State) (off : Nat) (val : BitVec 64), s.canonical = true → s.writable = true → off < 0xF00000 → off ≠ WDOG.HOST_DISABLE.off →
    off ≠ CMPR.CLASS_CTRL.off →
    (∀ bytes, bytes ≠ 4 ∨ off % 4 ≠ 0 → exec (.registerWrite off bytes val) s = .next (s.illegal 0 causeWidth off (val.toNat % 2 ^ 32))) ∧
    (off % 4 = 0 →
      (findReg off = none → ∀ h, s.handler off = h →
        exec (.registerWrite off 4 val) s = .next (s.illegal 0 causeUnassigned off (val.truncate 32 : Word).toNat)) ∧
      (∀ r i ws, findReg off = some r → i = s.selInst r → ws = r.fields.filter (fun f => f.written (s.reg off i) (val.truncate 32)) →
        ((∃ f ∈ ws, s.locked off f = true) →
          exec (.registerWrite off 4 val) s = .next (s.illegal 0 causeLocked off (val.truncate 32 : Word).toNat)) ∧
        ((∀ f ∈ ws, s.locked off f = false) → (∃ f ∈ ws, s.phaseOk off f = false) →
          exec (.registerWrite off 4 val) s = .next (s.illegal 0 causePhase off (val.truncate 32 : Word).toNat)) ∧
        ((∀ f ∈ ws, s.locked off f = false) → (∀ f ∈ ws, s.phaseOk off f = true) →
          (s.handler off).chk s i (s.reg off i) (r.fieldBits (val.truncate 32)) = true →
          exec (.registerWrite off 4 val) s = .next (s.illegal 0 causeState off (val.truncate 32 : Word).toNat)) ∧
        (∀ (w v : Word) (h : Handler) (u : State), w = val.truncate 32 → v = r.fieldBits w → h = s.handler off →
          (∀ f ∈ ws, s.locked off f = false) → (∀ f ∈ ws, s.phaseOk off f = true) → s.offDomain off = false →
          h.chk s i (s.reg off i) v = false →
          u = h.act (h.chg (s.setReg off (r.store (s.reg off i) w) i) i (s.view off i) v) i v →
          exec (.registerWrite off 4 val) s = .next (h.post
            (if off = ROLE.AUDIT_TAIL.off then u else if isKeyData off then u.audit actorBar0 1 off else s.recorded u off i w) v))))) ∧
  (∀ (s : State) (off : Nat) (val : BitVec 64) (r : RegRow) (i : Nat) (ws : List FieldRow), s.pf0 = true → s.wd.key1 = none →
    off < 0xF00000 → off % 4 = 0 → off ≠ CMPR.CLASS_CTRL.off → off ≠ WDOG.HOST_DISABLE.off → off ≠ ROLE.AUDIT_TAIL.off →
    s.flag ROLE.AUDIT_POLICY.STRICT = true → s.auditFull = true → findReg off = some r → i = s.selInst r →
    ws = r.fields.filter (fun f => f.written (s.reg off i) (val.truncate 32)) → (∀ f ∈ ws, s.locked off f = false) →
    (∀ f ∈ ws, s.phaseOk off f = true) → s.offDomain off = false →
    (s.handler off).chk s i (s.reg off i) (r.fieldBits (val.truncate 32)) = false →
    exec (.registerWrite off 4 val) s = .next (s.illegal 0 causeAuditFull off (val.truncate 32 : Word).toNat)) ∧
  (∀ (s : State) (off : Nat) (r : RegRow), s.canonical = true → s.pf0 = true → off % 4 = 0 → findReg off = some r →
    roPairs.contains off = true → isWindow off = false → s.offDomain off = false →
    ∃ t : State, exec (.countLoRead 0 ⟨off, 4⟩) s = .next t ∧ t.out = s.out ++ [.readReturn 0 off (s.readWord 0 off (s.selInst r))] ∧
      t.pathWord 0 (regKey (off + 4) (s.selInst r)) = s.highOf off (s.selInst r) ∧ t.regs = s.regs ∧ t.hmem = s.hmem ∧ t.live = s.live) ∧
  (∀ (s : State) (off : Nat), s.pf0 = true →
    (∀ bytes, exec (.countLoRead 1 ⟨off, bytes⟩) s = .next (s.emit (.readReturn 1 off 0#32))) ∧
    (∀ bytes, bytes ≠ 4 ∨ off % 4 ≠ 0 → msixSpace off = false →
      exec (.countLoRead 0 ⟨off, bytes⟩) s = .next ((s.illegal 0 causeWidth off 0).emit (.readReturn 0 off 0#32))) ∧
    (off % 4 = 0 → findReg off = none → msixSpace off = false →
      exec (.countLoRead 0 ⟨off, 4⟩) s = .next ((s.illegal 0 causeUnassigned off 0).emit (.readReturn 0 off 0#32))))

/-- An audit entry (R108, R109, R110): it takes the next sequence number; with room in the ring and none held before it, its 64 bytes go to the
ring's next place and the head moves on by one; host memory changes in those bytes alone, and no register but the audit ring's changes. -/
def Obligations.AuditEntry : Prop :=
  ∀ (s : State) (actor event subject old written after : Nat) (detail : List Byte) (dword slot : Nat) (t : State), s.canonical = true →
    slot = s.pair ROLE.AUDIT_BASE_LO.off + 64 * (s.get ROLE.AUDIT_HEAD.COUNT % s.auditSize) →
    t = s.audit actor event subject old written after detail dword →
    t.role.auditSeq = s.role.auditSeq + 1 ∧
    (∀ o i, o < 0x1000000 → o ≠ ROLE.AUDIT_HEAD.off → o ≠ ROLE.AUDIT_STATUS.off → o ≠ ROLE.AUDIT_DROPPED.off → t.reg o i = s.reg o i) ∧
    (∀ a, (∀ k < 64, hostAddr a ≠ hostAddr (slot + k)) → t.memByte a = s.memByte a) ∧
    (s.auditRoom = true → s.role.held = [] →
      (∀ k b, (auditBytes s.role.auditSeq s.stroke actor event subject old written after detail dword)[k]? = some b →
        t.memByte (slot + k) = b) ∧
      t.get ROLE.AUDIT_HEAD.COUNT = (s.get ROLE.AUDIT_HEAD.COUNT + 1) % 2 ^ 32)

/-! ### Rings and descriptors (chapters 6 and 7) -/

/-- Doorbells (R98, R120): PF0's page is TID 0's and a bound VF's page its tenant's; a write to the page of an unbound VF is only counted. A tail
is taken when the ring is enabled and no more than its length ahead of the head; a head when no more than the completions written and not yet
taken; any other write counts as a doorbell error. -/
def Obligations.Doorbells : Prop :=
  ∀ (s : State) (vf : Nat) (val : Word), s.pf0 = true →
    (vf ≠ 0 → s.get FN.VF_BIND.TID vf = 0 → ∀ q,
      exec (.sqTail vf q val) s = .next (s.sat ROLE.UNBOUND_DOORBELL_COUNT.COUNT) ∧
      exec (.cqHead vf q val) s = .next (s.sat ROLE.UNBOUND_DOORBELL_COUNT.COUNT)) ∧
    (∀ tid q, (vf = 0 ∧ tid = 0) ∨ (vf ≠ 0 ∧ s.get FN.VF_BIND.TID vf = tid ∧ tid ≠ 0) →
      (q < 8 → s.sqOn tid q = true → (val.toNat + 2 ^ 32 - (s.sqc tid q).head % 2 ^ 32) % 2 ^ 32 ≤ 2 ^ s.fn tid q FN.SQ_CTRL.LENGTH_LOG2 →
        exec (.sqTail vf q val) s = .next (s.setSqc tid q { s.sqc tid q with tail := val.toNat })) ∧
      (8 ≤ q ∨ s.sqOn tid q = false ∨
          2 ^ s.fn tid q FN.SQ_CTRL.LENGTH_LOG2 < (val.toNat + 2 ^ 32 - (s.sqc tid q).head % 2 ^ 32) % 2 ^ 32 →
        exec (.sqTail vf q val) s = .next (s.dbErr tid)) ∧
      (q < 8 → s.cqOn tid q = true → (val.toNat + 2 ^ 32 - (s.cqc tid q).head % 2 ^ 32) % 2 ^ 32 ≤ (s.cqc tid q).waiting →
        exec (.cqHead vf q val) s = .next ((s.keepBounds tid q).setCqc tid q { s.cqc tid q with head := val.toNat })) ∧
      (8 ≤ q ∨ s.cqOn tid q = false ∨ (s.cqc tid q).waiting < (val.toNat + 2 ^ 32 - (s.cqc tid q).head % 2 ^ 32) % 2 ^ 32 →
        exec (.cqHead vf q val) s = .next (s.dbErr tid)))

/-- Fetching (R123, R124): the next ring in rotation that may fetch reads as many slots as its bounds allow, at most 32; the slot that the head
counts is latched as a descriptor with the next work number, and a malformed one completes IGNORED with its cause. -/
def Obligations.Fetching : Prop :=
  ∀ (s : State) (tid q : Nat), s.working = true →
    (s.nextRing = some (ringKey tid q) → ∃ t : State, exec (.fetchStart tid q) s = .next t ∧ t.ring.lastServed = ringKey tid q ∧
      t = { s.setSqc tid q { s.sqc tid q with inFetch := (s.sqc tid q).inFetch + s.fetchRoom tid q } with
        ring := { (s.setSqc tid q { s.sqc tid q with inFetch := (s.sqc tid q).inFetch + s.fetchRoom tid q }).ring with
          lastServed := ringKey tid q } }) ∧
    s.fetchRoom tid q ≤ 32 ∧
    (∀ (bs : List Byte) (d : Desc) (u : State), (s.sqc tid q).inFetch ≠ 0 →
      bs = s.memRead (s.ringBase tid q 0 + 64 * ((s.sqc tid q).head % s.sqLen tid q)) 64 → d = descOf tid q (s.sqc tid q).head bs →
      u = s.setSqc tid q { s.sqc tid q with head := ((s.sqc tid q).head + 1) % 2 ^ 32, inFetch := (s.sqc tid q).inFetch - 1 } →
      (d.malformed (leAt bs 1 1 / 4) = 0 → exec (.descriptorFetched tid q) s = .next (u.newWork d).1) ∧
      (d.malformed (leAt bs 1 1 / 4) ≠ 0 → exec (.descriptorFetched tid q) s =
        .next ((u.newWork d).1.latch s.wk.next stIGNORED (d.malformed (leAt bs 1 1 / 4)) 0)))

/-- Ring setup (R114, R115, R136): enabling a ring starts its counts at 0; a length outside 64 to 65,536 entries and a submission ring onto a
completion ring that is not enabled are refused; disabling a submission ring drops what it has not fetched. -/
def Obligations.RingSetup : Prop :=
  ∀ (s : State) (tid q : Nat) (val w : Word), s.canonical = true → s.writable = true → s.serving = true → tid < 1024 → q < 8 →
    (w = fieldPut (fieldPut (fieldPut (s.reg (fnOff tid q FN.SQ_CTRL.rel)) 0 5 (fieldGet val 0 5)) 8 3 (fieldGet val 8 3)) 16 1 (fieldGet val 16 1) →
      (fieldGet val 0 5 < 6 ∨ 16 < fieldGet val 0 5 → exec (.sqCtrl tid q val) s =
        .next (s.illegal 0 causeState (fnOff tid q FN.SQ_CTRL.rel) val.toNat)) ∧
      (6 ≤ fieldGet val 0 5 → fieldGet val 0 5 ≤ 16 → s.sqOn tid q = false → fieldGet val 16 1 = 1 →
        (s.cqOn tid (fieldGet val 8 3) = true → exec (.sqCtrl tid q val) s =
          .next (s.recorded ((s.setReg (fnOff tid q FN.SQ_CTRL.rel) w).setSqc tid q ⟨0, 0, 0, 0⟩) (fnOff tid q FN.SQ_CTRL.rel) 0 val)) ∧
        (s.cqOn tid (fieldGet val 8 3) = false → exec (.sqCtrl tid q val) s =
          .next (s.illegal 0 causeState (fnOff tid q FN.SQ_CTRL.rel) val.toNat))) ∧
      (6 ≤ fieldGet val 0 5 → fieldGet val 0 5 ≤ 16 → s.sqOn tid q = true → fieldGet val 16 1 = 0 →
        fieldGet val 0 5 = s.fn tid q FN.SQ_CTRL.LENGTH_LOG2 → fieldGet val 8 3 = s.cqOf tid q → exec (.sqCtrl tid q val) s =
          .next (s.recorded ((s.setReg (fnOff tid q FN.SQ_CTRL.rel) w).setSqc tid q
            { s.sqc tid q with tail := (s.sqc tid q).head, inFetch := 0, wait := 0 }) (fnOff tid q FN.SQ_CTRL.rel) 0 val))) ∧
    (w = fieldPut (fieldPut (fieldPut (fieldPut (s.reg (fnOff tid q FN.CQ_CTRL.rel)) 0 5 (fieldGet val 0 5)) 8 1 (fieldGet val 8 1)) 9 1
        (fieldGet val 9 1)) 16 11 (fieldGet val 16 11) →
      (fieldGet val 0 5 < 6 ∨ 16 < fieldGet val 0 5 → exec (.cqCtrl tid q val) s =
        .next (s.illegal 0 causeState (fnOff tid q FN.CQ_CTRL.rel) val.toNat)) ∧
      (6 ≤ fieldGet val 0 5 → fieldGet val 0 5 ≤ 16 → s.cqOn tid q = false → fieldGet val 8 1 = 1 →
        fieldGet val 9 1 = 0 ∨ fieldGet val 16 11 < (if tid = 0 then 2048 else 16) → exec (.cqCtrl tid q val) s =
          .next (s.recorded ((s.setReg (fnOff tid q FN.CQ_CTRL.rel) w).setCqc tid q ⟨0, 0, 0, 0, false⟩) (fnOff tid q FN.CQ_CTRL.rel) 0 val)))

/-- How a descriptor is admitted (R42, R126, R127, R128): a row whose descriptor the card has not fetched takes it as fetched in the Stroke before (the
model's choice, log 22), and one that is malformed completes IGNORED; a descriptor is not admitted in the Stroke in which it is latched, only in a later
one; a descriptor that fails a check common to all opcodes completes with that check's status; before RELEASED, and, of what was not fetched,
in a drain or an orderly power-down, nothing is fetched or admitted. -/
def Obligations.DescriptorAdmission : Prop :=
  ∀ (c : Instr) (s : State) (op : Nat) (d : Desc), rowOf c = some (op, d) →
    (s.phase ≠ phRELEASED → exec c s = .next s) ∧
    (s.findFetched (asPosted op d) = none → s.draining d.tid = true ∨ s.tier.quiesce = true → exec c s = .next s) ∧
    (s.working = true → s.phase = phRELEASED → s.findFetched (asPosted op d) = none → s.draining d.tid = false → s.tier.quiesce = false →
      (∀ v ∈ s.wk.works, v.id ≠ s.wk.next) →
      ((asPosted op d).malformed 0 ≠ 0 →
        exec c s = .next ((s.newWork (asPosted op d)).1.latch s.wk.next stIGNORED ((asPosted op d).malformed 0) 0)) ∧
      ((asPosted op d).malformed 0 = 0 → exec c s = exec c (s.newWorkAt (asPosted op d) (s.stroke - 1)).1)) ∧
    (∀ w, s.findFetched (asPosted op d) = some w → s.stroke ≤ w.fetched → exec c s = .next s) ∧
    (∀ w st dt, s.working = true → s.phase = phRELEASED → s.findFetched (asPosted op d) = some w → w.d.opcode = op → s.work w.id = some w →
      s.mayAdmit w = true → s.admitFail w.d = some (st, dt) → op ≠ opDELIVER → op ≠ opXFER →
      exec c s = .next ((s.enter w.id).latch w.id st dt 0))

/-- NOP, FENCE and the sequence descriptors at their admission (R133, R134, R138, R145 to R149), and what a close does when it runs (R147, R241):
a NOP is done at once, a FENCE when nothing that it covers is left, an OPEN takes the next index and window or is DENIED with the first failing
check, a CLOSE turns the sequence CLOSING and, with nothing else on it, drops its leaves and counts its index's generation on; a FORK is checked
and begins. That a tenant's root table is taken at its first OPEN with room (log 90), and that a FORK's count of blocks is the one at its admission
(log 92), are the model's choices. -/
def Obligations.SequenceDescriptors : Prop :=
  ∀ (s e : State) (d : Desc) (w a : Work),
    (s.Admits opNOP d w e a → exec (.nop d) s = .next (e.latch w.id stDONE 0 0)) ∧
    (s.Admits opFENCE d w e a → exec (.fence d) s = .next e.settleFences) ∧
    (s.Admits opOPEN d w e a →
      (∀ idx base, e.nextIndex = some idx → e.windowBase w.d.tid (w.d.b 36 4 * w.d.b 32 2) = some base → e.openFail w.d = 0 →
        ∃ q : Seq, q.idx = idx ∧ q.gen = e.genOf idx ∧ q.tid = w.d.tid ∧ q.len = 0 ∧ q.base = base ∧ q.layers = w.d.b 32 2 ∧
          q.cls = w.d.b 34 1 ∧ q.slots = w.d.b 36 4 ∧ q.closing = false ∧
          exec (.seqOpen d) s = .next (((((e.takeIndex.setSq fun x => { x with seqs := x.seqs ++ [q] }).rootFor w.d.tid).logKv w.d.tid
            (recSeq q)).updWork w.id fun w => { w with newSid := q.sid }).latch w.id stDONE 0 0)) ∧
      (e.openFail w.d ≠ 0 → exec (.seqOpen d) s = .next (e.latch w.id stDENIED (e.openFail w.d) 0))) ∧
    (s.Admits opCLOSE d w e a → ∀ q, e.openSeq w.d.tid w.d.sid = some q → exec (.seqClose d) s = .next (e.setSeq { q with closing := true })) ∧
    (s.Admits opFORK d w e a →
      (e.forkFail w.id w.d ≠ 0 → exec (.seqFork d) s = .next (e.latch w.id stNOTFOUND (e.forkFail w.id w.d) 0)) ∧
      (e.forkFail w.id w.d = 0 → exec (.seqFork d) s =
        .next (e.updWork w.id fun w => { w with aux := .fork (sidIdx (w.d.b 32 4)) [] (e.forkedBlocks w.d) false 0 }))) ∧
    (∀ idx q, s.working = true → s.seqIdx idx = some q → q.closing = true → s.busyOn q = false →
      (s.wk.works.find? fun w => w.phase = 1 ∧ w.d.opcode = opCLOSE ∧ w.d.tid = q.tid ∧ w.d.sid = q.sid) = some w →
      exec (.closeRun idx) s = .next ((s.runClose q).latch w.id stDONE 0 0)) ∧
    (∀ (u : State) (q : Seq), u.seqIdx q.idx = some q → (∀ x ∈ (u.runClose q).sq.seqs, x.idx ≠ q.idx) ∧ (u.runClose q).genOf q.idx = q.gen % 255 + 1 ∧
      (∀ x ∈ (u.runClose q).sq.leaves, x.sq ≠ q.idx)) ∧
    (∀ idx c, s.working = true → s.sq.closed.find? (·.1 = idx) = some c → s.flag SRCH.BRAKE_STATUS.HALTED = false →
      ∃ t : State, exec (.closeEntriesRemoved idx) s = .next t ∧
        t = (s.dropEntries c.2 (s.srch.entries.filter fun e => sidIdx e.sid = idx ∧ s.seqIdx idx = none)).setSq
          (fun x => { x with closed := x.closed.filter (·.1 ≠ idx), freed := x.freed ++ [idx] }))

/-- The descriptors over a range of pages at their admission (R182, R200, R208, R221, R358): an APPEND waits for its turn as its sequence's one
active writer; READ_PAGES, PIN, UNPIN and SCORE_UPDATE past the sequence's layers end DONE_PARTIAL, else their page-ins are planned; a DELIVER is
checked against its QP, key and remote range first. -/
def Obligations.PageDescriptors : Prop :=
  ∀ (s e : State) (d : Desc) (w a : Work),
    (s.Admits opAPPEND d w e a →
      exec (.append d) s = .next (e.updWork w.id fun w => { w with aux := .append (e.bucketOf (w.d.b 32 4)) }).activateWriters) ∧
    (∀ c, (c = .readPages d ∧ s.Admits opREAD d w e a) ∨ (c = .pin d ∧ s.Admits opPIN d w e a) ∨ (c = .unpin d ∧ s.Admits opUNPIN d w e a) ∨
        (c = .scoreUpdate d ∧ s.Admits opSCORE d w e a) →
      (e.layerRange w.d = true → exec c s = .next (e.latch w.id stPARTIAL dtLAYER_RANGE 0)) ∧
      (e.layerRange w.d = false → exec c s = .next (e.plan a true))) ∧
    (s.working = true → s.phase = phRELEASED → s.findFetched (asPosted opDELIVER d) = some w → w.d.opcode = opDELIVER → s.work w.id = some w →
      s.mayAdmit w = true → rightsOk w.d = true → s.deliverFail w.d ≠ 0 →
      exec (.deliver d) s = .next ((s.enter w.id).latch w.id stDENIED (s.deliverFail w.d) 0)) ∧
    (s.Admits opDELIVER d w e a → s.deliverFail w.d = 0 →
      (e.layerRange w.d = true → exec (.deliver d) s = .next (e.latch w.id stPARTIAL dtLAYER_RANGE 0)) ∧
      (e.layerRange w.d = false → w.d.b 52 4 < e.deliverBytes w.d → exec (.deliver d) s = .next (e.latch w.id stPARTIAL dtSTRIDE 0)) ∧
      (e.layerRange w.d = false → e.deliverBytes w.d ≤ w.d.b 52 4 → e.qpState (dlQp w.d) ≠ qpRTS → e.qpState (dlQp w.d) ≠ qpSQD →
        exec (.deliver d) s = .next (e.latch w.id stPARTIAL dtQP_STATE 0)) ∧
      (e.layerRange w.d = false → e.deliverBytes w.d ≤ w.d.b 52 4 → e.qpState (dlQp w.d) = qpRTS ∨ e.qpState (dlQp w.d) = qpSQD →
        exec (.deliver d) s = .next ((e.updWork w.id fun w =>
          { w with aux := .deliver (e.get RDMA.QP_FLUSH.FLUSH_PAGES (dlQp w.d)) 0 0 }).plan a true)))

/-- The search, attention, reshard and pool descriptors at their admission (R244, R298, R343, R346, R396): each check in its order, the first that
fails ending the descriptor with its DETAIL; a FIND, an ATTN_PARTIAL, a RESHARD and an ADVANCE that pass begin. -/
def Obligations.UnitDescriptors : Prop :=
  ∀ (s e : State) (d : Desc) (w a : Work),
    (∀ c, (c = .prefixFind d ∧ s.Admits opFIND d w e a) ∨ (c = .prefixNext d ∧ s.Admits opNEXT d w e a) →
      (e.nsMine w.d.tid (w.d.b 32 2) = false → exec c s = .next (e.latch w.id stNOTFOUND 0 0)) ∧
      (e.nsMine w.d.tid (w.d.b 32 2) = true → c = .prefixFind d → w.d.b 35 1 = 1 → e.nsScope (w.d.b 32 2) ≠ 2 →
        exec c s = .next (e.latch w.id stPARTIAL dtNOT_PELOTON 0)) ∧
      (e.nsMine w.d.tid (w.d.b 32 2) = true → (c = .prefixFind d → w.d.b 35 1 = 1 → e.nsScope (w.d.b 32 2) = 2) →
        exec c s = .next (e.updWork w.id fun w =>
          { w with aux := .find (FindSt.start (if w.d.opcode = opFIND then w.d.b 36 4 else 1) false) }))) ∧
    (∀ c q, (c = .prefixInsert d ∧ s.Admits opINSERT d w e a) ∨ (c = .prefixRemove d ∧ s.Admits opREMOVE d w e a) →
      e.openSeq w.d.tid w.d.sid = some q →
      (e.nsMine w.d.tid (w.d.b 32 2) = false → exec c s = .next (e.latch w.id stNOTFOUND 0 0)) ∧
      (e.nsMine w.d.tid (w.d.b 32 2) = true → q.ring = true → exec c s = .next (e.latch w.id stPARTIAL dtRING 0)) ∧
      (e.nsMine w.d.tid (w.d.b 32 2) = true → q.ring = false → q.bt ≠ e.nsTokens (w.d.b 32 2) →
        exec c s = .next (e.latch w.id stPARTIAL dtBLOCK_MISMATCH 0)) ∧
      (e.nsMine w.d.tid (w.d.b 32 2) = true → q.ring = false → q.bt = e.nsTokens (w.d.b 32 2) → c = .prefixInsert d → q.prot = true →
        e.nsHook (w.d.b 32 2) = true → exec c s = .next (e.latch w.id stPARTIAL dtPROTECTED_HOOK 0)) ∧
      (e.nsMine w.d.tid (w.d.b 32 2) = true → q.ring = false → q.bt = e.nsTokens (w.d.b 32 2) →
        (c = .prefixInsert d → q.prot = false ∨ e.nsHook (w.d.b 32 2) = false) → exec c s = .next e)) ∧
    (∀ q, s.Admits opATTN d w e a → e.openSeq w.d.tid w.d.sid = some q →
      (e.attnFail w.d q ≠ 0 → exec (.attnPartial d) s = .next (e.latch w.id stPARTIAL (e.attnFail w.d q) 0)) ∧
      (e.attnFail w.d q = 0 → e.readExt w.d (e.classDef q.cls) = none → exec (.attnPartial d) s = .next (e.latch w.id stPARTIAL dtEXT_INVALID 0)) ∧
      (∀ (qs bias : List Word) (qpos : Nat) (ranges : List (Nat × Nat)) (ma ba blocks : Nat) (c : ClassDef), c = e.classDef q.cls →
        e.attnFail w.d q = 0 → e.readExt w.d c = some (qpos, ranges, ma, ba) → blocks = (ranges.map (·.2)).foldl (· + ·) 0 →
        bias = (List.range (if atBias w.d = 1 then blocks * c.bt else if atBias w.d = 2 then atHeads w.d else 0)).map (fun i =>
          BitVec.ofNat 32 (leNat (e.memRead (ba + 4 * i) 4))) →
        qs = (List.range (queryBytes w.d (e.classDef q.cls) / 2)).map (fun i =>
          BitVec.ofNat 32 (leAt (e.memRead (atQuery w.d) (queryBytes w.d (e.classDef q.cls))) (2 * i) 2)) →
        ∃ x : AttnSt, x.query = qs ∧ x.ranges = ranges ∧ x.qpos = qpos ∧ x.maskAddr = ma ∧ x.bias = bias ∧
          x.mask = (if ma = 0 then [] else e.memRead ma (cdiv (blocks * c.bt) 8)) ∧ x.parts = [] ∧ x.positions = 0 ∧ x.valid = true ∧
          x.group = e.lget ENG.ATTN_GROUP.GROUP q.cls ∧
          (qs.any (fun v => bf16Bad v.toNat) = false → (if atBias w.d = 2 then bias.any fp32Nan else bias.any biasBad) = false →
            exec (.attnPartial d) s = .next ((e.updWork w.id fun w => { w with aux := .attn x }).plan { a with aux := .attn x } true)) ∧
          (qs.any (fun v => bf16Bad v.toNat) = true ∨ (if atBias w.d = 2 then bias.any fp32Nan else bias.any biasBad) = true →
            exec (.attnPartial d) s = .next ((((e.updWork w.id fun w => { w with aux := .attn x }).fault clsINPUT 0
              (tidSidInfo w.d.tid w.d.sid)).updWork w.id fun w => w.stopWith stFAULT dtATTN_NONFINITE).endAttnWork w.id)))) ∧
    (∀ c q, (c = .reshardMove d ∧ s.Admits opRESHARD (withKind d 0) w e a) ∨ (c = .reshardCopy d ∧ s.Admits opRESHARD (withKind d 1) w e a) →
      w.isAdvance = false → e.seqBySid w.d.tid w.d.sid = some q →
      (e.reshardFail a ≠ 0 → exec c s = .next (e.latch w.id stPARTIAL (e.reshardFail a) 0)) ∧
      (e.reshardFail a = 0 → q.layers < w.d.b 34 1 + w.d.b 35 1 + 1 → exec c s = .next (e.latch w.id stPARTIAL dtLAYER_RANGE 0)) ∧
      (e.reshardFail a = 0 → w.d.b 34 1 + w.d.b 35 1 + 1 ≤ q.layers → exec c s = .next (e.openTargets a q))) ∧
    (s.Admits opRESHARD (withKind d 2) w e a → w.isAdvance = true →
      (e.reshardFail a ≠ 0 → exec (.advance d) s = .next (e.latch w.id stPARTIAL (e.reshardFail a) 0)) ∧
      (∀ u p : State, e.reshardFail a = 0 →
        u = e.updWork w.id (fun w => { w with aux := .adv { asked := e.ringOrder, ready := [], committed := false, acked := [] } }) →
        p = u.setPlan { u.plan_ w.d.tid (rsEpoch w.d) with switchAt := rsSwitch w.d } →
        exec (.advance d) s = .next (((e.ringOrder.filter (· ≠ e.me)).foldl (fun s m => (s.openTxn 0 ftEPOCH_PREPARE m w.id
          [epochBytes (s.remoteTid m w.d.tid) (rsEpoch w.d) (rsSwitch w.d)]).1) p).sendReadies w.d.tid))) ∧
    (s.working = true → s.phase = phRELEASED → s.findFetched (asPosted opXFER d) = some w → w.d.opcode = opXFER → s.work w.id = some w →
      s.mayAdmit w = true → s.poolPart (w.d.b 33 1) ≠ s.partOf w.d.tid →
      exec (.poolXfer d) s = .next ((s.enter w.id).latch w.id stDENIED 0 0)) ∧
    (∀ q, s.Admits opXFER d w e a → s.poolPart (w.d.b 33 1) = s.partOf w.d.tid → e.openSeq w.d.tid w.d.sid = some q →
      (e.xferFail w.d q ≠ 0 → exec (.poolXfer d) s = .next (e.latch w.id stPARTIAL (e.xferFail w.d q) 0)) ∧
      (e.xferFail w.d q = 0 → xferLong w.d q = true → exec (.poolXfer d) s = .next (e.latch w.id stPARTIAL dtLENGTH 0)) ∧
      (e.xferFail w.d q = 0 → xferLong w.d q = false → w.d.b 32 1 = 1 ∨ w.d.b 44 4 = 0xFFFFFFFF → q.layers < w.d.b 34 1 + (w.d.b 35 1 + 1) →
        exec (.poolXfer d) s = .next (e.latch w.id stPARTIAL dtLAYER_RANGE 0)) ∧
      (e.xferFail w.d q = 0 → xferLong w.d q = false → w.d.b 32 1 = 1 → w.d.b 34 1 + (w.d.b 35 1 + 1) ≤ q.layers →
        exec (.poolXfer d) s = .next e) ∧
      (e.xferFail w.d q = 0 → xferLong w.d q = false → w.d.b 32 1 = 0 →
        w.d.b 44 4 ≠ 0xFFFFFFFF ∨ w.d.b 34 1 + (w.d.b 35 1 + 1) ≤ q.layers → exec (.poolXfer d) s = .next e.activateWriters))

/-! ### Translation, classes and flash (chapters 7, 8 and 9) -/

/-- A rebuild of a tenant's tables, the flush of the walk cache and the two probes (R157, R164, R476, Table 9-10): a rebuild is started only for a
tenant that is not FREE, one at a time and with room for the copy, else its cause is shown; its copy ends DONE; a flush empties the walk and the
directory cache; a tier probe answers at once, a sequence probe in the Stroke's end. And the words of the tables (R153 to R156, Table 7-7): a table has
512 entries; a page without a leaf reads 0; a leaf that no record shares has its tier in bits 2:0, GEN in 15:8, its sequence's pin in bit 17 and its
place in bits 63:24; an upper entry has PRESENT in bit 0 when the next table is there and is 0 when it is not; a share record's 16 bytes are the
leaf, REFS and PINS. The addresses of tables are free values (log 17). -/
def Obligations.TranslationCommands : Prop :=
  ∀ (s : State) (n : Nat), s.canonical = true → s.writable = true → s.phase = phRELEASED →
    ((s.reg XLAT.TENANT_SELECT.off).toNat = n →
      (s.tenState n ≠ 0 → s.sq.rebuild = none → s.rebuildNeed n ≤ s.chunksFree →
        exec .rebuildStart s = .next (s.recorded (((s.put XLAT.REBUILD_STATUS.STATE 1 n).put XLAT.REBUILD_STATUS.CAUSE 0 n).setSq fun x =>
          { x with rebuild := some ⟨n, s.rebuildNeed n⟩ }) XLAT.REBUILD_CTRL.off n 1#32)) ∧
      (s.tenState n = 0 → s.sq.rebuild = none →
        exec .rebuildStart s = .next (s.recorded ((s.put XLAT.REBUILD_STATUS.CAUSE 1 n).put XLAT.REBUILD_STATUS.STATE 4 n)
          XLAT.REBUILD_CTRL.off n 1#32)) ∧
      (∀ r, s.tenState n ≠ 0 → s.sq.rebuild = some r → r.tid ≠ n →
        exec .rebuildStart s = .next (s.recorded ((s.put XLAT.REBUILD_STATUS.CAUSE 2 n).put XLAT.REBUILD_STATUS.STATE 4 n)
          XLAT.REBUILD_CTRL.off n 1#32)) ∧
      (s.tenState n ≠ 0 → s.sq.rebuild = none → s.chunksFree < s.rebuildNeed n →
        exec .rebuildStart s = .next (s.recorded ((s.put XLAT.REBUILD_STATUS.CAUSE 3 n).put XLAT.REBUILD_STATUS.STATE 4 n)
          XLAT.REBUILD_CTRL.off n 1#32))) ∧
    (∀ r, s.working = true → s.sq.rebuild = some r → s.get XLAT.REBUILD_STATUS.STATE r.tid = 1 →
      exec .rebuildCopyDone s = .next (s.put XLAT.REBUILD_STATUS.STATE 2 r.tid)) ∧
    exec .walkCacheFlush s = .next (s.recorded (s.setSq fun x => { x with walk := [], dirs := [] }) XLAT.WALK_CACHE_CTRL.off 0 1#32) ∧
    exec .tierProbe s = .next (s.recorded (s.setReg TIER.PROBE_RESULT.off s.probeWord) TIER.PROBE_CTRL.off 0 1#32) ∧
    (s.err.probing = false → exec .seqProbe s = .next (s.recorded { s.put ERR.SEQ_PROBE_RESULT.DONE 0 with
      err := { (s.put ERR.SEQ_PROBE_RESULT.DONE 0).err with probing := true } } ERR.SEQ_PROBE_CTRL.off 0 1#32)) ∧
    (∀ level key, (s.tableWords n level key).length = 512 ∧ bits (s.upperEntry n level key) 0 1 = b01 (s.hasTable n level key) ∧
      (s.hasTable n level key = false → s.upperEntry n level key = 0) ∧
      (s.hasTable n level key = true → bits (s.upperEntry n level key) 12 39 = Config.tableAddr n (s.rootOf n) level key % 2 ^ 39)) ∧
    (∀ (q : Seq) (p : Nat), p < q.pages →
      (s.sq.seqs.find? fun x => x.tid = n ∧ x.base ≤ q.base + p ∧ q.base + p < x.base + x.pages) = some q →
      (s.leafAt q.idx p = none → s.leafWord n (q.base + p) = 0) ∧
      (∀ l g w, s.leafAt q.idx p = some l → s.pageBy l.pid = some g → g.shared = false → g.st ≠ 0 → sectorsOf g.hdr g.body < 32 →
        w = s.leafWord n (q.base + p) → bits w 0 3 = g.tier ∧ bits w 3 5 = (if g.st = 6 then 0 else sectorsOf g.hdr g.body) ∧
        bits w 8 8 = g.gen % 256 ∧ bits w 16 1 = b01 (hdrProt g.hdr) ∧ bits w 17 1 = b01 l.pinned ∧ bits w 24 40 = g.place % 2 ^ 40) ∧
      (∀ l g w, s.leafAt q.idx p = some l → s.pageBy l.pid = some g → g.shared = true → w = s.leafWord n (q.base + p) → bits w 0 3 = 3 ∧
        bits w 3 5 = 0 ∧ bits w 8 8 = g.gen % 256 ∧ bits w 17 1 = b01 l.pinned ∧ bits w 24 40 = Config.recordIndex g.pid % 2 ^ 40)) ∧
    (∀ g : Page, (s.shareRecord g).length = 16 ∧ leAt (s.shareRecord g) 8 4 = s.refsOf g.pid % 2 ^ 32 ∧
      leAt (s.shareRecord g) 12 2 = s.pinsOf g.pid % 2 ^ 16)

/-- Classes and the append buckets (R167, R168, R186): DEFINE of a class that is not defined records the class with its page size and draw, or the
first condition it breaks; a defined one cannot be changed; UNDEFINE is refused with cause 5 while a sequence uses the class; bucket edges are
taken only in rising order from 1, the lanes only as four nonzero counts that make 16, and both act at the next boundary. -/
def Obligations.ClassesAndBuckets : Prop :=
  ∀ (s : State) (k : Nat), s.canonical = true → s.writable = true → s.serving = true →
    ((s.reg CMPR.CLASS_SELECT.off).toNat = k → s.get CMPR.CLASS_SELECT.CLASS = k →
      (s.classDefined k = false → exec .defineCmd s = .next (s.recorded (s.define k) CMPR.CLASS_CTRL.off k 1#32)) ∧
      (s.classDefined k = false → s.defineCause k = 0 → k < 64 →
        (s.define k).flag CMPR.CLASS_STATUS.DEFINED k = true ∧ (s.define k).get CMPR.CLASS_STATUS.REFUSE_CAUSE k = 0) ∧
      (s.defineCause k ≠ 0 → s.define k = s.put CMPR.CLASS_STATUS.REFUSE_CAUSE (s.defineCause k) k) ∧
      (s.classDefined k = true → exec .defineCmd s = .next (s.illegal 0 causeState CMPR.CLASS_CTRL.off 1)) ∧
      (s.classDefined k = true → s.classUsers k = 0 → exec .undefine s = .next (s.recorded ((((s.put CMPR.CLASS_STATUS.DEFINED 0 k).put
        CMPR.CLASS_STATUS.PAYLOAD_BYTES 0 k).put CMPR.CLASS_STATUS.ENGINE_DRAW 0 k).put CMPR.CLASS_STATUS.REFUSE_CAUSE 0 k)
        CMPR.CLASS_CTRL.off k 2#32)) ∧
      (s.classUsers k ≠ 0 → exec .undefine s =
        .next ((s.illegal 0 causeState CMPR.CLASS_CTRL.off 2).put CMPR.CLASS_STATUS.REFUSE_CAUSE 5 k))) ∧
    (∀ (val w : Word), w = fieldPut (s.reg CMPR.APPEND_BUCKETS.off) 0 21 (fieldGet val 0 21) →
      0 < fieldGet val 0 21 → fieldGet val 0 21 < s.get CMPR.APPEND_BUCKETS_1.EDGE_1 →
      s.get CMPR.APPEND_BUCKETS_1.EDGE_1 < s.get CMPR.APPEND_BUCKETS_2.EDGE_2 →
      exec (.appendBuckets CMPR.APPEND_BUCKETS.off val) s = .next (s.recorded ((s.setReg CMPR.APPEND_BUCKETS.off w).atBoundary
        (.live (regKey CMPR.APPEND_BUCKETS.off 0) w)) CMPR.APPEND_BUCKETS.off 0 val)) ∧
    (∀ (val w : Word), w = fieldPut (fieldPut (fieldPut (fieldPut (s.reg CMPR.APPEND_LANES.off) 0 5 (fieldGet val 0 5)) 8 5 (fieldGet val 8 5)) 16 5
        (fieldGet val 16 5)) 24 5 (fieldGet val 24 5) →
      0 < fieldGet val 0 5 → 0 < fieldGet val 8 5 → 0 < fieldGet val 16 5 → 0 < fieldGet val 24 5 →
      fieldGet val 0 5 + fieldGet val 8 5 + fieldGet val 16 5 + fieldGet val 24 5 = 16 →
      exec (.appendBuckets CMPR.APPEND_LANES.off val) s = .next (s.recorded ((s.setReg CMPR.APPEND_LANES.off w).atBoundary
        (.live (regKey CMPR.APPEND_LANES.off 0) w)) CMPR.APPEND_LANES.off 0 val))

/-- Flash events (R192, R205, R207, R212, R215, R217, R218): a NAND page that ECC corrects counts as corrected; one that ECC cannot correct is read again
by its stripe's fifteen others, and its page is lost where the stripe has no parity yet or a read of the fifteen fails too; a page whose reads have all
ended with a valid header and its leaf's GEN is CLEAN, and any other is lost; a program that ends completes the pages that it was the last of, one
that fails kills its die and is tried again; a die whose rebuild ends loses the pages named, gives its place to the spare, and the group's next
dead die takes the next spare; open NAND pages, log buffers and chains are closed, written and compacted when due; the tier manager drops CLEAN
candidates and starts demotions as its levels say. Which sub-streams of a page fail to decode is a free value (log 93). -/
def Obligations.FlashEvents : Prop :=
  ∀ s : State, s.working = true →
    (∀ op o g u, s.tier.ops.find? (·.id = op) = some o → o.kind = 0 → u = s.setTier (fun t => { t with ops := t.ops.filter (·.id ≠ op) }) →
      u.pageBy o.pid = some g → g.st = 5 →
      (s.flash.lost.contains o.nand = true → ∀ res, res ∈ [NandRes.ok, .corrected, .uncorrectable, .badPage] →
        exec (.nandReadDone op res) s = .next (u.losePage o.pid)) ∧
      (s.flash.lost.contains o.nand = false →
      (o.recon = false ∨ o.sub ≠ 14 → exec (.nandReadDone op .ok) s =
        .next ((u.updPage o.pid fun g => { g with done := g.done + 1 }).finishRead o.pid)) ∧
      (o.recon = true → o.sub = 14 → exec (.nandReadDone op .ok) s =
        .next (((u.fault clsCORRECTED 0 0).updPage o.pid fun g => { g with done := g.done + 1 }).finishRead o.pid)) ∧
      exec (.nandReadDone op .corrected) s =
        .next (((u.fault clsCORRECTED 0 0).updPage o.pid fun g => { g with done := g.done + 1 }).finishRead o.pid) ∧
      (∀ left, left = (kvFind u.tier.plans o.pid).getD [] → o.recon = false → u.striped o.nand = true →
        exec (.nandReadDone op .uncorrectable) s =
          .next (((u.setTier fun t => { t with plans := kvSet t.plans o.pid (left ++ List.replicate 15 (o.nand, true)) }).updPage o.pid fun g =>
            { g with done := g.done + 1 }).finishRead o.pid)) ∧
      (∀ v : State, o.recon = true ∨ u.striped o.nand = false → v = u.loseNands (o.nand :: u.deadNands o.nand) →
        exec (.nandReadDone op .uncorrectable) s = .next (if (v.pageBy o.pid).any (·.st = 5) then v.losePage o.pid else v)) ∧
      exec (.nandReadDone op .badCode) s =
        .next (((u.markBad o.pid).updPage o.pid fun g => { g with done := g.done + 1 }).finishRead o.pid) ∧
      exec (.nandReadDone op .badPage) s = .next (u.losePage o.pid))) ∧
    (∀ pid g, s.pageBy pid = some g → g.st = 5 → g.started ≤ g.done → s.readsLeft g = 0 →
      (hdrValid g.hdr = false ∨ hdrGEN g.hdr % 256 ≠ g.gen → s.finishRead pid = s.losePage pid) ∧
      (hdrValid g.hdr = true → hdrGEN g.hdr % 256 = g.gen → ∃ v, (s.finishRead pid).pageBy pid = some v ∧ v.st = 3 ∧ v.last = g.readAt ∧
        v.score = none ∧ v.frame = g.frame ∧ v.body = g.body)) ∧
    (∀ op o u, s.tier.ops.find? (·.id = op) = some o → o.kind = 1 → u = s.setTier (fun t => { t with ops := t.ops.filter (·.id ≠ op) }) →
      exec (.programDone op false) s = .next ((u.dieDead (nandGroupOf o.nand) (nandDieOf o.nand)).readyProgram o.index o.nand) ∧
      (∀ v p, v = u.stripeTurn o.nand → (v.placedDone o.index o.nand).2 = [p] → p.stale = false → p.pid < 2 ^ 63 →
        exec (.programDone op true) s = .next ((v.placedDone o.index o.nand).1.pageProgrammed p.pid p.first)) ∧
      (∀ v, v = u.stripeTurn o.nand → (v.placedDone o.index o.nand).2 = [] →
        exec (.programDone op true) s = .next (v.placedDone o.index o.nand).1)) ∧
    (∀ g r lost, g < 16 → kvFind s.tier.rebuild g = some r →
      (r.2 ≠ [] → exec (.dieRebuildDone g lost) s = .next s) ∧
      (r.2 = [] → exec (.dieRebuildDone g lost) s = .next ((((s.loseNands lost).loseDefines).endRebuild g r.1).nextRebuild g))) ∧
    (∀ g, (s.tier.dead.find? (·.1 = g) = none → s.nextRebuild g = s.setGroup g 0) ∧
      (∀ d, s.tier.dead.find? (·.1 = g) = some d →
        (s.get TIER.GROUP_STATUS.SPARES_LEFT g ≠ 0 → s.nextRebuild g = s.takeSpare g d.2) ∧
        (s.get TIER.GROUP_STATUS.SPARES_LEFT g = 0 → s.nextRebuild g = s.setGroup g 2))) ∧
    (∀ index, s.openDue index = true → exec (.openNandPageTimeout index) s = .next (s.closeOpen index)) ∧
    (∀ g, s.candidates.find? (·.st = 3) = some g → s.lget TIER.DEMOTE_LEVEL.FRAMES ≤ s.framesFree →
      s.framesFree < s.lget TIER.DROP_LEVEL.FRAMES → g.st = 3 →
      exec .eviction s = .next ((s.dropPage g.pid).add64 TIER.DROPS_LO.off)) ∧
    (∀ g, s.candidates.find? (fun g => g.st == 3 || !s.flashFull) = some g → s.framesFree < s.lget TIER.DEMOTE_LEVEL.FRAMES → g.st ≠ 3 →
      exec .eviction s = .next ((s.setTier fun t => { t with demote := t.demote ++ [g.pid] }).startWriting g.pid)) ∧
    exec .scoreReevaluate s = .next s.reevaluate.sweepBurst ∧
    (∀ index, s.flushDue index = true → exec (.logFlush index) s = .next (s.flushLog index)) ∧
    (∀ index c, s.compactDue index = true → s.chainAt index = some c →
      exec (.compaction index) s = .next ((s.firstWrite.rewriteChain index (liveRecs s.flash.media c.recs)).anchorUpdate.reclaim))

/-! ### Search, constants and the Gear fabric (chapters 10, 11 and 13) -/

/-- The cascade (R245 to R249): a word whose CRC fails is discarded; the word of a search that returns to its origin is taken up; another card's word
is searched for and goes on, unchanged where its namespace is not searched here, marked while search is halted; a word overdue is sent once more and then counted lost; enumeration sets the position and size that the pins gave, and the
cascade is up when it is a cascade of one or the ring closed. The byte layout over which a word's CRC runs is the model's (log 110). Match tokens (R250, R251, R340): a token's segments are gathered and, with the last,
the request is served; a reply to an open token is noted with its FIND; once the wait has passed, the FIND completes without the replies
still missing. -/
def Obligations.CascadeAndMatchTokens : Prop :=
  (∀ s : State, s.working = true →
    (∀ c : CascadeWord, wordOk c = false → exec (.cascadeWord c) s = .next s) ∧
    (∀ (c : CascadeWord) o, wordOk c = true → s.dom 19 ≠ domOFF → c.origin = s.get SRCH.ENUM_STATUS.POSITION →
      s.srch.casc.find? (·.tag = c.tag) = some o → exec (.cascadeWord c) s = .next ((s.ownWord c).settleFind o.work) ∧
      (s.ownWord c).srch.casc = s.srch.casc.filter (·.tag ≠ c.tag) ∧
      (∀ w f, s.work o.work = some w → w.aux = .find f → ∃ (v : Work) (g : FindSt), (s.ownWord c).work o.work = some v ∧ v.aux = .find g ∧
        g.words = f.words.filter (· ≠ c.tag) ∧ g.flags = f.flags ||| (if c.halted then 4 else 0) ||| (if c.verifyMiss then 16 else 0) ∧
        (∀ h, c.hit = some h → g.remote = if beyondCursor w.d h then f.remote ++ [o.key :: h] else f.remote))) ∧
    (∀ c : CascadeWord, wordOk c = true → s.dom 19 ≠ domOFF → c.origin ≠ s.get SRCH.ENUM_STATUS.POSITION →
      (s.halted = true → exec (.cascadeWord c) s = .next { s with out := s.out ++ [.cascade (sealWord { c with halted := true })] }) ∧
      (s.halted = false → s.nsOn c.ns = false ∨ s.nsScope c.ns ≠ 1 →
        exec (.cascadeWord c) s = .next { s with out := s.out ++ [.cascade c] }) ∧
      (s.halted = false → s.nsOn c.ns = true → s.nsScope c.ns = 1 → ∃ (n : Tally) (c1 : CascadeWord),
        exec (.cascadeWord c) s = .next ((s.tally n).emit (.cascade (sealWord c1))) ∧ c1.origin = c.origin ∧ c1.tag = c.tag ∧ c1.ns = c.ns ∧
        c1.block = c.block ∧ c1.key = c.key ∧ c1.halted = c.halted ∧ (c.verifyMiss = true → c1.verifyMiss = true) ∧
        (c1.hit = c.hit ∨ ∃ h, c1.hit = some h ∧ h.head? = some (s.get SRCH.ENUM_STATUS.POSITION)))) ∧
    (∀ tag o, s.cascDue tag = true → s.srch.casc.find? (·.tag = tag) = some o →
      (o.again = false → exec (.cascadeWaitExpiry tag) s = .next ((s.setSrch fun x => { x with casc := x.casc.map fun y =>
        if y.tag = tag then { y with again := true, sent := s.stroke } else y }).emit (.cascade o.word))) ∧
      (o.again = true → ∃ t : State, exec (.cascadeWaitExpiry tag) s = .next (t.settleFind o.work) ∧
        t.srch.casc = s.srch.casc.filter (·.tag ≠ tag) ∧
        t.regs = (s.sat SRCH.RING_LOSSES.COUNT).regs)) ∧
    (s.phase = phCONFIGURE ∨ s.phase = phRELEASED → s.dom 19 = domRUNNING → ∀ u t : State,
      u = (if s.flag SRCH.ENUM_STATUS.ENUM_DONE then s else s.enumBanks) →
      t = (((u.put SRCH.ENUM_STATUS.DIES_LOCAL 15).put SRCH.ENUM_STATUS.ENUM_DONE 1).put SRCH.ENUM_STATUS.POSITION s.pw.casPos).put
        SRCH.ENUM_STATUS.SIZE_M1 s.pw.casSize →
      (∀ ring, s.pw.casSize = 0 ∨ (ring = true ∧ s.flag SRCH.ENUM_STATUS.CASCADE_INCOMPLETE = false) →
        exec (.enumDone ring) s = .next (t.put SRCH.ENUM_STATUS.CASCADE_UP 1)) ∧
      (∀ ring, s.pw.casSize ≠ 0 → ring = false ∨ s.flag SRCH.ENUM_STATUS.CASCADE_INCOMPLETE = true → exec (.enumDone ring) s = .next t)) ∧
    (s.phase = phCONFIGURE ∨ s.phase = phRELEASED → s.dom 19 ≠ domOFF → s.flag SRCH.ENUM_STATUS.CASCADE_UP = false → s.pw.casSize ≠ 0 →
      exec .cascadeEnumTimeout s = .next (s.put SRCH.ENUM_STATUS.CASCADE_INCOMPLETE 1)) ∧
    exec .cascadeDown s = .next (s.put SRCH.ENUM_STATUS.CASCADE_UP 0)) ∧
  (∀ (s t : State) (p : Nat) (f0 f : Frame),
    (s.Arrives p ftMATCH_TOKEN f0 f t → exec (.matchToken p f0) s = .next (t.takeToken f)) ∧
    (∀ x, s.Arrives p ftMATCH_REPLY f0 f t → t.txn f.xid = some x → exec (.matchReply p f0) s = .next ((t.takeReply f).settleFind x.work)) ∧
    (∀ work, s.working = true → s.pelDue work = true → exec (.pelotonWaitExpiry work) s = .next (s.pelExpire work)) ∧
    (∀ work w g, s.working = true → s.pelDue work = true → s.work work = some w → w.aux = .find g → w.phase ≠ 2 →
      ∃ v, (s.pelExpire work).work work = some v ∧ v.phase = 2) ∧
    (∀ work w g, s.work work = some w → w.aux = .find g → (s.pelDue work = true ↔ ∃ n, g.waitEnd = some n ∧ n < s.stroke)) ∧
    (∀ x, t.txn f.xid = some x → x.typ ≠ ftMATCH_TOKEN ∨ x.member ≠ f.src → t.takeReply f = t))

/-- The Brake and a bank's new width (R252, R255, R257): a sample shows the dies' temperatures and the hottest, and sets the step of the next
boundary; a reshape is refused with its cause or drains its bank into the sister bank, and then the width changes at the next boundary (a drain waits
while the sister has not the room: the model's choice, log 112); a shadow's tokens come back from the slot of its shadow sector, and the count of
those still missing follows. -/
def Obligations.BrakeAndReshape : Prop :=
  ∀ s : State, s.working = true →
    (∀ (temps : List Int) (hot : Int), s.dom 19 ≠ domOFF → hot = (temps.take 4).foldl max (-128) →
      ∃ t : State, exec (.brakeSample temps) s = .next t ∧ t.srch.brakeNext = some (brakeStep hot s.brakeNow) ∧
        (s.canonical = true → t.get SRCH.BRAKE_STATUS.HOTTEST_C = (hot % 256).toNat % 256) ∧ t.wk = s.wk ∧ t.out = s.out) ∧
    (∀ i w, s.canonical = true → s.writable = true → s.serving = true → (s.reg SRCH.BANK_SELECT.off).toNat = i → s.dom 19 ≠ domOFF →
      fieldGet (s.reg SRCH.BANK_CTRL.off i) 0 2 ≠ 0 → fieldGet (s.reg SRCH.BANK_CTRL.off i) 4 2 ≠ 0 →
      w = RegRow.rwBits ⟨SRCH.BANK_CTRL.off, 1, some SRCH.BANK_SELECT.off, [⟨0, 2, .rw, 1⟩, ⟨4, 2, .rw, 1⟩, ⟨8, 1, .w1s, 0⟩]⟩
        (s.reg SRCH.BANK_CTRL.off i) ||| BitVec.ofNat 32 (2 ^ 8) →
      (s.reshapeCause (instBank i) = 0 → exec .reshape s = .next (s.recorded (((s.put SRCH.BANK_STATUS.STATE 1 i).put
        SRCH.BANK_STATUS.REFUSE_CAUSE 0 i).setSrch fun x => { x with reshape := x.reshape ++ [(instBank i, fieldGet (s.reg SRCH.BANK_CTRL.off i) 4 2)] })
        SRCH.BANK_CTRL.off i w)) ∧
      (s.reshapeCause (instBank i) ≠ 0 → s.srch.reshape.any (·.1 = instBank i) = false → exec .reshape s =
        .next (s.recorded ((s.put SRCH.BANK_STATUS.REFUSE_CAUSE (s.reshapeCause (instBank i)) i).put SRCH.BANK_STATUS.STATE 3 i)
          SRCH.BANK_CTRL.off i w))) ∧
    (∀ bank r, s.srch.reshape.find? (·.1 = bank) = some r → s.halted = false → s.get SRCH.BANK_STATUS.STATE (bankInst bank) = 1 →
      (s.bankRoom (sisterOf bank) < s.bankValid bank → exec (.reshapeDrainDone bank) s = .next s) ∧
      (∀ es, s.bankValid bank ≤ s.bankRoom (sisterOf bank) →
        es = (s.srch.entries.filter fun e => e.addr / 2 ^ 14 = bank).mergeSort (fun a b => decide (a.addr ≤ b.addr)) →
        exec (.reshapeDrainDone bank) s = .next (((es.foldl (fun s e => s.moveEntry e) s).put SRCH.BANK_STATUS.STATE 2 (bankInst bank)).atBoundary
          (.bankWidth (bankInst bank) r.2)))) ∧
    (∀ e a, s.bankFree (sisterOf (e.addr / 2 ^ 14)) (s.bankUnits (sisterOf (e.addr / 2 ^ 14))) e.low = some a →
      (s.moveEntry e).srch.entries = s.srch.entries.map (fun y => if y.addr = e.addr then { y with addr := a } else y)) ∧
    (∀ entry e sec slot toks, s.srch.entries.find? (·.addr = entry) = some e → e.tokens = none → e.pend = some (sec, slot) →
      toks = (((kvFind s.flash.media sec).getD (zeros 4096)).drop (512 * slot)).take (4 * s.nsTokens e.ns) →
      exec (.shadowTokensRestored entry) s = .next (s.setSrch fun x => { x with entries := x.entries.map fun y =>
        if y.addr = entry then { y with tokens := some toks, pend := none } else y }).notePending)

/-- Constant sets (R264, R265, Table 11-4): a load in use, of a bad shape or without room fails with its cause; one accepted is LOADING until its
image has been read, which waits for the DRAM stacks (R56), and LOADED if every value is finite; an unload frees the set's room; while one set is loading no other command is taken. -/
def Obligations.ConstantSets : Prop :=
  ∀ (s : State) (k : Nat),
    (s.canonical = true → s.writable = true → s.serving = true → (s.reg CMPR.CONST_SELECT.off).toNat = k → s.gear.loading = none →
      (s.constUsers k ≠ 0 →
        exec .constLoad s = .next (s.recorded (s.put CMPR.CONST_STATUS.FAIL_CAUSE 5 k) CMPR.CONST_CTRL.off k 1#32) ∧
        exec .constUnload s = .next (s.recorded (s.put CMPR.CONST_STATUS.FAIL_CAUSE 5 k) CMPR.CONST_CTRL.off k 2#32)) ∧
      (s.constUsers k = 0 → exec .constUnload s = .next (s.recorded ((s.setConst k 0 0).setGear fun g =>
        { g with consts := g.consts.filter (·.set ≠ k) }) CMPR.CONST_CTRL.off k 2#32)) ∧
      (∀ u : State, s.constUsers k = 0 → u = s.setGear (fun g => { g with consts := g.consts.filter (·.set ≠ k) }) →
        (u.constShapeOk k = false → exec .constLoad s = .next (s.recorded (u.setConst k 3 3) CMPR.CONST_CTRL.off k 1#32)) ∧
        (u.constShapeOk k = true → u.constFree < u.constMib k → exec .constLoad s =
          .next (s.recorded (u.setConst k 3 1) CMPR.CONST_CTRL.off k 1#32)) ∧
        (u.constShapeOk k = true → u.constMib k ≤ u.constFree → exec .constLoad s =
          .next (s.recorded ((u.setConst k 1 0).setGear fun g => { g with loading := some k, consts := g.consts ++ [⟨k, [], u.constMib k⟩] })
            CMPR.CONST_CTRL.off k 1#32)))) ∧
    (s.canonical = true → s.writable = true → s.serving = true → s.gear.loading ≠ none →
      exec .constLoad s = .next (s.illegal 0 causeState CMPR.CONST_CTRL.off 1) ∧
      exec .constUnload s = .next (s.illegal 0 causeState CMPR.CONST_CTRL.off 2)) ∧
    (∀ image rn, s.working = true → s.gear.loading = some k → image = s.memRead (s.pair CMPR.CONST_ADDR_LO.off k) (s.constBytes k) →
      rn = s.get CMPR.CONST_SHAPE.SET_RANK k * (s.get CMPR.CONST_SHAPE.SET_WIDTH_DIV32 k * 32) →
      exec (.constLoadDone false) s = .next (((s.setConst k 3 2).setGear fun g => { g with loading := none }).setGear fun g =>
        { g with consts := g.consts.filter (·.set ≠ k) }) ∧
      (s.get SYS.DRAM_STATUS.TRAINED ≠ 0xFF → exec (.constLoadDone true) s = .next s) ∧
      (s.get SYS.DRAM_STATUS.TRAINED = 0xFF → constBad rn image = true → exec (.constLoadDone true) s = .next (((s.setConst k 3 4).setGear fun g => { g with loading := none }).setGear fun g =>
        { g with consts := g.consts.filter (·.set ≠ k) })) ∧
      (s.get SYS.DRAM_STATUS.TRAINED = 0xFF → constBad rn image = false → exec (.constLoadDone true) s = .next ((((s.setConst k 2 0).put CMPR.CONST_CHECK.CRC (crc32c image).toNat k).setGear fun g =>
        { g with loading := none }).setGear fun g => { g with consts := g.consts.map fun c => if c.set = k then { c with image := image } else c })))

/-! ### The gear slots' hooks, windows and readback (chapter 13) -/

/-- What the card hears from a slot (R305, R313, R318, R320): the answer to an open call is delivered; an answer on a hook that the design does
not implement, one without an open call, a call past its LATENCY and FAULT each fail the slot at once with its cause, and so does a mismatch found
by the scrub; a failed slot stands FAILED. A readback of a frame outside the slot answers no match; one inside waits its turn; every request waits
while the loader holds the port. The slot window and the bindings (R316, R321, R322): while the slot selected is ACTIVE or HELD a window read returns the
design's word, or 0 and a count when it does not answer in time, and a window write is passed on; in any other state a read returns 0 and a write
is refused, each counted. A binding is taken at the next boundary; one that names 8 to 14 is refused. -/
def Obligations.Slots : Prop :=
  (∀ s : State, s.working = true →
    (∀ n cause, s.canonical = true → n < 8 → (s.slotFails n cause).slotState n = 6) ∧
    (∀ slot hook tag last data, s.slotDrives slot = true →
      (s.implements slot hook = false → exec (.hookResponse slot hook tag last data) s = .next (s.slotFails slot 3)) ∧
      (s.implements slot hook = true → s.openCall slot hook (tag % 4096) = none →
        exec (.hookResponse slot hook tag last data) s = .next (s.slotFails slot 2)) ∧
      (∀ c, s.implements slot hook = true → s.openCall slot hook (tag % 4096) = some c →
        exec (.hookResponse slot hook tag last data) s = .next (s.deliver c last data) ∧
        exec (.hookLatencyTimeout slot hook tag) s = .next (s.slotFails slot 1)) ∧
      exec (.slotFaultAssert slot) s = .next (s.slotFails slot 4)) ∧
    (∀ slot frame, s.slotDrives slot = true →
      ((s.slotFrames slot).length ≤ frame → s.load ≠ ldAPPLYING → exec (.cfgRdReq slot frame) s = .next (s.emit (.cfgMatch slot false))) ∧
      (frame < (s.slotFrames slot).length ∨ s.load = ldAPPLYING →
        exec (.cfgRdReq slot frame) s = .next { s with gear := { s.gear with readback := s.gear.readback ++ [(slot, frame)] } })) ∧
    (∀ ok, s.load = ldAPPLYING → exec (.cfgReadbackDone ok) s = .next s) ∧
    (∀ ok n f, s.load ≠ ldAPPLYING → s.nextReadback = some (n, f) → ∃ (t : State) (data : List Byte),
      exec (.cfgReadbackDone ok) s = .next t ∧ t.gear.rbLast = n ∧ t.gear.readback = s.gear.readback.erase (n, f) ∧
      t.out = s.out ++ (if f < (s.slotFrames n).length then [.cfgData n data, .cfgMatch n ok] else [.cfgMatch n false]) ∧ (∀ b, ok = true → kvFind (s.slotFrames n) f = some b → data = b)) ∧
    (∀ n f, s.load ≠ ldAPPLYING → s.nextReadback = none → s.flag GEAR.SCRUB_CTRL.ENABLE = true → s.scrubAt = some (n, f) →
      exec (.cfgReadbackDone true) s = .next { s with gear := { s.gear with scrub := (n, f + 1) } } ∧
      exec (.cfgReadbackDone false) s = .next (State.slotFails { s with gear := { s.gear with scrub := (n, f + 1) } } n 5))) ∧
  (∀ (s : State) (n : Nat), s.canonical = true → s.writable = true → s.serving = true → s.get CLK.DOMAIN_STATUS.STATE 20 ≠ 2 →
    (∀ addr rdata, s.windowOn (s.get GEAR.SLOT_SELECT.SLOT) = true →
      exec (.slotWindow addr none rdata) s = .next (s.emit (.readReturn 0 (GEAR.SLOT_WINDOW.off + 4 * (addr % 256)) rdata)) ∧
      exec (.windowTimeout addr) s = .next ((s.sat GEAR.WINDOW_TIMEOUTS.COUNT).windowRead addr 0#32)) ∧
    (∀ addr rdata, s.windowOn (s.get GEAR.SLOT_SELECT.SLOT) = false →
      exec (.slotWindow addr none rdata) s = .next ((s.illegal 0 causeState (GEAR.SLOT_WINDOW.off + 4 * (addr % 256)) 0).emit
        (.readReturn 0 (GEAR.SLOT_WINDOW.off + 4 * (addr % 256)) 0#32))) ∧
    (∀ addr v rdata off, (s.reg GEAR.SLOT_SELECT.off).toNat = n → off = GEAR.SLOT_WINDOW.off + 4 * (addr % 256) →
      (s.windowOn n = true → exec (.slotWindow addr (some v) rdata) s = .next (s.recorded (s.setReg off v n) off n v)) ∧
      (s.windowOn n = false → exec (.slotWindow addr (some v) rdata) s = .next (s.illegal 0 causeState off v.toNat))) ∧
    (∀ val w : Word, (s.reg GEAR.TENANT_SELECT.off).toNat = n →
      w = fieldPut (fieldPut (fieldPut (fieldPut (s.reg GEAR.TENANT_BIND.off n) 0 4 (fieldGet val 0 4)) 4 4 (fieldGet val 4 4)) 8 4
        (fieldGet val 8 4)) 12 4 (fieldGet val 12 4) →
      ((∀ h < 4, fieldGet val (4 * h) 4 < 8 ∨ fieldGet val (4 * h) 4 = 15) → exec (.tenantBind val) s =
        .next (s.recorded ((s.setReg GEAR.TENANT_BIND.off w n).atBoundary (.live (regKey GEAR.TENANT_BIND.off n) w)) GEAR.TENANT_BIND.off n val)) ∧
      (∀ h < 4, fieldGet val (4 * h) 4 ≠ fieldGet (s.reg GEAR.TENANT_BIND.off n) (4 * h) 4 → 8 ≤ fieldGet val (4 * h) 4 →
        fieldGet val (4 * h) 4 ≤ 14 → exec (.tenantBind val) s = .next (s.illegal 0 causeState GEAR.TENANT_BIND.off val.toNat))))

/-! ### The Spoke and the peloton (chapter 14) -/

/-- What a hop does with any frame (R328 to R331): what its header acknowledges is taken; a sequenced frame out of order is answered with a NAK
and has no other effect; a frame for another member, and one of its own come round, goes on out of the other port of the pair, one hop fewer; of bytes
that are no frame, a broken header is discarded, a payload that breaks its CRC answered with a NAK, an unknown type counted, while the bytes
of every frame that the card sends keep both CRCs; what is not acknowledged in time is sent once more. HELLO and ACK are taken by the hop itself. -/
def Obligations.Hops : Prop :=
  ∀ (s : State) (p : Nat), s.working = true → s.ringPort p = true → s.linkUp p = true →
    (∀ f0 f, f = frameOf ftHELLO f0 → exec (.helloCmd p f0) s = .next ((s.takeAck p f).takeHello p f)) ∧
    (∀ f0 f, f = frameOf ftACK f0 → exec (.ackCmd p f0) s = .next (s.takeAck p f)) ∧
    (∀ c typ f0 f, frameRow c = some (p, typ, f0) → f = frameOf typ f0 →
      (sequenced typ = true → f.linkSeq ≠ seqNext ((s.takeAck p f).hop p).got → exec c s = .next ((s.takeAck p f).acknowledge p true 0 0)) ∧
      ((sequenced typ = true → f.linkSeq = seqNext ((s.takeAck p f).hop p).got) → f.dst ≠ s.me → f.dst ≠ 0xFF ∨ f.src = s.me →
        (f.src = s.me → s.memberState ≠ 1) →
        (0 < f.hops → exec c s = .next ((s.hopTook p typ f).forward p f)) ∧ (f.hops = 0 → exec c s = .next (s.hopTook p typ f)))) ∧
    (∀ hd pl, (headerBad hd = true ↔ hd.length < 32 ∨ leAt hd 28 4 ≠ (crc32c (hd.take 28)).toNat) ∧
      (headerBad hd = true → exec (.badFrame p hd pl) s = .next s) ∧
      (headerBad hd = false →
        (payloadBad hd pl = true → exec (.badFrame p hd pl) s = .next (s.acknowledge p true 0 0)) ∧
        (payloadBad hd pl = false → frameTypes.contains (leAt hd 0 1) = false →
          exec (.badFrame p hd pl) s = .next (s.sat SPOKE.BAD_FRAMES.COUNT)) ∧
        (payloadBad hd pl = false → frameTypes.contains (leAt hd 0 1) = true → exec (.badFrame p hd pl) s = .next s))) ∧
    (∀ f : Frame, f.units ≤ 257 → headerBad (f.bytes.take 32) = false ∧ payloadBad (f.bytes.take 32) (f.bytes.drop 32) = false) ∧
    ((s.hop p).replay = [] → exec (.replayTimeout p) s = .next s) ∧
    ((s.hop p).replay ≠ [] → ∃ t : State, exec (.replayTimeout p) s = .next t ∧ t.chain = s.chain ∧
      t.out = s.out ++ (s.hop p).replay.map (fun f => .chain p { f with ackSeq := (s.hop p).got }))

/-- Membership (R335 to R339): JOIN is accepted by a card that is not joining, a member or gone, and clears what an earlier join saw; it fails
with cause 1 after 2 s. A BEAT of this peloton puts its sender on the roster; a MARK gives a joining card the count, and the pacer's is judged by a
member unless it is more than 1,024 Strokes late: an offset beyond 1,000 ns, or a Stroke beyond the next, makes it leave, and the sixteenth in a row
within bounds locks it; a roster member that is not heard is lost, and a member that hears no MARK leaves, as on
LEAVE. BEATs go out at every 128th Stroke, HELLOs at every 1,024th, once. That JOIN and LEAVE stay 1 once written is the model's choice (log 85). -/
def Obligations.Membership : Prop :=
  ∀ (s : State) (p : Nat) (f0 f : Frame) (t : State),
    (s.Arrives p ftBEAT f0 f t →
      (f.b 0 4 ≠ (t.reg SPOKE.PELOTON_ID.off).toNat ∨ 32 ≤ f.src → exec (.beatCmd p f0) s = .next t) ∧
      (∀ u : State, f.b 0 4 = (t.reg SPOKE.PELOTON_ID.off).toNat → f.src < 32 →
        u = { t with chain := { t.chain with beats := kvSet t.chain.beats f.src t.stroke,
                                             running := t.chain.running || bits (f.b 8 1) 0 1 == 1 } } →
        (t.isMember = true → exec (.beatCmd p f0) s = .next (u.setRoster (u.roster ++ [f.src])).tryJoin) ∧
        (t.isMember = false → exec (.beatCmd p f0) s = .next u.tryJoin))) ∧
    (∀ off, s.Arrives p ftMARK f0 f t →
      (f.src ≠ t.get SPOKE.MEMBER_STATUS.PACER → t.memberState ≠ 1 ∨ t.chain.takeCount = false →
        exec (.markReceive p f0 off) s = .next t) ∧
      (t.memberState = 1 → t.chain.takeCount = true →
        exec (.markReceive p f0 off) s = .next ((t.takeCountFrom (f.b 0 6)).armFrom (f.b 19 1 % 128) (f.b 20 6)) ∧
        (t.takeCountFrom (f.b 0 6)).bnd.preset = some (f.b 0 6 + 1)) ∧
      (f.src = t.get SPOKE.MEMBER_STATUS.PACER → t.isMember = true →
        (f.b 0 6 + 1024 < t.stroke → exec (.markReceive p f0 off) s = .next t) ∧
        (t.stroke ≤ f.b 0 6 + 1024 →
          exec (.markReceive p f0 off) s = .next ((t.judgeMark (f.b 0 6) off (f.b 18 1 + 1)).armFrom (f.b 19 1 % 128) (f.b 20 6))))) ∧
    (∀ (n hops : Nat) (off : Int), (1000 < off.natAbs ∨ s.stroke + 1 < n → ∃ u : State, s.judgeMark n off hops = u.leave) ∧
      (s.canonical = true → off.natAbs ≤ 1000 → n ≤ s.stroke + 1 →
        (16 ≤ s.chain.marks + 1 → off.natAbs ≤ 200 + 20 * hops → (s.judgeMark n off hops).flag SYS.STROKE_STATUS.LOCKED = true) ∧
        (s.judgeMark n off hops).chain.marks = (if off.natAbs ≤ 200 + 20 * hops then s.chain.marks + 1 else 0))) ∧
    (s.working = true →
      (s.markDue = true → exec .markTimeout s = .next s.leave) ∧ (s.markDue = false → exec .markTimeout s = .next s) ∧
      (∀ m, (s.rosterDue m = true → exec (.rosterTimeout m) s = .next (s.loseMember m)) ∧
        (s.rosterDue m = false → exec (.rosterTimeout m) s = .next s)) ∧
      (s.joinDue = true → s.canonical = true → ∃ u : State, exec .joinTimeout s = .next u ∧ u.memberState = 3 ∧
        u.get SPOKE.MEMBER_STATUS.CAUSE = 1 ∧ u.chain = { s.chain with joinAt := none }) ∧
      (s.memberState = 1 ∨ s.memberState = 2 → s.stroke % 128 = 0 → s.chain.lastBeat ≠ some s.stroke → ∃ u : State,
        exec .beatSend s = .next u ∧ u.chain.lastBeat = some s.stroke ∧
        u = { s.sendTo 0 ftBEAT 0xFF 0 s.beatBytes with chain := { (s.sendTo 0 ftBEAT 0xFF 0 s.beatBytes).chain with lastBeat := some s.stroke } }) ∧
      (s.stroke % 128 ≠ 0 ∨ s.chain.lastBeat = some s.stroke → exec .beatSend s = .next s) ∧
      (s.stroke % 1024 = 0 → s.chain.lastHello ≠ some s.stroke → ∃ u v : State, exec .helloSend s = .next u ∧
        v = s.ringPorts.foldl (fun s p => if s.linkUp p then s.sayHello p 0 else s) s ∧
        u = { v with chain := { v.chain with lastHello := some s.stroke } }) ∧
      (s.stroke % 1024 ≠ 0 ∨ s.chain.lastHello = some s.stroke → exec .helloSend s = .next s)) ∧
    (∀ w : Word, s.canonical = true → s.writable = true →
      (s.phase = phCONFIGURE → w = fieldPut (fieldPut 0#32 0 5 s.me) 8 6 (s.get SPOKE.MEMBER_CTRL.EXPECTED) ||| 0x10000#32 →
        (0 < s.get SPOKE.MEMBER_CTRL.EXPECTED → s.get SPOKE.MEMBER_CTRL.EXPECTED ≤ 32 → s.memberState = 0 ∨ s.memberState = 3 → ∃ u : State,
          exec .joinCmd s = .next (s.recorded u.tryJoin SPOKE.MEMBER_CTRL.off 0 w) ∧
          u.memberState = 1 ∧ u.chain.joinAt = some s.stroke ∧ u.chain.beats = [] ∧ u.chain.helloOn = [] ∧ u.chain.takeCount = false ∧
          u.chain.running = false) ∧
        (s.memberState = 1 ∨ s.memberState = 2 ∨ s.memberState = 4 →
          exec .joinCmd s = .next (s.illegal 0 causeState SPOKE.MEMBER_CTRL.off w.toNat)) ∧
        (s.get SPOKE.MEMBER_CTRL.EXPECTED = 0 ∨ 32 < s.get SPOKE.MEMBER_CTRL.EXPECTED →
          exec .joinCmd s = .next (s.illegal 0 causeState SPOKE.MEMBER_CTRL.off w.toNat))) ∧
      (s.serving = true → 0 < s.get SPOKE.MEMBER_CTRL.EXPECTED → s.get SPOKE.MEMBER_CTRL.EXPECTED ≤ 32 →
        w = fieldPut (fieldPut 0#32 0 5 s.me) 8 6 (s.get SPOKE.MEMBER_CTRL.EXPECTED) ||| 0x20000#32 →
        (s.memberState = 1 ∨ s.memberState = 2 → exec .leaveCmd s =
          .next (s.recorded (s.put SPOKE.MEMBER_CTRL.LEAVE 1).leave SPOKE.MEMBER_CTRL.off 0 w)) ∧
        (s.memberState ≠ 1 → s.memberState ≠ 2 → exec .leaveCmd s =
          .next (s.recorded (s.put SPOKE.MEMBER_CTRL.LEAVE 1) SPOKE.MEMBER_CTRL.off 0 w))))

/-- What a RESHARD sends and gets (R334, R343, R344): a target member refuses an OPEN with the first failing condition and accepts else, keeping
the source's length for the switch; the last acceptance lets chunks start and a refusal ends the RESHARD. Segments are gathered and a whole page
staged; PLACED ends its page. A repeated XID is answered again and not acted on; an unanswered transaction is sent once more, and fails the second
time. -/
def Obligations.ReshardTransfers : Prop :=
  ∀ (s : State) (p : Nat) (f0 f : Frame) (t : State),
    (s.Arrives p ftRESHARD_OPEN f0 f t →
      (∀ y, (t.chain.seen.find? fun y => y.1 = f.src ∧ y.2.1 = f.xid) = some y →
        exec (.reshardOpen p f0) s = .next (y.2.2.foldl (fun s g => s.sendTo 0 g.typ f.src f.xid g.payload) t)) ∧
      (∀ c, (t.chain.seen.find? fun y => y.1 = f.src ∧ y.2.1 = f.xid) = none → t.openCause f = (c, none) →
        exec (.reshardOpen p f0) s = .next (t.answer f ftRESHARD_ANSWER (leBytes 1 c))) ∧
      (∀ c tid q pl, (t.chain.seen.find? fun y => y.1 = f.src ∧ y.2.1 = f.xid) = none → t.openCause f = (c, some (tid, q)) →
        pl = t.plan_ tid (f.b 6 4) → exec (.reshardOpen p f0) s = .next
          ((t.setPlan { pl with lens := kvSet pl.lens q.idx (max (f.b 10 4) ((kvFind pl.lens q.idx).getD 0)) }).answer f
            ftRESHARD_ANSWER (leBytes 1 c)))) ∧
    (s.Arrives p ftRESHARD_ANSWER f0 f t → ∀ x, t.txn f.xid = some x → x.typ = ftRESHARD_OPEN →
      (f.b 0 1 = 0 → exec (.reshardAnswer p f0) s = .next ((t.endTxn f.xid).updWork x.work fun w =>
        w.setResh fun r => { r with opening := r.opening.filter (·.1 ≠ f.xid) })) ∧
      (f.b 0 1 ≠ 0 → exec (.reshardAnswer p f0) s = .next (((t.endTxn f.xid).setChain fun c =>
        { c with txns := c.txns.filter fun y => ¬ (y.typ = ftRESHARD_OPEN ∧ y.work = x.work) }).latch x.work stPARTIAL dtTARGET_REFUSED 0))) ∧
    (s.Arrives p ftPAGE_SEG f0 f t →
      (∀ y, (t.chain.seen.find? fun y => y.1 = f.src ∧ y.2.1 = f.xid) = some y →
        exec (.pageSeg p f0) s = .next (y.2.2.foldl (fun s g => s.sendTo 0 g.typ f.src f.xid g.payload) t)) ∧
      ((t.chain.seen.find? fun y => y.1 = f.src ∧ y.2.1 = f.xid) = none → f.b 14 1 = 0 → f.b 15 1 = 1 → f.b 16 2 * 64 ≤ 16384 →
        (t.chain.segs.find? fun g => g.src == f.src && g.sid == f.b 0 4 && g.page == f.b 4 4 * 65536 + f.b 8 2) = none →
        exec (.pageSeg p f0) s = .next ((t.setChain fun c => { c with segs := c.segs.filter fun g =>
          !(g.src == f.src && g.sid == f.b 0 4 && g.page == f.b 4 4 * 65536 + f.b 8 2) }).stagePage f f.xid
            (padTo (f.b 16 2 * 64) (f.payload.drop 64)))) ∧
      ((t.chain.seen.find? fun y => y.1 = f.src ∧ y.2.1 = f.xid) = none → f.b 14 1 = 0 → 2 ≤ f.b 15 1 →
        (t.chain.segs.find? fun g => g.src == f.src && g.sid == f.b 0 4 && g.page == f.b 4 4 * 65536 + f.b 8 2) = none →
        ∃ u : State, exec (.pageSeg p f0) s = .next u ∧ u.sq = t.sq ∧ u.out = t.out ∧
          (⟨f.src, f.b 0 4, f.b 4 4 * 65536 + f.b 8 2, f.xid, f.b 15 1,
            [(0, padTo (min 16384 (f.b 16 2 * 64)) (f.payload.drop 64))]⟩ : SegBuf) ∈ u.chain.segs)) ∧
    (s.Arrives p ftPLACED f0 f t →
      (t.txn (f.b 0 4) = none → exec (.placed p f0) s = .next t) ∧
      (∀ x w pg, t.txn (f.b 0 4) = some x → x.typ = ftPAGE_SEG → t.work x.work = some w → w.resh.unplaced.find? (·.1 = f.b 0 4) = some pg →
        ∃ u : State, exec (.placed p f0) s = .next (u.settleReshard x.work) ∧
          u = (t.endTxn (f.b 0 4)).updWork x.work fun w => match w.resh.unplaced.find? (·.1 = f.b 0 4) with
            | none => w
            | some x => if w.run.any (·.idx = x.2.1) then w.setResh fun r => { r with unplaced := r.unplaced.filter (·.1 ≠ f.b 0 4) }
              else (w.setResh fun r => { r with unplaced := r.unplaced.filter (·.1 ≠ f.b 0 4) }).endAt x.2.1)) ∧
    (∀ xid x, s.working = true → s.txn xid = some x →
      (s.txnDue x = false → exec (.xferWaitExpiry xid) s = .next s) ∧
      (s.txnDue x = true → x.again = false → exec (.xferWaitExpiry xid) s = .next (s.resend x)) ∧
      (s.txnDue x = true → x.again = true →
        (x.typ = ftRESHARD_OPEN → exec (.xferWaitExpiry xid) s = .next (s.takeOpenAnswer x.xid 1)) ∧
        (x.typ = ftPAGE_SEG → exec (.xferWaitExpiry xid) s = .next ((s.endTxn x.xid).sendLost x.work x.member)) ∧
        (x.typ = ftEPOCH_COMMIT → exec (.xferWaitExpiry xid) s = .next ((s.endTxn x.xid).countAck x.work x.member 2)) ∧
        (x.typ = ftMIRROR_WRITE → exec (.xferWaitExpiry xid) s = .next ((s.endTxn x.xid).partnerLost)) ∧
        (x.typ = ftEPOCH_PREPARE → exec (.xferWaitExpiry xid) s = .next (s.endTxn x.xid))))

/-- The agreement of an epoch (R346): a PREPARE is recorded and answered as soon as the member is ready; the ADVANCE commits when every READY is
in by Stroke X − 2 and ends NOT_READY from Stroke X − 1 on; a COMMIT before Stroke X arms the switch for X, a late one for the next boundary,
counted; the acknowledgements say which; that one which says 0 counts as outcome 0 or 3 by a free value is the model's choice (log 132). -/
def Obligations.EpochAgreement : Prop :=
  ∀ (s : State) (p : Nat) (f0 f : Frame) (t : State),
    (s.Arrives p ftEPOCH_PREPARE f0 f t → (t.chain.seen.find? fun y => y.1 = f.src ∧ y.2.1 = f.xid) = none →
      (t.tenState (f.b 0 2) = 0 → exec (.epochPrepare p f0) s = .next t) ∧
      (∀ pl, t.tenState (f.b 0 2) ≠ 0 → pl = t.plan_ (f.b 0 2) (f.b 2 4) → exec (.epochPrepare p f0) s = .next
        (((t.noteXid f).setPlan { pl with asked := pl.asked ++ [(f.src, f.xid)], switchAt := f.b 6 6 }).sendReadies (f.b 0 2)))) ∧
    (∀ tid, s.working = true → exec (.epochReadySend tid) s = .next (s.sendReadies tid)) ∧
    (s.Arrives p ftEPOCH_READY f0 f t →
      (t.txn f.xid = none → exec (.epochReady p f0) s = .next t) ∧
      (∀ x, t.txn f.xid = some x → x.typ = ftEPOCH_PREPARE → exec (.epochReady p f0) s = .next ((t.endTxn f.xid).updWork x.work fun w =>
        w.setAdv fun a => { a with ready := a.ready.filter (· ≠ f.src) ++ [f.src] }))) ∧
    (∀ work w, s.working = true → s.work work = some w → w.phase = 1 → w.isAdvance = true → w.adv.committed = false →
      (w.allReady = true → s.stroke + 2 ≤ rsSwitch w.d → exec (.advanceReadyDeadline work) s = .next (s.sendCommits w)) ∧
      (rsSwitch w.d ≤ s.stroke + 1 → exec (.advanceReadyDeadline work) s = .next
        ((s.setChain fun c => { c with txns := c.txns.filter (·.work ≠ w.id) }).latch w.id stPARTIAL dtNOT_READY 0)) ∧
      (w.allReady = false → s.stroke + 1 < rsSwitch w.d → exec (.advanceReadyDeadline work) s = .next s)) ∧
    (∀ pl, s.Arrives p ftEPOCH_COMMIT f0 f t → (t.chain.seen.find? fun y => y.1 = f.src ∧ y.2.1 = f.xid) = none → pl = t.plan_ (f.b 0 2) (f.b 2 4) →
      (t.epochOf (f.b 0 2) = f.b 2 4 → exec (.epochCommit p f0) s = .next
        (t.answer f ftCOMMIT_ACK (leBytes 2 (f.b 0 2) ++ leBytes 4 (f.b 2 4) ++ leBytes 1 0))) ∧
      (t.epochOf (f.b 0 2) ≠ f.b 2 4 → t.stroke < pl.switchAt → exec (.epochCommit p f0) s = .next
        ((t.setPlan { pl with commit := some pl.switchAt }).answer f ftCOMMIT_ACK (leBytes 2 (f.b 0 2) ++ leBytes 4 (f.b 2 4) ++ leBytes 1 0))) ∧
      (t.epochOf (f.b 0 2) ≠ f.b 2 4 → pl.switchAt ≤ t.stroke → exec (.epochCommit p f0) s = .next
        (((t.setPlan { pl with commit := some (t.stroke + 1) }).sat SPOKE.LATE_SWITCHES.COUNT).answer f ftCOMMIT_ACK
          (leBytes 2 (f.b 0 2) ++ leBytes 4 (f.b 2 4) ++ leBytes 1 1)))) ∧
    (s.Arrives p ftCOMMIT_ACK f0 f t →
      (t.txn f.xid = none → exec (.commitAck p f0) s = .next t) ∧
      (bits (f.b 6 1) 0 1 = 1 → t.ackOutcome f = 1) ∧ (bits (f.b 6 1) 0 1 = 0 → t.ackOutcome f = 0 ∨ t.ackOutcome f = 3) ∧
      (∀ x u, t.txn f.xid = some x → x.typ = ftEPOCH_COMMIT → u = { t.endTxn f.xid with free := t.free + 1 } → exec (.commitAck p f0) s = .next
        ((u.updWork x.work fun w => w.setAdv fun a => { a with acked := kvSet a.acked f.src (t.ackOutcome f) }).settleAdvance x.work)))

/-- Links and Freewheels (R324, R325, R333, R349, R505): a port's laser is off in reset, in the phases ROM and FAULT and while its mode is OFF, and
then its link does not come up; a port that loses its link reads down and raises a LINK fault; a ring port holds its frames, and when LINK_HOLD runs
out they go the other way round; a link back to the same member within the hold replays, and any other begins a new hop. A closed pair whose modes
agree and are not OFF may be opened and an open one closed, each through its moving state; any other OPEN or CLOSE is refused. -/
def Obligations.LinksAndFreewheels : Prop :=
  ∀ s : State,
    (∀ p d, s.working = true → p < 8 → s.linkUp p = true → d = (s.put SPOKE.PORT_STATUS.LINK_UP 0 p).fault clsLINK p 0 →
      (s.portMode p = 2 → exec (.linkDown p) s = .next (d.setHop { d.hop p with held := some d.stroke })) ∧
      (s.portMode p = 1 → exec (.linkDown p) s = .next (d.portDown p)) ∧
      (s.portMode p ≠ 1 → s.portMode p ≠ 2 → exec (.linkDown p) s = .next d)) ∧
    (∀ p, s.working = true →
      (∀ t0, (s.hop p).held = some t0 → s.linkUp p = false → t0 + s.get SPOKE.LINK_HOLD.STROKES < s.stroke →
        exec (.linkHoldExpiry p) s = .next ((s.hop p).kept.foldl (fun s x => s.sendFrom (otherPort p) x.1 x.2)
          (s.setHop { freshHop p with member := (s.hop p).member }))) ∧
      ((s.hop p).held = none ∨ s.linkUp p = true → exec (.linkHoldExpiry p) s = .next s)) ∧
    (∀ p m, s.laserOn p = false → exec (.linkUp p m) s = .next s) ∧
    (∀ p, s.laserOn p = true ↔ s.pw.held = false ∧ s.phase ≠ phROM ∧ s.phase ≠ phFAULT ∧ s.portMode p ≠ 0) ∧
    (∀ p m u, s.working = true → p < 8 → s.linkUp p = false → s.pairState (p / 2) = 2 → s.laserOn p = true → u = s.put SPOKE.PORT_STATUS.LINK_UP 1 p →
      (s.portMode p ≠ 2 → exec (.linkUp p m) s = .next (u.portEvent 0x01 p 0)) ∧
      (s.portMode p = 2 → (u.hop p).held.isSome = true → (u.hop p).member = some m →
        exec (.linkUp p m) s = .next ((((u.setHop { u.hop p with held := none }).payOwed p).replayHop p).drainHop p)) ∧
      (∀ (keep : List (Option Nat × Frame)) (v : State), s.portMode p = 2 → (u.hop p).held = none ∨ (u.hop p).member ≠ some m →
        keep = (u.hop p).kept.filter (fun x => (u.hop p).member = some m ∨ (u.hop p).member ≠ some x.2.dst) ++ u.strandedAt (otherPort p) →
        v = (if u.strandedAt (otherPort p) = [] then u else u.setHop { u.hop (otherPort p) with queue := [] }) →
        exec (.linkUp p m) s = .next (((v.setHop { freshHop p with member := some m, queue := keep }).put SPOKE.PORT_STATUS.PARTNER m p).drainHop p))) ∧
    (∀ i, s.canonical = true → s.writable = true → s.serving = true → i < 4 →
      (s.pairState i = 0 → s.portMode (2 * i) = s.portMode (2 * i + 1) → s.portMode (2 * i) ≠ 0 →
        exec (.freewheelOpen i) s = .next (s.recorded (s.setPairSt i 1) SPOKE.FREEWHEEL_CTRL.off 0 (BitVec.ofNat 32 (2 ^ i)))) ∧
      (s.pairState i ≠ 0 ∨ s.portMode (2 * i) ≠ s.portMode (2 * i + 1) ∨ s.portMode (2 * i) = 0 →
        exec (.freewheelOpen i) s = .next (s.illegal 0 causeState SPOKE.FREEWHEEL_CTRL.off (2 ^ i))) ∧
      (s.pairState i = 2 → exec (.freewheelClose i) s =
        .next (s.recorded (((s.setPairSt i 3).loseLink (2 * i)).loseLink (2 * i + 1)) SPOKE.FREEWHEEL_CTRL.off 0 (BitVec.ofNat 32 (2 ^ (4 + i))))) ∧
      (s.pairState i ≠ 2 → exec (.freewheelClose i) s = .next (s.illegal 0 causeState SPOKE.FREEWHEEL_CTRL.off (2 ^ (4 + i)))) ∧
      (s.pairState i = 1 → ∃ u : State, exec (.freewheelSwitchDone i) s = .next u ∧ u.pairState i = 2 ∧ u.hmem = s.hmem ∧ u.out = s.out) ∧
      (s.pairState i = 3 → ∃ u : State, exec (.freewheelSwitchDone i) s = .next u ∧ u.pairState i = 0 ∧ u.hmem = s.hmem ∧ u.out = s.out))

/-! ### Remote access (chapter 15) -/

/-- Queue pairs and regions (R353 to R357, R374): a move that Table 15-3 allows, with the fields that it requires, is taken at the next boundary;
any other is refused. COMMIT of a FREE entry that keeps Table 15-2 reads the entry now and acts at the boundary; RELEASE needs a VALID one. -/
def Obligations.QueuePairsAndRegions : Prop :=
  ∀ (s : State) (q : Nat), s.canonical = true → s.writable = true → s.serving = true →
    (∀ st : Nat, moveAllowed st qpRESET = true ∧ (moveAllowed st qpINIT = true ↔ st = qpRESET) ∧ (moveAllowed st qpRTR = true ↔ st = qpINIT) ∧
      (moveAllowed st qpRTS = true ↔ st = qpRTR ∨ st = qpSQD) ∧ (moveAllowed st qpSQD = true ↔ st = qpRTS) ∧
      (moveAllowed st qpERR = true ↔ st = qpINIT ∨ st = qpRTR ∨ st = qpRTS ∨ st = qpSQD)) ∧
    (∀ c n, (c, n) ∈ [(Instr.qpReset, qpRESET), (.qpInit, qpINIT), (.qpRtr, qpRTR), (.qpRts, qpRTS), (.qpSqd, qpSQD), (.qpErr, qpERR)] →
      (s.reg RDMA.QP_SELECT.off).toNat = q →
      (moveAllowed (s.qpState q) n = true → s.moveFields q (s.qpState q) n = true →
        exec c s = .next (s.recorded (s.atBoundary (.qpMove q n)) RDMA.QP_CTRL.off q (BitVec.ofNat 32 n))) ∧
      (moveAllowed (s.qpState q) n = false ∨ s.moveFields q (s.qpState q) n = false →
        exec c s = .next (s.illegal 0 causeState RDMA.QP_CTRL.off n))) ∧
    ((s.reg RDMA.REGION_SELECT.off).toNat = q →
      (s.rgState q = 0 → (s.readEntry q).entryOk q = true →
        exec .commitCmd s = .next (s.recorded ((s.readEntry q).atBoundary (.regionCommit q)) RDMA.REGION_CTRL.off q 1#32)) ∧
      (s.rgState q ≠ 0 ∨ (s.readEntry q).entryOk q = false →
        exec .commitCmd s = .next (s.illegal 0 causeState RDMA.REGION_CTRL.off 1)) ∧
      (s.rgState q = 1 → exec .regionRelease s = .next (s.recorded (s.atBoundary (.regionRelease q)) RDMA.REGION_CTRL.off q 2#32)) ∧
      (s.rgState q ≠ 1 → exec .regionRelease s = .next (s.illegal 0 causeState RDMA.REGION_CTRL.off 2)))

/-- Host regions as the responder serves them (R350, R351, R362 to R365, R368, R370, R371): a packet of another source is counted and not answered; a CE
mark is answered with a CNP; a packet the QP's kind does not take gets an invalid-request NAK, unanswered in SQD; the payload goes through the port's
inbound buffer, which drops what it has no room for unless PFC is on; on a standard QP the PSN decides. A WRITE whose bytes lie in a VALID HOST region
that allows it places its payload there and nowhere else; one that does not gets an access NAK and writes nothing. A sprayed packet too far ahead is
dropped, one that came before is only counted; a FLUSH is answered when what precedes it is whole. How fast the buffer drains is a free value (log
133). -/
def Obligations.HostRegions : Prop :=
  ∀ (s u v : State) (port : Nat) (p : Packet) (q : Nat),
    (∀ c, c ∈ [Instr.rdmaWrite port p, .sprayWrite port p, .flush port p, .flushResponse port p, .rdmaAck port p, .sprayAck port p, .cnp port p] →
      (∀ t : State, s.packetFor port p = (t, none) → exec c s = .next t) ∧
      (s.working = true → s.portMode port = 1 → s.linkUp port = true → p.qpn = q + 0x100 → q < 16384 → p.icrcOk = true → p.udpDst = 4791 →
        s.ipAt RDMA.QP_REMOTE_IP.off q ≠ p.srcIp → exec c s = .next (s.sat RDMA.FOREIGN_PACKETS.COUNT))) ∧
    (s.packetFor port p = (s, some q) → s.qpState q = qpRTR ∨ s.qpState q = qpRTS ∨ s.qpState q = qpSQD →
      s.draining (s.pdOwner (s.qpPd q)) = false → u = (if p.ce then s.sendCnp q else s) →
      (∀ c ops spray, (c, ops, spray) ∈ [(Instr.rdmaWrite port p, [bthFirst, bthMiddle, bthLast, bthOnly], false),
          (.sprayWrite port p, [bthSpray], true), (.flush port p, [bthFlush], decide (0 < s.sprayPaths q))] →
        (ops.contains p.opcode = false ∨ spray ≠ decide (0 < s.sprayPaths q) ∨ (p.opcode = bthFlush ∧ (p.globalVis = false ∨ p.regionRange = false)) →
          (s.qpState q = qpSQD → exec c s = .next u) ∧ (s.qpState q ≠ qpSQD → exec c s = .next (u.nakInvalid q p.psn))) ∧
        (s.supported q p ops spray = true → u.bufferIn port q p.payload.length = (v, false) → exec c s = .next v)) ∧
      (u.rdma.held = [] → p.payload ≠ [] → p.payload.length ≤ 256 * 1024 → u.bufferIn port q p.payload.length =
        ({ u with rdma := { u.rdma with held := [(q, p.payload.length)] } }, true)) ∧
      (u.bufferIn port q p.payload.length = (v, true) →
        (s.sprayPaths q = 0 → [bthFirst, bthMiddle, bthLast, bthOnly].contains p.opcode = true →
          (p.psn = (v.qp q).rqPsn → exec (.rdmaWrite port p) s = .next (v.takeWrite q p)) ∧
          (p.psn ≠ (v.qp q).rqPsn → before24 p.psn (v.qp q).rqPsn = true →
            exec (.rdmaWrite port p) s = .next (v.respond q bthAck (add24 (v.qp q).rqPsn (2 ^ 24 - 1)) 0)) ∧
          (p.psn ≠ (v.qp q).rqPsn → before24 p.psn (v.qp q).rqPsn = false →
            exec (.rdmaWrite port p) s = .next (v.respond q bthAck (v.qp q).rqPsn 1))) ∧
        (0 < s.sprayPaths q → p.opcode = bthSpray → exec (.sprayWrite port p) s = .next (v.takeSpray q p)) ∧
        (p.opcode = bthFlush → p.globalVis = true → p.regionRange = true →
          (s.sprayPaths q = 0 → p.psn = (v.qp q).rqPsn →
            (v.hostRegion q p.rkey p.va p.length 1 false = none → exec (.flush port p) s = .next (v.nakAccess q p p.va)) ∧
            (∀ r, v.hostRegion q p.rkey p.va p.length 1 false = some r →
              (p.malformed = true → exec (.flush port p) s = .next (v.nakInvalid q p.psn)) ∧
              (p.malformed = false → exec (.flush port p) s = .next (((v.established q).setQp
                { (v.established q).qp q with rqPsn := add24 ((v.established q).qp q).rqPsn 1 }).respond q bthFlushResp p.psn 0)))) ∧
          (∀ r, 0 < s.sprayPaths q → v.hostRegion q p.rkey p.va p.length 1 false = some r → p.malformed = false →
            before24 p.psn ((v.established q).qp q).basePsn = false → ((v.established q).qp q).psns.contains p.psn = false →
            exec (.flush port p) s = .next (((v.established q).setQp
              ({ (v.established q).qp q with flushes := ((v.established q).qp q).flushes ++ [p.psn] }.mark p.psn)).answerFlushes q))))) ∧
    (∀ r a t, v.canonical = true → p.opcode = bthOnly → (v.qp q).inMsgs = [] → p.malformed = false → p.length = p.payload.length →
      p.payload ≠ [] → p.length ≤ v.qpMtu q → v.hostRegion q p.rkey p.va p.payload.length 0 false = some r → v.rgCounter r = 0 →
      a = v.rgBase r + p.va → t = v.takeWrite q p →
      (∀ k b, p.payload[k]? = some b → t.memByte (a + k) = b) ∧
      (∀ x, (∀ k < p.payload.length, hostAddr x ≠ hostAddr (a + k)) → t.memByte x = v.memByte x) ∧
      ∃ ack : Packet, t.out = v.out ++ [.packet (v.qpPort q) ack] ∧ ack.opcode = bthAck ∧ ack.psn = p.psn ∧ ack.syndrome = 0) ∧
    (p.opcode = bthOnly → (v.qp q).inMsgs = [] → v.hostRegion q p.rkey p.va p.payload.length 0 false = none →
      v.takeWrite q p = v.nakAccess q p p.va ∧ (v.nakAccess q p p.va).hmem = v.hmem) ∧
    (1024 ≤ (p.msn + 2 ^ 24 - (v.qp q).cumMsn) % 2 ^ 24 → before24 p.msn (v.qp q).cumMsn = false → v.takeSpray q p = v) ∧
    ((p.msn + 2 ^ 24 - (v.qp q).cumMsn) % 2 ^ 24 < 1024 → (v.qp q).psns.contains p.psn = true → v.takeSpray q p = v.countAcks q) ∧
    (s.working = true → s.qpState q = qpRTR ∨ s.qpState q = qpRTS ∨ s.qpState q = qpSQD → (s.qp q).unacked ≠ 0 →
      exec (.sprayAckSend q) s = .next (s.sendSprayAck q)) ∧
    ((s.qp q).unacked = 0 → exec (.sprayAckSend q) s = .next s)

/-- Answers to the requester, its timers and its rate (R356, R360, R361, R365, R367, R369, R371, R372): an acknowledgement ends what it covers, a PSN NAK
sends all again, any other NAK ends the QP with its cause, and a SPRAY_ACK on a standard QP gets an invalid-request NAK; a time-out sends again until
RETRY_COUNT is used up, a sprayed packet on its next path; a CNP that the QP takes cuts the rate and the rate timer raises it, never below MIN_RATE
nor above the port's; port events are raised on Ethernet ports only. -/
def Obligations.AnswersAndRates : Prop :=
  ∀ (s u : State) (port : Nat) (p : Packet) (q : Nat),
    (s.packetFor port p = (s, some q) → u = (if p.ce && s.takesPackets q then s.sendCnp q else s) →
      (u.takesAnswers q = false → exec (.rdmaAck port p) s = .next u ∧ (0 < u.sprayPaths q → exec (.sprayAck port p) s = .next u)) ∧
      (u.sprayPaths q = 0 →
        (u.takesPackets q = true → u.qpState q ≠ qpSQD → exec (.sprayAck port p) s = .next (u.nakInvalid q p.psn)) ∧
        (u.takesPackets q = false ∨ u.qpState q = qpSQD → exec (.sprayAck port p) s = .next u)) ∧
      (u.takesAnswers q = true →
        (p.syndrome = 0 → exec (.rdmaAck port p) s = .next (u.ackTo q p.psn)) ∧
        (p.syndrome = 1 → exec (.rdmaAck port p) s = .next ((u.ackTo q (add24 p.psn (2 ^ 24 - 1))).resendAll q)) ∧
        (2 ≤ p.syndrome → (u.qp q).flushOut.any (·.1 = p.psn) = false →
          exec (.rdmaAck port p) s = .next (u.enterErr q (if p.syndrome = 2 then 3 else if p.syndrome = 3 then 2 else 4))) ∧
        (2 ≤ p.syndrome → (u.qp q).flushOut.any (·.1 = p.psn) = true → exec (.rdmaAck port p) s = .next (u.enterErr q 4)) ∧
        (0 < u.sprayPaths q → ∃ x : Qp, exec (.sprayAck port p) s = .next (((u.setQp x).endMessages q).sayDrained q) ∧ x.qp = (u.qp q).qp ∧
          x.cumAck = (if before24 (u.qp q).cumAck p.msn then p.msn else (u.qp q).cumAck) ∧
          (∀ o ∈ x.out, o ∈ (u.qp q).out) ∧
          (∀ o ∈ (u.qp q).out, before24 o.psn p.basePsn = true → (u.qp q).flushOut.any (·.1 == o.psn) = false → o ∉ x.out))) ∧
      ((u.qp q).flushOut.find? (·.1 = p.psn) = none → exec (.flushResponse port p) s = .next u) ∧
      (∀ f, (u.qp q).flushOut.find? (·.1 = p.psn) = some f → u.takesAnswers q = true →
        (p.syndrome ≠ 0 → exec (.flushResponse port p) s = .next (u.enterErr q 4)) ∧
        (∀ v : State, ∀ fl out, p.syndrome = 0 → fl = (u.qp q).flushOut.filter (·.1 ≠ p.psn) → out = (u.qp q).out.filter (·.psn ≠ p.psn) →
          v = u.setQp { u.qp q with flushOut := fl, out := out } →
          exec (.flushResponse port p) s = .next ((((if 0 < u.sprayPaths q then v else v.ackTo q p.psn).updWork f.2.1 fun w =>
            { w with aux := .deliver w.deliverSt.1 w.deliverSt.2.1 (max w.deliverSt.2.2 f.2.2) }).settleDeliver f.2.1).sayDrained q))) ∧
      (s.takesPackets q = false → exec (.cnp port p) s = .next s) ∧
      (s.takesPackets q = true → exec (.cnp port p) s = .next ((s.sat RDMA.CNPS_RECEIVED.COUNT).setQp { s.qp q with
        target := (s.qp q).rate, raises := 0, bytes := 0
        rate := min portRate (max (1000 * s.get RDMA.CC_MIN_RATE.MBPS) ((s.qp q).rate * (2 ^ 21 - (s.qp q).alpha) / 2 ^ 21))
        alpha := ((1024 - s.get RDMA.CC_G.G_1024THS) * (s.qp q).alpha + s.get RDMA.CC_G.G_1024THS * 2 ^ 20) / 1024 }))) ∧
    (∀ mine, s.working = true → s.qpState q = qpRTS ∨ s.qpState q = qpSQD →
      mine = (s.qp q).out.filter (fun o => s.sprayPaths q == 0 || o.pkt.opcode == bthFlush) →
      (mine = [] → exec (.ackTimeout q) s = .next s) ∧
      (mine ≠ [] → s.get RDMA.QP_RETRY.RETRY_COUNT q ≤ (s.qp q).tries → exec (.ackTimeout q) s = .next (s.enterErr q 1)) ∧
      (mine ≠ [] → (s.qp q).tries < s.get RDMA.QP_RETRY.RETRY_COUNT q → exec (.ackTimeout q) s =
        .next (mine.foldl (fun s o => ((s.sendPacket q o.pkt).sat RDMA.RETRANSMITS.COUNT).countBytes q o.pkt.payload.length)
          (s.setQp { s.qp q with tries := (s.qp q).tries + 1 })))) ∧
    (∀ psn o, s.working = true → s.qpState q = qpRTS ∨ s.qpState q = qpSQD →
      (s.qp q).out.find? (fun o => o.psn = psn ∧ o.pkt.opcode = bthSpray) = some o →
      (s.get RDMA.QP_RETRY.RETRY_COUNT q ≤ o.tries → exec (.sprayTimeout q psn) s = .next (s.enterErr q 1)) ∧
      (∀ x v r path pkt out, o.tries < s.get RDMA.QP_RETRY.RETRY_COUNT q → r = kvSet (s.qp q).retired o.path (s.stroke + 1024) →
        path = Qp.pathFrom { s.qp q with retired := r } (s.sprayPaths q) → pkt = { o.pkt with path := path, udpSrc := s.udpSource q path } →
        out = (s.qp q).out.map (fun y => if y.psn = psn then { y with path := path, tries := y.tries + 1, pkt := pkt } else y) →
        x = { s.qp q with retired := r, nextPath := (path + 1) % max 1 (s.sprayPaths q), out := out } →
        v = (((s.setQp x).sendPacket q pkt).sat RDMA.RETRANSMITS.COUNT).countBytes q o.pkt.payload.length →
        (kvFind (s.qp q).retired o.path = none →
          exec (.sprayTimeout q psn) s = .next (v.rdmaEvent 0x13 0 (s.qpPort q) q 0 o.path (s.qpPd q))) ∧
        (kvFind (s.qp q).retired o.path ≠ none → exec (.sprayTimeout q psn) s = .next v))) ∧
    (∀ path e, s.working = true → kvFind (s.qp q).retired path = some e →
      (s.stroke < e → exec (.pathRestored q path) s = .next s) ∧
      (e ≤ s.stroke → exec (.pathRestored q path) s =
        .next ((s.setQp { s.qp q with retired := kvDel (s.qp q).retired path }).rdmaEvent 0x14 0 (s.qpPort q) q 0 path (s.qpPd q)))) ∧
    (s.working = true → s.qpState q ≠ qpRESET → exec (.rateTimer q) s = .next (s.setQp (Qp.raise
      { s.qp q with alpha := (1024 - s.get RDMA.CC_G.G_1024THS) * (s.qp q).alpha / 1024 } (1000 * s.get RDMA.CC_MIN_RATE.MBPS)
      (s.get RDMA.CC_RATES.ADD_RATE) (s.get RDMA.CC_RATES.HYPER_RATE)))) ∧
    (∀ (x : Qp) (floor add hyper : Nat), (x.raise floor add hyper).rate ≤ portRate ∧ (floor ≤ portRate → floor ≤ (x.raise floor add hyper).rate) ∧
      (x.raises < 5 → (x.raise floor add hyper).target = x.target)) ∧
    (s.working = true →
      (s.etherPort port = true → s.flag RDMA.PORT_CTRL.PFC_ON port = true → exec (.pfcStorm port) s = .next (s.portEvent 0x04 port 0)) ∧
      (s.etherPort port = false ∨ s.flag RDMA.PORT_CTRL.PFC_ON port = false → exec (.pfcStorm port) s = .next s) ∧
      (∀ n, s.etherPort port = true → s.get RDMA.FEC_LIMIT.COUNT < n → exec (.fecDegraded port n) s = .next (s.portEvent 0x03 port n)) ∧
      (∀ n, s.etherPort port = false ∨ n ≤ s.get RDMA.FEC_LIMIT.COUNT → exec (.fecDegraded port n) s = .next s))

/-! ### The shared pool (chapter 16) -/

/-- Lines of the pool (R375, R382, R384, R388 to R391, R398, R400): in FAULT every request is completed with poison; one with a feature of no row of
Table 16-1 is counted and not served; one of a HID without a slot is foreign; any other waits its turn behind those that came before it, and is dropped
from the queue when it is served, marked when it waits for a recall or a page. Table 16-5 says what a line in I, S or E does with each request; a set
without room recalls one entry first. An owner's writeback goes to memory and its line becomes I; a snoop response removes the holder or leaves it its
copy; a host that misses a snoop's time or sends viral fails. -/
def Obligations.PoolLines : Prop :=
  ∀ (s : State) (hid tag dpa slot : Nat) (data : List Byte),
    (∀ c kind d m mv how, (c, kind, d, m, mv) ∈ [(Instr.cxlReadNocache ⟨hid, how⟩ tag dpa, 0, ([] : List Byte), 0, 0),
        (.cxlSharedRead ⟨hid, how⟩ tag dpa, 1, [], 0, 0), (.cxlOwnershipRead ⟨hid, how⟩ tag dpa, 2, [], 0, 0)] ∨
        (c = .cxlWrite ⟨hid, how⟩ tag dpa d m mv ∧ kind = 3) → s.up = true → s.pw.cxlLink = true →
      (s.phase = phFAULT → ∃ load, exec c s =
        .next ((s.emit (.cxlResp (s.hidOf hid) tag [] true load 0)).sat POOL.POISONED_RESPONSES.COUNT)) ∧
      (s.phase ≠ phFAULT → how = .unsupported → exec c s = .next ((s.sat POOL.FOREIGN_REQUESTS.COUNT).refuseHost (s.hidOf hid) tag dpa
        (s.hostSlot (s.hidOf hid)) (decide (kind < 3)) false)) ∧
      (s.phase ≠ phFAULT → how ≠ .unsupported → s.hostSlot (s.hidOf hid) = none →
        exec c s = .next (s.foreign (s.hidOf hid) tag kind dpa none false)) ∧
      (∀ (q : PReq) (u : State), s.phase ≠ phFAULT → how ≠ .unsupported → s.hostSlot (s.hidOf hid) = some slot →
        q = ⟨kind, slot, tag, dpa, d, m, mv, s.stroke, false, false, decide (how = .bad), none, false⟩ →
        u = { s with pool := { s.pool with waiting := s.pool.waiting ++ [q] } } →
        exec c s = .next u.serveWaiting ∧
        (s.pool.waiting = [] → (∀ v, u.tryReq q = .served v → exec c s = .next (v.dropReq q).flushLines) ∧
          (∀ v, u.tryReq q = .given v → exec c s = .next (((v.dropReq q).put POOL.DIR_ROT.SLOT ((slot + 1) % 65)).flushLines)) ∧
          (∀ v, u.tryReq q = .balance v → exec c s = .next v.flushLines) ∧
          (∀ v hard victim, u.tryReq q = .line v hard victim → exec c s =
            .next (v.swapReq q { q with severe := hard, victim := victim, lined := true }).flushLines)))) ∧
    (∀ (q : PReq) (r x : Nat), x = lineOf q.dpa →
      (s.dirEnt x = none →
        s.directory r q 0 = .given (s.giveData r q 0) ∧
        (q.cur = false → s.directory r q 3 = .given (s.giveWrite r q)) ∧
        (s.dirRoom x = true → s.directory r q 1 = .given ((s.setDir x 1 [q.slot]).giveData r q 1) ∧
          s.directory r q 2 = .given ((s.setDir x 2 [q.slot]).giveData r q 2)) ∧
        (∀ t v, s.dirRoom x = false → q.victim = none → s.recallOldest x = (t, v) →
          s.directory r q 1 = .line t true v ∧ s.directory r q 2 = .line t true v)) ∧
      (∀ hs, s.dirEnt x = some hs → hs.st = 1 →
        s.directory r q 0 = .given ((s.setDir x 1 hs.holders).giveData r q 0) ∧
        ((hs.holders.filter (· ≠ q.slot)).length < 16 →
          s.directory r q 1 = .given ((s.setDir x 1 (hs.holders.filter (· ≠ q.slot) ++ [q.slot])).giveData r q 1)) ∧
        (16 ≤ (hs.holders.filter (· ≠ q.slot)).length →
          s.directory r q 1 = .line (s.snoopInv x (s.unlisted r (hs.holders.filter (· ≠ q.slot)))) false none) ∧
        (∀ g, g ∈ hs.holders → g ≠ q.slot →
          s.directory r q 2 = .line (s.snoopInv x (hs.holders.filter (· ≠ q.slot))) false none ∧
          s.directory r q 3 = .line (s.snoopInv x (hs.holders.filter (· ≠ q.slot))) false none) ∧
        (hs.holders = [q.slot] → s.directory r q 2 = .given ((s.setDir x 2 [q.slot]).giveData r q 2) ∧
          s.directory r q 3 = .given ((s.giveWrite r q).metaState q))) ∧
      (∀ hs g, s.dirEnt x = some hs → hs.st = 2 → hs.holders = [g] → g ≠ q.slot → q.cur = false →
        s.directory r q 0 = .line (s.snoop x g 0 0) false none ∧ s.directory r q 1 = .line (s.snoop x g 1 0) false none ∧
        s.directory r q 2 = .line (s.snoop x g 2 0) false none ∧ s.directory r q 3 = .line (s.snoop x g 2 0) false none) ∧
      (∀ hs, s.dirEnt x = some hs → hs.st = 2 → hs.holders = [q.slot] →
        s.directory r q 0 = .given ((s.setDir x 2 [q.slot]).giveData r q 0) ∧
        s.directory r q 1 = .given ((s.setDir x 1 [q.slot]).giveData r q 1) ∧
        s.directory r q 2 = .given ((s.setDir x 2 [q.slot]).giveData r q 2) ∧ s.directory r q 3 = .given ((s.giveWrite r q).metaState q))) ∧
    (∀ bad, s.up = true → s.pw.cxlLink = true →
      (∀ y, s.snoopOf hid (lineOf dpa) = some y → s.phase = phRELEASED →
        exec (.writeback hid dpa ⟨data, bad⟩) s = .next (s.takeData 4 y.slot dpa data bad).flushLines) ∧
      (∀ e r, s.snoopOf hid (lineOf dpa) = none → s.hostSlot hid = some slot → s.phase = phRELEASED → s.hostState slot = 1 →
        s.poolRegion dpa = some r → s.poolState r = 1 → s.accessOf r slot = 2 → s.dirEnt (lineOf dpa) = some e → e.st = 2 → e.holders = [slot] →
        exec (.writeback hid dpa ⟨data, bad⟩) s = .next (((s.takeData 4 slot dpa data bad).setDir (lineOf dpa) 1 []).serveWaiting)) ∧
      (s.phase ≠ phRELEASED ∨ (s.snoopOf hid (lineOf dpa) = none ∧ (s.hostSlot hid = none ∨
          (s.hostSlot hid = some slot ∧ s.ownerWrites slot dpa = false))) →
        exec (.writeback hid dpa ⟨data, bad⟩) s = exec (.cxlWrite ⟨hid, if bad then .bad else .plain⟩ 0 dpa data (2 ^ 64 - 1) 0) s)) ∧
    (∀ y keeps (bs : Option LineData) (v : State), s.snoopOf hid (lineOf dpa) = some y → s.up = true →
      v = (match bs with | none => s | some b => s.takeData 5 y.slot dpa b.bytes b.bad).afterSnoop y keeps →
      ∃ u : State, exec (.snoopResponse hid dpa bs keeps) s = .next ((u.drainEnd y.slot).serveWaiting) ∧
        u.pool.snoops = v.pool.snoops.filter (fun z => ¬ (z.slot = y.slot ∧ z.line = y.line)) ∧
        u.pool.dir = v.pool.dir ∧ u.regs = v.regs) ∧
    (∀ y e keeps, s.dirEnt y.line = some e →
      (y.kind = 0 → keeps = true → s.afterSnoop y keeps = s) ∧ (y.kind = 1 → keeps = true → s.afterSnoop y keeps = s.setDir y.line 1 e.holders) ∧
      (y.kind = 2 ∨ keeps = false → s.afterSnoop y keeps = s.setDir y.line e.st (e.holders.filter (· ≠ y.slot)))) ∧
    (∀ y, s.working = true → y ∈ s.pool.snoops → y.slot = slot → y.line = lineOf dpa →
      (y.sent + s.get POOL.BI_TIMEOUT.STROKES < s.stroke → exec (.biTimeout slot dpa) s = .next (s.failHost slot))) ∧
    ((∀ y ∈ s.pool.snoops, y.slot = slot → y.line = lineOf dpa → s.stroke ≤ y.sent + s.get POOL.BI_TIMEOUT.STROKES) →
      exec (.biTimeout slot dpa) s = .next s) ∧
    (s.working = true → (∀ n < 64, (s.hostState n = 1 ∨ s.hostState n = 2) ∧ s.hostHid n = s.hidOf hid ↔ n = slot) → slot < 64 →
      exec (.hostViral hid) s = .next (s.failHost slot)) ∧
    (s.up = true → exec .poolRequestServe s = .next s.serveWaiting ∧ (s.pool.waiting = [] → s.pool.mirNow = [] → s.serveWaiting = s))

/-- Regions and hosts of the pool (R378 to R381, R392, R405, R408): CREATE of a FREE region makes it, or refuses it with the first item that
fails; DESTROY needs a region that no host and no POOL_XFER uses, and ends FREE; TAKEOVER makes a STANDBY region ACTIVE once the partner is lost.
A host slot takes its HID at the next boundary, unless another enabled slot holds it; a draining slot recalls what its host still holds, and is FREE
when nothing is held and its last recall has ended; a release ends on the host's word or when its wait runs out. -/
def Obligations.PoolRegionsAndHosts : Prop :=
  ∀ (s : State) (r : Nat), s.canonical = true → s.writable = true → s.serving = true →
    ((s.reg POOL.REGION_SELECT.off).toNat = r →
      (s.poolState r = 0 → s.createCause r = 0 → exec .createCmd s = .next (s.recorded (s.createRegion r) POOL.REGION_CTRL.off r 1#32)) ∧
      (∀ t : State, s.poolState r = 0 → s.createCause r ≠ 0 → t = s.put POOL.REGION_STATUS.REFUSE_CAUSE (s.createCause r) r →
        exec .createCmd s = .next (s.recorded t POOL.REGION_CTRL.off r 1#32) ∧ t.poolState r = 0 ∧ t.pool = s.pool) ∧
      (s.poolState r ≠ 0 → exec .createCmd s = .next (s.illegal 0 causeState POOL.REGION_CTRL.off 1)) ∧
      (s.poolState r ≠ 0 → s.poolState r ≠ 4 → s.hostsOn r = false → s.xferOn r = false →
        (s.poolFlash r = false → exec .destroy s = .next (s.recorded (s.put POOL.REGION_STATUS.STATE 4 r) POOL.REGION_CTRL.off r 2#32)) ∧
        (s.poolFlash r = true → exec .destroy s = .next (s.recorded ((((s.put POOL.REGION_STATUS.STATE 4 r).logRaw (1024 + r) (recPoolRelease r)).flushAll
          (1024 + r)).reclaim) POOL.REGION_CTRL.off r 2#32))) ∧
      (s.poolState r = 0 ∨ s.poolState r = 4 ∨ s.hostsOn r = true ∨ s.xferOn r = true →
        exec .destroy s = .next (s.illegal 0 causeState POOL.REGION_CTRL.off 2)) ∧
      (∀ t : State, s.poolState r = 2 → s.flag POOL.TANDEM_STATUS.PARTNER_LOST = true →
        t = ((s.forgetLines r).put POOL.REGION_STATUS.STATE 1 r).put POOL.REGION_DEF.STANDBY 0 r →
        t.poolState r = 1 ∧
        (s.poolFlash r = false → exec .takeover s = .next (s.recorded t POOL.REGION_CTRL.off r 4#32)) ∧
        (s.poolFlash r = true → exec .takeover s = .next (s.recorded (t.logRaw (1024 + r) (t.defineRecord r false)) POOL.REGION_CTRL.off r 4#32))) ∧
      (s.poolState r ≠ 2 ∨ s.flag POOL.TANDEM_STATUS.PARTNER_LOST = false →
        exec .takeover s = .next (s.illegal 0 causeState POOL.REGION_CTRL.off 4))) ∧
    (s.poolState r = 4 → ∃ t u : State, exec (.destroyDone r) s = .next t ∧ t.poolState r = 0 ∧ t.mirState r = 0 ∧
      u = (if s.poolFlash r then (s.dropRegion r).eraseChain (1024 + r) else s.dropRegion r) ∧
      (∀ j ≠ r, t.poolState j = u.poolState j)) ∧
    (s.poolState r ≠ 4 → exec (.destroyDone r) s = .next s) ∧
    (∀ val w : Word, (s.reg POOL.HOST_SELECT.off).toNat = r →
      w = fieldPut (fieldPut (s.reg POOL.HOST_CTRL.off r) 0 12 (fieldGet val 0 12)) 31 1 (fieldGet val 31 1) →
      (fieldGet val 31 1 = 0 ∨ (∀ n < 64, n ≠ r → s.flag POOL.HOST_CTRL.ENABLE n = true → s.get POOL.HOST_CTRL.HID n ≠ fieldGet val 0 12) →
        exec (.hostCtrl val) s = .next (s.recorded ((s.setReg POOL.HOST_CTRL.off w r).atBoundary (.hostCtrl r w)) POOL.HOST_CTRL.off r val)) ∧
      (∀ n < 64, fieldGet val 31 1 = 1 → n ≠ r → s.flag POOL.HOST_CTRL.ENABLE n = true → s.get POOL.HOST_CTRL.HID n = fieldGet val 0 12 →
        exec (.hostCtrl val) s = .next (s.illegal 0 causeState POOL.HOST_CTRL.off val.toNat))) ∧
    (s.hostState r = 2 → (s.pool.snoops.any fun y => y.slot = r) = false → (s.pool.dir.any fun e => e.holders.contains r) = false →
      exec (.hostDrainDone r) s = .next (s.put POOL.HOST_STATUS.STATE 0 r)) ∧
    (s.hostState r = 2 → (s.pool.snoops.any fun y => y.slot = r) = true → (s.pool.dir.any fun e => e.holders.contains r) = false →
      exec (.hostDrainDone r) s = .next s) ∧
    (∀ lines, s.hostState r = 2 → lines = (s.pool.dir.filter fun e => e.holders.contains r).map (·.line) → lines ≠ [] →
      exec (.hostDrainDone r) s = .next ((lines.filter fun l => ¬ s.mirWaits l).foldl (fun s l => s.snoop l r 2 0) s)) ∧
    (s.hostState r ≠ 2 → exec (.hostDrainDone r) s = .next s) ∧
    (∀ slot c, c = .releaseWaitExpiry slot r ∧ s.releaseDue slot r = true ∨
        (∃ hid x, c = .dcReleaseAck hid r ∧ x.1 = slot ∧
          (s.pool.releasing.find? fun x => x.2.1 = r ∧ s.hostState x.1 ≠ 0 ∧ s.hostHid x.1 = s.hidOf hid) = some x) →
      (s.pool.releasing.any fun x => x.1 = slot ∧ x.2.1 = r) = true →
      ∃ t : State, exec c s = .next t ∧ t.regs = s.regs ∧ t.accessOf r slot = 0 ∧
        (∀ x ∈ t.pool.added, x ∈ s.pool.added ∧ ¬ (x.1 = slot ∧ x.2.1 = r)) ∧
        (∀ x ∈ t.pool.releasing, x ∈ s.pool.releasing ∧ ¬ (x.1 = slot ∧ x.2.1 = r)))

/-- The Tandem pair (R341, R401, R403 to R406): a MIRROR_WRITE of the partner that its memory can take is applied and answered with its outcome
(1 from a card that is not the partner, 2 for a region without a standby here), one that it cannot take yet waits, and a repeated one is answered
again. That it waits for training and, for a tenant's data, for the log scan is the model's choice (log 129). An acknowledgement with outcome 0
completes the host writes that wait for it, any other loses the partner. RESYNC makes the ACTIVE mirrored regions and the mirrored tenants SYNCING
and queues their pages and records, and each reads SYNC when its last copy is acknowledged. A KV takeover is refused with its cause, or runs, and
ends with the map of old and new sequence IDs in the host's memory and the mirror merged. -/
def Obligations.Tandem : Prop :=
  ∀ (s : State),
    (∀ p f0 f t, s.Arrives p ftMIRROR_WRITE f0 f t →
      (∀ y, (t.chain.seen.find? fun y => y.1 = f.src ∧ y.2.1 = f.xid) = some y →
        exec (.mirrorWrite p f0) s = .next (y.2.2.foldl (fun s g => s.sendTo 0 g.typ f.src f.xid g.payload) t)) ∧
      ((t.chain.seen.find? fun y => y.1 = f.src ∧ y.2.1 = f.xid) = none →
        (t.mirReady f = true → exec (.mirrorWrite p f0) s =
          .next ((t.applyMirror f).1.answer f ftMIRROR_ACK (padTo 64 (leBytes 4 f.xid ++ leBytes 1 (t.applyMirror f).2)))) ∧
        (t.mirReady f = false → exec (.mirrorWrite p f0) s =
          .next { t.noteXid f with pool := { t.pool with mirIn := t.pool.mirIn ++ [f] } })) ∧
      (t.mirReady f = true ↔ t.get SYS.DRAM_STATUS.TRAINED = 0xFF ∧ (f.b 0 1 = 1 ∨ f.b 0 1 = 2 ∨ t.flag TIER.LOG_SCAN_STATUS.DONE = true)) ∧
      (t.tandemOn = false ∨ f.src ≠ t.partner → t.applyMirror f = (t, 1)) ∧
      (t.tandemOn = true → f.src = t.partner →
        (f.b 0 1 = 1 ∨ f.b 0 1 = 2 → t.standbyOf (f.b 1 1) = none → t.applyMirror f = (t, 2)) ∧
        (∀ r a, f.b 0 1 = 1 → f.b 2 2 = 1 → t.standbyOf (f.b 1 1) = some r → a = t.poolBase r + f.b 64 8 →
          (t.poolBytes r < f.b 64 8 + 64 → t.applyMirror f = (t, 2)) ∧
          (f.b 64 8 + 64 ≤ t.poolBytes r → t.mirNewer (lineOf a) f = true →
            t.applyMirror f = ((t.stampLine (lineOf a) f).takeData 5 64 a ((padTo 192 f.payload).drop 128) false, 0))) ∧
        (f.b 0 1 = 3 ∨ f.b 0 1 = 4 → (t.applyMirror f).2 = 0))) ∧
    (∀ p f0 f t, s.Arrives p ftMIRROR_ACK f0 f t →
      (t.txn (f.b 0 4) = none → exec (.mirrorAck p f0) s = .next t) ∧
      (∀ x, t.txn (f.b 0 4) = some x → x.typ = ftMIRROR_WRITE → f.src = x.member →
        (f.b 4 1 ≠ 0 → exec (.mirrorAck p f0) s = .next (t.endTxn (f.b 0 4)).partnerLost) ∧
        (∀ u v : State, f.b 4 1 = 0 → u = ((t.endTxn (f.b 0 4)).pool.mirror.filter (·.xid = f.b 0 4)).foldl State.completeMirror (t.endTxn (f.b 0 4)) →
          v = { u with pool := { u.pool with mirror := u.pool.mirror.filter (·.xid ≠ f.b 0 4), copying := u.pool.copying.filter (·.1 ≠ f.b 0 4),
                                             kvSent := u.pool.kvSent.filter (·.1 ≠ f.b 0 4) } } →
          exec (.mirrorAck p f0) s =
            .next (((t.pool.copying.filter (·.1 = f.b 0 4)).foldl (fun s c => s.resyncEnd c.2.1 c.2.2) v).afterMirror)))) ∧
    (∀ m : MirWait, m.answers = true → s.phase ≠ phFAULT → ∃ load, s.completeMirror m = s.emit (.cxlResp (s.hostHid m.slot) m.tag [] false load 0)) ∧
    (s.canonical = true → s.writable = true → s.serving = true →
      (s.flag POOL.TANDEM_STATUS.SYNCING = true → exec .resync s = .next (s.illegal 0 causeState POOL.TANDEM_CTRL.off 1)) ∧
      (s.flag POOL.TANDEM_STATUS.SYNCING = false → ∃ t : State, exec .resync s = .next (s.recorded t POOL.TANDEM_CTRL.off 0 1#32) ∧
        t.pool.resync = (s.mirrorRegions.filter fun r => s.poolState r = 1).map (fun r => (false, r, 0)) ++ s.mirrorTenants.map (fun t => (true, t, 0)) ∧
        (∀ r, r ∈ s.mirrorRegions → s.poolState r = 1 → t.mirState r = 2) ∧ (∀ n ∈ s.mirrorTenants, t.get POOL.KV_MIRROR.STATE n = 2) ∧
        (t.flag POOL.TANDEM_STATUS.SYNCING = true ↔ s.mirrorTenants ≠ [] ∨ ∃ r ∈ s.mirrorRegions, s.poolState r = 1))) ∧
    (∀ tenant num st, s.working = true → st = (if tenant then s.get POOL.KV_MIRROR.STATE num else s.mirState num) →
      (st ≠ 2 ∨ (tenant = true ∧ (s.pool.kvOut.any fun k => k.copy ∧ k.tid = num) = true) ∨
          (s.pool.resync.any fun x => x.1 = tenant ∧ x.2.1 = num) = true ∨ (s.pool.copying.any fun x => x.2.1 = tenant ∧ x.2.2 = num) = true →
        exec (.resyncDone tenant num) s = .next s) ∧
      (∀ u : State, st = 2 → (tenant = true → (s.pool.kvOut.any fun k => k.copy ∧ k.tid = num) = false) →
        (s.pool.resync.any fun x => x.1 = tenant ∧ x.2.1 = num) = false →
        (s.pool.copying.any fun x => x.2.1 = tenant ∧ x.2.2 = num) = false →
        u = (if tenant then s.put POOL.KV_MIRROR.STATE 1 num else s.put POOL.REGION_STATUS.MIRROR_STATE 1 num) →
        exec (.resyncDone tenant num) s = .next (if (u.mirrorRegions.any (fun r => u.mirState r == 2) ||
          u.mirrorTenants.any fun t => u.get POOL.KV_MIRROR.STATE t == 2) then u else u.put POOL.TANDEM_STATUS.SYNCING 0))) ∧
    (∀ src member tgt w x, s.canonical = true → s.writable = true → s.serving = true → src = s.get POOL.TAKEOVER_KV.SOURCE_TID →
      member = s.get POOL.TAKEOVER_KV.SOURCE_MEMBER → tgt = s.get POOL.TAKEOVER_KV.TARGET_TID →
      w = fieldPut (fieldPut (fieldPut 0#32 0 10 src) 10 5 member) 16 10 tgt ||| 0x80000000#32 → x = s.mirrorReplay src member →
      (s.get POOL.TAKEOVER_STATUS.STATE = 1 → exec .takeoverKv s = .next (s.illegal 0 causeState POOL.TAKEOVER_KV.off w.toNat)) ∧
      (∀ cause, s.get POOL.TAKEOVER_STATUS.STATE ≠ 1 →
        cause = (if s.tenState tgt = 0 then 2 else if x.prot s.flash.media ∧ (kvFind s.part.keys tgt).isNone then 4
          else if s.keyDiffers x tgt = true then 5 else 0) →
        ∃ t : State, exec .takeoverKv s = .next (s.recorded t POOL.TAKEOVER_KV.off 0 w) ∧ t.get POOL.TAKEOVER_STATUS.FAIL_CAUSE = cause ∧
          (cause ≠ 0 → t.get POOL.TAKEOVER_STATUS.STATE = 3 ∧ t.pool = s.pool) ∧
          (cause = 0 → t.get POOL.TAKEOVER_STATUS.STATE = 1 ∧ t.pool = { s.pool with takeover := some (src, member, tgt) }))) ∧
    (s.pool.takeover = none → exec .takeoverKvDone s = .next s) ∧
    (∀ src m tgt, s.canonical = true → s.working = true → s.pool.takeover = some (src, m, tgt) → ∀ (i : Nat) (x : Replay) (u v : State) (map : List (Nat × Seq)),
      i = 1280 + src → x = (s.flushAll i).mirrorReplay src m → (s.flushAll i).replayInto tgt x true = (u, map) →
      v = (map.foldl (fun s y => (s.logRebuilt y.2).logEntries y.2 y.1 x) u).memWrite (s.pair POOL.TAKEOVER_MAP_LO.off)
        (map.flatMap fun y => leBytes 4 y.1 ++ leBytes 4 y.2.sid) →
      (s.get SYS.DRAM_STATUS.TRAINED ≠ 0xFF ∨ s.flag TIER.LOG_SCAN_STATUS.DONE = false → exec .takeoverKvDone s = .next s) ∧
      (s.get SYS.DRAM_STATUS.TRAINED = 0xFF → s.flag TIER.LOG_SCAN_STATUS.DONE = true → ∃ t : State, exec .takeoverKvDone s = .next t ∧
        t.hmem = v.hmem ∧ t.get POOL.TAKEOVER_STATUS.STATE = 2 ∧ t.get POOL.TAKEOVER_STATUS.SEQUENCES = map.length % 2 ^ 24 ∧
        t.pool.takeover = none ∧ (x.kvdef.isSome = true → ∀ y ∈ t.pool.kvPages, y.1 ≠ src) ∧
        (x.kvdef.isSome = false → t.sq = v.sq ∧ t.flash = v.flash)))

/-! ### Partitions, tenants and keys (chapter 17) -/

/-- Partitions and tenants (R409 to R411, R414, R427, R430 to R432): a CREATE of a free number and a DESTROY of a partition that nothing uses are taken
and act at the next boundary, which makes the one CREATED with every budget 0 and the other FREE; a DESTROY of one in use does nothing, and number 0 is
refused. A tenant's CREATE is refused with its cause unless its partition exists and its caps are in range; the boundary makes the tenant ACTIVE with
its partition and caps live and SEQ_CAP 0. A DESTROY of an ACTIVE tenant that owns nothing, a RESET of an ACTIVE tenant and an FLR of its VF start its
drain: the tenant reads RESETTING, or DESTROYING, none of its rings fetches, and each of its descriptors is turned; a RESET of any other tenant is
refused, and a drain under way is not started again. At the drain's expiry, and not before, what still runs is ended. -/
def Obligations.TenantsAndPartitions : Prop :=
  ∀ (s : State) (p t : Nat), s.canonical = true → s.writable = true → s.serving = true →
    (s.reg PART.PARTITION_SELECT.off).toNat = p → (s.reg PART.TENANT_SELECT.off).toNat = t →
    ((p ≠ 0 → s.partCreated p = false →
        exec .partitionCreate s = .next (s.recorded (s.atBoundary (.partCreate p)) PART.PARTITION_CTRL.off p 1#32)) ∧
      (p = 0 ∨ s.partCreated p = true → exec .partitionCreate s = .next (s.illegal 0 causeState PART.PARTITION_CTRL.off 1)) ∧
      (p ≠ 0 → s.partCreated p = true → s.partInUse p = false →
        exec .partitionDestroy s = .next (s.recorded (s.atBoundary (.partDestroy p)) PART.PARTITION_CTRL.off p 2#32)) ∧
      (p ≠ 0 → s.partCreated p = false ∨ s.partInUse p = true → exec .partitionDestroy s = .next (s.recorded s PART.PARTITION_CTRL.off p 2#32)) ∧
      (p = 0 → exec .partitionDestroy s = .next (s.illegal 0 causeState PART.PARTITION_CTRL.off 2))) ∧
    (∀ u v : State, u.canonical = true → p < 128 →
      (v = u.actNow (.partCreate p) → v.partCreated p = true ∧ p ∈ v.parts ∧ v.shadow p = Res6.zero ∧ v.budget p = Res6.zero) ∧
      (v = u.actNow (.partDestroy p) → u.partInUse p = false →
        v.partCreated p = false ∧ p ∉ v.parts ∧ v.shadow p = Res6.zero ∧ v.budget p = Res6.zero) ∧
      (u.partInUse p = true → u.actNow (.partDestroy p) = u)) ∧
    (∀ cause, cause = (if s.partCreated (s.get PART.TENANT_PARTITION.NEXT t) = false then 2 else if s.capsOk t = false then 3 else 0) →
      (t ≠ 0 → s.tenState t = 0 → cause ≠ 0 →
        exec .tenantCreate s = .next (s.recorded (s.put PART.TENANT_STATUS.REFUSE_CAUSE cause t) PART.TENANT_CTRL.off t 1#32)) ∧
      (t ≠ 0 → s.tenState t = 0 → cause = 0 → exec .tenantCreate s =
        .next (s.recorded ((s.put PART.TENANT_STATUS.REFUSE_CAUSE 0 t).atBoundary (.tenantCreate t)) PART.TENANT_CTRL.off t 1#32)) ∧
      (t = 0 ∨ s.tenState t ≠ 0 → exec .tenantCreate s = .next (s.illegal 0 causeState PART.TENANT_CTRL.off 1))) ∧
    (∀ u v : State, u.canonical = true → 0 < t → t < 1024 → u.tenState t = 0 → u.createFail t = 0 → v = u.actNow (.tenantCreate t) →
      v.tenState t = 1 ∧ v.partOf t = u.get PART.TENANT_PARTITION.NEXT t ∧ v.liveReg PART.TENANT_CAPS.off t = u.reg PART.TENANT_CAPS.off t ∧
        v.get XLAT.SEQ_CAP.CAP t = 0) ∧
    (∀ cause, cause = (if s.tenState t ≠ 1 then 1 else if s.mayDestroy t = false then 4 else 0) →
      (t ≠ 0 → cause ≠ 0 →
        exec .tenantDestroy s = .next (s.recorded (s.put PART.TENANT_STATUS.REFUSE_CAUSE cause t) PART.TENANT_CTRL.off t 2#32)) ∧
      (t ≠ 0 → cause = 0 → exec .tenantDestroy s =
        .next (s.recorded ((s.put PART.TENANT_STATUS.REFUSE_CAUSE 0 t).startReset t false true) PART.TENANT_CTRL.off t 2#32)) ∧
      (t = 0 → exec .tenantDestroy s = .next (s.illegal 0 causeState PART.TENANT_CTRL.off 2))) ∧
    ((t ≠ 0 → s.tenState t = 1 → exec .tenantReset s = .next (s.recorded (s.startReset t false false) PART.TENANT_CTRL.off t 4#32)) ∧
      (t = 0 ∨ s.tenState t ≠ 1 → exec .tenantReset s = .next (s.illegal 0 causeState PART.TENANT_CTRL.off 4))) ∧
    (∀ (n : Nat) (flr gone : Bool), (s.draining n = true → s.startReset n flr gone = s) ∧
      (s.draining n = false → ∃ u : State, u.tenState n = (if gone then 3 else 2) ∧ u.draining n = true ∧ u.wk = s.wk ∧
        (∀ x ∈ u.ring.sq, x.1 / 8 = n → x.2.inFetch = 0) ∧
        s.startReset n flr gone = (((s.wk.works.filter (·.d.tid = n)).map (·.id)).foldl (fun v id => v.resetWork id flr) u).sameCycle
          s.wk.latched.length)) ∧
    (∀ vf tid clear, 0 < vf → vf < 1024 → tid = s.get FN.VF_BIND.TID vf → clear = { s with msix := s.msix.filter fun c => c.1 / 2 ^ 16 ≠ vf } →
      (tid = 0 ∨ s.tenState tid ≠ 1 → exec (.flrVf vf) s = .next clear) ∧
      (tid ≠ 0 → s.tenState tid = 1 → exec (.flrVf vf) s =
        .next ({ clear with part := { clear.part with vfCrs := clear.part.vfCrs ++ [vf] } }.startReset tid true false))) ∧
    (∀ tid, s.working = true →
      ((∃ d ∈ s.part.drains, d.tid = tid ∧ d.since + s.get PART.RESET_DRAIN.STROKES ≤ s.stroke) →
        exec (.resetDrainExpiry tid) s = .next (s.expireDrain tid)) ∧
      ((∀ d ∈ s.part.drains, d.tid = tid → s.stroke < d.since + s.get PART.RESET_DRAIN.STROKES) →
        exec (.resetDrainExpiry tid) s = .next s))

/-- A tenant's key (R417, R420): LOAD takes the 64 bytes held and zeroes KEY_DATA, and refuses with a cause a tenant that is not ACTIVE, one whose
key is loaded, equal halves and a half of zeros; CLEAR is refused while protected data or an action needs the key, else the key is gone. -/
def Obligations.TenantKeys : Prop :=
  ∀ (s : State) (t : Nat), s.canonical = true → s.writable = true → s.serving = true → (s.reg PART.TENANT_SELECT.off).toNat = t → t ≠ 0 →
    (∀ k cause, k = s.keyData t →
      cause = (if s.tenState t ≠ 1 then 1 else if kvFind s.part.keys t ≠ none then 2 else if k.take 32 = k.drop 32 then 3
        else if k.take 32 = zeros 32 ∨ k.drop 32 = zeros 32 then 4 else 0) →
      ∃ u : State, exec .keyLoad s = .next (s.recorded u PART.KEY_CTRL.off t 1#32) ∧
        u.get PART.KEY_STATUS.REFUSE_CAUSE t = cause ∧ (∀ i < 16, u.reg (PART.KEY_DATA.off + 4 * i) t = 0#32) ∧
        (cause ≠ 0 → u.part = s.part) ∧
        (cause = 0 → kvFind u.part.keys t = some k ∧ u.get PART.KEY_STATUS.LOADED t = 1 ∧ u.reg PART.KEY_KCV.off t = BitVec.ofNat 32 (kcv k))) ∧
    (s.keyNeeded t = true → exec .keyClear s = .next (s.recorded (s.put PART.KEY_STATUS.REFUSE_CAUSE 5 t) PART.KEY_CTRL.off t 2#32)) ∧
    (s.keyNeeded t = false → ∃ u : State, exec .keyClear s = .next (s.recorded u PART.KEY_CTRL.off t 2#32) ∧
      u.part = { s.part with keys := kvDel s.part.keys t } ∧ u.get PART.KEY_STATUS.LOADED t = 0 ∧ u.reg PART.KEY_KCV.off t = 0#32)

/-! ### Clock domains (chapter 18) -/

/-- Stops and starts of clocks (R439 to R443): STOP of a RUNNING Spoke, Sprocket or Gear fabric that nothing uses turns it OFF, START of an OFF
one begins its start, and the PLL's lock ends it; any other is refused. With automatic gating on and nothing outstanding the flash clock is gated.
An overrun of a crossing sets the crossing's bit and is counted. -/
def Obligations.DomainStopsAndStarts : Prop :=
  ∀ (s : State) (d : Nat) (kept : Word),
    (s.canonical = true → s.writable = true → s.living = true → (s.reg CLK.DOMAIN_SELECT.off).toNat = d →
      kept = s.reg CLK.DOMAIN_CTRL.off d &&& 0x1C#32 →
      (11 ≤ d → d ≤ 20 → s.dom d = domRUNNING → s.stopOk d = true → exec .domainStop s =
        .next (s.recorded ((s.setDom d domOFF).put CLK.DOMAIN_STATUS.PLL_LOCKED 0 d) CLK.DOMAIN_CTRL.off d (kept ||| 1#32))) ∧
      (d < 11 ∨ 20 < d ∨ s.dom d ≠ domRUNNING ∨ s.stopOk d = false →
        exec .domainStop s = .next (s.illegal 0 causeState CLK.DOMAIN_CTRL.off (kept ||| 1#32).toNat)) ∧
      (11 ≤ d → d ≤ 20 → s.dom d = domOFF → exec .domainStart s =
        .next (s.recorded ((s.setDom d domSTARTING).put CLK.DOMAIN_STATUS.PLL_LOCKED 0 d) CLK.DOMAIN_CTRL.off d (kept ||| 2#32))) ∧
      (d < 11 ∨ 20 < d ∨ s.dom d ≠ domOFF →
        exec .domainStart s = .next (s.illegal 0 causeState CLK.DOMAIN_CTRL.off (kept ||| 2#32).toNat))) ∧
    (11 ≤ d → d ≤ 18 → (s.stopOk d = true ↔ s.get SPOKE.PORT_CTRL.MODE (d - 11) = 0 ∧ s.pairState ((d - 11) / 2) = 0)) ∧
    (s.stopOk 19 = true ↔ (∀ n < 4096, s.flag SRCH.NS_CTRL.ENABLE n = false) ∧ s.srch.entries = []) ∧
    (s.stopOk 20 = true ↔ (∀ n < 8, s.slotState n = 0 ∨ s.slotState n = 6) ∧
      ¬ ((s.load = ldHEADER_CHECK ∨ s.load = ldRECEIVING ∨ s.load = ldVERIFYING ∨ s.load = ldAPPLYING) ∧ leAt s.img.header 12 1 = 3)) ∧
    (s.up = true →
      (s.dom d = domSTARTING → exec (.domainRunning d) s = .next ((s.setDom d domRUNNING).put CLK.DOMAIN_STATUS.PLL_LOCKED 1 d)) ∧
      (s.dom d ≠ domSTARTING → exec (.domainRunning d) s = .next s) ∧
      (s.flag CLK.AUTO_GATE.FLASH = true → s.dom 10 = domRUNNING → s.tier.ops = [] → s.xingBusy 10 = false →
        exec .flashGate s = .next (s.setDom 10 domGATED)) ∧
      (s.flag CLK.AUTO_GATE.FLASH = false ∨ s.dom 10 ≠ domRUNNING ∨ s.tier.ops ≠ [] ∨ s.xingBusy 10 = true →
        exec .flashGate s = .next s) ∧
      (∀ c < 11, exec (.crossingOverrun c) s = .next ((s.setReg CLK.OVERRUN_STATUS.off
        (s.reg CLK.OVERRUN_STATUS.off ||| BitVec.ofNat 32 (2 ^ c))).sat CLK.OVERRUN_COUNT.COUNT 1 c)) ∧
      (∀ c, 11 ≤ c → exec (.crossingOverrun c) s = .next s))

/-- Isolation and resets of a domain (R444, R445, Table 18-5): ISOLATE of flash, a Spoke, the Sprocket or the Gear fabric isolates it while it
runs, and its clearing lets it run again; a RESET needs ISOLATE and a state that allows it, holds the domain in reset, and ends in a start; a
crossing reset of crossings that are not empty empties them, marks them dirty, and is a unit fault. -/
def Obligations.IsolationAndResets : Prop :=
  ∀ (s : State) (d : Nat) (old kept : Word), s.canonical = true → s.writable = true → s.living = true ∨ s.phase = phFAULT →
    (s.reg CLK.DOMAIN_SELECT.off).toNat = d → old = s.reg CLK.DOMAIN_CTRL.off d → kept = old &&& 0x1C#32 →
    (∀ u k b, b < 2 → (k, b) ∈ [(2, 0), (2, 1), (3, 0), (3, 1), (4, 0), (4, 1)] → u = s.setReg CLK.DOMAIN_CTRL.off (fieldPut old k 1 b) d →
      ∀ v, v = fieldPut kept k 1 b →
      ∀ c, c = (if k = 2 then Instr.isolate (b == 1) else if k = 3 then .domainReset (b == 1) else .xingReset (b == 1)) →
      (d < 10 ∨ 20 < d → fieldGet old k 1 ≠ b → exec c s = .next (s.illegal 0 causeState CLK.DOMAIN_CTRL.off v.toNat)) ∧
      (fieldGet old 2 1 = 0 → fieldGet old k 1 ≠ b → b = 1 → k ≠ 2 → exec c s = .next (s.illegal 0 causeState CLK.DOMAIN_CTRL.off v.toNat)) ∧
      (k = 2 → b = 0 → fieldGet old 2 1 = 1 → fieldGet old 3 1 = 1 ∨ fieldGet old 4 1 = 1 →
        exec c s = .next (s.illegal 0 causeState CLK.DOMAIN_CTRL.off v.toNat)) ∧
      (k = 3 → b = 1 → fieldGet old 3 1 = 0 → s.resetOk d = false → exec c s = .next (s.illegal 0 causeState CLK.DOMAIN_CTRL.off v.toNat)) ∧
      (10 ≤ d → d ≤ 20 →
        (k = 2 → b = 1 → fieldGet old 2 1 = 0 → fieldGet old 3 1 = 0 → fieldGet old 4 1 = 0 → s.dom d = domRUNNING ∨ s.dom d = domGATED →
          exec c s = .next (s.recorded (u.setDom d domISOLATED) CLK.DOMAIN_CTRL.off d v)) ∧
        (k = 2 → b = 0 → fieldGet old 2 1 = 1 → fieldGet old 3 1 = 0 → fieldGet old 4 1 = 0 → s.dom d = domISOLATED →
          exec c s = .next (s.recorded (u.setDom d domRUNNING) CLK.DOMAIN_CTRL.off d v)) ∧
        (∀ f, f = (fun t : State => ((((t.setReg CLK.XING_DIRTY.off (t.reg CLK.XING_DIRTY.off ||| BitVec.ofNat 32 (2 ^ d))).put
            CLK.XING_STATUS.IN_EMPTY 1 d).put CLK.XING_STATUS.OUT_EMPTY 1 d).fault clsUNIT d 0).event (some [0]) 0x40 (6 + d * 2 ^ 8)) →
          (k = 3 → b = 1 → fieldGet old 2 1 = 1 → fieldGet old 3 1 = 0 → s.resetOk d = true → s.dom d ≠ domOFF → exec c s =
            .next (s.recorded (if u.xingBusy d then f (u.setDom d domIN_RESET) else u.setDom d domIN_RESET) CLK.DOMAIN_CTRL.off d v)) ∧
          (k = 4 → b = 1 → fieldGet old 2 1 = 1 → fieldGet old 3 1 = 0 → fieldGet old 4 1 = 0 → s.dom d = domISOLATED → exec c s =
            .next (s.recorded (if u.xingBusy d then f u else u) CLK.DOMAIN_CTRL.off d v))) ∧
        (k = 3 → b = 0 → fieldGet old 3 1 = 1 → fieldGet old 2 1 = 1 → fieldGet old 4 1 = 0 → s.dom d = domIN_RESET →
          exec c s = .next (s.recorded (u.setDom d domSTARTING) CLK.DOMAIN_CTRL.off d v)) ∧
        (k = 4 → b = 0 → fieldGet old 4 1 = 1 → fieldGet old 2 1 = 1 → fieldGet old 3 1 = 0 → s.dom d = domISOLATED →
          exec c s = .next (s.recorded u CLK.DOMAIN_CTRL.off d v))))

/-! ### Watchdogs (chapter 19) -/

/-- Check-ins (R449 to R451): one of an enabled task inside the open window, with the period's number, sets its DONE bit, and with the last one
missing serves the period; one before the window is an expiry EARLY, one with another number BAD_SEQ, whatever the watchdog; one of a task that is
not enabled does nothing on the core's side and is refused on the host's. A unit that ends with an enabled task missing is an expiry TIMEOUT. -/
def Obligations.CheckIns : Prop :=
  ∀ (s : State) (task seq : Nat) (inWindow : Nat → Nat → Prop), (∀ p c, inWindow p c ↔ p - max 1 (p / 2 ^ Config.windowLog2) ≤ c ∧ c < p) →
    (s.up = true → s.scanOpen = false → ∀ late u, late = { s with wd := { s.wd with sys := { s.wd.sys with running := false } } } →
      u = s.put WDOG.SYS_TASKS.DONE (s.get WDOG.SYS_TASKS.DONE ||| 2 ^ task) →
      (s.wd.sys.running = false ∨ bits s.wd.sys.mask task 1 = 0 ∨ s.wd.sys.served = true → exec (.sysCheckin task seq) s = .next s) ∧
      (s.wd.sys.running = true → bits s.wd.sys.mask task 1 = 1 → s.wd.sys.served = false →
        (¬ inWindow s.wd.sys.period (s.get WDOG.SYS_STATUS.COUNT) → exec (.sysCheckin task seq) s =
          .next (late.expire false 2 0xFF s.sysMissing (s.get WDOG.SYS_TASKS.SEQ))) ∧
        (inWindow s.wd.sys.period (s.get WDOG.SYS_STATUS.COUNT) → seq ≠ s.get WDOG.SYS_TASKS.SEQ → exec (.sysCheckin task seq) s =
          .next (late.expire false 3 0xFF s.sysMissing (s.get WDOG.SYS_TASKS.SEQ))) ∧
        (inWindow s.wd.sys.period (s.get WDOG.SYS_STATUS.COUNT) → seq = s.get WDOG.SYS_TASKS.SEQ →
          (u.sysMissing ≠ 0 → exec (.sysCheckin task seq) s = .next u) ∧
          (u.sysMissing = 0 → exec (.sysCheckin task seq) s =
            .next { u with wd := { u.wd with sys := { u.wd.sys with served := true } } }))) ∧
      (s.wd.sys.running = true → s.wd.sys.served = false → s.sysMissing ≠ 0 → s.wd.sys.period ≤ s.get WDOG.SYS_STATUS.COUNT + 1 →
        exec (.watchdogTimeout false) s = .next (late.expire false 1 0xFF s.sysMissing (s.get WDOG.SYS_TASKS.SEQ)))) ∧
    (s.canonical = true → s.writable = true → s.living = true → s.scanOpen = false → ∀ val late u,
      late = { s with wd := { s.wd with host := { s.wd.host with running := false } } } →
      task = fieldGet val 0 3 → seq = fieldGet val 8 8 → u = s.put WDOG.HOST_STATUS.DONE (s.get WDOG.HOST_STATUS.DONE ||| 2 ^ task) →
      (s.wd.host.running = false ∨ bits s.wd.host.mask task 1 = 0 →
        exec (.hostCheckin val) s = .next (s.illegal 0 causeState WDOG.HOST_CHECKIN.off val.toNat)) ∧
      (s.wd.host.running = true → bits s.wd.host.mask task 1 = 1 → ∀ t,
        (s.wd.host.served = true → t = s.recorded s WDOG.HOST_CHECKIN.off 0 val) →
        (∀ r : State, s.wd.host.served = false → r = s.recorded s WDOG.HOST_CHECKIN.off 0 val →
          s.wd.host.starting = true ∨ ¬ inWindow s.wd.host.period (s.get WDOG.HOST_COUNT.COUNT) →
          t = State.expire { r with wd := { r.wd with host := { r.wd.host with running := false } } } true 2 0xFF r.hostMissing
            (r.get WDOG.HOST_STATUS.SEQ)) →
        (s.wd.host.served = false → s.wd.host.starting = false → inWindow s.wd.host.period (s.get WDOG.HOST_COUNT.COUNT) →
          (∀ r : State, seq ≠ s.get WDOG.HOST_STATUS.SEQ → r = s.recorded s WDOG.HOST_CHECKIN.off 0 val →
            t = State.expire { r with wd := { r.wd with host := { r.wd.host with running := false } } } true 3 0xFF r.hostMissing
              (r.get WDOG.HOST_STATUS.SEQ)) ∧
          (seq = s.get WDOG.HOST_STATUS.SEQ → (u.hostMissing ≠ 0 → t = s.recorded u WDOG.HOST_CHECKIN.off 0 val) ∧
            (u.hostMissing = 0 →
              t = s.recorded { u with wd := { u.wd with host := { u.wd.host with served := true } } } WDOG.HOST_CHECKIN.off 0 val))) →
        exec (.hostCheckin val) s = .next t) ∧
      (s.wd.host.running = true → s.wd.host.served = false → s.wd.host.starting = false → s.hostMissing ≠ 0 →
        s.wd.host.period ≤ s.get WDOG.HOST_COUNT.COUNT + 1 → exec (.watchdogTimeout true) s =
          .next (late.expire true 1 0xFF s.hostMissing (s.get WDOG.HOST_STATUS.SEQ))))

/-- The host-liveness watchdog turned on and off (R454 to R456): ENABLE with a task mask starts it and with none is refused; the two keys, the
second no more than a Stroke after the first, turn it off; any other key is refused and undoes the first, and POLICY.LOCK refuses both. -/
def Obligations.HostWatchdogSwitch : Prop :=
  ∀ (s : State) (key w : Word) (gone stopped started : State), s.canonical = true → s.pf0 = true → s.flag ROLE.AUDIT_POLICY.STRICT = false →
    gone = { s with wd := { s.wd with key1 := none } } →
    stopped = { gone with wd := { gone.wd with host := { gone.wd.host with running := false, served := false, starting := false } } } →
    started = { s with wd := { s.wd with host := ⟨true, s.get WDOG.HOST_PERIOD.UNITS, s.get WDOG.HOST_TASKS.MASK, false, true⟩ } } →
    (s.living = true → s.flag WDOG.POLICY.LOCK = false →
      (s.wd.key1 = none → fieldGet key 0 16 = 0x5D70 → exec (.hostDisable key) s =
        .next (s.recorded { s with wd := { s.wd with key1 := some s.stroke } } WDOG.HOST_DISABLE.off 0 key)) ∧
      (s.wd.key1 = none → fieldGet key 0 16 ≠ 0x5D70 →
        exec (.hostDisable key) s = .next (gone.illegal 0 causeState WDOG.HOST_DISABLE.off key.toNat)) ∧
      (∀ a, s.wd.key1 = some a →
        (fieldGet key 0 16 = 0xA28F → s.stroke ≤ a + 1 → exec (.hostDisable key) s = .next (s.recorded (((stopped.put WDOG.HOST_CTRL.ENABLE 0).put
          WDOG.HOST_COUNT.COUNT 0).setReg WDOG.HOST_STATUS.off 0#32) WDOG.HOST_DISABLE.off 0 key)) ∧
        (fieldGet key 0 16 ≠ 0xA28F ∨ a + 1 < s.stroke →
          exec (.hostDisable key) s = .next (gone.illegal 0 causeState WDOG.HOST_DISABLE.off key.toNat)))) ∧
    (s.flag WDOG.POLICY.LOCK = true →
      exec (.hostDisable key) s = .next (gone.illegal 0 causeLocked WDOG.HOST_DISABLE.off key.toNat)) ∧
    (s.wd.key1 = none → s.serving = true → w = (s.reg WDOG.HOST_CTRL.off &&& 6#32) ||| 1#32 →
      (s.get WDOG.HOST_TASKS.MASK ≠ 0 → s.flag WDOG.HOST_CTRL.ENABLE = false → exec .hostEnable s =
        .next (s.recorded (((started.put WDOG.HOST_CTRL.ENABLE 1).setReg WDOG.HOST_STATUS.off 1#32).put WDOG.HOST_COUNT.COUNT 0)
          WDOG.HOST_CTRL.off 0 w)) ∧
      (s.get WDOG.HOST_TASKS.MASK ≠ 0 → s.flag WDOG.HOST_CTRL.ENABLE = true →
        exec .hostEnable s = .next (s.recorded s WDOG.HOST_CTRL.off 0 w)) ∧
      (s.get WDOG.HOST_TASKS.MASK = 0 → exec .hostEnable s = .next (s.illegal 0 causeState WDOG.HOST_CTRL.off w.toNat)))

/-- Expiry and grace (R458 to R463, R466): a first expiry records its header, enters FAULT and starts the grace timer; a stopped clock of a
running domain is an expiry of the lowest such domain; the crystal's failure is reported without one; a power-down that reaches its limit enters
FAULT; the trap handler's end or the last tick of grace writes the crash save and resets the card. When the core clock stopped there is no handler
and no save; that the phase then stays is the model's choice (log 102). -/
def Obligations.ExpiryAndGrace : Prop :=
  ∀ s : State, s.canonical = true → s.pw.held = false →
    (∀ host cause domain missing seq t, s.wd.hdr = none → (host = true → s.flag WDOG.HOST_CTRL.ACTION = true → s.phase ≠ phRELEASED) →
      ¬ (cause = 4 ∧ domain = 0) → t = s.expire host cause domain missing seq →
      t.phase = phFAULT ∧ t.wd.hdr = some ⟨if host then 2 else 1, cause, domain, missing, s.phase, 0, seq, s.stroke⟩ ∧ t.wd.grace.isSome = true) ∧
    (s.up = true → s.scanOpen = false →
      (∀ stopped, (∀ d < 22, d ∈ stopped → s.get CLK.DOMAIN_STATUS.STATE d ≠ domRUNNING) → exec (.clockStopCheck stopped) s = .next s) ∧
      (∀ d, d < 22 → s.get CLK.DOMAIN_STATUS.STATE d = domRUNNING → exec (.clockStopCheck [d]) s =
        .next ((s.setReg WDOG.CLOCK_STATUS.off (s.reg WDOG.CLOCK_STATUS.off ||| BitVec.ofNat 32 (2 ^ d))).expire false 4 d s.sysMissing
          (s.get WDOG.SYS_TASKS.SEQ)))) ∧
    (s.up = true →
      (s.flag WDOG.CLOCK_STATUS.XTAL_FAIL = false → exec .xtalFail s =
        .next (((s.put WDOG.CLOCK_STATUS.XTAL_FAIL 1).fault clsRESOURCE 0 0).event (some [0]) 0x47 0)) ∧
      (s.flag WDOG.CLOCK_STATUS.XTAL_FAIL = true → exec .xtalFail s = .next s) ∧
      (∀ h n, s.wd.hdr = some h → s.wd.qlimit = some n →
        (n ≤ 1 → exec .quiesceLimitExpiry s =
          .next (({ s with wd := { s.wd with hdr := some { h with quiesce := 2 }, qlimit := none } }).expireNow false)) ∧
        (1 < n → exec .quiesceLimitExpiry s = .next s))) ∧
    (∀ log h n u head, s.wd.hdr = some h → s.wd.grace = some n → s.wd.coreStop = false →
      head = crashHeader h (log.take 61184).length (s.get SYS.FW_VERSION.VERSION) →
      u = (if s.crashBase = 0 then s else (s.memWrite (s.crashBase + 0x1100) (log.take 61184)).memWrite s.crashBase head) →
      (∃ t : State, exec (.crashDone log) s = .next t ∧ u.WipedTo t ∧ t.pw.causes = 16 ∧ t.pw.expiryNext = expiryWord h) ∧
      (log = [] → n ≤ 1 → ∃ t : State, exec .graceExpiry s = .next t ∧ u.WipedTo t ∧ t.pw.causes = 16 ∧ t.pw.expiryNext = expiryWord h) ∧
      (s.crashBase ≠ 0 → ∀ k b, head[k]? = some b → u.memByte (s.crashBase + k) = b)) ∧
    (∀ n, s.wd.grace = some n → 1 < n → exec .graceExpiry s = .next s) ∧
    (∀ log, s.wd.coreStop = true → exec (.crashDone log) s = .next s) ∧
    (∀ missing seq t, s.wd.hdr = none → t = s.expire false 4 0 missing seq → t.wd.coreStop = true ∧ t.wd.grace = some (s.get WDOG.GRACE.TICKS) ∧
      t.phase = s.phase ∧ t.hmem = s.hmem)

/-! ### Faults, observation, the physical card (chapters 20 and 22) -/

/-- Lost stacks and faulty units (R471 to R474): a trained stack that fails is marked, counted and reported, and everything on it meets Table
20-3; a second failure while tables are rebuilt, or one that leaves fewer than two stacks, enters FAULT. A unit's fault is counted and reported,
ends the chunk it served, and retires the unit; one beyond the limit of its kind enters FAULT. -/
def Obligations.StacksAndUnits : Prop :=
  ∀ s : State, s.working = true →
    (∀ k u, k < 8 → bits (s.get SYS.DRAM_STATUS.TRAINED) k 1 = 1 → bits (s.get ERR.STACK_STATUS.FAILED) k 1 = 0 → ∀ marked,
      marked = s.put ERR.STACK_STATUS.FAILED (s.get ERR.STACK_STATUS.FAILED ||| 2 ^ k) →
      u = (((marked.fault clsRESOURCE k 0).event none 0x41 k).stackFates k).sameCycle s.wk.latched.length → ∀ t,
      t = { u with err := { u.err with rebuilding := u.err.rebuilding ++ [k] } } →
      (s.err.rebuilding = [] → marked.stacksLost ≤ 6 → exec (.stackFailure k) s = .next t) ∧
      (s.err.rebuilding ≠ [] ∨ 6 < marked.stacksLost → exec (.stackFailure k) s = .next ((t.fault clsFATAL k 0).enterFault))) ∧
    (∀ k, 8 ≤ k ∨ bits (s.get SYS.DRAM_STATUS.TRAINED) k 1 = 0 ∨ bits (s.get ERR.STACK_STATUS.FAILED) k 1 = 1 →
      exec (.stackFailure k) s = .next s) ∧
    (∀ k, exec (.tableRebuildDone k) s = .next { s with err := { s.err with rebuilding := s.err.rebuilding.filter (· ≠ k) } }) ∧
    (∀ unit index work chunk tid info u, u = (s.fault clsUNIT (index % 256) info).event (some (0 :: if tid = 0 then [] else [tid])) 0x40
        (unitKind unit + index % 2 ^ 16 * 2 ^ 8) →
      (s.work work = none → tid = 0 → info = 0 → exec (.unitFault unit index work chunk) s = .next (u.retire unit index)) ∧
      (∀ w r, s.work work = some w → w.run.find? (·.idx = chunk) = some r → tid = w.d.tid → info = tidSidInfo w.d.tid w.d.sid →
        exec (.unitFault unit index work chunk) s =
          .next (((u.updWork w.id invalidated).cutRun w.id r dtUNIT_FAULT).retire unit index))) ∧
    (∀ (w : Work) a, w.aux = .attn a → (invalidated w).aux = .attn { a with valid := false }) ∧
    (∀ (u : State) unit f limit index, (unit, f, limit) ∈ [(RetireUnit.tile, ERR.UNIT_RETIRED.TILES, 16), (.lane, ERR.UNIT_RETIRED.LANES, 4),
        (.encoder, ERR.UNIT_RETIRED.ENCODERS, 4), (.decoder, ERR.UNIT_RETIRED.DECODERS, 16)] →
      (u.get f < limit → u.retire unit index = u.put f (u.get f + 1)) ∧
      (limit ≤ u.get f → u.retire unit index = (u.fault clsFATAL (index % 256) 0).enterFault))

/-- The observation window (R41, R479): START asks for a window from the next Stroke, STOP ends an open one, ARM sets one for a range, or counts
an empty window where the range holds no Stroke that is still to come; a STOP without an open window counts an empty one too, and an ARM is
refused while a window is pending or open. -/
def Obligations.ObservationWindow : Prop :=
  ∀ s : State, s.canonical = true → s.writable = true → s.living = true ∨ s.phase = phFAULT →
    (∀ t, (s.err.obs = .closed → s.err.obsEatStart = false → t = s.setObs .pendingStart) →
      (s.err.obs = .closed → s.err.obsEatStart = true → t = { s with err := { s.err with obsEatStart := false } }) →
      (s.err.obs ≠ .closed → t = s) → exec .obsStart s = .next (s.recorded t ERR.OBS_CTRL.off 0 1#32)) ∧
    (∀ t, (s.err.obs = .closed → t = { s.emptyWindow with err := { s.emptyWindow.err with obsEatStart := true } }) →
      (∀ e, s.err.obs = .open e → t = { s with err := { s.err with obsStop := true } }) →
      (s.err.obs = .pendingStart ∨ (∃ a e, s.err.obs = .armed a e) → t = s.emptyWindow) →
      exec .obsStop s = .next (s.recorded t ERR.OBS_CTRL.off 0 2#32)) ∧
    (∀ a e, a = max (s.pair ERR.OBS_START_LO.off) (s.stroke + 1) → e = s.pair ERR.OBS_END_LO.off →
      (s.err.obs = .closed → a < e → exec .obsArm s = .next (s.recorded (s.setObs (.armed a e)) ERR.OBS_CTRL.off 0 4#32)) ∧
      (s.err.obs = .closed → e ≤ a → exec .obsArm s = .next (s.recorded s.emptyWindow ERR.OBS_CTRL.off 0 4#32)) ∧
      (s.err.obs ≠ .closed → exec .obsArm s = .next (s.illegal 0 causeState ERR.OBS_CTRL.off 4)))

/-- Sensors and the SMBus (R500, R501, R514, R515, Tables 22-4, 22-9, 22-10): a sample sets the values and the warnings, and a group at its trip
level trips: FAULT, with the Spoke, Sprocket and Gear clocks stopped. SET_OFFSET sets the offset; READ_DWORD returns the word there and moves it
on by four, zero outside the subset, and is not acknowledged in reset; TELEMETRY returns its 32 bytes in reset too. -/
def Obligations.SensorsAndSmbus : Prop :=
  ∀ s : State,
    (∀ temps vin pin warn u, warn = (((List.range 8).map fun g => if warnAfter temps vin (bits s.pw.warn g 1 == 1) g then 2 ^ g else 0).foldl (· + ·) 0) →
      ∀ tripped hold, tripped = s.pw.trip ||| tripBits temps →
      hold = (s.pw.held && (tripBits temps != 0 || (s.pw.tripHold && !tripCool temps))) →
      u = { s with pw := { s.pw with temps := temps, vin := vin, pin := pin, warn := warn, smbAlert := warn != 0, trip := tripped,
                                     tripHold := hold } } →
      ((∀ g < 8, bits (tripBits temps) g 1 = 1 → bits s.pw.trip g 1 = 1) → exec (.thermalSample temps vin pin) s = .next u) ∧
      (s.up = false → exec (.thermalSample temps vin pin) s = .next u) ∧
      (∀ g, g < 8 → bits (tripBits temps) g 1 = 1 → bits s.pw.trip g 1 = 0 →
        (∀ k < g, bits (tripBits temps) k 1 = 1 → bits s.pw.trip k 1 = 1) → s.up = true → ∃ t : State,
          exec (.thermalSample temps vin pin) s = .next t ∧
          (s.canonical = true → t.phase = phFAULT ∧ ∀ d, 11 ≤ d → d ≤ 20 → t.dom d = domOFF))) ∧
    (∀ (temps : List Int) (g : Nat), (g, (tripLevel g : Int), warnLevel g) ∈ [(1, (110 : Int), (95 : Int)), (2, 95, 85), (3, 115, 85), (4, 85, 70),
        (5, 85, 75), (6, 120, 100)] → (bits (tripBits temps) g 1 = 1 ↔ tripLevel g ≤ tempAt temps g)) ∧
    (∀ off, exec (.setOffset off) s = .next { s with pw := { s.pw with smOffset := off % 2 ^ 24 } }) ∧
    (s.pw.held = true → exec .readDword s = .next (s.emit .smbusNack)) ∧
    (s.pw.held = false →
      ∃ (u t : State) (w : Word), exec .readDword s = .next (t.emit (.smbus (leBytes 4 w.toNat))) ∧
        t = { u with pw := { u.pw with smOffset := (s.pw.smOffset + 4) % 2 ^ 24 } } ∧
        (smbusMay s.pw.smOffset = true → s.pw.smOffset % 4 = 0 → (u, w) = s.readPath 2 s.pw.smOffset) ∧
        (smbusMay s.pw.smOffset = false ∨ s.pw.smOffset % 4 ≠ 0 → u = s ∧ w = 0#32)) ∧
    (exec .telemetry s = .next (s.emit (.smbus s.telemetry)) ∧ s.telemetry.length = 32)
end

