-- ==== Sys2Proof/Laws/Bits.lean ====
section
/-! SUPPORT. Fields of a register word: what a written field reads as, and what the other fields keep. -/

namespace Sys2Proof.Machine

theorem testBit_fieldGet (w : Word) (lo n i : Nat) : (fieldGet w lo n).testBit i = (decide (i < n) && w.getLsbD (lo + i)) := by
  unfold fieldGet
  rw [Nat.testBit_mod_two_pow, Nat.testBit_shiftRight]
  rfl

theorem getLsbD_mask (lo n i : Nat) (h : lo + n ≤ 32) :
    (BitVec.ofNat 32 ((2 ^ n - 1) <<< lo)).getLsbD i = (decide (lo ≤ i) && decide (i < lo + n)) := by
  rw [BitVec.getLsbD_ofNat, Nat.testBit_shiftLeft, Nat.testBit_two_pow_sub_one, ← Bool.decide_and, ← Bool.decide_and,
    ← Bool.decide_and]
  exact decide_eq_decide.mpr (by omega)

theorem getLsbD_fieldPut (w : Word) (lo n v i : Nat) (h : lo + n ≤ 32) :
    (fieldPut w lo n v).getLsbD i = if lo ≤ i ∧ i < lo + n then v.testBit (i - lo) else w.getLsbD i := by
  unfold fieldPut
  rw [BitVec.getLsbD_or, BitVec.getLsbD_and, BitVec.getLsbD_not, getLsbD_mask lo n i h, BitVec.getLsbD_ofNat,
    Nat.testBit_shiftLeft, Nat.testBit_mod_two_pow]
  by_cases h0 : i < 32
  · by_cases h1 : lo ≤ i <;> by_cases h2 : i < lo + n <;> simp [h0, h1, h2]
    all_goals omega
  · have hw : w.getLsbD i = false := BitVec.getLsbD_of_ge _ _ (by omega)
    have : ¬ (lo ≤ i ∧ i < lo + n) := by omega
    simp [h0, hw, this]

/-- A written field reads as the value written, cut to its width. -/
theorem fieldGet_fieldPut_same (w : Word) (lo n v : Nat) (h : lo + n ≤ 32) : fieldGet (fieldPut w lo n v) lo n = v % 2 ^ n := by
  apply Nat.eq_of_testBit_eq
  intro i
  rw [testBit_fieldGet, getLsbD_fieldPut _ _ _ _ _ h, Nat.testBit_mod_two_pow]
  by_cases h1 : i < n
  · have : lo ≤ lo + i ∧ lo + i < lo + n := by omega
    simp [h1]
  · simp [h1]

/-- A field apart from the written one keeps its value. -/
theorem fieldGet_fieldPut_other (w : Word) (lo n v lo' n' : Nat) (h : lo + n ≤ 32) (d : lo + n ≤ lo' ∨ lo' + n' ≤ lo) :
    fieldGet (fieldPut w lo n v) lo' n' = fieldGet w lo' n' := by
  apply Nat.eq_of_testBit_eq
  intro i
  rw [testBit_fieldGet, testBit_fieldGet, getLsbD_fieldPut _ _ _ _ _ h]
  by_cases h1 : i < n'
  · have : ¬ (lo ≤ lo' + i ∧ lo' + i < lo + n) := by omega
    simp [this]
  · simp [h1]

/-- A field written with what it holds leaves the word. -/
theorem fieldPut_fieldGet (w : Word) (lo n : Nat) (h : lo + n ≤ 32) : fieldPut w lo n (fieldGet w lo n) = w := by
  apply BitVec.eq_of_getLsbD_eq
  intro i hi
  rw [getLsbD_fieldPut _ _ _ _ _ h, testBit_fieldGet]
  split
  · rename_i k
    have : lo + (i - lo) = i := by omega
    simp [this]; omega
  · rfl

theorem fieldGet_or (a b : Word) (lo n : Nat) : fieldGet (a ||| b) lo n = fieldGet a lo n ||| fieldGet b lo n := by
  apply Nat.eq_of_testBit_eq
  intro i
  rw [Nat.testBit_or, testBit_fieldGet, testBit_fieldGet, testBit_fieldGet, BitVec.getLsbD_or]
  cases decide (i < n) <;> rfl

theorem fieldGet_lt (w : Word) (lo n : Nat) : fieldGet w lo n < 2 ^ n := Nat.mod_lt _ (Nat.two_pow_pos n)

/-- A field of the whole word, written, leaves what was written. -/
theorem fieldPut_word (old val : Word) : fieldPut old 0 32 (fieldGet val 0 32) = val := by
  apply BitVec.eq_of_getLsbD_eq
  intro i hi
  rw [getLsbD_fieldPut _ _ _ _ _ (by omega), if_pos (by omega), testBit_fieldGet]
  simp [hi]

end Sys2Proof.Machine
end

