-- ==== Sys2Proof/Laws/Sparse.lean ====
section
/-! SUPPORT. What the sparse store does: a read after a write, reads elsewhere, and the canonical form, which every write keeps. -/

namespace Sys2Proof.Machine

variable {α : Type}

theorem spGet_spInsert_same (d : Nat → α) (l : List (Nat × α)) (k : Nat) (v : α) : spGet d (spInsert l k v) k = v := by
  induction l with
  | nil => simp [spInsert, spGet]
  | cons p t ih =>
    obtain ⟨k', v'⟩ := p
    simp only [spInsert]
    split
    · simp [spGet]
    · split
      · simp [spGet]
      · simp only [spGet, if_neg ‹¬k = k'›, if_neg ‹¬k < k'›, ih]

theorem spGet_spInsert_other (d : Nat → α) (l : List (Nat × α)) {k j : Nat} (v : α) (h : j ≠ k) :
    spGet d (spInsert l k v) j = spGet d l j := by
  induction l with
  | nil => simp [spInsert, spGet, h]
  | cons p t ih =>
    obtain ⟨k', v'⟩ := p
    simp only [spInsert]
    split
    · subst_vars; simp [spGet, h]
    · split
      · simp only [spGet, if_neg h]
        by_cases h1 : j < k
        · simp [h1, show ¬j = k' by omega, show j < k' by omega]
        · simp [h1]
      · simp only [spGet, ih]

variable [DecidableEq α]

/-- Reading below the first key of a canonical store gives the default. -/
theorem spGet_below (d : Nat → α) (l : List (Nat × α)) {b j : Nat} (h : spWfFrom d (some b) l = true) (hj : j ≤ b) :
    spGet d l j = d j := by
  cases l with
  | nil => rfl
  | cons p t =>
    obtain ⟨k', v'⟩ := p
    simp only [spWfFrom, Bool.and_eq_true, decide_eq_true_eq] at h
    simp [spGet, show ¬j = k' by omega, show j < k' by omega]

theorem spWfFrom_mono (d : Nat → α) (l : List (Nat × α)) {a b : Nat} (h : spWfFrom d (some b) l = true) (hab : a ≤ b) :
    spWfFrom d (some a) l = true := by
  cases l with
  | nil => rfl
  | cons p t =>
    simp only [spWfFrom, Bool.and_eq_true, decide_eq_true_eq] at h ⊢
    exact ⟨⟨by omega, h.1.2⟩, h.2⟩

theorem spWfFrom_weaken (d : Nat → α) (l : List (Nat × α)) {lo : Option Nat} (h : spWfFrom d lo l = true) : spWf d l = true := by
  cases l with
  | nil => rfl
  | cons p t =>
    simp only [spWf, spWfFrom, Bool.and_eq_true, decide_eq_true_eq] at h ⊢
    exact ⟨⟨trivial, h.1.2⟩, h.2⟩

theorem spGet_spErase_same (d : Nat → α) (l : List (Nat × α)) {lo : Option Nat} (k : Nat) (h : spWfFrom d lo l = true) :
    spGet d (spErase l k) k = d k := by
  induction l generalizing lo with
  | nil => rfl
  | cons p t ih =>
    obtain ⟨k', v'⟩ := p
    simp only [spWfFrom, Bool.and_eq_true, decide_eq_true_eq] at h
    simp only [spErase]
    split
    · subst_vars; exact spGet_below d t h.2 (Nat.le_refl _)
    · split
      · simp [spGet, *]
      · simp only [spGet, if_neg ‹¬k = k'›, if_neg ‹¬k < k'›, ih h.2]

theorem spGet_spErase_other (d : Nat → α) (l : List (Nat × α)) {lo : Option Nat} {k j : Nat} (h : spWfFrom d lo l = true)
    (hj : j ≠ k) : spGet d (spErase l k) j = spGet d l j := by
  induction l generalizing lo with
  | nil => rfl
  | cons p t ih =>
    obtain ⟨k', v'⟩ := p
    simp only [spWfFrom, Bool.and_eq_true, decide_eq_true_eq] at h
    simp only [spErase]
    split
    · subst_vars
      simp only [spGet, if_neg hj]
      split
      · exact spGet_below d t h.2 (Nat.le_of_lt ‹_›)
      · rfl
    · split
      · rfl
      · simp only [spGet, ih h.2]

theorem spPut_eq (d : Nat → α) (l : List (Nat × α)) (k : Nat) (v : α) :
    spPut d l k v = if v = d k then spErase l k else spInsert l k v := by
  cases l <;> rfl

/-- A read after a write of the same key gives the value written. -/
theorem spGet_spPut_same (d : Nat → α) (l : List (Nat × α)) (k : Nat) (v : α) (h : spWf d l = true) :
    spGet d (spPut d l k v) k = v := by
  rw [spPut_eq]
  split
  · subst_vars; exact spGet_spErase_same d l k h
  · exact spGet_spInsert_same d l k v

/-- A write leaves every other key as it was. -/
theorem spGet_spPut_other (d : Nat → α) (l : List (Nat × α)) {k j : Nat} (v : α) (h : spWf d l = true) (hj : j ≠ k) :
    spGet d (spPut d l k v) j = spGet d l j := by
  rw [spPut_eq]
  split
  · exact spGet_spErase_other d l h hj
  · exact spGet_spInsert_other d l v hj

theorem spErase_wfFrom (d : Nat → α) (l : List (Nat × α)) {lo : Option Nat} (k : Nat) (h : spWfFrom d lo l = true) :
    spWfFrom d lo (spErase l k) = true := by
  induction l generalizing lo with
  | nil => rfl
  | cons p t ih =>
    obtain ⟨k', v'⟩ := p
    have h0 := h
    simp only [spWfFrom, Bool.and_eq_true, decide_eq_true_eq] at h
    simp only [spErase]
    split
    · cases lo with
      | none => exact spWfFrom_weaken d t h.2
      | some b => exact spWfFrom_mono d t h.2 (by simpa using Nat.le_of_lt (by simpa using h.1.1))
    · split
      · exact h0
      · simp only [spWfFrom, Bool.and_eq_true, decide_eq_true_eq]
        exact ⟨h.1, ih h.2⟩

/-- A key above the bound `lo` of a store. -/
def above (lo : Option Nat) (k : Nat) : Bool :=
  match lo with
  | none => true
  | some b => decide (b < k)

theorem spWfFrom_cons (d : Nat → α) (lo : Option Nat) (k : Nat) (v : α) (t : List (Nat × α)) :
    spWfFrom d lo ((k, v) :: t) = true ↔ above lo k = true ∧ v ≠ d k ∧ spWfFrom d (some k) t = true := by
  cases lo <;> simp [spWfFrom, above, and_assoc]

theorem spInsert_wfFrom (d : Nat → α) (l : List (Nat × α)) {lo : Option Nat} (k : Nat) (v : α) (hv : v ≠ d k)
    (hlo : above lo k = true) (h : spWfFrom d lo l = true) : spWfFrom d lo (spInsert l k v) = true := by
  induction l generalizing lo with
  | nil => exact (spWfFrom_cons ..).2 ⟨hlo, hv, rfl⟩
  | cons p t ih =>
    obtain ⟨k', v'⟩ := p
    have h1 := (spWfFrom_cons ..).1 h
    simp only [spInsert]
    split
    · subst_vars; exact (spWfFrom_cons ..).2 ⟨hlo, hv, h1.2.2⟩
    · split
      · exact (spWfFrom_cons ..).2 ⟨hlo, hv, (spWfFrom_cons ..).2 ⟨by simpa [above], h1.2⟩⟩
      · exact (spWfFrom_cons ..).2 ⟨h1.1, h1.2.1, ih (by simp [above]; omega) h1.2.2⟩

/-- A write keeps the canonical form. -/
theorem spPut_wf (d : Nat → α) (l : List (Nat × α)) (k : Nat) (v : α) (h : spWf d l = true) : spWf d (spPut d l k v) = true := by
  rw [spPut_eq]
  split
  · exact spErase_wfFrom d l k h
  · exact spInsert_wfFrom d l k v ‹_› rfl h

theorem spWfFrom_filter (d : Nat → α) (p : Nat × α → Bool) (l : List (Nat × α)) {lo : Option Nat} (h : spWfFrom d lo l = true) :
    spWfFrom d lo (l.filter p) = true := by
  induction l generalizing lo with
  | nil => rfl
  | cons q t ih =>
    obtain ⟨k', v'⟩ := q
    have h0 := h
    simp only [spWfFrom, Bool.and_eq_true, decide_eq_true_eq] at h
    by_cases hp : p (k', v') = true
    · rw [List.filter_cons_of_pos hp]
      simp only [spWfFrom, Bool.and_eq_true, decide_eq_true_eq]
      exact ⟨h.1, ih h.2⟩
    · rw [List.filter_cons_of_neg hp]
      refine ih (lo := lo) ?_
      cases lo with
      | none => exact spWfFrom_weaken d t h.2
      | some b => exact spWfFrom_mono d t h.2 (Nat.le_of_lt (by simpa using h.1.1))

/-- Taking keys out keeps the canonical form. -/
theorem spWf_filter (d : Nat → α) (p : Nat × α → Bool) (l : List (Nat × α)) (h : spWf d l = true) : spWf d (l.filter p) = true :=
  spWfFrom_filter d p l h

/-- Two canonical stores that read the same everywhere are the same list. -/
theorem spWf_ext (d : Nat → α) (l m : List (Nat × α)) {lo : Option Nat} (hl : spWfFrom d lo l = true)
    (hm : spWfFrom d lo m = true) (h : ∀ k, spGet d l k = spGet d m k) : l = m := by
  induction l generalizing m lo with
  | nil =>
    cases m with
    | nil => rfl
    | cons q t =>
      have h1 := h q.1
      simp only [spWfFrom, Bool.and_eq_true, decide_eq_true_eq] at hm
      simp [spGet] at h1
      exact absurd h1.symm hm.1.2
  | cons p t ih =>
    cases m with
    | nil =>
      have h1 := h p.1
      simp only [spWfFrom, Bool.and_eq_true, decide_eq_true_eq] at hl
      simp [spGet] at h1
      exact absurd h1 hl.1.2
    | cons q u =>
      obtain ⟨k, v⟩ := p
      obtain ⟨k', v'⟩ := q
      simp only [spWfFrom, Bool.and_eq_true, decide_eq_true_eq] at hl hm
      have hk : k = k' := by
        rcases Nat.lt_trichotomy k k' with hlt | heq | hgt
        · have h1 := h k
          simp [spGet, show ¬k = k' by omega, hlt] at h1
          exact absurd h1 hl.1.2
        · exact heq
        · have h1 := h k'
          simp [spGet, show ¬k' = k by omega, hgt] at h1
          exact absurd h1.symm hm.1.2
      subst hk
      have hv : v = v' := by simpa [spGet] using h k
      subst hv
      refine congrArg _ (ih u hl.2 hm.2 fun j => ?_)
      by_cases hj : j ≤ k
      · rw [spGet_below d t hl.2 hj, spGet_below d u hm.2 hj]
      · have h1 := h j
        simpa [spGet, show ¬j = k by omega, show ¬j < k by omega] using h1

end Sys2Proof.Machine
end

