-- ==== Sys2Proof/Laws/State.lean ====
section
/-! SUPPORT. One lemma per field and named update of the state, each true by definition, so that no proof unfolds a record update;
and what a register reads after a write. -/

namespace Sys2Proof.Machine

variable (s : State)

@[simp] theorem State.setReg_pending (off : Nat) (w : Word) (inst : Nat) : (s.setReg off w inst).pending = s.pending := rfl
@[simp] theorem State.setReg_stroke (off : Nat) (w : Word) (inst : Nat) : (s.setReg off w inst).stroke = s.stroke := rfl
@[simp] theorem State.setReg_regs (off : Nat) (w : Word) (inst : Nat) : (s.setReg off w inst).regs = spPut regDefault s.regs (regKey off inst) w := rfl
@[simp] theorem State.setReg_live (off : Nat) (w : Word) (inst : Nat) : (s.setReg off w inst).live = s.live := rfl
@[simp] theorem State.setReg_paths (off : Nat) (w : Word) (inst : Nat) : (s.setReg off w inst).paths = s.paths := rfl
@[simp] theorem State.setReg_hmem (off : Nat) (w : Word) (inst : Nat) : (s.setReg off w inst).hmem = s.hmem := rfl
@[simp] theorem State.setReg_msix (off : Nat) (w : Word) (inst : Nat) : (s.setReg off w inst).msix = s.msix := rfl
@[simp] theorem State.setReg_out (off : Nat) (w : Word) (inst : Nat) : (s.setReg off w inst).out = s.out := rfl
@[simp] theorem State.setReg_free (off : Nat) (w : Word) (inst : Nat) : (s.setReg off w inst).free = s.free := rfl
@[simp] theorem State.setReg_pw (off : Nat) (w : Word) (inst : Nat) : (s.setReg off w inst).pw = s.pw := rfl
@[simp] theorem State.setReg_img (off : Nat) (w : Word) (inst : Nat) : (s.setReg off w inst).img = s.img := rfl
@[simp] theorem State.setReg_role (off : Nat) (w : Word) (inst : Nat) : (s.setReg off w inst).role = s.role := rfl
@[simp] theorem State.setReg_err (off : Nat) (w : Word) (inst : Nat) : (s.setReg off w inst).err = s.err := rfl
@[simp] theorem State.setReg_wd (off : Nat) (w : Word) (inst : Nat) : (s.setReg off w inst).wd = s.wd := rfl
@[simp] theorem State.setReg_bnd (off : Nat) (w : Word) (inst : Nat) : (s.setReg off w inst).bnd = s.bnd := rfl
@[simp] theorem State.setReg_ring (off : Nat) (w : Word) (inst : Nat) : (s.setReg off w inst).ring = s.ring := rfl
@[simp] theorem State.setReg_part (off : Nat) (w : Word) (inst : Nat) : (s.setReg off w inst).part = s.part := rfl
@[simp] theorem State.setReg_sq (off : Nat) (w : Word) (inst : Nat) : (s.setReg off w inst).sq = s.sq := rfl
@[simp] theorem State.setReg_wk (off : Nat) (w : Word) (inst : Nat) : (s.setReg off w inst).wk = s.wk := rfl
@[simp] theorem State.setReg_tier (off : Nat) (w : Word) (inst : Nat) : (s.setReg off w inst).tier = s.tier := rfl
@[simp] theorem State.setReg_flash (off : Nat) (w : Word) (inst : Nat) : (s.setReg off w inst).flash = s.flash := rfl
@[simp] theorem State.setReg_srch (off : Nat) (w : Word) (inst : Nat) : (s.setReg off w inst).srch = s.srch := rfl
@[simp] theorem State.setReg_gear (off : Nat) (w : Word) (inst : Nat) : (s.setReg off w inst).gear = s.gear := rfl
@[simp] theorem State.setReg_chain (off : Nat) (w : Word) (inst : Nat) : (s.setReg off w inst).chain = s.chain := rfl
@[simp] theorem State.setReg_rdma (off : Nat) (w : Word) (inst : Nat) : (s.setReg off w inst).rdma = s.rdma := rfl
@[simp] theorem State.setReg_pool (off : Nat) (w : Word) (inst : Nat) : (s.setReg off w inst).pool = s.pool := rfl

@[simp] theorem State.setLive_pending (off : Nat) (w : Word) (inst : Nat) : (s.setLive off w inst).pending = s.pending := rfl
@[simp] theorem State.setLive_stroke (off : Nat) (w : Word) (inst : Nat) : (s.setLive off w inst).stroke = s.stroke := rfl
@[simp] theorem State.setLive_regs (off : Nat) (w : Word) (inst : Nat) : (s.setLive off w inst).regs = s.regs := rfl
@[simp] theorem State.setLive_live (off : Nat) (w : Word) (inst : Nat) : (s.setLive off w inst).live = spPut regDefault s.live (regKey off inst) w := rfl
@[simp] theorem State.setLive_paths (off : Nat) (w : Word) (inst : Nat) : (s.setLive off w inst).paths = s.paths := rfl
@[simp] theorem State.setLive_hmem (off : Nat) (w : Word) (inst : Nat) : (s.setLive off w inst).hmem = s.hmem := rfl
@[simp] theorem State.setLive_msix (off : Nat) (w : Word) (inst : Nat) : (s.setLive off w inst).msix = s.msix := rfl
@[simp] theorem State.setLive_out (off : Nat) (w : Word) (inst : Nat) : (s.setLive off w inst).out = s.out := rfl
@[simp] theorem State.setLive_free (off : Nat) (w : Word) (inst : Nat) : (s.setLive off w inst).free = s.free := rfl
@[simp] theorem State.setLive_pw (off : Nat) (w : Word) (inst : Nat) : (s.setLive off w inst).pw = s.pw := rfl
@[simp] theorem State.setLive_img (off : Nat) (w : Word) (inst : Nat) : (s.setLive off w inst).img = s.img := rfl
@[simp] theorem State.setLive_role (off : Nat) (w : Word) (inst : Nat) : (s.setLive off w inst).role = s.role := rfl
@[simp] theorem State.setLive_err (off : Nat) (w : Word) (inst : Nat) : (s.setLive off w inst).err = s.err := rfl
@[simp] theorem State.setLive_wd (off : Nat) (w : Word) (inst : Nat) : (s.setLive off w inst).wd = s.wd := rfl
@[simp] theorem State.setLive_bnd (off : Nat) (w : Word) (inst : Nat) : (s.setLive off w inst).bnd = s.bnd := rfl
@[simp] theorem State.setLive_ring (off : Nat) (w : Word) (inst : Nat) : (s.setLive off w inst).ring = s.ring := rfl
@[simp] theorem State.setLive_part (off : Nat) (w : Word) (inst : Nat) : (s.setLive off w inst).part = s.part := rfl
@[simp] theorem State.setLive_sq (off : Nat) (w : Word) (inst : Nat) : (s.setLive off w inst).sq = s.sq := rfl
@[simp] theorem State.setLive_wk (off : Nat) (w : Word) (inst : Nat) : (s.setLive off w inst).wk = s.wk := rfl
@[simp] theorem State.setLive_tier (off : Nat) (w : Word) (inst : Nat) : (s.setLive off w inst).tier = s.tier := rfl
@[simp] theorem State.setLive_flash (off : Nat) (w : Word) (inst : Nat) : (s.setLive off w inst).flash = s.flash := rfl
@[simp] theorem State.setLive_srch (off : Nat) (w : Word) (inst : Nat) : (s.setLive off w inst).srch = s.srch := rfl
@[simp] theorem State.setLive_gear (off : Nat) (w : Word) (inst : Nat) : (s.setLive off w inst).gear = s.gear := rfl
@[simp] theorem State.setLive_chain (off : Nat) (w : Word) (inst : Nat) : (s.setLive off w inst).chain = s.chain := rfl
@[simp] theorem State.setLive_rdma (off : Nat) (w : Word) (inst : Nat) : (s.setLive off w inst).rdma = s.rdma := rfl
@[simp] theorem State.setLive_pool (off : Nat) (w : Word) (inst : Nat) : (s.setLive off w inst).pool = s.pool := rfl

@[simp] theorem State.put_pending (f : Fld) (v inst : Nat) : (s.put f v inst).pending = s.pending := rfl
@[simp] theorem State.put_stroke (f : Fld) (v inst : Nat) : (s.put f v inst).stroke = s.stroke := rfl
@[simp] theorem State.put_regs (f : Fld) (v inst : Nat) : (s.put f v inst).regs = spPut regDefault s.regs (regKey f.off inst) (fieldPut (s.reg f.off inst) f.lo f.w v) := rfl
@[simp] theorem State.put_live (f : Fld) (v inst : Nat) : (s.put f v inst).live = s.live := rfl
@[simp] theorem State.put_paths (f : Fld) (v inst : Nat) : (s.put f v inst).paths = s.paths := rfl
@[simp] theorem State.put_hmem (f : Fld) (v inst : Nat) : (s.put f v inst).hmem = s.hmem := rfl
@[simp] theorem State.put_msix (f : Fld) (v inst : Nat) : (s.put f v inst).msix = s.msix := rfl
@[simp] theorem State.put_out (f : Fld) (v inst : Nat) : (s.put f v inst).out = s.out := rfl
@[simp] theorem State.put_free (f : Fld) (v inst : Nat) : (s.put f v inst).free = s.free := rfl
@[simp] theorem State.put_pw (f : Fld) (v inst : Nat) : (s.put f v inst).pw = s.pw := rfl
@[simp] theorem State.put_img (f : Fld) (v inst : Nat) : (s.put f v inst).img = s.img := rfl
@[simp] theorem State.put_role (f : Fld) (v inst : Nat) : (s.put f v inst).role = s.role := rfl
@[simp] theorem State.put_err (f : Fld) (v inst : Nat) : (s.put f v inst).err = s.err := rfl
@[simp] theorem State.put_wd (f : Fld) (v inst : Nat) : (s.put f v inst).wd = s.wd := rfl
@[simp] theorem State.put_bnd (f : Fld) (v inst : Nat) : (s.put f v inst).bnd = s.bnd := rfl
@[simp] theorem State.put_ring (f : Fld) (v inst : Nat) : (s.put f v inst).ring = s.ring := rfl
@[simp] theorem State.put_part (f : Fld) (v inst : Nat) : (s.put f v inst).part = s.part := rfl
@[simp] theorem State.put_sq (f : Fld) (v inst : Nat) : (s.put f v inst).sq = s.sq := rfl
@[simp] theorem State.put_wk (f : Fld) (v inst : Nat) : (s.put f v inst).wk = s.wk := rfl
@[simp] theorem State.put_tier (f : Fld) (v inst : Nat) : (s.put f v inst).tier = s.tier := rfl
@[simp] theorem State.put_flash (f : Fld) (v inst : Nat) : (s.put f v inst).flash = s.flash := rfl
@[simp] theorem State.put_srch (f : Fld) (v inst : Nat) : (s.put f v inst).srch = s.srch := rfl
@[simp] theorem State.put_gear (f : Fld) (v inst : Nat) : (s.put f v inst).gear = s.gear := rfl
@[simp] theorem State.put_chain (f : Fld) (v inst : Nat) : (s.put f v inst).chain = s.chain := rfl
@[simp] theorem State.put_rdma (f : Fld) (v inst : Nat) : (s.put f v inst).rdma = s.rdma := rfl
@[simp] theorem State.put_pool (f : Fld) (v inst : Nat) : (s.put f v inst).pool = s.pool := rfl

@[simp] theorem State.sat_pending (f : Fld) (n inst : Nat) : (s.sat f n inst).pending = s.pending := rfl
@[simp] theorem State.sat_stroke (f : Fld) (n inst : Nat) : (s.sat f n inst).stroke = s.stroke := rfl
@[simp] theorem State.sat_live (f : Fld) (n inst : Nat) : (s.sat f n inst).live = s.live := rfl
@[simp] theorem State.sat_paths (f : Fld) (n inst : Nat) : (s.sat f n inst).paths = s.paths := rfl
@[simp] theorem State.sat_hmem (f : Fld) (n inst : Nat) : (s.sat f n inst).hmem = s.hmem := rfl
@[simp] theorem State.sat_msix (f : Fld) (n inst : Nat) : (s.sat f n inst).msix = s.msix := rfl
@[simp] theorem State.sat_out (f : Fld) (n inst : Nat) : (s.sat f n inst).out = s.out := rfl
@[simp] theorem State.sat_free (f : Fld) (n inst : Nat) : (s.sat f n inst).free = s.free := rfl
@[simp] theorem State.sat_pw (f : Fld) (n inst : Nat) : (s.sat f n inst).pw = s.pw := rfl
@[simp] theorem State.sat_img (f : Fld) (n inst : Nat) : (s.sat f n inst).img = s.img := rfl
@[simp] theorem State.sat_role (f : Fld) (n inst : Nat) : (s.sat f n inst).role = s.role := rfl
@[simp] theorem State.sat_err (f : Fld) (n inst : Nat) : (s.sat f n inst).err = s.err := rfl
@[simp] theorem State.sat_wd (f : Fld) (n inst : Nat) : (s.sat f n inst).wd = s.wd := rfl
@[simp] theorem State.sat_bnd (f : Fld) (n inst : Nat) : (s.sat f n inst).bnd = s.bnd := rfl
@[simp] theorem State.sat_ring (f : Fld) (n inst : Nat) : (s.sat f n inst).ring = s.ring := rfl
@[simp] theorem State.sat_part (f : Fld) (n inst : Nat) : (s.sat f n inst).part = s.part := rfl
@[simp] theorem State.sat_sq (f : Fld) (n inst : Nat) : (s.sat f n inst).sq = s.sq := rfl
@[simp] theorem State.sat_wk (f : Fld) (n inst : Nat) : (s.sat f n inst).wk = s.wk := rfl
@[simp] theorem State.sat_tier (f : Fld) (n inst : Nat) : (s.sat f n inst).tier = s.tier := rfl
@[simp] theorem State.sat_flash (f : Fld) (n inst : Nat) : (s.sat f n inst).flash = s.flash := rfl
@[simp] theorem State.sat_srch (f : Fld) (n inst : Nat) : (s.sat f n inst).srch = s.srch := rfl
@[simp] theorem State.sat_gear (f : Fld) (n inst : Nat) : (s.sat f n inst).gear = s.gear := rfl
@[simp] theorem State.sat_chain (f : Fld) (n inst : Nat) : (s.sat f n inst).chain = s.chain := rfl
@[simp] theorem State.sat_rdma (f : Fld) (n inst : Nat) : (s.sat f n inst).rdma = s.rdma := rfl
@[simp] theorem State.sat_pool (f : Fld) (n inst : Nat) : (s.sat f n inst).pool = s.pool := rfl

@[simp] theorem State.setPair_pending (off v inst : Nat) : (s.setPair off v inst).pending = s.pending := rfl
@[simp] theorem State.setPair_stroke (off v inst : Nat) : (s.setPair off v inst).stroke = s.stroke := rfl
@[simp] theorem State.setPair_live (off v inst : Nat) : (s.setPair off v inst).live = s.live := rfl
@[simp] theorem State.setPair_paths (off v inst : Nat) : (s.setPair off v inst).paths = s.paths := rfl
@[simp] theorem State.setPair_hmem (off v inst : Nat) : (s.setPair off v inst).hmem = s.hmem := rfl
@[simp] theorem State.setPair_msix (off v inst : Nat) : (s.setPair off v inst).msix = s.msix := rfl
@[simp] theorem State.setPair_out (off v inst : Nat) : (s.setPair off v inst).out = s.out := rfl
@[simp] theorem State.setPair_free (off v inst : Nat) : (s.setPair off v inst).free = s.free := rfl
@[simp] theorem State.setPair_pw (off v inst : Nat) : (s.setPair off v inst).pw = s.pw := rfl
@[simp] theorem State.setPair_img (off v inst : Nat) : (s.setPair off v inst).img = s.img := rfl
@[simp] theorem State.setPair_role (off v inst : Nat) : (s.setPair off v inst).role = s.role := rfl
@[simp] theorem State.setPair_err (off v inst : Nat) : (s.setPair off v inst).err = s.err := rfl
@[simp] theorem State.setPair_wd (off v inst : Nat) : (s.setPair off v inst).wd = s.wd := rfl
@[simp] theorem State.setPair_bnd (off v inst : Nat) : (s.setPair off v inst).bnd = s.bnd := rfl
@[simp] theorem State.setPair_ring (off v inst : Nat) : (s.setPair off v inst).ring = s.ring := rfl
@[simp] theorem State.setPair_part (off v inst : Nat) : (s.setPair off v inst).part = s.part := rfl
@[simp] theorem State.setPair_sq (off v inst : Nat) : (s.setPair off v inst).sq = s.sq := rfl
@[simp] theorem State.setPair_wk (off v inst : Nat) : (s.setPair off v inst).wk = s.wk := rfl
@[simp] theorem State.setPair_tier (off v inst : Nat) : (s.setPair off v inst).tier = s.tier := rfl
@[simp] theorem State.setPair_flash (off v inst : Nat) : (s.setPair off v inst).flash = s.flash := rfl
@[simp] theorem State.setPair_srch (off v inst : Nat) : (s.setPair off v inst).srch = s.srch := rfl
@[simp] theorem State.setPair_gear (off v inst : Nat) : (s.setPair off v inst).gear = s.gear := rfl
@[simp] theorem State.setPair_chain (off v inst : Nat) : (s.setPair off v inst).chain = s.chain := rfl
@[simp] theorem State.setPair_rdma (off v inst : Nat) : (s.setPair off v inst).rdma = s.rdma := rfl
@[simp] theorem State.setPair_pool (off v inst : Nat) : (s.setPair off v inst).pool = s.pool := rfl

@[simp] theorem State.memPut_pending (a : Nat) (b : Byte) : (s.memPut a b).pending = s.pending := rfl
@[simp] theorem State.memPut_stroke (a : Nat) (b : Byte) : (s.memPut a b).stroke = s.stroke := rfl
@[simp] theorem State.memPut_regs (a : Nat) (b : Byte) : (s.memPut a b).regs = s.regs := rfl
@[simp] theorem State.memPut_live (a : Nat) (b : Byte) : (s.memPut a b).live = s.live := rfl
@[simp] theorem State.memPut_paths (a : Nat) (b : Byte) : (s.memPut a b).paths = s.paths := rfl
@[simp] theorem State.memPut_hmem (a : Nat) (b : Byte) : (s.memPut a b).hmem = spPut memDefault s.hmem (hostAddr a) b := rfl
@[simp] theorem State.memPut_msix (a : Nat) (b : Byte) : (s.memPut a b).msix = s.msix := rfl
@[simp] theorem State.memPut_out (a : Nat) (b : Byte) : (s.memPut a b).out = s.out := rfl
@[simp] theorem State.memPut_free (a : Nat) (b : Byte) : (s.memPut a b).free = s.free := rfl
@[simp] theorem State.memPut_pw (a : Nat) (b : Byte) : (s.memPut a b).pw = s.pw := rfl
@[simp] theorem State.memPut_img (a : Nat) (b : Byte) : (s.memPut a b).img = s.img := rfl
@[simp] theorem State.memPut_role (a : Nat) (b : Byte) : (s.memPut a b).role = s.role := rfl
@[simp] theorem State.memPut_err (a : Nat) (b : Byte) : (s.memPut a b).err = s.err := rfl
@[simp] theorem State.memPut_wd (a : Nat) (b : Byte) : (s.memPut a b).wd = s.wd := rfl
@[simp] theorem State.memPut_bnd (a : Nat) (b : Byte) : (s.memPut a b).bnd = s.bnd := rfl
@[simp] theorem State.memPut_ring (a : Nat) (b : Byte) : (s.memPut a b).ring = s.ring := rfl
@[simp] theorem State.memPut_part (a : Nat) (b : Byte) : (s.memPut a b).part = s.part := rfl
@[simp] theorem State.memPut_sq (a : Nat) (b : Byte) : (s.memPut a b).sq = s.sq := rfl
@[simp] theorem State.memPut_wk (a : Nat) (b : Byte) : (s.memPut a b).wk = s.wk := rfl
@[simp] theorem State.memPut_tier (a : Nat) (b : Byte) : (s.memPut a b).tier = s.tier := rfl
@[simp] theorem State.memPut_flash (a : Nat) (b : Byte) : (s.memPut a b).flash = s.flash := rfl
@[simp] theorem State.memPut_srch (a : Nat) (b : Byte) : (s.memPut a b).srch = s.srch := rfl
@[simp] theorem State.memPut_gear (a : Nat) (b : Byte) : (s.memPut a b).gear = s.gear := rfl
@[simp] theorem State.memPut_chain (a : Nat) (b : Byte) : (s.memPut a b).chain = s.chain := rfl
@[simp] theorem State.memPut_rdma (a : Nat) (b : Byte) : (s.memPut a b).rdma = s.rdma := rfl
@[simp] theorem State.memPut_pool (a : Nat) (b : Byte) : (s.memPut a b).pool = s.pool := rfl

@[simp] theorem State.emit_pending (o : Out) : (s.emit o).pending = s.pending := rfl
@[simp] theorem State.emit_stroke (o : Out) : (s.emit o).stroke = s.stroke := rfl
@[simp] theorem State.emit_regs (o : Out) : (s.emit o).regs = s.regs := rfl
@[simp] theorem State.emit_live (o : Out) : (s.emit o).live = s.live := rfl
@[simp] theorem State.emit_paths (o : Out) : (s.emit o).paths = s.paths := rfl
@[simp] theorem State.emit_hmem (o : Out) : (s.emit o).hmem = s.hmem := rfl
@[simp] theorem State.emit_msix (o : Out) : (s.emit o).msix = s.msix := rfl
@[simp] theorem State.emit_out (o : Out) : (s.emit o).out = s.out ++ [o] := rfl
@[simp] theorem State.emit_free (o : Out) : (s.emit o).free = s.free := rfl
@[simp] theorem State.emit_pw (o : Out) : (s.emit o).pw = s.pw := rfl
@[simp] theorem State.emit_img (o : Out) : (s.emit o).img = s.img := rfl
@[simp] theorem State.emit_role (o : Out) : (s.emit o).role = s.role := rfl
@[simp] theorem State.emit_err (o : Out) : (s.emit o).err = s.err := rfl
@[simp] theorem State.emit_wd (o : Out) : (s.emit o).wd = s.wd := rfl
@[simp] theorem State.emit_bnd (o : Out) : (s.emit o).bnd = s.bnd := rfl
@[simp] theorem State.emit_ring (o : Out) : (s.emit o).ring = s.ring := rfl
@[simp] theorem State.emit_part (o : Out) : (s.emit o).part = s.part := rfl
@[simp] theorem State.emit_sq (o : Out) : (s.emit o).sq = s.sq := rfl
@[simp] theorem State.emit_wk (o : Out) : (s.emit o).wk = s.wk := rfl
@[simp] theorem State.emit_tier (o : Out) : (s.emit o).tier = s.tier := rfl
@[simp] theorem State.emit_flash (o : Out) : (s.emit o).flash = s.flash := rfl
@[simp] theorem State.emit_srch (o : Out) : (s.emit o).srch = s.srch := rfl
@[simp] theorem State.emit_gear (o : Out) : (s.emit o).gear = s.gear := rfl
@[simp] theorem State.emit_chain (o : Out) : (s.emit o).chain = s.chain := rfl
@[simp] theorem State.emit_rdma (o : Out) : (s.emit o).rdma = s.rdma := rfl
@[simp] theorem State.emit_pool (o : Out) : (s.emit o).pool = s.pool := rfl

@[simp] theorem State.signal_pending (fn vector : Nat) : (s.signal fn vector).pending = s.pending := rfl
@[simp] theorem State.signal_stroke (fn vector : Nat) : (s.signal fn vector).stroke = s.stroke := rfl
@[simp] theorem State.signal_regs (fn vector : Nat) : (s.signal fn vector).regs = s.regs := rfl
@[simp] theorem State.signal_live (fn vector : Nat) : (s.signal fn vector).live = s.live := rfl
@[simp] theorem State.signal_paths (fn vector : Nat) : (s.signal fn vector).paths = s.paths := rfl
@[simp] theorem State.signal_hmem (fn vector : Nat) : (s.signal fn vector).hmem = s.hmem := rfl
@[simp] theorem State.signal_msix (fn vector : Nat) : (s.signal fn vector).msix = s.msix := rfl
@[simp] theorem State.signal_out (fn vector : Nat) : (s.signal fn vector).out = s.out ++ [.msix fn vector] := rfl
@[simp] theorem State.signal_free (fn vector : Nat) : (s.signal fn vector).free = s.free := rfl
@[simp] theorem State.signal_pw (fn vector : Nat) : (s.signal fn vector).pw = s.pw := rfl
@[simp] theorem State.signal_img (fn vector : Nat) : (s.signal fn vector).img = s.img := rfl
@[simp] theorem State.signal_role (fn vector : Nat) : (s.signal fn vector).role = s.role := rfl
@[simp] theorem State.signal_err (fn vector : Nat) : (s.signal fn vector).err = s.err := rfl
@[simp] theorem State.signal_wd (fn vector : Nat) : (s.signal fn vector).wd = s.wd := rfl
@[simp] theorem State.signal_bnd (fn vector : Nat) : (s.signal fn vector).bnd = s.bnd := rfl
@[simp] theorem State.signal_ring (fn vector : Nat) : (s.signal fn vector).ring = s.ring := rfl
@[simp] theorem State.signal_part (fn vector : Nat) : (s.signal fn vector).part = s.part := rfl
@[simp] theorem State.signal_sq (fn vector : Nat) : (s.signal fn vector).sq = s.sq := rfl
@[simp] theorem State.signal_wk (fn vector : Nat) : (s.signal fn vector).wk = s.wk := rfl
@[simp] theorem State.signal_tier (fn vector : Nat) : (s.signal fn vector).tier = s.tier := rfl
@[simp] theorem State.signal_flash (fn vector : Nat) : (s.signal fn vector).flash = s.flash := rfl
@[simp] theorem State.signal_srch (fn vector : Nat) : (s.signal fn vector).srch = s.srch := rfl
@[simp] theorem State.signal_gear (fn vector : Nat) : (s.signal fn vector).gear = s.gear := rfl
@[simp] theorem State.signal_chain (fn vector : Nat) : (s.signal fn vector).chain = s.chain := rfl
@[simp] theorem State.signal_rdma (fn vector : Nat) : (s.signal fn vector).rdma = s.rdma := rfl
@[simp] theorem State.signal_pool (fn vector : Nat) : (s.signal fn vector).pool = s.pool := rfl

@[simp] theorem State.nextFree_pending : (s.nextFree).pending = s.pending := rfl
@[simp] theorem State.nextFree_stroke : (s.nextFree).stroke = s.stroke := rfl
@[simp] theorem State.nextFree_regs : (s.nextFree).regs = s.regs := rfl
@[simp] theorem State.nextFree_live : (s.nextFree).live = s.live := rfl
@[simp] theorem State.nextFree_paths : (s.nextFree).paths = s.paths := rfl
@[simp] theorem State.nextFree_hmem : (s.nextFree).hmem = s.hmem := rfl
@[simp] theorem State.nextFree_msix : (s.nextFree).msix = s.msix := rfl
@[simp] theorem State.nextFree_out : (s.nextFree).out = s.out := rfl
@[simp] theorem State.nextFree_free : (s.nextFree).free = s.free + 1 := rfl
@[simp] theorem State.nextFree_pw : (s.nextFree).pw = s.pw := rfl
@[simp] theorem State.nextFree_img : (s.nextFree).img = s.img := rfl
@[simp] theorem State.nextFree_role : (s.nextFree).role = s.role := rfl
@[simp] theorem State.nextFree_err : (s.nextFree).err = s.err := rfl
@[simp] theorem State.nextFree_wd : (s.nextFree).wd = s.wd := rfl
@[simp] theorem State.nextFree_bnd : (s.nextFree).bnd = s.bnd := rfl
@[simp] theorem State.nextFree_ring : (s.nextFree).ring = s.ring := rfl
@[simp] theorem State.nextFree_part : (s.nextFree).part = s.part := rfl
@[simp] theorem State.nextFree_sq : (s.nextFree).sq = s.sq := rfl
@[simp] theorem State.nextFree_wk : (s.nextFree).wk = s.wk := rfl
@[simp] theorem State.nextFree_tier : (s.nextFree).tier = s.tier := rfl
@[simp] theorem State.nextFree_flash : (s.nextFree).flash = s.flash := rfl
@[simp] theorem State.nextFree_srch : (s.nextFree).srch = s.srch := rfl
@[simp] theorem State.nextFree_gear : (s.nextFree).gear = s.gear := rfl
@[simp] theorem State.nextFree_chain : (s.nextFree).chain = s.chain := rfl
@[simp] theorem State.nextFree_rdma : (s.nextFree).rdma = s.rdma := rfl
@[simp] theorem State.nextFree_pool : (s.nextFree).pool = s.pool := rfl

@[simp] theorem State.event_pending (d : Option (List Nat)) (code info : Nat) : (s.event d code info).pending = s.pending := rfl
@[simp] theorem State.event_stroke (d : Option (List Nat)) (code info : Nat) : (s.event d code info).stroke = s.stroke := rfl
@[simp] theorem State.event_regs (d : Option (List Nat)) (code info : Nat) : (s.event d code info).regs = s.regs := rfl
@[simp] theorem State.event_live (d : Option (List Nat)) (code info : Nat) : (s.event d code info).live = s.live := rfl
@[simp] theorem State.event_paths (d : Option (List Nat)) (code info : Nat) : (s.event d code info).paths = s.paths := rfl
@[simp] theorem State.event_hmem (d : Option (List Nat)) (code info : Nat) : (s.event d code info).hmem = s.hmem := rfl
@[simp] theorem State.event_msix (d : Option (List Nat)) (code info : Nat) : (s.event d code info).msix = s.msix := rfl
@[simp] theorem State.event_out (d : Option (List Nat)) (code info : Nat) : (s.event d code info).out = s.out := rfl
@[simp] theorem State.event_free (d : Option (List Nat)) (code info : Nat) : (s.event d code info).free = s.free := rfl
@[simp] theorem State.event_pw (d : Option (List Nat)) (code info : Nat) : (s.event d code info).pw = s.pw := rfl
@[simp] theorem State.event_img (d : Option (List Nat)) (code info : Nat) : (s.event d code info).img = s.img := rfl
@[simp] theorem State.event_role (d : Option (List Nat)) (code info : Nat) : (s.event d code info).role = s.role := rfl
@[simp] theorem State.event_wd (d : Option (List Nat)) (code info : Nat) : (s.event d code info).wd = s.wd := rfl
@[simp] theorem State.event_bnd (d : Option (List Nat)) (code info : Nat) : (s.event d code info).bnd = s.bnd := rfl
@[simp] theorem State.event_ring (d : Option (List Nat)) (code info : Nat) : (s.event d code info).ring = s.ring := rfl
@[simp] theorem State.event_part (d : Option (List Nat)) (code info : Nat) : (s.event d code info).part = s.part := rfl
@[simp] theorem State.event_sq (d : Option (List Nat)) (code info : Nat) : (s.event d code info).sq = s.sq := rfl
@[simp] theorem State.event_wk (d : Option (List Nat)) (code info : Nat) : (s.event d code info).wk = s.wk := rfl
@[simp] theorem State.event_tier (d : Option (List Nat)) (code info : Nat) : (s.event d code info).tier = s.tier := rfl
@[simp] theorem State.event_flash (d : Option (List Nat)) (code info : Nat) : (s.event d code info).flash = s.flash := rfl
@[simp] theorem State.event_srch (d : Option (List Nat)) (code info : Nat) : (s.event d code info).srch = s.srch := rfl
@[simp] theorem State.event_gear (d : Option (List Nat)) (code info : Nat) : (s.event d code info).gear = s.gear := rfl
@[simp] theorem State.event_chain (d : Option (List Nat)) (code info : Nat) : (s.event d code info).chain = s.chain := rfl
@[simp] theorem State.event_rdma (d : Option (List Nat)) (code info : Nat) : (s.event d code info).rdma = s.rdma := rfl
@[simp] theorem State.event_pool (d : Option (List Nat)) (code info : Nat) : (s.event d code info).pool = s.pool := rfl

@[simp] theorem State.eventX_pending (e : Event) : (s.eventX e).pending = s.pending := rfl
@[simp] theorem State.eventX_stroke (e : Event) : (s.eventX e).stroke = s.stroke := rfl
@[simp] theorem State.eventX_regs (e : Event) : (s.eventX e).regs = s.regs := rfl
@[simp] theorem State.eventX_live (e : Event) : (s.eventX e).live = s.live := rfl
@[simp] theorem State.eventX_paths (e : Event) : (s.eventX e).paths = s.paths := rfl
@[simp] theorem State.eventX_hmem (e : Event) : (s.eventX e).hmem = s.hmem := rfl
@[simp] theorem State.eventX_msix (e : Event) : (s.eventX e).msix = s.msix := rfl
@[simp] theorem State.eventX_out (e : Event) : (s.eventX e).out = s.out := rfl
@[simp] theorem State.eventX_free (e : Event) : (s.eventX e).free = s.free := rfl
@[simp] theorem State.eventX_pw (e : Event) : (s.eventX e).pw = s.pw := rfl
@[simp] theorem State.eventX_img (e : Event) : (s.eventX e).img = s.img := rfl
@[simp] theorem State.eventX_role (e : Event) : (s.eventX e).role = s.role := rfl
@[simp] theorem State.eventX_wd (e : Event) : (s.eventX e).wd = s.wd := rfl
@[simp] theorem State.eventX_bnd (e : Event) : (s.eventX e).bnd = s.bnd := rfl
@[simp] theorem State.eventX_ring (e : Event) : (s.eventX e).ring = s.ring := rfl
@[simp] theorem State.eventX_part (e : Event) : (s.eventX e).part = s.part := rfl
@[simp] theorem State.eventX_sq (e : Event) : (s.eventX e).sq = s.sq := rfl
@[simp] theorem State.eventX_wk (e : Event) : (s.eventX e).wk = s.wk := rfl
@[simp] theorem State.eventX_tier (e : Event) : (s.eventX e).tier = s.tier := rfl
@[simp] theorem State.eventX_flash (e : Event) : (s.eventX e).flash = s.flash := rfl
@[simp] theorem State.eventX_srch (e : Event) : (s.eventX e).srch = s.srch := rfl
@[simp] theorem State.eventX_gear (e : Event) : (s.eventX e).gear = s.gear := rfl
@[simp] theorem State.eventX_chain (e : Event) : (s.eventX e).chain = s.chain := rfl
@[simp] theorem State.eventX_rdma (e : Event) : (s.eventX e).rdma = s.rdma := rfl
@[simp] theorem State.eventX_pool (e : Event) : (s.eventX e).pool = s.pool := rfl

@[simp] theorem State.atBoundary_pending (a : BAct) : (s.atBoundary a).pending = s.pending := rfl
@[simp] theorem State.atBoundary_stroke (a : BAct) : (s.atBoundary a).stroke = s.stroke := rfl
@[simp] theorem State.atBoundary_regs (a : BAct) : (s.atBoundary a).regs = s.regs := rfl
@[simp] theorem State.atBoundary_live (a : BAct) : (s.atBoundary a).live = s.live := rfl
@[simp] theorem State.atBoundary_paths (a : BAct) : (s.atBoundary a).paths = s.paths := rfl
@[simp] theorem State.atBoundary_hmem (a : BAct) : (s.atBoundary a).hmem = s.hmem := rfl
@[simp] theorem State.atBoundary_msix (a : BAct) : (s.atBoundary a).msix = s.msix := rfl
@[simp] theorem State.atBoundary_out (a : BAct) : (s.atBoundary a).out = s.out := rfl
@[simp] theorem State.atBoundary_free (a : BAct) : (s.atBoundary a).free = s.free := rfl
@[simp] theorem State.atBoundary_pw (a : BAct) : (s.atBoundary a).pw = s.pw := rfl
@[simp] theorem State.atBoundary_img (a : BAct) : (s.atBoundary a).img = s.img := rfl
@[simp] theorem State.atBoundary_role (a : BAct) : (s.atBoundary a).role = s.role := rfl
@[simp] theorem State.atBoundary_err (a : BAct) : (s.atBoundary a).err = s.err := rfl
@[simp] theorem State.atBoundary_wd (a : BAct) : (s.atBoundary a).wd = s.wd := rfl
@[simp] theorem State.atBoundary_bnd (a : BAct) : (s.atBoundary a).bnd = { s.bnd with acts := s.bnd.acts ++ [a] } := rfl
@[simp] theorem State.atBoundary_ring (a : BAct) : (s.atBoundary a).ring = s.ring := rfl
@[simp] theorem State.atBoundary_part (a : BAct) : (s.atBoundary a).part = s.part := rfl
@[simp] theorem State.atBoundary_sq (a : BAct) : (s.atBoundary a).sq = s.sq := rfl
@[simp] theorem State.atBoundary_wk (a : BAct) : (s.atBoundary a).wk = s.wk := rfl
@[simp] theorem State.atBoundary_tier (a : BAct) : (s.atBoundary a).tier = s.tier := rfl
@[simp] theorem State.atBoundary_flash (a : BAct) : (s.atBoundary a).flash = s.flash := rfl
@[simp] theorem State.atBoundary_srch (a : BAct) : (s.atBoundary a).srch = s.srch := rfl
@[simp] theorem State.atBoundary_gear (a : BAct) : (s.atBoundary a).gear = s.gear := rfl
@[simp] theorem State.atBoundary_chain (a : BAct) : (s.atBoundary a).chain = s.chain := rfl
@[simp] theorem State.atBoundary_rdma (a : BAct) : (s.atBoundary a).rdma = s.rdma := rfl
@[simp] theorem State.atBoundary_pool (a : BAct) : (s.atBoundary a).pool = s.pool := rfl

end Sys2Proof.Machine
end

