-- ==== Sys2Proof/Laws/Regs.lean ====
section
/-! SUPPORT. Registers and host memory read after a write: the one written, and every other. -/

namespace Sys2Proof.Machine

variable (s : State)

theorem regKey_inj {o o' i i' : Nat} (h : o < 0x1000000) (h' : o' < 0x1000000) (e : regKey o i = regKey o' i') : o = o' ∧ i = i' := by
  unfold regKey at e
  omega

theorem setReg_wf (h : spWf regDefault s.regs = true) (o : Nat) (w : Word) (i : Nat) :
    spWf regDefault (s.setReg o w i).regs = true := spPut_wf _ _ _ _ h

/-- A register reads as the word written. -/
theorem reg_setReg_same (h : spWf regDefault s.regs = true) (o : Nat) (w : Word) (i : Nat) : (s.setReg o w i).reg o i = w :=
  spGet_spPut_same _ _ _ _ h

/-- Every other register keeps its word. -/
theorem reg_setReg_other (h : spWf regDefault s.regs = true) (o : Nat) (w : Word) (i : Nat) {o' i' : Nat}
    (n : regKey o' i' ≠ regKey o i) : (s.setReg o w i).reg o' i' = s.reg o' i' :=
  spGet_spPut_other _ _ _ h n

/-- A register written with what it holds leaves the state. -/
theorem setReg_self (h : spWf regDefault s.regs = true) (o i : Nat) : s.setReg o (s.reg o i) i = s := by
  have e : spPut regDefault s.regs (regKey o i) (s.reg o i) = s.regs := by
    refine spWf_ext _ _ _ (spPut_wf _ _ _ _ h) h fun k => ?_
    by_cases hk : k = regKey o i
    · subst hk; exact spGet_spPut_same _ _ _ _ h
    · exact spGet_spPut_other _ _ _ h hk
  unfold State.setReg
  rw [e]

theorem get_put_same (h : spWf regDefault s.regs = true) (f : Fld) (v i : Nat) (b : f.lo + f.w ≤ 32) :
    (s.put f v i).get f i = v % 2 ^ f.w := by
  unfold State.put State.get
  rw [reg_setReg_same s h, fieldGet_fieldPut_same _ _ _ _ b]

theorem get_put_reg (h : spWf regDefault s.regs = true) (f : Fld) (v i : Nat) (g : Fld) (j : Nat)
    (n : regKey g.off j ≠ regKey f.off i) : (s.put f v i).get g j = s.get g j := by
  unfold State.put State.get
  rw [reg_setReg_other s h _ _ _ n]

theorem get_put_fld (h : spWf regDefault s.regs = true) (f : Fld) (v i : Nat) (g : Fld) (e : g.off = f.off) (b : f.lo + f.w ≤ 32)
    (d : f.lo + f.w ≤ g.lo ∨ g.lo + g.w ≤ f.lo) : (s.put f v i).get g i = s.get g i := by
  unfold State.put State.get
  rw [e, reg_setReg_same s h, fieldGet_fieldPut_other _ _ _ _ _ _ b d]

theorem memByte_memPut_same (h : spWf memDefault s.hmem = true) (a : Nat) (b : Byte) : (s.memPut a b).memByte a = b :=
  spGet_spPut_same _ _ _ _ h

theorem memByte_memPut_other (h : spWf memDefault s.hmem = true) (a : Nat) (b : Byte) {a' : Nat} (n : hostAddr a' ≠ hostAddr a) :
    (s.memPut a b).memByte a' = s.memByte a' :=
  spGet_spPut_other _ _ _ h n

/-- A write of bytes leaves every byte outside them. -/
theorem memByte_memWrite_other (bs : List Byte) : ∀ (t : State) (a : Nat), spWf memDefault t.hmem = true → ∀ a',
    (∀ i < bs.length, hostAddr a' ≠ hostAddr (a + i)) → (t.memWrite a bs).memByte a' = t.memByte a' := by
  induction bs with
  | nil => intro t a _ a' _; rfl
  | cons b bs ih =>
    intro t a h a' n
    show ((t.memPut a b).memWrite (a + 1) bs).memByte a' = _
    rw [ih (t.memPut a b) (a + 1) (spPut_wf _ _ _ _ h) a', memByte_memPut_other t h]
    · simpa using n 0 (by simp)
    · intro i hi
      have := n (i + 1) (by simpa using hi)
      rwa [show a + 1 + i = a + (i + 1) by omega]

/-- A write of bytes reads back, each at its place. -/
theorem memByte_memWrite_same (bs : List Byte) : ∀ (t : State) (a : Nat), spWf memDefault t.hmem = true → bs.length ≤ 2 ^ 64 →
    ∀ (k : Nat) (b : Byte), bs[k]? = some b → (t.memWrite a bs).memByte (a + k) = b := by
  induction bs with
  | nil => intro t a _ _ k b e; simp at e
  | cons b bs ih =>
    intro t a h hl k c e
    show ((t.memPut a b).memWrite (a + 1) bs).memByte (a + k) = _
    have hl' : bs.length + 1 ≤ 2 ^ 64 := by simpa using hl
    cases k with
    | zero =>
      rw [memByte_memWrite_other bs _ _ (spPut_wf _ _ _ _ h), Nat.add_zero, memByte_memPut_same t h]
      · simpa using e
      · intro i hi
        unfold hostAddr
        omega
    | succ k =>
      rw [show a + (k + 1) = a + 1 + k by omega]
      exact ih (t.memPut a b) (a + 1) (spPut_wf _ _ _ _ h) (by omega) k c (by simpa using e)

end Sys2Proof.Machine
end

