-- ==== Sys2Proof/Laws/Bar0.lean ====
section
/-! SUPPORT. An accepted BAR0 write: when it is accepted, and what it leaves. -/

namespace Sys2Proof.Machine

variable {s : State} {h : Handler} {r : RegRow} {off : Nat} {val : Word}

theorem writable_pf0 (hw : s.writable = true) : s.pf0 = true := by
  simp only [State.writable, Bool.and_eq_true] at hw; exact hw.1.1

theorem writable_key (hw : s.writable = true) : s.wd.key1 = none := by
  simp only [State.writable, Bool.and_eq_true, Option.isNone_iff_eq_none] at hw; exact hw.1.2

theorem writable_strict (hw : s.writable = true) : s.flag ROLE.AUDIT_POLICY.STRICT = false := by
  simp only [State.writable, Bool.and_eq_true, Bool.not_eq_true'] at hw; exact hw.2

/-- No lock, phase, domain or rule of its own refuses the write (R485). -/
theorem refuses_none (inst : Nat) (hs : s.flag ROLE.AUDIT_POLICY.STRICT = false) (hl : ∀ f ∈ r.fields, s.locked off f = false)
    (hp : ∀ f ∈ r.fields, s.phaseOk off f = true) (hd : s.offDomain off = false)
    (hc : h.chk s inst (s.reg off inst) (r.fieldBits val) = false) : s.refuses h r off inst val = none := by
  unfold State.refuses
  have h1 : ((r.fields.filter fun f => f.written (s.reg off inst) val).any (s.locked off)) = false := by
    rw [List.any_eq_false]
    intro f hf
    rw [hl f (List.mem_filter.mp hf).1]
    exact Bool.false_ne_true
  have h2 : ((r.fields.filter fun f => f.written (s.reg off inst) val).any fun f => !s.phaseOk off f) = false := by
    rw [List.any_eq_false]
    intro f hf
    rw [hp f (List.mem_filter.mp hf).1]
    exact Bool.false_ne_true
  simp only [h1, h2, hd, hc, hs, Bool.and_false, Bool.false_and, Bool.or_self, Bool.false_eq_true, if_false]

/-- A rule of the register's own refuses the write with cause STATE (R485). -/
theorem refuses_state (inst : Nat) (hl : ∀ f ∈ r.fields, s.locked off f = false) (hp : ∀ f ∈ r.fields, s.phaseOk off f = true)
    (hc : h.chk s inst (s.reg off inst) (r.fieldBits val) = true) : s.refuses h r off inst val = some causeState := by
  unfold State.refuses
  have h1 : ((r.fields.filter fun f => f.written (s.reg off inst) val).any (s.locked off)) = false := by
    rw [List.any_eq_false]
    intro f hf
    rw [hl f (List.mem_filter.mp hf).1]
    exact Bool.false_ne_true
  have h2 : ((r.fields.filter fun f => f.written (s.reg off inst) val).any fun f => !s.phaseOk off f) = false := by
    rw [List.any_eq_false]
    intro f hf
    rw [hp f (List.mem_filter.mp hf).1]
    exact Bool.false_ne_true
  simp only [h1, h2, hc, Bool.or_true, Bool.false_eq_true, if_false, if_true]

/-- A write that is refused is counted with its cause and does nothing else (R112, R485). -/
theorem bar0_refused {c : Nat} (hw : s.writable = true) (hr : findReg off = some r) (hd : off ≠ WDOG.HOST_DISABLE.off)
    (hc : s.refuses h r off (s.selInst r) val = some c) : bar0 h off val s = s.illegal 0 c off val.toNat := by
  unfold bar0
  have hb : s.breakKey off = s := by unfold State.breakKey; rw [writable_key hw]
  have hk : s.dropKey off = s := by unfold State.dropKey; simp [hd]
  simp only [writable_pf0 hw, hb, hr, hc, hk, Bool.not_true, Bool.false_eq_true, if_false]

/-- A write that nothing refuses is accepted. -/
theorem bar0_takes (hw : s.writable = true) (hr : findReg off = some r) (hl : ∀ f ∈ r.fields, s.locked off f = false)
    (hp : ∀ f ∈ r.fields, s.phaseOk off f = true) (hd : s.offDomain off = false)
    (hc : h.chk s (s.selInst r) (s.reg off (s.selInst r)) (r.fieldBits val) = false) :
    bar0 h off val s = s.accept h r off (s.selInst r) val := by
  unfold bar0
  have hn : s.refuses h r off (s.selInst r) val = none := refuses_none _ (writable_strict hw) hl hp hd hc
  simp only [writable_pf0 hw, writable_key hw, hr, hn, Bool.not_true, Bool.false_eq_true, if_false, Option.isSome_none]

/-- The handler adds nothing but its action to an accepted write. -/
abbrev Handler.endsPlain (h : Handler) : Prop := (h.chg, h.post) = (Handler.plain.chg, Handler.plain.post)

/-- An accepted write is stored, acts, and makes its audit entry. -/
theorem accept_eq (hpost : h.endsPlain) (h1 : off ≠ ROLE.AUDIT_TAIL.off) (h2 : isKeyData off = false) (inst : Nat) :
    s.accept h r off inst val =
      s.recorded (h.act (s.setReg off (r.store (s.reg off inst) val) inst) inst (r.fieldBits val)) off inst val := by
  obtain ⟨hchg, hpost⟩ := Prod.mk.inj hpost
  unfold State.accept State.recorded
  simp only [hchg, hpost, Handler.plain, h1, h2, Bool.false_eq_true, if_false]

/-- No field of the row stores what is written. -/
def RegRow.pulses (r : RegRow) : Bool := r.fields.all fun f => f.acc == .w1s || f.acc == .wo || f.acc == .ro

theorem store_pulses (hr : r.pulses = true) (old val : Word) : r.store old val = old := by
  unfold RegRow.pulses at hr
  unfold RegRow.store
  rw [List.all_eq_true] at hr
  generalize r.fields = l at hr
  induction l generalizing old with
  | nil => rfl
  | cons f l ih =>
    have hf := hr f (List.mem_cons_self ..)
    rw [List.foldl_cons]
    have : f.store val old = old := by
      unfold FieldRow.store
      cases hacc : f.acc <;> simp_all
    rw [this]
    exact ih old fun x hx => hr x (List.mem_cons_of_mem _ hx)

/-- A write of a register that only acts: its action, then the audit entry; `i` is the instance selected and `v` the word's fields. -/
theorem bar0_acts {i : Nat} {v : Word} (hi : s.selInst r = i) (hv : r.fieldBits val = v) (hcan : spWf regDefault s.regs = true) (hw : s.writable = true) (hr : findReg off = some r) (hpu : r.pulses = true)
    (hl : ∀ f ∈ r.fields, s.locked off f = false) (hp : ∀ f ∈ r.fields, s.phaseOk off f = true) (hd : s.offDomain off = false)
    (hc : h.chk s i (s.reg off i) v = false) (hpost : h.endsPlain) (h1 : off ≠ ROLE.AUDIT_TAIL.off) (h2 : isKeyData off = false) :
    bar0 h off val s = s.recorded (h.act s i v) off i val := by
  subst hi hv
  rw [bar0_takes hw hr hl hp hd hc, accept_eq hpost h1 h2, store_pulses hpu, setReg_self s hcan]

/-- A write of a register with fields that store: the stored word, the action, then the audit entry. -/
theorem bar0_stores {i : Nat} {w v : Word} (hi : s.selInst r = i) (hv : r.fieldBits val = v) (hst : r.store (s.reg off i) val = w)
    (hw : s.writable = true) (hr : findReg off = some r) (hl : ∀ f ∈ r.fields, s.locked off f = false)
    (hp : ∀ f ∈ r.fields, s.phaseOk off f = true) (hd : s.offDomain off = false) (hc : h.chk s i (s.reg off i) v = false)
    (hpost : h.endsPlain) (h1 : off ≠ ROLE.AUDIT_TAIL.off) (h2 : isKeyData off = false) :
    bar0 h off val s = s.recorded (h.act (s.setReg off w i) i v) off i val := by
  subst hi hv hst
  rw [bar0_takes hw hr hl hp hd hc, accept_eq hpost h1 h2]

theorem rwBits_pulses (hr : r.pulses = true) (w : Word) : r.rwBits w = 0#32 := by
  unfold RegRow.pulses at hr
  unfold RegRow.rwBits
  rw [List.all_eq_true] at hr
  generalize r.fields = l at hr
  generalize 0#32 = a
  induction l with
  | nil => rfl
  | cons f l ih =>
    have hf := hr f (List.mem_cons_self ..)
    rw [List.foldl_cons]
    have hi := ih fun x hx => hr x (List.mem_cons_of_mem _ hx)
    cases hacc : f.acc <;> rw [hacc] at hf <;> first | exact hi | exact absurd hf (by decide)

/-- The word that sets one bit of a register that only acts is that bit alone. -/
theorem pulse_word (hr : r.pulses = true) (o v : Word) : r.rwBits o ||| v = v := by rw [rwBits_pulses hr]; simp

/-- The write that sets one bit of a register that only acts. -/
theorem bit_eq {f : Fld} (hr : findReg f.off = some r) (hpu : r.pulses = true) :
    bar0Bit h f s = bar0 h f.off (BitVec.ofNat 32 (2 ^ f.lo)) s := by
  unfold bar0Bit
  rw [hr]
  simp only [rwBits_pulses hpu, BitVec.zero_or]

/-- The write that sets one bit of a register that only acts, accepted. -/
theorem bit_acts {f : Fld} {i : Nat} {v : Word} (hi : s.selInst r = i) (hv : r.fieldBits (BitVec.ofNat 32 (2 ^ f.lo)) = v)
    (hcan : spWf regDefault s.regs = true) (hw : s.writable = true) (hr : findReg f.off = some r) (hpu : r.pulses = true)
    (hl : ∀ g ∈ r.fields, s.locked f.off g = false) (hp : ∀ g ∈ r.fields, s.phaseOk f.off g = true) (hd : s.offDomain f.off = false)
    (hc : h.chk s i (s.reg f.off i) v = false) (hpost : h.endsPlain) (h1 : f.off ≠ ROLE.AUDIT_TAIL.off)
    (h2 : isKeyData f.off = false) :
    bar0Bit h f s = s.recorded (h.act s i v) f.off i (BitVec.ofNat 32 (2 ^ f.lo)) := by
  rw [bit_eq hr hpu]
  exact bar0_acts hi hv hcan hw hr hpu hl hp hd hc hpost h1 h2

theorem serving_cases (hs : s.serving = true) : s.phase = phCONFIGURE ∨ s.phase = phRELEASED := by
  simpa [State.serving] using hs

theorem living_cases (hs : s.living = true) : s.phase = phLOAD ∨ s.phase = phCONFIGURE ∨ s.phase = phRELEASED := by
  simpa [State.living, State.serving] using hs

theorem canonical_regs (hi : s.canonical = true) : spWf regDefault s.regs = true := by
  simp only [State.canonical, Bool.and_eq_true] at hi; exact hi.1.1.1.1

theorem canonical_hmem (hi : s.canonical = true) : spWf memDefault s.hmem = true := by
  simp only [State.canonical, Bool.and_eq_true] at hi; exact hi.1.2

/-! ### Rows with fields that store, written one bit at a time -/

/-- Whether a field stores what is written. -/
def FieldRow.keepsBits (f : FieldRow) : Bool := f.acc == .rw || f.acc == .rwl

/-- Whether bit `i` lies in the field. -/
def FieldRow.has (f : FieldRow) (i : Nat) : Bool := decide (f.lo ≤ i) && decide (i < f.lo + f.w)

/-- The row's fields lie within the word, none clears by writing 1, and bit `k` lies in none that stores. -/
def RegRow.frees (r : RegRow) (k : Nat) : Bool :=
  r.fields.all fun f => decide (f.lo + f.w ≤ 32) && f.acc != .w1c && !(f.keepsBits && f.has k)

theorem getLsbD_put_get (a w : Word) (lo n i : Nat) (h : lo + n ≤ 32) :
    (fieldPut a lo n (fieldGet w lo n)).getLsbD i = if lo ≤ i ∧ i < lo + n then w.getLsbD i else a.getLsbD i := by
  rw [getLsbD_fieldPut _ _ _ _ _ h]
  by_cases hc : lo ≤ i ∧ i < lo + n
  · rw [if_pos hc, if_pos hc, testBit_fieldGet, show lo + (i - lo) = i by omega]
    simp; omega
  · rw [if_neg hc, if_neg hc]

theorem getLsbD_rwBits (w : Word) (i : Nat) (hr : r.fields.all (fun f => decide (f.lo + f.w ≤ 32)) = true) :
    (r.rwBits w).getLsbD i = ((r.fields.any fun f => f.keepsBits && f.has i) && w.getLsbD i) := by
  have key : ∀ (g : Word → FieldRow → Word), (∀ a f, g a f = if f.keepsBits then fieldPut a f.lo f.w (fieldGet w f.lo f.w) else a) →
      ∀ (l : List FieldRow) (a : Word), l.all (fun f => decide (f.lo + f.w ≤ 32)) = true →
      (l.foldl g a).getLsbD i = if l.any (fun f => f.keepsBits && f.has i) then w.getLsbD i else a.getLsbD i := by
    intro g hg l
    induction l with
    | nil => intro a _; rfl
    | cons f l ih =>
      intro a h
      rw [List.all_cons, Bool.and_eq_true, decide_eq_true_iff] at h
      rw [List.foldl_cons, ih _ h.2, List.any_cons]
      by_cases hl : (l.any fun f => f.keepsBits && f.has i) = true
      · rw [hl, Bool.or_true, if_pos rfl, if_pos rfl]
      · rw [Bool.not_eq_true] at hl
        have he : f.has i = decide (f.lo ≤ i ∧ i < f.lo + f.w) := by unfold FieldRow.has; rw [Bool.decide_and]
        rw [hl, Bool.or_false, hg, if_neg (by simp)]
        cases f.keepsBits
        · simp
        · rw [if_pos rfl, getLsbD_put_get _ _ _ _ _ h.1, he]
          simp
  unfold RegRow.rwBits
  rw [key _ (fun a f => by unfold FieldRow.keepsBits; cases f.acc <;> rfl) _ _ hr]
  cases (r.fields.any fun f => f.keepsBits && f.has i) <;> simp

theorem getLsbD_fieldBits (w : Word) (i : Nat) (hr : r.fields.all (fun f => decide (f.lo + f.w ≤ 32)) = true) :
    (r.fieldBits w).getLsbD i = ((r.fields.any fun f => f.has i) && w.getLsbD i) := by
  unfold RegRow.fieldBits
  have key : ∀ (l : List FieldRow) (a : Word), l.all (fun f => decide (f.lo + f.w ≤ 32)) = true →
      (l.foldl (fun a f => fieldPut a f.lo f.w (fieldGet w f.lo f.w)) a).getLsbD i =
        if l.any (fun f => f.has i) then w.getLsbD i else a.getLsbD i := by
    intro l
    induction l with
    | nil => intro a _; rfl
    | cons f l ih =>
      intro a h
      rw [List.all_cons, Bool.and_eq_true, decide_eq_true_iff] at h
      rw [List.foldl_cons, ih _ h.2, List.any_cons]
      by_cases hl : (l.any fun f => f.has i) = true
      · rw [hl, Bool.or_true, if_pos rfl, if_pos rfl]
      · rw [Bool.not_eq_true] at hl
        have he : f.has i = decide (f.lo ≤ i ∧ i < f.lo + f.w) := by unfold FieldRow.has; rw [Bool.decide_and]
        rw [hl, Bool.or_false, getLsbD_put_get _ _ _ _ _ h.1, he]
        simp
  rw [key _ _ hr]
  cases (r.fields.any fun f => f.has i) <;> simp

/-- A field of the row reads in the row's fields as it was written. -/
theorem fieldGet_fieldBits (w : Word) {f : FieldRow} (hf : f ∈ r.fields) (hr : r.fields.all (fun f => decide (f.lo + f.w ≤ 32)) = true) :
    fieldGet (r.fieldBits w) f.lo f.w = fieldGet w f.lo f.w := by
  apply Nat.eq_of_testBit_eq
  intro j
  rw [testBit_fieldGet, testBit_fieldGet, getLsbD_fieldBits w _ hr]
  by_cases hj : j < f.w
  · have : (r.fields.any fun g => g.has (f.lo + j)) = true := by
      rw [List.any_eq_true]
      exact ⟨f, hf, by unfold FieldRow.has; simp; omega⟩
    rw [this, Bool.true_and]
  · rw [decide_eq_false hj, Bool.false_and, Bool.false_and]

theorem frees_in {k : Nat} (hr : r.frees k = true) : r.fields.all (fun f => decide (f.lo + f.w ≤ 32)) = true := by
  unfold RegRow.frees at hr
  rw [List.all_eq_true] at hr ⊢
  intro f hf
  have := hr f hf
  simp only [Bool.and_eq_true] at this
  exact this.1.1

theorem getLsbD_bit (k i : Nat) (hk : k < 32) : (BitVec.ofNat 32 (2 ^ k)).getLsbD i = decide (i = k) := by
  rw [BitVec.getLsbD_ofNat, Nat.testBit_two_pow]
  by_cases h : i = k
  · subst h; simp [hk]
  · have : ¬ k = i := fun e => h e.symm
    simp [h, this]

/-- A field that stores keeps its value in the word that sets one bit outside it. -/
theorem fieldGet_rwOr (old : Word) {k : Nat} (hk : k < 32) (hr : r.frees k = true) {f : FieldRow} (hf : f ∈ r.fields)
    (ha : f.keepsBits = true) : fieldGet (r.rwBits old ||| BitVec.ofNat 32 (2 ^ k)) f.lo f.w = fieldGet old f.lo f.w := by
  apply Nat.eq_of_testBit_eq
  intro j
  rw [testBit_fieldGet, testBit_fieldGet, BitVec.getLsbD_or, getLsbD_rwBits _ _ (frees_in hr), getLsbD_bit _ _ hk]
  by_cases hj : j < f.w
  · have h1 : (r.fields.any fun g => g.keepsBits && g.has (f.lo + j)) = true := by
      rw [List.any_eq_true]
      exact ⟨f, hf, by rw [ha]; unfold FieldRow.has; simp; omega⟩
    have h2 : ¬ f.lo + j = k := by
      intro e
      unfold RegRow.frees at hr
      rw [List.all_eq_true] at hr
      have := hr f hf
      rw [ha, ← e] at this
      unfold FieldRow.has at this
      simp at this
      omega
    rw [h1, decide_eq_false h2, Bool.true_and, Bool.or_false]
  · rw [decide_eq_false hj, Bool.false_and, Bool.false_and]

/-- The bit set reads 1. -/
theorem fieldGet_bitOr (old : Word) {k : Nat} (hk : k < 32) : fieldGet (old ||| BitVec.ofNat 32 (2 ^ k)) k 1 = 1 := by
  have h : (fieldGet (old ||| BitVec.ofNat 32 (2 ^ k)) k 1).testBit 0 = true := by
    rw [testBit_fieldGet, BitVec.getLsbD_or, getLsbD_bit _ _ hk]
    simp
  have hl : fieldGet (old ||| BitVec.ofNat 32 (2 ^ k)) k 1 < 2 := fieldGet_lt _ _ _
  rw [Nat.testBit_zero] at h
  have := of_decide_eq_true h
  omega

/-- The word that sets one bit leaves what the row stores. -/
theorem store_bit (old : Word) {k : Nat} (hk : k < 32) (hr : r.frees k = true) :
    r.store old (r.rwBits old ||| BitVec.ofNat 32 (2 ^ k)) = old := by
  have hall : ∀ f ∈ r.fields, f.store (r.rwBits old ||| BitVec.ofNat 32 (2 ^ k)) old = old := by
    intro f hf
    have hfr := hr
    unfold RegRow.frees at hfr
    rw [List.all_eq_true] at hfr
    have h := hfr f hf
    simp only [Bool.and_eq_true, decide_eq_true_iff] at h
    unfold FieldRow.store
    cases hacc : f.acc with
    | rw => simp only; rw [fieldGet_rwOr old hk hr hf (by unfold FieldRow.keepsBits; rw [hacc]; rfl), fieldPut_fieldGet _ _ _ h.1.1]
    | rwl => simp only; rw [fieldGet_rwOr old hk hr hf (by unfold FieldRow.keepsBits; rw [hacc]; rfl), fieldPut_fieldGet _ _ _ h.1.1]
    | w1c => rw [hacc] at h; exact absurd h.1.2 (by decide)
    | w1s => rfl
    | wo => rfl
    | ro => rfl
  unfold RegRow.store
  generalize r.rwBits old ||| BitVec.ofNat 32 (2 ^ k) = v at hall
  generalize r.fields = l at hall
  induction l with
  | nil => rfl
  | cons f l ih =>
    rw [List.foldl_cons, hall f (List.mem_cons_self ..)]
    exact ih fun g hg => hall g (List.mem_cons_of_mem _ hg)

/-- The write that sets one bit of a register whose other fields store: its action, then the audit entry. -/
theorem bit_sets {f : Fld} {i : Nat} {w : Word} (hi : s.selInst r = i) (hval : r.rwBits (s.reg f.off i) ||| BitVec.ofNat 32 (2 ^ f.lo) = w)
    (hcan : spWf regDefault s.regs = true) (hw : s.writable = true) (hr : findReg f.off = some r) (hk : f.lo < 32)
    (hfr : r.frees f.lo = true) (hl : ∀ g ∈ r.fields, s.locked f.off g = false) (hp : ∀ g ∈ r.fields, s.phaseOk f.off g = true)
    (hd : s.offDomain f.off = false) (hc : h.chk s i (s.reg f.off i) (r.fieldBits w) = false) (hpost : h.endsPlain)
    (h1 : f.off ≠ ROLE.AUDIT_TAIL.off) (h2 : isKeyData f.off = false) :
    bar0Bit h f s = s.recorded (h.act s i (r.fieldBits w)) f.off i w := by
  subst hi hval
  unfold bar0Bit
  rw [hr]
  dsimp only
  rw [bar0_takes hw hr hl hp hd hc, accept_eq hpost h1 h2, store_bit _ hk hfr, setReg_self s hcan]

/-- A write of one bit that a rule of the register's own refuses. -/
theorem bit_refused {f : Fld} {i : Nat} {w : Word} (hi : s.selInst r = i)
    (hval : r.rwBits (s.reg f.off i) ||| BitVec.ofNat 32 (2 ^ f.lo) = w) (hw : s.writable = true) (hr : findReg f.off = some r)
    (hl : ∀ g ∈ r.fields, s.locked f.off g = false) (hp : ∀ g ∈ r.fields, s.phaseOk f.off g = true) (hne : f.off ≠ WDOG.HOST_DISABLE.off)
    (hc : h.chk s i (s.reg f.off i) (r.fieldBits w) = true) : bar0Bit h f s = s.illegal 0 causeState f.off w.toNat := by
  subst hi hval
  unfold bar0Bit
  rw [hr]
  exact bar0_refused hw hr hne (refuses_state _ hl hp hc)

/-- A bit that no field stores and that is not the one set reads 0 in the word that sets one bit. -/
theorem fieldGet_bitClear (old : Word) {k j : Nat} (hk : k < 32) (hjk : j ≠ k) (hr : r.frees k = true)
    (hj : (r.fields.any fun g => g.keepsBits && g.has j) = false) :
    fieldGet (r.rwBits old ||| BitVec.ofNat 32 (2 ^ k)) j 1 = 0 := by
  apply Nat.eq_of_testBit_eq
  intro i
  rw [testBit_fieldGet, BitVec.getLsbD_or, getLsbD_rwBits _ _ (frees_in hr), getLsbD_bit _ _ hk, Nat.zero_testBit]
  cases i with
  | zero => rw [Nat.add_zero, hj, decide_eq_false hjk, Bool.false_and, Bool.or_false, Bool.and_false]
  | succ i => rw [decide_eq_false (by omega), Bool.false_and]

/-- As `refuses_none`, where the phase takes the fields that are written. -/
theorem refuses_none_of (inst : Nat) (hs : s.flag ROLE.AUDIT_POLICY.STRICT = false) (hl : ∀ f ∈ r.fields, s.locked off f = false)
    (hp : ∀ f ∈ r.fields, f.written (s.reg off inst) val = true → s.phaseOk off f = true) (hd : s.offDomain off = false)
    (hc : h.chk s inst (s.reg off inst) (r.fieldBits val) = false) : s.refuses h r off inst val = none := by
  unfold State.refuses
  have h1 : ((r.fields.filter fun f => f.written (s.reg off inst) val).any (s.locked off)) = false := by
    rw [List.any_eq_false]
    intro f hf
    rw [hl f (List.mem_filter.mp hf).1]
    exact Bool.false_ne_true
  have h2 : ((r.fields.filter fun f => f.written (s.reg off inst) val).any fun f => !s.phaseOk off f) = false := by
    rw [List.any_eq_false]
    intro f hf
    rw [hp f (List.mem_filter.mp hf).1 (List.mem_filter.mp hf).2]
    exact Bool.false_ne_true
  simp only [h1, h2, hd, hc, hs, Bool.and_false, Bool.false_and, Bool.or_self, Bool.false_eq_true, if_false]

/-- As `bit_sets`, where the phase takes the fields that are written. -/
theorem bit_sets_of {f : Fld} {i : Nat} {w : Word} (hi : s.selInst r = i) (hval : r.rwBits (s.reg f.off i) ||| BitVec.ofNat 32 (2 ^ f.lo) = w)
    (hcan : spWf regDefault s.regs = true) (hw : s.writable = true) (hr : findReg f.off = some r) (hk : f.lo < 32)
    (hfr : r.frees f.lo = true) (hl : ∀ g ∈ r.fields, s.locked f.off g = false)
    (hp : ∀ g ∈ r.fields, g.written (s.reg f.off i) w = true → s.phaseOk f.off g = true)
    (hd : s.offDomain f.off = false) (hc : h.chk s i (s.reg f.off i) (r.fieldBits w) = false) (hpost : h.endsPlain)
    (h1 : f.off ≠ ROLE.AUDIT_TAIL.off) (h2 : isKeyData f.off = false) :
    bar0Bit h f s = s.recorded (h.act s i (r.fieldBits w)) f.off i w := by
  subst hi hval
  have hb : s.breakKey f.off = s := by unfold State.breakKey; rw [writable_key hw]
  have hn := refuses_none_of (h := h) (s.selInst r) (writable_strict hw) hl hp hd hc
  have e : bar0 h f.off (r.rwBits (s.reg f.off (s.selInst r)) ||| BitVec.ofNat 32 (2 ^ f.lo)) s =
      s.accept h r f.off (s.selInst r) (r.rwBits (s.reg f.off (s.selInst r)) ||| BitVec.ofNat 32 (2 ^ f.lo)) := by
    unfold bar0
    simp only [writable_pf0 hw, writable_key hw, hr, hn, Bool.not_true, Bool.false_eq_true, if_false, Option.isSome_none]
  unfold bar0Bit
  rw [hr]
  dsimp only
  rw [e, accept_eq hpost h1 h2, store_bit _ hk hfr, setReg_self s hcan]

/-! ### The ring window -/

theorem shift16 (n : Nat) : n >>> 16 = n / 65536 := Nat.shiftRight_eq_div_pow n 16

theorem ring_locked (s : State) {o : Nat} (h1 : 0x40000 ≤ o) (h2 : o < 0x80000) (f : FieldRow) : s.locked o f = false := by
  unfold State.locked
  repeat rw [if_neg (by simp only [ROLE.MAKER_LOCK.off, ROLE.AUDIT_POLICY.off, IMG.POLICY.off, IMG.INSTALLER_KEY.off, IMG.MIN_VERSION_SLOT.off,
    WDOG.POLICY.off, WDOG.HOST_CTRL.off, WDOG.HOST_PERIOD.off, WDOG.HOST_TASKS.off, WDOG.SYS_PERIOD.off, WDOG.GRACE.off, WDOG.CRASH_BASE_LO.off,
    WDOG.CRASH_BASE_HI.off, WDOG.QUIESCE_LIMIT.off, WDOG.HOST_DISABLE.off]; omega)]

theorem ring_offDomain (s : State) {o : Nat} (h1 : 0x40000 ≤ o) (h2 : o < 0x80000) : s.offDomain o = false := by
  unfold State.offDomain
  dsimp only
  repeat rw [if_neg (by simp only [shift16, SPOKE.PORT_CTRL.off, SPOKE.PORT_STATUS.off, RDMA.PORT_MAC_LO.off, RDMA.PORT_CTRL.off]; omega)]

theorem ring_phase (hs : s.serving = true) {o : Nat} (h1 : 0x40000 ≤ o) (h2 : o < 0x80000) (f : FieldRow) : s.phaseOk o f = true := by
  unfold State.phaseOk
  dsimp only
  repeat rw [if_neg (by simp only [shift16, SYS.STROKE_PERIOD.off, SYS.STROKE_TARGET_LO.off, SYS.STROKE_TARGET_HI.off, SYS.STROKE_CTRL.off, CLK.DOMAIN_SELECT.off,
    CLK.XING_DIRTY.off, CLK.DOMAIN_CTRL.off, WDOG.HOST_CTRL.off, TIER.QUIESCE_CTRL.off, XLAT.REBUILD_CTRL.off, TIER.LOG_SCAN_CTRL.off,
    XLAT.AREA_CTRL.off, CMPR.CONST_AREA.off, POOL.CARVE_DRAM.off, POOL.CARVE_FLASH.off, POOL.SWAP_CACHE.off, TIER.REGION_ACTION.off,
    SPOKE.PELOTON_ID.off, SPOKE.MEMBER_CTRL.off]; omega)]
  rcases serving_cases hs with h | h <;> rw [h] <;> rfl

/-- The control registers of a ring pair in the window (Table 21-6). -/
theorem find_sqCtrl {tid q : Nat} (ht : tid < 1024) (hq : q < 8) :
    findReg (fnOff tid q FN.SQ_CTRL.rel) = some ⟨FN.SQ_CTRL.rel, 1, none, [⟨0, 5, .rw, 6⟩, ⟨8, 3, .rw, 0⟩, ⟨16, 1, .rw, 0⟩]⟩ := by
  have hw : inRingWindow (fnOff tid q FN.SQ_CTRL.rel) = true := by
    unfold inRingWindow fnOff FN.SQ_CTRL.rel
    rw [Bool.and_eq_true, decide_eq_true_iff, decide_eq_true_iff]
    omega
  have hr : ringRel (fnOff tid q FN.SQ_CTRL.rel) = FN.SQ_CTRL.rel := by
    unfold ringRel fnOff FN.SQ_CTRL.rel
    omega
  unfold findReg
  rw [if_pos hw, hr]
  decide

theorem find_cqCtrl {tid q : Nat} (ht : tid < 1024) (hq : q < 8) :
    findReg (fnOff tid q FN.CQ_CTRL.rel) = some ⟨FN.CQ_CTRL.rel, 1, none, [⟨0, 5, .rw, 6⟩, ⟨8, 1, .rw, 0⟩, ⟨9, 1, .rw, 0⟩, ⟨16, 11, .rw, 0⟩]⟩ := by
  have hw : inRingWindow (fnOff tid q FN.CQ_CTRL.rel) = true := by
    unfold inRingWindow fnOff FN.CQ_CTRL.rel
    rw [Bool.and_eq_true, decide_eq_true_iff, decide_eq_true_iff]
    omega
  have hr : ringRel (fnOff tid q FN.CQ_CTRL.rel) = FN.CQ_CTRL.rel := by
    unfold ringRel fnOff FN.CQ_CTRL.rel
    omega
  unfold findReg
  rw [if_pos hw, hr]
  decide

end Sys2Proof.Machine
end

