-- ==== Sys2Proof/Laws/Audit.lean ====
section
/-! SUPPORT. Registers that an audit entry, a counted illegal sequence, a fault's report and the entry into FAULT leave alone. -/

namespace Sys2Proof.Machine

theorem key_ne {o o' i i' : Nat} (h : o < 0x1000000) (h' : o' < 0x1000000) (n : o ≠ o') : regKey o i ≠ regKey o' i' :=
  fun e => n (regKey_inj h h' e).1

/-- From `s` to `t` the register store stays canonical, and no register outside `P` changes. -/
structure RegsBut (P : Nat → Bool) (s t : State) : Prop where
  wf : spWf regDefault s.regs = true → spWf regDefault t.regs = true
  reg : spWf regDefault s.regs = true → ∀ o i, o < 0x1000000 → P o = false → t.reg o i = s.reg o i

variable {P Q : Nat → Bool} {s t u : State}

theorem RegsBut.refl (s : State) : RegsBut P s s := ⟨id, fun _ _ _ _ _ => rfl⟩

theorem RegsBut.trans (h : RegsBut P s t) (k : RegsBut P t u) : RegsBut P s u :=
  ⟨fun w => k.wf (h.wf w), fun w o i ho hp => (k.reg (h.wf w) o i ho hp).trans (h.reg w o i ho hp)⟩

theorem RegsBut.mono (h : RegsBut P s t) (hq : ∀ o, P o = true → Q o = true) : RegsBut Q s t :=
  ⟨h.wf, fun w o i ho hn => h.reg w o i ho (by
    cases hp : P o
    · rfl
    · rw [hq o hp] at hn; cases hn)⟩

theorem reg_of_regs (e : t.regs = s.regs) (o i : Nat) : t.reg o i = s.reg o i := by unfold State.reg; rw [e]

/-- What does not touch the registers. -/
theorem RegsBut.same (h : RegsBut P s t) (e : u.regs = t.regs) : RegsBut P s u :=
  h.trans ⟨fun w => e ▸ w, fun _ o i _ _ => reg_of_regs e o i⟩

theorem RegsBut.setReg (h : RegsBut P s t) (f : Nat) (w : Word) (j : Nat) (hp : P f = true) (hf : f < 0x1000000) :
    RegsBut P s (t.setReg f w j) :=
  h.trans ⟨fun k => setReg_wf t k f w j, fun k o i ho hn => reg_setReg_other t k f w j (key_ne ho hf fun e => by
    rw [e, hp] at hn; cases hn)⟩

theorem RegsBut.put (h : RegsBut P s t) (f : Fld) (v j : Nat) (hp : P f.off = true) (hf : f.off < 0x1000000) :
    RegsBut P s (t.put f v j) := h.setReg _ _ _ hp hf

theorem RegsBut.sat (h : RegsBut P s t) (f : Fld) (n j : Nat) (hp : P f.off = true) (hf : f.off < 0x1000000) :
    RegsBut P s (t.sat f n j) := h.setReg _ _ _ hp hf

theorem RegsBut.setPair (h : RegsBut P s t) (f v j : Nat) (hp : P f = true) (hq : P (f + 4) = true) (hf : f + 4 < 0x1000000) :
    RegsBut P s (t.setPair f v j) := (h.setReg _ _ _ hp (Nat.lt_of_le_of_lt (Nat.le_add_right _ _) hf)).setReg _ _ _ hq hf

theorem RegsBut.ite {c : Prop} [Decidable c] {a b : State} (ha : RegsBut P s a) (hb : RegsBut P s b) :
    RegsBut P s (if c then a else b) := by
  split
  · exact ha
  · exact hb

theorem RegsBut.foldl {α : Type} {f : State → α → State} (h : RegsBut P s t) (l : List α)
    (hf : ∀ u x, RegsBut P s u → RegsBut P s (f u x)) : RegsBut P s (l.foldl f t) := by
  induction l generalizing t with
  | nil => exact h
  | cons x l ih => exact ih (hf t x h)

theorem RegsBut.get (h : RegsBut P s t) (w : spWf regDefault s.regs = true) (f : Fld) (i : Nat) (hf : f.off < 0x1000000)
    (hp : P f.off = false) : t.get f i = s.get f i := by
  unfold State.get
  rw [h.reg w f.off i hf hp]

theorem memWrite_regs (bs : List Byte) : ∀ (t : State) (a : Nat), (t.memWrite a bs).regs = t.regs := by
  induction bs with
  | nil => intro t a; rfl
  | cons b bs ih => intro t a; exact ih (t.memPut a b) (a + 1)

/-- The registers of the audit ring that an entry moves. -/
def auditRegs (o : Nat) : Bool := o == ROLE.AUDIT_HEAD.off || o == ROLE.AUDIT_STATUS.off || o == ROLE.AUDIT_DROPPED.off

theorem auditWrite_regs (s : State) (e : List Byte) : RegsBut auditRegs s (s.auditWrite e) := by
  unfold State.auditWrite
  dsimp only
  have h (a : Nat) := ((RegsBut.refl (P := auditRegs) s).same (memWrite_regs e s a)).put ROLE.AUDIT_HEAD.COUNT
    ((s.get ROLE.AUDIT_HEAD.COUNT + 1) % 2 ^ 32) 0 (by decide) (by decide)
  exact .ite ((h _).same rfl) (h _)

theorem setHeld_regs (s : State) (l : List (List Byte)) : RegsBut auditRegs s (s.setHeld l) := by
  unfold State.setHeld
  have h : RegsBut auditRegs s { s with role := { s.role with held := l } } := (RegsBut.refl s).same rfl
  exact h.put ROLE.AUDIT_STATUS.HELD l.length 0 (by decide) (by decide)

/-- An audit entry leaves every register but its ring's. -/
theorem audit_regs (s : State) (actor event subject old written after : Nat) (detail : List Byte) (dword : Nat) :
    RegsBut auditRegs s (s.audit actor event subject old written after detail dword) := by
  unfold State.audit
  dsimp only
  have h : RegsBut auditRegs s { s with role := { s.role with auditSeq := s.role.auditSeq + 1 } } := (RegsBut.refl s).same rfl
  refine .ite (h.trans (auditWrite_regs _ _)) (.ite (h.trans (setHeld_regs _ _)) ?_)
  exact (h.put _ _ _ (by decide) (by decide)).sat _ _ _ (by decide) (by decide)

/-- The registers of the capture of illegal register sequences. -/
def illegalRegs (o : Nat) : Bool := ROLE.ILLEGAL_COUNT.off ≤ o && o ≤ ROLE.ILLEGAL_STROKE_LO.off + 4

/-- A counted illegal sequence leaves every register but those of its capture. -/
theorem illegal_regs (s : State) (path cause off value : Nat) : RegsBut illegalRegs s (s.illegal path cause off value) := by
  unfold State.illegal
  dsimp only
  have h := (RegsBut.refl (P := illegalRegs) s).sat ROLE.ILLEGAL_COUNT.COUNT 1 0 (by decide) (by decide)
  refine .ite h ?_
  exact (((((h.put _ _ _ (by decide) (by decide)).put _ _ _ (by decide) (by decide)).put _ _ _ (by decide) (by decide)).put _ _ _
    (by decide) (by decide)).put _ _ _ (by decide) (by decide)).setPair _ _ _ (by decide) (by decide) (by decide)

/-- Block ERR. -/
def errRegs (o : Nat) : Bool := o >>> 16 == 0x14

theorem fault_regs (s : State) (cls source info : Nat) (hc : cls < 8) : RegsBut errRegs s (s.fault cls source info) := by
  have hw (b : Nat) : b < 8 → errRegs (ERR.COUNT_CORRECTED_LO.off + 8 * b) = true ∧
      errRegs (ERR.COUNT_CORRECTED_LO.off + 8 * b + 4) = true ∧ ERR.COUNT_CORRECTED_LO.off + 8 * b + 4 < 0x1000000 ∧
      errRegs (ERR.OBS_COUNT.COUNT.word b).off = true ∧ (ERR.OBS_COUNT.COUNT.word b).off < 0x1000000 := by
    revert b; decide
  obtain ⟨w1, w2, w3, w4, w5⟩ := hw cls hc
  unfold State.fault State.add64
  dsimp only
  have h1 := (((RegsBut.refl (P := errRegs) s).setPair (ERR.COUNT_CORRECTED_LO.off + 8 * cls)
    ((s.pair (ERR.COUNT_CORRECTED_LO.off + 8 * cls) + 1) % 2 ^ 64) 0 w1 w2 w3).setReg ERR.STATUS.off
    (s.reg ERR.STATUS.off ||| BitVec.ofNat 32 (2 ^ cls)) 0 (by decide) (by decide))
  have h2 := RegsBut.ite (c := s.obsOpen = true) (h1.sat (ERR.OBS_COUNT.COUNT.word cls) 1 0 w4 w5) h1
  refine .ite (.same (.ite h2 ?_) rfl) (.ite h2 ?_)
  all_goals exact ((((h2.put _ _ _ (by decide) (by decide)).put _ _ _ (by decide) (by decide)).put _ _ _ (by decide)
    (by decide)).setPair _ _ _ (by decide) (by decide) (by decide)).setPair _ _ _ (by decide) (by decide) (by decide)

/-- The Freewheel states, and the link states and queue pairs of the ports that go down with them. -/
def dropRegs (o : Nat) : Bool := o == SPOKE.FREEWHEEL_STATUS.off || o == SPOKE.PORT_STATUS.off || o == RDMA.QP_STATUS.off

theorem markErr_regs (s : State) (q cause : Nat) : RegsBut dropRegs s (s.markErr q cause) := by
  have h := ((RegsBut.refl (P := dropRegs) s).put RDMA.QP_STATUS.STATE qpERR q (by decide) (by decide)).put RDMA.QP_STATUS.ERR_CAUSE cause q
    (by decide) (by decide)
  exact h.same rfl

theorem cutPort_regs (s : State) (p : Nat) : RegsBut dropRegs s (s.cutPort p) := by
  have h := (RegsBut.refl (P := dropRegs) s).put SPOKE.PORT_STATUS.LINK_UP 0 p (by decide) (by decide)
  unfold State.cutPort
  dsimp only
  refine .ite h (RegsBut.foldl ?_ _ fun u q k => k.trans (markErr_regs u q 5))
  exact h.same rfl

theorem dropHolds_regs (s : State) : RegsBut dropRegs s s.dropHolds := by
  unfold State.dropHolds
  refine RegsBut.foldl (.refl s) _ fun u i h => ?_
  dsimp only
  refine .ite ?_ h
  exact ((h.put _ _ _ rfl (by show SPOKE.FREEWHEEL_STATUS.off < _; decide)).trans (cutPort_regs _ _)).trans (cutPort_regs _ _)

theorem toPhase_phase (s : State) (h : spWf regDefault s.regs = true) (ph : Nat) (hp : ph < 16) : (s.toPhase ph).phase = ph := by
  unfold State.toPhase State.phase
  have hw : spWf regDefault (s.put SYS.BRINGUP_PHASE.PHASE ph).regs = true := setReg_wf _ h _ _ _
  rw [(audit_regs _ _ _ _ _ _ _ _ _).get hw _ _ (by decide) (by decide), get_put_same s h _ _ _ (by decide)]
  exact Nat.mod_eq_of_lt hp

/-- After the entry into FAULT the phase is FAULT. -/
theorem enterFault_phase (s : State) (h : spWf regDefault s.regs = true) : s.enterFault.phase = phFAULT := by
  unfold State.enterFault
  split
  · assumption
  · dsimp only
    have h1 := toPhase_phase s h phFAULT (by decide)
    have h2 : spWf regDefault (s.toPhase phFAULT).regs = true := (audit_regs _ _ _ _ _ _ _ _ _).wf (setReg_wf _ h _ _ _)
    have h3 := (dropHolds_regs (((s.toPhase phFAULT).emit .viral).event none 0x30 0)).get h2 SYS.BRINGUP_PHASE.PHASE 0 (by decide)
      (by decide)
    exact h3.trans h1

theorem leBytes_length (n : Nat) : ∀ x, (leBytes n x).length = n := by
  induction n with
  | zero => intro x; rfl
  | succ n ih => intro x; exact congrArg (· + 1) (ih (x / 256))

theorem padTo_length (n : Nat) (bs : List Byte) : (padTo n bs).length = n := by
  unfold padTo zeros
  rw [List.length_take, List.length_append, List.length_replicate]
  omega

/-- An audit entry is 64 bytes (R108). -/
theorem auditBytes_length (seq stroke actor event subject old written after : Nat) (detail : List Byte) (dword : Nat) :
    (auditBytes seq stroke actor event subject old written after detail dword).length = 64 := by
  unfold auditBytes zeros
  simp only [List.length_append, leBytes_length, padTo_length, List.length_replicate]

/-- An entry's bytes go to the ring's next place, the head moves on, and the vector may be signalled (R109, R523). -/
theorem auditWrite_eq (s : State) (e : List Byte) (a n : Nat)
    (ha : s.pair ROLE.AUDIT_BASE_LO.off + 64 * (s.get ROLE.AUDIT_HEAD.COUNT % s.auditSize) = a)
    (hn : (s.get ROLE.AUDIT_HEAD.COUNT + 1) % 2 ^ 32 = n) :
    s.auditWrite e = (s.memWrite a e).put ROLE.AUDIT_HEAD.COUNT n ∨
      ∃ v, s.auditWrite e = ((s.memWrite a e).put ROLE.AUDIT_HEAD.COUNT n).signal 0 v := by
  have h : ∃ (c : Prop) (_ : Decidable c) (v : Nat), s.auditWrite e =
      if c then ((s.memWrite a e).put ROLE.AUDIT_HEAD.COUNT n).signal 0 v else (s.memWrite a e).put ROLE.AUDIT_HEAD.COUNT n := by
    unfold State.auditWrite
    dsimp only
    rw [ha, hn]
    exact ⟨_, _, _, rfl⟩
  obtain ⟨c, d, v, h⟩ := h
  by_cases hc : c
  · exact .inr ⟨v, by rw [h, if_pos hc]⟩
  · exact .inl (by rw [h, if_neg hc])

theorem memWrite_role (bs : List Byte) : ∀ (t : State) (a : Nat), (t.memWrite a bs).role = t.role := by
  induction bs with
  | nil => intro t a; rfl
  | cons b bs ih => intro t a; exact ih (t.memPut a b) (a + 1)

end Sys2Proof.Machine
end

