-- ==== Sys2Proof/Laws/Keeps.lean ====
section
/-! SUPPORT. What every operation of the model keeps: the queue, the canonical form of every store, the Stroke counter's bound,
and what was already sent. -/

namespace Sys2Proof.Machine

/-- From `s` to `t` the queue and the Stroke counter are untouched, canonical stores stay canonical, and the outputs and the count
of free values only grow. -/
structure Keeps (s t : State) : Prop where
  pending : t.pending = s.pending
  stroke : t.stroke = s.stroke
  regs : spWf regDefault s.regs = true → spWf regDefault t.regs = true
  live : spWf regDefault s.live = true → spWf regDefault t.live = true
  paths : spWf (fun _ => 0#32) s.paths = true → spWf (fun _ => 0#32) t.paths = true
  hmem : spWf memDefault s.hmem = true → spWf memDefault t.hmem = true
  msix : spWf memDefault s.msix = true → spWf memDefault t.msix = true
  out : s.out <+: t.out
  free : s.free ≤ t.free

/-- A meaning answers a next state that keeps all of that. -/
def Answers (s : State) (r : Res) : Prop := ∃ t, r = .next t ∧ Keeps s t

theorem Keeps.refl (s : State) : Keeps s s := ⟨rfl, rfl, id, id, id, id, id, List.prefix_refl _, Nat.le_refl _⟩

theorem Keeps.trans {s t u : State} (h : Keeps s t) (k : Keeps t u) : Keeps s u :=
  ⟨k.pending.trans h.pending, k.stroke.trans h.stroke, k.regs ∘ h.regs, k.live ∘ h.live, k.paths ∘ h.paths, k.hmem ∘ h.hmem,
    k.msix ∘ h.msix, h.out.trans k.out, Nat.le_trans h.free k.free⟩

theorem answers_next {s t : State} (h : Keeps s t) : Answers s (.next t) := ⟨t, rfl, h⟩

/-- As `Keeps`, for what may move the Stroke counter within its bound. -/
structure Loose (s t : State) : Prop where
  pending : t.pending = s.pending
  stroke : s.stroke ≤ strokeMax → t.stroke ≤ strokeMax
  regs : spWf regDefault s.regs = true → spWf regDefault t.regs = true
  live : spWf regDefault s.live = true → spWf regDefault t.live = true
  paths : spWf (fun _ => 0#32) s.paths = true → spWf (fun _ => 0#32) t.paths = true
  hmem : spWf memDefault s.hmem = true → spWf memDefault t.hmem = true
  msix : spWf memDefault s.msix = true → spWf memDefault t.msix = true
  out : s.out <+: t.out
  free : s.free ≤ t.free

/-- A meaning answers a next state that keeps all of that, the Stroke counter's bound in place of its value. -/
def Reaches (s : State) (r : Res) : Prop := ∃ t, r = .next t ∧ Loose s t

theorem Keeps.loose {s t : State} (h : Keeps s t) : Loose s t :=
  ⟨h.pending, fun k => h.stroke ▸ k, h.regs, h.live, h.paths, h.hmem, h.msix, h.out, h.free⟩

theorem Loose.trans {s t u : State} (h : Loose s t) (k : Loose t u) : Loose s u :=
  ⟨k.pending.trans h.pending, k.stroke ∘ h.stroke, k.regs ∘ h.regs, k.live ∘ h.live, k.paths ∘ h.paths, k.hmem ∘ h.hmem,
    k.msix ∘ h.msix, h.out.trans k.out, Nat.le_trans h.free k.free⟩

/-- What keeps the counter after what moved it. -/
theorem Loose.after {s t u : State} (h : Loose s t) (k : Keeps t u) : Loose s u := h.trans k.loose

theorem loose_ite {s : State} {c : Prop} [Decidable c] {a b : State} (ha : c → Loose s a) (hb : ¬c → Loose s b) :
    Loose s (if c then a else b) := by
  split
  · exact ha ‹_›
  · exact hb ‹_›

theorem loose_stroke {s t : State} (h : Keeps s t) {n : Nat} (hn : n ≤ strokeMax) : Loose s { t with stroke := n } :=
  h.loose.trans ⟨rfl, fun _ => hn, id, id, id, id, id, List.prefix_refl _, Nat.le_refl _⟩

theorem reaches_next {s t : State} (h : Loose s t) : Reaches s (.next t) := ⟨t, rfl, h⟩

theorem Answers.reaches {s : State} {r : Res} (h : Answers s r) : Reaches s r := by
  obtain ⟨t, e, k⟩ := h
  exact ⟨t, e, k.loose⟩

variable {s t : State}

/-- A record update that leaves the nine fields alone. -/
theorem keeps_mk (h : Keeps s t) {pw img role err wd bnd ring part sq wk tier flash srch gear chain rdma pool} :
    Keeps s ⟨t.pending, t.stroke, t.regs, t.live, t.paths, t.hmem, t.msix, t.out, t.free, pw, img, role, err, wd, bnd, ring, part,
      sq, wk, tier, flash, srch, gear, chain, rdma, pool⟩ := by
  cases h; constructor <;> assumption

/-- A record update that replaces the register stores by canonical ones and leaves the other fields of the nine alone. -/
theorem keeps_mk2 (h : Keeps s t) {l m : List (Nat × Word)} (hl : spWf regDefault t.regs = true → spWf regDefault l = true)
    (hm : spWf regDefault t.live = true → spWf regDefault m = true)
    {pw img role err wd bnd ring part sq wk tier flash srch gear chain rdma pool} :
    Keeps s ⟨t.pending, t.stroke, l, m, t.paths, t.hmem, t.msix, t.out, t.free, pw, img, role, err, wd, bnd, ring, part,
      sq, wk, tier, flash, srch, gear, chain, rdma, pool⟩ :=
  h.trans ⟨rfl, rfl, hl, hm, id, id, id, List.prefix_refl _, Nat.le_refl _⟩

theorem keeps_ite {c : Prop} [Decidable c] {a b : State} (ha : c → Keeps s a) (hb : ¬c → Keeps s b) :
    Keeps s (if c then a else b) := by
  split
  · exact ha ‹_›
  · exact hb ‹_›

theorem keeps_foldl {α : Type} {f : State → α → State} {l : List α} (h : Keeps s t)
    (hf : ∀ u x, Keeps s u → Keeps s (f u x)) : Keeps s (l.foldl f t) := by
  induction l generalizing t with
  | nil => exact h
  | cons x l ih => exact ih (hf t x h)

theorem keeps_ite_fst {α : Type} {c : Prop} [Decidable c] {a b : State × α} (ha : c → Keeps s a.1) (hb : ¬c → Keeps s b.1) :
    Keeps s (if c then a else b).1 := by
  split
  · exact ha ‹_›
  · exact hb ‹_›

/-- A fold that carries a state first and something else beside it. -/
theorem keeps_foldl_fst {α β : Type} {f : State × β → α → State × β} {l : List α} {p : State × β} (h : Keeps s p.1)
    (hf : ∀ q x, Keeps s q.1 → Keeps s (f q x).1) : Keeps s (l.foldl f p).1 := by
  induction l generalizing p with
  | nil => exact h
  | cons x l ih => exact ih (hf p x h)

theorem keeps_fst {α : Type} {p : State × α} {u : State} {a : α} (e : p = (u, a)) (h : Keeps s p.1) : Keeps s u := by
  subst e; exact h

theorem keeps_snd {α : Type} {p : α × State} {u : State} {a : α} (e : p = (a, u)) (h : Keeps s p.2) : Keeps s u := by
  subst e; exact h

/-- An operation that may find no room: what it answers keeps all of that. -/
structure OptKeeps (s : State) (o : Option State) : Prop where
  keeps : ∀ u, o = some u → Keeps s u

theorem opt_none : OptKeeps s none := ⟨fun _ e => nomatch e⟩

theorem opt_some (h : Keeps s t) : OptKeeps s (some t) := ⟨fun _ e => Option.some.inj e ▸ h⟩

theorem opt_of {o : Option State} (e : o = some t) (h : OptKeeps s o) : Keeps s t := h.keeps t e

theorem opt_map {o : Option State} {f : State → State} (h : OptKeeps s o) (hf : ∀ u, Keeps s u → Keeps s (f u)) :
    OptKeeps s (o.map f) := by
  cases o with
  | none => exact opt_none
  | some v => exact opt_some (hf v (h.keeps v rfl))

theorem opt_map_val {α : Type} {o : Option α} {f : α → State} (hf : ∀ x, Keeps s (f x)) : OptKeeps s (o.map f) := by
  cases o with
  | none => exact opt_none
  | some v => exact opt_some (hf v)

theorem opt_bind {o : Option State} {f : State → Option State} (h : OptKeeps s o) (hf : ∀ u, Keeps s u → OptKeeps s (f u)) :
    OptKeeps s (o.bind f) := by
  cases o with
  | none => exact opt_none
  | some v => exact hf v (h.keeps v rfl)

theorem keeps_getD {o : Option State} (h : Keeps s t) (ho : OptKeeps s o) : Keeps s (o.getD t) := by
  cases o with
  | none => exact h
  | some u => exact ho.keeps u rfl

theorem keeps_setReg (h : Keeps s t) (off : Nat) (w : Word) (inst : Nat) : Keeps s (t.setReg off w inst) :=
  h.trans (by constructor <;> simp <;> exact spPut_wf _ _ _ _)

theorem keeps_setLive (h : Keeps s t) (off : Nat) (w : Word) (inst : Nat) : Keeps s (t.setLive off w inst) :=
  h.trans (by constructor <;> simp <;> exact spPut_wf _ _ _ _)

/-- The registers replaced by a store that is canonical when the old one is. -/
theorem keeps_regs (h : Keeps s t) {l : List (Nat × Word)} (hl : spWf regDefault t.regs = true → spWf regDefault l = true) :
    Keeps s { t with regs := l } :=
  h.trans ⟨rfl, rfl, hl, id, id, id, id, List.prefix_refl _, Nat.le_refl _⟩

theorem keeps_live (h : Keeps s t) {l : List (Nat × Word)} (hl : spWf regDefault t.live = true → spWf regDefault l = true) :
    Keeps s { t with live := l } :=
  h.trans ⟨rfl, rfl, id, hl, id, id, id, List.prefix_refl _, Nat.le_refl _⟩

theorem keeps_paths (h : Keeps s t) {l : List (Nat × Word)}
    (hl : spWf (fun _ => 0#32) t.paths = true → spWf (fun _ => 0#32) l = true) : Keeps s { t with paths := l } :=
  h.trans ⟨rfl, rfl, id, id, hl, id, id, List.prefix_refl _, Nat.le_refl _⟩

theorem keeps_msix (h : Keeps s t) {l : List Host.Cell} (hl : spWf memDefault t.msix = true → spWf memDefault l = true) :
    Keeps s { t with msix := l } :=
  h.trans ⟨rfl, rfl, id, id, id, id, hl, List.prefix_refl _, Nat.le_refl _⟩

theorem keeps_memPut (h : Keeps s t) (a : Nat) (b : Byte) : Keeps s (t.memPut a b) :=
  h.trans (by constructor <;> simp <;> exact spPut_wf _ _ _ _)

theorem keeps_memWrite (h : Keeps s t) (a : Nat) (bs : List Byte) : Keeps s (t.memWrite a bs) := by
  induction bs generalizing t a with
  | nil => exact h
  | cons b bs ih => exact ih (keeps_memPut h a b) (a + 1)

theorem keeps_emit (h : Keeps s t) (o : Out) : Keeps s (t.emit o) :=
  h.trans (by constructor <;> simp)

theorem keeps_nextFree (h : Keeps s t) : Keeps s t.nextFree :=
  h.trans (by constructor <;> simp)

end Sys2Proof.Machine
end

