-- ==== Sys2Proof/Laws/KeepsShared.lean ====
section
/-! SUPPORT. Every operation keeps the queue, the canonical stores, the Stroke bound and what was sent: the named operations, audit and faults, pages and works, budgets, the flash log, BAR0 writes. -/

namespace Sys2Proof.Machine

variable {s t : State}

theorem keeps_put (h : Keeps s t) (a1 : Fld) (a2 a3 : Nat) : Keeps s (State.put t a1 a2 a3) := by
  unfold State.put
  repeat' first
    | with_reducible first
        | assumption | apply keeps_setReg
    | intro _ | dsimp only | split | with_reducible apply keeps_mk

theorem keeps_sat (h : Keeps s t) (a1 : Fld) (a2 a3 : Nat) : Keeps s (State.sat t a1 a2 a3) := by
  unfold State.sat
  repeat' first
    | with_reducible first
        | assumption | apply keeps_put
    | intro _ | dsimp only | split | with_reducible apply keeps_mk

theorem keeps_setPair (h : Keeps s t) (a1 a2 a3 : Nat) : Keeps s (State.setPair t a1 a2 a3) := by
  unfold State.setPair
  repeat' first
    | with_reducible first
        | assumption | apply keeps_setReg
    | intro _ | dsimp only | split | with_reducible apply keeps_mk

theorem keeps_add64 (h : Keeps s t) (a1 a2 : Nat) : Keeps s (State.add64 t a1 a2) := by
  unfold State.add64
  repeat' first
    | with_reducible first
        | assumption | apply keeps_setPair
    | intro _ | dsimp only | split | with_reducible apply keeps_mk

theorem keeps_signal (h : Keeps s t) (a1 a2 : Nat) : Keeps s (State.signal t a1 a2) := by
  unfold State.signal
  repeat' first
    | with_reducible first
        | assumption | apply keeps_emit
    | intro _ | dsimp only | split | with_reducible apply keeps_mk

theorem keeps_event (h : Keeps s t) (a1 : Option (List Nat)) (a2 a3 : Nat) : Keeps s (State.event t a1 a2 a3) := by
  unfold State.event
  repeat' first
    | with_reducible first
        | assumption
    | intro _ | dsimp only | split | with_reducible apply keeps_mk

theorem keeps_eventX (h : Keeps s t) (a1 : Event) : Keeps s (State.eventX t a1) := by
  unfold State.eventX
  repeat' first
    | with_reducible first
        | assumption
    | intro _ | dsimp only | split | with_reducible apply keeps_mk

theorem keeps_atBoundary (h : Keeps s t) (a1 : BAct) : Keeps s (State.atBoundary t a1) := by
  unfold State.atBoundary
  repeat' first
    | with_reducible first
        | assumption
    | intro _ | dsimp only | split | with_reducible apply keeps_mk

theorem keeps_auditWrite (h : Keeps s t) (a1 : List Byte) : Keeps s (State.auditWrite t a1) := by
  unfold State.auditWrite
  repeat' first
    | with_reducible first
        | assumption | apply keeps_put | apply keeps_signal | apply keeps_memWrite | apply keeps_ite
    | intro _ | dsimp only | split | with_reducible apply keeps_mk

theorem keeps_setHeld (h : Keeps s t) (a1 : List (List Byte)) : Keeps s (State.setHeld t a1) := by
  unfold State.setHeld
  repeat' first
    | with_reducible first
        | assumption | apply keeps_put
    | intro _ | dsimp only | split | with_reducible apply keeps_mk

theorem keeps_audit (h : Keeps s t) (a1 a2 a3 a4 a5 a6 : Nat) (a7 : List Byte) (a8 : Nat) :
    Keeps s (State.audit t a1 a2 a3 a4 a5 a6 a7 a8) := by
  unfold State.audit
  repeat' first
    | with_reducible first
        | assumption | apply keeps_auditWrite | apply keeps_put | apply keeps_sat | apply keeps_setHeld | apply keeps_ite
    | intro _ | dsimp only | split | with_reducible apply keeps_mk

theorem keeps_auditDrain (h : Keeps s t) (a1 : Nat) : Keeps s (State.auditDrain t a1) := by
  induction a1 generalizing t with
  | zero =>
    unfold State.auditDrain
    repeat' first
      | with_reducible first
          | assumption | apply keeps_auditWrite | apply keeps_setHeld | apply keeps_ite
      | intro _ | dsimp only | split | with_reducible apply keeps_mk
  | succ n ih =>
    unfold State.auditDrain
    repeat' first
      | with_reducible first
          | assumption | apply ih | apply keeps_auditWrite | apply keeps_setHeld | apply keeps_ite
      | intro _ | dsimp only | split | with_reducible apply keeps_mk

theorem keeps_illegal (h : Keeps s t) (a1 a2 a3 a4 : Nat) : Keeps s (State.illegal t a1 a2 a3 a4) := by
  unfold State.illegal
  repeat' first
    | with_reducible first
        | assumption | apply keeps_put | apply keeps_sat | apply keeps_setPair | apply keeps_ite
    | intro _ | dsimp only | split | with_reducible apply keeps_mk

theorem keeps_fault (h : Keeps s t) (a1 a2 a3 : Nat) : Keeps s (State.fault t a1 a2 a3) := by
  unfold State.fault
  repeat' first
    | with_reducible first
        | assumption | apply keeps_setReg | apply keeps_add64 | apply keeps_put | apply keeps_sat | apply keeps_setPair
        | apply keeps_ite
    | intro _ | dsimp only | split | with_reducible apply keeps_mk

theorem keeps_toPhase (h : Keeps s t) (a1 : Nat) : Keeps s (State.toPhase t a1) := by
  unfold State.toPhase
  repeat' first
    | with_reducible first
        | assumption | apply keeps_put | apply keeps_audit
    | intro _ | dsimp only | split | with_reducible apply keeps_mk

theorem keeps_portEvent (h : Keeps s t) (a1 a2 a3 : Nat) : Keeps s (State.portEvent t a1 a2 a3) := by
  unfold State.portEvent
  repeat' first
    | with_reducible first
        | assumption | apply keeps_eventX
    | intro _ | dsimp only | split | with_reducible apply keeps_mk

theorem keeps_setQp (h : Keeps s t) (a1 : Qp) : Keeps s (State.setQp t a1) := by
  unfold State.setQp
  repeat' first
    | with_reducible first
        | assumption
    | intro _ | dsimp only | split | with_reducible apply keeps_mk

theorem keeps_rdmaEvent (h : Keeps s t) (a1 a2 a3 a4 a5 a6 a7 : Nat) : Keeps s (State.rdmaEvent t a1 a2 a3 a4 a5 a6 a7) := by
  unfold State.rdmaEvent
  repeat' first
    | with_reducible first
        | assumption | apply keeps_eventX
    | intro _ | dsimp only | split | with_reducible apply keeps_mk

theorem keeps_markErr (h : Keeps s t) (a1 a2 : Nat) : Keeps s (State.markErr t a1 a2) := by
  unfold State.markErr
  repeat' first
    | with_reducible first
        | assumption | apply keeps_put | apply keeps_rdmaEvent | apply keeps_setQp
    | intro _ | dsimp only | split | with_reducible apply keeps_mk

theorem keeps_cutPort (h : Keeps s t) (a1 : Nat) : Keeps s (State.cutPort t a1) := by
  unfold State.cutPort
  repeat' first
    | with_reducible first
        | assumption | apply keeps_markErr | apply keeps_portEvent | apply keeps_put | apply keeps_ite | apply keeps_foldl
        | apply keeps_foldl_fst
    | intro _ | dsimp only | split | with_reducible apply keeps_mk

theorem keeps_dropHolds (h : Keeps s t) : Keeps s (State.dropHolds t) := by
  unfold State.dropHolds
  repeat' first
    | with_reducible first
        | assumption | apply keeps_cutPort | apply keeps_put | apply keeps_ite | apply keeps_foldl | apply keeps_foldl_fst
    | intro _ | dsimp only | split | with_reducible apply keeps_mk

theorem keeps_enterFault (h : Keeps s t) : Keeps s (State.enterFault t) := by
  unfold State.enterFault
  repeat' first
    | with_reducible first
        | assumption | apply keeps_toPhase | apply keeps_dropHolds | apply keeps_emit | apply keeps_event | apply keeps_ite
    | intro _ | dsimp only | split | with_reducible apply keeps_mk

theorem keeps_setSq (h : Keeps s t) (a1 : SeqSt → SeqSt) : Keeps s (State.setSq t a1) := by
  unfold State.setSq
  repeat' first
    | with_reducible first
        | assumption
    | intro _ | dsimp only | split | with_reducible apply keeps_mk

theorem keeps_setSeq (h : Keeps s t) (a1 : Seq) : Keeps s (State.setSeq t a1) := by
  unfold State.setSeq
  repeat' first
    | with_reducible first
        | assumption | apply keeps_setSq | apply keeps_ite
    | intro _ | dsimp only | split | with_reducible apply keeps_mk

theorem keeps_updPage (h : Keeps s t) (a1 : Nat) (a2 : Page → Page) : Keeps s (State.updPage t a1 a2) := by
  unfold State.updPage
  repeat' first
    | with_reducible first
        | assumption | apply keeps_setSq | apply opt_map | apply opt_map_val | apply keeps_getD | apply keeps_ite
    | intro _ | dsimp only | split | with_reducible apply keeps_mk

theorem keeps_gcPage (h : Keeps s t) (a1 : Nat) : Keeps s (State.gcPage t a1) := by
  unfold State.gcPage
  repeat' first
    | with_reducible first
        | assumption | apply keeps_setSq | apply keeps_ite
    | intro _ | dsimp only | split | with_reducible apply keeps_mk

theorem keeps_hold (h : Keeps s t) (a1 : Nat) : Keeps s (State.hold t a1) := by
  unfold State.hold
  repeat' first
    | with_reducible first
        | assumption | apply keeps_updPage
    | intro _ | dsimp only | split | with_reducible apply keeps_mk

theorem keeps_dropPage (h : Keeps s t) (a1 : Nat) : Keeps s (State.dropPage t a1) := by
  unfold State.dropPage
  repeat' first
    | with_reducible first
        | assumption | apply keeps_updPage
    | intro _ | dsimp only | split | with_reducible apply keeps_mk

theorem keeps_endDemotion (h : Keeps s t) (a1 : Nat) : Keeps s (State.endDemotion t a1) := by
  unfold State.endDemotion
  repeat' first
    | with_reducible first
        | assumption | apply keeps_dropPage | apply keeps_ite
    | intro _ | dsimp only | split | with_reducible apply keeps_mk

theorem keeps_unhold (h : Keeps s t) (a1 : Nat) : Keeps s (State.unhold t a1) := by
  unfold State.unhold
  repeat' first
    | with_reducible first
        | assumption | apply keeps_endDemotion | apply keeps_gcPage | apply keeps_updPage
    | intro _ | dsimp only | split | with_reducible apply keeps_mk

theorem keeps_addItem (h : Keeps s t) (a1 a2 a3 : Nat) : OptKeeps s (State.addItem t a1 a2 a3) := by
  unfold State.addItem
  repeat' first
    | with_reducible first
        | assumption | apply keeps_setSq | apply opt_none | apply opt_some | apply opt_map | apply opt_map_val | apply keeps_ite
    | intro _ | dsimp only | split | with_reducible apply keeps_mk

theorem keeps_addTables (h : Keeps s t) (a1 a2 : Nat) : OptKeeps s (State.addTables t a1 a2) := by
  unfold State.addTables
  repeat' first
    | with_reducible first
        | assumption | apply keeps_addItem | apply opt_none | apply opt_some | apply opt_bind
    | intro _ | dsimp only | split | refine opt_of (by assumption) ?_ | with_reducible apply keeps_mk

theorem keeps_trimTables (h : Keeps s t) (a1 : Nat) : Keeps s (State.trimTables t a1) := by
  unfold State.trimTables
  repeat' first
    | with_reducible first
        | assumption | apply keeps_setSq
    | intro _ | dsimp only | split | with_reducible apply keeps_mk

theorem keeps_unwalk (h : Keeps s t) (a1 a2 : Nat) : Keeps s (State.unwalk t a1 a2) := by
  unfold State.unwalk
  repeat' first
    | with_reducible first
        | assumption | apply keeps_setSq
    | intro _ | dsimp only | split | with_reducible apply keeps_mk

theorem keeps_cacheDir (h : Keeps s t) (a1 : Nat × Nat × Nat) : Keeps s (State.cacheDir t a1) := by
  unfold State.cacheDir
  repeat' first
    | with_reducible first
        | assumption | apply keeps_nextFree | apply keeps_setSq | apply keeps_ite
    | intro _ | dsimp only | split | with_reducible apply keeps_mk

theorem keeps_walkDirs (h : Keeps s t) (a1 a2 : Nat) : Keeps s (State.walkDirs t a1 a2) := by
  unfold State.walkDirs
  repeat' first
    | with_reducible first
        | assumption | apply keeps_cacheDir
    | intro _ | dsimp only | split | with_reducible apply keeps_mk

theorem keeps_walkTo (h : Keeps s t) (a1 a2 : Nat) : Keeps s (State.walkTo t a1 a2) := by
  unfold State.walkTo
  repeat' first
    | with_reducible first
        | assumption | apply keeps_nextFree | apply keeps_add64 | apply keeps_setSq | apply keeps_walkDirs | apply keeps_ite
    | intro _ | dsimp only | split | with_reducible apply keeps_mk

theorem keeps_dropLeaf (h : Keeps s t) (a1 a2 : Nat) : Keeps s (State.dropLeaf t a1 a2) := by
  unfold State.dropLeaf
  repeat' first
    | with_reducible first
        | assumption | apply keeps_setSq | apply keeps_trimTables | apply keeps_gcPage | apply keeps_unwalk
    | intro _ | dsimp only | split | with_reducible apply keeps_mk

theorem keeps_setLeaf (h : Keeps s t) (a1 : Seq) (a2 a3 : Nat) (a4 : Bool) : Keeps s (State.setLeaf t a1 a2 a3 a4) := by
  unfold State.setLeaf
  repeat' first
    | with_reducible first
        | assumption | apply keeps_setSq | apply keeps_unwalk
    | intro _ | dsimp only | split | with_reducible apply keeps_mk

theorem keeps_resolve (h : Keeps s t) (a1 : Seq) (a2 : Nat) : Keeps s (State.resolve t a1 a2) := by
  unfold State.resolve
  repeat' first
    | with_reducible first
        | assumption | apply keeps_setSq | apply keeps_updPage | apply keeps_walkTo | apply keeps_ite
    | intro _ | dsimp only | split | with_reducible apply keeps_mk

theorem keeps_newPage (h : Keeps s t) (a1 : Nat) (a2 a3 : List Byte) : Keeps s (State.newPage t a1 a2 a3).1 := by
  unfold State.newPage
  repeat' first
    | with_reducible first
        | assumption | apply keeps_nextFree | apply keeps_setSq
    | intro _ | dsimp only | split | with_reducible apply keeps_mk

theorem keeps_draw (h : Keeps s t) (a1 : Nat) (a2 : Res6) : Keeps s (State.draw t a1 a2) := by
  unfold State.draw
  repeat' first
    | with_reducible first
        | assumption | apply keeps_ite
    | intro _ | dsimp only | split | with_reducible apply keeps_mk

theorem keeps_updWork (h : Keeps s t) (a1 : Nat) (a2 : Work → Work) : Keeps s (State.updWork t a1 a2) := by
  unfold State.updWork
  repeat' first
    | with_reducible first
        | assumption | apply keeps_ite
    | intro _ | dsimp only | split | with_reducible apply keeps_mk

theorem keeps_undefTarget (h : Keeps s t) (a1 : Desc) (a2 : Nat) : Keeps s (State.undefTarget t a1 a2) := by
  unfold State.undefTarget
  repeat' first
    | with_reducible first
        | assumption | apply keeps_memWrite | apply keeps_nextFree | apply opt_map | apply opt_map_val | apply keeps_getD
    | intro _ | dsimp only | split | with_reducible apply keeps_mk

theorem keeps_undefTargets (h : Keeps s t) (a1 : Desc) (a2 : Nat) : Keeps s (State.undefTargets t a1 a2) := by
  unfold State.undefTargets
  repeat' first
    | with_reducible first
        | assumption | apply keeps_undefTarget | apply keeps_foldl | apply keeps_foldl_fst
    | intro _ | dsimp only | split | with_reducible apply keeps_mk

theorem keeps_latch (h : Keeps s t) (a1 a2 a3 a4 : Nat) : Keeps s (State.latch t a1 a2 a3 a4) := by
  unfold State.latch
  repeat' first
    | with_reducible first
        | assumption | apply keeps_sat | apply keeps_undefTargets | apply keeps_updWork | apply opt_map | apply opt_map_val
        | apply keeps_getD | apply keeps_ite
    | intro _ | dsimp only | split | with_reducible apply keeps_mk

theorem keeps_dropRun (h : Keeps s t) (a1 : Nat) (a2 : Run) : Keeps s (State.dropRun t a1 a2) := by
  unfold State.dropRun
  repeat' first
    | with_reducible first
        | assumption | apply keeps_updWork | apply keeps_unhold | apply keeps_foldl | apply keeps_foldl_fst
    | intro _ | dsimp only | split | with_reducible apply keeps_mk

theorem keeps_touch (h : Keeps s t) (a1 : Nat) : Keeps s (State.touch t a1) := by
  unfold State.touch
  repeat' first
    | with_reducible first
        | assumption | apply keeps_updPage
    | intro _ | dsimp only | split | with_reducible apply keeps_mk

theorem keeps_setSqc (h : Keeps s t) (a1 a2 : Nat) (a3 : SqSt) : Keeps s (State.setSqc t a1 a2 a3) := by
  unfold State.setSqc
  repeat' first
    | with_reducible first
        | assumption
    | intro _ | dsimp only | split | with_reducible apply keeps_mk

theorem keeps_setCqc (h : Keeps s t) (a1 a2 : Nat) (a3 : CqSt) : Keeps s (State.setCqc t a1 a2 a3) := by
  unfold State.setCqc
  repeat' first
    | with_reducible first
        | assumption
    | intro _ | dsimp only | split | with_reducible apply keeps_mk

theorem keeps_keepBounds (h : Keeps s t) (a1 a2 : Nat) : Keeps s (State.keepBounds t a1 a2) := by
  unfold State.keepBounds
  repeat' first
    | with_reducible first
        | assumption | apply keeps_ite
    | intro _ | dsimp only | split | with_reducible apply keeps_mk

theorem keeps_freeBounds (h : Keeps s t) : Keeps s (State.freeBounds t) := by
  unfold State.freeBounds
  repeat' first
    | with_reducible first
        | assumption
    | intro _ | dsimp only | split | with_reducible apply keeps_mk

theorem keeps_setStat (h : Keeps s t) (a1 : Nat) (a2 : StatPage) : Keeps s (State.setStat t a1 a2) := by
  unfold State.setStat
  repeat' first
    | with_reducible first
        | assumption
    | intro _ | dsimp only | split | with_reducible apply keeps_mk

theorem keeps_setFlash (h : Keeps s t) (a1 : FlashSt → FlashSt) : Keeps s (State.setFlash t a1) := by
  unfold State.setFlash
  repeat' first
    | with_reducible first
        | assumption
    | intro _ | dsimp only | split | with_reducible apply keeps_mk

theorem keeps_updChain (h : Keeps s t) (a1 : Nat) (a2 : Chain → Chain) : Keeps s (State.updChain t a1 a2) := by
  unfold State.updChain
  repeat' first
    | with_reducible first
        | assumption | apply keeps_setFlash | apply keeps_ite
    | intro _ | dsimp only | split | with_reducible apply keeps_mk

theorem keeps_takeBlock (h : Keeps s t) (a1 : Nat) (a2 : Bool) : Keeps s (State.takeBlock t a1 a2).1 := by
  unfold State.takeBlock
  repeat' first
    | with_reducible first
        | assumption | apply keeps_setFlash | apply keeps_updChain | apply keeps_ite | apply keeps_ite_fst
    | intro _ | dsimp only | split | with_reducible apply keeps_mk

theorem keeps_anchorUpdate (h : Keeps s t) : Keeps s (State.anchorUpdate t) := by
  unfold State.anchorUpdate
  repeat' first
    | with_reducible first
        | assumption | apply keeps_setFlash | apply opt_map | apply opt_map_val | apply keeps_getD
    | intro _ | dsimp only | split | with_reducible apply keeps_mk

theorem keeps_firstWrite (h : Keeps s t) : Keeps s (State.firstWrite t) := by
  unfold State.firstWrite
  repeat' first
    | with_reducible first
        | assumption | apply keeps_anchorUpdate | apply keeps_ite
    | intro _ | dsimp only | split | with_reducible apply keeps_mk

theorem keeps_moveRegion (h : Keeps s t) (a1 a2 : Nat) : Keeps s (State.moveRegion t a1 a2) := by
  unfold State.moveRegion
  repeat' first
    | with_reducible first
        | assumption | apply keeps_setReg | apply keeps_foldl | apply keeps_foldl_fst
    | intro _ | dsimp only | split | with_reducible apply keeps_mk

theorem keeps_moveChain (h : Keeps s t) (a1 a2 : Nat) : Keeps s (State.moveChain t a1 a2) := by
  unfold State.moveChain
  repeat' first
    | with_reducible first
        | assumption | apply keeps_setFlash | apply opt_map | apply opt_map_val | apply keeps_getD | apply keeps_ite
    | intro _ | dsimp only | split | with_reducible apply keeps_mk

theorem keeps_setAside (h : Keeps s t) (a1 : Nat) : Keeps s (State.setAside t a1) := by
  unfold State.setAside
  repeat' first
    | with_reducible first
        | assumption | apply keeps_moveChain | apply keeps_moveRegion
    | intro _ | dsimp only | split | with_reducible apply keeps_mk

theorem keeps_logSector (h : Keeps s t) (a1 : Nat) : Keeps s (State.logSector t a1).1 := by
  unfold State.logSector
  repeat' first
    | with_reducible first
        | assumption | apply keeps_takeBlock | apply opt_map | apply opt_map_val | apply keeps_getD | apply keeps_ite
        | apply keeps_ite_fst
    | intro _ | dsimp only | split | refine keeps_fst (by assumption) ?_ | with_reducible apply keeps_mk

theorem keeps_keepSector (h : Keeps s t) (a1 : Nat) : Keeps s (State.keepSector t a1) := by
  unfold State.keepSector
  repeat' first
    | with_reducible first
        | assumption | apply keeps_logSector | apply keeps_updChain
    | intro _ | dsimp only | split | refine keeps_fst (by assumption) ?_ | with_reducible apply keeps_mk

theorem keeps_newChain (h : Keeps s t) (a1 : Nat) : Keeps s (State.newChain t a1) := by
  unfold State.newChain
  repeat' first
    | with_reducible first
        | assumption | apply keeps_keepSector | apply keeps_setFlash
    | intro _ | dsimp only | split | with_reducible apply keeps_mk

theorem keeps_logRaw (h : Keeps s t) (a1 a2 : Nat) : Keeps s (State.logRaw t a1 a2) := by
  unfold State.logRaw
  repeat' first
    | with_reducible first
        | assumption | apply keeps_setFlash | apply opt_map | apply opt_map_val | apply keeps_getD | apply keeps_ite
    | intro _ | dsimp only | split | with_reducible apply keeps_mk

theorem keeps_queueKv (h : Keeps s t) (a1 a2 : Nat) : Keeps s (State.queueKv t a1 a2) := by
  unfold State.queueKv
  repeat' first
    | with_reducible first
        | assumption | apply keeps_ite
    | intro _ | dsimp only | split | with_reducible apply keeps_mk

theorem keeps_needChain (h : Keeps s t) (a1 : Nat) : Keeps s (State.needChain t a1) := by
  unfold State.needChain
  repeat' first
    | with_reducible first
        | assumption | apply keeps_anchorUpdate | apply keeps_firstWrite | apply keeps_logRaw | apply keeps_newChain
        | apply keeps_queueKv | apply keeps_setAside | apply keeps_ite
    | intro _ | dsimp only | split | with_reducible apply keeps_mk

theorem keeps_logKv (h : Keeps s t) (a1 a2 : Nat) : Keeps s (State.logKv t a1 a2) := by
  unfold State.logKv
  repeat' first
    | with_reducible first
        | assumption | apply keeps_logRaw | apply keeps_needChain | apply keeps_queueKv
    | intro _ | dsimp only | split | with_reducible apply keeps_mk

theorem keeps_reclaim (h : Keeps s t) : Keeps s (State.reclaim t) := by
  unfold State.reclaim
  repeat' first
    | with_reducible first
        | assumption | apply keeps_setFlash | apply opt_map | apply opt_map_val | apply keeps_getD | apply keeps_ite
    | intro _ | dsimp only | split | with_reducible apply keeps_mk

theorem keeps_logPage (h : Keeps s t) (a1 : Nat) (a2 : List Nat) : Keeps s (State.logPage t a1 a2) := by
  unfold State.logPage
  repeat' first
    | with_reducible first
        | assumption | apply keeps_keepSector | apply keeps_put | apply keeps_setFlash | apply keeps_updChain | apply opt_map
        | apply opt_map_val | apply keeps_getD
    | intro _ | dsimp only | split | with_reducible apply keeps_mk

theorem keeps_setDom (h : Keeps s t) (a1 a2 : Nat) : Keeps s (State.setDom t a1 a2) := by
  unfold State.setDom
  repeat' first
    | with_reducible first
        | assumption | apply keeps_put
    | intro _ | dsimp only | split | with_reducible apply keeps_mk

theorem keeps_wakeFlash (h : Keeps s t) : Keeps s (State.wakeFlash t) := by
  unfold State.wakeFlash
  repeat' first
    | with_reducible first
        | assumption | apply keeps_add64 | apply keeps_setDom | apply keeps_ite
    | intro _ | dsimp only | split | with_reducible apply keeps_mk

theorem keeps_programLog (h : Keeps s t) (a1 : Nat) : Keeps s (State.programLog t a1) := by
  unfold State.programLog
  repeat' first
    | with_reducible first
        | assumption | apply keeps_firstWrite | apply keeps_logPage | apply keeps_setFlash | apply keeps_wakeFlash
        | apply opt_map | apply opt_map_val | apply keeps_getD | apply keeps_ite
    | intro _ | dsimp only | split | with_reducible apply keeps_mk

theorem keeps_flushLog (h : Keeps s t) (a1 : Nat) : Keeps s (State.flushLog t a1) := by
  unfold State.flushLog
  repeat' first
    | with_reducible first
        | assumption | apply keeps_programLog | apply keeps_reclaim | apply keeps_ite
    | intro _ | dsimp only | split | with_reducible apply keeps_mk

theorem keeps_execLogFlush (h : Keeps s t) (a0 : Nat) : Answers s (execLogFlush a0 t) := by
  unfold execLogFlush
  repeat' first
    | with_reducible first
        | assumption | apply keeps_flushLog | apply answers_next
    | intro _ | dsimp only | split | with_reducible apply keeps_mk

theorem keeps_writePages (h : Keeps s t) (a1 a2 : Nat) (a3 : List Nat) : Keeps s (State.writePages t a1 a2 a3) := by
  induction a2 generalizing t a3 with
  | zero => exact h
  | succ n ih => exact keeps_ite (fun _ => h) fun _ => ih (keeps_logPage h _ _) _

theorem keeps_rewriteChain (h : Keeps s t) (a1 : Nat) (a2 : List Nat) : Keeps s (State.rewriteChain t a1 a2) := by
  unfold State.rewriteChain
  repeat' first
    | with_reducible first
        | assumption | apply keeps_keepSector | apply keeps_updChain | apply keeps_writePages
    | intro _ | dsimp only | split | with_reducible apply keeps_mk

theorem keeps_execCompaction (h : Keeps s t) (a0 : Nat) : Answers s (execCompaction a0 t) := by
  unfold execCompaction
  repeat' first
    | with_reducible first
        | assumption | apply keeps_anchorUpdate | apply keeps_firstWrite | apply keeps_reclaim | apply keeps_rewriteChain
        | apply answers_next | apply keeps_ite
    | intro _ | dsimp only | split | with_reducible apply keeps_mk

/-- What a register's handler does keeps all of that. -/
structure HandlerKeeps (d : Handler) : Prop where
  chg : ∀ {s t : State}, Keeps s t → ∀ i o v, Keeps s (d.chg t i o v)
  act : ∀ {s t : State}, Keeps s t → ∀ i v, Keeps s (d.act t i v)
  post : ∀ {s t : State}, Keeps s t → ∀ v, Keeps s (d.post t v)

theorem handler_ite {c : Prop} [Decidable c] {a b : Handler} (ha : c → HandlerKeeps a) (hb : ¬c → HandlerKeeps b) :
    HandlerKeeps (if c then a else b) := by
  split
  · exact ha ‹_›
  · exact hb ‹_›

theorem handler_plain : HandlerKeeps Handler.plain := ⟨fun h _ _ _ => h, fun h _ _ => h, fun h _ => h⟩

theorem keeps_accept (h : Keeps s t) (a1 : Handler) (a2 : RegRow) (a3 a4 : Nat) (a5 : Word) (ha1 : HandlerKeeps a1) :
    Keeps s (State.accept t a1 a2 a3 a4 a5) := by
  unfold State.accept
  repeat' first
    | with_reducible first
        | assumption | apply keeps_setReg | apply keeps_audit | apply HandlerKeeps.act | apply HandlerKeeps.chg
        | apply HandlerKeeps.post | apply keeps_ite
    | intro _ | dsimp only | split | with_reducible apply keeps_mk

theorem keeps_breakKey (h : Keeps s t) (a1 : Nat) : Keeps s (State.breakKey t a1) := by
  unfold State.breakKey
  repeat' first
    | with_reducible first
        | assumption | apply keeps_illegal | apply keeps_ite
    | intro _ | dsimp only | split | with_reducible apply keeps_mk

theorem keeps_dropKey (h : Keeps s t) (a1 : Nat) : Keeps s (State.dropKey t a1) := by
  unfold State.dropKey
  repeat' first
    | with_reducible first
        | assumption | apply keeps_ite
    | intro _ | dsimp only | split | with_reducible apply keeps_mk

theorem keeps_bar0 (h : Keeps s t) (a0 : Handler) (a1 : Nat) (a2 : Word) (ha0 : HandlerKeeps a0) :
    Keeps s (bar0 a0 a1 a2 t) := by
  unfold bar0
  repeat' first
    | with_reducible first
        | assumption | apply keeps_accept | apply keeps_breakKey | apply keeps_dropKey | apply keeps_illegal
        | apply HandlerKeeps.act | apply HandlerKeeps.chg | apply HandlerKeeps.post | apply keeps_ite
    | intro _ | dsimp only | split | with_reducible apply keeps_mk

theorem keeps_bar0Bit (h : Keeps s t) (a0 : Handler) (a1 : Fld) (ha0 : HandlerKeeps a0) : Keeps s (bar0Bit a0 a1 t) := by
  unfold bar0Bit
  repeat' first
    | with_reducible first
        | assumption | apply keeps_bar0
    | intro _ | dsimp only | split | with_reducible apply keeps_mk

theorem keeps_flushAll (h : Keeps s t) (a1 : Nat) : Keeps s (State.flushAll t a1) := by
  unfold State.flushAll
  exact keeps_foldl h fun _ _ hu => keeps_programLog hu _

end Sys2Proof.Machine
end

