-- ==== Sys2Proof/Laws/KeepsBringup.lean ====
section
/-! SUPPORT. Every operation keeps the queue, the canonical stores, the Stroke bound and what was sent: reset and bring-up, images. -/

namespace Sys2Proof.Machine

variable {s t : State}

theorem loose_wipe (h : Keeps s t) : Loose s (State.wipe t) := by
  exact h.loose.trans ⟨rfl, fun _ => Nat.zero_le _, fun _ => rfl, fun _ => rfl, fun _ => rfl, id, fun _ => rfl, List.prefix_refl _,
    Nat.le_refl _⟩

theorem loose_intoReset (h : Keeps s t) (a1 : Nat) : Loose s (State.intoReset t a1) := by
  unfold State.intoReset
  refine loose_ite (fun _ => (keeps_mk h).loose) fun _ => ?_
  exact (loose_wipe h).after (keeps_mk (Keeps.refl _))

theorem loose_execPowerInputChange (h : Keeps s t) (a0 : Nat) (a1 : Bool) : Reaches s (execPowerInputChange a0 a1 t) := by
  unfold execPowerInputChange
  exact reaches_next ((loose_ite (fun _ => h.loose) fun _ => loose_intoReset h _).after (keeps_mk (Keeps.refl _)))

theorem loose_execPerstChange (h : Keeps s t) (a0 : Bool) : Reaches s (execPerstChange a0 t) := by
  unfold execPerstChange
  exact reaches_next ((loose_ite (fun _ => loose_intoReset h _) fun _ => h.loose).after (keeps_mk (Keeps.refl _)))

theorem loose_execResetInChange (h : Keeps s t) (a0 : Bool) : Reaches s (execResetInChange a0 t) := by
  unfold execResetInChange
  exact reaches_next ((loose_ite (fun _ => loose_intoReset h _) fun _ => h.loose).after (keeps_mk (Keeps.refl _)))

theorem loose_execHotReset (h : Keeps s t) : Reaches s (execHotReset t) := by
  unfold execHotReset
  exact reaches_next (loose_ite (fun _ => h.loose) fun _ => loose_intoReset h _)

theorem loose_execFlrPf0 (h : Keeps s t) : Reaches s (execFlrPf0 t) := by
  unfold execFlrPf0
  exact reaches_next (loose_ite (fun _ => h.loose) fun _ => loose_intoReset h _)

theorem loose_execResetExit (h : Keeps s t) : Reaches s (execResetExit t) := by
  unfold execResetExit
  split
  · exact reaches_next h.loose
  · refine reaches_next ((loose_stroke h (Nat.zero_le _)).after ?_)
    exact keeps_put (keeps_put (keeps_setReg (keeps_put (keeps_mk (Keeps.refl _)) _ _ _) _ _ _) _ _ _) _ _ _

theorem keeps_execDramTrainingDone (h : Keeps s t) (a0 : Nat) (a1 : Bool) : Answers s (execDramTrainingDone a0 a1 t) := by
  unfold execDramTrainingDone
  repeat' first
    | with_reducible first
        | assumption | apply keeps_fault | apply keeps_enterFault | apply keeps_put | apply answers_next
    | intro _ | dsimp only | split | with_reducible apply keeps_mk

theorem keeps_execPf0Ready (h : Keeps s t) : Answers s (execPf0Ready t) := by
  unfold execPf0Ready
  repeat' first
    | with_reducible first
        | assumption | apply keeps_toPhase | apply answers_next
    | intro _ | dsimp only | split | with_reducible apply keeps_mk

theorem handler_hBringupCtrl : HandlerKeeps hBringupCtrl := by
  constructor <;> intro s t h <;> unfold hBringupCtrl <;>
  repeat' first
    | with_reducible first
        | assumption | apply HandlerKeeps.chg handler_plain | apply HandlerKeeps.act handler_plain
        | apply HandlerKeeps.post handler_plain | apply keeps_atBoundary | apply keeps_put | apply keeps_ite
    | intro _ | dsimp only | split | exact h | with_reducible apply keeps_mk

theorem keeps_execReleaseCmd (h : Keeps s t) : Answers s (execReleaseCmd t) := by
  unfold execReleaseCmd
  repeat' first
    | with_reducible first
        | assumption | apply handler_hBringupCtrl | apply keeps_bar0 | apply answers_next
    | intro _ | dsimp only | split | with_reducible apply keeps_mk

theorem keeps_evalRelease (h : Keeps s t) : Keeps s (State.evalRelease t) := by
  unfold State.evalRelease
  repeat' first
    | with_reducible first
        | assumption | apply keeps_toPhase | apply keeps_put | apply keeps_ite
    | intro _ | dsimp only | split | with_reducible apply keeps_mk

theorem keeps_setSlotState (h : Keeps s t) (a1 a2 : Nat) : Keeps s (State.setSlotState t a1 a2) := by
  unfold State.setSlotState
  repeat' first
    | with_reducible first
        | assumption | apply keeps_put
    | intro _ | dsimp only | split | with_reducible apply keeps_mk

theorem keeps_slotAtBoundary (h : Keeps s t) (a1 a2 : Nat) : Keeps s (State.slotAtBoundary t a1 a2) := by
  unfold State.slotAtBoundary
  repeat' first
    | with_reducible first
        | assumption
    | intro _ | dsimp only | split | with_reducible apply keeps_mk

theorem keeps_endLoad (h : Keeps s t) (a1 : Nat) : Keeps s (State.endLoad t a1) := by
  unfold State.endLoad
  repeat' first
    | with_reducible first
        | assumption | apply keeps_put | apply keeps_audit | apply keeps_ite
    | intro _ | dsimp only | split | with_reducible apply keeps_mk

theorem keeps_setLast (h : Keeps s t) (a1 a2 : Nat) : Keeps s (State.setLast t a1 a2) := by
  unfold State.setLast
  repeat' first
    | with_reducible first
        | assumption | apply keeps_ite
    | intro _ | dsimp only | split | with_reducible apply keeps_mk

theorem keeps_pushHeader (h : Keeps s t) (a1 : Nat) (a2 : List Byte) (a3 : Bool) : Keeps s (State.pushHeader t a1 a2 a3) := by
  unfold State.pushHeader
  repeat' first
    | with_reducible first
        | assumption | apply keeps_put | apply keeps_sat | apply keeps_setLast | apply keeps_ite
    | intro _ | dsimp only | split | with_reducible apply keeps_mk

theorem keeps_pushFrame (h : Keeps s t) (a1 : Nat) (a2 : List Byte) (a3 a4 : Bool) : Keeps s (State.pushFrame t a1 a2 a3 a4) := by
  unfold State.pushFrame
  repeat' first
    | with_reducible first
        | assumption | apply keeps_put | apply keeps_setLast | apply keeps_sat | apply keeps_ite
    | intro _ | dsimp only | split | with_reducible apply keeps_mk

theorem keeps_shortMark (h : Keeps s t) (a1 : Nat) (a2 : List Word) (a3 : Bool) : Keeps s (State.shortMark t a1 a2 a3).2 := by
  unfold State.shortMark
  repeat' first
    | with_reducible first
        | assumption | apply keeps_sat | apply keeps_ite
    | intro _ | dsimp only | split | with_reducible apply keeps_mk

theorem keeps_overlong (h : Keeps s t) (a1 : Nat) (a2 : List Word) : Keeps s (State.overlong t a1 a2) := by
  unfold State.overlong
  repeat' first
    | with_reducible first
        | assumption | apply keeps_sat | apply keeps_ite
    | intro _ | dsimp only | split | with_reducible apply keeps_mk

theorem keeps_serialStatus (h : Keeps s t) (a1 : Nat) (a2 : List Word) : Keeps s (State.serialStatus t a1 a2) := by
  unfold State.serialStatus
  repeat' first
    | with_reducible first
        | assumption | apply keeps_emit | apply keeps_overlong | apply keeps_setLast | apply keeps_ite
    | intro _ | dsimp only | split | with_reducible apply keeps_mk

theorem keeps_abortLoad (h : Keeps s t) : Keeps s (State.abortLoad t) := by
  unfold State.abortLoad
  repeat' first
    | with_reducible first
        | assumption | apply keeps_endLoad | apply keeps_ite
    | intro _ | dsimp only | split | with_reducible apply keeps_mk

theorem keeps_serialAbort (h : Keeps s t) (a1 : List Word) : Keeps s (State.serialAbort t a1) := by
  unfold State.serialAbort
  repeat' first
    | with_reducible first
        | assumption | apply keeps_abortLoad | apply keeps_illegal | apply keeps_overlong | apply keeps_setLast
        | apply keeps_ite
    | intro _ | dsimp only | split | with_reducible apply keeps_mk

theorem keeps_serialTxn (h : Keeps s t) (a1 : List Word) (a2 : Bool) : Keeps s (State.serialTxn t a1 a2) := by
  unfold State.serialTxn
  repeat' first
    | with_reducible first
        | assumption | apply keeps_pushFrame | apply keeps_pushHeader | apply keeps_sat | apply keeps_serialAbort
        | apply keeps_serialStatus | apply keeps_setLast | apply keeps_shortMark | apply keeps_ite
    | intro _ | dsimp only | split | refine keeps_snd (by assumption) ?_ | with_reducible apply keeps_mk

theorem keeps_execHeaderCmd (h : Keeps s t) (a0 : List Word) (a1 : Bool) : Answers s (execHeaderCmd a0 a1 t) := by
  unfold execHeaderCmd
  repeat' first
    | with_reducible first
        | assumption | apply keeps_serialTxn | apply answers_next
    | intro _ | dsimp only | split | with_reducible apply keeps_mk

theorem keeps_execFrameCmd (h : Keeps s t) (a0 : Nat) (a1 : List Word) (a2 : Bool) : Answers s (execFrameCmd a0 a1 a2 t) := by
  unfold execFrameCmd
  repeat' first
    | with_reducible first
        | assumption | apply keeps_serialTxn | apply answers_next
    | intro _ | dsimp only | split | with_reducible apply keeps_mk

theorem keeps_execStatusCmd (h : Keeps s t) (a0 : StatusTxn) : Answers s (execStatusCmd a0 t) := by
  unfold execStatusCmd
  repeat' first
    | with_reducible first
        | assumption | apply keeps_serialTxn | apply answers_next
    | intro _ | dsimp only | split | with_reducible apply keeps_mk

theorem keeps_execSerialAbort (h : Keeps s t) : Answers s (execSerialAbort t) := by
  unfold execSerialAbort
  repeat' first
    | with_reducible first
        | assumption | apply keeps_serialTxn | apply answers_next
    | intro _ | dsimp only | split | with_reducible apply keeps_mk

theorem keeps_execSerialBadcmd (h : Keeps s t) (a0 : List Word) : Answers s (execSerialBadcmd a0 t) := by
  unfold execSerialBadcmd
  repeat' first
    | with_reducible first
        | assumption | apply keeps_serialTxn | apply answers_next
    | intro _ | dsimp only | split | with_reducible apply keeps_mk

theorem handler_hLoadCmd : HandlerKeeps hLoadCmd := by
  constructor <;> intro s t h <;> unfold hLoadCmd <;>
  repeat' first
    | with_reducible first
        | assumption | apply HandlerKeeps.chg handler_plain | apply HandlerKeeps.act handler_plain
        | apply HandlerKeeps.post handler_plain | apply keeps_abortLoad | apply keeps_atBoundary | apply keeps_ite
        | apply keeps_foldl | apply keeps_foldl_fst
    | intro _ | dsimp only | split | exact h | with_reducible apply keeps_mk

theorem keeps_execAbortCmd (h : Keeps s t) : Answers s (execAbortCmd t) := by
  unfold execAbortCmd
  repeat' first
    | with_reducible first
        | assumption | apply handler_hLoadCmd | apply keeps_bar0 | apply answers_next
    | intro _ | dsimp only | split | with_reducible apply keeps_mk

theorem keeps_execRecouple (h : Keeps s t) : Answers s (execRecouple t) := by
  unfold execRecouple
  repeat' first
    | with_reducible first
        | assumption | apply handler_hLoadCmd | apply keeps_bar0 | apply answers_next
    | intro _ | dsimp only | split | with_reducible apply keeps_mk

theorem handler_hLoadCtrl : HandlerKeeps hLoadCtrl := by
  constructor <;> intro s t h <;> unfold hLoadCtrl <;>
  repeat' first
    | with_reducible first
        | assumption | apply HandlerKeeps.chg handler_plain | apply HandlerKeeps.act handler_plain
        | apply HandlerKeeps.post handler_plain
    | intro _ | dsimp only | split | exact h | with_reducible apply keeps_mk

theorem keeps_bar2Zero (h : Keeps s t) (a1 a2 : Nat) : Keeps s (State.bar2Zero t a1 a2) := by
  unfold State.bar2Zero
  repeat' first
    | with_reducible first
        | assumption
    | intro _ | dsimp only | split | with_reducible apply keeps_mk

theorem keeps_bar2Put (h : Keeps s t) (a1 : Nat) (a2 : Word) : Keeps s (State.bar2Put t a1 a2) := by
  unfold State.bar2Put
  repeat' first
    | with_reducible first
        | assumption
    | intro _ | dsimp only | split | with_reducible apply keeps_mk

theorem keeps_bar2Header (h : Keeps s t) (a1 : Word) : Keeps s (State.bar2Header t a1) := by
  unfold State.bar2Header
  repeat' first
    | with_reducible first
        | assumption | apply keeps_pushHeader | apply keeps_bar2Zero | apply keeps_bar2Put
    | intro _ | dsimp only | split | with_reducible apply keeps_mk

theorem keeps_bar2Frame (h : Keeps s t) (a1 : Nat) (a2 : Word) : Keeps s (State.bar2Frame t a1 a2) := by
  unfold State.bar2Frame
  repeat' first
    | with_reducible first
        | assumption | apply keeps_bar2Zero | apply keeps_pushFrame | apply keeps_bar2Put
    | intro _ | dsimp only | split | with_reducible apply keeps_mk

theorem keeps_execBar2Write (h : Keeps s t) (a0 a1 : Nat) (a2 : BitVec 64) : Answers s (execBar2Write a0 a1 a2 t) := by
  unfold execBar2Write
  repeat' first
    | with_reducible first
        | assumption | apply keeps_bar2Frame | apply keeps_bar2Header | apply keeps_bar2Put | apply keeps_illegal
        | apply answers_next
    | intro _ | dsimp only | split | with_reducible apply keeps_mk

theorem keeps_execBar2HeaderSubmit (h : Keeps s t) (a0 : Word) : Answers s (execBar2HeaderSubmit a0 t) := by
  unfold execBar2HeaderSubmit
  repeat' first
    | with_reducible first
        | assumption | apply keeps_bar2Header | apply answers_next
    | intro _ | dsimp only | split | with_reducible apply keeps_mk

theorem keeps_execBar2FrameSubmit (h : Keeps s t) (a0 : Nat) (a1 : Word) : Answers s (execBar2FrameSubmit a0 a1 t) := by
  unfold execBar2FrameSubmit
  repeat' first
    | with_reducible first
        | assumption | apply keeps_bar2Frame | apply answers_next
    | intro _ | dsimp only | split | with_reducible apply keeps_mk

theorem keeps_execHeaderCheckDone (h : Keeps s t) : Answers s (execHeaderCheckDone t) := by
  unfold execHeaderCheckDone
  repeat' first
    | with_reducible first
        | assumption | apply keeps_endLoad | apply keeps_put | apply answers_next
    | intro _ | dsimp only | split | with_reducible apply keeps_mk

theorem keeps_execVerifyDone (h : Keeps s t) : Answers s (execVerifyDone t) := by
  unfold execVerifyDone
  repeat' first
    | with_reducible first
        | assumption | apply keeps_endLoad | apply keeps_slotAtBoundary | apply keeps_put | apply answers_next
    | intro _ | dsimp only | split | with_reducible apply keeps_mk

theorem keeps_firmwareStart (h : Keeps s t) (a1 : Nat) : Keeps s (State.firmwareStart t a1) := by
  unfold State.firmwareStart
  repeat' first
    | with_reducible first
        | assumption | apply keeps_put | apply keeps_toPhase
    | intro _ | dsimp only | split | with_reducible apply keeps_mk

theorem keeps_applyUcode (h : Keeps s t) : Keeps s (State.applyUcode t) := by
  unfold State.applyUcode
  repeat' first
    | with_reducible first
        | assumption | apply keeps_setReg | apply keeps_put | apply keeps_ite | apply keeps_foldl | apply keeps_foldl_fst
    | intro _ | dsimp only | split | with_reducible apply keeps_mk

theorem keeps_setGear (h : Keeps s t) (a1 : GearSt → GearSt) : Keeps s (State.setGear t a1) := by
  unfold State.setGear
  repeat' first
    | with_reducible first
        | assumption
    | intro _ | dsimp only | split | with_reducible apply keeps_mk

theorem keeps_setIdent (h : Keeps s t) (a1 : Nat) (a2 : List Word) : Keeps s (State.setIdent t a1 a2) := by
  unfold State.setIdent
  repeat' first
    | with_reducible first
        | assumption | apply keeps_setReg | apply keeps_foldl | apply keeps_foldl_fst
    | intro _ | dsimp only | split | with_reducible apply keeps_mk

theorem keeps_zeroBlocks (h : Keeps s t) (a1 : Nat) : Keeps s (State.zeroBlocks t a1) := by
  unfold State.zeroBlocks
  repeat' first
    | with_reducible first
        | assumption | apply keeps_setGear
    | intro _ | dsimp only | split | with_reducible apply keeps_mk

theorem keeps_clearSlot (h : Keeps s t) (a1 : Nat) : Keeps s (State.clearSlot t a1) := by
  unfold State.clearSlot
  exact keeps_setGear (keeps_mk2 (keeps_zeroBlocks (keeps_setIdent h _ _) _) (spWf_filter _ _ _) id) _

theorem keeps_applyShell (h : Keeps s t) : Keeps s (State.applyShell t) := by
  unfold State.applyShell
  refine keeps_put (keeps_setReg ?_ _ _ _) _ _ _
  refine keeps_mk2 (keeps_foldl ?_ ?_) (spWf_filter _ _ _) (spWf_filter _ _ _)
  · exact keeps_mk (keeps_foldl h fun u x hu => keeps_clearSlot hu _)
  · exact fun u x hu => keeps_setReg hu _ _ _

theorem keeps_execApplyDone (h : Keeps s t) (a0 : Bool) (a1 : Nat) : Answers s (execApplyDone a0 a1 t) := by
  unfold execApplyDone
  repeat' first
    | with_reducible first
        | assumption | apply keeps_applyShell | apply keeps_endLoad | apply keeps_firmwareStart | apply keeps_applyUcode
        | apply answers_next
    | intro _ | dsimp only | split | with_reducible apply keeps_mk

end Sys2Proof.Machine
end

