-- ==== Sys2Proof/Laws/KeepsRings.lean ====
section
/-! SUPPORT. Every operation keeps the queue, the canonical stores, the Stroke bound and what was sent: rings, the sequence space. -/

namespace Sys2Proof.Machine

variable {s t : State}

theorem keeps_dbErr (h : Keeps s t) (a1 : Nat) : Keeps s (State.dbErr t a1) := by
  unfold State.dbErr
  repeat' first
    | with_reducible first
        | assumption | apply keeps_setStat
    | intro _ | dsimp only | split | with_reducible apply keeps_mk

theorem keeps_execSqTail (h : Keeps s t) (a0 a1 : Nat) (a2 : Word) : Answers s (execSqTail a0 a1 a2 t) := by
  unfold execSqTail
  repeat' first
    | with_reducible first
        | assumption | apply keeps_setSqc | apply keeps_dbErr | apply keeps_sat | apply answers_next
    | intro _ | dsimp only | split | with_reducible apply keeps_mk

theorem keeps_execCqHead (h : Keeps s t) (a0 a1 : Nat) (a2 : Word) : Answers s (execCqHead a0 a1 a2 t) := by
  unfold execCqHead
  repeat' first
    | with_reducible first
        | assumption | apply keeps_setCqc | apply keeps_dbErr | apply keeps_keepBounds | apply keeps_sat | apply answers_next
    | intro _ | dsimp only | split | with_reducible apply keeps_mk

theorem keeps_execFetchStart (h : Keeps s t) (a0 a1 : Nat) : Answers s (execFetchStart a0 a1 t) := by
  unfold execFetchStart
  repeat' first
    | with_reducible first
        | assumption | apply keeps_setSqc | apply answers_next
    | intro _ | dsimp only | split | with_reducible apply keeps_mk

theorem keeps_newWorkAt (h : Keeps s t) (a1 : Desc) (a2 : Nat) : Keeps s (State.newWorkAt t a1 a2).1 := by
  unfold State.newWorkAt
  repeat' first
    | with_reducible first
        | assumption
    | intro _ | dsimp only | split | with_reducible apply keeps_mk

theorem keeps_newWork (h : Keeps s t) (a1 : Desc) : Keeps s (State.newWork t a1).1 := by
  unfold State.newWork
  repeat' first
    | with_reducible first
        | assumption | apply keeps_newWorkAt
    | intro _ | dsimp only | split | refine keeps_fst (by assumption) ?_ | with_reducible apply keeps_mk

theorem keeps_latchFetch (h : Keeps s t) (a1 a2 : Nat) : Keeps s (State.latchFetch t a1 a2) := by
  unfold State.latchFetch
  repeat' first
    | with_reducible first
        | assumption | apply keeps_newWork | apply keeps_setSqc | apply keeps_latch | apply keeps_ite
    | intro _ | dsimp only | split | refine keeps_fst (by assumption) ?_ | with_reducible apply keeps_mk

theorem keeps_execDescriptorFetched (h : Keeps s t) (a0 a1 : Nat) : Answers s (execDescriptorFetched a0 a1 t) := by
  unfold execDescriptorFetched
  repeat' first
    | with_reducible first
        | assumption | apply keeps_latchFetch | apply answers_next
    | intro _ | dsimp only | split | with_reducible apply keeps_mk

theorem handler_hSqCtrl (a0 a1 : Nat) (a2 : Bool) : HandlerKeeps (hSqCtrl a0 a1 a2) := by
  constructor <;> intro s t h <;> unfold hSqCtrl <;>
  repeat' first
    | with_reducible first
        | assumption | apply HandlerKeeps.chg handler_plain | apply HandlerKeeps.act handler_plain
        | apply HandlerKeeps.post handler_plain | apply keeps_setSqc | apply keeps_ite
    | intro _ | dsimp only | split | exact h | with_reducible apply keeps_mk

theorem keeps_writeSqCtrl (h : Keeps s t) (a1 a2 : Nat) (a3 : Word) : Keeps s (State.writeSqCtrl t a1 a2 a3) := by
  unfold State.writeSqCtrl
  repeat' first
    | with_reducible first
        | assumption | apply keeps_bar0 | apply handler_hSqCtrl
    | intro _ | dsimp only | split | with_reducible apply keeps_mk

theorem keeps_execSqCtrl (h : Keeps s t) (a0 a1 : Nat) (a2 : Word) : Answers s (execSqCtrl a0 a1 a2 t) := by
  unfold execSqCtrl
  repeat' first
    | with_reducible first
        | assumption | apply keeps_writeSqCtrl | apply answers_next
    | intro _ | dsimp only | split | with_reducible apply keeps_mk

theorem handler_hCqCtrl (a0 a1 : Nat) (a2 : Bool) : HandlerKeeps (hCqCtrl a0 a1 a2) := by
  constructor <;> intro s t h <;> unfold hCqCtrl <;>
  repeat' first
    | with_reducible first
        | assumption | apply HandlerKeeps.chg handler_plain | apply HandlerKeeps.act handler_plain
        | apply HandlerKeeps.post handler_plain | apply keeps_setCqc | apply keeps_ite
    | intro _ | dsimp only | split | exact h | with_reducible apply keeps_mk

theorem keeps_writeCqCtrl (h : Keeps s t) (a1 a2 : Nat) (a3 : Word) : Keeps s (State.writeCqCtrl t a1 a2 a3) := by
  unfold State.writeCqCtrl
  repeat' first
    | with_reducible first
        | assumption | apply keeps_bar0 | apply handler_hCqCtrl
    | intro _ | dsimp only | split | with_reducible apply keeps_mk

theorem keeps_execCqCtrl (h : Keeps s t) (a0 a1 : Nat) (a2 : Word) : Answers s (execCqCtrl a0 a1 a2 t) := by
  unfold execCqCtrl
  repeat' first
    | with_reducible first
        | assumption | apply keeps_writeCqCtrl | apply answers_next
    | intro _ | dsimp only | split | with_reducible apply keeps_mk

theorem handler_hRingBase (a0 a1 : Nat) (a2 : Bool) : HandlerKeeps (hRingBase a0 a1 a2) := by
  constructor <;> intro s t h <;> unfold hRingBase <;>
  repeat' first
    | with_reducible first
        | assumption | apply HandlerKeeps.chg handler_plain | apply HandlerKeeps.act handler_plain
        | apply HandlerKeeps.post handler_plain
    | intro _ | dsimp only | split | exact h | with_reducible apply keeps_mk

theorem keeps_enter (h : Keeps s t) (a1 : Nat) : Keeps s (State.enter t a1) := by
  unfold State.enter
  repeat' first
    | with_reducible first
        | assumption | apply keeps_updWork | apply keeps_sat | apply keeps_ite
    | intro _ | dsimp only | split | with_reducible apply keeps_mk

theorem keeps_admitWith (h : Keeps s t) (a1 : Nat) (a2 : State → Work → State) (ha2 : ∀ (u : State) x0, Keeps s u → Keeps s (a2 u x0)) :
    Keeps s (State.admitWith t a1 a2) := by
  unfold State.admitWith
  repeat' first
    | with_reducible first
        | assumption | apply keeps_latch | apply keeps_enter | apply ha2 | apply keeps_ite
    | intro _ | dsimp only | split | with_reducible apply keeps_mk

theorem keeps_rowAdmit (h : Keeps s t) (a1 : Nat) (a2 : Desc) (a3 : State → Nat → State) (ha3 : ∀ (u : State) x0, Keeps s u → Keeps s (a3 u x0)) :
    Keeps s (State.rowAdmit t a1 a2 a3) := by
  unfold State.rowAdmit
  repeat' first
    | with_reducible first
        | assumption | apply ha3 | apply keeps_latch | apply keeps_newWork | apply keeps_newWorkAt | apply keeps_ite
    | intro _ | dsimp only | split | refine keeps_fst (by assumption) ?_ | with_reducible apply keeps_mk

theorem keeps_admitNop (h : Keeps s t) (a1 : Nat) : Keeps s (State.admitNop t a1) := by
  unfold State.admitNop
  repeat' first
    | with_reducible first
        | assumption | apply keeps_admitWith | apply keeps_latch
    | intro _ | dsimp only | split | with_reducible apply keeps_mk

theorem keeps_settleFences (h : Keeps s t) : Keeps s (State.settleFences t) := by
  unfold State.settleFences
  repeat' first
    | with_reducible first
        | assumption | apply keeps_latch | apply keeps_ite | apply keeps_foldl | apply keeps_foldl_fst
    | intro _ | dsimp only | split | with_reducible apply keeps_mk

theorem keeps_admitFence (h : Keeps s t) (a1 : Nat) : Keeps s (State.admitFence t a1) := by
  unfold State.admitFence
  repeat' first
    | with_reducible first
        | assumption | apply keeps_admitWith | apply keeps_settleFences
    | intro _ | dsimp only | split | with_reducible apply keeps_mk

theorem keeps_execNop (h : Keeps s t) (a0 : Desc) : Answers s (execNop a0 t) := by
  unfold execNop
  repeat' first
    | with_reducible first
        | assumption | apply keeps_admitNop | apply keeps_rowAdmit | apply answers_next
    | intro _ | dsimp only | split | with_reducible apply keeps_mk

theorem keeps_execFence (h : Keeps s t) (a0 : Desc) : Answers s (execFence a0 t) := by
  unfold execFence
  repeat' first
    | with_reducible first
        | assumption | apply keeps_admitFence | apply keeps_rowAdmit | apply answers_next
    | intro _ | dsimp only | split | with_reducible apply keeps_mk

theorem keeps_postCompletion (h : Keeps s t) (a1 : Nat) : Keeps s (State.postCompletion t a1) := by
  unfold State.postCompletion
  repeat' first
    | with_reducible first
        | assumption | apply keeps_memWrite | apply keeps_setCqc | apply keeps_setStat | apply keeps_ite | apply keeps_foldl
        | apply keeps_foldl_fst
    | intro _ | dsimp only | split | with_reducible apply keeps_mk

theorem keeps_signalCqs (h : Keeps s t) : Keeps s (State.signalCqs t) := by
  unfold State.signalCqs
  repeat' first
    | with_reducible first
        | assumption | apply keeps_setCqc | apply keeps_signal | apply keeps_ite | apply keeps_foldl | apply keeps_foldl_fst
    | intro _ | dsimp only | split | with_reducible apply keeps_mk

theorem keeps_takeIndex (h : Keeps s t) : Keeps s (State.takeIndex t) := by
  unfold State.takeIndex
  repeat' first
    | with_reducible first
        | assumption | apply keeps_setSq | apply keeps_ite
    | intro _ | dsimp only | split | with_reducible apply keeps_mk

theorem keeps_rootFor (h : Keeps s t) (a1 : Nat) : Keeps s (State.rootFor t a1) := by
  unfold State.rootFor
  repeat' first
    | with_reducible first
        | assumption | apply keeps_addItem | apply opt_none | apply opt_some | apply opt_map | apply opt_map_val
        | apply opt_bind | apply keeps_getD
    | intro _ | dsimp only | split | refine opt_of (by assumption) ?_ | with_reducible apply keeps_mk

theorem keeps_admitOpen (h : Keeps s t) (a1 : Nat) : Keeps s (State.admitOpen t a1) := by
  unfold State.admitOpen
  repeat' first
    | with_reducible first
        | assumption | apply keeps_admitWith | apply keeps_latch | apply keeps_logKv | apply keeps_rootFor | apply keeps_setSq
        | apply keeps_takeIndex | apply keeps_updWork | apply keeps_ite
    | intro _ | dsimp only | split | with_reducible apply keeps_mk

theorem keeps_execSeqOpen (h : Keeps s t) (a0 : Desc) : Answers s (execSeqOpen a0 t) := by
  unfold execSeqOpen
  repeat' first
    | with_reducible first
        | assumption | apply keeps_admitOpen | apply keeps_rowAdmit | apply answers_next
    | intro _ | dsimp only | split | with_reducible apply keeps_mk

theorem keeps_admitClose (h : Keeps s t) (a1 : Nat) : Keeps s (State.admitClose t a1) := by
  unfold State.admitClose
  repeat' first
    | with_reducible first
        | assumption | apply keeps_setSeq | apply keeps_admitWith
    | intro _ | dsimp only | split | with_reducible apply keeps_mk

theorem keeps_execSeqClose (h : Keeps s t) (a0 : Desc) : Answers s (execSeqClose a0 t) := by
  unfold execSeqClose
  repeat' first
    | with_reducible first
        | assumption | apply keeps_rowAdmit | apply keeps_admitClose | apply answers_next
    | intro _ | dsimp only | split | with_reducible apply keeps_mk

theorem keeps_dropSeqPages (h : Keeps s t) (a1 : Seq) : Keeps s (State.dropSeqPages t a1) := by
  unfold State.dropSeqPages
  repeat' first
    | with_reducible first
        | assumption | apply keeps_dropLeaf | apply keeps_foldl | apply keeps_foldl_fst
    | intro _ | dsimp only | split | with_reducible apply keeps_mk

theorem keeps_dropStaged (h : Keeps s t) (a1 : Seq) : Keeps s (State.dropStaged t a1) := by
  unfold State.dropStaged
  repeat' first
    | with_reducible first
        | assumption | apply keeps_gcPage | apply opt_map | apply opt_map_val | apply keeps_getD | apply keeps_foldl
        | apply keeps_foldl_fst
    | intro _ | dsimp only | split | with_reducible apply keeps_mk

theorem keeps_runClose (h : Keeps s t) (a1 : Seq) : Keeps s (State.runClose t a1) := by
  unfold State.runClose
  repeat' first
    | with_reducible first
        | assumption | apply keeps_dropSeqPages | apply keeps_dropStaged | apply keeps_logKv | apply keeps_setSq
        | apply keeps_trimTables | apply keeps_ite
    | intro _ | dsimp only | split | with_reducible apply keeps_mk

theorem keeps_execCloseRun (h : Keeps s t) (a0 : Nat) : Answers s (execCloseRun a0 t) := by
  unfold execCloseRun
  repeat' first
    | with_reducible first
        | assumption | apply keeps_runClose | apply keeps_latch | apply answers_next
    | intro _ | dsimp only | split | with_reducible apply keeps_mk

theorem keeps_holdEntry (h : Keeps s t) (a1 : Nat) : Keeps s (State.holdEntry t a1) := by
  unfold State.holdEntry
  repeat' first
    | with_reducible first
        | assumption | apply keeps_ite
    | intro _ | dsimp only | split | with_reducible apply keeps_mk

theorem keeps_notePending (h : Keeps s t) : Keeps s (State.notePending t) := by
  unfold State.notePending
  repeat' first
    | with_reducible first
        | assumption | apply keeps_put
    | intro _ | dsimp only | split | with_reducible apply keeps_mk

theorem keeps_removeEntry (h : Keeps s t) (a1 : Nat) (a2 : Entry) : Keeps s (State.removeEntry t a1 a2) := by
  unfold State.removeEntry
  repeat' first
    | with_reducible first
        | assumption | apply keeps_add64 | apply keeps_holdEntry | apply keeps_logKv | apply keeps_notePending
    | intro _ | dsimp only | split | with_reducible apply keeps_mk

theorem keeps_dropEntries (h : Keeps s t) (a1 : Nat) (a2 : List Entry) : Keeps s (State.dropEntries t a1 a2) := by
  unfold State.dropEntries
  repeat' first
    | with_reducible first
        | assumption | apply keeps_removeEntry | apply keeps_foldl | apply keeps_foldl_fst
    | intro _ | dsimp only | split | with_reducible apply keeps_mk

theorem keeps_execCloseEntriesRemoved (h : Keeps s t) (a0 : Nat) : Answers s (execCloseEntriesRemoved a0 t) := by
  unfold execCloseEntriesRemoved
  repeat' first
    | with_reducible first
        | assumption | apply keeps_setSq | apply keeps_dropEntries | apply answers_next
    | intro _ | dsimp only | split | with_reducible apply keeps_mk

theorem keeps_admitFork (h : Keeps s t) (a1 : Nat) : Keeps s (State.admitFork t a1) := by
  unfold State.admitFork
  repeat' first
    | with_reducible first
        | assumption | apply keeps_admitWith | apply keeps_latch | apply keeps_updWork | apply keeps_ite
    | intro _ | dsimp only | split | with_reducible apply keeps_mk

theorem keeps_execSeqFork (h : Keeps s t) (a0 : Desc) : Answers s (execSeqFork a0 t) := by
  unfold execSeqFork
  repeat' first
    | with_reducible first
        | assumption | apply keeps_admitFork | apply keeps_rowAdmit | apply answers_next
    | intro _ | dsimp only | split | with_reducible apply keeps_mk

theorem keeps_beginFork (h : Keeps s t) (a1 : Work) (a2 : Seq) : Keeps s (State.beginFork t a1 a2) := by
  unfold State.beginFork
  repeat' first
    | with_reducible first
        | assumption | apply keeps_updWork | apply opt_map | apply opt_map_val | apply keeps_getD | apply keeps_ite
    | intro _ | dsimp only | split | with_reducible apply keeps_mk

theorem keeps_sharePage (h : Keeps s t) (a1 : Seq) (a2 a3 : Nat) : OptKeeps s (State.sharePage t a1 a2 a3) := by
  unfold State.sharePage
  repeat' first
    | with_reducible first
        | assumption | apply keeps_addItem | apply keeps_updPage | apply keeps_setLeaf | apply keeps_addTables | apply opt_none
        | apply opt_some | apply opt_map | apply opt_map_val | apply opt_bind
    | intro _ | dsimp only | split | refine opt_of (by assumption) ?_ | with_reducible apply keeps_mk

theorem keeps_endFork (h : Keeps s t) (a1 : Work) (a2 a3 : Seq) (a4 : Nat) : Keeps s (State.endFork t a1 a2 a3 a4) := by
  unfold State.endFork
  repeat' first
    | with_reducible first
        | assumption | apply keeps_latch | apply keeps_logKv | apply keeps_setSeq | apply keeps_ite
    | intro _ | dsimp only | split | with_reducible apply keeps_mk

theorem keeps_undoFork (h : Keeps s t) (a1 : Seq) : Keeps s (State.undoFork t a1) := by
  unfold State.undoFork
  repeat' first
    | with_reducible first
        | assumption | apply keeps_dropSeqPages
    | intro _ | dsimp only | split | with_reducible apply keeps_mk

theorem keeps_forkPages (h : Keeps s t) (a1 : Nat) (a2 a3 : Seq) (a4 : Nat) : Keeps s (State.forkPages t a1 a2 a3 a4) := by
  induction a4 generalizing t with
  | zero =>
    unfold State.forkPages
    repeat' first
      | with_reducible first
          | assumption | apply keeps_sharePage | apply keeps_updWork | apply keeps_latch | apply keeps_undoFork | apply keeps_sat
      | intro _ | dsimp only | split | refine opt_of (by assumption) ?_ | with_reducible apply keeps_mk
  | succ n ih =>
    unfold State.forkPages
    repeat' first
      | with_reducible first
          | assumption | apply ih | apply keeps_sharePage | apply keeps_updWork | apply keeps_latch | apply keeps_undoFork
          | apply keeps_sat
      | intro _ | dsimp only | split | refine opt_of (by assumption) ?_ | with_reducible apply keeps_mk

theorem keeps_turnForks (h : Keeps s t) (a1 : List Work) : Keeps s (State.turnForks t a1) := by
  unfold State.turnForks
  repeat' first
    | with_reducible first
        | assumption
    | intro _ | dsimp only | split | with_reducible apply keeps_mk

theorem keeps_serveForks (h : Keeps s t) : Keeps s (State.serveForks t) := by
  unfold State.serveForks
  repeat' first
    | with_reducible first
        | assumption | apply keeps_beginFork | apply keeps_endFork | apply keeps_forkPages | apply keeps_turnForks
        | apply keeps_ite | apply keeps_foldl | apply keeps_foldl_fst
    | intro _ | dsimp only | split | with_reducible apply keeps_mk

theorem handler_hRebuildCtrl : HandlerKeeps hRebuildCtrl := by
  constructor <;> intro s t h <;> unfold hRebuildCtrl <;>
  repeat' first
    | with_reducible first
        | assumption | apply HandlerKeeps.chg handler_plain | apply HandlerKeeps.act handler_plain
        | apply HandlerKeeps.post handler_plain | apply keeps_put | apply keeps_setSq | apply keeps_ite
    | intro _ | dsimp only | split | exact h | with_reducible apply keeps_mk

theorem keeps_execRebuildStart (h : Keeps s t) : Answers s (execRebuildStart t) := by
  unfold execRebuildStart
  repeat' first
    | with_reducible first
        | assumption | apply handler_hRebuildCtrl | apply keeps_bar0Bit | apply answers_next
    | intro _ | dsimp only | split | with_reducible apply keeps_mk

theorem keeps_execRebuildCopyDone (h : Keeps s t) : Answers s (execRebuildCopyDone t) := by
  unfold execRebuildCopyDone
  repeat' first
    | with_reducible first
        | assumption | apply keeps_put | apply answers_next
    | intro _ | dsimp only | split | with_reducible apply keeps_mk

theorem keeps_switchRebuild (h : Keeps s t) : Keeps s (State.switchRebuild t) := by
  unfold State.switchRebuild
  repeat' first
    | with_reducible first
        | assumption | apply keeps_put | apply keeps_setSq
    | intro _ | dsimp only | split | with_reducible apply keeps_mk

theorem handler_hWalkCtrl : HandlerKeeps hWalkCtrl := by
  constructor <;> intro s t h <;> unfold hWalkCtrl <;>
  repeat' first
    | with_reducible first
        | assumption | apply HandlerKeeps.chg handler_plain | apply HandlerKeeps.act handler_plain
        | apply HandlerKeeps.post handler_plain | apply keeps_setSq | apply keeps_ite
    | intro _ | dsimp only | split | exact h | with_reducible apply keeps_mk

theorem keeps_execWalkCacheFlush (h : Keeps s t) : Answers s (execWalkCacheFlush t) := by
  unfold execWalkCacheFlush
  repeat' first
    | with_reducible first
        | assumption | apply handler_hWalkCtrl | apply keeps_bar0Bit | apply answers_next
    | intro _ | dsimp only | split | with_reducible apply keeps_mk

theorem handler_hSeqCap : HandlerKeeps hSeqCap := by
  constructor <;> intro s t h <;> unfold hSeqCap <;>
  repeat' first
    | with_reducible first
        | assumption | apply HandlerKeeps.chg handler_plain | apply HandlerKeeps.act handler_plain
        | apply HandlerKeeps.post handler_plain
    | intro _ | dsimp only | split | exact h | with_reducible apply keeps_mk

theorem handler_hAreaCtrl : HandlerKeeps hAreaCtrl := by
  constructor <;> intro s t h <;> unfold hAreaCtrl <;>
  repeat' first
    | with_reducible first
        | assumption | apply HandlerKeeps.chg handler_plain | apply HandlerKeeps.act handler_plain
        | apply HandlerKeeps.post handler_plain
    | intro _ | dsimp only | split | exact h | with_reducible apply keeps_mk

theorem keeps_sameCycle (h : Keeps s t) (a1 : Nat) : Keeps s (State.sameCycle t a1) := by
  unfold State.sameCycle
  repeat' first
    | with_reducible first
        | assumption
    | intro _ | dsimp only | split | with_reducible apply keeps_mk

end Sys2Proof.Machine
end

