-- ==== Sys2Proof/Laws/KeepsPages.lean ====
section
/-! SUPPORT. Every operation keeps the queue, the canonical stores, the Stroke bound and what was sent: chunks shared by every opcode, hooks, placing, APPEND, tiers, attention, reads. -/

namespace Sys2Proof.Machine

variable {s t : State}

/-- What is carried by a `Dec` keeps all of that. -/
inductive DecKeeps (s : State) : Dec → Prop where
  | wait : DecKeeps s (.wait)
  | noFrame : DecKeeps s (.noFrame)
  | hookWait {t : State} (h : Keeps s t) : DecKeeps s (.hookWait t)
  | stop {t : State} {x0} {x1} (h : Keeps s t) : DecKeeps s (.stop t x0 x1)
  | pass {t : State} (h : Keeps s t) : DecKeeps s (.pass t)
  | go {t : State} {x0} {x1} {x2} {x3} (h : Keeps s t) : DecKeeps s (.go t x0 x1 x2 x3)

theorem dec_of_hookWait {d : Dec} (e : d = .hookWait t) (h : DecKeeps s d) : Keeps s t := by
  subst e; cases h; assumption

theorem dec_of_stop {d : Dec} {x0} {x1} (e : d = .stop t x0 x1) (h : DecKeeps s d) : Keeps s t := by
  subst e; cases h; assumption

theorem dec_of_pass {d : Dec} (e : d = .pass t) (h : DecKeeps s d) : Keeps s t := by
  subst e; cases h; assumption

theorem dec_of_go {d : Dec} {x0} {x1} {x2} {x3} (e : d = .go t x0 x1 x2 x3) (h : DecKeeps s d) : Keeps s t := by
  subst e; cases h; assumption

theorem dec_ite {c : Prop} [Decidable c] {a b : Dec} (ha : c → DecKeeps s a) (hb : ¬c → DecKeeps s b) :
    DecKeeps s (if c then a else b) := by
  split
  · exact ha ‹_›
  · exact hb ‹_›

theorem keeps_lose (h : Keeps s t) (a1 : Work) (a2 a3 : Nat) (a4 : Bool) : Keeps s (State.lose t a1 a2 a3 a4) := by
  unfold State.lose
  repeat' first
    | with_reducible first
        | assumption | apply keeps_fault | apply keeps_updWork | apply keeps_ite
    | intro _ | dsimp only | split | with_reducible apply keeps_mk

theorem keeps_flagWork (h : Keeps s t) (a1 a2 : Nat) : Keeps s (State.flagWork t a1 a2) := by
  unfold State.flagWork
  repeat' first
    | with_reducible first
        | assumption | apply keeps_updWork
    | intro _ | dsimp only | split | with_reducible apply keeps_mk

theorem keeps_latchEnd (h : Keeps s t) (a1 : Work) (a2 : Nat × Nat) : Keeps s (State.latchEnd t a1 a2) := by
  unfold State.latchEnd
  repeat' first
    | with_reducible first
        | assumption | apply keeps_latch
    | intro _ | dsimp only | split | with_reducible apply keeps_mk

theorem keeps_noteEpoch (h : Keeps s t) (a1 a2 : Nat) : Keeps s (State.noteEpoch t a1 a2) := by
  unfold State.noteEpoch
  repeat' first
    | with_reducible first
        | assumption | apply keeps_updWork | apply keeps_ite
    | intro _ | dsimp only | split | with_reducible apply keeps_mk

/-- What is carried by a `HookUse` keeps all of that. -/
inductive HookKeeps (s : State) : HookUse → Prop where
  | builtin {t : State} (h : Keeps s t) : HookKeeps s (.builtin t)
  | waits {t : State} (h : Keeps s t) : HookKeeps s (.waits t)
  | slot {x0} : HookKeeps s (.slot x0)

theorem hook_of_builtin {d : HookUse} (e : d = .builtin t) (h : HookKeeps s d) : Keeps s t := by
  subst e; cases h; assumption

theorem hook_of_waits {d : HookUse} (e : d = .waits t) (h : HookKeeps s d) : Keeps s t := by
  subst e; cases h; assumption

theorem keeps_hookWaits (h : Keeps s t) (a1 a2 : Nat) : Keeps s (State.hookWaits t a1 a2) := by
  unfold State.hookWaits
  repeat' first
    | with_reducible first
        | assumption | apply keeps_setGear | apply keeps_sat | apply keeps_ite
    | intro _ | dsimp only | split | with_reducible apply keeps_mk

theorem keeps_resolveHook (h : Keeps s t) (a1 a2 a3 a4 a5 : Nat) (a6 : Bool) :
    HookKeeps s (State.resolveHook t a1 a2 a3 a4 a5 a6) := by
  unfold State.resolveHook
  repeat' first
    | with_reducible first
        | assumption | apply keeps_hookWaits | apply keeps_sat | apply HookKeeps.builtin | apply HookKeeps.waits
        | exact HookKeeps.slot
    | intro _ | dsimp only | split | refine hook_of_builtin (by assumption) ?_ | refine hook_of_waits (by assumption) ?_
    | with_reducible apply keeps_mk

theorem keeps_call (h : Keeps s t) (a1 a2 a3 a4 a5 : Nat) (a6 : List Byte) : Keeps s (State.call t a1 a2 a3 a4 a5 a6) := by
  unfold State.call
  repeat' first
    | with_reducible first
        | assumption | apply keeps_setGear | apply keeps_emit
    | intro _ | dsimp only | split | with_reducible apply keeps_mk

theorem keeps_takePort (h : Keeps s t) (a1 a2 : Nat) : Keeps s (State.takePort t a1 a2) := by
  unfold State.takePort
  repeat' first
    | with_reducible first
        | assumption | apply keeps_setGear
    | intro _ | dsimp only | split | with_reducible apply keeps_mk

theorem keeps_dropCalls (h : Keeps s t) (a1 a2 : Nat) : Keeps s (State.dropCalls t a1 a2) := by
  unfold State.dropCalls
  repeat' first
    | with_reducible first
        | assumption | apply keeps_setGear
    | intro _ | dsimp only | split | with_reducible apply keeps_mk

theorem keeps_faultAnswer (h : Keeps s t) (a1 : HookCall) : Keeps s (State.faultAnswer t a1) := by
  unfold State.faultAnswer
  repeat' first
    | with_reducible first
        | assumption | apply keeps_dropCalls | apply keeps_dropRun | apply keeps_updWork | apply opt_map | apply opt_map_val
        | apply keeps_getD | apply keeps_ite | apply keeps_foldl | apply keeps_foldl_fst
    | intro _ | dsimp only | split | with_reducible apply keeps_mk

theorem keeps_failSlot (h : Keeps s t) (a1 a2 : Nat) : Keeps s (State.failSlot t a1 a2) := by
  unfold State.failSlot
  repeat' first
    | with_reducible first
        | assumption | apply keeps_audit | apply keeps_event | apply keeps_fault | apply keeps_faultAnswer | apply keeps_put
        | apply keeps_setGear | apply keeps_setSlotState | apply keeps_zeroBlocks | apply keeps_foldl | apply keeps_foldl_fst
    | intro _ | dsimp only | split | with_reducible apply keeps_mk

theorem keeps_setTier (h : Keeps s t) (a1 : TierSt → TierSt) : Keeps s (State.setTier t a1) := by
  unfold State.setTier
  repeat' first
    | with_reducible first
        | assumption
    | intro _ | dsimp only | split | with_reducible apply keeps_mk

theorem keeps_setStream (h : Keeps s t) (a1 : WStream) : Keeps s (State.setStream t a1) := by
  unfold State.setStream
  repeat' first
    | with_reducible first
        | assumption | apply keeps_setTier
    | intro _ | dsimp only | split | with_reducible apply keeps_mk

theorem keeps_readyProgram (h : Keeps s t) (a1 a2 : Nat) : Keeps s (State.readyProgram t a1 a2) := by
  unfold State.readyProgram
  repeat' first
    | with_reducible first
        | assumption | apply keeps_setTier
    | intro _ | dsimp only | split | with_reducible apply keeps_mk

theorem keeps_closeOpen (h : Keeps s t) (a1 : Nat) : Keeps s (State.closeOpen t a1) := by
  unfold State.closeOpen
  repeat' first
    | with_reducible first
        | assumption | apply keeps_setStream | apply keeps_readyProgram | apply keeps_ite
    | intro _ | dsimp only | split | with_reducible apply keeps_mk

theorem keeps_roomFor (h : Keeps s t) (a1 a2 : Nat) : Keeps s (State.roomFor t a1 a2) := by
  unfold State.roomFor
  repeat' first
    | with_reducible first
        | assumption | apply keeps_closeOpen | apply keeps_setStream | apply keeps_takeBlock | apply keeps_ite
    | intro _ | dsimp only | split | refine keeps_fst (by assumption) ?_ | with_reducible apply keeps_mk

theorem keeps_placeSectors (h : Keeps s t) (a1 a2 : Nat) : Keeps s (State.placeSectors t a1 a2).1 := by
  unfold State.placeSectors
  repeat' first
    | with_reducible first
        | assumption | apply keeps_setStream | apply keeps_closeOpen | apply keeps_readyProgram | apply keeps_roomFor
        | apply keeps_ite | apply keeps_foldl | apply keeps_foldl_fst
    | intro _ | dsimp only | split | with_reducible apply keeps_mk

theorem keeps_startWriting (h : Keeps s t) (a1 : Nat) : Keeps s (State.startWriting t a1) := by
  unfold State.startWriting
  repeat' first
    | with_reducible first
        | assumption | apply keeps_firstWrite | apply keeps_needChain | apply keeps_placeSectors | apply keeps_setTier
        | apply keeps_updPage | apply keeps_ite
    | intro _ | dsimp only | split | refine keeps_fst (by assumption) ?_ | with_reducible apply keeps_mk

theorem keeps_execOpenNandPageTimeout (h : Keeps s t) (a0 : Nat) : Answers s (execOpenNandPageTimeout a0 t) := by
  unfold execOpenNandPageTimeout
  repeat' first
    | with_reducible first
        | assumption | apply keeps_closeOpen | apply answers_next
    | intro _ | dsimp only | split | with_reducible apply keeps_mk

theorem keeps_dirty (h : Keeps s t) (a1 : Nat) : Keeps s (State.dirty t a1) := by
  unfold State.dirty
  repeat' first
    | with_reducible first
        | assumption | apply keeps_setTier | apply keeps_updPage | apply opt_map | apply opt_map_val | apply keeps_getD
        | apply keeps_ite
    | intro _ | dsimp only | split | with_reducible apply keeps_mk

/-- What is carried by an `AppendFmt` keeps all of that. -/
inductive FmtKeeps (s : State) : AppendFmt → Prop where
  | fmt {t : State} {x0} (h : Keeps s t) : FmtKeeps s (.fmt t x0)
  | user {x0} : FmtKeeps s (.user x0)
  | loading : FmtKeeps s .loading
  | waits {t : State} (h : Keeps s t) : FmtKeeps s (.waits t)
  | unavailable {t : State} (h : Keeps s t) : FmtKeeps s (.unavailable t)

theorem fmt_of_fmt {d : AppendFmt} {x0} (e : d = .fmt t x0) (h : FmtKeeps s d) : Keeps s t := by
  subst e; cases h; assumption

theorem fmt_of_waits {d : AppendFmt} (e : d = .waits t) (h : FmtKeeps s d) : Keeps s t := by
  subst e; cases h; assumption

theorem handler_hBuckets (a0 : Nat) : HandlerKeeps (hBuckets a0) := by
  constructor <;> intro s t h <;> unfold hBuckets <;>
  repeat' first
    | with_reducible first
        | assumption | apply HandlerKeeps.chg handler_plain | apply HandlerKeeps.act handler_plain
        | apply HandlerKeeps.post handler_plain | apply keeps_atBoundary | apply keeps_ite
    | intro _ | dsimp only | split | exact h | with_reducible apply keeps_mk

theorem keeps_execAppendBuckets (h : Keeps s t) (a0 : Nat) (a1 : Word) : Answers s (execAppendBuckets a0 a1 t) := by
  unfold execAppendBuckets
  repeat' first
    | with_reducible first
        | assumption | apply handler_hBuckets | apply keeps_bar0 | apply answers_next
    | intro _ | dsimp only | split | with_reducible apply keeps_mk

theorem keeps_activate (h : Keeps s t) (a1 : Work) (a2 : Seq) : Keeps s (State.activate t a1 a2) := by
  unfold State.activate
  repeat' first
    | with_reducible first
        | assumption | apply keeps_latch | apply keeps_updWork | apply keeps_ite
    | intro _ | dsimp only | split | with_reducible apply keeps_mk

theorem keeps_activateWriters (h : Keeps s t) : Keeps s (State.activateWriters t) := by
  unfold State.activateWriters
  repeat' first
    | with_reducible first
        | assumption | apply keeps_activate | apply keeps_ite | apply keeps_foldl | apply keeps_foldl_fst
    | intro _ | dsimp only | split | with_reducible apply keeps_mk

theorem keeps_admitAppend (h : Keeps s t) (a1 : Nat) : Keeps s (State.admitAppend t a1) := by
  unfold State.admitAppend
  repeat' first
    | with_reducible first
        | assumption | apply keeps_activateWriters | apply keeps_admitWith | apply keeps_updWork
    | intro _ | dsimp only | split | with_reducible apply keeps_mk

theorem keeps_execAppend (h : Keeps s t) (a0 : Desc) : Answers s (execAppend a0 t) := by
  unfold execAppend
  repeat' first
    | with_reducible first
        | assumption | apply keeps_rowAdmit | apply keeps_admitAppend | apply answers_next
    | intro _ | dsimp only | split | with_reducible apply keeps_mk

theorem keeps_freshFmt (h : Keeps s t) (a1 : Work) (a2 : Seq) (a3 : ClassDef) (a4 : Nat) :
    FmtKeeps s (State.freshFmt t a1 a2 a3 a4) := by
  unfold State.freshFmt
  repeat' first
    | with_reducible first
        | assumption | apply keeps_resolveHook | apply HookKeeps.builtin | apply HookKeeps.waits | exact HookKeeps.slot
        | apply FmtKeeps.fmt | exact FmtKeeps.user | apply FmtKeeps.waits | exact FmtKeeps.unavailable
    | intro _ | dsimp only | split | refine hook_of_builtin (by assumption) ?_ | refine hook_of_waits (by assumption) ?_
    | refine fmt_of_fmt (by assumption) ?_ | refine fmt_of_waits (by assumption) ?_ | with_reducible apply keeps_mk

theorem fmt_of_unavailable {d : AppendFmt} (e : d = .unavailable t) (h : FmtKeeps s d) : Keeps s t := by
  subst e; cases h; assumption

theorem keeps_appendFmt (h : Keeps s t) (a1 : Work) (a2 : Seq) (a3 : ClassDef) (a4 : Part) (a5 : Option Page) :
    FmtKeeps s (State.appendFmt t a1 a2 a3 a4 a5) := by
  unfold State.appendFmt
  repeat' first
    | with_reducible first
        | assumption | apply keeps_freshFmt | apply keeps_resolveHook | apply FmtKeeps.fmt | exact FmtKeeps.user
        | apply FmtKeeps.waits | exact FmtKeeps.loading | apply FmtKeeps.unavailable | apply keeps_ite
    | intro _ | dsimp only | split | refine hook_of_builtin (by assumption) ?_ | refine hook_of_waits (by assumption) ?_
    | refine fmt_of_fmt (by assumption) ?_ | refine fmt_of_waits (by assumption) ?_
    | refine fmt_of_unavailable (by assumption) ?_ | with_reducible apply keeps_mk

theorem keeps_quantCalls (h : Keeps s t) (a1 : Work) (a2 : Seq) (a3 : ClassDef) (a4 : Part) (a5 : Nat) :
    Keeps s (State.quantCalls t a1 a2 a3 a4 a5) := by
  unfold State.quantCalls
  repeat' first
    | with_reducible first
        | assumption | apply keeps_call | apply keeps_takePort | apply opt_map | apply opt_map_val | apply keeps_getD
        | apply keeps_foldl | apply keeps_foldl_fst
    | intro _ | dsimp only | split | with_reducible apply keeps_mk

theorem keeps_loseCoded (h : Keeps s t) (a1 : Work) (a2 : Nat) : Keeps s (State.loseCoded t a1 a2) := by
  unfold State.loseCoded
  repeat' first
    | with_reducible first
        | assumption | apply keeps_lose | apply keeps_sat
    | intro _ | dsimp only | split | with_reducible apply keeps_mk

theorem keeps_appendChunk (h : Keeps s t) (a1 : Work) : DecKeeps s (State.appendChunk t a1) := by
  unfold State.appendChunk
  repeat' first
    | with_reducible first
        | assumption | apply keeps_addTables | apply keeps_appendFmt | apply keeps_draw | apply keeps_lose
        | apply keeps_loseCoded | apply keeps_quantCalls | apply keeps_resolve | apply keeps_sat | apply opt_none
        | apply opt_some | apply opt_map | apply opt_map_val | apply opt_bind | apply keeps_getD | apply dec_ite
        | exact DecKeeps.wait | exact DecKeeps.noFrame | apply DecKeeps.hookWait | apply DecKeeps.stop | apply DecKeeps.pass
        | apply DecKeeps.go | apply keeps_ite
    | intro _ | dsimp only | split | refine opt_of (by assumption) ?_ | refine dec_of_hookWait (by assumption) ?_
    | refine dec_of_stop (by assumption) ?_ | refine dec_of_pass (by assumption) ?_ | refine dec_of_go (by assumption) ?_
    | refine fmt_of_fmt (by assumption) ?_ | refine fmt_of_waits (by assumption) ?_
    | refine fmt_of_unavailable (by assumption) ?_ | with_reducible apply keeps_mk

theorem keeps_decAppend (h : Keeps s t) (a1 : Work) : DecKeeps s (State.decAppend t a1) := by
  unfold State.decAppend
  repeat' first
    | with_reducible first
        | assumption | apply keeps_appendChunk | apply dec_ite | exact DecKeeps.wait | exact DecKeeps.noFrame
        | apply DecKeeps.hookWait | apply DecKeeps.stop | apply DecKeeps.pass | apply DecKeeps.go | apply keeps_ite
    | intro _ | dsimp only | split | refine dec_of_hookWait (by assumption) ?_ | refine dec_of_stop (by assumption) ?_
    | refine dec_of_pass (by assumption) ?_ | refine dec_of_go (by assumption) ?_ | with_reducible apply keeps_mk

theorem keeps_countWrite (h : Keeps s t) (a1 a2 : List Byte) (a3 : Nat) : Keeps s (State.countWrite t a1 a2 a3) := by
  unfold State.countWrite
  repeat' first
    | with_reducible first
        | assumption | apply keeps_add64 | apply keeps_ite
    | intro _ | dsimp only | split | with_reducible apply keeps_mk

theorem keeps_installPage (h : Keeps s t) (a1 : Seq) (a2 : Nat) (a3 : Option Nat) (a4 a5 : List Byte) (a6 : Bool) :
    Keeps s (State.installPage t a1 a2 a3 a4 a5 a6) := by
  unfold State.installPage
  repeat' first
    | with_reducible first
        | assumption | apply keeps_addTables | apply keeps_dirty | apply keeps_gcPage | apply keeps_newPage
        | apply keeps_setLeaf | apply keeps_updPage | apply opt_none | apply opt_some | apply opt_map | apply opt_map_val
        | apply opt_bind | apply keeps_getD | apply keeps_ite
    | intro _ | dsimp only | split | refine keeps_fst (by assumption) ?_ | refine opt_of (by assumption) ?_
    | with_reducible apply keeps_mk

theorem keeps_endAppend (h : Keeps s t) (a1 : Work) (a2 : Run) : Keeps s (State.endAppend t a1 a2) := by
  unfold State.endAppend
  repeat' first
    | with_reducible first
        | assumption | apply keeps_countWrite | apply keeps_dropCalls | apply keeps_fault | apply keeps_flagWork
        | apply keeps_installPage | apply keeps_updWork | apply opt_map | apply opt_map_val | apply keeps_getD | apply keeps_ite
    | intro _ | dsimp only | split | with_reducible apply keeps_mk

theorem keeps_finishAppend (h : Keeps s t) (a1 : Work) : Keeps s (State.finishAppend t a1) := by
  unfold State.finishAppend
  repeat' first
    | with_reducible first
        | assumption | apply keeps_latchEnd | apply keeps_ite
    | intro _ | dsimp only | split | with_reducible apply keeps_mk

theorem keeps_switchRing (h : Keeps s t) (a1 : Seq) (a2 : Nat) : Keeps s (State.switchRing t a1 a2) := by
  unfold State.switchRing
  repeat' first
    | with_reducible first
        | assumption | apply keeps_gcPage | apply keeps_setLeaf | apply opt_map | apply opt_map_val | apply keeps_getD
        | apply keeps_ite | apply keeps_foldl | apply keeps_foldl_fst
    | intro _ | dsimp only | split | with_reducible apply keeps_mk

theorem keeps_writeSealed (h : Keeps s t) (a1 : Seq) (a2 a3 : Nat) : Keeps s (State.writeSealed t a1 a2 a3) := by
  unfold State.writeSealed
  repeat' first
    | with_reducible first
        | assumption | apply keeps_startWriting | apply keeps_ite | apply keeps_foldl | apply keeps_foldl_fst
    | intro _ | dsimp only | split | with_reducible apply keeps_mk

theorem keeps_commitLength (h : Keeps s t) (a1 : Work) (a2 : Nat) : Keeps s (State.commitLength t a1 a2) := by
  unfold State.commitLength
  repeat' first
    | with_reducible first
        | assumption | apply keeps_logKv | apply keeps_setSeq | apply keeps_switchRing | apply keeps_writeSealed
    | intro _ | dsimp only | split | with_reducible apply keeps_mk

theorem keeps_commitAppend (h : Keeps s t) (a1 : Work) : Keeps s (State.commitAppend t a1) := by
  unfold State.commitAppend
  repeat' first
    | with_reducible first
        | assumption | apply keeps_commitLength | apply keeps_ite
    | intro _ | dsimp only | split | with_reducible apply keeps_mk

theorem keeps_plan (h : Keeps s t) (a1 : Work) (a2 : Bool) : Keeps s (State.plan t a1 a2) := by
  unfold State.plan
  repeat' first
    | with_reducible first
        | assumption | apply keeps_updWork | apply keeps_ite
    | intro _ | dsimp only | split | with_reducible apply keeps_mk

theorem keeps_planAll (h : Keeps s t) : Keeps s (State.planAll t) := by
  unfold State.planAll
  repeat' first
    | with_reducible first
        | assumption | apply keeps_plan | apply keeps_foldl | apply keeps_foldl_fst
    | intro _ | dsimp only | split | with_reducible apply keeps_mk

theorem keeps_admitRange (h : Keeps s t) (a1 : Nat) : Keeps s (State.admitRange t a1) := by
  unfold State.admitRange
  repeat' first
    | with_reducible first
        | assumption | apply keeps_admitWith | apply keeps_latch | apply keeps_plan | apply keeps_ite
    | intro _ | dsimp only | split | with_reducible apply keeps_mk

theorem keeps_execReadPages (h : Keeps s t) (a0 : Desc) : Answers s (execReadPages a0 t) := by
  unfold execReadPages
  repeat' first
    | with_reducible first
        | assumption | apply keeps_admitRange | apply keeps_rowAdmit | apply answers_next
    | intro _ | dsimp only | split | with_reducible apply keeps_mk

theorem keeps_execPin (h : Keeps s t) (a0 : Desc) : Answers s (execPin a0 t) := by
  unfold execPin
  repeat' first
    | with_reducible first
        | assumption | apply keeps_admitRange | apply keeps_rowAdmit | apply answers_next
    | intro _ | dsimp only | split | with_reducible apply keeps_mk

theorem keeps_execUnpin (h : Keeps s t) (a0 : Desc) : Answers s (execUnpin a0 t) := by
  unfold execUnpin
  repeat' first
    | with_reducible first
        | assumption | apply keeps_admitRange | apply keeps_rowAdmit | apply answers_next
    | intro _ | dsimp only | split | with_reducible apply keeps_mk

theorem keeps_execScoreUpdate (h : Keeps s t) (a0 : Desc) : Answers s (execScoreUpdate a0 t) := by
  unfold execScoreUpdate
  repeat' first
    | with_reducible first
        | assumption | apply keeps_admitRange | apply keeps_rowAdmit | apply answers_next
    | intro _ | dsimp only | split | with_reducible apply keeps_mk

theorem keeps_decRead (h : Keeps s t) (a1 : Work) : DecKeeps s (State.decRead t a1) := by
  unfold State.decRead
  repeat' first
    | with_reducible first
        | assumption | apply keeps_draw | apply keeps_flagWork | apply keeps_lose | apply keeps_loseCoded | apply keeps_resolve
        | apply keeps_undefTarget | apply dec_ite | exact DecKeeps.wait | exact DecKeeps.noFrame | apply DecKeeps.hookWait
        | apply DecKeeps.stop | apply DecKeeps.pass | apply DecKeeps.go | apply keeps_ite
    | intro _ | dsimp only | split | refine dec_of_hookWait (by assumption) ?_ | refine dec_of_stop (by assumption) ?_
    | refine dec_of_pass (by assumption) ?_ | refine dec_of_go (by assumption) ?_ | with_reducible apply keeps_mk

theorem keeps_setPin (h : Keeps s t) (a1 a2 : Nat) (a3 : Bool) : Keeps s (State.setPin t a1 a2 a3) := by
  unfold State.setPin
  repeat' first
    | with_reducible first
        | assumption | apply keeps_setSq | apply keeps_unwalk | apply opt_map | apply opt_map_val | apply keeps_getD
        | apply keeps_ite
    | intro _ | dsimp only | split | with_reducible apply keeps_mk

theorem keeps_decPin (h : Keeps s t) (a1 : Work) : DecKeeps s (State.decPin t a1) := by
  unfold State.decPin
  repeat' first
    | with_reducible first
        | assumption | apply keeps_lose | apply keeps_resolve | apply keeps_setPin | apply dec_ite | exact DecKeeps.wait
        | exact DecKeeps.noFrame | apply DecKeeps.hookWait | apply DecKeeps.stop | apply DecKeeps.pass | apply DecKeeps.go
        | apply keeps_ite
    | intro _ | dsimp only | split | refine dec_of_hookWait (by assumption) ?_ | refine dec_of_stop (by assumption) ?_
    | refine dec_of_pass (by assumption) ?_ | refine dec_of_go (by assumption) ?_ | with_reducible apply keeps_mk

theorem keeps_decUnpin (h : Keeps s t) (a1 : Work) : DecKeeps s (State.decUnpin t a1) := by
  unfold State.decUnpin
  repeat' first
    | with_reducible first
        | assumption | apply keeps_setPin | apply dec_ite | exact DecKeeps.wait | exact DecKeeps.noFrame
        | apply DecKeeps.hookWait | apply DecKeeps.stop | apply DecKeeps.pass | apply DecKeeps.go | apply keeps_ite
    | intro _ | dsimp only | split | refine dec_of_hookWait (by assumption) ?_ | refine dec_of_stop (by assumption) ?_
    | refine dec_of_pass (by assumption) ?_ | refine dec_of_go (by assumption) ?_ | with_reducible apply keeps_mk

theorem keeps_scoreUpdate (h : Keeps s t) (a1 : Desc) (a2 : Page) : Keeps s (State.scoreUpdate t a1 a2) := by
  unfold State.scoreUpdate
  repeat' first
    | with_reducible first
        | assumption | apply keeps_setGear | apply keeps_updPage | apply keeps_ite
    | intro _ | dsimp only | split | with_reducible apply keeps_mk

theorem keeps_decScore (h : Keeps s t) (a1 : Work) : DecKeeps s (State.decScore t a1) := by
  unfold State.decScore
  repeat' first
    | with_reducible first
        | assumption | apply keeps_resolve | apply keeps_scoreUpdate | apply dec_ite | exact DecKeeps.wait
        | exact DecKeeps.noFrame | apply DecKeeps.hookWait | apply DecKeeps.stop | apply DecKeeps.pass | apply DecKeeps.go
        | apply keeps_ite
    | intro _ | dsimp only | split | refine dec_of_hookWait (by assumption) ?_ | refine dec_of_stop (by assumption) ?_
    | refine dec_of_pass (by assumption) ?_ | refine dec_of_go (by assumption) ?_ | with_reducible apply keeps_mk

theorem keeps_addOp (h : Keeps s t) (a1 a2 a3 a4 : Nat) (a5 : Bool) (a6 : Nat) : Keeps s (State.addOp t a1 a2 a3 a4 a5 a6) := by
  unfold State.addOp
  repeat' first
    | with_reducible first
        | assumption | apply keeps_setTier | apply keeps_wakeFlash
    | intro _ | dsimp only | split | with_reducible apply keeps_mk

theorem keeps_takeRead (h : Keeps s t) (a1 a2 : Nat) (a3 : List (Nat × Bool)) : Keeps s (State.takeRead t a1 a2 a3) := by
  unfold State.takeRead
  repeat' first
    | with_reducible first
        | assumption | apply keeps_add64 | apply keeps_addOp | apply keeps_plan | apply keeps_setTier
    | intro _ | dsimp only | split | with_reducible apply keeps_mk

theorem keeps_startRead (h : Keeps s t) (a1 : Page) : Keeps s (State.startRead t a1) := by
  unfold State.startRead
  repeat' first
    | with_reducible first
        | assumption | apply keeps_nextFree | apply keeps_add64 | apply keeps_takeRead | apply keeps_updPage | apply keeps_ite
    | intro _ | dsimp only | split | with_reducible apply keeps_mk

theorem keeps_startSwapRead (h : Keeps s t) (a1 : Nat) : Keeps s (State.startSwapRead t a1) := by
  unfold State.startSwapRead
  repeat' first
    | with_reducible first
        | assumption | apply keeps_add64 | apply keeps_takeRead | apply opt_map | apply opt_map_val | apply keeps_getD
        | apply keeps_ite
    | intro _ | dsimp only | split | with_reducible apply keeps_mk

theorem keeps_startProgram (h : Keeps s t) (a1 a2 : Nat) : Keeps s (State.startProgram t a1 a2) := by
  unfold State.startProgram
  repeat' first
    | with_reducible first
        | assumption | apply keeps_setTier | apply keeps_addOp
    | intro _ | dsimp only | split | with_reducible apply keeps_mk

theorem keeps_freeProgram (h : Keeps s t) (a1 : List FlashJob) : OptKeeps s (State.freeProgram t a1) := by
  induction a1 with
  | nil => exact opt_none
  | cons x l ih =>
    cases x <;> unfold State.freeProgram
    all_goals
      repeat' first
        | with_reducible first
            | assumption | apply ih | apply keeps_startProgram | apply opt_some
        | intro _ | dsimp only | split

theorem keeps_flashFirst (h : Keeps s t) (a1 : Nat) (a2 : List FlashJob) : OptKeeps s (State.flashFirst t a1 a2) := by
  induction a2 with
  | nil => exact opt_none
  | cons x l ih =>
    cases x <;> unfold State.flashFirst
    all_goals
      repeat' first
        | with_reducible first
            | assumption | apply ih | apply keeps_startSwapRead | apply keeps_draw | apply keeps_startRead
            | apply keeps_startProgram | apply keeps_freeProgram | apply opt_some
        | intro _ | dsimp only | split

theorem keeps_losePage (h : Keeps s t) (a1 : Nat) : Keeps s (State.losePage t a1) := by
  unfold State.losePage
  repeat' first
    | with_reducible first
        | assumption | apply keeps_fault | apply keeps_logKv | apply keeps_setTier | apply keeps_updPage | apply opt_map
        | apply opt_map_val | apply keeps_getD | apply keeps_foldl | apply keeps_foldl_fst
    | intro _ | dsimp only | split | with_reducible apply keeps_mk

theorem keeps_finishRead (h : Keeps s t) (a1 : Nat) : Keeps s (State.finishRead t a1) := by
  unfold State.finishRead
  repeat' first
    | with_reducible first
        | assumption | apply keeps_losePage | apply keeps_setTier | apply keeps_updPage | apply keeps_ite
    | intro _ | dsimp only | split | with_reducible apply keeps_mk

theorem keeps_setGroup (h : Keeps s t) (a1 a2 : Nat) : Keeps s (State.setGroup t a1 a2) := by
  unfold State.setGroup
  repeat' first
    | with_reducible first
        | assumption | apply keeps_fault | apply keeps_put | apply keeps_event
    | intro _ | dsimp only | split | with_reducible apply keeps_mk

theorem keeps_setRebuild (h : Keeps s t) (a1 a2 : Nat) (a3 : List Nat) : Keeps s (State.setRebuild t a1 a2 a3) := by
  unfold State.setRebuild
  repeat' first
    | with_reducible first
        | assumption | apply keeps_put | apply keeps_setTier
    | intro _ | dsimp only | split | with_reducible apply keeps_mk

theorem keeps_takeSpare (h : Keeps s t) (a1 a2 : Nat) : Keeps s (State.takeSpare t a1 a2) := by
  unfold State.takeSpare
  repeat' first
    | with_reducible first
        | assumption | apply keeps_put | apply keeps_setGroup | apply keeps_setRebuild
    | intro _ | dsimp only | split | with_reducible apply keeps_mk

theorem keeps_setPool (h : Keeps s t) (a1 : PoolSt → PoolSt) : Keeps s (State.setPool t a1) := by
  unfold State.setPool
  repeat' first
    | with_reducible first
        | assumption
    | intro _ | dsimp only | split | with_reducible apply keeps_mk

theorem keeps_losePoolPage (h : Keeps s t) (a1 : Nat) : Keeps s (State.losePoolPage t a1) := by
  unfold State.losePoolPage
  repeat' first
    | with_reducible first
        | assumption | apply keeps_dirty | apply keeps_fault | apply keeps_setPool | apply keeps_setTier | apply opt_map
        | apply opt_map_val | apply keeps_getD | apply keeps_ite
    | intro _ | dsimp only | split | with_reducible apply keeps_mk

theorem keeps_loseNands (h : Keeps s t) (a1 : List Nat) : Keeps s (State.loseNands t a1) := by
  unfold State.loseNands
  repeat' first
    | with_reducible first
        | assumption | apply keeps_losePage | apply keeps_losePoolPage | apply keeps_setFlash | apply keeps_foldl
        | apply keeps_foldl_fst
    | intro _ | dsimp only | split | with_reducible apply keeps_mk

theorem keeps_loseExposed (h : Keeps s t) (a1 : Nat) : Keeps s (State.loseExposed t a1) := by
  unfold State.loseExposed
  repeat' first
    | with_reducible first
        | assumption | apply keeps_loseNands
    | intro _ | dsimp only | split | with_reducible apply keeps_mk

theorem keeps_cutCopies (h : Keeps s t) (a1 a2 : Nat) : Keeps s (State.cutCopies t a1 a2) := by
  unfold State.cutCopies
  repeat' first
    | with_reducible first
        | assumption | apply keeps_setFlash | apply opt_map | apply opt_map_val | apply keeps_getD | apply keeps_ite
    | intro _ | dsimp only | split | with_reducible apply keeps_mk

theorem keeps_loseRegion (h : Keeps s t) (a1 : Nat) : Keeps s (State.loseRegion t a1) := by
  unfold State.loseRegion
  repeat' first
    | with_reducible first
        | assumption | apply keeps_fault | apply keeps_put | apply keeps_event
    | intro _ | dsimp only | split | with_reducible apply keeps_mk

theorem keeps_loseDefines (h : Keeps s t) : Keeps s (State.loseDefines t) := by
  unfold State.loseDefines
  repeat' first
    | with_reducible first
        | assumption | apply keeps_loseRegion | apply keeps_foldl | apply keeps_foldl_fst
    | intro _ | dsimp only | split | with_reducible apply keeps_mk

theorem keeps_dieDead (h : Keeps s t) (a1 a2 : Nat) : Keeps s (State.dieDead t a1 a2) := by
  unfold State.dieDead
  repeat' first
    | with_reducible first
        | assumption | apply keeps_cutCopies | apply keeps_loseDefines | apply keeps_loseExposed | apply keeps_put
        | apply keeps_setGroup | apply keeps_setTier | apply keeps_takeSpare | apply keeps_ite
    | intro _ | dsimp only | split | with_reducible apply keeps_mk

theorem keeps_retryRead (h : Keeps s t) (a1 : NandOp) (a2 a3 : State → State) (ha2 : ∀ (u : State), Keeps s u → Keeps s (a2 u)) (ha3 : ∀ (u : State), Keeps s u → Keeps s (a3 u)) :
    Keeps s (State.retryRead t a1 a2 a3) := by
  unfold State.retryRead
  repeat' first
    | with_reducible first
        | assumption | apply ha3 | apply ha2 | apply keeps_lose | apply keeps_loseNands | apply keeps_setTier | apply opt_map
        | apply opt_map_val | apply keeps_getD | apply keeps_ite
    | intro _ | dsimp only | split | with_reducible apply keeps_mk

theorem keeps_readEnds (h : Keeps s t) (a1 : NandOp) (a2 : NandRes) (a3 a4 : State → State) (ha3 : ∀ (u : State), Keeps s u → Keeps s (a3 u)) (ha4 : ∀ (u : State), Keeps s u → Keeps s (a4 u)) :
    Keeps s (State.readEnds t a1 a2 a3 a4) := by
  unfold State.readEnds
  repeat' first
    | with_reducible first
        | assumption | apply ha4 | apply ha3 | apply keeps_dieDead | apply keeps_fault | apply keeps_lose
        | apply keeps_retryRead | apply keeps_ite
    | intro _ | dsimp only | split | with_reducible apply keeps_mk

theorem keeps_markBad (h : Keeps s t) (a1 : Nat) : Keeps s (State.markBad t a1) := by
  unfold State.markBad
  repeat' first
    | with_reducible first
        | assumption | apply keeps_nextFree | apply keeps_updPage | apply keeps_ite
    | intro _ | dsimp only | split | with_reducible apply keeps_mk

theorem keeps_readDone (h : Keeps s t) (a1 : NandOp) (a2 : NandRes) : Keeps s (State.readDone t a1 a2) := by
  unfold State.readDone
  repeat' first
    | with_reducible first
        | assumption | apply keeps_finishRead | apply keeps_losePage | apply keeps_markBad | apply keeps_readEnds
        | apply keeps_updPage | apply keeps_ite
    | intro _ | dsimp only | split | with_reducible apply keeps_mk

theorem keeps_keyCheck (h : Keeps s t) (a1 : Nat) (a2 : List Byte) : Keeps s (State.keyCheck t a1 a2) := by
  unfold State.keyCheck
  repeat' first
    | with_reducible first
        | assumption | apply keeps_logKv | apply keeps_setFlash | apply keeps_ite
    | intro _ | dsimp only | split | with_reducible apply keeps_mk

theorem keeps_pageProgrammed (h : Keeps s t) (a1 a2 : Nat) : Keeps s (State.pageProgrammed t a1 a2) := by
  unfold State.pageProgrammed
  repeat' first
    | with_reducible first
        | assumption | apply keeps_add64 | apply keeps_endDemotion | apply keeps_keyCheck | apply keeps_logKv
        | apply keeps_setFlash | apply keeps_updPage | apply opt_map | apply opt_map_val | apply keeps_getD | apply keeps_ite
        | apply keeps_foldl | apply keeps_foldl_fst
    | intro _ | dsimp only | split | with_reducible apply keeps_mk

theorem keeps_placedDone (h : Keeps s t) (a1 a2 : Nat) : Keeps s (State.placedDone t a1 a2).1 := by
  unfold State.placedDone
  repeat' first
    | with_reducible first
        | assumption | apply keeps_setTier | apply keeps_ite
    | intro _ | dsimp only | split | with_reducible apply keeps_mk

theorem keeps_endRebuild (h : Keeps s t) (a1 a2 : Nat) : Keeps s (State.endRebuild t a1 a2) := by
  unfold State.endRebuild
  repeat' first
    | with_reducible first
        | assumption | apply keeps_put | apply keeps_setTier
    | intro _ | dsimp only | split | with_reducible apply keeps_mk

theorem keeps_nextRebuild (h : Keeps s t) (a1 : Nat) : Keeps s (State.nextRebuild t a1) := by
  unfold State.nextRebuild
  repeat' first
    | with_reducible first
        | assumption | apply keeps_setGroup | apply keeps_takeSpare | apply keeps_ite
    | intro _ | dsimp only | split | with_reducible apply keeps_mk

theorem keeps_execDieRebuildDone (h : Keeps s t) (a0 : Nat) (a1 : List Nat) : Answers s (execDieRebuildDone a0 a1 t) := by
  unfold execDieRebuildDone
  repeat' first
    | with_reducible first
        | assumption | apply keeps_endRebuild | apply keeps_loseDefines | apply keeps_loseNands | apply keeps_nextRebuild
        | apply answers_next | apply keeps_ite
    | intro _ | dsimp only | split | with_reducible apply keeps_mk

theorem keeps_execEviction (h : Keeps s t) : Answers s (execEviction t) := by
  unfold execEviction
  repeat' first
    | with_reducible first
        | assumption | apply keeps_setTier | apply keeps_startWriting | apply keeps_add64 | apply keeps_dropPage
        | apply answers_next
    | intro _ | dsimp only | split | with_reducible apply keeps_mk

theorem keeps_sweepBurst (h : Keeps s t) : Keeps s (State.sweepBurst t) := by
  unfold State.sweepBurst
  repeat' first
    | with_reducible first
        | assumption | apply keeps_call | apply keeps_setGear | apply keeps_takePort | apply keeps_ite | apply keeps_foldl
        | apply keeps_foldl_fst
    | intro _ | dsimp only | split | with_reducible apply keeps_mk

theorem keeps_reevaluate (h : Keeps s t) : Keeps s (State.reevaluate t) := by
  unfold State.reevaluate
  repeat' first
    | with_reducible first
        | assumption | apply keeps_setSq | apply keeps_ite
    | intro _ | dsimp only | split | with_reducible apply keeps_mk

theorem keeps_execScoreReevaluate (h : Keeps s t) : Answers s (execScoreReevaluate t) := by
  unfold execScoreReevaluate
  repeat' first
    | with_reducible first
        | assumption | apply keeps_reevaluate | apply keeps_sweepBurst | apply answers_next
    | intro _ | dsimp only | split | with_reducible apply keeps_mk

theorem handler_hTierProbe : HandlerKeeps hTierProbe := by
  constructor <;> intro s t h <;> unfold hTierProbe <;>
  repeat' first
    | with_reducible first
        | assumption | apply HandlerKeeps.chg handler_plain | apply HandlerKeeps.act handler_plain
        | apply HandlerKeeps.post handler_plain | apply keeps_setReg | apply keeps_ite
    | intro _ | dsimp only | split | exact h | with_reducible apply keeps_mk

theorem keeps_execTierProbe (h : Keeps s t) : Answers s (execTierProbe t) := by
  unfold execTierProbe
  repeat' first
    | with_reducible first
        | assumption | apply keeps_bar0Bit | apply handler_hTierProbe | apply answers_next
    | intro _ | dsimp only | split | with_reducible apply keeps_mk

theorem handler_hLevel (a0 : Nat) : HandlerKeeps (hLevel a0) := by
  constructor <;> intro s t h <;> unfold hLevel <;>
  repeat' first
    | with_reducible first
        | assumption | apply HandlerKeeps.chg handler_plain | apply HandlerKeeps.act handler_plain
        | apply HandlerKeeps.post handler_plain | apply keeps_atBoundary | apply keeps_ite
    | intro _ | dsimp only | split | exact h | with_reducible apply keeps_mk

theorem handler_hLogFlush : HandlerKeeps hLogFlush := by
  constructor <;> intro s t h <;> unfold hLogFlush <;>
  repeat' first
    | with_reducible first
        | assumption | apply HandlerKeeps.chg handler_plain | apply HandlerKeeps.act handler_plain
        | apply HandlerKeeps.post handler_plain
    | intro _ | dsimp only | split | exact h | with_reducible apply keeps_mk

theorem keeps_finishAttn (h : Keeps s t) (a1 : Work) : Keeps s (State.finishAttn t a1) := by
  unfold State.finishAttn
  repeat' first
    | with_reducible first
        | assumption | apply keeps_nextFree | apply keeps_latch | apply keeps_updWork | apply opt_map | apply opt_map_val
        | apply keeps_getD | apply keeps_ite
    | intro _ | dsimp only | split | with_reducible apply keeps_mk

theorem keeps_endAttnWork (h : Keeps s t) (a1 : Nat) : Keeps s (State.endAttnWork t a1) := by
  unfold State.endAttnWork
  repeat' first
    | with_reducible first
        | assumption | apply keeps_finishAttn
    | intro _ | dsimp only | split | with_reducible apply keeps_mk

theorem keeps_admitAttn (h : Keeps s t) (a1 : Nat) : Keeps s (State.admitAttn t a1) := by
  unfold State.admitAttn
  repeat' first
    | with_reducible first
        | assumption | apply keeps_admitWith | apply keeps_draw | apply keeps_endAttnWork | apply keeps_fault
        | apply keeps_latch | apply keeps_plan | apply keeps_updWork | apply opt_map | apply opt_map_val | apply keeps_getD
        | apply keeps_ite | apply keeps_foldl | apply keeps_foldl_fst
    | intro _ | dsimp only | split | with_reducible apply keeps_mk

theorem keeps_execAttnPartial (h : Keeps s t) (a0 : Desc) : Answers s (execAttnPartial a0 t) := by
  unfold execAttnPartial
  repeat' first
    | with_reducible first
        | assumption | apply keeps_admitAttn | apply keeps_rowAdmit | apply answers_next
    | intro _ | dsimp only | split | with_reducible apply keeps_mk

theorem keeps_attnStart (h : Keeps s t) (a1 : Work) (a2 : AttnSt) (a3 a4 : Nat) (a5 : Bool) :
    Keeps s (State.attnStart t a1 a2 a3 a4 a5) := by
  unfold State.attnStart
  repeat' first
    | with_reducible first
        | assumption | apply keeps_add64 | apply keeps_draw | apply keeps_sat | apply keeps_updWork | apply opt_map
        | apply opt_map_val | apply keeps_getD | apply keeps_ite
    | intro _ | dsimp only | split | with_reducible apply keeps_mk

/-- What is carried by a `BiasUse` keeps all of that. -/
inductive BiasKeeps (s : State) : BiasUse → Prop where
  | plain {t : State} {x0} (h : Keeps s t) : BiasKeeps s (.plain t x0)
  | slot {x0} : BiasKeeps s (.slot x0)
  | wait : BiasKeeps s .wait
  | hookWait {t : State} (h : Keeps s t) : BiasKeeps s (.hookWait t)
  | unavailable {t : State} (h : Keeps s t) : BiasKeeps s (.unavailable t)

theorem keeps_biasUse (h : Keeps s t) (a1 : Work) (a2 : Seq) (a3 : AttnSt) (a4 : Nat) :
    BiasKeeps s (State.biasUse t a1 a2 a3 a4) := by
  unfold State.biasUse
  repeat' first
    | with_reducible first
        | assumption | apply keeps_resolveHook | apply BiasKeeps.plain | exact BiasKeeps.slot | exact BiasKeeps.wait
        | apply BiasKeeps.hookWait | apply BiasKeeps.unavailable | apply keeps_ite
    | intro _ | dsimp only | split | refine hook_of_builtin (by assumption) ?_ | refine hook_of_waits (by assumption) ?_
    | with_reducible apply keeps_mk

theorem bias_of_plain {d : BiasUse} {x0} (e : d = .plain t x0) (h : BiasKeeps s d) : Keeps s t := by
  subst e; cases h; assumption

theorem bias_of_hookWait {d : BiasUse} (e : d = .hookWait t) (h : BiasKeeps s d) : Keeps s t := by
  subst e; cases h; assumption

theorem bias_of_unavailable {d : BiasUse} (e : d = .unavailable t) (h : BiasKeeps s d) : Keeps s t := by
  subst e; cases h; assumption

theorem keeps_attnGo (h : Keeps s t) (a1 : State → State) (a2 : Work) (a3 : Seq) (a4 : AttnSt) (a5 a6 a7 : Nat) (a8 : List Nat) (a9 : Option Page) (ha1 : ∀ (u : State), Keeps s u → Keeps s (a1 u)) :
    DecKeeps s (State.attnGo t a1 a2 a3 a4 a5 a6 a7 a8 a9) := by
  unfold State.attnGo
  repeat' first
    | with_reducible first
        | assumption | apply ha1 | apply keeps_attnStart | apply keeps_biasUse | apply keeps_call | apply keeps_draw
        | apply keeps_enter | apply keeps_takePort | apply dec_ite | exact DecKeeps.wait | exact DecKeeps.noFrame
        | apply DecKeeps.hookWait | apply DecKeeps.stop | apply DecKeeps.pass | apply DecKeeps.go | apply keeps_foldl
        | apply keeps_foldl_fst
    | intro _ | dsimp only | split | refine bias_of_plain (by assumption) ?_ | refine bias_of_hookWait (by assumption) ?_
    | refine bias_of_unavailable (by assumption) ?_ | refine dec_of_hookWait (by assumption) ?_
    | refine dec_of_stop (by assumption) ?_ | refine dec_of_pass (by assumption) ?_ | refine dec_of_go (by assumption) ?_
    | with_reducible apply keeps_mk

theorem keeps_attnLost (h : Keeps s t) (a1 : Work) (a2 : AttnSt) : Keeps s (State.attnLost t a1 a2) := by
  unfold State.attnLost
  repeat' first
    | with_reducible first
        | assumption | apply keeps_updWork
    | intro _ | dsimp only | split | with_reducible apply keeps_mk

theorem keeps_attnChunk (h : Keeps s t) (a1 : Work) : DecKeeps s (State.attnChunk t a1) := by
  unfold State.attnChunk
  repeat' first
    | with_reducible first
        | assumption | apply keeps_attnGo | apply keeps_attnLost | apply keeps_draw | apply keeps_enter | apply keeps_flagWork
        | apply keeps_lose | apply keeps_loseCoded | apply keeps_resolve | apply dec_ite | exact DecKeeps.wait
        | exact DecKeeps.noFrame | apply DecKeeps.hookWait | apply DecKeeps.stop | apply DecKeeps.pass | apply DecKeeps.go
        | apply keeps_ite
    | intro _ | dsimp only | split | refine dec_of_hookWait (by assumption) ?_ | refine dec_of_stop (by assumption) ?_
    | refine dec_of_pass (by assumption) ?_ | refine dec_of_go (by assumption) ?_ | with_reducible apply keeps_mk

theorem keeps_decAttn (h : Keeps s t) (a1 : Work) : DecKeeps s (State.decAttn t a1) := by
  unfold State.decAttn
  repeat' first
    | with_reducible first
        | assumption | apply keeps_attnChunk | apply dec_ite | exact DecKeeps.wait | exact DecKeeps.noFrame
        | apply DecKeeps.hookWait | apply DecKeeps.stop | apply DecKeeps.pass | apply DecKeeps.go | apply keeps_ite
    | intro _ | dsimp only | split | refine dec_of_hookWait (by assumption) ?_ | refine dec_of_stop (by assumption) ?_
    | refine dec_of_pass (by assumption) ?_ | refine dec_of_go (by assumption) ?_ | with_reducible apply keeps_mk

theorem keeps_keepTriples (h : Keeps s t) (a1 : Work) (a2 : Run) (a3 : List Triple) (a4 a5 : Nat) :
    Keeps s (State.keepTriples t a1 a2 a3 a4 a5) := by
  unfold State.keepTriples
  repeat' first
    | with_reducible first
        | assumption | apply keeps_updWork | apply keeps_sat | apply keeps_ite
    | intro _ | dsimp only | split | with_reducible apply keeps_mk

theorem keeps_endAttn (h : Keeps s t) (a1 : Work) (a2 : Run) : Keeps s (State.endAttn t a1 a2) := by
  unfold State.endAttn
  repeat' first
    | with_reducible first
        | assumption | apply keeps_dropCalls | apply keeps_fault | apply keeps_keepTriples | apply keeps_sat
        | apply keeps_updWork | apply opt_map | apply opt_map_val | apply keeps_getD | apply keeps_ite
    | intro _ | dsimp only | split | with_reducible apply keeps_mk

theorem handler_hEngLive (a0 : Nat) (a1 : State → Nat → Word → Bool) : HandlerKeeps (hEngLive a0 a1) := by
  constructor <;> intro s t h <;> unfold hEngLive <;>
  repeat' first
    | with_reducible first
        | assumption | apply HandlerKeeps.chg handler_plain | apply HandlerKeeps.act handler_plain
        | apply HandlerKeeps.post handler_plain | apply keeps_atBoundary
    | intro _ | dsimp only | split | exact h | with_reducible apply keeps_mk

theorem keeps_readPath (h : Keeps s t) (a1 a2 : Nat) : Keeps s (State.readPath t a1 a2).1 := by
  unfold State.readPath
  split
  · exact h
  · refine keeps_ite_fst (fun _ => h) fun _ => ?_
    dsimp only
    refine keeps_ite_fst (fun _ => ?_) fun _ => ?_
    · exact keeps_ite_fst (fun _ => keeps_nextFree h) fun _ => keeps_illegal h _ _ _ _
    · exact keeps_ite_fst (fun _ => keeps_paths h (spPut_wf _ _ _ _)) fun _ => h

theorem keeps_readBar0 (h : Keeps s t) (a1 a2 : Nat) : Keeps s (State.readBar0 t a1 a2).1 := by
  unfold State.readBar0
  refine keeps_ite_fst (fun _ => h) fun _ => ?_
  split
  · exact keeps_illegal h _ _ _ _
  · exact keeps_readPath h _ _

theorem keeps_execCountLoRead (h : Keeps s t) (a0 : Nat) (a1 : Span) : Answers s (execCountLoRead a0 a1 t) := by
  unfold execCountLoRead State.readAny
  refine answers_next ?_
  split
  · exact h
  · rename_i e
    refine keeps_emit ?_ _
    repeat' split at e
    all_goals first
      | cases e; done
      | exact keeps_fst (Option.some.inj e) (keeps_readBar0 h _ _)
      | exact keeps_fst (Option.some.inj e) (keeps_readPath h _ _)
      | exact keeps_fst (Option.some.inj e) h

theorem keeps_dieRebuildTurn (h : Keeps s t) : Keeps s (State.dieRebuildTurn t) := by
  unfold State.dieRebuildTurn
  repeat' first
    | with_reducible first
        | assumption | apply keeps_setRebuild | apply keeps_foldl | apply keeps_foldl_fst
    | intro _ | dsimp only | split | with_reducible apply keeps_mk

theorem keeps_stripeTurn (h : Keeps s t) (a1 : Nat) : Keeps s (State.stripeTurn t a1) := by
  unfold State.stripeTurn
  repeat' first
    | with_reducible first
        | assumption | apply keeps_setFlash | apply keeps_setTier | apply opt_map | apply opt_map_val | apply keeps_getD
        | apply keeps_ite
    | intro _ | dsimp only | split | with_reducible apply keeps_mk

end Sys2Proof.Machine
end

