-- ==== Sys2Proof/Laws/KeepsCare.lean ====
section
/-! SUPPORT. Every operation keeps the queue, the canonical stores, the Stroke bound and what was sent: the maker channel, clocks, watchdogs. -/

namespace Sys2Proof.Machine

variable {s t : State}

theorem keeps_refuseMaker (h : Keeps s t) (a1 : Nat) : Keeps s (State.refuseMaker t a1) := by
  unfold State.refuseMaker
  repeat' first
    | with_reducible first
        | assumption | apply keeps_audit | apply keeps_emit
    | intro _ | dsimp only | split | with_reducible apply keeps_mk

theorem keeps_execMakerChallengeRequest (h : Keeps s t) (a0 : Nat) : Answers s (execMakerChallengeRequest a0 t) := by
  unfold execMakerChallengeRequest
  repeat' first
    | with_reducible first
        | assumption | apply keeps_nextFree | apply keeps_refuseMaker | apply keeps_emit | apply answers_next
    | intro _ | dsimp only | split | with_reducible apply keeps_mk

theorem keeps_openMaker (h : Keeps s t) (a1 : Nat) : Keeps s (State.openMaker t a1) := by
  unfold State.openMaker
  repeat' first
    | with_reducible first
        | assumption | apply keeps_enterFault | apply keeps_put | apply keeps_audit | apply keeps_emit | apply keeps_ite
    | intro _ | dsimp only | split | with_reducible apply keeps_mk

theorem keeps_failMaker (h : Keeps s t) (a1 : Nat) : Keeps s (State.failMaker t a1) := by
  unfold State.failMaker
  repeat' first
    | with_reducible first
        | assumption | apply keeps_emit | apply keeps_audit | apply keeps_put
    | intro _ | dsimp only | split | with_reducible apply keeps_mk

theorem keeps_execMakerResponse (h : Keeps s t) (a0 : List Byte) : Answers s (execMakerResponse a0 t) := by
  unfold execMakerResponse
  repeat' first
    | with_reducible first
        | assumption | apply keeps_failMaker | apply keeps_openMaker | apply keeps_refuseMaker | apply answers_next
        | apply keeps_ite
    | intro _ | dsimp only | split | with_reducible apply keeps_mk

theorem keeps_expireNonce (h : Keeps s t) : Keeps s (State.expireNonce t) := by
  unfold State.expireNonce
  repeat' first
    | with_reducible first
        | assumption | apply keeps_ite
    | intro _ | dsimp only | split | with_reducible apply keeps_mk

theorem keeps_execNonceExpiry (h : Keeps s t) : Answers s (execNonceExpiry t) := by
  unfold execNonceExpiry
  repeat' first
    | with_reducible first
        | assumption | apply keeps_expireNonce | apply answers_next
    | intro _ | dsimp only | split | with_reducible apply keeps_mk

theorem keeps_closeMaker (h : Keeps s t) : Keeps s (State.closeMaker t) := by
  unfold State.closeMaker
  repeat' first
    | with_reducible first
        | assumption | apply keeps_put | apply keeps_audit | apply keeps_ite
    | intro _ | dsimp only | split | with_reducible apply keeps_mk

theorem keeps_execMakerAction (h : Keeps s t) (a0 a1 a2 : Nat) : Answers s (execMakerAction a0 a1 a2 t) := by
  unfold execMakerAction
  repeat' first
    | with_reducible first
        | assumption | apply keeps_audit | apply keeps_readPath | apply keeps_illegal | apply keeps_emit | apply answers_next
    | intro _ | dsimp only | split | refine keeps_fst (by assumption) ?_ | with_reducible apply keeps_mk

theorem handler_hMakerLock : HandlerKeeps hMakerLock := by
  constructor <;> intro s t h <;> unfold hMakerLock <;>
  repeat' first
    | with_reducible first
        | assumption | apply HandlerKeeps.chg handler_plain | apply HandlerKeeps.act handler_plain
        | apply HandlerKeeps.post handler_plain | apply keeps_audit | apply keeps_closeMaker | apply keeps_put | apply keeps_ite
    | intro _ | dsimp only | split | exact h | with_reducible apply keeps_mk

theorem keeps_execMakerLock (h : Keeps s t) : Answers s (execMakerLock t) := by
  unfold execMakerLock
  repeat' first
    | with_reducible first
        | assumption | apply handler_hMakerLock | apply keeps_bar0 | apply answers_next | exact handler_plain
    | intro _ | dsimp only | split | with_reducible apply keeps_mk

theorem handler_hAuditTail : HandlerKeeps hAuditTail := by
  constructor <;> intro s t h <;> unfold hAuditTail <;>
  repeat' first
    | with_reducible first
        | assumption | apply HandlerKeeps.chg handler_plain | apply HandlerKeeps.act handler_plain
        | apply HandlerKeeps.post handler_plain
    | intro _ | dsimp only | split | exact h | with_reducible apply keeps_mk

theorem keeps_execAuditTail (h : Keeps s t) (a0 : Word) : Answers s (execAuditTail a0 t) := by
  unfold execAuditTail
  repeat' first
    | with_reducible first
        | assumption | apply handler_hAuditTail | apply keeps_bar0 | apply answers_next
    | intro _ | dsimp only | split | with_reducible apply keeps_mk

theorem handler_hAuditBase : HandlerKeeps hAuditBase := by
  constructor <;> intro s t h <;> unfold hAuditBase <;>
  repeat' first
    | with_reducible first
        | assumption | apply HandlerKeeps.chg handler_plain | apply HandlerKeeps.act handler_plain
        | apply HandlerKeeps.post handler_plain
    | intro _ | dsimp only | split | exact h | with_reducible apply keeps_mk

theorem handler_hDomainCtrl : HandlerKeeps hDomainCtrl := by
  constructor <;> intro s t h <;> unfold hDomainCtrl <;>
  repeat' first
    | with_reducible first
        | assumption | apply HandlerKeeps.chg handler_plain | apply HandlerKeeps.act handler_plain
        | apply HandlerKeeps.post handler_plain | apply keeps_setReg | apply keeps_event | apply keeps_fault | apply keeps_put
        | apply keeps_setDom | apply keeps_ite
    | intro _ | dsimp only | split | exact h | with_reducible apply keeps_mk

theorem keeps_execDomainStop (h : Keeps s t) : Answers s (execDomainStop t) := by
  unfold execDomainStop
  repeat' first
    | with_reducible first
        | assumption | apply handler_hDomainCtrl | apply keeps_bar0Bit | apply answers_next
    | intro _ | dsimp only | split | with_reducible apply keeps_mk

theorem keeps_execDomainStart (h : Keeps s t) : Answers s (execDomainStart t) := by
  unfold execDomainStart
  repeat' first
    | with_reducible first
        | assumption | apply handler_hDomainCtrl | apply keeps_bar0Bit | apply answers_next
    | intro _ | dsimp only | split | with_reducible apply keeps_mk

theorem keeps_domCtrlField (h : Keeps s t) (a1 : Fld) (a2 : Bool) : Keeps s (State.domCtrlField t a1 a2) := by
  unfold State.domCtrlField
  repeat' first
    | with_reducible first
        | assumption | apply handler_hDomainCtrl | apply keeps_bar0
    | intro _ | dsimp only | split | with_reducible apply keeps_mk

theorem keeps_execIsolate (h : Keeps s t) (a0 : Bool) : Answers s (execIsolate a0 t) := by
  unfold execIsolate
  repeat' first
    | with_reducible first
        | assumption | apply keeps_domCtrlField | apply answers_next
    | intro _ | dsimp only | split | with_reducible apply keeps_mk

theorem keeps_execDomainReset (h : Keeps s t) (a0 : Bool) : Answers s (execDomainReset a0 t) := by
  unfold execDomainReset
  repeat' first
    | with_reducible first
        | assumption | apply keeps_domCtrlField | apply answers_next
    | intro _ | dsimp only | split | with_reducible apply keeps_mk

theorem keeps_execXingReset (h : Keeps s t) (a0 : Bool) : Answers s (execXingReset a0 t) := by
  unfold execXingReset
  repeat' first
    | with_reducible first
        | assumption | apply keeps_domCtrlField | apply answers_next
    | intro _ | dsimp only | split | with_reducible apply keeps_mk

theorem keeps_execDomainRunning (h : Keeps s t) (a0 : Nat) : Answers s (execDomainRunning a0 t) := by
  unfold execDomainRunning
  repeat' first
    | with_reducible first
        | assumption | apply keeps_put | apply keeps_setDom | apply answers_next
    | intro _ | dsimp only | split | with_reducible apply keeps_mk

theorem keeps_execFlashGate (h : Keeps s t) : Answers s (execFlashGate t) := by
  unfold execFlashGate
  repeat' first
    | with_reducible first
        | assumption | apply keeps_setDom | apply answers_next
    | intro _ | dsimp only | split | with_reducible apply keeps_mk

theorem keeps_execCrossingOverrun (h : Keeps s t) (a0 : Nat) : Answers s (execCrossingOverrun a0 t) := by
  unfold execCrossingOverrun
  repeat' first
    | with_reducible first
        | assumption | apply keeps_setReg | apply keeps_sat | apply answers_next
    | intro _ | dsimp only | split | with_reducible apply keeps_mk

theorem handler_hDomainSelect : HandlerKeeps hDomainSelect := by
  constructor <;> intro s t h <;> unfold hDomainSelect <;>
  repeat' first
    | with_reducible first
        | assumption | apply HandlerKeeps.chg handler_plain | apply HandlerKeeps.act handler_plain
        | apply HandlerKeeps.post handler_plain
    | intro _ | dsimp only | split | exact h | with_reducible apply keeps_mk

theorem handler_hOverrunSelect : HandlerKeeps hOverrunSelect := by
  constructor <;> intro s t h <;> unfold hOverrunSelect <;>
  repeat' first
    | with_reducible first
        | assumption | apply HandlerKeeps.chg handler_plain | apply HandlerKeeps.act handler_plain
        | apply HandlerKeeps.post handler_plain
    | intro _ | dsimp only | split | exact h | with_reducible apply keeps_mk

theorem handler_hAutoGate : HandlerKeeps hAutoGate := by
  constructor <;> intro s t h <;> unfold hAutoGate <;>
  repeat' first
    | with_reducible first
        | assumption | apply HandlerKeeps.chg handler_plain | apply HandlerKeeps.act handler_plain
        | apply HandlerKeeps.post handler_plain
    | intro _ | dsimp only | split | exact h | with_reducible apply keeps_mk

theorem keeps_writeCores (h : Keeps s t) : Keeps s (State.writeCores t) := by
  unfold State.writeCores
  repeat' first
    | with_reducible first
        | assumption | apply keeps_memWrite | apply keeps_nextFree | apply keeps_ite
    | intro _ | dsimp only | split | with_reducible apply keeps_mk

theorem keeps_expireNow (h : Keeps s t) (a1 : Bool) : Keeps s (State.expireNow t a1) := by
  unfold State.expireNow
  repeat' first
    | with_reducible first
        | assumption | apply keeps_fault | apply keeps_enterFault | apply keeps_writeCores | apply keeps_dropHolds
        | apply keeps_ite
    | intro _ | dsimp only | split | with_reducible apply keeps_mk

theorem keeps_expire (h : Keeps s t) (a1 : Bool) (a2 a3 a4 a5 : Nat) : Keeps s (State.expire t a1 a2 a3 a4 a5) := by
  unfold State.expire
  repeat' first
    | with_reducible first
        | assumption | apply keeps_expireNow | apply keeps_put | apply keeps_ite
    | intro _ | dsimp only | split | with_reducible apply keeps_mk

theorem loose_graceEnd (h : Keeps s t) (a1 : List Byte) : Loose s (State.graceEnd t a1) := by
  unfold State.graceEnd
  split
  · refine Loose.after (loose_intoReset (keeps_ite (fun _ => h) fun _ => ?_) _) (keeps_mk (Keeps.refl _))
    exact keeps_memWrite (keeps_memWrite h _ _) _ _
  · exact h.loose

theorem loose_execCrashDone (h : Keeps s t) (a0 : List Byte) : Reaches s (execCrashDone a0 t) := by
  unfold execCrashDone
  exact reaches_next (loose_ite (fun _ => h.loose) fun _ => loose_graceEnd h _)

theorem loose_execGraceExpiry (h : Keeps s t) : Reaches s (execGraceExpiry t) := by
  unfold execGraceExpiry
  exact reaches_next (loose_ite (fun _ => loose_graceEnd h _) fun _ => h.loose)

theorem keeps_quiesceLimit (h : Keeps s t) : Keeps s (State.quiesceLimit t) := by
  unfold State.quiesceLimit
  repeat' first
    | with_reducible first
        | assumption | apply keeps_expireNow
    | intro _ | dsimp only | split | with_reducible apply keeps_mk

theorem keeps_execQuiesceLimitExpiry (h : Keeps s t) : Answers s (execQuiesceLimitExpiry t) := by
  unfold execQuiesceLimitExpiry
  repeat' first
    | with_reducible first
        | assumption | apply keeps_quiesceLimit | apply answers_next
    | intro _ | dsimp only | split | with_reducible apply keeps_mk

theorem keeps_setSysCount (h : Keeps s t) (a1 : Nat) : Keeps s (State.setSysCount t a1) := by
  unfold State.setSysCount
  repeat' first
    | with_reducible first
        | assumption | apply keeps_put
    | intro _ | dsimp only | split | with_reducible apply keeps_mk

theorem keeps_setHostCount (h : Keeps s t) (a1 : Nat) : Keeps s (State.setHostCount t a1) := by
  unfold State.setHostCount
  repeat' first
    | with_reducible first
        | assumption | apply keeps_put
    | intro _ | dsimp only | split | with_reducible apply keeps_mk

theorem keeps_sysPeriod (h : Keeps s t) : Keeps s (State.sysPeriod t) := by
  unfold State.sysPeriod
  repeat' first
    | with_reducible first
        | assumption | apply keeps_setSysCount | apply keeps_put
    | intro _ | dsimp only | split | with_reducible apply keeps_mk

theorem keeps_hostPeriod (h : Keeps s t) : Keeps s (State.hostPeriod t) := by
  unfold State.hostPeriod
  repeat' first
    | with_reducible first
        | assumption | apply keeps_setHostCount | apply keeps_put | apply keeps_ite
    | intro _ | dsimp only | split | with_reducible apply keeps_mk

theorem keeps_sysTimeout (h : Keeps s t) : Keeps s (State.sysTimeout t) := by
  unfold State.sysTimeout
  repeat' first
    | with_reducible first
        | assumption | apply keeps_expire
    | intro _ | dsimp only | split | with_reducible apply keeps_mk

theorem keeps_hostTimeout (h : Keeps s t) : Keeps s (State.hostTimeout t) := by
  unfold State.hostTimeout
  repeat' first
    | with_reducible first
        | assumption | apply keeps_expire
    | intro _ | dsimp only | split | with_reducible apply keeps_mk

theorem keeps_sysUnit (h : Keeps s t) : Keeps s (State.sysUnit t) := by
  unfold State.sysUnit
  repeat' first
    | with_reducible first
        | assumption | apply keeps_sysTimeout | apply keeps_setSysCount | apply keeps_sysPeriod | apply keeps_ite
    | intro _ | dsimp only | split | with_reducible apply keeps_mk

theorem keeps_hostUnit (h : Keeps s t) : Keeps s (State.hostUnit t) := by
  unfold State.hostUnit
  repeat' first
    | with_reducible first
        | assumption | apply keeps_setHostCount | apply keeps_hostPeriod | apply keeps_hostTimeout | apply keeps_ite
    | intro _ | dsimp only | split | with_reducible apply keeps_mk

theorem loose_tick (h : Keeps s t) : Loose s (State.tick t) := by
  unfold State.tick
  refine loose_ite (fun _ => h.loose) fun _ => ?_
  refine Loose.trans (t := match t.wd.grace with
    | some n => if n ≤ 1 then t.graceEnd [] else { t with wd := { t.wd with grace := some (n - 1) } }
    | none =>
      match t.wd.qlimit with
      | some n => if n ≤ 1 then t.quiesceLimit else { t with wd := { t.wd with qlimit := some (n - 1) } }
      | none => t) ?_ (Keeps.loose ?_)
  · split
    · exact loose_ite (fun _ => loose_graceEnd h _) fun _ => (keeps_mk h).loose
    · split
      · exact (keeps_ite (fun _ => keeps_quiesceLimit h) fun _ => keeps_mk h).loose
      · exact h.loose
  · refine keeps_ite (fun _ => Keeps.refl _) fun _ => ?_
    exact keeps_ite (fun _ => keeps_sysUnit (Keeps.refl _)) fun _ => keeps_hostUnit (keeps_sysUnit (Keeps.refl _))

theorem keeps_execWatchdogTimeout (h : Keeps s t) (a0 : Bool) : Answers s (execWatchdogTimeout a0 t) := by
  unfold execWatchdogTimeout
  repeat' first
    | with_reducible first
        | assumption | apply keeps_sysTimeout | apply keeps_hostTimeout | apply answers_next
    | intro _ | dsimp only | split | with_reducible apply keeps_mk

theorem keeps_execSysCheckin (h : Keeps s t) (a0 a1 : Nat) : Answers s (execSysCheckin a0 a1 t) := by
  unfold execSysCheckin
  repeat' first
    | with_reducible first
        | assumption | apply keeps_expire | apply keeps_put | apply answers_next
    | intro _ | dsimp only | split | with_reducible apply keeps_mk

theorem handler_hHostCheckin : HandlerKeeps hHostCheckin := by
  constructor <;> intro s t h <;> unfold hHostCheckin <;>
  repeat' first
    | with_reducible first
        | assumption | apply HandlerKeeps.chg handler_plain | apply HandlerKeeps.act handler_plain
        | apply HandlerKeeps.post handler_plain | apply keeps_expire | apply keeps_put | apply keeps_ite
    | intro _ | dsimp only | split | exact h | with_reducible apply keeps_mk

theorem keeps_execHostCheckin (h : Keeps s t) (a0 : Word) : Answers s (execHostCheckin a0 t) := by
  unfold execHostCheckin
  repeat' first
    | with_reducible first
        | assumption | apply handler_hHostCheckin | apply keeps_bar0 | apply answers_next
    | intro _ | dsimp only | split | with_reducible apply keeps_mk

theorem handler_hHostDisable : HandlerKeeps hHostDisable := by
  constructor <;> intro s t h <;> unfold hHostDisable <;>
  repeat' first
    | with_reducible first
        | assumption | apply HandlerKeeps.chg handler_plain | apply HandlerKeeps.act handler_plain
        | apply HandlerKeeps.post handler_plain | apply keeps_setReg | apply keeps_put | apply keeps_ite
    | intro _ | dsimp only | split | exact h | with_reducible apply keeps_mk

theorem keeps_execHostDisable (h : Keeps s t) (a0 : Word) : Answers s (execHostDisable a0 t) := by
  unfold execHostDisable
  repeat' first
    | with_reducible first
        | assumption | apply handler_hHostDisable | apply keeps_bar0 | apply answers_next
    | intro _ | dsimp only | split | with_reducible apply keeps_mk

theorem handler_hHostCtrl : HandlerKeeps hHostCtrl := by
  constructor <;> intro s t h <;> unfold hHostCtrl <;>
  repeat' first
    | with_reducible first
        | assumption | apply HandlerKeeps.chg handler_plain | apply HandlerKeeps.act handler_plain
        | apply HandlerKeeps.post handler_plain | apply keeps_setReg | apply keeps_put | apply keeps_ite
    | intro _ | dsimp only | split | exact h | with_reducible apply keeps_mk

theorem keeps_execHostEnable (h : Keeps s t) : Answers s (execHostEnable t) := by
  unfold execHostEnable
  repeat' first
    | with_reducible first
        | assumption | apply keeps_bar0Bit | apply handler_hHostCtrl | apply answers_next
    | intro _ | dsimp only | split | with_reducible apply keeps_mk

theorem handler_hHostPeriod (a0 : Nat) : HandlerKeeps (hHostPeriod a0) := by
  constructor <;> intro s t h <;> unfold hHostPeriod <;>
  repeat' first
    | with_reducible first
        | assumption | apply HandlerKeeps.chg handler_plain | apply HandlerKeeps.act handler_plain
        | apply HandlerKeeps.post handler_plain
    | intro _ | dsimp only | split | exact h | with_reducible apply keeps_mk

theorem handler_hSysPeriod : HandlerKeeps hSysPeriod := by
  constructor <;> intro s t h <;> unfold hSysPeriod <;>
  repeat' first
    | with_reducible first
        | assumption | apply HandlerKeeps.chg handler_plain | apply HandlerKeeps.act handler_plain
        | apply HandlerKeeps.post handler_plain
    | intro _ | dsimp only | split | exact h | with_reducible apply keeps_mk

theorem handler_hGrace : HandlerKeeps hGrace := by
  constructor <;> intro s t h <;> unfold hGrace <;>
  repeat' first
    | with_reducible first
        | assumption | apply HandlerKeeps.chg handler_plain | apply HandlerKeeps.act handler_plain
        | apply HandlerKeeps.post handler_plain
    | intro _ | dsimp only | split | exact h | with_reducible apply keeps_mk

theorem keeps_execClockStopCheck (h : Keeps s t) (a0 : List Nat) : Answers s (execClockStopCheck a0 t) := by
  unfold execClockStopCheck
  repeat' first
    | with_reducible first
        | assumption | apply keeps_setReg | apply keeps_expire | apply answers_next | apply keeps_foldl | apply keeps_foldl_fst
    | intro _ | dsimp only | split | with_reducible apply keeps_mk

theorem keeps_execXtalFail (h : Keeps s t) : Answers s (execXtalFail t) := by
  unfold execXtalFail
  repeat' first
    | with_reducible first
        | assumption | apply keeps_fault | apply keeps_put | apply keeps_event | apply answers_next
    | intro _ | dsimp only | split | with_reducible apply keeps_mk

end Sys2Proof.Machine
end

