-- ==== Sys2Proof/Laws/KeepsFabric.lean ====
section
/-! SUPPORT. Every operation keeps the queue, the canonical stores, the Stroke bound and what was sent: the Chainring, search, constants, the Gear fabric. -/

namespace Sys2Proof.Machine

variable {s t : State}

theorem keeps_setChain (h : Keeps s t) (a1 : ChainSt → ChainSt) : Keeps s (State.setChain t a1) := by
  unfold State.setChain
  repeat' first
    | with_reducible first
        | assumption
    | intro _ | dsimp only | split | with_reducible apply keeps_mk

theorem keeps_setHop (h : Keeps s t) (a1 : Hop) : Keeps s (State.setHop t a1) := by
  unfold State.setHop
  repeat' first
    | with_reducible first
        | assumption | apply keeps_setChain
    | intro _ | dsimp only | split | with_reducible apply keeps_mk

theorem keeps_transmit (h : Keeps s t) (a1 : Nat) (a2 : Frame) : Keeps s (State.transmit t a1 a2) := by
  unfold State.transmit
  repeat' first
    | with_reducible first
        | assumption | apply keeps_emit | apply keeps_setHop | apply keeps_ite
    | intro _ | dsimp only | split | with_reducible apply keeps_mk

theorem keeps_acknowledge (h : Keeps s t) (a1 : Nat) (a2 : Bool) (a3 a4 : Nat) : Keeps s (State.acknowledge t a1 a2 a3 a4) := by
  unfold State.acknowledge
  repeat' first
    | with_reducible first
        | assumption | apply keeps_sat | apply keeps_transmit | apply keeps_ite
    | intro _ | dsimp only | split | with_reducible apply keeps_mk

theorem keeps_freeBuffer (h : Keeps s t) (a1 : Option Nat) (a2 : Frame) : Keeps s (State.freeBuffer t a1 a2) := by
  unfold State.freeBuffer
  repeat' first
    | with_reducible first
        | assumption | apply keeps_acknowledge | apply keeps_setHop | apply opt_map | apply opt_map_val | apply keeps_getD
        | apply keeps_ite
    | intro _ | dsimp only | split | with_reducible apply keeps_mk

theorem keeps_sendUp (h : Keeps s t) (a1 : Nat) (a2 : Option Nat) (a3 : Frame) : Keeps s (State.sendUp t a1 a2 a3) := by
  unfold State.sendUp
  repeat' first
    | with_reducible first
        | assumption | apply keeps_freeBuffer | apply keeps_setHop | apply keeps_transmit | apply keeps_ite
    | intro _ | dsimp only | split | with_reducible apply keeps_mk

theorem keeps_sendFrom (h : Keeps s t) (a1 : Nat) (a2 : Option Nat) (a3 : Frame) : Keeps s (State.sendFrom t a1 a2 a3) := by
  unfold State.sendFrom
  repeat' first
    | with_reducible first
        | assumption | apply keeps_sendUp | apply keeps_setHop | apply keeps_ite
    | intro _ | dsimp only | split | with_reducible apply keeps_mk

theorem keeps_sendOn (h : Keeps s t) (a1 : Nat) (a2 : Frame) : Keeps s (State.sendOn t a1 a2) := by
  unfold State.sendOn
  repeat' first
    | with_reducible first
        | assumption | apply keeps_sendFrom
    | intro _ | dsimp only | split | with_reducible apply keeps_mk

theorem keeps_drainHop (h : Keeps s t) (a1 : Nat) : Keeps s (State.drainHop t a1) := by
  unfold State.drainHop
  repeat' first
    | with_reducible first
        | assumption | apply keeps_freeBuffer | apply keeps_setHop | apply keeps_transmit | apply keeps_ite | apply keeps_foldl
        | apply keeps_foldl_fst
    | intro _ | dsimp only | split | with_reducible apply keeps_mk

theorem keeps_replayHop (h : Keeps s t) (a1 : Nat) : Keeps s (State.replayHop t a1) := by
  unfold State.replayHop
  repeat' first
    | with_reducible first
        | assumption | apply keeps_sat | apply keeps_emit | apply keeps_ite | apply keeps_foldl | apply keeps_foldl_fst
    | intro _ | dsimp only | split | with_reducible apply keeps_mk

theorem keeps_takeAck (h : Keeps s t) (a1 : Nat) (a2 : Frame) : Keeps s (State.takeAck t a1 a2) := by
  unfold State.takeAck
  repeat' first
    | with_reducible first
        | assumption | apply keeps_drainHop | apply keeps_replayHop | apply keeps_setHop | apply keeps_ite
    | intro _ | dsimp only | split | with_reducible apply keeps_mk

theorem keeps_sendTo (h : Keeps s t) (a1 a2 a3 a4 : Nat) (a5 : List Byte) : Keeps s (State.sendTo t a1 a2 a3 a4 a5) := by
  unfold State.sendTo
  repeat' first
    | with_reducible first
        | assumption | apply keeps_sendOn | apply keeps_ite
    | intro _ | dsimp only | split | with_reducible apply keeps_mk

theorem keeps_takeXid (h : Keeps s t) : Keeps s (State.takeXid t).1 := by
  unfold State.takeXid
  repeat' first
    | with_reducible first
        | assumption | apply keeps_setChain
    | intro _ | dsimp only | split | with_reducible apply keeps_mk

theorem keeps_openTxn (h : Keeps s t) (a1 a2 a3 a4 : Nat) (a5 : List (List Byte)) :
    Keeps s (State.openTxn t a1 a2 a3 a4 a5).1 := by
  unfold State.openTxn
  repeat' first
    | with_reducible first
        | assumption | apply keeps_sendTo | apply keeps_takeXid | apply keeps_setChain | apply keeps_foldl | apply keeps_foldl_fst
    | intro _ | dsimp only | split | refine keeps_fst (by assumption) ?_ | with_reducible apply keeps_mk

theorem keeps_endTxn (h : Keeps s t) (a1 : Nat) : Keeps s (State.endTxn t a1) := by
  unfold State.endTxn
  repeat' first
    | with_reducible first
        | assumption | apply keeps_setChain
    | intro _ | dsimp only | split | with_reducible apply keeps_mk

theorem keeps_remember (h : Keeps s t) (a1 a2 : Nat) (a3 : List Frame) : Keeps s (State.remember t a1 a2 a3) := by
  unfold State.remember
  repeat' first
    | with_reducible first
        | assumption | apply keeps_setChain
    | intro _ | dsimp only | split | with_reducible apply keeps_mk

theorem keeps_answer (h : Keeps s t) (a1 : Frame) (a2 : Nat) (a3 : List Byte) : Keeps s (State.answer t a1 a2 a3) := by
  unfold State.answer
  repeat' first
    | with_reducible first
        | assumption | apply keeps_remember | apply keeps_sendTo
    | intro _ | dsimp only | split | with_reducible apply keeps_mk

theorem keeps_noteXid (h : Keeps s t) (a1 : Frame) : Keeps s (State.noteXid t a1) := by
  unfold State.noteXid
  repeat' first
    | with_reducible first
        | assumption | apply keeps_remember
    | intro _ | dsimp only | split | with_reducible apply keeps_mk

theorem keeps_once (h : Keeps s t) (a1 : Frame) (a2 : State → State) (ha2 : ∀ (u : State), Keeps s u → Keeps s (a2 u)) :
    Keeps s (State.once t a1 a2) := by
  unfold State.once
  repeat' first
    | with_reducible first
        | assumption | apply keeps_sendTo | apply ha2 | apply keeps_foldl | apply keeps_foldl_fst
    | intro _ | dsimp only | split | with_reducible apply keeps_mk

theorem keeps_setPairSt (h : Keeps s t) (a1 a2 : Nat) : Keeps s (State.setPairSt t a1 a2) := by
  unfold State.setPairSt
  repeat' first
    | with_reducible first
        | assumption | apply keeps_put
    | intro _ | dsimp only | split | with_reducible apply keeps_mk

theorem keeps_execFreewheelSwitchDone (h : Keeps s t) (a0 : Nat) : Answers s (execFreewheelSwitchDone a0 t) := by
  unfold execFreewheelSwitchDone
  repeat' first
    | with_reducible first
        | assumption | apply keeps_setPairSt | apply answers_next
    | intro _ | dsimp only | split | with_reducible apply keeps_mk

theorem handler_hPortCtrl : HandlerKeeps hPortCtrl := by
  constructor <;> intro s t h <;> unfold hPortCtrl <;>
  repeat' first
    | with_reducible first
        | assumption | apply HandlerKeeps.chg handler_plain | apply HandlerKeeps.act handler_plain
        | apply HandlerKeeps.post handler_plain
    | intro _ | dsimp only | split | exact h | with_reducible apply keeps_mk

theorem handler_hPeerTenant : HandlerKeeps hPeerTenant := by
  constructor <;> intro s t h <;> unfold hPeerTenant <;>
  repeat' first
    | with_reducible first
        | assumption | apply HandlerKeeps.chg handler_plain | apply HandlerKeeps.act handler_plain
        | apply HandlerKeeps.post handler_plain
    | intro _ | dsimp only | split | exact h | with_reducible apply keeps_mk

theorem handler_hPelotonId : HandlerKeeps hPelotonId := by
  constructor <;> intro s t h <;> unfold hPelotonId <;>
  repeat' first
    | with_reducible first
        | assumption | apply HandlerKeeps.chg handler_plain | apply HandlerKeeps.act handler_plain
        | apply HandlerKeeps.post handler_plain
    | intro _ | dsimp only | split | exact h | with_reducible apply keeps_mk

theorem keeps_setRoster (h : Keeps s t) (a1 : List Nat) : Keeps s (State.setRoster t a1) := by
  unfold State.setRoster
  repeat' first
    | with_reducible first
        | assumption | apply keeps_setReg | apply keeps_put | apply keeps_setChain | apply keeps_ite | apply keeps_foldl
        | apply keeps_foldl_fst
    | intro _ | dsimp only | split | with_reducible apply keeps_mk

theorem keeps_becomeMember (h : Keeps s t) : Keeps s (State.becomeMember t) := by
  unfold State.becomeMember
  repeat' first
    | with_reducible first
        | assumption | apply keeps_put | apply keeps_setRoster | apply keeps_setChain
    | intro _ | dsimp only | split | with_reducible apply keeps_mk

theorem keeps_refuseJoin (h : Keeps s t) (a1 : Nat) : Keeps s (State.refuseJoin t a1) := by
  unfold State.refuseJoin
  repeat' first
    | with_reducible first
        | assumption | apply keeps_put | apply keeps_setChain
    | intro _ | dsimp only | split | with_reducible apply keeps_mk

theorem keeps_tryJoin (h : Keeps s t) : Keeps s (State.tryJoin t) := by
  unfold State.tryJoin
  repeat' first
    | with_reducible first
        | assumption | apply keeps_becomeMember | apply keeps_put | apply keeps_refuseJoin | apply keeps_setChain
        | apply keeps_setRoster | apply keeps_ite
    | intro _ | dsimp only | split | with_reducible apply keeps_mk

theorem keeps_forward (h : Keeps s t) (a1 : Nat) (a2 : Frame) : Keeps s (State.forward t a1 a2) := by
  unfold State.forward
  repeat' first
    | with_reducible first
        | assumption | apply keeps_nextFree | apply keeps_sendFrom | apply keeps_ite
    | intro _ | dsimp only | split | with_reducible apply keeps_mk

theorem keeps_receive (h : Keeps s t) (a1 a2 : Nat) (a3 : Frame) (a4 : State → Frame → State) (ha4 : ∀ (u : State) x0, Keeps s u → Keeps s (a4 u x0)) :
    Keeps s (State.receive t a1 a2 a3 a4) := by
  unfold State.receive
  repeat' first
    | with_reducible first
        | assumption | apply ha4 | apply keeps_acknowledge | apply keeps_forward | apply keeps_setChain | apply keeps_setHop
        | apply keeps_takeAck | apply keeps_tryJoin | apply keeps_ite
    | intro _ | dsimp only | split | with_reducible apply keeps_mk

theorem keeps_execAckCmd (h : Keeps s t) (a0 : Nat) (a1 : Frame) : Answers s (execAckCmd a0 a1 t) := by
  unfold execAckCmd
  repeat' first
    | with_reducible first
        | assumption | apply keeps_receive | apply answers_next
    | intro _ | dsimp only | split | with_reducible apply keeps_mk

theorem keeps_execBadFrame (h : Keeps s t) (a0 : Nat) (a1 a2 : List Byte) : Answers s (execBadFrame a0 a1 a2 t) := by
  unfold execBadFrame
  repeat' first
    | with_reducible first
        | assumption | apply keeps_acknowledge | apply keeps_sat | apply answers_next | apply keeps_ite
    | intro _ | dsimp only | split | with_reducible apply keeps_mk

theorem keeps_execReplayTimeout (h : Keeps s t) (a0 : Nat) : Answers s (execReplayTimeout a0 t) := by
  unfold execReplayTimeout
  repeat' first
    | with_reducible first
        | assumption | apply keeps_replayHop | apply answers_next
    | intro _ | dsimp only | split | with_reducible apply keeps_mk

theorem keeps_sendBeat (h : Keeps s t) : Keeps s (State.sendBeat t) := by
  unfold State.sendBeat
  repeat' first
    | with_reducible first
        | assumption | apply keeps_sendTo | apply keeps_setChain | apply keeps_ite
    | intro _ | dsimp only | split | with_reducible apply keeps_mk

theorem keeps_execBeatSend (h : Keeps s t) : Answers s (execBeatSend t) := by
  unfold execBeatSend
  repeat' first
    | with_reducible first
        | assumption | apply keeps_sendBeat | apply answers_next
    | intro _ | dsimp only | split | with_reducible apply keeps_mk

theorem keeps_takeBeat (h : Keeps s t) (a1 : Frame) : Keeps s (State.takeBeat t a1) := by
  unfold State.takeBeat
  repeat' first
    | with_reducible first
        | assumption | apply keeps_setChain | apply keeps_setRoster | apply keeps_tryJoin | apply keeps_ite
    | intro _ | dsimp only | split | with_reducible apply keeps_mk

theorem keeps_execBeatCmd (h : Keeps s t) (a0 : Nat) (a1 : Frame) : Answers s (execBeatCmd a0 a1 t) := by
  unfold execBeatCmd
  repeat' first
    | with_reducible first
        | assumption | apply keeps_takeBeat | apply keeps_receive | apply answers_next
    | intro _ | dsimp only | split | with_reducible apply keeps_mk

theorem keeps_sayHello (h : Keeps s t) (a1 a2 : Nat) : Keeps s (State.sayHello t a1 a2) := by
  unfold State.sayHello
  repeat' first
    | with_reducible first
        | assumption | apply keeps_sendOn | apply keeps_nextFree
    | intro _ | dsimp only | split | with_reducible apply keeps_mk

theorem keeps_sendHellos (h : Keeps s t) : Keeps s (State.sendHellos t) := by
  unfold State.sendHellos
  repeat' first
    | with_reducible first
        | assumption | apply keeps_sayHello | apply keeps_setChain | apply keeps_ite | apply keeps_foldl | apply keeps_foldl_fst
    | intro _ | dsimp only | split | with_reducible apply keeps_mk

theorem keeps_execHelloSend (h : Keeps s t) : Answers s (execHelloSend t) := by
  unfold execHelloSend
  repeat' first
    | with_reducible first
        | assumption | apply keeps_sendHellos | apply answers_next
    | intro _ | dsimp only | split | with_reducible apply keeps_mk

theorem keeps_takeHello (h : Keeps s t) (a1 : Nat) (a2 : Frame) : Keeps s (State.takeHello t a1 a2) := by
  unfold State.takeHello
  repeat' first
    | with_reducible first
        | assumption | apply keeps_nextFree | apply keeps_drainHop | apply keeps_put | apply keeps_sayHello
        | apply keeps_setChain | apply keeps_setHop | apply keeps_tryJoin | apply keeps_ite
    | intro _ | dsimp only | split | with_reducible apply keeps_mk

theorem keeps_execHelloCmd (h : Keeps s t) (a0 : Nat) (a1 : Frame) : Answers s (execHelloCmd a0 a1 t) := by
  unfold execHelloCmd
  repeat' first
    | with_reducible first
        | assumption | apply keeps_receive | apply keeps_takeHello | apply answers_next
    | intro _ | dsimp only | split | with_reducible apply keeps_mk

theorem keeps_setSrch (h : Keeps s t) (a1 : SrchSt → SrchSt) : Keeps s (State.setSrch t a1) := by
  unfold State.setSrch
  repeat' first
    | with_reducible first
        | assumption
    | intro _ | dsimp only | split | with_reducible apply keeps_mk

theorem keeps_tally (h : Keeps s t) (a1 : Tally) : Keeps s (State.tally t a1) := by
  unfold State.tally
  repeat' first
    | with_reducible first
        | assumption | apply keeps_add64 | apply keeps_sat
    | intro _ | dsimp only | split | with_reducible apply keeps_mk

theorem keeps_admitFind (h : Keeps s t) (a1 : Nat) : Keeps s (State.admitFind t a1) := by
  unfold State.admitFind
  repeat' first
    | with_reducible first
        | assumption | apply keeps_admitWith | apply keeps_updWork | apply keeps_latch | apply keeps_ite
    | intro _ | dsimp only | split | with_reducible apply keeps_mk

theorem keeps_execPrefixFind (h : Keeps s t) (a0 : Desc) : Answers s (execPrefixFind a0 t) := by
  unfold execPrefixFind
  repeat' first
    | with_reducible first
        | assumption | apply keeps_rowAdmit | apply keeps_admitFind | apply answers_next
    | intro _ | dsimp only | split | with_reducible apply keeps_mk

theorem keeps_execPrefixNext (h : Keeps s t) (a0 : Desc) : Answers s (execPrefixNext a0 t) := by
  unfold execPrefixNext
  repeat' first
    | with_reducible first
        | assumption | apply keeps_rowAdmit | apply keeps_admitFind | apply answers_next
    | intro _ | dsimp only | split | with_reducible apply keeps_mk

theorem keeps_admitUpdate (h : Keeps s t) (a1 : Nat) : Keeps s (State.admitUpdate t a1) := by
  unfold State.admitUpdate
  repeat' first
    | with_reducible first
        | assumption | apply keeps_admitWith | apply keeps_latch | apply keeps_ite
    | intro _ | dsimp only | split | with_reducible apply keeps_mk

theorem keeps_execPrefixInsert (h : Keeps s t) (a0 : Desc) : Answers s (execPrefixInsert a0 t) := by
  unfold execPrefixInsert
  repeat' first
    | with_reducible first
        | assumption | apply keeps_admitUpdate | apply keeps_rowAdmit | apply answers_next
    | intro _ | dsimp only | split | with_reducible apply keeps_mk

theorem keeps_execPrefixRemove (h : Keeps s t) (a0 : Desc) : Answers s (execPrefixRemove a0 t) := by
  unfold execPrefixRemove
  repeat' first
    | with_reducible first
        | assumption | apply keeps_admitUpdate | apply keeps_rowAdmit | apply answers_next
    | intro _ | dsimp only | split | with_reducible apply keeps_mk

theorem keeps_sendWords (h : Keeps s t) (a1 : Work) (a2 : Nat) (a3 : Query) (a4 : List (Nat × List Byte)) :
    Keeps s (State.sendWords t a1 a2 a3 a4).1 := by
  unfold State.sendWords
  repeat' first
    | with_reducible first
        | assumption | apply keeps_emit | apply keeps_setSrch | apply keeps_foldl | apply keeps_foldl_fst
    | intro _ | dsimp only | split | with_reducible apply keeps_mk

theorem keeps_passWord (h : Keeps s t) (a1 : CascadeWord) : Keeps s (State.passWord t a1) := by
  unfold State.passWord
  repeat' first
    | with_reducible first
        | assumption | apply keeps_emit | apply keeps_tally | apply opt_map | apply opt_map_val | apply keeps_getD
        | apply keeps_ite
    | intro _ | dsimp only | split | with_reducible apply keeps_mk

theorem keeps_ownWord (h : Keeps s t) (a1 : CascadeWord) : Keeps s (State.ownWord t a1) := by
  unfold State.ownWord
  repeat' first
    | with_reducible first
        | assumption | apply keeps_setSrch | apply keeps_updWork | apply keeps_ite
    | intro _ | dsimp only | split | with_reducible apply keeps_mk

theorem keeps_enumBanks (h : Keeps s t) : Keeps s (State.enumBanks t) := by
  unfold State.enumBanks
  exact keeps_mk2 h (spWf_filter _ _ _) id

theorem keeps_execEnumDone (h : Keeps s t) (a0 : Bool) : Answers s (execEnumDone a0 t) := by
  unfold execEnumDone
  repeat' first
    | with_reducible first
        | assumption | apply keeps_enumBanks | apply keeps_put | apply answers_next | apply keeps_ite
    | intro _ | dsimp only | split | with_reducible apply keeps_mk

theorem keeps_execCascadeEnumTimeout (h : Keeps s t) : Answers s (execCascadeEnumTimeout t) := by
  unfold execCascadeEnumTimeout
  repeat' first
    | with_reducible first
        | assumption | apply keeps_put | apply answers_next
    | intro _ | dsimp only | split | with_reducible apply keeps_mk

theorem keeps_execCascadeDown (h : Keeps s t) : Answers s (execCascadeDown t) := by
  unfold execCascadeDown
  repeat' first
    | with_reducible first
        | assumption | apply keeps_put | apply answers_next
    | intro _ | dsimp only | split | with_reducible apply keeps_mk

theorem keeps_askPeloton (h : Keeps s t) (a1 : Work) (a2 : Nat) (a3 : List (List Byte)) :
    Keeps s (State.askPeloton t a1 a2 a3).1 := by
  unfold State.askPeloton
  repeat' first
    | with_reducible first
        | assumption | apply keeps_openTxn | apply keeps_ite | apply keeps_foldl | apply keeps_foldl_fst
    | intro _ | dsimp only | split | refine keeps_fst (by assumption) ?_ | with_reducible apply keeps_mk

theorem keeps_startSearch (h : Keeps s t) (a1 : Work) (a2 : FindSt) (a3 : Nat) : Keeps s (State.startSearch t a1 a2 a3).1 := by
  unfold State.startSearch
  repeat' first
    | with_reducible first
        | assumption | apply keeps_add64 | apply keeps_sendWords | apply keeps_updWork | apply keeps_ite | apply keeps_ite_fst
    | intro _ | dsimp only | split | refine keeps_fst (by assumption) ?_ | with_reducible apply keeps_mk

theorem keeps_askAll (h : Keeps s t) (a1 : Work) (a2 : FindSt) : Keeps s (State.askAll t a1 a2).1 := by
  unfold State.askAll
  repeat' first
    | with_reducible first
        | assumption | apply keeps_askPeloton | apply keeps_ite | apply keeps_ite_fst
    | intro _ | dsimp only | split | refine keeps_fst (by assumption) ?_ | with_reducible apply keeps_mk

theorem keeps_decFind (h : Keeps s t) (a1 : Work) : DecKeeps s (State.decFind t a1) := by
  unfold State.decFind
  repeat' first
    | with_reducible first
        | assumption | apply keeps_nextFree | apply keeps_askAll | apply keeps_call | apply keeps_resolveHook
        | apply keeps_setSrch | apply keeps_startSearch | apply keeps_takePort | apply keeps_updWork | apply opt_map
        | apply opt_map_val | apply keeps_getD | apply dec_ite | exact DecKeeps.wait | exact DecKeeps.noFrame
        | apply DecKeeps.hookWait | apply DecKeeps.stop | apply DecKeeps.pass | apply DecKeeps.go | apply keeps_ite
    | intro _ | dsimp only | split | refine keeps_fst (by assumption) ?_ | refine hook_of_builtin (by assumption) ?_
    | refine hook_of_waits (by assumption) ?_ | refine dec_of_hookWait (by assumption) ?_
    | refine dec_of_stop (by assumption) ?_ | refine dec_of_pass (by assumption) ?_ | refine dec_of_go (by assumption) ?_
    | with_reducible apply keeps_mk

theorem keeps_endFind (h : Keeps s t) (a1 : Work) (a2 : Run) : Keeps s (State.endFind t a1 a2) := by
  unfold State.endFind
  repeat' first
    | with_reducible first
        | assumption | apply keeps_resolve | apply keeps_tally | apply keeps_updWork | apply keeps_ite
    | intro _ | dsimp only | split | with_reducible apply keeps_mk

theorem keeps_finishFind (h : Keeps s t) (a1 : Work) : Keeps s (State.finishFind t a1) := by
  unfold State.finishFind
  repeat' first
    | with_reducible first
        | assumption | apply keeps_latch | apply keeps_updWork
    | intro _ | dsimp only | split | with_reducible apply keeps_mk

theorem keeps_placeTokens (h : Keeps s t) (a1 : Nat) (a2 : List Byte) : Keeps s (State.placeTokens t a1 a2).1 := by
  unfold State.placeTokens
  repeat' first
    | with_reducible first
        | assumption | apply keeps_firstWrite | apply keeps_setStream | apply keeps_needChain | apply keeps_setFlash
        | apply keeps_placeSectors | apply opt_bind | apply keeps_getD | apply keeps_ite
    | intro _ | dsimp only | split | refine keeps_fst (by assumption) ?_ | with_reducible apply keeps_mk

theorem keeps_insertEntry (h : Keeps s t) (a1 : Seq) (a2 a3 a4 : Nat) (a5 : Bool) (a6 a7 : List Byte) :
    Keeps s (State.insertEntry t a1 a2 a3 a4 a5 a6 a7) := by
  unfold State.insertEntry
  repeat' first
    | with_reducible first
        | assumption | apply keeps_add64 | apply keeps_logKv | apply keeps_placeTokens | apply keeps_setSrch | apply keeps_foldl
        | apply keeps_foldl_fst
    | intro _ | dsimp only | split | refine keeps_fst (by assumption) ?_ | with_reducible apply keeps_mk

theorem keeps_insertBlocks (h : Keeps s t) (a1 : Work) (a2 : Seq) (a3 : Option (List (List Byte))) (a4 : List (List Byte × List Byte))
    (a5 a6 a7 : Nat) : Keeps s (State.insertBlocks t a1 a2 a3 a4 a5 a6 a7).1 := by
  induction a6 generalizing t a7 with
  | zero => exact h
  | succ n ih =>
    unfold State.insertBlocks
    repeat' first
      | with_reducible first
          | assumption | apply ih | apply keeps_updWork | apply keeps_insertEntry | apply opt_map_val | apply keeps_ite
      | intro _ | dsimp only | split | with_reducible apply keeps_mk

theorem keeps_decUpdate (h : Keeps s t) (a1 : Work) : DecKeeps s (State.decUpdate t a1) := by
  unfold State.decUpdate
  repeat' first
    | with_reducible first
        | assumption | apply keeps_call | apply keeps_draw | apply keeps_resolveHook | apply keeps_takePort | apply opt_map
        | apply opt_map_val | apply keeps_getD | apply dec_ite | exact DecKeeps.wait | exact DecKeeps.noFrame
        | apply DecKeeps.hookWait | apply DecKeeps.stop | apply DecKeeps.pass | apply DecKeeps.go | apply keeps_ite
    | intro _ | dsimp only | split | refine hook_of_builtin (by assumption) ?_ | refine hook_of_waits (by assumption) ?_
    | refine dec_of_hookWait (by assumption) ?_ | refine dec_of_stop (by assumption) ?_ | refine dec_of_pass (by assumption) ?_
    | refine dec_of_go (by assumption) ?_ | with_reducible apply keeps_mk

theorem keeps_endUpdate (h : Keeps s t) (a1 : Work) (a2 : Run) : Keeps s (State.endUpdate t a1 a2) := by
  unfold State.endUpdate
  repeat' first
    | with_reducible first
        | assumption | apply keeps_insertBlocks | apply keeps_removeEntry | apply keeps_updWork | apply opt_map
        | apply opt_map_val | apply keeps_getD | apply keeps_ite | apply keeps_foldl | apply keeps_foldl_fst
    | intro _ | dsimp only | split | refine keeps_fst (by assumption) ?_ | with_reducible apply keeps_mk

theorem keeps_freeHeld (h : Keeps s t) : Keeps s (State.freeHeld t) := by
  unfold State.freeHeld
  repeat' first
    | with_reducible first
        | assumption | apply keeps_setSrch
    | intro _ | dsimp only | split | with_reducible apply keeps_mk

theorem keeps_finishUpdate (h : Keeps s t) (a1 : Work) : Keeps s (State.finishUpdate t a1) := by
  unfold State.finishUpdate
  repeat' first
    | with_reducible first
        | assumption | apply keeps_latchEnd
    | intro _ | dsimp only | split | with_reducible apply keeps_mk

theorem keeps_decSearch (h : Keeps s t) (a1 : Work) : DecKeeps s (State.decSearch t a1) := by
  unfold State.decSearch
  repeat' first
    | with_reducible first
        | assumption | apply keeps_decFind | apply keeps_decUpdate | apply dec_ite | exact DecKeeps.wait | exact DecKeeps.noFrame
        | apply DecKeeps.hookWait | apply DecKeeps.stop | apply DecKeeps.pass | apply DecKeeps.go
    | intro _ | dsimp only | split | refine dec_of_hookWait (by assumption) ?_ | refine dec_of_stop (by assumption) ?_
    | refine dec_of_pass (by assumption) ?_ | refine dec_of_go (by assumption) ?_ | with_reducible apply keeps_mk

theorem keeps_hashed (h : Keeps s t) (a1 : Work) (a2 : Run) (a3 : List (List Byte)) : Keeps s (State.hashed t a1 a2 a3) := by
  unfold State.hashed
  repeat' first
    | with_reducible first
        | assumption | apply keeps_askAll | apply keeps_startSearch | apply keeps_updWork | apply opt_map | apply opt_map_val
        | apply keeps_getD | apply keeps_ite
    | intro _ | dsimp only | split | refine keeps_fst (by assumption) ?_ | with_reducible apply keeps_mk

theorem keeps_hashNext (h : Keeps s t) (a1 : Work) (a2 : Run) (a3 : List Byte) : Keeps s (State.hashNext t a1 a2 a3) := by
  unfold State.hashNext
  repeat' first
    | with_reducible first
        | assumption | apply keeps_call | apply keeps_hashed | apply keeps_updWork | apply opt_map | apply opt_map_val
        | apply keeps_getD | apply keeps_ite
    | intro _ | dsimp only | split | with_reducible apply keeps_mk

theorem keeps_pelKeys (h : Keeps s t) (a1 : Nat) (a2 : List (List Byte)) (a3 : Nat) (a4 : PelReq) :
    Keeps s (State.pelKeys t a1 a2 a3 a4).1 := by
  induction a3 generalizing t a4 with
  | zero => exact h
  | succ n ih =>
    unfold State.pelKeys
    dsimp only
    exact keeps_ite_fst (fun _ => h) fun _ => ih (keeps_tally (keeps_draw h _ _) _) _

theorem keeps_servePel (h : Keeps s t) (a1 : PelReq) : Keeps s (State.servePel t a1) := by
  unfold State.servePel
  repeat' first
    | with_reducible first
        | assumption | apply keeps_answer | apply keeps_pelKeys | apply keeps_setSrch | apply opt_map | apply opt_map_val
        | apply keeps_getD | apply keeps_ite
    | intro _ | dsimp only | split | refine keeps_fst (by assumption) ?_ | with_reducible apply keeps_mk

theorem keeps_servePels (h : Keeps s t) : Keeps s (State.servePels t) := by
  unfold State.servePels
  repeat' first
    | with_reducible first
        | assumption | apply keeps_servePel | apply keeps_foldl | apply keeps_foldl_fst
    | intro _ | dsimp only | split | with_reducible apply keeps_mk

theorem keeps_takeToken (h : Keeps s t) (a1 : Frame) : Keeps s (State.takeToken t a1) := by
  unfold State.takeToken
  repeat' first
    | with_reducible first
        | assumption | apply keeps_once | apply keeps_servePel | apply keeps_setSrch | apply opt_map | apply opt_map_val
        | apply keeps_getD | apply keeps_ite
    | intro _ | dsimp only | split | with_reducible apply keeps_mk

theorem keeps_execMatchToken (h : Keeps s t) (a0 : Nat) (a1 : Frame) : Answers s (execMatchToken a0 a1 t) := by
  unfold execMatchToken
  repeat' first
    | with_reducible first
        | assumption | apply keeps_receive | apply keeps_takeToken | apply answers_next
    | intro _ | dsimp only | split | with_reducible apply keeps_mk

theorem keeps_takeReply (h : Keeps s t) (a1 : Frame) : Keeps s (State.takeReply t a1) := by
  unfold State.takeReply
  repeat' first
    | with_reducible first
        | assumption | apply keeps_updWork | apply keeps_endTxn | apply keeps_ite
    | intro _ | dsimp only | split | with_reducible apply keeps_mk

theorem keeps_settleFind (h : Keeps s t) (a1 : Nat) : Keeps s (State.settleFind t a1) := by
  unfold State.settleFind
  repeat' first
    | with_reducible first
        | assumption | apply keeps_finishFind | apply keeps_ite
    | intro _ | dsimp only | split | with_reducible apply keeps_mk

theorem keeps_execCascadeWord (h : Keeps s t) (a0 : CascadeWord) : Answers s (execCascadeWord a0 t) := by
  unfold execCascadeWord
  repeat' first
    | with_reducible first
        | assumption | apply keeps_ownWord | apply keeps_passWord | apply keeps_settleFind | apply opt_map | apply opt_map_val
        | apply keeps_getD | apply answers_next | apply keeps_ite
    | intro _ | dsimp only | split | with_reducible apply keeps_mk

theorem keeps_cascExpire (h : Keeps s t) (a1 : Nat) : Keeps s (State.cascExpire t a1) := by
  unfold State.cascExpire
  repeat' first
    | with_reducible first
        | assumption | apply keeps_updWork | apply keeps_setSrch | apply keeps_settleFind | apply keeps_sat | apply keeps_emit
        | apply keeps_ite
    | intro _ | dsimp only | split | with_reducible apply keeps_mk

theorem keeps_execCascadeWaitExpiry (h : Keeps s t) (a0 : Nat) : Answers s (execCascadeWaitExpiry a0 t) := by
  unfold execCascadeWaitExpiry
  repeat' first
    | with_reducible first
        | assumption | apply keeps_cascExpire | apply answers_next
    | intro _ | dsimp only | split | with_reducible apply keeps_mk

theorem keeps_execMatchReply (h : Keeps s t) (a0 : Nat) (a1 : Frame) : Answers s (execMatchReply a0 a1 t) := by
  unfold execMatchReply
  repeat' first
    | with_reducible first
        | assumption | apply keeps_takeReply | apply keeps_receive | apply keeps_settleFind | apply answers_next
        | apply opt_map_val | apply keeps_getD
    | intro _ | dsimp only | split | with_reducible apply keeps_mk

theorem keeps_pelExpire (h : Keeps s t) (a1 : Nat) : Keeps s (State.pelExpire t a1) := by
  unfold State.pelExpire
  repeat' first
    | with_reducible first
        | assumption | apply keeps_dropCalls | apply keeps_dropRun | apply keeps_finishFind | apply keeps_freeHeld
        | apply keeps_setChain | apply keeps_setSrch | apply keeps_updWork | apply keeps_foldl | apply keeps_foldl_fst
    | intro _ | dsimp only | split | with_reducible apply keeps_mk

theorem keeps_execPelotonWaitExpiry (h : Keeps s t) (a0 : Nat) : Answers s (execPelotonWaitExpiry a0 t) := by
  unfold execPelotonWaitExpiry
  repeat' first
    | with_reducible first
        | assumption | apply keeps_pelExpire | apply answers_next
    | intro _ | dsimp only | split | with_reducible apply keeps_mk

theorem keeps_execBrakeSample (h : Keeps s t) (a0 : List Int) : Answers s (execBrakeSample a0 t) := by
  unfold execBrakeSample
  repeat' first
    | with_reducible first
        | assumption | apply keeps_setReg | apply keeps_setSrch | apply keeps_put | apply answers_next | apply keeps_foldl
        | apply keeps_foldl_fst
    | intro _ | dsimp only | split | with_reducible apply keeps_mk

theorem keeps_brakeApply (h : Keeps s t) : Keeps s (State.brakeApply t) := by
  unfold State.brakeApply
  repeat' first
    | with_reducible first
        | assumption | apply keeps_setSrch | apply keeps_put
    | intro _ | dsimp only | split | with_reducible apply keeps_mk

theorem handler_hBankCtrl : HandlerKeeps hBankCtrl := by
  constructor <;> intro s t h <;> unfold hBankCtrl <;>
  repeat' first
    | with_reducible first
        | assumption | apply HandlerKeeps.chg handler_plain | apply HandlerKeeps.act handler_plain
        | apply HandlerKeeps.post handler_plain | apply keeps_put | apply keeps_setSrch | apply keeps_ite
    | intro _ | dsimp only | split | exact h | with_reducible apply keeps_mk

theorem keeps_execReshape (h : Keeps s t) : Answers s (execReshape t) := by
  unfold execReshape
  repeat' first
    | with_reducible first
        | assumption | apply handler_hBankCtrl | apply keeps_bar0Bit | apply answers_next
    | intro _ | dsimp only | split | with_reducible apply keeps_mk

theorem keeps_moveEntry (h : Keeps s t) (a1 : Entry) : Keeps s (State.moveEntry t a1) := by
  unfold State.moveEntry
  repeat' first
    | with_reducible first
        | assumption | apply keeps_add64 | apply keeps_holdEntry | apply keeps_setSrch | apply opt_map | apply opt_map_val
        | apply keeps_getD | apply keeps_ite
    | intro _ | dsimp only | split | with_reducible apply keeps_mk

theorem keeps_execReshapeDrainDone (h : Keeps s t) (a0 : Nat) : Answers s (execReshapeDrainDone a0 t) := by
  unfold execReshapeDrainDone
  repeat' first
    | with_reducible first
        | assumption | apply keeps_atBoundary | apply keeps_moveEntry | apply keeps_put | apply answers_next | apply keeps_ite
        | apply keeps_foldl | apply keeps_foldl_fst
    | intro _ | dsimp only | split | with_reducible apply keeps_mk

theorem keeps_bankWidthNow (h : Keeps s t) (a1 a2 : Nat) : Keeps s (State.bankWidthNow t a1 a2) := by
  unfold State.bankWidthNow
  repeat' first
    | with_reducible first
        | assumption | apply keeps_setSrch | apply keeps_put
    | intro _ | dsimp only | split | with_reducible apply keeps_mk

theorem keeps_execShadowTokensRestored (h : Keeps s t) (a0 : Nat) : Answers s (execShadowTokensRestored a0 t) := by
  unfold execShadowTokensRestored
  repeat' first
    | with_reducible first
        | assumption | apply keeps_notePending | apply keeps_setSrch | apply opt_map | apply opt_map_val | apply keeps_getD
        | apply answers_next | apply keeps_ite
    | intro _ | dsimp only | split | with_reducible apply keeps_mk

theorem handler_hNsCtrl : HandlerKeeps hNsCtrl := by
  constructor <;> intro s t h <;> unfold hNsCtrl <;>
  repeat' first
    | with_reducible first
        | assumption | apply HandlerKeeps.chg handler_plain | apply HandlerKeeps.act handler_plain
        | apply HandlerKeeps.post handler_plain
    | intro _ | dsimp only | split | exact h | with_reducible apply keeps_mk

theorem handler_hVerifyTries : HandlerKeeps hVerifyTries := by
  constructor <;> intro s t h <;> unfold hVerifyTries <;>
  repeat' first
    | with_reducible first
        | assumption | apply HandlerKeeps.chg handler_plain | apply HandlerKeeps.act handler_plain
        | apply HandlerKeeps.post handler_plain
    | intro _ | dsimp only | split | exact h | with_reducible apply keeps_mk

theorem handler_hSearchWait : HandlerKeeps hSearchWait := by
  constructor <;> intro s t h <;> unfold hSearchWait <;>
  repeat' first
    | with_reducible first
        | assumption | apply HandlerKeeps.chg handler_plain | apply HandlerKeeps.act handler_plain
        | apply HandlerKeeps.post handler_plain
    | intro _ | dsimp only | split | exact h | with_reducible apply keeps_mk

theorem keeps_define (h : Keeps s t) (a1 : Nat) : Keeps s (State.define t a1) := by
  unfold State.define
  repeat' first
    | with_reducible first
        | assumption | apply keeps_put | apply keeps_ite
    | intro _ | dsimp only | split | with_reducible apply keeps_mk

theorem handler_hClassCtrl : HandlerKeeps hClassCtrl := by
  constructor <;> intro s t h <;> unfold hClassCtrl <;>
  repeat' first
    | with_reducible first
        | assumption | apply HandlerKeeps.chg handler_plain | apply HandlerKeeps.act handler_plain
        | apply HandlerKeeps.post handler_plain | apply keeps_define | apply keeps_put | apply keeps_ite
    | intro _ | dsimp only | split | exact h | with_reducible apply keeps_mk

theorem keeps_writeClassCtrl (h : Keeps s t) (a1 : Word) : Keeps s (State.writeClassCtrl t a1) := by
  unfold State.writeClassCtrl
  repeat' first
    | with_reducible first
        | assumption | apply keeps_put | apply keeps_bar0 | apply handler_hClassCtrl | apply keeps_ite
    | intro _ | dsimp only | split | with_reducible apply keeps_mk

theorem keeps_execDefineCmd (h : Keeps s t) : Answers s (execDefineCmd t) := by
  unfold execDefineCmd
  repeat' first
    | with_reducible first
        | assumption | apply keeps_writeClassCtrl | apply answers_next
    | intro _ | dsimp only | split | with_reducible apply keeps_mk

theorem keeps_execUndefine (h : Keeps s t) : Answers s (execUndefine t) := by
  unfold execUndefine
  repeat' first
    | with_reducible first
        | assumption | apply keeps_writeClassCtrl | apply answers_next
    | intro _ | dsimp only | split | with_reducible apply keeps_mk

theorem handler_hClassField : HandlerKeeps hClassField := by
  constructor <;> intro s t h <;> unfold hClassField <;>
  repeat' first
    | with_reducible first
        | assumption | apply HandlerKeeps.chg handler_plain | apply HandlerKeeps.act handler_plain
        | apply HandlerKeeps.post handler_plain
    | intro _ | dsimp only | split | exact h | with_reducible apply keeps_mk

theorem keeps_setConst (h : Keeps s t) (a1 a2 a3 : Nat) : Keeps s (State.setConst t a1 a2 a3) := by
  unfold State.setConst
  repeat' first
    | with_reducible first
        | assumption | apply keeps_put
    | intro _ | dsimp only | split | with_reducible apply keeps_mk

theorem keeps_constLoad (h : Keeps s t) (a1 : Nat) : Keeps s (State.constLoad t a1) := by
  unfold State.constLoad
  repeat' first
    | with_reducible first
        | assumption | apply keeps_setGear | apply keeps_setConst | apply keeps_put | apply keeps_ite
    | intro _ | dsimp only | split | with_reducible apply keeps_mk

theorem keeps_constUnload (h : Keeps s t) (a1 : Nat) : Keeps s (State.constUnload t a1) := by
  unfold State.constUnload
  repeat' first
    | with_reducible first
        | assumption | apply keeps_setGear | apply keeps_setConst | apply keeps_put | apply keeps_ite
    | intro _ | dsimp only | split | with_reducible apply keeps_mk

theorem handler_hConstCtrl : HandlerKeeps hConstCtrl := by
  constructor <;> intro s t h <;> unfold hConstCtrl <;>
  repeat' first
    | with_reducible first
        | assumption | apply HandlerKeeps.chg handler_plain | apply HandlerKeeps.act handler_plain
        | apply HandlerKeeps.post handler_plain | apply keeps_constLoad | apply keeps_constUnload | apply keeps_ite
    | intro _ | dsimp only | split | exact h | with_reducible apply keeps_mk

theorem keeps_execConstLoad (h : Keeps s t) : Answers s (execConstLoad t) := by
  unfold execConstLoad
  repeat' first
    | with_reducible first
        | assumption | apply handler_hConstCtrl | apply keeps_bar0Bit | apply answers_next
    | intro _ | dsimp only | split | with_reducible apply keeps_mk

theorem keeps_execConstUnload (h : Keeps s t) : Answers s (execConstUnload t) := by
  unfold execConstUnload
  repeat' first
    | with_reducible first
        | assumption | apply handler_hConstCtrl | apply keeps_bar0Bit | apply answers_next
    | intro _ | dsimp only | split | with_reducible apply keeps_mk

theorem keeps_execConstLoadDone (h : Keeps s t) (a0 : Bool) : Answers s (execConstLoadDone a0 t) := by
  unfold execConstLoadDone
  repeat' first
    | with_reducible first
        | assumption | apply keeps_put | apply keeps_setConst | apply keeps_setGear | apply opt_map | apply opt_map_val
        | apply keeps_getD | apply answers_next | apply keeps_ite
    | intro _ | dsimp only | split | with_reducible apply keeps_mk

theorem handler_hConstField : HandlerKeeps hConstField := by
  constructor <;> intro s t h <;> unfold hConstField <;>
  repeat' first
    | with_reducible first
        | assumption | apply HandlerKeeps.chg handler_plain | apply HandlerKeeps.act handler_plain
        | apply HandlerKeeps.post handler_plain
    | intro _ | dsimp only | split | exact h | with_reducible apply keeps_mk

theorem handler_hConstArea : HandlerKeeps hConstArea := by
  constructor <;> intro s t h <;> unfold hConstArea <;>
  repeat' first
    | with_reducible first
        | assumption | apply HandlerKeeps.chg handler_plain | apply HandlerKeeps.act handler_plain
        | apply HandlerKeeps.post handler_plain
    | intro _ | dsimp only | split | exact h | with_reducible apply keeps_mk

theorem handler_hCodePolicy : HandlerKeeps hCodePolicy := by
  constructor <;> intro s t h <;> unfold hCodePolicy <;>
  repeat' first
    | with_reducible first
        | assumption | apply HandlerKeeps.chg handler_plain | apply HandlerKeeps.act handler_plain
        | apply HandlerKeeps.post handler_plain | apply keeps_atBoundary
    | intro _ | dsimp only | split | exact h | with_reducible apply keeps_mk

theorem keeps_slotFails (h : Keeps s t) (a1 a2 : Nat) : Keeps s (State.slotFails t a1 a2) := by
  unfold State.slotFails
  repeat' first
    | with_reducible first
        | assumption | apply keeps_failSlot | apply keeps_endLoad | apply keeps_ite
    | intro _ | dsimp only | split | with_reducible apply keeps_mk

theorem keeps_setCall (h : Keeps s t) (a1 : HookCall) (a2 : Option HookCall) : Keeps s (State.setCall t a1 a2) := by
  unfold State.setCall
  repeat' first
    | with_reducible first
        | assumption | apply keeps_setGear
    | intro _ | dsimp only | split | with_reducible apply keeps_mk

theorem keeps_deliver (h : Keeps s t) (a1 : HookCall) (a2 : Bool) (a3 : List Byte) : Keeps s (State.deliver t a1 a2 a3) := by
  unfold State.deliver
  repeat' first
    | with_reducible first
        | assumption | apply keeps_nextFree | apply keeps_hashNext | apply keeps_setCall | apply keeps_updPage | apply keeps_ite
    | intro _ | dsimp only | split | with_reducible apply keeps_mk

theorem keeps_execHookResponse (h : Keeps s t) (a0 a1 a2 : Nat) (a3 : Bool) (a4 : List Byte) :
    Answers s (execHookResponse a0 a1 a2 a3 a4 t) := by
  unfold execHookResponse
  repeat' first
    | with_reducible first
        | assumption | apply keeps_slotFails | apply keeps_deliver | apply answers_next
    | intro _ | dsimp only | split | with_reducible apply keeps_mk

theorem keeps_execHookLatencyTimeout (h : Keeps s t) (a0 a1 a2 : Nat) : Answers s (execHookLatencyTimeout a0 a1 a2 t) := by
  unfold execHookLatencyTimeout
  repeat' first
    | with_reducible first
        | assumption | apply keeps_slotFails | apply answers_next
    | intro _ | dsimp only | split | with_reducible apply keeps_mk

theorem keeps_execSlotFaultAssert (h : Keeps s t) (a0 : Nat) : Answers s (execSlotFaultAssert a0 t) := by
  unfold execSlotFaultAssert
  repeat' first
    | with_reducible first
        | assumption | apply keeps_slotFails | apply answers_next
    | intro _ | dsimp only | split | with_reducible apply keeps_mk

theorem handler_hSlotWindow : HandlerKeeps hSlotWindow := by
  constructor <;> intro s t h <;> unfold hSlotWindow <;>
  repeat' first
    | with_reducible first
        | assumption | apply HandlerKeeps.chg handler_plain | apply HandlerKeeps.act handler_plain
        | apply HandlerKeeps.post handler_plain
    | intro _ | dsimp only | split | exact h | with_reducible apply keeps_mk

theorem keeps_windowRead (h : Keeps s t) (a1 : Nat) (a2 : Word) : Keeps s (State.windowRead t a1 a2) := by
  unfold State.windowRead
  repeat' first
    | with_reducible first
        | assumption | apply keeps_illegal | apply keeps_emit | apply keeps_ite
    | intro _ | dsimp only | split | with_reducible apply keeps_mk

theorem keeps_execSlotWindow (h : Keeps s t) (a0 : Nat) (a1 : Option Word) (a2 : Word) :
    Answers s (execSlotWindow a0 a1 a2 t) := by
  unfold execSlotWindow
  repeat' first
    | with_reducible first
        | assumption | apply keeps_windowRead | apply handler_hSlotWindow | apply keeps_bar0 | apply answers_next
    | intro _ | dsimp only | split | with_reducible apply keeps_mk

theorem keeps_execWindowTimeout (h : Keeps s t) (a0 : Nat) : Answers s (execWindowTimeout a0 t) := by
  unfold execWindowTimeout
  repeat' first
    | with_reducible first
        | assumption | apply keeps_windowRead | apply keeps_sat | apply answers_next
    | intro _ | dsimp only | split | with_reducible apply keeps_mk

theorem keeps_execCfgRdReq (h : Keeps s t) (a0 a1 : Nat) : Answers s (execCfgRdReq a0 a1 t) := by
  unfold execCfgRdReq
  repeat' first
    | with_reducible first
        | assumption | apply keeps_emit | apply keeps_setGear | apply answers_next | apply keeps_ite
    | intro _ | dsimp only | split | with_reducible apply keeps_mk

theorem keeps_execCfgReadbackDone (h : Keeps s t) (a0 : Bool) : Answers s (execCfgReadbackDone a0 t) := by
  unfold execCfgReadbackDone
  repeat' first
    | with_reducible first
        | assumption | apply keeps_emit | apply keeps_nextFree | apply keeps_setGear | apply keeps_slotFails | apply opt_map
        | apply opt_map_val | apply keeps_getD | apply answers_next | apply keeps_ite
    | intro _ | dsimp only | split | with_reducible apply keeps_mk

theorem keeps_loadFails (h : Keeps s t) (a1 : Nat) : Keeps s (State.loadFails t a1) := by
  unfold State.loadFails
  repeat' first
    | with_reducible first
        | assumption | apply keeps_endLoad | apply keeps_setSlotState | apply keeps_zeroBlocks
    | intro _ | dsimp only | split | with_reducible apply keeps_mk

theorem keeps_execSlotConfigDone (h : Keeps s t) (a0 : Nat) (a1 : Bool) : Answers s (execSlotConfigDone a0 a1 t) := by
  unfold execSlotConfigDone
  repeat' first
    | with_reducible first
        | assumption | apply keeps_nextFree | apply keeps_loadFails | apply keeps_setGear | apply keeps_setSlotState
        | apply answers_next | apply keeps_ite
    | intro _ | dsimp only | split | with_reducible apply keeps_mk

theorem keeps_execSlotReady (h : Keeps s t) (a0 : Nat) (a1 : List Word) : Answers s (execSlotReady a0 a1 t) := by
  unfold execSlotReady
  repeat' first
    | with_reducible first
        | assumption | apply keeps_endLoad | apply keeps_slotAtBoundary | apply keeps_setSlotState | apply keeps_loadFails
        | apply keeps_setIdent | apply answers_next
    | intro _ | dsimp only | split | with_reducible apply keeps_mk

theorem keeps_execSlotReadyTimeout (h : Keeps s t) (a0 : Nat) : Answers s (execSlotReadyTimeout a0 t) := by
  unfold execSlotReadyTimeout
  repeat' first
    | with_reducible first
        | assumption | apply keeps_loadFails | apply answers_next
    | intro _ | dsimp only | split | with_reducible apply keeps_mk

theorem keeps_turnSlot (h : Keeps s t) (a1 a2 : Nat) : Keeps s (State.turnSlot t a1 a2) := by
  unfold State.turnSlot
  repeat' first
    | with_reducible first
        | assumption | apply keeps_failSlot | apply keeps_endLoad | apply keeps_slotAtBoundary | apply keeps_setSlotState
        | apply keeps_clearSlot | apply keeps_ite
    | intro _ | dsimp only | split | with_reducible apply keeps_mk

theorem keeps_turnSlots (h : Keeps s t) : Keeps s (State.turnSlots t) := by
  unfold State.turnSlots
  repeat' first
    | with_reducible first
        | assumption | apply keeps_turnSlot | apply keeps_foldl | apply keeps_foldl_fst
    | intro _ | dsimp only | split | with_reducible apply keeps_mk

theorem handler_hSlotCtrl : HandlerKeeps hSlotCtrl := by
  constructor <;> intro s t h <;> unfold hSlotCtrl <;>
  repeat' first
    | with_reducible first
        | assumption | apply HandlerKeeps.chg handler_plain | apply HandlerKeeps.act handler_plain
        | apply HandlerKeeps.post handler_plain | apply keeps_slotAtBoundary | apply keeps_ite
    | intro _ | dsimp only | split | exact h | with_reducible apply keeps_mk

theorem keeps_execUnloadCmd (h : Keeps s t) : Answers s (execUnloadCmd t) := by
  unfold execUnloadCmd
  repeat' first
    | with_reducible first
        | assumption | apply handler_hSlotCtrl | apply keeps_bar0Bit | apply answers_next
    | intro _ | dsimp only | split | with_reducible apply keeps_mk

theorem handler_hTenantBind : HandlerKeeps hTenantBind := by
  constructor <;> intro s t h <;> unfold hTenantBind <;>
  repeat' first
    | with_reducible first
        | assumption | apply HandlerKeeps.chg handler_plain | apply HandlerKeeps.act handler_plain
        | apply HandlerKeeps.post handler_plain | apply keeps_atBoundary
    | intro _ | dsimp only | split | exact h | with_reducible apply keeps_mk

theorem keeps_execTenantBind (h : Keeps s t) (a0 : Word) : Answers s (execTenantBind a0 t) := by
  unfold execTenantBind
  repeat' first
    | with_reducible first
        | assumption | apply keeps_bar0 | apply handler_hTenantBind | apply answers_next
    | intro _ | dsimp only | split | with_reducible apply keeps_mk

theorem handler_hScoreBurst : HandlerKeeps hScoreBurst := by
  constructor <;> intro s t h <;> unfold hScoreBurst <;>
  repeat' first
    | with_reducible first
        | assumption | apply HandlerKeeps.chg handler_plain | apply HandlerKeeps.act handler_plain
        | apply HandlerKeeps.post handler_plain
    | intro _ | dsimp only | split | exact h | with_reducible apply keeps_mk

theorem keeps_payOwed (h : Keeps s t) (a1 : Nat) : Keeps s (State.payOwed t a1) := by
  unfold State.payOwed
  repeat' first
    | with_reducible first
        | assumption | apply keeps_acknowledge | apply keeps_setHop | apply opt_map | apply opt_map_val | apply keeps_getD
        | apply keeps_ite | apply keeps_foldl | apply keeps_foldl_fst
    | intro _ | dsimp only | split | with_reducible apply keeps_mk

end Sys2Proof.Machine
end

