-- ==== Sys2Proof/Laws/KeepsNet.lean ====
section
/-! SUPPORT. Every operation keeps the queue, the canonical stores, the Stroke bound and what was sent: reshards, remote access. -/

namespace Sys2Proof.Machine

variable {s t : State}

theorem keeps_setPlan (h : Keeps s t) (a1 : EpochPlan) : Keeps s (State.setPlan t a1) := by
  unfold State.setPlan
  repeat' first
    | with_reducible first
        | assumption | apply keeps_setChain
    | intro _ | dsimp only | split | with_reducible apply keeps_mk

theorem keeps_answerTo (h : Keeps s t) (a1 a2 a3 : Nat) (a4 : List Byte) : Keeps s (State.answerTo t a1 a2 a3 a4) := by
  unfold State.answerTo
  repeat' first
    | with_reducible first
        | assumption | apply keeps_answer
    | intro _ | dsimp only | split | with_reducible apply keeps_mk

theorem keeps_openTargets (h : Keeps s t) (a1 : Work) (a2 : Seq) : Keeps s (State.openTargets t a1 a2) := by
  unfold State.openTargets
  repeat' first
    | with_reducible first
        | assumption | apply keeps_openTxn | apply keeps_updWork | apply keeps_foldl | apply keeps_foldl_fst
    | intro _ | dsimp only | split | refine keeps_fst (by assumption) ?_ | with_reducible apply keeps_mk

theorem keeps_admitSend (h : Keeps s t) (a1 : Nat) : Keeps s (State.admitSend t a1) := by
  unfold State.admitSend
  repeat' first
    | with_reducible first
        | assumption | apply keeps_admitWith | apply keeps_latch | apply keeps_openTargets | apply keeps_ite
    | intro _ | dsimp only | split | with_reducible apply keeps_mk

theorem keeps_sendPage (h : Keeps s t) (a1 : Work) (a2 : Seq) (a3 a4 a5 a6 : Nat) (a7 : Page) :
    Keeps s (State.sendPage t a1 a2 a3 a4 a5 a6 a7).1 := by
  unfold State.sendPage
  repeat' first
    | with_reducible first
        | assumption | apply keeps_openTxn | apply keeps_setChain | apply keeps_setPlan | apply keeps_updWork
    | intro _ | dsimp only | split | refine keeps_fst (by assumption) ?_ | with_reducible apply keeps_mk

theorem keeps_decReshard (h : Keeps s t) (a1 : Work) : DecKeeps s (State.decReshard t a1) := by
  unfold State.decReshard
  repeat' first
    | with_reducible first
        | assumption | apply keeps_draw | apply keeps_flagWork | apply keeps_lose | apply keeps_loseCoded | apply keeps_resolve
        | apply keeps_sendPage | apply opt_map | apply opt_map_val | apply keeps_getD | apply dec_ite | exact DecKeeps.wait
        | exact DecKeeps.noFrame | apply DecKeeps.hookWait | apply DecKeeps.stop | apply DecKeeps.pass | apply DecKeeps.go
        | apply keeps_ite
    | intro _ | dsimp only | split | refine keeps_fst (by assumption) ?_ | refine dec_of_hookWait (by assumption) ?_
    | refine dec_of_stop (by assumption) ?_ | refine dec_of_pass (by assumption) ?_ | refine dec_of_go (by assumption) ?_
    | with_reducible apply keeps_mk

theorem keeps_settleReshard (h : Keeps s t) (a1 : Nat) : Keeps s (State.settleReshard t a1) := by
  unfold State.settleReshard
  repeat' first
    | with_reducible first
        | assumption | apply keeps_latchEnd | apply keeps_ite
    | intro _ | dsimp only | split | with_reducible apply keeps_mk

theorem keeps_endSend (h : Keeps s t) (a1 : Work) (a2 : Run) : Keeps s (State.endSend t a1 a2) := by
  unfold State.endSend
  repeat' first
    | with_reducible first
        | assumption | apply keeps_updWork | apply keeps_ite
    | intro _ | dsimp only | split | with_reducible apply keeps_mk

theorem keeps_forget (h : Keeps s t) (a1 : Nat) (a2 : Nat × Nat × Nat → Bool) : Keeps s (State.forget t a1 a2) := by
  unfold State.forget
  repeat' first
    | with_reducible first
        | assumption | apply keeps_updWork | apply keeps_setChain
    | intro _ | dsimp only | split | with_reducible apply keeps_mk

theorem keeps_sendLost (h : Keeps s t) (a1 a2 : Nat) : Keeps s (State.sendLost t a1 a2) := by
  unfold State.sendLost
  repeat' first
    | with_reducible first
        | assumption | apply keeps_forget | apply keeps_setChain | apply keeps_settleReshard | apply keeps_updWork
    | intro _ | dsimp only | split | with_reducible apply keeps_mk

theorem keeps_memberLostSends (h : Keeps s t) (a1 : Nat) : Keeps s (State.memberLostSends t a1) := by
  unfold State.memberLostSends
  repeat' first
    | with_reducible first
        | assumption | apply keeps_sameCycle | apply keeps_sendLost | apply keeps_foldl | apply keeps_foldl_fst
    | intro _ | dsimp only | split | with_reducible apply keeps_mk

theorem keeps_takeOpenAnswer (h : Keeps s t) (a1 a2 : Nat) : Keeps s (State.takeOpenAnswer t a1 a2) := by
  unfold State.takeOpenAnswer
  repeat' first
    | with_reducible first
        | assumption | apply keeps_updWork | apply keeps_latch | apply keeps_setChain | apply keeps_endTxn | apply keeps_ite
    | intro _ | dsimp only | split | with_reducible apply keeps_mk

theorem keeps_execReshardAnswer (h : Keeps s t) (a0 : Nat) (a1 : Frame) : Answers s (execReshardAnswer a0 a1 t) := by
  unfold execReshardAnswer
  repeat' first
    | with_reducible first
        | assumption | apply keeps_takeOpenAnswer | apply keeps_receive | apply answers_next
    | intro _ | dsimp only | split | with_reducible apply keeps_mk

theorem keeps_takePlaced (h : Keeps s t) (a1 : Nat) : Keeps s (State.takePlaced t a1) := by
  unfold State.takePlaced
  repeat' first
    | with_reducible first
        | assumption | apply keeps_updWork | apply keeps_settleReshard | apply keeps_endTxn | apply keeps_ite
    | intro _ | dsimp only | split | with_reducible apply keeps_mk

theorem keeps_execPlaced (h : Keeps s t) (a0 : Nat) (a1 : Frame) : Answers s (execPlaced a0 a1 t) := by
  unfold execPlaced
  repeat' first
    | with_reducible first
        | assumption | apply keeps_receive | apply keeps_takePlaced | apply answers_next
    | intro _ | dsimp only | split | with_reducible apply keeps_mk

theorem keeps_takeOpen (h : Keeps s t) (a1 : Frame) : Keeps s (State.takeOpen t a1) := by
  unfold State.takeOpen
  repeat' first
    | with_reducible first
        | assumption | apply keeps_answer | apply keeps_once | apply keeps_setPlan | apply keeps_getD
    | intro _ | dsimp only | split | with_reducible apply keeps_mk

theorem keeps_execReshardOpen (h : Keeps s t) (a0 : Nat) (a1 : Frame) : Answers s (execReshardOpen a0 a1 t) := by
  unfold execReshardOpen
  repeat' first
    | with_reducible first
        | assumption | apply keeps_receive | apply keeps_takeOpen | apply answers_next
    | intro _ | dsimp only | split | with_reducible apply keeps_mk

theorem keeps_stagePage (h : Keeps s t) (a1 : Frame) (a2 : Nat) (a3 : List Byte) : Keeps s (State.stagePage t a1 a2 a3) := by
  unfold State.stagePage
  repeat' first
    | with_reducible first
        | assumption | apply keeps_nextFree | apply keeps_addTables | apply keeps_answer | apply keeps_setChain | apply opt_none
        | apply opt_some | apply opt_map | apply opt_map_val | apply opt_bind | apply keeps_getD | apply keeps_ite
    | intro _ | dsimp only | split | refine opt_of (by assumption) ?_ | with_reducible apply keeps_mk

theorem keeps_takeSeg (h : Keeps s t) (a1 : Frame) : Keeps s (State.takeSeg t a1) := by
  unfold State.takeSeg
  repeat' first
    | with_reducible first
        | assumption | apply keeps_stagePage | apply keeps_once | apply keeps_setChain | apply keeps_getD | apply keeps_ite
    | intro _ | dsimp only | split | with_reducible apply keeps_mk

theorem keeps_execPageSeg (h : Keeps s t) (a0 : Nat) (a1 : Frame) : Answers s (execPageSeg a0 a1 t) := by
  unfold execPageSeg
  repeat' first
    | with_reducible first
        | assumption | apply keeps_receive | apply keeps_takeSeg | apply answers_next
    | intro _ | dsimp only | split | with_reducible apply keeps_mk

theorem keeps_placeStaged (h : Keeps s t) (a1 : StagedPage) : Keeps s (State.placeStaged t a1) := by
  unfold State.placeStaged
  repeat' first
    | with_reducible first
        | assumption | apply keeps_gcPage | apply keeps_newPage | apply keeps_setLeaf | apply keeps_updPage | apply opt_map
        | apply opt_map_val | apply keeps_getD
    | intro _ | dsimp only | split | refine keeps_fst (by assumption) ?_ | with_reducible apply keeps_mk

theorem keeps_switchEpoch (h : Keeps s t) (a1 a2 : Nat) : Keeps s (State.switchEpoch t a1 a2) := by
  unfold State.switchEpoch
  repeat' first
    | with_reducible first
        | assumption | apply keeps_nextFree | apply keeps_dropLeaf | apply keeps_logKv | apply keeps_placeStaged
        | apply keeps_put | apply keeps_setChain | apply keeps_setSeq | apply keeps_ite | apply keeps_foldl
        | apply keeps_foldl_fst
    | intro _ | dsimp only | split | with_reducible apply keeps_mk

theorem keeps_dueSwitches (h : Keeps s t) : Keeps s (State.dueSwitches t) := by
  unfold State.dueSwitches
  repeat' first
    | with_reducible first
        | assumption | apply keeps_switchEpoch | apply keeps_foldl | apply keeps_foldl_fst
    | intro _ | dsimp only | split | with_reducible apply keeps_mk

theorem keeps_countReady (h : Keeps s t) (a1 a2 : Nat) : Keeps s (State.countReady t a1 a2) := by
  unfold State.countReady
  repeat' first
    | with_reducible first
        | assumption | apply keeps_updWork
    | intro _ | dsimp only | split | with_reducible apply keeps_mk

theorem keeps_sendReadies (h : Keeps s t) (a1 : Nat) : Keeps s (State.sendReadies t a1) := by
  unfold State.sendReadies
  repeat' first
    | with_reducible first
        | assumption | apply keeps_countReady | apply keeps_setPlan | apply keeps_answerTo | apply keeps_foldl
        | apply keeps_foldl_fst
    | intro _ | dsimp only | split | with_reducible apply keeps_mk

theorem keeps_execEpochReadySend (h : Keeps s t) (a0 : Nat) : Answers s (execEpochReadySend a0 t) := by
  unfold execEpochReadySend
  repeat' first
    | with_reducible first
        | assumption | apply keeps_sendReadies | apply answers_next
    | intro _ | dsimp only | split | with_reducible apply keeps_mk

theorem keeps_takePrepare (h : Keeps s t) (a1 : Frame) : Keeps s (State.takePrepare t a1) := by
  unfold State.takePrepare
  repeat' first
    | with_reducible first
        | assumption | apply keeps_once | apply keeps_setPlan | apply keeps_sendReadies | apply keeps_noteXid | apply keeps_ite
    | intro _ | dsimp only | split | with_reducible apply keeps_mk

theorem keeps_execEpochPrepare (h : Keeps s t) (a0 : Nat) (a1 : Frame) : Answers s (execEpochPrepare a0 a1 t) := by
  unfold execEpochPrepare
  repeat' first
    | with_reducible first
        | assumption | apply keeps_receive | apply keeps_takePrepare | apply answers_next
    | intro _ | dsimp only | split | with_reducible apply keeps_mk

theorem keeps_admitAdvance (h : Keeps s t) (a1 : Nat) : Keeps s (State.admitAdvance t a1) := by
  unfold State.admitAdvance
  repeat' first
    | with_reducible first
        | assumption | apply keeps_admitWith | apply keeps_setPlan | apply keeps_sendReadies | apply keeps_updWork
        | apply keeps_latch | apply keeps_openTxn | apply keeps_ite | apply keeps_foldl | apply keeps_foldl_fst
    | intro _ | dsimp only | split | refine keeps_fst (by assumption) ?_ | with_reducible apply keeps_mk

theorem keeps_admitReshard (h : Keeps s t) (a1 : Nat) : Keeps s (State.admitReshard t a1) := by
  unfold State.admitReshard
  repeat' first
    | with_reducible first
        | assumption | apply keeps_admitSend | apply keeps_admitAdvance | apply keeps_ite
    | intro _ | dsimp only | split | with_reducible apply keeps_mk

theorem keeps_execReshardMove (h : Keeps s t) (a0 : Desc) : Answers s (execReshardMove a0 t) := by
  unfold execReshardMove
  repeat' first
    | with_reducible first
        | assumption | apply keeps_rowAdmit | apply keeps_admitReshard | apply answers_next
    | intro _ | dsimp only | split | with_reducible apply keeps_mk

theorem keeps_execReshardCopy (h : Keeps s t) (a0 : Desc) : Answers s (execReshardCopy a0 t) := by
  unfold execReshardCopy
  repeat' first
    | with_reducible first
        | assumption | apply keeps_rowAdmit | apply keeps_admitReshard | apply answers_next
    | intro _ | dsimp only | split | with_reducible apply keeps_mk

theorem keeps_execAdvance (h : Keeps s t) (a0 : Desc) : Answers s (execAdvance a0 t) := by
  unfold execAdvance
  repeat' first
    | with_reducible first
        | assumption | apply keeps_rowAdmit | apply keeps_admitReshard | apply answers_next
    | intro _ | dsimp only | split | with_reducible apply keeps_mk

theorem keeps_takeReady (h : Keeps s t) (a1 : Frame) : Keeps s (State.takeReady t a1) := by
  unfold State.takeReady
  repeat' first
    | with_reducible first
        | assumption | apply keeps_countReady | apply keeps_endTxn | apply keeps_ite
    | intro _ | dsimp only | split | with_reducible apply keeps_mk

theorem keeps_execEpochReady (h : Keeps s t) (a0 : Nat) (a1 : Frame) : Answers s (execEpochReady a0 a1 t) := by
  unfold execEpochReady
  repeat' first
    | with_reducible first
        | assumption | apply keeps_receive | apply keeps_takeReady | apply answers_next
    | intro _ | dsimp only | split | with_reducible apply keeps_mk

theorem keeps_recordCommit (h : Keeps s t) (a1 a2 : Nat) : Keeps s (State.recordCommit t a1 a2).1 := by
  unfold State.recordCommit
  repeat' first
    | with_reducible first
        | assumption | apply keeps_setPlan | apply keeps_sat | apply keeps_ite
    | intro _ | dsimp only | split | with_reducible apply keeps_mk

theorem keeps_takeCommit (h : Keeps s t) (a1 : Frame) : Keeps s (State.takeCommit t a1) := by
  unfold State.takeCommit
  repeat' first
    | with_reducible first
        | assumption | apply keeps_recordCommit | apply keeps_answer | apply keeps_once
    | intro _ | dsimp only | split | refine keeps_fst (by assumption) ?_ | with_reducible apply keeps_mk

theorem keeps_execEpochCommit (h : Keeps s t) (a0 : Nat) (a1 : Frame) : Answers s (execEpochCommit a0 a1 t) := by
  unfold execEpochCommit
  repeat' first
    | with_reducible first
        | assumption | apply keeps_receive | apply keeps_takeCommit | apply answers_next
    | intro _ | dsimp only | split | with_reducible apply keeps_mk

theorem keeps_sendCommits (h : Keeps s t) (a1 : Work) : Keeps s (State.sendCommits t a1) := by
  unfold State.sendCommits
  repeat' first
    | with_reducible first
        | assumption | apply keeps_openTxn | apply keeps_recordCommit | apply keeps_updWork | apply keeps_foldl
        | apply keeps_foldl_fst
    | intro _ | dsimp only | split | refine keeps_fst (by assumption) ?_ | with_reducible apply keeps_mk

theorem keeps_advanceTurn (h : Keeps s t) (a1 : Work) (a2 : Nat) : Keeps s (State.advanceTurn t a1 a2) := by
  unfold State.advanceTurn
  repeat' first
    | with_reducible first
        | assumption | apply keeps_latch | apply keeps_sendCommits | apply keeps_setChain | apply keeps_ite
    | intro _ | dsimp only | split | with_reducible apply keeps_mk

theorem keeps_execAdvanceReadyDeadline (h : Keeps s t) (a0 : Nat) : Answers s (execAdvanceReadyDeadline a0 t) := by
  unfold execAdvanceReadyDeadline
  repeat' first
    | with_reducible first
        | assumption | apply keeps_advanceTurn | apply answers_next
    | intro _ | dsimp only | split | with_reducible apply keeps_mk

theorem keeps_settleAdvance (h : Keeps s t) (a1 : Nat) : Keeps s (State.settleAdvance t a1) := by
  unfold State.settleAdvance
  repeat' first
    | with_reducible first
        | assumption | apply keeps_updWork | apply keeps_latch | apply keeps_getD | apply keeps_ite
    | intro _ | dsimp only | split | with_reducible apply keeps_mk

theorem keeps_advanceTurns (h : Keeps s t) : Keeps s (State.advanceTurns t) := by
  unfold State.advanceTurns
  repeat' first
    | with_reducible first
        | assumption | apply keeps_advanceTurn | apply keeps_foldl | apply keeps_foldl_fst
    | intro _ | dsimp only | split | with_reducible apply keeps_mk

theorem keeps_settleAdvances (h : Keeps s t) : Keeps s (State.settleAdvances t) := by
  unfold State.settleAdvances
  repeat' first
    | with_reducible first
        | assumption | apply keeps_settleAdvance | apply keeps_foldl | apply keeps_foldl_fst
    | intro _ | dsimp only | split | with_reducible apply keeps_mk

theorem keeps_countAck (h : Keeps s t) (a1 a2 a3 : Nat) : Keeps s (State.countAck t a1 a2 a3) := by
  unfold State.countAck
  repeat' first
    | with_reducible first
        | assumption | apply keeps_settleAdvance | apply keeps_updWork
    | intro _ | dsimp only | split | with_reducible apply keeps_mk

theorem keeps_takeCommitAck (h : Keeps s t) (a1 : Frame) : Keeps s (State.takeCommitAck t a1) := by
  unfold State.takeCommitAck
  repeat' first
    | with_reducible first
        | assumption | apply keeps_nextFree | apply keeps_countAck | apply keeps_endTxn | apply keeps_ite
    | intro _ | dsimp only | split | with_reducible apply keeps_mk

theorem keeps_execCommitAck (h : Keeps s t) (a0 : Nat) (a1 : Frame) : Answers s (execCommitAck a0 a1 t) := by
  unfold execCommitAck
  repeat' first
    | with_reducible first
        | assumption | apply keeps_receive | apply keeps_takeCommitAck | apply answers_next
    | intro _ | dsimp only | split | with_reducible apply keeps_mk

theorem keeps_sendPacket (h : Keeps s t) (a1 : Nat) (a2 : Packet) : Keeps s (State.sendPacket t a1 a2) := by
  unfold State.sendPacket
  repeat' first
    | with_reducible first
        | assumption | apply keeps_emit
    | intro _ | dsimp only | split | with_reducible apply keeps_mk

theorem keeps_sendFlush (h : Keeps s t) (a1 : Work) (a2 a3 : Nat) : Keeps s (State.sendFlush t a1 a2 a3) := by
  unfold State.sendFlush
  repeat' first
    | with_reducible first
        | assumption | apply keeps_updWork | apply keeps_sendPacket | apply keeps_setQp
    | intro _ | dsimp only | split | with_reducible apply keeps_mk

theorem keeps_flushDeliver (h : Keeps s t) (a1 a2 : Nat) : Keeps s (State.flushDeliver t a1 a2) := by
  induction a2 generalizing t with
  | zero =>
    unfold State.flushDeliver
    repeat' first
      | with_reducible first
          | assumption | apply keeps_sendFlush | apply keeps_ite
      | intro _ | dsimp only | split | with_reducible apply keeps_mk
  | succ n ih =>
    unfold State.flushDeliver
    repeat' first
      | with_reducible first
          | assumption | apply ih | apply keeps_sendFlush | apply keeps_ite
      | intro _ | dsimp only | split | with_reducible apply keeps_mk

theorem keeps_settleDeliver (h : Keeps s t) (a1 : Nat) : Keeps s (State.settleDeliver t a1) := by
  unfold State.settleDeliver
  repeat' first
    | with_reducible first
        | assumption | apply keeps_latchEnd | apply keeps_flushDeliver | apply keeps_ite
    | intro _ | dsimp only | split | with_reducible apply keeps_mk

theorem keeps_endMessage (h : Keeps s t) (a1 : Nat) (a2 : Run) : Keeps s (State.endMessage t a1 a2) := by
  unfold State.endMessage
  repeat' first
    | with_reducible first
        | assumption | apply keeps_dropRun | apply keeps_updWork | apply keeps_settleDeliver
    | intro _ | dsimp only | split | with_reducible apply keeps_mk

theorem keeps_endMessages (h : Keeps s t) (a1 : Nat) : Keeps s (State.endMessages t a1) := by
  unfold State.endMessages
  repeat' first
    | with_reducible first
        | assumption | apply keeps_endMessage | apply keeps_sameCycle | apply keeps_ite | apply keeps_foldl
        | apply keeps_foldl_fst
    | intro _ | dsimp only | split | with_reducible apply keeps_mk

theorem keeps_sayDrained (h : Keeps s t) (a1 : Nat) : Keeps s (State.sayDrained t a1) := by
  unfold State.sayDrained
  repeat' first
    | with_reducible first
        | assumption | apply keeps_rdmaEvent | apply keeps_setQp | apply keeps_ite
    | intro _ | dsimp only | split | with_reducible apply keeps_mk

theorem keeps_enterErr (h : Keeps s t) (a1 a2 : Nat) : Keeps s (State.enterErr t a1 a2) := by
  unfold State.enterErr
  repeat' first
    | with_reducible first
        | assumption | apply keeps_latch | apply keeps_markErr | apply keeps_sameCycle | apply keeps_updWork | apply keeps_ite
        | apply keeps_foldl | apply keeps_foldl_fst
    | intro _ | dsimp only | split | with_reducible apply keeps_mk

theorem keeps_cutErr (h : Keeps s t) : Keeps s (State.cutErr t) := by
  unfold State.cutErr
  repeat' first
    | with_reducible first
        | assumption | apply keeps_dropRun | apply keeps_setQp | apply keeps_settleDeliver | apply keeps_foldl
        | apply keeps_foldl_fst
    | intro _ | dsimp only | split | with_reducible apply keeps_mk

theorem keeps_qpToReset (h : Keeps s t) (a1 : Nat) : Keeps s (State.qpToReset t a1) := by
  unfold State.qpToReset
  refine keeps_mk2 (keeps_sameCycle (keeps_foldl (keeps_enterErr h _ _) fun u x hu => ?_) _) (spWf_filter _ _ _) id
  exact keeps_settleDeliver (keeps_foldl hu fun v y hv => keeps_dropRun hv _ _) _

theorem keeps_qpMove (h : Keeps s t) (a1 a2 : Nat) : Keeps s (State.qpMove t a1 a2) := by
  unfold State.qpMove
  repeat' first
    | with_reducible first
        | assumption | apply keeps_qpToReset | apply keeps_enterErr | apply keeps_put | apply keeps_setQp | apply keeps_sayDrained
        | apply keeps_ite
    | intro _ | dsimp only | split | with_reducible apply keeps_mk

theorem handler_hQpCtrl : HandlerKeeps hQpCtrl := by
  constructor <;> intro s t h <;> unfold hQpCtrl <;>
  repeat' first
    | with_reducible first
        | assumption | apply HandlerKeeps.chg handler_plain | apply HandlerKeeps.act handler_plain
        | apply HandlerKeeps.post handler_plain | apply keeps_atBoundary | apply keeps_qpMove
    | intro _ | dsimp only | split | exact h | with_reducible apply keeps_mk

theorem keeps_writeQpCtrl (h : Keeps s t) (a1 : Nat) : Keeps s (State.writeQpCtrl t a1) := by
  unfold State.writeQpCtrl
  repeat' first
    | with_reducible first
        | assumption | apply handler_hQpCtrl | apply keeps_bar0
    | intro _ | dsimp only | split | with_reducible apply keeps_mk

theorem keeps_execQpReset (h : Keeps s t) : Answers s (execQpReset t) := by
  unfold execQpReset
  repeat' first
    | with_reducible first
        | assumption | apply keeps_writeQpCtrl | apply answers_next
    | intro _ | dsimp only | split | with_reducible apply keeps_mk

theorem keeps_execQpInit (h : Keeps s t) : Answers s (execQpInit t) := by
  unfold execQpInit
  repeat' first
    | with_reducible first
        | assumption | apply keeps_writeQpCtrl | apply answers_next
    | intro _ | dsimp only | split | with_reducible apply keeps_mk

theorem keeps_execQpRtr (h : Keeps s t) : Answers s (execQpRtr t) := by
  unfold execQpRtr
  repeat' first
    | with_reducible first
        | assumption | apply keeps_writeQpCtrl | apply answers_next
    | intro _ | dsimp only | split | with_reducible apply keeps_mk

theorem keeps_execQpRts (h : Keeps s t) : Answers s (execQpRts t) := by
  unfold execQpRts
  repeat' first
    | with_reducible first
        | assumption | apply keeps_writeQpCtrl | apply answers_next
    | intro _ | dsimp only | split | with_reducible apply keeps_mk

theorem keeps_execQpSqd (h : Keeps s t) : Answers s (execQpSqd t) := by
  unfold execQpSqd
  repeat' first
    | with_reducible first
        | assumption | apply keeps_writeQpCtrl | apply answers_next
    | intro _ | dsimp only | split | with_reducible apply keeps_mk

theorem keeps_execQpErr (h : Keeps s t) : Answers s (execQpErr t) := by
  unfold execQpErr
  repeat' first
    | with_reducible first
        | assumption | apply keeps_writeQpCtrl | apply answers_next
    | intro _ | dsimp only | split | with_reducible apply keeps_mk

theorem handler_hQpField (a0 : Nat) (a1 : Option Nat) : HandlerKeeps (hQpField a0 a1) := by
  constructor <;> intro s t h <;> unfold hQpField <;>
  repeat' first
    | with_reducible first
        | assumption | apply HandlerKeeps.chg handler_plain | apply HandlerKeeps.act handler_plain
        | apply HandlerKeeps.post handler_plain | apply keeps_setQp | apply keeps_ite
    | intro _ | dsimp only | split | exact h | with_reducible apply keeps_mk

theorem handler_hPdCtrl : HandlerKeeps hPdCtrl := by
  constructor <;> intro s t h <;> unfold hPdCtrl <;>
  repeat' first
    | with_reducible first
        | assumption | apply HandlerKeeps.chg handler_plain | apply HandlerKeeps.act handler_plain
        | apply HandlerKeeps.post handler_plain
    | intro _ | dsimp only | split | exact h | with_reducible apply keeps_mk

theorem keeps_readEntry (h : Keeps s t) (a1 : Nat) : Keeps s (State.readEntry t a1) := by
  unfold State.readEntry
  repeat' first
    | with_reducible first
        | assumption | apply keeps_setLive | apply keeps_foldl | apply keeps_foldl_fst
    | intro _ | dsimp only | split | with_reducible apply keeps_mk

theorem handler_hRegionCtrl : HandlerKeeps hRegionCtrl := by
  constructor <;> intro s t h <;> unfold hRegionCtrl <;>
  repeat' first
    | with_reducible first
        | assumption | apply HandlerKeeps.chg handler_plain | apply HandlerKeeps.act handler_plain
        | apply HandlerKeeps.post handler_plain | apply keeps_atBoundary | apply keeps_readEntry | apply keeps_ite
    | intro _ | dsimp only | split | exact h | with_reducible apply keeps_mk

theorem keeps_execCommitCmd (h : Keeps s t) : Answers s (execCommitCmd t) := by
  unfold execCommitCmd
  repeat' first
    | with_reducible first
        | assumption | apply handler_hRegionCtrl | apply keeps_bar0 | apply answers_next
    | intro _ | dsimp only | split | with_reducible apply keeps_mk

theorem keeps_execRegionRelease (h : Keeps s t) : Answers s (execRegionRelease t) := by
  unfold execRegionRelease
  repeat' first
    | with_reducible first
        | assumption | apply handler_hRegionCtrl | apply keeps_bar0 | apply answers_next
    | intro _ | dsimp only | split | with_reducible apply keeps_mk

theorem handler_hRegionField : HandlerKeeps hRegionField := by
  constructor <;> intro s t h <;> unfold hRegionField <;>
  repeat' first
    | with_reducible first
        | assumption | apply HandlerKeeps.chg handler_plain | apply HandlerKeeps.act handler_plain
        | apply HandlerKeeps.post handler_plain
    | intro _ | dsimp only | split | exact h | with_reducible apply keeps_mk

theorem keeps_freeRegions (h : Keeps s t) : Keeps s (State.freeRegions t) := by
  unfold State.freeRegions
  repeat' first
    | with_reducible first
        | assumption | apply keeps_rdmaEvent | apply keeps_put | apply keeps_foldl | apply keeps_foldl_fst
    | intro _ | dsimp only | split | with_reducible apply keeps_mk

theorem keeps_admitDeliver (h : Keeps s t) (a1 : Nat) : Keeps s (State.admitDeliver t a1) := by
  unfold State.admitDeliver
  repeat' first
    | with_reducible first
        | assumption | apply keeps_admitWith | apply keeps_updWork | apply keeps_latch | apply keeps_plan | apply keeps_enter
        | apply keeps_ite
    | intro _ | dsimp only | split | with_reducible apply keeps_mk

theorem keeps_execDeliver (h : Keeps s t) (a0 : Desc) : Answers s (execDeliver a0 t) := by
  unfold execDeliver
  repeat' first
    | with_reducible first
        | assumption | apply keeps_rowAdmit | apply keeps_admitDeliver | apply answers_next
    | intro _ | dsimp only | split | with_reducible apply keeps_mk

theorem keeps_countBytes (h : Keeps s t) (a1 a2 : Nat) : Keeps s (State.countBytes t a1 a2) := by
  unfold State.countBytes
  repeat' first
    | with_reducible first
        | assumption | apply keeps_setQp | apply keeps_ite | apply keeps_foldl | apply keeps_foldl_fst
    | intro _ | dsimp only | split | with_reducible apply keeps_mk

theorem keeps_sendData (h : Keeps s t) (a1 a2 a3 a4 a5 a6 a7 : Nat) (a8 : List Byte) :
    Keeps s (State.sendData t a1 a2 a3 a4 a5 a6 a7 a8) := by
  unfold State.sendData
  repeat' first
    | with_reducible first
        | assumption | apply keeps_countBytes | apply keeps_sendPacket | apply keeps_setQp | apply keeps_ite
    | intro _ | dsimp only | split | with_reducible apply keeps_mk

theorem keeps_sendMessage (h : Keeps s t) (a1 a2 a3 : Nat) (a4 : List Byte) : Keeps s (State.sendMessage t a1 a2 a3 a4).1 := by
  unfold State.sendMessage
  repeat' first
    | with_reducible first
        | assumption | apply keeps_sendData | apply keeps_setQp | apply keeps_foldl | apply keeps_foldl_fst
    | intro _ | dsimp only | split | with_reducible apply keeps_mk

theorem keeps_decDeliver (h : Keeps s t) (a1 : Work) : DecKeeps s (State.decDeliver t a1) := by
  unfold State.decDeliver
  repeat' first
    | with_reducible first
        | assumption | apply keeps_draw | apply keeps_flagWork | apply keeps_lose | apply keeps_loseCoded | apply keeps_resolve
        | apply keeps_sendMessage | apply dec_ite | exact DecKeeps.wait | exact DecKeeps.noFrame | apply DecKeeps.hookWait
        | apply DecKeeps.stop | apply DecKeeps.pass | apply DecKeeps.go | apply keeps_ite
    | intro _ | dsimp only | split | refine keeps_fst (by assumption) ?_ | refine dec_of_hookWait (by assumption) ?_
    | refine dec_of_stop (by assumption) ?_ | refine dec_of_pass (by assumption) ?_ | refine dec_of_go (by assumption) ?_
    | with_reducible apply keeps_mk

theorem keeps_packetFor (h : Keeps s t) (a1 : Nat) (a2 : Packet) : Keeps s (State.packetFor t a1 a2).1 := by
  unfold State.packetFor
  repeat' first
    | with_reducible first
        | assumption | apply keeps_sat | apply keeps_ite | apply keeps_ite_fst
    | intro _ | dsimp only | split | with_reducible apply keeps_mk

theorem keeps_established (h : Keeps s t) (a1 : Nat) : Keeps s (State.established t a1) := by
  unfold State.established
  repeat' first
    | with_reducible first
        | assumption | apply keeps_rdmaEvent | apply keeps_setQp | apply keeps_ite
    | intro _ | dsimp only | split | with_reducible apply keeps_mk

theorem keeps_ackTo (h : Keeps s t) (a1 a2 : Nat) : Keeps s (State.ackTo t a1 a2) := by
  unfold State.ackTo
  repeat' first
    | with_reducible first
        | assumption | apply keeps_setQp | apply keeps_sayDrained | apply keeps_endMessages | apply keeps_ite
    | intro _ | dsimp only | split | with_reducible apply keeps_mk

theorem keeps_sendAgain (h : Keeps s t) (a1 : Nat) (a2 : Packet) : Keeps s (State.sendAgain t a1 a2) := by
  unfold State.sendAgain
  repeat' first
    | with_reducible first
        | assumption | apply keeps_countBytes | apply keeps_sat | apply keeps_sendPacket
    | intro _ | dsimp only | split | with_reducible apply keeps_mk

theorem keeps_resendAll (h : Keeps s t) (a1 : Nat) : Keeps s (State.resendAll t a1) := by
  unfold State.resendAll
  repeat' first
    | with_reducible first
        | assumption | apply keeps_sendAgain | apply keeps_foldl | apply keeps_foldl_fst
    | intro _ | dsimp only | split | with_reducible apply keeps_mk

theorem keeps_respond (h : Keeps s t) (a1 a2 a3 a4 : Nat) : Keeps s (State.respond t a1 a2 a3 a4) := by
  unfold State.respond
  repeat' first
    | with_reducible first
        | assumption | apply keeps_sendPacket
    | intro _ | dsimp only | split | with_reducible apply keeps_mk

theorem keeps_sendCnp (h : Keeps s t) (a1 : Nat) : Keeps s (State.sendCnp t a1) := by
  unfold State.sendCnp
  repeat' first
    | with_reducible first
        | assumption | apply keeps_setQp | apply keeps_respond | apply keeps_sat | apply keeps_ite
    | intro _ | dsimp only | split | with_reducible apply keeps_mk

theorem keeps_noteCe (h : Keeps s t) (a1 : Nat) (a2 : Packet) : Keeps s (State.noteCe t a1 a2) := by
  unfold State.noteCe
  repeat' first
    | with_reducible first
        | assumption | apply keeps_sendCnp | apply keeps_ite
    | intro _ | dsimp only | split | with_reducible apply keeps_mk

theorem keeps_execRdmaAck (h : Keeps s t) (a0 : Nat) (a1 : Packet) : Answers s (execRdmaAck a0 a1 t) := by
  unfold execRdmaAck
  repeat' first
    | with_reducible first
        | assumption | apply keeps_ackTo | apply keeps_enterErr | apply keeps_noteCe | apply keeps_packetFor
        | apply keeps_resendAll | apply answers_next | apply keeps_ite
    | intro _ | dsimp only | split | refine keeps_fst (by assumption) ?_ | with_reducible apply keeps_mk

theorem keeps_execFlushResponse (h : Keeps s t) (a0 : Nat) (a1 : Packet) : Answers s (execFlushResponse a0 a1 t) := by
  unfold execFlushResponse
  repeat' first
    | with_reducible first
        | assumption | apply keeps_ackTo | apply keeps_deliver | apply keeps_enterErr | apply keeps_noteCe
        | apply keeps_packetFor | apply keeps_sayDrained | apply keeps_setQp | apply keeps_settleDeliver | apply keeps_updWork
        | apply answers_next | apply keeps_ite
    | intro _ | dsimp only | split | refine keeps_fst (by assumption) ?_ | with_reducible apply keeps_mk

theorem keeps_nakInvalid (h : Keeps s t) (a1 a2 : Nat) : Keeps s (State.nakInvalid t a1 a2) := by
  unfold State.nakInvalid
  repeat' first
    | with_reducible first
        | assumption | apply keeps_enterErr | apply keeps_respond
    | intro _ | dsimp only | split | with_reducible apply keeps_mk

theorem keeps_execSprayAck (h : Keeps s t) (a0 : Nat) (a1 : Packet) : Answers s (execSprayAck a0 a1 t) := by
  unfold execSprayAck
  repeat' first
    | with_reducible first
        | assumption | apply keeps_endMessages | apply keeps_nakInvalid | apply keeps_noteCe | apply keeps_packetFor
        | apply keeps_sayDrained | apply keeps_setQp | apply opt_map | apply opt_map_val | apply keeps_getD | apply answers_next
        | apply keeps_ite
    | intro _ | dsimp only | split | refine keeps_fst (by assumption) ?_ | with_reducible apply keeps_mk

theorem keeps_execAckTimeout (h : Keeps s t) (a0 : Nat) : Answers s (execAckTimeout a0 t) := by
  unfold execAckTimeout
  repeat' first
    | with_reducible first
        | assumption | apply keeps_enterErr | apply keeps_sendAgain | apply keeps_setQp | apply answers_next | apply keeps_ite
        | apply keeps_foldl | apply keeps_foldl_fst
    | intro _ | dsimp only | split | with_reducible apply keeps_mk

theorem keeps_execSprayTimeout (h : Keeps s t) (a0 a1 : Nat) : Answers s (execSprayTimeout a0 a1 t) := by
  unfold execSprayTimeout
  repeat' first
    | with_reducible first
        | assumption | apply keeps_enterErr | apply keeps_rdmaEvent | apply keeps_sendAgain | apply keeps_setQp | apply opt_map
        | apply opt_map_val | apply keeps_getD | apply answers_next | apply keeps_ite
    | intro _ | dsimp only | split | with_reducible apply keeps_mk

theorem keeps_execPathRestored (h : Keeps s t) (a0 a1 : Nat) : Answers s (execPathRestored a0 a1 t) := by
  unfold execPathRestored
  repeat' first
    | with_reducible first
        | assumption | apply keeps_rdmaEvent | apply keeps_setQp | apply answers_next
    | intro _ | dsimp only | split | with_reducible apply keeps_mk

theorem keeps_nakAccess (h : Keeps s t) (a1 : Nat) (a2 : Packet) (a3 : Nat) : Keeps s (State.nakAccess t a1 a2 a3) := by
  unfold State.nakAccess
  repeat' first
    | with_reducible first
        | assumption | apply keeps_rdmaEvent | apply keeps_enterErr | apply keeps_respond | apply keeps_sat
    | intro _ | dsimp only | split | with_reducible apply keeps_mk

theorem keeps_advance (h : Keeps s t) (a1 a2 : Nat) : Keeps s (State.advance t a1 a2) := by
  unfold State.advance
  repeat' first
    | with_reducible first
        | assumption | apply keeps_memWrite | apply keeps_ite
    | intro _ | dsimp only | split | with_reducible apply keeps_mk

theorem keeps_drainBuffers (h : Keeps s t) : Keeps s (State.drainBuffers t) := by
  unfold State.drainBuffers
  repeat' first
    | with_reducible first
        | assumption | apply keeps_nextFree | apply opt_map | apply opt_map_val | apply keeps_getD | apply keeps_ite
    | intro _ | dsimp only | split | with_reducible apply keeps_mk

theorem keeps_bufferIn (h : Keeps s t) (a1 a2 a3 : Nat) : Keeps s (State.bufferIn t a1 a2 a3).1 := by
  unfold State.bufferIn
  repeat' first
    | with_reducible first
        | assumption | apply keeps_emit | apply keeps_drainBuffers | apply keeps_sendCnp | apply opt_map | apply opt_map_val
        | apply keeps_getD | apply keeps_ite | apply keeps_ite_fst
    | intro _ | dsimp only | split | with_reducible apply keeps_mk

theorem keeps_inbound (h : Keeps s t) (a1 : Nat) (a2 : Packet) (a3 : List Nat) (a4 : Bool) (a5 : State → Nat → State) (ha5 : ∀ (u : State) x0, Keeps s u → Keeps s (a5 u x0)) :
    Keeps s (State.inbound t a1 a2 a3 a4 a5) := by
  unfold State.inbound
  repeat' first
    | with_reducible first
        | assumption | apply ha5 | apply keeps_bufferIn | apply keeps_nakInvalid | apply keeps_noteCe | apply keeps_packetFor
        | apply keeps_ite
    | intro _ | dsimp only | split | refine keeps_fst (by assumption) ?_ | with_reducible apply keeps_mk

theorem keeps_takeWrite (h : Keeps s t) (a1 : Nat) (a2 : Packet) : Keeps s (State.takeWrite t a1 a2) := by
  unfold State.takeWrite
  repeat' first
    | with_reducible first
        | assumption | apply keeps_memWrite | apply keeps_advance | apply keeps_established | apply keeps_nakAccess
        | apply keeps_nakInvalid | apply keeps_respond | apply keeps_setQp | apply opt_map | apply opt_map_val
        | apply keeps_getD | apply keeps_ite
    | intro _ | dsimp only | split | with_reducible apply keeps_mk

theorem keeps_inOrderPsn (h : Keeps s t) (a1 : Nat) (a2 : Packet) (a3 : State → State) (ha3 : ∀ (u : State), Keeps s u → Keeps s (a3 u)) :
    Keeps s (State.inOrderPsn t a1 a2 a3) := by
  unfold State.inOrderPsn
  repeat' first
    | with_reducible first
        | assumption | apply keeps_respond | apply ha3 | apply keeps_ite
    | intro _ | dsimp only | split | with_reducible apply keeps_mk

theorem keeps_execRdmaWrite (h : Keeps s t) (a0 : Nat) (a1 : Packet) : Answers s (execRdmaWrite a0 a1 t) := by
  unfold execRdmaWrite
  repeat' first
    | with_reducible first
        | assumption | apply keeps_inbound | apply keeps_takeWrite | apply keeps_inOrderPsn | apply answers_next
    | intro _ | dsimp only | split | with_reducible apply keeps_mk

theorem keeps_sendSprayAck (h : Keeps s t) (a1 : Nat) : Keeps s (State.sendSprayAck t a1) := by
  unfold State.sendSprayAck
  repeat' first
    | with_reducible first
        | assumption | apply keeps_sendPacket | apply keeps_setQp | apply keeps_ite | apply keeps_foldl | apply keeps_foldl_fst
    | intro _ | dsimp only | split | with_reducible apply keeps_mk

theorem keeps_answerFlushes (h : Keeps s t) (a1 : Nat) : Keeps s (State.answerFlushes t a1) := by
  unfold State.answerFlushes
  repeat' first
    | with_reducible first
        | assumption | apply keeps_respond | apply keeps_setQp | apply keeps_foldl | apply keeps_foldl_fst
    | intro _ | dsimp only | split | with_reducible apply keeps_mk

theorem keeps_countSpray (h : Keeps s t) (a1 a2 : Nat) (a3 : Packet) : Keeps s (State.countSpray t a1 a2 a3) := by
  unfold State.countSpray
  repeat' first
    | with_reducible first
        | assumption | apply keeps_advance | apply keeps_setQp | apply opt_map | apply opt_map_val | apply keeps_getD
        | apply keeps_ite
    | intro _ | dsimp only | split | with_reducible apply keeps_mk

theorem keeps_countAcks (h : Keeps s t) (a1 : Nat) : Keeps s (State.countAcks t a1) := by
  unfold State.countAcks
  repeat' first
    | with_reducible first
        | assumption | apply keeps_sendSprayAck | apply keeps_setQp | apply keeps_ite
    | intro _ | dsimp only | split | with_reducible apply keeps_mk

theorem keeps_takeSpray (h : Keeps s t) (a1 : Nat) (a2 : Packet) : Keeps s (State.takeSpray t a1 a2) := by
  unfold State.takeSpray
  repeat' first
    | with_reducible first
        | assumption | apply keeps_memWrite | apply keeps_answerFlushes | apply keeps_countAcks | apply keeps_countSpray
        | apply keeps_established | apply keeps_nakAccess | apply keeps_nakInvalid | apply keeps_ite
    | intro _ | dsimp only | split | with_reducible apply keeps_mk

theorem keeps_execSprayWrite (h : Keeps s t) (a0 : Nat) (a1 : Packet) : Answers s (execSprayWrite a0 a1 t) := by
  unfold execSprayWrite
  repeat' first
    | with_reducible first
        | assumption | apply keeps_inbound | apply keeps_takeSpray | apply answers_next
    | intro _ | dsimp only | split | with_reducible apply keeps_mk

theorem keeps_execSprayAckSend (h : Keeps s t) (a0 : Nat) : Answers s (execSprayAckSend a0 t) := by
  unfold execSprayAckSend
  repeat' first
    | with_reducible first
        | assumption | apply keeps_sendSprayAck | apply answers_next
    | intro _ | dsimp only | split | with_reducible apply keeps_mk

theorem keeps_execFlush (h : Keeps s t) (a0 : Nat) (a1 : Packet) : Answers s (execFlush a0 a1 t) := by
  unfold execFlush
  repeat' first
    | with_reducible first
        | assumption | apply keeps_nakAccess | apply keeps_packetFor | apply keeps_inbound | apply keeps_inOrderPsn
        | apply keeps_answerFlushes | apply keeps_setQp | apply keeps_respond | apply keeps_established | apply keeps_nakInvalid
        | apply answers_next
    | intro _ | dsimp only | split | refine keeps_fst (by assumption) ?_ | with_reducible apply keeps_mk

theorem keeps_execCnp (h : Keeps s t) (a0 : Nat) (a1 : Packet) : Answers s (execCnp a0 a1 t) := by
  unfold execCnp
  repeat' first
    | with_reducible first
        | assumption | apply keeps_packetFor | apply keeps_sat | apply keeps_setQp | apply answers_next | apply keeps_ite
    | intro _ | dsimp only | split | refine keeps_fst (by assumption) ?_ | with_reducible apply keeps_mk

theorem keeps_execRateTimer (h : Keeps s t) (a0 : Nat) : Answers s (execRateTimer a0 t) := by
  unfold execRateTimer
  repeat' first
    | with_reducible first
        | assumption | apply keeps_setQp | apply answers_next | apply keeps_ite
    | intro _ | dsimp only | split | with_reducible apply keeps_mk

theorem keeps_portDown (h : Keeps s t) (a1 : Nat) : Keeps s (State.portDown t a1) := by
  unfold State.portDown
  repeat' first
    | with_reducible first
        | assumption | apply keeps_enterErr | apply keeps_portEvent | apply keeps_sameCycle | apply keeps_foldl
        | apply keeps_foldl_fst
    | intro _ | dsimp only | split | with_reducible apply keeps_mk

theorem keeps_execPfcStorm (h : Keeps s t) (a0 : Nat) : Answers s (execPfcStorm a0 t) := by
  unfold execPfcStorm
  repeat' first
    | with_reducible first
        | assumption | apply keeps_portEvent | apply answers_next
    | intro _ | dsimp only | split | with_reducible apply keeps_mk

theorem keeps_execFecDegraded (h : Keeps s t) (a0 a1 : Nat) : Answers s (execFecDegraded a0 a1 t) := by
  unfold execFecDegraded
  repeat' first
    | with_reducible first
        | assumption | apply keeps_portEvent | apply answers_next
    | intro _ | dsimp only | split | with_reducible apply keeps_mk

theorem handler_hEventCtrl : HandlerKeeps hEventCtrl := by
  constructor <;> intro s t h <;> unfold hEventCtrl <;>
  repeat' first
    | with_reducible first
        | assumption | apply HandlerKeeps.chg handler_plain | apply HandlerKeeps.act handler_plain
        | apply HandlerKeeps.post handler_plain | apply keeps_ite
    | intro _ | dsimp only | split | exact h | with_reducible apply keeps_mk

end Sys2Proof.Machine
end

