-- ==== Sys2Proof/Laws/KeepsPool.lean ====
section
/-! SUPPORT. Every operation keeps the queue, the canonical stores, the Stroke bound and what was sent: the pool, region actions, the tandem. -/

namespace Sys2Proof.Machine

variable {s t : State}

/-- What is carried by a `Try` keeps all of that. -/
inductive TryKeeps (s : State) : Try → Prop where
  | served {t : State} (h : Keeps s t) : TryKeeps s (.served t)
  | given {t : State} (h : Keeps s t) : TryKeeps s (.given t)
  | balance {t : State} (h : Keeps s t) : TryKeeps s (.balance t)
  | line {t : State} {x0 x1} (h : Keeps s t) : TryKeeps s (.line t x0 x1)

theorem try_of_served {d : Try} (e : d = .served t) (h : TryKeeps s d) : Keeps s t := by
  subst e; cases h; assumption

theorem try_of_balance {d : Try} (e : d = .balance t) (h : TryKeeps s d) : Keeps s t := by
  subst e; cases h; assumption

theorem try_of_line {d : Try} {x0 x1} (e : d = .line t x0 x1) (h : TryKeeps s d) : Keeps s t := by
  subst e; cases h; assumption

theorem keeps_poolWrite (h : Keeps s t) (a1 : Nat) (a2 : List Byte) : Keeps s (State.poolWrite t a1 a2) := by
  induction a2 generalizing t a1 with
  | nil =>
    unfold State.poolWrite
    repeat' first
      | with_reducible first
          | assumption | apply keeps_setPool
      | intro _ | dsimp only | split | with_reducible apply keeps_mk
  | cons x l ih =>
    unfold State.poolWrite
    repeat' first
      | with_reducible first
          | assumption | apply ih | apply keeps_setPool
      | intro _ | dsimp only | split | with_reducible apply keeps_mk

theorem keeps_poolClear (h : Keeps s t) (a1 a2 : Nat) : Keeps s (State.poolClear t a1 a2) := by
  unfold State.poolClear
  repeat' first
    | with_reducible first
        | assumption | apply keeps_setPool
    | intro _ | dsimp only | split | with_reducible apply keeps_mk

theorem keeps_drawLine (h : Keeps s t) (a1 a2 : Nat) (a3 : Bool) : Keeps s (State.drawLine t a1 a2 a3) := by
  unfold State.drawLine
  repeat' first
    | with_reducible first
        | assumption | apply keeps_draw | apply keeps_setPool | apply keeps_ite
    | intro _ | dsimp only | split | with_reducible apply keeps_mk

theorem keeps_answerHost (h : Keeps s t) (a1 : PReq) (a2 : Nat) (a3 : List Byte) (a4 : Bool) (a5 : Nat) :
    Keeps s (State.answerHost t a1 a2 a3 a4 a5) := by
  unfold State.answerHost
  repeat' first
    | with_reducible first
        | assumption | apply keeps_emit | apply keeps_sat | apply keeps_ite
    | intro _ | dsimp only | split | with_reducible apply keeps_mk

theorem keeps_refuseHost (h : Keeps s t) (a1 a2 a3 : Nat) (a4 : Option Nat) (a5 a6 : Bool) :
    Keeps s (State.refuseHost t a1 a2 a3 a4 a5 a6) := by
  unfold State.refuseHost
  repeat' first
    | with_reducible first
        | assumption | apply keeps_emit | apply keeps_sat | apply keeps_ite
    | intro _ | dsimp only | split | with_reducible apply keeps_mk

theorem keeps_foreign (h : Keeps s t) (a1 a2 a3 a4 : Nat) (a5 : Option Nat) (a6 : Bool) :
    Keeps s (State.foreign t a1 a2 a3 a4 a5 a6) := by
  unfold State.foreign
  repeat' first
    | with_reducible first
        | assumption | apply keeps_fault | apply keeps_refuseHost | apply keeps_sat | apply opt_map | apply opt_map_val
        | apply keeps_getD
    | intro _ | dsimp only | split | with_reducible apply keeps_mk

theorem keeps_setDir (h : Keeps s t) (a1 a2 : Nat) (a3 : List Nat) : Keeps s (State.setDir t a1 a2 a3) := by
  unfold State.setDir
  repeat' first
    | with_reducible first
        | assumption | apply keeps_setPool | apply keeps_ite
    | intro _ | dsimp only | split | with_reducible apply keeps_mk

theorem keeps_snoop (h : Keeps s t) (a1 a2 a3 a4 : Nat) : Keeps s (State.snoop t a1 a2 a3 a4) := by
  unfold State.snoop
  repeat' first
    | with_reducible first
        | assumption | apply keeps_add64 | apply keeps_setPool | apply keeps_emit | apply keeps_ite
    | intro _ | dsimp only | split | with_reducible apply keeps_mk

theorem keeps_snoopInv (h : Keeps s t) (a1 : Nat) (a2 : List Nat) (a3 : Nat) : Keeps s (State.snoopInv t a1 a2 a3) := by
  unfold State.snoopInv
  repeat' first
    | with_reducible first
        | assumption | apply keeps_snoop | apply keeps_foldl | apply keeps_foldl_fst
    | intro _ | dsimp only | split | with_reducible apply keeps_mk

theorem keeps_recallOldest (h : Keeps s t) (a1 : Nat) : Keeps s (State.recallOldest t a1).1 := by
  unfold State.recallOldest
  repeat' first
    | with_reducible first
        | assumption | apply keeps_snoopInv | apply keeps_ite | apply keeps_ite_fst | apply keeps_foldl | apply keeps_foldl_fst
    | intro _ | dsimp only | split | with_reducible apply keeps_mk

theorem keeps_updSwap (h : Keeps s t) (a1 : Nat) (a2 : SwapPage → SwapPage) : Keeps s (State.updSwap t a1 a2) := by
  unfold State.updSwap
  repeat' first
    | with_reducible first
        | assumption | apply keeps_setPool | apply keeps_ite
    | intro _ | dsimp only | split | with_reducible apply keeps_mk

theorem keeps_swapOut (h : Keeps s t) (a1 : SwapPage) : Keeps s (State.swapOut t a1) := by
  unfold State.swapOut
  repeat' first
    | with_reducible first
        | assumption | apply keeps_firstWrite | apply keeps_placeSectors | apply keeps_setTier | apply keeps_updSwap
        | apply keeps_ite
    | intro _ | dsimp only | split | refine keeps_fst (by assumption) ?_ | with_reducible apply keeps_mk

theorem keeps_swapRoom (h : Keeps s t) : Keeps s (State.swapRoom t).1 := by
  unfold State.swapRoom
  repeat' first
    | with_reducible first
        | assumption | apply keeps_swapOut | apply keeps_poolClear | apply keeps_setPool | apply keeps_ite | apply keeps_foldl
        | apply keeps_foldl_fst
    | intro _ | dsimp only | split | with_reducible apply keeps_mk

theorem keeps_enterSwap (h : Keeps s t) (a1 a2 a3 : Nat) (a4 : Bool) : Keeps s (State.enterSwap t a1 a2 a3 a4) := by
  unfold State.enterSwap
  repeat' first
    | with_reducible first
        | assumption | apply keeps_setPool
    | intro _ | dsimp only | split | with_reducible apply keeps_mk

theorem keeps_wantPage (h : Keeps s t) (a1 a2 : Nat) (a3 : Bool) : Keeps s (State.wantPage t a1 a2 a3).1 := by
  unfold State.wantPage
  repeat' first
    | with_reducible first
        | assumption | apply keeps_updSwap | apply keeps_enterSwap | apply keeps_setPool | apply keeps_swapRoom | apply keeps_ite
    | intro _ | dsimp only | split | refine keeps_fst (by assumption) ?_ | with_reducible apply keeps_mk

theorem keeps_poolStore (h : Keeps s t) (a1 a2 : Nat) (a3 : List Byte) : Keeps s (State.poolStore t a1 a2 a3) := by
  unfold State.poolStore
  repeat' first
    | with_reducible first
        | assumption | apply keeps_dirty | apply keeps_poolWrite | apply keeps_setTier | apply keeps_updSwap | apply opt_map
        | apply opt_map_val | apply keeps_getD | apply keeps_ite
    | intro _ | dsimp only | split | with_reducible apply keeps_mk

theorem keeps_sendMirror (h : Keeps s t) (a1 : List Byte) : Keeps s (State.sendMirror t a1).1 := by
  unfold State.sendMirror
  repeat' first
    | with_reducible first
        | assumption | apply keeps_openTxn
    | intro _ | dsimp only | split | refine keeps_fst (by assumption) ?_ | with_reducible apply keeps_mk

theorem keeps_sendPoolPage (h : Keeps s t) (a1 a2 : Nat) (a3 : List Byte) : Keeps s (State.sendPoolPage t a1 a2 a3).1 := by
  unfold State.sendPoolPage
  repeat' first
    | with_reducible first
        | assumption | apply keeps_sendMirror | apply keeps_foldl | apply keeps_foldl_fst
    | intro _ | dsimp only | split | refine keeps_fst (by assumption) ?_ | with_reducible apply keeps_mk

theorem keeps_metaState (h : Keeps s t) (a1 : PReq) : Keeps s (State.metaState t a1) := by
  unfold State.metaState
  repeat' first
    | with_reducible first
        | assumption | apply keeps_setDir | apply keeps_ite
    | intro _ | dsimp only | split | with_reducible apply keeps_mk

theorem keeps_setPoison (h : Keeps s t) (a1 : Nat) : Keeps s (State.setPoison t a1) := by
  unfold State.setPoison
  repeat' first
    | with_reducible first
        | assumption | apply keeps_setPool | apply keeps_ite
    | intro _ | dsimp only | split | with_reducible apply keeps_mk

theorem keeps_giveData (h : Keeps s t) (a1 : Nat) (a2 : PReq) (a3 : Nat) : Keeps s (State.giveData t a1 a2 a3) := by
  unfold State.giveData
  repeat' first
    | with_reducible first
        | assumption | apply keeps_answerHost | apply keeps_drawLine | apply keeps_setPoison | apply keeps_ite
    | intro _ | dsimp only | split | with_reducible apply keeps_mk

theorem keeps_applyWrite (h : Keeps s t) (a1 : Nat) (a2 : PReq) : Keeps s (State.applyWrite t a1 a2) := by
  unfold State.applyWrite
  repeat' first
    | with_reducible first
        | assumption | apply keeps_poolStore | apply keeps_setPoison | apply keeps_setPool | apply keeps_ite
    | intro _ | dsimp only | split | with_reducible apply keeps_mk

theorem keeps_mirrorLine (h : Keeps s t) (a1 : Nat) (a2 : PReq) (a3 : Bool) : Keeps s (State.mirrorLine t a1 a2 a3) := by
  unfold State.mirrorLine
  repeat' first
    | with_reducible first
        | assumption | apply keeps_setPool
    | intro _ | dsimp only | split | with_reducible apply keeps_mk

theorem keeps_giveWrite (h : Keeps s t) (a1 : Nat) (a2 : PReq) : Keeps s (State.giveWrite t a1 a2) := by
  unfold State.giveWrite
  repeat' first
    | with_reducible first
        | assumption | apply keeps_answerHost | apply keeps_applyWrite | apply keeps_drawLine | apply keeps_mirrorLine
        | apply keeps_ite
    | intro _ | dsimp only | split | with_reducible apply keeps_mk

theorem keeps_makeRoom (h : Keeps s t) (a1 : PReq) : Keeps s (State.makeRoom t a1).1 := by
  unfold State.makeRoom
  repeat' first
    | with_reducible first
        | assumption | apply keeps_recallOldest | apply keeps_ite | apply keeps_ite_fst
    | intro _ | dsimp only | split | refine keeps_fst (by assumption) ?_ | with_reducible apply keeps_mk

theorem keeps_directory (h : Keeps s t) (a1 : Nat) (a2 : PReq) (a3 : Nat) : TryKeeps s (State.directory t a1 a2 a3) := by
  unfold State.directory
  repeat' first
    | with_reducible first
        | assumption | apply keeps_giveData | apply keeps_giveWrite | apply keeps_makeRoom | apply keeps_metaState
        | apply keeps_setDir | apply keeps_snoop | apply keeps_snoopInv | apply TryKeeps.served | apply TryKeeps.given
        | apply TryKeeps.line | apply TryKeeps.balance | apply keeps_ite | apply keeps_foldl | apply keeps_foldl_fst
    | intro _ | dsimp only | split | refine keeps_fst (by assumption) ?_ | with_reducible apply keeps_mk

theorem keeps_tryData (h : Keeps s t) (a1 : Nat) (a2 : PReq) : TryKeeps s (State.tryData t a1 a2) := by
  unfold State.tryData
  repeat' first
    | with_reducible first
        | assumption | apply keeps_answer | apply keeps_answerHost | apply keeps_applyWrite | apply keeps_drawLine
        | apply keeps_mirrorLine | apply keeps_wantPage | apply TryKeeps.served | apply TryKeeps.given | apply TryKeeps.line
        | apply TryKeeps.balance | apply keeps_ite
    | intro _ | dsimp only | split | refine keeps_fst (by assumption) ?_ | with_reducible apply keeps_mk

theorem try_of_given {d : Try} (e : d = .given t) (h : TryKeeps s d) : Keeps s t := by
  subst e; cases h; assumption

theorem keeps_tryReq (h : Keeps s t) (a1 : PReq) : TryKeeps s (State.tryReq t a1) := by
  unfold State.tryReq
  repeat' first
    | with_reducible first
        | assumption | apply keeps_answerHost | apply keeps_directory | apply keeps_foreign | apply keeps_tryData
        | apply keeps_wantPage | apply TryKeeps.served | apply TryKeeps.given | apply TryKeeps.line | apply TryKeeps.balance
        | apply keeps_ite
    | intro _ | dsimp only | split | refine keeps_fst (by assumption) ?_ | refine try_of_served (by assumption) ?_
    | refine try_of_given (by assumption) ?_ | refine try_of_line (by assumption) ?_ | refine try_of_balance (by assumption) ?_
    | with_reducible apply keeps_mk

theorem keeps_dropReq (h : Keeps s t) (a1 : PReq) : Keeps s (State.dropReq t a1) := by
  unfold State.dropReq
  repeat' first
    | with_reducible first
        | assumption | apply keeps_setPool
    | intro _ | dsimp only | split | with_reducible apply keeps_mk

theorem keeps_swapReq (h : Keeps s t) (a1 a2 : PReq) : Keeps s (State.swapReq t a1 a2) := by
  unfold State.swapReq
  repeat' first
    | with_reducible first
        | assumption | apply keeps_setPool | apply keeps_ite
    | intro _ | dsimp only | split | with_reducible apply keeps_mk

theorem keeps_sendLines (h : Keeps s t) (a1 : Nat) (a2 : List (Nat × List Byte × MirWait)) :
    Keeps s (State.sendLines t a1 a2) := by
  unfold State.sendLines
  repeat' first
    | with_reducible first
        | assumption | apply keeps_sendMirror | apply keeps_setPool | apply opt_map | apply opt_map_val | apply keeps_getD
    | intro _ | dsimp only | split | refine keeps_fst (by assumption) ?_ | with_reducible apply keeps_mk

theorem keeps_flushLines (h : Keeps s t) : Keeps s (State.flushLines t) := by
  unfold State.flushLines
  repeat' first
    | with_reducible first
        | assumption | apply keeps_sendLines | apply keeps_setPool | apply opt_map | apply opt_map_val | apply keeps_getD
        | apply keeps_foldl | apply keeps_foldl_fst
    | intro _ | dsimp only | split | with_reducible apply keeps_mk

theorem keeps_take {a : Pass} (h : Keeps s a.s) (q : PReq) : Keeps s (a.take q).s := by
  have k := keeps_tryReq h q
  unfold Pass.take
  dsimp only
  repeat' split
  any_goals exact h
  · exact keeps_dropReq (try_of_served (by assumption) k) _
  · exact keeps_dropReq (try_of_given (by assumption) k) _
  · exact keeps_put (keeps_dropReq (try_of_given (by assumption) k) _) _ _ _
  · exact try_of_balance (by assumption) k
  · exact keeps_swapReq (try_of_line (by assumption) k) _ _

theorem keeps_passes {a : Pass} (h : Keeps s a.s) (l : List PReq) : Keeps s (l.foldl Pass.take a).s := by
  induction l generalizing a with
  | nil => exact h
  | cons q l ih => exact ih (keeps_take h q)

theorem keeps_servePasses (h : Keeps s t) (a1 : Bool) (a2 : Nat) : Keeps s (State.servePasses t a1 a2) := by
  induction a2 generalizing t a1 with
  | zero => exact h
  | succ n ih =>
    have k : Keeps s (t.turnOrder.foldl Pass.take ⟨t, [], [], a1⟩).s := keeps_passes h _
    unfold State.servePasses
    exact keeps_ite (fun _ => ih k _) fun _ => k

theorem keeps_serveWaiting (h : Keeps s t) : Keeps s (State.serveWaiting t) := by
  unfold State.serveWaiting
  repeat' first
    | with_reducible first
        | assumption | apply keeps_flushLines | apply keeps_servePasses
    | intro _ | dsimp only | split | with_reducible apply keeps_mk

theorem keeps_hostReq (h : Keeps s t) (a1 : CxlSource) (a2 a3 a4 : Nat) (a5 : List Byte) (a6 a7 : Nat) :
    Keeps s (State.hostReq t a1 a2 a3 a4 a5 a6 a7) := by
  unfold State.hostReq
  repeat' first
    | with_reducible first
        | assumption | apply keeps_foreign | apply keeps_refuseHost | apply keeps_sat | apply keeps_serveWaiting
        | apply keeps_setPool | apply keeps_ite
    | intro _ | dsimp only | split | with_reducible apply keeps_mk

theorem keeps_execCxlReadNocache (h : Keeps s t) (a0 : CxlSource) (a1 a2 : Nat) :
    Answers s (execCxlReadNocache a0 a1 a2 t) := by
  unfold execCxlReadNocache
  repeat' first
    | with_reducible first
        | assumption | apply keeps_hostReq | apply answers_next
    | intro _ | dsimp only | split | with_reducible apply keeps_mk

theorem keeps_execCxlSharedRead (h : Keeps s t) (a0 : CxlSource) (a1 a2 : Nat) :
    Answers s (execCxlSharedRead a0 a1 a2 t) := by
  unfold execCxlSharedRead
  repeat' first
    | with_reducible first
        | assumption | apply keeps_hostReq | apply answers_next
    | intro _ | dsimp only | split | with_reducible apply keeps_mk

theorem keeps_execCxlOwnershipRead (h : Keeps s t) (a0 : CxlSource) (a1 a2 : Nat) :
    Answers s (execCxlOwnershipRead a0 a1 a2 t) := by
  unfold execCxlOwnershipRead
  repeat' first
    | with_reducible first
        | assumption | apply keeps_hostReq | apply answers_next
    | intro _ | dsimp only | split | with_reducible apply keeps_mk

theorem keeps_execCxlWrite (h : Keeps s t) (a0 : CxlSource) (a1 a2 : Nat) (a3 : List Byte) (a4 a5 : Nat) :
    Answers s (execCxlWrite a0 a1 a2 a3 a4 a5 t) := by
  unfold execCxlWrite
  repeat' first
    | with_reducible first
        | assumption | apply keeps_hostReq | apply answers_next
    | intro _ | dsimp only | split | with_reducible apply keeps_mk

theorem keeps_execPoolRequestServe (h : Keeps s t) : Answers s (execPoolRequestServe t) := by
  unfold execPoolRequestServe
  repeat' first
    | with_reducible first
        | assumption | apply keeps_serveWaiting | apply answers_next
    | intro _ | dsimp only | split | with_reducible apply keeps_mk

theorem keeps_takeData (h : Keeps s t) (a1 a2 a3 : Nat) (a4 : List Byte) (a5 : Bool) :
    Keeps s (State.takeData t a1 a2 a3 a4 a5) := by
  unfold State.takeData
  repeat' first
    | with_reducible first
        | assumption | apply keeps_setPool | apply keeps_tryReq | apply keeps_ite
    | intro _ | dsimp only | split | refine try_of_served (by assumption) ?_ | refine try_of_given (by assumption) ?_
    | refine try_of_line (by assumption) ?_ | refine try_of_balance (by assumption) ?_ | with_reducible apply keeps_mk

theorem keeps_execWriteback (h : Keeps s t) (a0 a1 : Nat) (a2 : LineData) : Answers s (execWriteback a0 a1 a2 t) := by
  unfold execWriteback
  repeat' first
    | with_reducible first
        | assumption | apply keeps_flushLines | apply keeps_hostReq | apply keeps_serveWaiting | apply keeps_setDir
        | apply keeps_takeData | apply answers_next | apply keeps_ite
    | intro _ | dsimp only | split | with_reducible apply keeps_mk

theorem keeps_drainEnd (h : Keeps s t) (a1 : Nat) : Keeps s (State.drainEnd t a1) := by
  unfold State.drainEnd
  repeat' first
    | with_reducible first
        | assumption | apply keeps_put | apply keeps_snoop | apply opt_map | apply opt_map_val | apply keeps_getD
        | apply keeps_ite | apply keeps_foldl | apply keeps_foldl_fst
    | intro _ | dsimp only | split | with_reducible apply keeps_mk

theorem keeps_afterSnoop (h : Keeps s t) (a1 : Snoop) (a2 : Bool) : Keeps s (State.afterSnoop t a1 a2) := by
  unfold State.afterSnoop
  repeat' first
    | with_reducible first
        | assumption | apply keeps_setDir | apply keeps_ite
    | intro _ | dsimp only | split | with_reducible apply keeps_mk

theorem keeps_execSnoopResponse (h : Keeps s t) (a0 a1 : Nat) (a2 : Option LineData) (a3 : Bool) :
    Answers s (execSnoopResponse a0 a1 a2 a3 t) := by
  unfold execSnoopResponse
  repeat' first
    | with_reducible first
        | assumption | apply keeps_afterSnoop | apply keeps_drainEnd | apply keeps_serveWaiting | apply keeps_setPool
        | apply keeps_takeData | apply answers_next | apply keeps_ite
    | intro _ | dsimp only | split | with_reducible apply keeps_mk

theorem keeps_failHost (h : Keeps s t) (a1 : Nat) : Keeps s (State.failHost t a1) := by
  unfold State.failHost
  repeat' first
    | with_reducible first
        | assumption | apply keeps_answerHost | apply keeps_event | apply keeps_fault | apply keeps_put | apply keeps_sat
        | apply keeps_serveWaiting | apply keeps_setPool | apply opt_map | apply opt_map_val | apply keeps_getD
        | apply keeps_foldl | apply keeps_foldl_fst
    | intro _ | dsimp only | split | with_reducible apply keeps_mk

theorem keeps_execBiTimeout (h : Keeps s t) (a0 a1 : Nat) : Answers s (execBiTimeout a0 a1 t) := by
  unfold execBiTimeout
  repeat' first
    | with_reducible first
        | assumption | apply keeps_failHost | apply answers_next
    | intro _ | dsimp only | split | with_reducible apply keeps_mk

theorem keeps_dueSnoops (h : Keeps s t) : Keeps s (State.dueSnoops t) := by
  unfold State.dueSnoops
  repeat' first
    | with_reducible first
        | assumption | apply keeps_failHost | apply keeps_ite | apply keeps_foldl | apply keeps_foldl_fst
    | intro _ | dsimp only | split | with_reducible apply keeps_mk

theorem keeps_execHostViral (h : Keeps s t) (a0 : Nat) : Answers s (execHostViral a0 t) := by
  unfold execHostViral
  repeat' first
    | with_reducible first
        | assumption | apply keeps_failHost | apply answers_next | apply keeps_foldl | apply keeps_foldl_fst
    | intro _ | dsimp only | split | with_reducible apply keeps_mk

theorem handler_hPoolHost : HandlerKeeps hPoolHost := by
  constructor <;> intro s t h <;> unfold hPoolHost <;>
  repeat' first
    | with_reducible first
        | assumption | apply HandlerKeeps.chg handler_plain | apply HandlerKeeps.act handler_plain
        | apply HandlerKeeps.post handler_plain | apply keeps_atBoundary
    | intro _ | dsimp only | split | exact h | with_reducible apply keeps_mk

theorem keeps_execHostCtrl (h : Keeps s t) (a0 : Word) : Answers s (execHostCtrl a0 t) := by
  unfold execHostCtrl
  repeat' first
    | with_reducible first
        | assumption | apply handler_hPoolHost | apply keeps_bar0 | apply answers_next
    | intro _ | dsimp only | split | with_reducible apply keeps_mk

theorem keeps_hostCtrlTurn (h : Keeps s t) (a1 : Nat) (a2 : Word) : Keeps s (State.hostCtrlTurn t a1 a2) := by
  unfold State.hostCtrlTurn
  repeat' first
    | with_reducible first
        | assumption | apply keeps_setLive | apply keeps_drainEnd | apply keeps_put | apply keeps_ite
    | intro _ | dsimp only | split | with_reducible apply keeps_mk

theorem keeps_execHostDrainDone (h : Keeps s t) (a0 : Nat) : Answers s (execHostDrainDone a0 t) := by
  unfold execHostDrainDone
  repeat' first
    | with_reducible first
        | assumption | apply keeps_drainEnd | apply answers_next
    | intro _ | dsimp only | split | with_reducible apply keeps_mk

theorem handler_hLater (a0 : Nat) : HandlerKeeps (hLater a0) := by
  constructor <;> intro s t h <;> unfold hLater <;>
  repeat' first
    | with_reducible first
        | assumption | apply HandlerKeeps.chg handler_plain | apply HandlerKeeps.act handler_plain
        | apply HandlerKeeps.post handler_plain | apply keeps_atBoundary
    | intro _ | dsimp only | split | exact h | with_reducible apply keeps_mk

theorem handler_hRegionAccess (a0 : Nat) : HandlerKeeps (hRegionAccess a0) := by
  constructor <;> intro s t h <;> unfold hRegionAccess <;>
  repeat' first
    | with_reducible first
        | assumption | apply HandlerKeeps.chg handler_plain | apply HandlerKeeps.act handler_plain
        | apply HandlerKeeps.post handler_plain | apply keeps_atBoundary
    | intro _ | dsimp only | split | exact h | with_reducible apply keeps_mk

theorem keeps_accessTurn (h : Keeps s t) : Keeps s (State.accessTurn t) := by
  unfold State.accessTurn
  repeat' first
    | with_reducible first
        | assumption | apply keeps_emit | apply keeps_setPool | apply opt_map | apply opt_map_val | apply keeps_getD
        | apply keeps_ite | apply keeps_foldl | apply keeps_foldl_fst
    | intro _ | dsimp only | split | with_reducible apply keeps_mk

theorem keeps_endRelease (h : Keeps s t) (a1 a2 : Nat) : Keeps s (State.endRelease t a1 a2) := by
  unfold State.endRelease
  repeat' first
    | with_reducible first
        | assumption | apply keeps_setPool | apply keeps_ite
    | intro _ | dsimp only | split | with_reducible apply keeps_mk

theorem keeps_execDcReleaseAck (h : Keeps s t) (a0 a1 : Nat) : Answers s (execDcReleaseAck a0 a1 t) := by
  unfold execDcReleaseAck
  repeat' first
    | with_reducible first
        | assumption | apply keeps_endRelease | apply answers_next
    | intro _ | dsimp only | split | with_reducible apply keeps_mk

theorem keeps_execReleaseWaitExpiry (h : Keeps s t) (a0 a1 : Nat) : Answers s (execReleaseWaitExpiry a0 a1 t) := by
  unfold execReleaseWaitExpiry
  repeat' first
    | with_reducible first
        | assumption | apply keeps_endRelease | apply answers_next
    | intro _ | dsimp only | split | with_reducible apply keeps_mk

theorem keeps_dueReleases (h : Keeps s t) : Keeps s (State.dueReleases t) := by
  unfold State.dueReleases
  repeat' first
    | with_reducible first
        | assumption | apply keeps_endRelease | apply keeps_ite | apply keeps_foldl | apply keeps_foldl_fst
    | intro _ | dsimp only | split | with_reducible apply keeps_mk

theorem keeps_createRegion (h : Keeps s t) (a1 : Nat) : Keeps s (State.createRegion t a1) := by
  unfold State.createRegion
  repeat' first
    | with_reducible first
        | assumption | apply keeps_anchorUpdate | apply keeps_firstWrite | apply keeps_logRaw | apply keeps_newChain
        | apply keeps_put | apply keeps_setPair | apply keeps_ite
    | intro _ | dsimp only | split | with_reducible apply keeps_mk

theorem keeps_forgetLines (h : Keeps s t) (a1 : Nat) : Keeps s (State.forgetLines t a1) := by
  unfold State.forgetLines
  repeat' first
    | with_reducible first
        | assumption | apply keeps_setPool
    | intro _ | dsimp only | split | with_reducible apply keeps_mk

theorem handler_hPoolRegionCtrl : HandlerKeeps hPoolRegionCtrl := by
  constructor <;> intro s t h <;> unfold hPoolRegionCtrl <;>
  repeat' first
    | with_reducible first
        | assumption | apply HandlerKeeps.chg handler_plain | apply HandlerKeeps.act handler_plain
        | apply HandlerKeeps.post handler_plain | apply keeps_createRegion | apply keeps_flushAll | apply keeps_forgetLines
        | apply keeps_logRaw | apply keeps_put | apply keeps_reclaim | apply keeps_ite
    | intro _ | dsimp only | split | exact h | with_reducible apply keeps_mk

theorem keeps_execCreateCmd (h : Keeps s t) : Answers s (execCreateCmd t) := by
  unfold execCreateCmd
  repeat' first
    | with_reducible first
        | assumption | apply handler_hPoolRegionCtrl | apply keeps_bar0Bit | apply answers_next
    | intro _ | dsimp only | split | with_reducible apply keeps_mk

theorem keeps_execDestroy (h : Keeps s t) : Answers s (execDestroy t) := by
  unfold execDestroy
  repeat' first
    | with_reducible first
        | assumption | apply handler_hPoolRegionCtrl | apply keeps_bar0Bit | apply answers_next
    | intro _ | dsimp only | split | with_reducible apply keeps_mk

theorem keeps_execTakeover (h : Keeps s t) : Answers s (execTakeover t) := by
  unfold execTakeover
  repeat' first
    | with_reducible first
        | assumption | apply handler_hPoolRegionCtrl | apply keeps_bar0Bit | apply answers_next
    | intro _ | dsimp only | split | with_reducible apply keeps_mk

theorem keeps_eraseChain (h : Keeps s t) (a1 : Nat) : Keeps s (State.eraseChain t a1) := by
  unfold State.eraseChain
  repeat' first
    | with_reducible first
        | assumption | apply keeps_anchorUpdate | apply keeps_put | apply keeps_setFlash | apply keeps_setTier
    | intro _ | dsimp only | split | with_reducible apply keeps_mk

theorem keeps_dropRegion (h : Keeps s t) (a1 : Nat) : Keeps s (State.dropRegion t a1) := by
  unfold State.dropRegion
  repeat' first
    | with_reducible first
        | assumption | apply keeps_forgetLines | apply keeps_poolClear | apply keeps_setPair | apply keeps_setPool
    | intro _ | dsimp only | split | with_reducible apply keeps_mk

theorem keeps_execDestroyDone (h : Keeps s t) (a0 : Nat) : Answers s (execDestroyDone a0 t) := by
  unfold execDestroyDone
  repeat' first
    | with_reducible first
        | assumption | apply keeps_dropRegion | apply keeps_put | apply keeps_eraseChain | apply answers_next
    | intro _ | dsimp only | split | with_reducible apply keeps_mk

theorem handler_hRegionDef : HandlerKeeps hRegionDef := by
  constructor <;> intro s t h <;> unfold hRegionDef <;>
  repeat' first
    | with_reducible first
        | assumption | apply HandlerKeeps.chg handler_plain | apply HandlerKeeps.act handler_plain
        | apply HandlerKeeps.post handler_plain | apply keeps_setPool | apply keeps_ite
    | intro _ | dsimp only | split | exact h | with_reducible apply keeps_mk

theorem handler_hCarveDram : HandlerKeeps hCarveDram := by
  constructor <;> intro s t h <;> unfold hCarveDram <;>
  repeat' first
    | with_reducible first
        | assumption | apply HandlerKeeps.chg handler_plain | apply HandlerKeeps.act handler_plain
        | apply HandlerKeeps.post handler_plain
    | intro _ | dsimp only | split | exact h | with_reducible apply keeps_mk

theorem handler_hCarveFlash : HandlerKeeps hCarveFlash := by
  constructor <;> intro s t h <;> unfold hCarveFlash <;>
  repeat' first
    | with_reducible first
        | assumption | apply HandlerKeeps.chg handler_plain | apply HandlerKeeps.act handler_plain
        | apply HandlerKeeps.post handler_plain
    | intro _ | dsimp only | split | exact h | with_reducible apply keeps_mk

theorem handler_hSwapCache : HandlerKeeps hSwapCache := by
  constructor <;> intro s t h <;> unfold hSwapCache <;>
  repeat' first
    | with_reducible first
        | assumption | apply HandlerKeeps.chg handler_plain | apply HandlerKeeps.act handler_plain
        | apply HandlerKeeps.post handler_plain
    | intro _ | dsimp only | split | exact h | with_reducible apply keeps_mk

theorem keeps_finishSwapIn (h : Keeps s t) (a1 : Nat) : Keeps s (State.finishSwapIn t a1) := by
  unfold State.finishSwapIn
  repeat' first
    | with_reducible first
        | assumption | apply keeps_enterSwap | apply keeps_poolWrite | apply keeps_serveWaiting | apply keeps_setPool
        | apply keeps_setTier | apply opt_map | apply opt_map_val | apply keeps_getD | apply keeps_ite
    | intro _ | dsimp only | split | with_reducible apply keeps_mk

theorem keeps_loseSwap (h : Keeps s t) (a1 : Nat) : Keeps s (State.loseSwap t a1) := by
  unfold State.loseSwap
  repeat' first
    | with_reducible first
        | assumption | apply keeps_losePoolPage | apply keeps_serveWaiting
    | intro _ | dsimp only | split | with_reducible apply keeps_mk

theorem keeps_swapReadDone (h : Keeps s t) (a1 : NandOp) (a2 : NandRes) : Keeps s (State.swapReadDone t a1 a2) := by
  unfold State.swapReadDone
  repeat' first
    | with_reducible first
        | assumption | apply keeps_finishSwapIn | apply keeps_loseSwap | apply keeps_readEnds | apply keeps_setPool
        | apply opt_map | apply opt_map_val | apply keeps_getD | apply keeps_ite
    | intro _ | dsimp only | split | with_reducible apply keeps_mk

theorem keeps_swapWritten (h : Keeps s t) (a1 a2 : Nat) : Keeps s (State.swapWritten t a1 a2) := by
  unfold State.swapWritten
  repeat' first
    | with_reducible first
        | assumption | apply keeps_serveWaiting | apply keeps_updSwap | apply keeps_setPool | apply keeps_logRaw
        | apply keeps_setFlash
    | intro _ | dsimp only | split | with_reducible apply keeps_mk

theorem keeps_admitXfer (h : Keeps s t) (a1 : Nat) : Keeps s (State.admitXfer t a1) := by
  unfold State.admitXfer
  repeat' first
    | with_reducible first
        | assumption | apply keeps_activateWriters | apply keeps_admitWith | apply keeps_enter | apply keeps_latch
        | apply keeps_ite
    | intro _ | dsimp only | split | with_reducible apply keeps_mk

theorem keeps_execPoolXfer (h : Keeps s t) (a0 : Desc) : Answers s (execPoolXfer a0 t) := by
  unfold execPoolXfer
  repeat' first
    | with_reducible first
        | assumption | apply keeps_admitXfer | apply keeps_rowAdmit | apply answers_next
    | intro _ | dsimp only | split | with_reducible apply keeps_mk

theorem keeps_agentServed (h : Keeps s t) : Keeps s (State.agentServed t) := by
  unfold State.agentServed
  repeat' first
    | with_reducible first
        | assumption | apply keeps_put
    | intro _ | dsimp only | split | with_reducible apply keeps_mk

theorem keeps_decXferOut (h : Keeps s t) (a1 : Work) (a2 : Seq) : DecKeeps s (State.decXferOut t a1 a2) := by
  unfold State.decXferOut
  repeat' first
    | with_reducible first
        | assumption | apply keeps_agentServed | apply keeps_draw | apply keeps_flagWork | apply keeps_lose
        | apply keeps_loseCoded | apply keeps_resolve | apply keeps_snoopInv | apply keeps_wantPage | apply dec_ite
        | exact DecKeeps.wait | exact DecKeeps.noFrame | apply DecKeeps.hookWait | apply DecKeeps.stop | apply DecKeeps.pass
        | apply DecKeeps.go | apply keeps_ite | apply keeps_foldl | apply keeps_foldl_fst
    | intro _ | dsimp only | split | refine keeps_fst (by assumption) ?_ | refine dec_of_hookWait (by assumption) ?_
    | refine dec_of_stop (by assumption) ?_ | refine dec_of_pass (by assumption) ?_ | refine dec_of_go (by assumption) ?_
    | with_reducible apply keeps_mk

theorem keeps_xferInPage (h : Keeps s t) (a1 : Work) (a2 : Seq) (a3 a4 : Nat) (a5 : Res6) :
    DecKeeps s (State.xferInPage t a1 a2 a3 a4 a5) := by
  unfold State.xferInPage
  repeat' first
    | with_reducible first
        | assumption | apply keeps_addTables | apply keeps_agentServed | apply keeps_draw | apply keeps_resolve
        | apply keeps_sat | apply keeps_setPool | apply opt_none | apply opt_some | apply opt_map | apply opt_map_val
        | apply opt_bind | apply keeps_getD | apply dec_ite | exact DecKeeps.wait | exact DecKeeps.noFrame
        | apply DecKeeps.hookWait | apply DecKeeps.stop | apply DecKeeps.pass | apply DecKeeps.go | apply keeps_ite
    | intro _ | dsimp only | split | refine opt_of (by assumption) ?_ | refine dec_of_hookWait (by assumption) ?_
    | refine dec_of_stop (by assumption) ?_ | refine dec_of_pass (by assumption) ?_ | refine dec_of_go (by assumption) ?_
    | with_reducible apply keeps_mk

theorem keeps_decXferIn (h : Keeps s t) (a1 : Work) (a2 : Seq) : DecKeeps s (State.decXferIn t a1 a2) := by
  unfold State.decXferIn
  repeat' first
    | with_reducible first
        | assumption | apply keeps_draw | apply keeps_lose | apply keeps_snoop | apply keeps_wantPage | apply keeps_xferInPage
        | apply dec_ite | exact DecKeeps.wait | exact DecKeeps.noFrame | apply DecKeeps.hookWait | apply DecKeeps.stop
        | apply DecKeeps.pass | apply DecKeeps.go | apply keeps_ite | apply keeps_foldl | apply keeps_foldl_fst
    | intro _ | dsimp only | split | refine keeps_fst (by assumption) ?_ | refine dec_of_hookWait (by assumption) ?_
    | refine dec_of_stop (by assumption) ?_ | refine dec_of_pass (by assumption) ?_ | refine dec_of_go (by assumption) ?_
    | with_reducible apply keeps_mk

theorem keeps_decXfer (h : Keeps s t) (a1 : Work) : DecKeeps s (State.decXfer t a1) := by
  unfold State.decXfer
  repeat' first
    | with_reducible first
        | assumption | apply keeps_decXferIn | apply keeps_decXferOut | apply dec_ite | exact DecKeeps.wait
        | exact DecKeeps.noFrame | apply DecKeeps.hookWait | apply DecKeeps.stop | apply DecKeeps.pass | apply DecKeeps.go
    | intro _ | dsimp only | split | refine dec_of_hookWait (by assumption) ?_ | refine dec_of_stop (by assumption) ?_
    | refine dec_of_pass (by assumption) ?_ | refine dec_of_go (by assumption) ?_ | with_reducible apply keeps_mk

theorem keeps_endXfer (h : Keeps s t) (a1 : Work) (a2 : Run) : Keeps s (State.endXfer t a1 a2) := by
  unfold State.endXfer
  repeat' first
    | with_reducible first
        | assumption | apply keeps_countWrite | apply keeps_dropLeaf | apply keeps_flagWork | apply keeps_installPage
        | apply keeps_poolStore | apply keeps_sendPoolPage | apply keeps_setPool | apply opt_map | apply opt_map_val
        | apply keeps_getD | apply keeps_ite
    | intro _ | dsimp only | split | refine keeps_fst (by assumption) ?_ | with_reducible apply keeps_mk

theorem keeps_finishXfer (h : Keeps s t) (a1 : Work) : Keeps s (State.finishXfer t a1) := by
  unfold State.finishXfer
  repeat' first
    | with_reducible first
        | assumption | apply keeps_latchEnd | apply keeps_setPool
    | intro _ | dsimp only | split | with_reducible apply keeps_mk

theorem keeps_commitXfer (h : Keeps s t) (a1 : Work) : Keeps s (State.commitXfer t a1) := by
  unfold State.commitXfer
  repeat' first
    | with_reducible first
        | assumption | apply keeps_commitLength | apply keeps_ite
    | intro _ | dsimp only | split | with_reducible apply keeps_mk

theorem handler_hLogScanCtrl : HandlerKeeps hLogScanCtrl := by
  constructor <;> intro s t h <;> unfold hLogScanCtrl <;>
  repeat' first
    | with_reducible first
        | assumption | apply HandlerKeeps.chg handler_plain | apply HandlerKeeps.act handler_plain
        | apply HandlerKeeps.post handler_plain | apply keeps_put | apply keeps_ite
    | intro _ | dsimp only | split | exact h | with_reducible apply keeps_mk

theorem keeps_execLogScanStart (h : Keeps s t) : Answers s (execLogScanStart t) := by
  unfold execLogScanStart
  repeat' first
    | with_reducible first
        | assumption | apply handler_hLogScanCtrl | apply keeps_bar0 | apply answers_next
    | intro _ | dsimp only | split | with_reducible apply keeps_mk

theorem keeps_listChain (h : Keeps s t) (a1 : Chain) : Keeps s (State.listChain t a1) := by
  unfold State.listChain
  repeat' first
    | with_reducible first
        | assumption | apply keeps_put | apply keeps_setFlash | apply opt_map_val | apply keeps_getD | apply keeps_ite
    | intro _ | dsimp only | split | with_reducible apply keeps_mk

theorem keeps_execLogScanDone (h : Keeps s t) : Answers s (execLogScanDone t) := by
  unfold execLogScanDone
  repeat' first
    | with_reducible first
        | assumption | apply keeps_listChain | apply keeps_put | apply keeps_setFlash | apply answers_next | apply keeps_ite
        | apply keeps_foldl | apply keeps_foldl_fst
    | intro _ | dsimp only | split | with_reducible apply keeps_mk

theorem handler_hRegionAction : HandlerKeeps hRegionAction := by
  constructor <;> intro s t h <;> unfold hRegionAction <;>
  repeat' first
    | with_reducible first
        | assumption | apply HandlerKeeps.chg handler_plain | apply HandlerKeeps.act handler_plain
        | apply HandlerKeeps.post handler_plain | apply keeps_setFlash | apply keeps_ite
    | intro _ | dsimp only | split | exact h | with_reducible apply keeps_mk

theorem keeps_execRegionAdopt (h : Keeps s t) (a0 : Nat) : Answers s (execRegionAdopt a0 t) := by
  unfold execRegionAdopt
  repeat' first
    | with_reducible first
        | assumption | apply keeps_bar0 | apply handler_hRegionAction | apply answers_next
    | intro _ | dsimp only | split | with_reducible apply keeps_mk

theorem keeps_execRegionScrub (h : Keeps s t) : Answers s (execRegionScrub t) := by
  unfold execRegionScrub
  repeat' first
    | with_reducible first
        | assumption | apply keeps_bar0 | apply handler_hRegionAction | apply answers_next
    | intro _ | dsimp only | split | with_reducible apply keeps_mk

theorem keeps_execRegionHold (h : Keeps s t) : Answers s (execRegionHold t) := by
  unfold execRegionHold
  repeat' first
    | with_reducible first
        | assumption | apply keeps_bar0 | apply handler_hRegionAction | apply answers_next
    | intro _ | dsimp only | split | with_reducible apply keeps_mk

theorem keeps_regionEnds (h : Keeps s t) (a1 a2 : Nat) : Keeps s (State.regionEnds t a1 a2) := by
  unfold State.regionEnds
  repeat' first
    | with_reducible first
        | assumption | apply keeps_put | apply keeps_audit
    | intro _ | dsimp only | split | with_reducible apply keeps_mk

theorem keeps_execRegionActionStart (h : Keeps s t) : Answers s (execRegionActionStart t) := by
  unfold execRegionActionStart
  repeat' first
    | with_reducible first
        | assumption | apply keeps_anchorUpdate | apply keeps_flushAll | apply keeps_logRaw | apply keeps_put
        | apply keeps_regionEnds | apply keeps_setFlash | apply answers_next | apply keeps_ite
    | intro _ | dsimp only | split | with_reducible apply keeps_mk

theorem keeps_rebuildPage (h : Keeps s t) (a1 : Nat) (a2 : Option Nat) : Keeps s (State.rebuildPage t a1 a2).1 := by
  unfold State.rebuildPage
  repeat' first
    | with_reducible first
        | assumption | apply keeps_setSq | apply opt_map | apply opt_map_val | apply keeps_getD | apply keeps_ite
        | apply keeps_ite_fst
    | intro _ | dsimp only | split | with_reducible apply keeps_mk

theorem keeps_rebuildLeaf (h : Keeps s t) (a1 : Seq) (a2 a3 : Nat) : Keeps s (State.rebuildLeaf t a1 a2 a3) := by
  unfold State.rebuildLeaf
  repeat' first
    | with_reducible first
        | assumption | apply keeps_addItem | apply keeps_updPage | apply keeps_setLeaf | apply keeps_addTables | apply keeps_getD
        | apply keeps_ite
    | intro _ | dsimp only | split | refine opt_of (by assumption) ?_ | with_reducible apply keeps_mk

theorem keeps_rebuildSeq (h : Keeps s t) (a1 : Nat) (a2 : Replay) (a3 : RSeq) (a4 : Bool) (a5 : List (Nat × Nat)) :
    Keeps s (State.rebuildSeq t a1 a2 a3 a4 a5).1 := by
  unfold State.rebuildSeq
  repeat' first
    | with_reducible first
        | assumption | apply keeps_rebuildLeaf | apply keeps_rebuildPage | apply keeps_setSq | apply keeps_takeIndex
        | apply opt_map | apply opt_map_val | apply keeps_getD | apply keeps_ite | apply keeps_ite_fst | apply keeps_foldl
        | apply keeps_foldl_fst
    | intro _ | dsimp only | split | refine keeps_fst (by assumption) ?_ | with_reducible apply keeps_mk

theorem keeps_reinsert (h : Keeps s t) (a1 : Nat) (a2 : Seq) (a3 : REntry) : Keeps s (State.reinsert t a1 a2 a3) := by
  unfold State.reinsert
  repeat' first
    | with_reducible first
        | assumption | apply keeps_add64 | apply keeps_notePending | apply keeps_sat | apply keeps_setSrch | apply keeps_ite
    | intro _ | dsimp only | split | with_reducible apply keeps_mk

theorem keeps_replayInto (h : Keeps s t) (a1 : Nat) (a2 : Replay) (a3 : Bool) : Keeps s (State.replayInto t a1 a2 a3).1 := by
  unfold State.replayInto
  repeat' first
    | with_reducible first
        | assumption | apply keeps_reinsert | apply keeps_rebuildSeq | apply keeps_sat | apply keeps_foldl | apply keeps_foldl_fst
    | intro _ | dsimp only | split | refine keeps_fst (by assumption) ?_ | with_reducible apply keeps_mk

theorem keeps_adoptPool (h : Keeps s t) (a1 : Nat) (a2 : Replay) : Keeps s (State.adoptPool t a1 a2) := by
  unfold State.adoptPool
  repeat' first
    | with_reducible first
        | assumption | apply keeps_put | apply keeps_setPair | apply keeps_setPool | apply opt_map | apply opt_map_val
        | apply keeps_getD | apply keeps_foldl | apply keeps_foldl_fst
    | intro _ | dsimp only | split | with_reducible apply keeps_mk

theorem keeps_execAdoptDone (h : Keeps s t) : Answers s (execAdoptDone t) := by
  unfold execAdoptDone
  repeat' first
    | with_reducible first
        | assumption | apply keeps_replayInto | apply keeps_adoptPool | apply keeps_put | apply keeps_regionEnds
        | apply keeps_setFlash | apply answers_next
    | intro _ | dsimp only | split | refine keeps_fst (by assumption) ?_ | with_reducible apply keeps_mk

theorem keeps_execScrubDone (h : Keeps s t) : Answers s (execScrubDone t) := by
  unfold execScrubDone
  repeat' first
    | with_reducible first
        | assumption | apply keeps_eraseChain | apply keeps_regionEnds | apply keeps_setFlash | apply answers_next
        | apply keeps_foldl | apply keeps_foldl_fst
    | intro _ | dsimp only | split | with_reducible apply keeps_mk

theorem handler_hQuiesceCtrl : HandlerKeeps hQuiesceCtrl := by
  constructor <;> intro s t h <;> unfold hQuiesceCtrl <;>
  repeat' first
    | with_reducible first
        | assumption | apply HandlerKeeps.chg handler_plain | apply HandlerKeeps.act handler_plain
        | apply HandlerKeeps.post handler_plain | apply keeps_put | apply keeps_setTier | apply keeps_ite
    | intro _ | dsimp only | split | exact h | with_reducible apply keeps_mk

theorem keeps_execQuiesceStart (h : Keeps s t) : Answers s (execQuiesceStart t) := by
  unfold execQuiesceStart
  repeat' first
    | with_reducible first
        | assumption | apply handler_hQuiesceCtrl | apply keeps_bar0 | apply answers_next
    | intro _ | dsimp only | split | with_reducible apply keeps_mk

theorem keeps_quiesceTurn (h : Keeps s t) : Keeps s (State.quiesceTurn t) := by
  unfold State.quiesceTurn
  repeat' first
    | with_reducible first
        | assumption | apply keeps_closeOpen | apply keeps_startWriting | apply keeps_ite | apply keeps_foldl
        | apply keeps_foldl_fst
    | intro _ | dsimp only | split | with_reducible apply keeps_mk

theorem keeps_cleanRegion (h : Keeps s t) (a1 : Nat) : Keeps s (State.cleanRegion t a1) := by
  unfold State.cleanRegion
  repeat' first
    | with_reducible first
        | assumption | apply keeps_flushAll | apply keeps_logRaw | apply keeps_queueKv
    | intro _ | dsimp only | split | with_reducible apply keeps_mk

theorem keeps_markClean (h : Keeps s t) : Keeps s (State.markClean t) := by
  unfold State.markClean
  repeat' first
    | with_reducible first
        | assumption | apply keeps_cleanRegion | apply keeps_firstWrite | apply keeps_reclaim | apply keeps_foldl
        | apply keeps_foldl_fst
    | intro _ | dsimp only | split | with_reducible apply keeps_mk

theorem keeps_execQuiesceDone (h : Keeps s t) : Answers s (execQuiesceDone t) := by
  unfold execQuiesceDone
  repeat' first
    | with_reducible first
        | assumption | apply keeps_expireNow | apply keeps_put | apply keeps_markClean | apply answers_next
    | intro _ | dsimp only | split | with_reducible apply keeps_mk

theorem keeps_execNandReadDone (h : Keeps s t) (a0 : Nat) (a1 : NandRes) : Answers s (execNandReadDone a0 a1 t) := by
  unfold execNandReadDone
  repeat' first
    | with_reducible first
        | assumption | apply keeps_setTier | apply keeps_readDone | apply keeps_swapReadDone | apply answers_next
    | intro _ | dsimp only | split | with_reducible apply keeps_mk

theorem keeps_mirrorWritten (h : Keeps s t) (a1 a2 a3 a4 : Nat) : Keeps s (State.mirrorWritten t a1 a2 a3 a4) := by
  unfold State.mirrorWritten
  repeat' first
    | with_reducible first
        | assumption | apply keeps_logRaw | apply keeps_setFlash | apply keeps_setPool
    | intro _ | dsimp only | split | with_reducible apply keeps_mk

theorem keeps_execProgramDone (h : Keeps s t) (a0 : Nat) (a1 : Bool) : Answers s (execProgramDone a0 a1 t) := by
  unfold execProgramDone
  repeat' first
    | with_reducible first
        | assumption | apply keeps_dieDead | apply keeps_mirrorWritten | apply keeps_pageProgrammed | apply keeps_placedDone
        | apply keeps_readyProgram | apply keeps_setTier | apply keeps_stripeTurn | apply keeps_swapWritten | apply answers_next
        | apply keeps_ite | apply keeps_foldl | apply keeps_foldl_fst
    | intro _ | dsimp only | split | refine keeps_fst (by assumption) ?_ | with_reducible apply keeps_mk

theorem keeps_completeMirror (h : Keeps s t) (a1 : MirWait) : Keeps s (State.completeMirror t a1) := by
  unfold State.completeMirror
  repeat' first
    | with_reducible first
        | assumption | apply keeps_answerHost | apply keeps_ite
    | intro _ | dsimp only | split | with_reducible apply keeps_mk

theorem keeps_afterMirror (h : Keeps s t) : Keeps s (State.afterMirror t) := by
  unfold State.afterMirror
  repeat' first
    | with_reducible first
        | assumption | apply keeps_drainEnd | apply keeps_serveWaiting | apply keeps_foldl | apply keeps_foldl_fst
    | intro _ | dsimp only | split | with_reducible apply keeps_mk

theorem keeps_partnerLost (h : Keeps s t) : Keeps s (State.partnerLost t) := by
  unfold State.partnerLost
  repeat' first
    | with_reducible first
        | assumption | apply keeps_afterMirror | apply keeps_completeMirror | apply keeps_put | apply keeps_setChain
        | apply keeps_setPool | apply keeps_foldl | apply keeps_foldl_fst
    | intro _ | dsimp only | split | with_reducible apply keeps_mk

theorem handler_hKvMirror : HandlerKeeps hKvMirror := by
  constructor <;> intro s t h <;> unfold hKvMirror <;>
  repeat' first
    | with_reducible first
        | assumption | apply HandlerKeeps.chg handler_plain | apply HandlerKeeps.act handler_plain
        | apply HandlerKeeps.post handler_plain | apply keeps_put | apply keeps_setPool | apply keeps_ite
    | intro _ | dsimp only | split | exact h | with_reducible apply keeps_mk

theorem keeps_sendKvPage (h : Keeps s t) (a1 a2 a3 : Nat) (a4 : List Byte) : Keeps s (State.sendKvPage t a1 a2 a3 a4).1 := by
  unfold State.sendKvPage
  repeat' first
    | with_reducible first
        | assumption | apply keeps_sendMirror | apply keeps_foldl | apply keeps_foldl_fst
    | intro _ | dsimp only | split | refine keeps_fst (by assumption) ?_ | with_reducible apply keeps_mk

theorem keeps_sendRecords (h : Keeps s t) (a1 : Nat) (a2 : List Nat) : Keeps s (State.sendRecords t a1 a2).1 := by
  unfold State.sendRecords
  repeat' first
    | with_reducible first
        | assumption | apply keeps_sendMirror
    | intro _ | dsimp only | split | refine keeps_fst (by assumption) ?_ | with_reducible apply keeps_mk

theorem keeps_sendKvItem (h : Keeps s t) (a1 : KvItem) : Keeps s (State.sendKvItem t a1) := by
  unfold State.sendKvItem
  repeat' first
    | with_reducible first
        | assumption | apply keeps_draw | apply keeps_sendKvPage | apply keeps_sendRecords | apply keeps_setPool | apply opt_map
        | apply opt_map_val | apply keeps_getD | apply keeps_ite | apply keeps_foldl | apply keeps_foldl_fst
    | intro _ | dsimp only | split | refine keeps_fst (by assumption) ?_ | with_reducible apply keeps_mk

theorem keeps_sendKvOut (h : Keeps s t) (a1 : Nat) : Keeps s (State.sendKvOut t a1) := by
  induction a1 generalizing t with
  | zero => exact h
  | succ n ih =>
    unfold State.sendKvOut
    split
    · exact h
    · exact keeps_ite (fun _ => ih (keeps_setPool h _)) fun _ => ih (keeps_sendKvItem h _)

theorem keeps_mirrorChain (h : Keeps s t) (a1 a2 : Nat) : Keeps s (State.mirrorChain t a1 a2) := by
  unfold State.mirrorChain
  repeat' first
    | with_reducible first
        | assumption | apply keeps_firstWrite | apply keeps_anchorUpdate | apply keeps_newChain | apply keeps_logRaw
        | apply keeps_ite
    | intro _ | dsimp only | split | with_reducible apply keeps_mk

theorem keeps_mirrorRecord (h : Keeps s t) (a1 a2 : Nat) : Keeps s (State.mirrorRecord t a1 a2) := by
  unfold State.mirrorRecord
  repeat' first
    | with_reducible first
        | assumption | apply keeps_logRaw | apply keeps_ite
    | intro _ | dsimp only | split | with_reducible apply keeps_mk

theorem keeps_mirrorSegment (h : Keeps s t) (a1 : Frame) : Keeps s (State.mirrorSegment t a1) := by
  unfold State.mirrorSegment
  repeat' first
    | with_reducible first
        | assumption | apply keeps_firstWrite | apply keeps_placeSectors | apply keeps_setPool | apply keeps_setTier
        | apply opt_map | apply opt_map_val | apply keeps_getD | apply keeps_ite | apply keeps_foldl | apply keeps_foldl_fst
    | intro _ | dsimp only | split | refine keeps_fst (by assumption) ?_ | with_reducible apply keeps_mk

theorem keeps_stampLine (h : Keeps s t) (a1 : Nat) (a2 : Frame) : Keeps s (State.stampLine t a1 a2) := by
  unfold State.stampLine
  repeat' first
    | with_reducible first
        | assumption | apply keeps_setPool
    | intro _ | dsimp only | split | with_reducible apply keeps_mk

theorem keeps_mirrorLines (h : Keeps s t) (a1 : Nat) (a2 : Frame) : Keeps s (State.mirrorLines t a1 a2).1 := by
  unfold State.mirrorLines
  exact keeps_foldl h fun u x hu => keeps_ite (fun _ => keeps_takeData (keeps_stampLine hu _ _) _ _ _ _ _) fun _ => hu

theorem keeps_mirrorQuarter (h : Keeps s t) (a1 : Nat) (a2 : Frame) : Keeps s (State.mirrorQuarter t a1 a2).1 := by
  unfold State.mirrorQuarter
  generalize List.range 256 = l
  refine keeps_ite_fst (fun _ => h) fun _ => ?_
  have k := keeps_wantPage h a1 (t.poolBase a1 + (a2.b 8 8 * 65536 + a2.b 21 1 * 16384)) true
  refine keeps_ite_fst (fun _ => k) fun _ => ?_
  dsimp only
  refine keeps_foldl k fun u x hu => keeps_ite (fun _ => ?_) fun _ => hu
  exact keeps_poolStore (keeps_stampLine hu _ _) _ _ _

theorem keeps_applyMirror (h : Keeps s t) (a1 : Frame) : Keeps s (State.applyMirror t a1).1 := by
  unfold State.applyMirror
  repeat' first
    | with_reducible first
        | assumption | apply keeps_mirrorRecord | apply keeps_mirrorLines | apply keeps_mirrorChain | apply keeps_mirrorQuarter
        | apply keeps_mirrorSegment | apply keeps_ite | apply keeps_foldl | apply keeps_foldl_fst
    | intro _ | dsimp only | split | refine keeps_fst (by assumption) ?_ | with_reducible apply keeps_mk

theorem keeps_placeMirror (h : Keeps s t) (a1 : Frame) : Keeps s (State.placeMirror t a1) := by
  unfold State.placeMirror
  repeat' first
    | with_reducible first
        | assumption | apply keeps_answer | apply keeps_applyMirror
    | intro _ | dsimp only | split | refine keeps_fst (by assumption) ?_ | with_reducible apply keeps_mk

theorem keeps_takeMirror (h : Keeps s t) (a1 : Frame) : Keeps s (State.takeMirror t a1) := by
  unfold State.takeMirror
  repeat' first
    | with_reducible first
        | assumption | apply keeps_noteXid | apply keeps_once | apply keeps_placeMirror | apply keeps_setPool | apply keeps_ite
    | intro _ | dsimp only | split | with_reducible apply keeps_mk

theorem keeps_execMirrorWrite (h : Keeps s t) (a0 : Nat) (a1 : Frame) : Answers s (execMirrorWrite a0 a1 t) := by
  unfold execMirrorWrite
  repeat' first
    | with_reducible first
        | assumption | apply keeps_receive | apply keeps_takeMirror | apply answers_next
    | intro _ | dsimp only | split | with_reducible apply keeps_mk

theorem keeps_resyncEnd (h : Keeps s t) (a1 : Bool) (a2 : Nat) : Keeps s (State.resyncEnd t a1 a2) := by
  unfold State.resyncEnd
  repeat' first
    | with_reducible first
        | assumption | apply keeps_put | apply keeps_ite
    | intro _ | dsimp only | split | with_reducible apply keeps_mk

theorem keeps_execResyncDone (h : Keeps s t) (a0 : Bool) (a1 : Nat) : Answers s (execResyncDone a0 a1 t) := by
  unfold execResyncDone
  repeat' first
    | with_reducible first
        | assumption | apply keeps_resyncEnd | apply answers_next
    | intro _ | dsimp only | split | with_reducible apply keeps_mk

theorem keeps_takeMirrorAck (h : Keeps s t) (a1 : Frame) : Keeps s (State.takeMirrorAck t a1) := by
  unfold State.takeMirrorAck
  repeat' first
    | with_reducible first
        | assumption | apply keeps_afterMirror | apply keeps_completeMirror | apply keeps_endTxn | apply keeps_partnerLost
        | apply keeps_resyncEnd | apply keeps_setPool | apply keeps_ite | apply keeps_foldl | apply keeps_foldl_fst
    | intro _ | dsimp only | split | with_reducible apply keeps_mk

theorem keeps_execMirrorAck (h : Keeps s t) (a0 : Nat) (a1 : Frame) : Answers s (execMirrorAck a0 a1 t) := by
  unfold execMirrorAck
  repeat' first
    | with_reducible first
        | assumption | apply keeps_receive | apply keeps_takeMirrorAck | apply answers_next
    | intro _ | dsimp only | split | with_reducible apply keeps_mk

theorem handler_hTandemCtrl : HandlerKeeps hTandemCtrl := by
  constructor <;> intro s t h <;> unfold hTandemCtrl <;>
  repeat' first
    | with_reducible first
        | assumption | apply HandlerKeeps.chg handler_plain | apply HandlerKeeps.act handler_plain
        | apply HandlerKeeps.post handler_plain | apply keeps_put | apply keeps_setPool | apply opt_map | apply opt_map_val
        | apply keeps_getD | apply keeps_ite | apply keeps_foldl | apply keeps_foldl_fst
    | intro _ | dsimp only | split | exact h | with_reducible apply keeps_mk

theorem keeps_execResync (h : Keeps s t) : Answers s (execResync t) := by
  unfold execResync
  repeat' first
    | with_reducible first
        | assumption | apply handler_hTandemCtrl | apply keeps_bar0Bit | apply answers_next
    | intro _ | dsimp only | split | with_reducible apply keeps_mk

theorem keeps_setResync (h : Keeps s t) (a1 : Bool × Nat × Nat) (a2 : Option Nat) : Keeps s (State.setResync t a1 a2) := by
  unfold State.setResync
  repeat' first
    | with_reducible first
        | assumption | apply keeps_setPool | apply keeps_ite
    | intro _ | dsimp only | split | with_reducible apply keeps_mk

theorem keeps_resyncChunk (h : Keeps s t) (a1 : Nat) : OptKeeps s (State.resyncChunk t a1) := by
  unfold State.resyncChunk
  repeat' first
    | with_reducible first
        | assumption | apply keeps_draw | apply keeps_sendPoolPage | apply keeps_wantPage | apply keeps_resyncEnd
        | apply keeps_sendKvPage | apply keeps_setPool | apply keeps_setResync | apply opt_none | apply opt_some | apply keeps_ite
    | intro _ | dsimp only | split | refine keeps_fst (by assumption) ?_ | with_reducible apply keeps_mk

theorem handler_hTakeoverKv : HandlerKeeps hTakeoverKv := by
  constructor <;> intro s t h <;> unfold hTakeoverKv <;>
  repeat' first
    | with_reducible first
        | assumption | apply HandlerKeeps.chg handler_plain | apply HandlerKeeps.act handler_plain
        | apply HandlerKeeps.post handler_plain | apply keeps_put | apply keeps_setPool | apply keeps_ite
    | intro _ | dsimp only | split | exact h | with_reducible apply keeps_mk

theorem keeps_execTakeoverKv (h : Keeps s t) : Answers s (execTakeoverKv t) := by
  unfold execTakeoverKv
  repeat' first
    | with_reducible first
        | assumption | apply handler_hTakeoverKv | apply keeps_bar0Bit | apply answers_next
    | intro _ | dsimp only | split | with_reducible apply keeps_mk

theorem keeps_logRebuilt (h : Keeps s t) (a1 : Seq) : Keeps s (State.logRebuilt t a1) := by
  unfold State.logRebuilt
  repeat' first
    | with_reducible first
        | assumption | apply keeps_keyCheck | apply keeps_logKv | apply keeps_foldl | apply keeps_foldl_fst
    | intro _ | dsimp only | split | with_reducible apply keeps_mk

theorem keeps_logEntries (h : Keeps s t) (a1 : Seq) (a2 : Nat) (a3 : Replay) : Keeps s (State.logEntries t a1 a2 a3) := by
  unfold State.logEntries
  repeat' first
    | with_reducible first
        | assumption | apply keeps_logKv | apply opt_map_val | apply keeps_getD | apply keeps_foldl | apply keeps_foldl_fst
    | intro _ | dsimp only | split | with_reducible apply keeps_mk

theorem keeps_execTakeoverKvDone (h : Keeps s t) : Answers s (execTakeoverKvDone t) := by
  unfold execTakeoverKvDone
  repeat' first
    | with_reducible first
        | assumption | apply keeps_memWrite | apply keeps_flushAll | apply keeps_logEntries | apply keeps_logRaw
        | apply keeps_logRebuilt | apply keeps_moveChain | apply keeps_put | apply keeps_replayInto | apply keeps_setPool
        | apply opt_map | apply opt_map_val | apply keeps_getD | apply answers_next | apply keeps_ite | apply keeps_foldl
        | apply keeps_foldl_fst
    | intro _ | dsimp only | split | refine keeps_fst (by assumption) ?_ | with_reducible apply keeps_mk

theorem handler_hRegionSize : HandlerKeeps hRegionSize := by
  constructor <;> intro s t h <;> unfold hRegionSize <;>
  repeat' first
    | with_reducible first
        | assumption | apply HandlerKeeps.chg handler_plain | apply HandlerKeeps.act handler_plain
        | apply HandlerKeeps.post handler_plain
    | intro _ | dsimp only | split | exact h | with_reducible apply keeps_mk

theorem keeps_forgetSource (h : Keeps s t) (a1 : Nat) : Keeps s (State.forgetSource t a1) := by
  unfold State.forgetSource
  repeat' first
    | with_reducible first
        | assumption | apply keeps_setChain | apply keeps_setPool
    | intro _ | dsimp only | split | with_reducible apply keeps_mk

theorem keeps_mirrorTurn (h : Keeps s t) : Keeps s (State.mirrorTurn t) := by
  unfold State.mirrorTurn
  repeat' first
    | with_reducible first
        | assumption | apply keeps_placeMirror | apply keeps_setPool | apply keeps_foldl | apply keeps_foldl_fst
    | intro _ | dsimp only | split | with_reducible apply keeps_mk

end Sys2Proof.Machine
end

