-- ==== Sys2Proof/Laws/KeepsRun.lean ====
section
/-! SUPPORT. Every operation keeps the queue, the canonical stores, the Stroke bound and what was sent: links, membership, chunk turns, tenants, faults, physical events, the boundary. -/

namespace Sys2Proof.Machine

variable {s t : State}

theorem keeps_holdHop (h : Keeps s t) (a1 : Nat) : Keeps s (State.holdHop t a1) := by
  unfold State.holdHop
  repeat' first
    | with_reducible first
        | assumption | apply keeps_setHop
    | intro _ | dsimp only | split | with_reducible apply keeps_mk

theorem keeps_loseLink (h : Keeps s t) (a1 : Nat) : Keeps s (State.loseLink t a1) := by
  unfold State.loseLink
  repeat' first
    | with_reducible first
        | assumption | apply keeps_fault | apply keeps_portDown | apply keeps_put | apply keeps_holdHop | apply keeps_ite
    | intro _ | dsimp only | split | with_reducible apply keeps_mk

theorem keeps_closePair (h : Keeps s t) (a1 : Nat) : Keeps s (State.closePair t a1) := by
  unfold State.closePair
  repeat' first
    | with_reducible first
        | assumption | apply keeps_loseLink | apply keeps_setPairSt
    | intro _ | dsimp only | split | with_reducible apply keeps_mk

theorem handler_hFreewheelCtrl : HandlerKeeps hFreewheelCtrl := by
  constructor <;> intro s t h <;> unfold hFreewheelCtrl <;>
  repeat' first
    | with_reducible first
        | assumption | apply HandlerKeeps.chg handler_plain | apply HandlerKeeps.act handler_plain
        | apply HandlerKeeps.post handler_plain | apply keeps_closePair | apply keeps_setPairSt | apply keeps_ite
        | apply keeps_foldl | apply keeps_foldl_fst
    | intro _ | dsimp only | split | exact h | with_reducible apply keeps_mk

theorem keeps_execFreewheelOpen (h : Keeps s t) (a0 : Nat) : Answers s (execFreewheelOpen a0 t) := by
  unfold execFreewheelOpen
  repeat' first
    | with_reducible first
        | assumption | apply keeps_bar0 | apply handler_hFreewheelCtrl | apply answers_next
    | intro _ | dsimp only | split | with_reducible apply keeps_mk

theorem keeps_execFreewheelClose (h : Keeps s t) (a0 : Nat) : Answers s (execFreewheelClose a0 t) := by
  unfold execFreewheelClose
  repeat' first
    | with_reducible first
        | assumption | apply keeps_bar0 | apply handler_hFreewheelCtrl | apply answers_next
    | intro _ | dsimp only | split | with_reducible apply keeps_mk

theorem keeps_execLinkDown (h : Keeps s t) (a0 : Nat) : Answers s (execLinkDown a0 t) := by
  unfold execLinkDown
  repeat' first
    | with_reducible first
        | assumption | apply keeps_loseLink | apply answers_next
    | intro _ | dsimp only | split | with_reducible apply keeps_mk

theorem keeps_endHold (h : Keeps s t) (a1 : Nat) : Keeps s (State.endHold t a1) := by
  unfold State.endHold
  repeat' first
    | with_reducible first
        | assumption | apply keeps_sendFrom | apply keeps_setHop | apply keeps_foldl | apply keeps_foldl_fst
    | intro _ | dsimp only | split | with_reducible apply keeps_mk

theorem keeps_execLinkHoldExpiry (h : Keeps s t) (a0 : Nat) : Answers s (execLinkHoldExpiry a0 t) := by
  unfold execLinkHoldExpiry
  repeat' first
    | with_reducible first
        | assumption | apply keeps_endHold | apply answers_next
    | intro _ | dsimp only | split | with_reducible apply keeps_mk

theorem keeps_dueHolds (h : Keeps s t) : Keeps s (State.dueHolds t) := by
  unfold State.dueHolds
  repeat' first
    | with_reducible first
        | assumption | apply keeps_endHold | apply keeps_ite | apply keeps_foldl | apply keeps_foldl_fst
    | intro _ | dsimp only | split | with_reducible apply keeps_mk

theorem keeps_relink (h : Keeps s t) (a1 a2 : Nat) : Keeps s (State.relink t a1 a2) := by
  unfold State.relink
  repeat' first
    | with_reducible first
        | assumption | apply keeps_drainHop | apply keeps_payOwed | apply keeps_put | apply keeps_replayHop | apply keeps_setHop
        | apply keeps_ite
    | intro _ | dsimp only | split | with_reducible apply keeps_mk

theorem keeps_execLinkUp (h : Keeps s t) (a0 a1 : Nat) : Answers s (execLinkUp a0 a1 t) := by
  unfold execLinkUp
  repeat' first
    | with_reducible first
        | assumption | apply keeps_portEvent | apply keeps_put | apply keeps_relink | apply answers_next | apply keeps_ite
    | intro _ | dsimp only | split | with_reducible apply keeps_mk

theorem keeps_loseMember (h : Keeps s t) (a1 : Nat) : Keeps s (State.loseMember t a1) := by
  unfold State.loseMember
  repeat' first
    | with_reducible first
        | assumption | apply keeps_event | apply keeps_fault | apply keeps_forgetSource | apply keeps_memberLostSends
        | apply keeps_partnerLost | apply keeps_sat | apply keeps_setChain | apply keeps_setRoster | apply keeps_ite
    | intro _ | dsimp only | split | with_reducible apply keeps_mk

theorem keeps_leave (h : Keeps s t) : Keeps s (State.leave t) := by
  unfold State.leave
  repeat' first
    | with_reducible first
        | assumption | apply keeps_partnerLost | apply keeps_setReg | apply keeps_put | apply keeps_setChain
        | apply keeps_memberLostSends | apply keeps_ite | apply keeps_foldl | apply keeps_foldl_fst
    | intro _ | dsimp only | split | with_reducible apply keeps_mk

theorem handler_hMemberCtrl : HandlerKeeps hMemberCtrl := by
  constructor <;> intro s t h <;> unfold hMemberCtrl <;>
  repeat' first
    | with_reducible first
        | assumption | apply HandlerKeeps.chg handler_plain | apply HandlerKeeps.act handler_plain
        | apply HandlerKeeps.post handler_plain | apply keeps_leave | apply keeps_put | apply keeps_setChain
        | apply keeps_tryJoin | apply keeps_ite
    | intro _ | dsimp only | split | exact h | with_reducible apply keeps_mk

theorem keeps_execJoinCmd (h : Keeps s t) : Answers s (execJoinCmd t) := by
  unfold execJoinCmd
  repeat' first
    | with_reducible first
        | assumption | apply keeps_bar0Bit | apply handler_hMemberCtrl | apply answers_next
    | intro _ | dsimp only | split | with_reducible apply keeps_mk

theorem keeps_execLeaveCmd (h : Keeps s t) : Answers s (execLeaveCmd t) := by
  unfold execLeaveCmd
  repeat' first
    | with_reducible first
        | assumption | apply keeps_bar0Bit | apply handler_hMemberCtrl | apply answers_next
    | intro _ | dsimp only | split | with_reducible apply keeps_mk

theorem keeps_execJoinTimeout (h : Keeps s t) : Answers s (execJoinTimeout t) := by
  unfold execJoinTimeout
  repeat' first
    | with_reducible first
        | assumption | apply keeps_refuseJoin | apply answers_next
    | intro _ | dsimp only | split | with_reducible apply keeps_mk

theorem keeps_sendMark (h : Keeps s t) (a1 : Bool) : Keeps s (State.sendMark t a1) := by
  unfold State.sendMark
  repeat' first
    | with_reducible first
        | assumption | apply keeps_nextFree | apply keeps_sendTo | apply keeps_ite
    | intro _ | dsimp only | split | with_reducible apply keeps_mk

theorem keeps_armFrom (h : Keeps s t) (a1 a2 : Nat) : Keeps s (State.armFrom t a1 a2) := by
  unfold State.armFrom
  repeat' first
    | with_reducible first
        | assumption | apply keeps_put | apply keeps_ite
    | intro _ | dsimp only | split | with_reducible apply keeps_mk

theorem keeps_takeCountFrom (h : Keeps s t) (a1 : Nat) : Keeps s (State.takeCountFrom t a1) := by
  unfold State.takeCountFrom
  repeat' first
    | with_reducible first
        | assumption | apply keeps_setChain | apply keeps_becomeMember
    | intro _ | dsimp only | split | with_reducible apply keeps_mk

theorem keeps_judgeMark (h : Keeps s t) (a1 : Nat) (a2 : Int) (a3 : Nat) : Keeps s (State.judgeMark t a1 a2 a3) := by
  unfold State.judgeMark
  repeat' first
    | with_reducible first
        | assumption | apply keeps_leave | apply keeps_put | apply keeps_sat | apply keeps_setChain | apply keeps_ite
    | intro _ | dsimp only | split | with_reducible apply keeps_mk

theorem keeps_takeMark (h : Keeps s t) (a1 : Frame) (a2 : Int) : Keeps s (State.takeMark t a1 a2) := by
  unfold State.takeMark
  repeat' first
    | with_reducible first
        | assumption | apply keeps_armFrom | apply keeps_judgeMark | apply keeps_takeCountFrom | apply keeps_ite
    | intro _ | dsimp only | split | with_reducible apply keeps_mk

theorem keeps_execMarkReceive (h : Keeps s t) (a0 : Nat) (a1 : Frame) (a2 : Int) : Answers s (execMarkReceive a0 a1 a2 t) := by
  unfold execMarkReceive
  repeat' first
    | with_reducible first
        | assumption | apply keeps_receive | apply keeps_takeMark | apply answers_next
    | intro _ | dsimp only | split | with_reducible apply keeps_mk

theorem keeps_execMarkTimeout (h : Keeps s t) : Answers s (execMarkTimeout t) := by
  unfold execMarkTimeout
  repeat' first
    | with_reducible first
        | assumption | apply keeps_leave | apply answers_next
    | intro _ | dsimp only | split | with_reducible apply keeps_mk

theorem keeps_execRosterTimeout (h : Keeps s t) (a0 : Nat) : Answers s (execRosterTimeout a0 t) := by
  unfold execRosterTimeout
  repeat' first
    | with_reducible first
        | assumption | apply keeps_loseMember | apply answers_next
    | intro _ | dsimp only | split | with_reducible apply keeps_mk

theorem keeps_failTxn (h : Keeps s t) (a1 : Txn) : Keeps s (State.failTxn t a1) := by
  unfold State.failTxn
  repeat' first
    | with_reducible first
        | assumption | apply keeps_countAck | apply keeps_partnerLost | apply keeps_takeOpenAnswer | apply keeps_sendLost
        | apply keeps_endTxn | apply keeps_ite
    | intro _ | dsimp only | split | with_reducible apply keeps_mk

theorem keeps_resend (h : Keeps s t) (a1 : Txn) : Keeps s (State.resend t a1) := by
  unfold State.resend
  repeat' first
    | with_reducible first
        | assumption | apply keeps_sendTo | apply keeps_setChain | apply keeps_ite | apply keeps_foldl | apply keeps_foldl_fst
    | intro _ | dsimp only | split | with_reducible apply keeps_mk

theorem keeps_txnTurn (h : Keeps s t) (a1 : Txn) : Keeps s (State.txnTurn t a1) := by
  unfold State.txnTurn
  repeat' first
    | with_reducible first
        | assumption | apply keeps_resend | apply keeps_failTxn | apply keeps_ite
    | intro _ | dsimp only | split | with_reducible apply keeps_mk

theorem keeps_execXferWaitExpiry (h : Keeps s t) (a0 : Nat) : Answers s (execXferWaitExpiry a0 t) := by
  unfold execXferWaitExpiry
  repeat' first
    | with_reducible first
        | assumption | apply keeps_txnTurn | apply answers_next
    | intro _ | dsimp only | split | with_reducible apply keeps_mk

theorem keeps_duePeloton (h : Keeps s t) : Keeps s (State.duePeloton t) := by
  unfold State.duePeloton
  repeat' first
    | with_reducible first
        | assumption | apply keeps_txnTurn | apply keeps_leave | apply keeps_loseMember | apply keeps_refuseJoin | apply keeps_ite
        | apply keeps_foldl | apply keeps_foldl_fst
    | intro _ | dsimp only | split | with_reducible apply keeps_mk

/-- What is carried by a `Start` keeps all of that. -/
inductive StartKeeps (s : State) : Start → Prop where
  | skip {t : State} (h : Keeps s t) : StartKeeps s (.skip t)
  | blocked : StartKeeps s (.blocked)
  | did {t : State} (h : Keeps s t) : StartKeeps s (.did t)

theorem start_of_skip {d : Start} (e : d = .skip t) (h : StartKeeps s d) : Keeps s t := by
  subst e; cases h; assumption

theorem start_of_did {d : Start} (e : d = .did t) (h : StartKeeps s d) : Keeps s t := by
  subst e; cases h; assumption

theorem keeps_settle (h : Keeps s t) (a1 : Nat) : Keeps s (State.settle t a1) := by
  unfold State.settle
  repeat' first
    | with_reducible first
        | assumption | apply keeps_finishAttn | apply keeps_finishUpdate | apply keeps_latchEnd | apply keeps_settleReshard
        | apply keeps_finishAppend | apply keeps_settleFind | apply keeps_settleDeliver | apply keeps_finishXfer | apply keeps_ite
    | intro _ | dsimp only | split | with_reducible apply keeps_mk

theorem keeps_decide_ (h : Keeps s t) (a1 : Work) : DecKeeps s (State.decide_ t a1) := by
  unfold State.decide_
  repeat' first
    | with_reducible first
        | assumption | apply keeps_decSearch | apply keeps_decRead | apply keeps_decScore | apply keeps_decReshard
        | apply keeps_decAttn | apply keeps_decXfer | apply keeps_decDeliver | apply keeps_decUnpin | apply keeps_decAppend
        | apply keeps_decPin | apply dec_ite | exact DecKeeps.wait | exact DecKeeps.noFrame | apply DecKeeps.hookWait
        | apply DecKeeps.stop | apply DecKeeps.pass | apply DecKeeps.go
    | intro _ | dsimp only | split | refine dec_of_hookWait (by assumption) ?_ | refine dec_of_stop (by assumption) ?_
    | refine dec_of_pass (by assumption) ?_ | refine dec_of_go (by assumption) ?_ | with_reducible apply keeps_mk

theorem keeps_drainStop (h : Keeps s t) (a1 : Nat) : Keeps s (State.drainStop t a1) := by
  unfold State.drainStop
  repeat' first
    | with_reducible first
        | assumption | apply keeps_updWork | apply keeps_ite
    | intro _ | dsimp only | split | with_reducible apply keeps_mk

theorem keeps_begin (h : Keeps s t) (a1 : Work) (a2 : UnitKind) (a3 : Res6) (a4 : List Nat) (a5 : Bool) (a6 : RunRes) :
    Keeps s (State.begin t a1 a2 a3 a4 a5 a6) := by
  unfold State.begin
  repeat' first
    | with_reducible first
        | assumption | apply keeps_nextFree | apply keeps_drainStop | apply keeps_draw | apply keeps_hold
        | apply keeps_noteEpoch | apply keeps_touch | apply keeps_updWork | apply keeps_ite | apply keeps_foldl
        | apply keeps_foldl_fst
    | intro _ | dsimp only | split | with_reducible apply keeps_mk

theorem keeps_passed (h : Keeps s t) (a1 : Work) : Keeps s (State.passed t a1) := by
  unfold State.passed
  repeat' first
    | with_reducible first
        | assumption | apply keeps_updWork | apply keeps_settle | apply keeps_ite
    | intro _ | dsimp only | split | with_reducible apply keeps_mk

theorem keeps_countAhead (h : Keeps s t) (a1 : Work) : Keeps s (State.countAhead t a1) := by
  unfold State.countAhead
  repeat' first
    | with_reducible first
        | assumption | apply keeps_decide_ | apply keeps_ite | apply keeps_foldl | apply keeps_foldl_fst
    | intro _ | dsimp only | split | refine dec_of_hookWait (by assumption) ?_ | refine dec_of_stop (by assumption) ?_
    | refine dec_of_pass (by assumption) ?_ | refine dec_of_go (by assumption) ?_ | with_reducible apply keeps_mk

theorem keeps_tryStart (h : Keeps s t) (a1 : Work) (a2 : UnitKind) : StartKeeps s (State.tryStart t a1 a2) := by
  unfold State.tryStart
  repeat' first
    | with_reducible first
        | assumption | apply keeps_begin | apply keeps_countAhead | apply keeps_decide_ | apply keeps_draw | apply keeps_passed
        | apply keeps_settle | apply keeps_updWork | apply StartKeeps.skip | exact StartKeeps.blocked | apply StartKeeps.did
        | apply keeps_ite
    | intro _ | dsimp only | split | refine dec_of_hookWait (by assumption) ?_ | refine dec_of_stop (by assumption) ?_
    | refine dec_of_pass (by assumption) ?_ | refine dec_of_go (by assumption) ?_ | with_reducible apply keeps_mk

theorem keeps_tryAll (h : Keeps s t) (a1 : UnitKind) (a2 : List Work) : Keeps s (State.tryAll t a1 a2).1 := by
  induction a2 generalizing t with
  | nil =>
    unfold State.tryAll
    repeat' first
      | with_reducible first
          | assumption | apply keeps_tryStart | apply StartKeeps.skip | exact StartKeeps.blocked | apply StartKeeps.did
      | intro _ | dsimp only | split | refine start_of_skip (by assumption) ?_ | refine start_of_did (by assumption) ?_
      | with_reducible apply keeps_mk
  | cons x l ih =>
    unfold State.tryAll
    repeat' first
      | with_reducible first
          | assumption | apply ih | apply keeps_tryStart | apply StartKeeps.skip | exact StartKeeps.blocked | apply StartKeeps.did
      | intro _ | dsimp only | split | refine start_of_skip (by assumption) ?_ | refine start_of_did (by assumption) ?_
      | with_reducible apply keeps_mk

theorem keeps_flashTurn (h : Keeps s t) (a1 : Nat) : Keeps s (State.flashTurn t a1).1 := by
  unfold State.flashTurn
  repeat' first
    | with_reducible first
        | assumption | apply keeps_flashFirst | apply opt_none | apply opt_some | apply opt_map | apply opt_map_val
        | apply opt_bind | apply keeps_getD
    | intro _ | dsimp only | split | refine opt_of (by assumption) ?_ | with_reducible apply keeps_mk

theorem keeps_turnOf (h : Keeps s t) (a1 : UnitKind) (a2 : Nat) : Keeps s (State.turnOf t a1 a2).1 := by
  unfold State.turnOf
  repeat' first
    | with_reducible first
        | assumption | apply keeps_resyncChunk | apply keeps_tryAll | apply keeps_flashTurn | apply keeps_ite
    | intro _ | dsimp only | split | refine keeps_fst (by assumption) ?_ | refine opt_of (by assumption) ?_
    | with_reducible apply keeps_mk

theorem keeps_rotate (h : Keeps s t) (a1 : UnitKind) (a2 : List Nat) : Keeps s (State.rotate t a1 a2) := by
  induction a2 generalizing t with
  | nil =>
    unfold State.rotate
    repeat' first
      | with_reducible first
          | assumption | apply keeps_turnOf | apply keeps_ite
      | intro _ | dsimp only | split | refine keeps_fst (by assumption) ?_ | with_reducible apply keeps_mk
  | cons x l ih =>
    unfold State.rotate
    repeat' first
      | with_reducible first
          | assumption | apply ih | apply keeps_turnOf | apply keeps_ite
      | intro _ | dsimp only | split | refine keeps_fst (by assumption) ?_ | with_reducible apply keeps_mk

theorem keeps_noteWaits (h : Keeps s t) : Keeps s (State.noteWaits t) := by
  unfold State.noteWaits
  repeat' first
    | with_reducible first
        | assumption | apply keeps_setTier | apply keeps_ite
    | intro _ | dsimp only | split | with_reducible apply keeps_mk

theorem keeps_execChunkStart (h : Keeps s t) (a0 : UnitKind) : Answers s (execChunkStart a0 t) := by
  unfold execChunkStart
  repeat' first
    | with_reducible first
        | assumption | apply keeps_noteWaits | apply keeps_rotate | apply answers_next
    | intro _ | dsimp only | split | with_reducible apply keeps_mk

theorem keeps_install (h : Keeps s t) (a1 : Work) (a2 : Run) : Keeps s (State.install t a1 a2) := by
  unfold State.install
  repeat' first
    | with_reducible first
        | assumption | apply keeps_endAttn | apply keeps_endAppend | apply keeps_endXfer | apply keeps_endFind
        | apply keeps_endSend | apply keeps_memWrite | apply keeps_endUpdate | apply keeps_ite
    | intro _ | dsimp only | split | with_reducible apply keeps_mk

theorem keeps_endRun (h : Keeps s t) (a1 : Work) (a2 : Run) : Keeps s (State.endRun t a1 a2) := by
  unfold State.endRun
  repeat' first
    | with_reducible first
        | assumption | apply keeps_dropCalls | apply keeps_dropRun | apply keeps_freeHeld | apply keeps_updWork
        | apply keeps_settle | apply keeps_updPage | apply keeps_install | apply opt_bind | apply keeps_ite
    | intro _ | dsimp only | split | with_reducible apply keeps_mk

theorem keeps_inputFault (h : Keeps s t) (a1 : Work) (a2 : Run) : Keeps s (State.inputFault t a1 a2) := by
  unfold State.inputFault
  repeat' first
    | with_reducible first
        | assumption | apply keeps_dropCalls | apply keeps_dropRun | apply keeps_fault | apply keeps_freeHeld
        | apply keeps_settle | apply keeps_updWork
    | intro _ | dsimp only | split | with_reducible apply keeps_mk

theorem keeps_queryFault (h : Keeps s t) (a1 : Work) : Keeps s (State.queryFault t a1) := by
  unfold State.queryFault
  repeat' first
    | with_reducible first
        | assumption | apply keeps_fault | apply keeps_settle | apply keeps_updWork | apply keeps_ite
    | intro _ | dsimp only | split | with_reducible apply keeps_mk

theorem keeps_execChunkEnd (h : Keeps s t) (a0 a1 : Nat) (a2 : ChunkRes) : Answers s (execChunkEnd a0 a1 a2 t) := by
  unfold execChunkEnd
  repeat' first
    | with_reducible first
        | assumption | apply keeps_endRun | apply keeps_inputFault | apply keeps_queryFault | apply answers_next
        | apply keeps_ite
    | intro _ | dsimp only | split | with_reducible apply keeps_mk

theorem keeps_markThrottled (h : Keeps s t) (a1 : Work) : Keeps s (State.markThrottled t a1) := by
  unfold State.markThrottled
  repeat' first
    | with_reducible first
        | assumption | apply keeps_flagWork | apply keeps_sat | apply keeps_ite
    | intro _ | dsimp only | split | with_reducible apply keeps_mk

theorem keeps_throttlePart (h : Keeps s t) (a1 : Bool) (a2 : Nat) (a3 : List Work) : Keeps s (State.throttlePart t a1 a2 a3) := by
  induction a3 generalizing t a2 with
  | nil => unfold State.throttlePart; exact h
  | cons x l ih =>
    cases a2 <;> unfold State.throttlePart
    all_goals
      repeat' first
        | with_reducible first
            | assumption | apply ih | apply keeps_markThrottled | apply keeps_ite
        | intro _ | dsimp only | split | with_reducible apply keeps_mk

theorem keeps_throttle (h : Keeps s t) : Keeps s (State.throttle t) := by
  unfold State.throttle
  repeat' first
    | with_reducible first
        | assumption | apply keeps_markThrottled | apply keeps_throttlePart | apply keeps_ite | apply keeps_foldl
        | apply keeps_foldl_fst
    | intro _ | dsimp only | split | with_reducible apply keeps_mk

theorem handler_hPartitionCtrl : HandlerKeeps hPartitionCtrl := by
  constructor <;> intro s t h <;> unfold hPartitionCtrl <;>
  repeat' first
    | with_reducible first
        | assumption | apply HandlerKeeps.chg handler_plain | apply HandlerKeeps.act handler_plain
        | apply HandlerKeeps.post handler_plain | apply keeps_atBoundary | apply keeps_ite
    | intro _ | dsimp only | split | exact h | with_reducible apply keeps_mk

theorem keeps_execPartitionCreate (h : Keeps s t) : Answers s (execPartitionCreate t) := by
  unfold execPartitionCreate
  repeat' first
    | with_reducible first
        | assumption | apply keeps_bar0Bit | apply handler_hPartitionCtrl | apply answers_next
    | intro _ | dsimp only | split | with_reducible apply keeps_mk

theorem keeps_execPartitionDestroy (h : Keeps s t) : Answers s (execPartitionDestroy t) := by
  unfold execPartitionDestroy
  repeat' first
    | with_reducible first
        | assumption | apply keeps_bar0Bit | apply handler_hPartitionCtrl | apply answers_next
    | intro _ | dsimp only | split | with_reducible apply keeps_mk

theorem keeps_clearPart (h : Keeps s t) (a1 : Nat) : Keeps s (State.clearPart t a1) := by
  unfold State.clearPart
  exact keeps_mk2 h (spWf_filter _ _ _) (spWf_filter _ _ _)

theorem keeps_createPart (h : Keeps s t) (a1 : Nat) : Keeps s (State.createPart t a1) := by
  unfold State.createPart
  repeat' first
    | with_reducible first
        | assumption | apply keeps_put | apply keeps_clearPart
    | intro _ | dsimp only | split | with_reducible apply keeps_mk

theorem keeps_destroyPart (h : Keeps s t) (a1 : Nat) : Keeps s (State.destroyPart t a1) := by
  unfold State.destroyPart
  repeat' first
    | with_reducible first
        | assumption | apply keeps_put | apply keeps_clearPart
    | intro _ | dsimp only | split | with_reducible apply keeps_mk

theorem keeps_resetWork (h : Keeps s t) (a1 : Nat) (a2 : Bool) : Keeps s (State.resetWork t a1 a2) := by
  unfold State.resetWork
  repeat' first
    | with_reducible first
        | assumption | apply keeps_latch | apply keeps_setChain | apply keeps_settle | apply keeps_undoFork
        | apply keeps_updWork | apply keeps_ite
    | intro _ | dsimp only | split | with_reducible apply keeps_mk

theorem keeps_startReset (h : Keeps s t) (a1 : Nat) (a2 a3 : Bool) : Keeps s (State.startReset t a1 a2 a3) := by
  unfold State.startReset
  repeat' first
    | with_reducible first
        | assumption | apply keeps_put | apply keeps_resetWork | apply keeps_sameCycle | apply opt_map | apply opt_map_val
        | apply keeps_getD | apply keeps_ite | apply keeps_foldl | apply keeps_foldl_fst
    | intro _ | dsimp only | split | with_reducible apply keeps_mk

theorem keeps_execFlrVf (h : Keeps s t) (a0 : Nat) : Answers s (execFlrVf a0 t) := by
  unfold execFlrVf
  refine answers_next ?_
  split
  · exact h
  · dsimp only
    split
    · exact keeps_msix h (spWf_filter _ _ _)
    · exact keeps_startReset (keeps_mk (keeps_msix h (spWf_filter _ _ _))) _ _ _

theorem handler_hTenantCtrl : HandlerKeeps hTenantCtrl := by
  constructor <;> intro s t h <;> unfold hTenantCtrl <;>
  repeat' first
    | with_reducible first
        | assumption | apply HandlerKeeps.chg handler_plain | apply HandlerKeeps.act handler_plain
        | apply HandlerKeeps.post handler_plain | apply keeps_atBoundary | apply keeps_put | apply keeps_startReset
        | apply keeps_ite
    | intro _ | dsimp only | split | exact h | with_reducible apply keeps_mk

theorem keeps_execTenantCreate (h : Keeps s t) : Answers s (execTenantCreate t) := by
  unfold execTenantCreate
  repeat' first
    | with_reducible first
        | assumption | apply keeps_bar0Bit | apply handler_hTenantCtrl | apply answers_next
    | intro _ | dsimp only | split | with_reducible apply keeps_mk

theorem keeps_execTenantDestroy (h : Keeps s t) : Answers s (execTenantDestroy t) := by
  unfold execTenantDestroy
  repeat' first
    | with_reducible first
        | assumption | apply keeps_bar0Bit | apply handler_hTenantCtrl | apply answers_next
    | intro _ | dsimp only | split | with_reducible apply keeps_mk

theorem keeps_execTenantReset (h : Keeps s t) : Answers s (execTenantReset t) := by
  unfold execTenantReset
  repeat' first
    | with_reducible first
        | assumption | apply keeps_bar0Bit | apply handler_hTenantCtrl | apply answers_next
    | intro _ | dsimp only | split | with_reducible apply keeps_mk

theorem keeps_createTenant (h : Keeps s t) (a1 : Nat) : Keeps s (State.createTenant t a1) := by
  unfold State.createTenant
  refine keeps_ite (fun _ => h) fun _ => keeps_ite (fun _ => keeps_put h _ _ _) fun _ => ?_
  exact keeps_setLive (keeps_put (keeps_put (keeps_mk2 h (spWf_filter _ _ _) (spWf_filter _ _ _)) _ _ _) _ _ _) _ _ _

theorem handler_hVfBind : HandlerKeeps hVfBind := by
  constructor <;> intro s t h <;> unfold hVfBind <;>
  repeat' first
    | with_reducible first
        | assumption | apply HandlerKeeps.chg handler_plain | apply HandlerKeeps.act handler_plain
        | apply HandlerKeeps.post handler_plain
    | intro _ | dsimp only | split | exact h | with_reducible apply keeps_mk

theorem keeps_freeTenant (h : Keeps s t) (a1 : Nat) : Keeps s (State.freeTenant t a1) := by
  unfold State.freeTenant
  exact keeps_mk2 h (spWf_filter _ _ _) (spWf_filter _ _ _)

theorem keeps_dropRings (h : Keeps s t) (a1 : Nat) : Keeps s (State.dropRings t a1) := by
  unfold State.dropRings
  repeat' first
    | with_reducible first
        | assumption | apply keeps_setReg | apply keeps_foldl | apply keeps_foldl_fst
    | intro _ | dsimp only | split | with_reducible apply keeps_mk

theorem keeps_endDrain (h : Keeps s t) (a1 : Drain) : Keeps s (State.endDrain t a1) := by
  unfold State.endDrain
  repeat' first
    | with_reducible first
        | assumption | apply keeps_dropRings | apply keeps_put | apply keeps_freeTenant | apply keeps_ite
    | intro _ | dsimp only | split | with_reducible apply keeps_mk

theorem keeps_endDrains (h : Keeps s t) : Keeps s (State.endDrains t) := by
  unfold State.endDrains
  repeat' first
    | with_reducible first
        | assumption | apply keeps_endDrain | apply keeps_ite | apply keeps_foldl | apply keeps_foldl_fst
    | intro _ | dsimp only | split | with_reducible apply keeps_mk

theorem keeps_expireDrain (h : Keeps s t) (a1 : Nat) : Keeps s (State.expireDrain t a1) := by
  unfold State.expireDrain
  repeat' first
    | with_reducible first
        | assumption | apply keeps_dropCalls | apply keeps_dropRun | apply keeps_latch | apply keeps_sameCycle
        | apply keeps_setChain | apply keeps_settle | apply keeps_updWork | apply keeps_ite | apply keeps_foldl
        | apply keeps_foldl_fst
    | intro _ | dsimp only | split | with_reducible apply keeps_mk

theorem keeps_execResetDrainExpiry (h : Keeps s t) (a0 : Nat) : Answers s (execResetDrainExpiry a0 t) := by
  unfold execResetDrainExpiry
  repeat' first
    | with_reducible first
        | assumption | apply keeps_expireDrain | apply answers_next
    | intro _ | dsimp only | split | with_reducible apply keeps_mk

theorem keeps_dueDrains (h : Keeps s t) : Keeps s (State.dueDrains t) := by
  unfold State.dueDrains
  repeat' first
    | with_reducible first
        | assumption | apply keeps_expireDrain | apply keeps_ite | apply keeps_foldl | apply keeps_foldl_fst
    | intro _ | dsimp only | split | with_reducible apply keeps_mk

theorem keeps_zeroKeyData (h : Keeps s t) (a1 : Nat) : Keeps s (State.zeroKeyData t a1) := by
  unfold State.zeroKeyData
  repeat' first
    | with_reducible first
        | assumption | apply keeps_setReg | apply keeps_foldl | apply keeps_foldl_fst
    | intro _ | dsimp only | split | with_reducible apply keeps_mk

theorem handler_hKeyData (a0 : Nat) : HandlerKeeps (hKeyData a0) := by
  constructor <;> intro s t h <;> unfold hKeyData <;>
  repeat' first
    | with_reducible first
        | assumption | apply HandlerKeeps.chg handler_plain | apply HandlerKeeps.act handler_plain
        | apply HandlerKeeps.post handler_plain | apply keeps_setReg
    | intro _ | dsimp only | split | exact h | with_reducible apply keeps_mk

theorem handler_hKeyCtrl : HandlerKeeps hKeyCtrl := by
  constructor <;> intro s t h <;> unfold hKeyCtrl
  · exact fun _ _ _ => h
  · intro i v
    dsimp only
    generalize kcv (t.keyData i) = c
    refine keeps_ite (fun _ => keeps_ite (fun _ => keeps_put (keeps_zeroKeyData h _) _ _ _) fun _ => ?_) fun _ => ?_
    · exact keeps_setReg (keeps_put (keeps_mk (keeps_put (keeps_zeroKeyData h _) _ _ _)) _ _ _) _ _ _
    · refine keeps_ite (fun _ => keeps_ite (fun _ => keeps_put h _ _ _) fun _ => ?_) fun _ => h
      exact keeps_setReg (keeps_put (keeps_put (keeps_mk h) _ _ _) _ _ _) _ _ _
  · exact fun _ => h

theorem keeps_execKeyLoad (h : Keeps s t) : Answers s (execKeyLoad t) := by
  unfold execKeyLoad
  repeat' first
    | with_reducible first
        | assumption | apply handler_hKeyCtrl | apply keeps_bar0Bit | apply answers_next
    | intro _ | dsimp only | split | with_reducible apply keeps_mk

theorem keeps_execKeyClear (h : Keeps s t) : Answers s (execKeyClear t) := by
  unfold execKeyClear
  repeat' first
    | with_reducible first
        | assumption | apply handler_hKeyCtrl | apply keeps_bar0Bit | apply answers_next
    | intro _ | dsimp only | split | with_reducible apply keeps_mk

theorem keeps_cutRun (h : Keeps s t) (a1 : Nat) (a2 : Run) (a3 : Nat) : Keeps s (State.cutRun t a1 a2 a3) := by
  unfold State.cutRun
  repeat' first
    | with_reducible first
        | assumption | apply keeps_dropCalls | apply keeps_dropRun | apply keeps_freeHeld | apply keeps_updWork
        | apply keeps_settle
    | intro _ | dsimp only | split | with_reducible apply keeps_mk

theorem keeps_cutStack (h : Keeps s t) (a1 : Nat) : Keeps s (State.cutStack t a1) := by
  unfold State.cutStack
  repeat' first
    | with_reducible first
        | assumption | apply keeps_cutRun | apply keeps_foldl | apply keeps_foldl_fst
    | intro _ | dsimp only | split | with_reducible apply keeps_mk

theorem keeps_losePageFrame (h : Keeps s t) (a1 : Page) : Keeps s (State.losePageFrame t a1) := by
  unfold State.losePageFrame
  repeat' first
    | with_reducible first
        | assumption | apply keeps_logKv | apply keeps_setTier | apply keeps_updPage | apply keeps_ite | apply keeps_foldl
        | apply keeps_foldl_fst
    | intro _ | dsimp only | split | with_reducible apply keeps_mk

theorem keeps_loseStaged (h : Keeps s t) (a1 : StagedPage) : Keeps s (State.loseStaged t a1) := by
  unfold State.loseStaged
  repeat' first
    | with_reducible first
        | assumption | apply keeps_setPlan | apply keeps_setChain
    | intro _ | dsimp only | split | with_reducible apply keeps_mk

theorem keeps_loseSwapPage (h : Keeps s t) (a1 : SwapPage) : Keeps s (State.loseSwapPage t a1) := by
  unfold State.loseSwapPage
  repeat' first
    | with_reducible first
        | assumption | apply keeps_setPool | apply keeps_ite
    | intro _ | dsimp only | split | with_reducible apply keeps_mk

theorem keeps_stackFates (h : Keeps s t) (a1 : Nat) : Keeps s (State.stackFates t a1) := by
  unfold State.stackFates
  repeat' first
    | with_reducible first
        | assumption | apply keeps_loseSwapPage | apply keeps_loseRegion | apply keeps_losePageFrame | apply keeps_cutStack
        | apply keeps_loseStaged | apply keeps_foldl | apply keeps_foldl_fst
    | intro _ | dsimp only | split | with_reducible apply keeps_mk

theorem keeps_execStackFailure (h : Keeps s t) (a0 : Nat) : Answers s (execStackFailure a0 t) := by
  unfold execStackFailure
  repeat' first
    | with_reducible first
        | assumption | apply keeps_enterFault | apply keeps_event | apply keeps_fault | apply keeps_put | apply keeps_sameCycle
        | apply keeps_stackFates | apply answers_next | apply keeps_ite
    | intro _ | dsimp only | split | with_reducible apply keeps_mk

theorem keeps_execTableRebuildDone (h : Keeps s t) (a0 : Nat) : Answers s (execTableRebuildDone a0 t) := by
  unfold execTableRebuildDone
  repeat' first
    | with_reducible first
        | assumption | apply answers_next
    | intro _ | dsimp only | split | with_reducible apply keeps_mk

theorem keeps_retire (h : Keeps s t) (a1 : RetireUnit) (a2 : Nat) : Keeps s (State.retire t a1 a2) := by
  unfold State.retire
  repeat' first
    | with_reducible first
        | assumption | apply keeps_fault | apply keeps_enterFault | apply keeps_put | apply keeps_closePair | apply keeps_ite
    | intro _ | dsimp only | split | with_reducible apply keeps_mk

theorem keeps_unitReport (h : Keeps s t) (a1 : RetireUnit) (a2 a3 a4 : Nat) : Keeps s (State.unitReport t a1 a2 a3 a4) := by
  unfold State.unitReport
  repeat' first
    | with_reducible first
        | assumption | apply keeps_fault | apply keeps_event | apply keeps_ite
    | intro _ | dsimp only | split | with_reducible apply keeps_mk

theorem keeps_execUnitFault (h : Keeps s t) (a0 : RetireUnit) (a1 a2 a3 : Nat) : Answers s (execUnitFault a0 a1 a2 a3 t) := by
  unfold execUnitFault
  repeat' first
    | with_reducible first
        | assumption | apply keeps_retire | apply keeps_cutRun | apply keeps_updWork | apply keeps_unitReport | apply answers_next
        | apply opt_map_val | apply opt_bind
    | intro _ | dsimp only | split | with_reducible apply keeps_mk

theorem handler_hSeqProbe : HandlerKeeps hSeqProbe := by
  constructor <;> intro s t h <;> unfold hSeqProbe <;>
  repeat' first
    | with_reducible first
        | assumption | apply HandlerKeeps.chg handler_plain | apply HandlerKeeps.act handler_plain
        | apply HandlerKeeps.post handler_plain | apply keeps_put | apply keeps_ite
    | intro _ | dsimp only | split | exact h | with_reducible apply keeps_mk

theorem keeps_execSeqProbe (h : Keeps s t) : Answers s (execSeqProbe t) := by
  unfold execSeqProbe
  repeat' first
    | with_reducible first
        | assumption | apply handler_hSeqProbe | apply keeps_bar0Bit | apply answers_next
    | intro _ | dsimp only | split | with_reducible apply keeps_mk

theorem keeps_probeTurn (h : Keeps s t) : Keeps s (State.probeTurn t) := by
  unfold State.probeTurn
  repeat' first
    | with_reducible first
        | assumption | apply keeps_put | apply keeps_ite
    | intro _ | dsimp only | split | with_reducible apply keeps_mk

theorem keeps_setObs (h : Keeps s t) (a1 : ObsMode) : Keeps s (State.setObs t a1) := by
  unfold State.setObs
  repeat' first
    | with_reducible first
        | assumption
    | intro _ | dsimp only | split | with_reducible apply keeps_mk

theorem keeps_zeroObs (h : Keeps s t) : Keeps s (State.zeroObs t) := by
  unfold State.zeroObs
  repeat' first
    | with_reducible first
        | assumption | apply keeps_setReg | apply keeps_foldl | apply keeps_foldl_fst
    | intro _ | dsimp only | split | with_reducible apply keeps_mk

theorem keeps_emptyWindow (h : Keeps s t) : Keeps s (State.emptyWindow t) := by
  unfold State.emptyWindow
  repeat' first
    | with_reducible first
        | assumption | apply keeps_zeroObs | apply keeps_put | apply keeps_setObs | apply keeps_sat
    | intro _ | dsimp only | split | with_reducible apply keeps_mk

theorem keeps_obsStart (h : Keeps s t) : Keeps s (State.obsStart t) := by
  unfold State.obsStart
  repeat' first
    | with_reducible first
        | assumption | apply keeps_setObs | apply keeps_ite
    | intro _ | dsimp only | split | with_reducible apply keeps_mk

theorem keeps_obsStop (h : Keeps s t) : Keeps s (State.obsStop t) := by
  unfold State.obsStop
  repeat' first
    | with_reducible first
        | assumption | apply keeps_emptyWindow
    | intro _ | dsimp only | split | with_reducible apply keeps_mk

theorem keeps_obsArm (h : Keeps s t) : Keeps s (State.obsArm t) := by
  unfold State.obsArm
  repeat' first
    | with_reducible first
        | assumption | apply keeps_emptyWindow | apply keeps_setObs | apply keeps_ite
    | intro _ | dsimp only | split | with_reducible apply keeps_mk

theorem handler_hObsCtrl : HandlerKeeps hObsCtrl := by
  constructor <;> intro s t h <;> unfold hObsCtrl <;>
  repeat' first
    | with_reducible first
        | assumption | apply HandlerKeeps.chg handler_plain | apply HandlerKeeps.act handler_plain
        | apply HandlerKeeps.post handler_plain | apply keeps_obsArm | apply keeps_obsStart | apply keeps_obsStop
        | apply keeps_ite
    | intro _ | dsimp only | split | exact h | with_reducible apply keeps_mk

theorem handler_hObsRange : HandlerKeeps hObsRange := by
  constructor <;> intro s t h <;> unfold hObsRange <;>
  repeat' first
    | with_reducible first
        | assumption | apply HandlerKeeps.chg handler_plain | apply HandlerKeeps.act handler_plain
        | apply HandlerKeeps.post handler_plain
    | intro _ | dsimp only | split | exact h | with_reducible apply keeps_mk

theorem keeps_execObsStart (h : Keeps s t) : Answers s (execObsStart t) := by
  unfold execObsStart
  repeat' first
    | with_reducible first
        | assumption | apply handler_hObsCtrl | apply keeps_bar0Bit | apply answers_next
    | intro _ | dsimp only | split | with_reducible apply keeps_mk

theorem keeps_execObsStop (h : Keeps s t) : Answers s (execObsStop t) := by
  unfold execObsStop
  repeat' first
    | with_reducible first
        | assumption | apply handler_hObsCtrl | apply keeps_bar0Bit | apply answers_next
    | intro _ | dsimp only | split | with_reducible apply keeps_mk

theorem keeps_execObsArm (h : Keeps s t) : Answers s (execObsArm t) := by
  unfold execObsArm
  repeat' first
    | with_reducible first
        | assumption | apply handler_hObsCtrl | apply keeps_bar0Bit | apply answers_next
    | intro _ | dsimp only | split | with_reducible apply keeps_mk

theorem keeps_openObs (h : Keeps s t) (a1 : Option Nat) : Keeps s (State.openObs t a1) := by
  unfold State.openObs
  repeat' first
    | with_reducible first
        | assumption | apply keeps_zeroObs | apply keeps_put | apply keeps_setObs
    | intro _ | dsimp only | split | with_reducible apply keeps_mk

theorem keeps_closeObs (h : Keeps s t) : Keeps s (State.closeObs t) := by
  unfold State.closeObs
  repeat' first
    | with_reducible first
        | assumption | apply keeps_put | apply keeps_setObs
    | intro _ | dsimp only | split | with_reducible apply keeps_mk

theorem keeps_obsTurn (h : Keeps s t) : Keeps s (State.obsTurn t) := by
  unfold State.obsTurn
  repeat' first
    | with_reducible first
        | assumption | apply keeps_closeObs | apply keeps_emptyWindow | apply keeps_openObs | apply keeps_ite
    | intro _ | dsimp only | split | with_reducible apply keeps_mk

theorem keeps_stopClocks (h : Keeps s t) : Keeps s (State.stopClocks t) := by
  unfold State.stopClocks
  repeat' first
    | with_reducible first
        | assumption | apply keeps_put | apply keeps_setDom | apply keeps_foldl | apply keeps_foldl_fst
    | intro _ | dsimp only | split | with_reducible apply keeps_mk

theorem keeps_thermalTrip (h : Keeps s t) (a1 : Nat) : Keeps s (State.thermalTrip t a1) := by
  unfold State.thermalTrip
  repeat' first
    | with_reducible first
        | assumption | apply keeps_fault | apply keeps_enterFault | apply keeps_stopClocks
    | intro _ | dsimp only | split | with_reducible apply keeps_mk

theorem keeps_execThermalSample (h : Keeps s t) (a0 : List Int) (a1 a2 : List Nat) : Answers s (execThermalSample a0 a1 a2 t) := by
  unfold execThermalSample
  repeat' first
    | with_reducible first
        | assumption | apply keeps_thermalTrip | apply answers_next | apply keeps_foldl | apply keeps_foldl_fst
    | intro _ | dsimp only | split | with_reducible apply keeps_mk

theorem keeps_execSetOffset (h : Keeps s t) (a0 : Nat) : Answers s (execSetOffset a0 t) := by
  unfold execSetOffset
  repeat' first
    | with_reducible first
        | assumption | apply answers_next
    | intro _ | dsimp only | split | with_reducible apply keeps_mk

theorem keeps_execReadDword (h : Keeps s t) : Answers s (execReadDword t) := by
  unfold execReadDword
  repeat' first
    | with_reducible first
        | assumption | apply keeps_readPath | apply keeps_emit | apply answers_next
    | intro _ | dsimp only | split | refine keeps_fst (by assumption) ?_ | with_reducible apply keeps_mk

theorem keeps_execTelemetry (h : Keeps s t) : Answers s (execTelemetry t) := by
  unfold execTelemetry
  repeat' first
    | with_reducible first
        | assumption | apply keeps_emit | apply answers_next
    | intro _ | dsimp only | split | with_reducible apply keeps_mk

theorem keeps_showCapacity (h : Keeps s t) : Keeps s (State.showCapacity t) := by
  unfold State.showCapacity
  repeat' first
    | with_reducible first
        | assumption | apply keeps_put
    | intro _ | dsimp only | split | with_reducible apply keeps_mk

theorem keeps_showFrames (h : Keeps s t) : Keeps s (State.showFrames t) := by
  unfold State.showFrames
  repeat' first
    | with_reducible first
        | assumption | apply keeps_put | apply keeps_ite
    | intro _ | dsimp only | split | with_reducible apply keeps_mk

theorem keeps_takeShadow (h : Keeps s t) (a1 : Nat) : Keeps s (State.takeShadow t a1) := by
  unfold State.takeShadow
  repeat' first
    | with_reducible first
        | assumption | apply keeps_setLive | apply keeps_put
    | intro _ | dsimp only | split | with_reducible apply keeps_mk

theorem keeps_moveTenant (h : Keeps s t) (a1 : Nat) : Keeps s (State.moveTenant t a1) := by
  unfold State.moveTenant
  repeat' first
    | with_reducible first
        | assumption | apply keeps_setLive | apply keeps_put
    | intro _ | dsimp only | split | with_reducible apply keeps_mk

theorem keeps_takeShadows (h : Keeps s t) : Keeps s (State.takeShadows t) := by
  unfold State.takeShadows
  repeat' first
    | with_reducible first
        | assumption | apply keeps_moveTenant | apply keeps_takeShadow | apply keeps_foldl | apply keeps_foldl_fst
    | intro _ | dsimp only | split | with_reducible apply keeps_mk

theorem keeps_endPeriod (h : Keeps s t) (a1 : Bool) : Keeps s (State.endPeriod t a1) := by
  unfold State.endPeriod
  repeat' first
    | with_reducible first
        | assumption | apply keeps_put | apply keeps_ite
    | intro _ | dsimp only | split | with_reducible apply keeps_mk

theorem keeps_refuseSwitch (h : Keeps s t) (a1 : Nat) : Keeps s (State.refuseSwitch t a1) := by
  unfold State.refuseSwitch
  repeat' first
    | with_reducible first
        | assumption | apply keeps_put
    | intro _ | dsimp only | split | with_reducible apply keeps_mk

theorem keeps_endPart (h : Keeps s t) (a1 : Nat) : Keeps s (State.endPart t a1) := by
  unfold State.endPart
  repeat' first
    | with_reducible first
        | assumption | apply keeps_put | apply keeps_refuseSwitch | apply keeps_takeShadows | apply keeps_ite
    | intro _ | dsimp only | split | with_reducible apply keeps_mk

theorem keeps_switches (h : Keeps s t) : Keeps s (State.switches t) := by
  unfold State.switches
  repeat' first
    | with_reducible first
        | assumption | apply keeps_audit | apply keeps_endPart | apply keeps_endPeriod | apply keeps_refuseSwitch
        | apply keeps_ite
    | intro _ | dsimp only | split | with_reducible apply keeps_mk

theorem keeps_refill (h : Keeps s t) : Keeps s (State.refill t) := by
  unfold State.refill
  repeat' first
    | with_reducible first
        | assumption | apply opt_map | apply opt_map_val | apply keeps_getD
    | intro _ | dsimp only | split | with_reducible apply keeps_mk

theorem keeps_poolTurn (h : Keeps s t) : Keeps s (State.poolTurn t) := by
  unfold State.poolTurn
  repeat' first
    | with_reducible first
        | assumption | apply keeps_setPool | apply opt_map | apply opt_map_val | apply keeps_getD
    | intro _ | dsimp only | split | with_reducible apply keeps_mk

theorem keeps_notify (h : Keeps s t) (a1 : Work) (a2 : Nat) : Keeps s (State.notify t a1 a2) := by
  unfold State.notify
  repeat' first
    | with_reducible first
        | assumption | apply keeps_sat | apply keeps_setStat | apply keeps_updWork
    | intro _ | dsimp only | split | with_reducible apply keeps_mk

theorem keeps_consider (h : Keeps s t) (a1 : List (Nat × Nat)) (a2 : Work) : Keeps s (State.consider t a1 a2) := by
  unfold State.consider
  repeat' first
    | with_reducible first
        | assumption | apply keeps_notify | apply keeps_ite
    | intro _ | dsimp only | split | with_reducible apply keeps_mk

theorem keeps_riskTurn (h : Keeps s t) : Keeps s (State.riskTurn t) := by
  unfold State.riskTurn
  repeat' first
    | with_reducible first
        | assumption | apply keeps_consider | apply keeps_ite | apply keeps_foldl | apply keeps_foldl_fst
    | intro _ | dsimp only | split | with_reducible apply keeps_mk

theorem keeps_armPeriod (h : Keeps s t) : Keeps s (State.armPeriod t) := by
  unfold State.armPeriod
  repeat' first
    | with_reducible first
        | assumption | apply keeps_put | apply keeps_ite
    | intro _ | dsimp only | split | with_reducible apply keeps_mk

theorem keeps_armPreset (h : Keeps s t) : Keeps s (State.armPreset t) := by
  unfold State.armPreset
  repeat' first
    | with_reducible first
        | assumption | apply keeps_put | apply keeps_ite
    | intro _ | dsimp only | split | with_reducible apply keeps_mk

theorem handler_hStrokeCtrl : HandlerKeeps hStrokeCtrl := by
  constructor <;> intro s t h <;> unfold hStrokeCtrl <;>
  repeat' first
    | with_reducible first
        | assumption | apply HandlerKeeps.chg handler_plain | apply HandlerKeeps.act handler_plain
        | apply HandlerKeeps.post handler_plain | apply keeps_armPeriod | apply keeps_armPreset | apply keeps_audit
        | apply keeps_ite
    | intro _ | dsimp only | split | exact h | with_reducible apply keeps_mk

theorem handler_hTarget (a0 : Fld) : HandlerKeeps (hTarget a0) := by
  constructor <;> intro s t h <;> unfold hTarget <;>
  repeat' first
    | with_reducible first
        | assumption | apply HandlerKeeps.chg handler_plain | apply HandlerKeeps.act handler_plain
        | apply HandlerKeeps.post handler_plain
    | intro _ | dsimp only | split | exact h | with_reducible apply keeps_mk

theorem handler_hSwitchCtrl : HandlerKeeps hSwitchCtrl := by
  constructor <;> intro s t h <;> unfold hSwitchCtrl <;>
  repeat' first
    | with_reducible first
        | assumption | apply HandlerKeeps.chg handler_plain | apply HandlerKeeps.act handler_plain
        | apply HandlerKeeps.post handler_plain | apply keeps_put | apply keeps_ite
    | intro _ | dsimp only | split | exact h | with_reducible apply keeps_mk

theorem keeps_writeEvent (h : Keeps s t) (a1 : Event) (a2 : Nat) : Keeps s (State.writeEvent t a1 a2) := by
  unfold State.writeEvent
  repeat' first
    | with_reducible first
        | assumption | apply keeps_signal | apply keeps_memWrite | apply keeps_getD | apply keeps_ite
    | intro _ | dsimp only | split | with_reducible apply keeps_mk

theorem keeps_writeEvents (h : Keeps s t) : Keeps s (State.writeEvents t) := by
  unfold State.writeEvents
  repeat' first
    | with_reducible first
        | assumption | apply keeps_writeEvent | apply keeps_foldl | apply keeps_foldl_fst
    | intro _ | dsimp only | split | with_reducible apply keeps_mk

theorem keeps_signalErr (h : Keeps s t) : Keeps s (State.signalErr t) := by
  unfold State.signalErr
  repeat' first
    | with_reducible first
        | assumption | apply keeps_signal | apply keeps_ite
    | intro _ | dsimp only | split | with_reducible apply keeps_mk

theorem keeps_retireWork (h : Keeps s t) (a1 : Nat) : Keeps s (State.retireWork t a1) := by
  unfold State.retireWork
  repeat' first
    | with_reducible first
        | assumption | apply keeps_postCompletion | apply keeps_commitXfer | apply keeps_commitAppend | apply keeps_ite
    | intro _ | dsimp only | split | with_reducible apply keeps_mk

theorem keeps_rebuildTurn (h : Keeps s t) : Keeps s (State.rebuildTurn t) := by
  unfold State.rebuildTurn
  repeat' first
    | with_reducible first
        | assumption | apply keeps_switchRebuild | apply keeps_ite
    | intro _ | dsimp only | split | with_reducible apply keeps_mk

theorem keeps_stepTwo (h : Keeps s t) : Keeps s (State.stepTwo t) := by
  unfold State.stepTwo
  repeat' first
    | with_reducible first
        | assumption | apply keeps_auditDrain | apply keeps_cutErr | apply keeps_endDrains | apply keeps_rebuildTurn
        | apply keeps_retireWork | apply keeps_sameCycle | apply keeps_signalCqs | apply keeps_signalErr
        | apply keeps_writeEvents | apply keeps_foldl | apply keeps_foldl_fst
    | intro _ | dsimp only | split | with_reducible apply keeps_mk

theorem keeps_dueSearch (h : Keeps s t) : Keeps s (State.dueSearch t) := by
  unfold State.dueSearch
  repeat' first
    | with_reducible first
        | assumption | apply keeps_pelExpire | apply keeps_cascExpire | apply keeps_ite | apply keeps_foldl | apply keeps_foldl_fst
    | intro _ | dsimp only | split | with_reducible apply keeps_mk

theorem keeps_dueLog (h : Keeps s t) : Keeps s (State.dueLog t) := by
  unfold State.dueLog
  repeat' first
    | with_reducible first
        | assumption | apply keeps_flushLog | apply keeps_closeOpen | apply keeps_ite | apply keeps_foldl | apply keeps_foldl_fst
    | intro _ | dsimp only | split | with_reducible apply keeps_mk

theorem keeps_stepThree (h : Keeps s t) : Keeps s (State.stepThree t) := by
  unfold State.stepThree
  repeat' first
    | with_reducible first
        | assumption | apply keeps_advanceTurns | apply keeps_dueDrains | apply keeps_dueHolds | apply keeps_dueLog
        | apply keeps_duePeloton | apply keeps_dueReleases | apply keeps_dueSearch | apply keeps_dueSnoops
        | apply keeps_expireNonce | apply keeps_sameCycle
    | intro _ | dsimp only | split | with_reducible apply keeps_mk

theorem keeps_admitOne (h : Keeps s t) (a1 : Work) : Keeps s (State.admitOne t a1) := by
  unfold State.admitOne
  repeat' first
    | with_reducible first
        | assumption | apply keeps_admitUpdate | apply keeps_admitRange | apply keeps_admitXfer | apply keeps_admitNop
        | apply keeps_admitFence | apply keeps_admitAttn | apply keeps_admitFork | apply keeps_admitOpen | apply keeps_admitFind
        | apply keeps_admitAppend | apply keeps_admitDeliver | apply keeps_admitClose | apply keeps_admitReshard | apply keeps_ite
    | intro _ | dsimp only | split | with_reducible apply keeps_mk

theorem keeps_admissions (h : Keeps s t) : Keeps s (State.admissions t) := by
  unfold State.admissions
  repeat' first
    | with_reducible first
        | assumption | apply keeps_admitOne | apply keeps_ite | apply keeps_foldl | apply keeps_foldl_fst
    | intro _ | dsimp only | split | with_reducible apply keeps_mk

theorem keeps_stepFour (h : Keeps s t) : Keeps s (State.stepFour t) := by
  unfold State.stepFour
  repeat' first
    | with_reducible first
        | assumption | apply keeps_activateWriters | apply keeps_admissions | apply keeps_dueSwitches | apply keeps_planAll
        | apply keeps_riskTurn | apply keeps_sameCycle | apply keeps_serveForks | apply keeps_settleAdvances
        | apply keeps_settleFences | apply keeps_ite
    | intro _ | dsimp only | split | with_reducible apply keeps_mk

theorem keeps_recoupleNow (h : Keeps s t) (a1 : Nat) : Keeps s (State.recoupleNow t a1) := by
  unfold State.recoupleNow
  repeat' first
    | with_reducible first
        | assumption | apply keeps_setSlotState | apply keeps_ite | apply keeps_foldl | apply keeps_foldl_fst
    | intro _ | dsimp only | split | with_reducible apply keeps_mk

theorem keeps_actNow (h : Keeps s t) (a1 : BAct) : Keeps s (State.actNow t a1) := by
  cases a1 with
  | live k w => exact keeps_live h (spPut_wf _ _ _ _)
  | _ =>
    unfold State.actNow
    repeat' first
      | with_reducible first
          | assumption | apply keeps_createTenant | apply keeps_hostCtrlTurn | apply keeps_qpMove | apply keeps_evalRelease
          | apply keeps_bankWidthNow | apply keeps_put | apply keeps_recoupleNow | apply keeps_refuseJoin | apply keeps_createPart
          | apply keeps_destroyPart | apply keeps_ite
      | intro _ | dsimp only | split | with_reducible apply keeps_mk

theorem keeps_takeActs (h : Keeps s t) : Keeps s (State.takeActs t) := by
  unfold State.takeActs
  repeat' first
    | with_reducible first
        | assumption | apply keeps_actNow | apply keeps_foldl | apply keeps_foldl_fst
    | intro _ | dsimp only | split | with_reducible apply keeps_mk

theorem keeps_newStroke (h : Keeps s t) : Keeps s (State.newStroke t) := by
  unfold State.newStroke
  repeat' first
    | with_reducible first
        | assumption | apply keeps_sat | apply keeps_ite
    | intro _ | dsimp only | split | with_reducible apply keeps_mk

theorem keeps_unitTurns (h : Keeps s t) (a1 : Bool) : Keeps s (State.unitTurns t a1) := by
  unfold State.unitTurns
  repeat' first
    | with_reducible first
        | assumption | apply keeps_mirrorTurn | apply keeps_quiesceTurn | apply keeps_reevaluate | apply keeps_sendBeat
        | apply keeps_sendHellos | apply keeps_sendKvOut | apply keeps_sendMark | apply keeps_servePels
        | apply keeps_serveWaiting | apply keeps_sweepBurst | apply keeps_ite
    | intro _ | dsimp only | split | with_reducible apply keeps_mk

theorem keeps_stepFive (h : Keeps s t) : Keeps s (State.stepFive t) := by
  unfold State.stepFive
  repeat' first
    | with_reducible first
        | assumption | apply keeps_freeBounds | apply keeps_showFrames | apply keeps_showCapacity | apply keeps_turnSlots
        | apply keeps_freeRegions | apply keeps_accessTurn | apply keeps_takeActs | apply keeps_refill | apply keeps_newStroke
        | apply keeps_brakeApply | apply keeps_switches | apply keeps_poolTurn
    | intro _ | dsimp only | split | with_reducible apply keeps_mk

theorem loose_haltCounter (h : Keeps s t) : Loose s (State.haltCounter t) := by
  unfold State.haltCounter
  exact (loose_stroke h (Nat.le_refl _)).after (keeps_enterFault (keeps_fault (keeps_put (Keeps.refl _) _ _ _) _ _ _))

theorem loose_beginStroke (h : Keeps s t) : Loose s (State.beginStroke t) := by
  unfold State.beginStroke
  have hb : t.nextStroke % 2 ^ 48 ≤ strokeMax := by unfold strokeMax; omega
  exact (loose_stroke h hb).after (keeps_obsTurn (keeps_put (keeps_mk (Keeps.refl _)) _ _ _))

theorem loose_boundary (h : Keeps s t) : Loose s (State.boundary t) := by
  unfold State.boundary
  have h1 : Keeps s (if t.working = true then t.throttle.probeTurn.dieRebuildTurn.noteWaits else t) :=
    keeps_ite (fun _ => keeps_noteWaits (keeps_dieRebuildTurn (keeps_probeTurn (keeps_throttle h)))) fun _ => h
  refine (loose_beginStroke h1).after (keeps_ite (fun _ => ?_) fun _ => ?_)
  · exact keeps_noteWaits (keeps_unitTurns (keeps_stepFive (keeps_stepFour (keeps_stepThree (keeps_stepTwo (Keeps.refl _))))) _)
  · exact keeps_stepFive (keeps_expireNonce (keeps_auditDrain (keeps_signalErr (keeps_writeEvents (keeps_signalCqs (Keeps.refl _)))) _))

theorem loose_execStrokeBoundary (h : Keeps s t) : Reaches s (execStrokeBoundary t) := by
  unfold execStrokeBoundary
  exact reaches_next (loose_ite (fun _ => h.loose) fun _ => loose_ite (fun _ => loose_haltCounter h) fun _ => loose_boundary h)

theorem loose_execCounterHalt (h : Keeps s t) : Reaches s (execCounterHalt t) := by
  unfold execCounterHalt
  exact reaches_next (loose_ite (fun _ => loose_haltCounter h) fun _ => h.loose)

theorem loose_execPeriodSwitch (h : Keeps s t) : Reaches s (execPeriodSwitch t) := by
  unfold execPeriodSwitch
  exact reaches_next (loose_ite (fun _ => loose_boundary h) fun _ => h.loose)

theorem loose_execShadowSwitch (h : Keeps s t) : Reaches s (execShadowSwitch t) := by
  unfold execShadowSwitch
  exact reaches_next (loose_ite (fun _ => loose_boundary h) fun _ => h.loose)

theorem handler_hTenantField : HandlerKeeps hTenantField := by
  constructor <;> intro s t h <;> unfold hTenantField <;>
  repeat' first
    | with_reducible first
        | assumption | apply HandlerKeeps.chg handler_plain | apply HandlerKeeps.act handler_plain
        | apply HandlerKeeps.post handler_plain
    | intro _ | dsimp only | split | exact h | with_reducible apply keeps_mk

end Sys2Proof.Machine
end

