-- ==== Sys2Proof/Laws/KeepsExec.lean ====
section
/-! SUPPORT. Every operation keeps the queue, the canonical stores, the Stroke bound and what was sent: register writes and every command. -/

namespace Sys2Proof.Machine

variable {s t : State}

theorem handler_hSelectNot0 : HandlerKeeps hSelectNot0 := by
  constructor <;> intro s t h <;> unfold hSelectNot0 <;>
  repeat' first
    | with_reducible first
        | assumption | apply HandlerKeeps.chg handler_plain | apply HandlerKeeps.act handler_plain
        | apply HandlerKeeps.post handler_plain
    | intro _ | dsimp only | split | exact h | with_reducible apply keeps_mk

theorem handler_handlerCard (a0 : State) (a1 : Nat) : HandlerKeeps (handlerCard a0 a1) := by
  unfold handlerCard
  repeat' first
    | with_reducible first
        | assumption
        | apply handler_plain
        | apply handler_ite
        | apply handler_hAuditBase
        | apply handler_hLoadCtrl
        | apply handler_hTarget
        | apply handler_hLoadCmd
        | apply handler_hStrokeCtrl
        | apply handler_hMakerLock
        | apply handler_hBringupCtrl
        | apply handler_hAuditTail
    | intro _
    | split
    | dsimp only

theorem handler_handlerPart (a0 : Nat) : HandlerKeeps (handlerPart a0) := by
  unfold handlerPart
  repeat' first
    | with_reducible first
        | assumption
        | apply handler_plain
        | apply handler_ite
        | apply handler_hKeyCtrl
        | apply handler_hKeyData
        | apply handler_hPartitionCtrl
        | apply handler_hSelectNot0
        | apply handler_hSwitchCtrl
        | apply handler_hTarget
        | apply handler_hTenantCtrl
        | apply handler_hTenantField
    | intro _
    | split
    | dsimp only

theorem handler_handlerPages (a0 : Nat) : HandlerKeeps (handlerPages a0) := by
  unfold handlerPages
  repeat' first
    | with_reducible first
        | assumption
        | apply handler_plain
        | apply handler_ite
        | apply handler_hRebuildCtrl
        | apply handler_hAreaCtrl
        | apply handler_hSeqCap
        | apply handler_hWalkCtrl
        | apply handler_hLogScanCtrl
        | apply handler_hQuiesceCtrl
        | apply handler_hTierProbe
        | apply handler_hLevel
        | apply handler_hRegionAction
        | apply handler_hLogFlush
    | intro _
    | split
    | dsimp only

theorem handler_handlerUnits (a0 : Nat) : HandlerKeeps (handlerUnits a0) := by
  unfold handlerUnits
  refine handler_ite (fun _ => ?_) fun _ => ?_
  · first | exact handler_hConstField
          | exact handler_hCodePolicy
          | exact handler_hBuckets _
          | exact handler_hSearchWait
          | exact handler_hClassField
          | exact handler_hBankCtrl
          | exact handler_hEngLive _ _
          | exact handler_hConstCtrl
          | exact handler_hConstArea
          | exact handler_hNsCtrl
          | exact handler_hVerifyTries
          | exact handler_hClassCtrl
  refine handler_ite (fun _ => ?_) fun _ => ?_
  · first | exact handler_hConstField
          | exact handler_hCodePolicy
          | exact handler_hBuckets _
          | exact handler_hSearchWait
          | exact handler_hClassField
          | exact handler_hBankCtrl
          | exact handler_hEngLive _ _
          | exact handler_hConstCtrl
          | exact handler_hConstArea
          | exact handler_hNsCtrl
          | exact handler_hVerifyTries
          | exact handler_hClassCtrl
  refine handler_ite (fun _ => ?_) fun _ => ?_
  · first | exact handler_hConstField
          | exact handler_hCodePolicy
          | exact handler_hBuckets _
          | exact handler_hSearchWait
          | exact handler_hClassField
          | exact handler_hBankCtrl
          | exact handler_hEngLive _ _
          | exact handler_hConstCtrl
          | exact handler_hConstArea
          | exact handler_hNsCtrl
          | exact handler_hVerifyTries
          | exact handler_hClassCtrl
  refine handler_ite (fun _ => ?_) fun _ => ?_
  · first | exact handler_hConstField
          | exact handler_hCodePolicy
          | exact handler_hBuckets _
          | exact handler_hSearchWait
          | exact handler_hClassField
          | exact handler_hBankCtrl
          | exact handler_hEngLive _ _
          | exact handler_hConstCtrl
          | exact handler_hConstArea
          | exact handler_hNsCtrl
          | exact handler_hVerifyTries
          | exact handler_hClassCtrl
  refine handler_ite (fun _ => ?_) fun _ => ?_
  · first | exact handler_hConstField
          | exact handler_hCodePolicy
          | exact handler_hBuckets _
          | exact handler_hSearchWait
          | exact handler_hClassField
          | exact handler_hBankCtrl
          | exact handler_hEngLive _ _
          | exact handler_hConstCtrl
          | exact handler_hConstArea
          | exact handler_hNsCtrl
          | exact handler_hVerifyTries
          | exact handler_hClassCtrl
  refine handler_ite (fun _ => ?_) fun _ => ?_
  · first | exact handler_hConstField
          | exact handler_hCodePolicy
          | exact handler_hBuckets _
          | exact handler_hSearchWait
          | exact handler_hClassField
          | exact handler_hBankCtrl
          | exact handler_hEngLive _ _
          | exact handler_hConstCtrl
          | exact handler_hConstArea
          | exact handler_hNsCtrl
          | exact handler_hVerifyTries
          | exact handler_hClassCtrl
  refine handler_ite (fun _ => ?_) fun _ => ?_
  · first | exact handler_hConstField
          | exact handler_hCodePolicy
          | exact handler_hBuckets _
          | exact handler_hSearchWait
          | exact handler_hClassField
          | exact handler_hBankCtrl
          | exact handler_hEngLive _ _
          | exact handler_hConstCtrl
          | exact handler_hConstArea
          | exact handler_hNsCtrl
          | exact handler_hVerifyTries
          | exact handler_hClassCtrl
  refine handler_ite (fun _ => ?_) fun _ => ?_
  · first | exact handler_hConstField
          | exact handler_hCodePolicy
          | exact handler_hBuckets _
          | exact handler_hSearchWait
          | exact handler_hClassField
          | exact handler_hBankCtrl
          | exact handler_hEngLive _ _
          | exact handler_hConstCtrl
          | exact handler_hConstArea
          | exact handler_hNsCtrl
          | exact handler_hVerifyTries
          | exact handler_hClassCtrl
  refine handler_ite (fun _ => ?_) fun _ => ?_
  · first | exact handler_hConstField
          | exact handler_hCodePolicy
          | exact handler_hBuckets _
          | exact handler_hSearchWait
          | exact handler_hClassField
          | exact handler_hBankCtrl
          | exact handler_hEngLive _ _
          | exact handler_hConstCtrl
          | exact handler_hConstArea
          | exact handler_hNsCtrl
          | exact handler_hVerifyTries
          | exact handler_hClassCtrl
  refine handler_ite (fun _ => ?_) fun _ => ?_
  · first | exact handler_hConstField
          | exact handler_hCodePolicy
          | exact handler_hBuckets _
          | exact handler_hSearchWait
          | exact handler_hClassField
          | exact handler_hBankCtrl
          | exact handler_hEngLive _ _
          | exact handler_hConstCtrl
          | exact handler_hConstArea
          | exact handler_hNsCtrl
          | exact handler_hVerifyTries
          | exact handler_hClassCtrl
  refine handler_ite (fun _ => ?_) fun _ => ?_
  · first | exact handler_hConstField
          | exact handler_hCodePolicy
          | exact handler_hBuckets _
          | exact handler_hSearchWait
          | exact handler_hClassField
          | exact handler_hBankCtrl
          | exact handler_hEngLive _ _
          | exact handler_hConstCtrl
          | exact handler_hConstArea
          | exact handler_hNsCtrl
          | exact handler_hVerifyTries
          | exact handler_hClassCtrl
  refine handler_ite (fun _ => ?_) fun _ => ?_
  · first | exact handler_hConstField
          | exact handler_hCodePolicy
          | exact handler_hBuckets _
          | exact handler_hSearchWait
          | exact handler_hClassField
          | exact handler_hBankCtrl
          | exact handler_hEngLive _ _
          | exact handler_hConstCtrl
          | exact handler_hConstArea
          | exact handler_hNsCtrl
          | exact handler_hVerifyTries
          | exact handler_hClassCtrl
  refine handler_ite (fun _ => ?_) fun _ => ?_
  · first | exact handler_hConstField
          | exact handler_hCodePolicy
          | exact handler_hBuckets _
          | exact handler_hSearchWait
          | exact handler_hClassField
          | exact handler_hBankCtrl
          | exact handler_hEngLive _ _
          | exact handler_hConstCtrl
          | exact handler_hConstArea
          | exact handler_hNsCtrl
          | exact handler_hVerifyTries
          | exact handler_hClassCtrl
  refine handler_ite (fun _ => ?_) fun _ => ?_
  · first | exact handler_hConstField
          | exact handler_hCodePolicy
          | exact handler_hBuckets _
          | exact handler_hSearchWait
          | exact handler_hClassField
          | exact handler_hBankCtrl
          | exact handler_hEngLive _ _
          | exact handler_hConstCtrl
          | exact handler_hConstArea
          | exact handler_hNsCtrl
          | exact handler_hVerifyTries
          | exact handler_hClassCtrl
  refine handler_ite (fun _ => ?_) fun _ => ?_
  · first | exact handler_hConstField
          | exact handler_hCodePolicy
          | exact handler_hBuckets _
          | exact handler_hSearchWait
          | exact handler_hClassField
          | exact handler_hBankCtrl
          | exact handler_hEngLive _ _
          | exact handler_hConstCtrl
          | exact handler_hConstArea
          | exact handler_hNsCtrl
          | exact handler_hVerifyTries
          | exact handler_hClassCtrl
  exact handler_plain

theorem handler_handlerGear (a0 : Nat) : HandlerKeeps (handlerGear a0) := by
  unfold handlerGear
  repeat' first
    | with_reducible first
        | assumption
        | apply handler_plain
        | apply handler_ite
        | apply handler_hScoreBurst
        | apply handler_hPelotonId
        | apply handler_hSlotWindow
        | apply handler_hSlotCtrl
        | apply handler_hMemberCtrl
        | apply handler_hFreewheelCtrl
        | apply handler_hPeerTenant
        | apply handler_hPortCtrl
        | apply handler_hTenantBind
    | intro _
    | split
    | dsimp only

theorem handler_handlerRdma (a0 : Nat) : HandlerKeeps (handlerRdma a0) := by
  unfold handlerRdma
  repeat' first
    | with_reducible first
        | assumption
        | apply handler_plain
        | apply handler_ite
        | apply handler_hRegionCtrl
        | apply handler_hQpCtrl
        | apply handler_hRegionField
        | apply handler_hPdCtrl
        | apply handler_hQpField
        | apply handler_hEventCtrl
    | intro _
    | split
    | dsimp only

theorem handler_handlerPool (a0 : Nat) : HandlerKeeps (handlerPool a0) := by
  unfold handlerPool
  repeat' first
    | with_reducible first
        | assumption
        | apply handler_plain
        | apply handler_ite
        | apply handler_hCarveDram
        | apply handler_hCarveFlash
        | apply handler_hKvMirror
        | apply handler_hLater
        | apply handler_hPoolHost
        | apply handler_hPoolRegionCtrl
        | apply handler_hRegionAccess
        | apply handler_hRegionDef
        | apply handler_hRegionSize
        | apply handler_hSwapCache
        | apply handler_hTakeoverKv
        | apply handler_hTandemCtrl
    | intro _
    | split
    | dsimp only

theorem handler_handlerCare (a0 : Nat) : HandlerKeeps (handlerCare a0) := by
  unfold handlerCare
  refine handler_ite (fun _ => ?_) fun _ => ?_
  · first | exact handler_hVfBind
          | exact handler_hDomainSelect
          | exact handler_hHostPeriod _
          | exact handler_hObsRange
          | exact handler_hSysPeriod
          | exact handler_hHostDisable
          | exact handler_hSeqProbe
          | exact handler_hDomainCtrl
          | exact handler_hGrace
          | exact handler_hObsCtrl
          | exact handler_hHostCheckin
          | exact handler_hAutoGate
          | exact handler_hSelectNot0
          | exact handler_hHostCtrl
          | exact handler_hOverrunSelect
  refine handler_ite (fun _ => ?_) fun _ => ?_
  · first | exact handler_hVfBind
          | exact handler_hDomainSelect
          | exact handler_hHostPeriod _
          | exact handler_hObsRange
          | exact handler_hSysPeriod
          | exact handler_hHostDisable
          | exact handler_hSeqProbe
          | exact handler_hDomainCtrl
          | exact handler_hGrace
          | exact handler_hObsCtrl
          | exact handler_hHostCheckin
          | exact handler_hAutoGate
          | exact handler_hSelectNot0
          | exact handler_hHostCtrl
          | exact handler_hOverrunSelect
  refine handler_ite (fun _ => ?_) fun _ => ?_
  · first | exact handler_hVfBind
          | exact handler_hDomainSelect
          | exact handler_hHostPeriod _
          | exact handler_hObsRange
          | exact handler_hSysPeriod
          | exact handler_hHostDisable
          | exact handler_hSeqProbe
          | exact handler_hDomainCtrl
          | exact handler_hGrace
          | exact handler_hObsCtrl
          | exact handler_hHostCheckin
          | exact handler_hAutoGate
          | exact handler_hSelectNot0
          | exact handler_hHostCtrl
          | exact handler_hOverrunSelect
  refine handler_ite (fun _ => ?_) fun _ => ?_
  · first | exact handler_hVfBind
          | exact handler_hDomainSelect
          | exact handler_hHostPeriod _
          | exact handler_hObsRange
          | exact handler_hSysPeriod
          | exact handler_hHostDisable
          | exact handler_hSeqProbe
          | exact handler_hDomainCtrl
          | exact handler_hGrace
          | exact handler_hObsCtrl
          | exact handler_hHostCheckin
          | exact handler_hAutoGate
          | exact handler_hSelectNot0
          | exact handler_hHostCtrl
          | exact handler_hOverrunSelect
  refine handler_ite (fun _ => ?_) fun _ => ?_
  · first | exact handler_hVfBind
          | exact handler_hDomainSelect
          | exact handler_hHostPeriod _
          | exact handler_hObsRange
          | exact handler_hSysPeriod
          | exact handler_hHostDisable
          | exact handler_hSeqProbe
          | exact handler_hDomainCtrl
          | exact handler_hGrace
          | exact handler_hObsCtrl
          | exact handler_hHostCheckin
          | exact handler_hAutoGate
          | exact handler_hSelectNot0
          | exact handler_hHostCtrl
          | exact handler_hOverrunSelect
  refine handler_ite (fun _ => ?_) fun _ => ?_
  · first | exact handler_hVfBind
          | exact handler_hDomainSelect
          | exact handler_hHostPeriod _
          | exact handler_hObsRange
          | exact handler_hSysPeriod
          | exact handler_hHostDisable
          | exact handler_hSeqProbe
          | exact handler_hDomainCtrl
          | exact handler_hGrace
          | exact handler_hObsCtrl
          | exact handler_hHostCheckin
          | exact handler_hAutoGate
          | exact handler_hSelectNot0
          | exact handler_hHostCtrl
          | exact handler_hOverrunSelect
  refine handler_ite (fun _ => ?_) fun _ => ?_
  · first | exact handler_hVfBind
          | exact handler_hDomainSelect
          | exact handler_hHostPeriod _
          | exact handler_hObsRange
          | exact handler_hSysPeriod
          | exact handler_hHostDisable
          | exact handler_hSeqProbe
          | exact handler_hDomainCtrl
          | exact handler_hGrace
          | exact handler_hObsCtrl
          | exact handler_hHostCheckin
          | exact handler_hAutoGate
          | exact handler_hSelectNot0
          | exact handler_hHostCtrl
          | exact handler_hOverrunSelect
  refine handler_ite (fun _ => ?_) fun _ => ?_
  · first | exact handler_hVfBind
          | exact handler_hDomainSelect
          | exact handler_hHostPeriod _
          | exact handler_hObsRange
          | exact handler_hSysPeriod
          | exact handler_hHostDisable
          | exact handler_hSeqProbe
          | exact handler_hDomainCtrl
          | exact handler_hGrace
          | exact handler_hObsCtrl
          | exact handler_hHostCheckin
          | exact handler_hAutoGate
          | exact handler_hSelectNot0
          | exact handler_hHostCtrl
          | exact handler_hOverrunSelect
  refine handler_ite (fun _ => ?_) fun _ => ?_
  · first | exact handler_hVfBind
          | exact handler_hDomainSelect
          | exact handler_hHostPeriod _
          | exact handler_hObsRange
          | exact handler_hSysPeriod
          | exact handler_hHostDisable
          | exact handler_hSeqProbe
          | exact handler_hDomainCtrl
          | exact handler_hGrace
          | exact handler_hObsCtrl
          | exact handler_hHostCheckin
          | exact handler_hAutoGate
          | exact handler_hSelectNot0
          | exact handler_hHostCtrl
          | exact handler_hOverrunSelect
  refine handler_ite (fun _ => ?_) fun _ => ?_
  · first | exact handler_hVfBind
          | exact handler_hDomainSelect
          | exact handler_hHostPeriod _
          | exact handler_hObsRange
          | exact handler_hSysPeriod
          | exact handler_hHostDisable
          | exact handler_hSeqProbe
          | exact handler_hDomainCtrl
          | exact handler_hGrace
          | exact handler_hObsCtrl
          | exact handler_hHostCheckin
          | exact handler_hAutoGate
          | exact handler_hSelectNot0
          | exact handler_hHostCtrl
          | exact handler_hOverrunSelect
  refine handler_ite (fun _ => ?_) fun _ => ?_
  · first | exact handler_hVfBind
          | exact handler_hDomainSelect
          | exact handler_hHostPeriod _
          | exact handler_hObsRange
          | exact handler_hSysPeriod
          | exact handler_hHostDisable
          | exact handler_hSeqProbe
          | exact handler_hDomainCtrl
          | exact handler_hGrace
          | exact handler_hObsCtrl
          | exact handler_hHostCheckin
          | exact handler_hAutoGate
          | exact handler_hSelectNot0
          | exact handler_hHostCtrl
          | exact handler_hOverrunSelect
  refine handler_ite (fun _ => ?_) fun _ => ?_
  · first | exact handler_hVfBind
          | exact handler_hDomainSelect
          | exact handler_hHostPeriod _
          | exact handler_hObsRange
          | exact handler_hSysPeriod
          | exact handler_hHostDisable
          | exact handler_hSeqProbe
          | exact handler_hDomainCtrl
          | exact handler_hGrace
          | exact handler_hObsCtrl
          | exact handler_hHostCheckin
          | exact handler_hAutoGate
          | exact handler_hSelectNot0
          | exact handler_hHostCtrl
          | exact handler_hOverrunSelect
  refine handler_ite (fun _ => ?_) fun _ => ?_
  · first | exact handler_hVfBind
          | exact handler_hDomainSelect
          | exact handler_hHostPeriod _
          | exact handler_hObsRange
          | exact handler_hSysPeriod
          | exact handler_hHostDisable
          | exact handler_hSeqProbe
          | exact handler_hDomainCtrl
          | exact handler_hGrace
          | exact handler_hObsCtrl
          | exact handler_hHostCheckin
          | exact handler_hAutoGate
          | exact handler_hSelectNot0
          | exact handler_hHostCtrl
          | exact handler_hOverrunSelect
  refine handler_ite (fun _ => ?_) fun _ => ?_
  · first | exact handler_hVfBind
          | exact handler_hDomainSelect
          | exact handler_hHostPeriod _
          | exact handler_hObsRange
          | exact handler_hSysPeriod
          | exact handler_hHostDisable
          | exact handler_hSeqProbe
          | exact handler_hDomainCtrl
          | exact handler_hGrace
          | exact handler_hObsCtrl
          | exact handler_hHostCheckin
          | exact handler_hAutoGate
          | exact handler_hSelectNot0
          | exact handler_hHostCtrl
          | exact handler_hOverrunSelect
  refine handler_ite (fun _ => ?_) fun _ => ?_
  · first | exact handler_hVfBind
          | exact handler_hDomainSelect
          | exact handler_hHostPeriod _
          | exact handler_hObsRange
          | exact handler_hSysPeriod
          | exact handler_hHostDisable
          | exact handler_hSeqProbe
          | exact handler_hDomainCtrl
          | exact handler_hGrace
          | exact handler_hObsCtrl
          | exact handler_hHostCheckin
          | exact handler_hAutoGate
          | exact handler_hSelectNot0
          | exact handler_hHostCtrl
          | exact handler_hOverrunSelect
  refine handler_ite (fun _ => ?_) fun _ => ?_
  · first | exact handler_hVfBind
          | exact handler_hDomainSelect
          | exact handler_hHostPeriod _
          | exact handler_hObsRange
          | exact handler_hSysPeriod
          | exact handler_hHostDisable
          | exact handler_hSeqProbe
          | exact handler_hDomainCtrl
          | exact handler_hGrace
          | exact handler_hObsCtrl
          | exact handler_hHostCheckin
          | exact handler_hAutoGate
          | exact handler_hSelectNot0
          | exact handler_hHostCtrl
          | exact handler_hOverrunSelect
  exact handler_plain

theorem handler_handlerRing (a0 : State) (a1 : Nat) : HandlerKeeps (handlerRing a0 a1) := by
  unfold handlerRing
  repeat' first
    | with_reducible first
        | assumption
        | apply handler_plain
        | apply handler_ite
        | apply handler_hSqCtrl
        | apply handler_hRingBase
        | apply handler_hCqCtrl
    | intro _
    | split
    | dsimp only

theorem handler_handler (a0 : State) (a1 : Nat) : HandlerKeeps (State.handler a0 a1) := by
  unfold State.handler
  repeat' first
    | with_reducible first
        | assumption
        | apply handler_ite
        | apply handler_handlerCare
        | apply handler_handlerRing
        | apply handler_handlerCard
        | apply handler_handlerRdma
        | apply handler_handlerPool
        | apply handler_handlerUnits
        | apply handler_handlerPages
        | apply handler_handlerGear
        | apply handler_handlerPart
    | intro _
    | split
    | dsimp only

theorem keeps_msixWrite (h : Keeps s t) (a1 a2 : Nat) (a3 : BitVec 64) : Keeps s (State.msixWrite t a1 a2 a3) := by
  unfold State.msixWrite
  dsimp only
  refine keeps_ite (fun _ => keeps_ite (fun _ => keeps_illegal h _ _ _ _) fun _ => ?_) fun _ => h
  refine keeps_audit (keeps_msix h fun hw => ?_) _ _ _ _ _ _ _ _
  generalize (leBytes a2 a3.toNat).zipIdx = l
  generalize t.msix = m at hw
  induction l generalizing m with
  | nil => exact hw
  | cons x l ih => exact ih _ (spPut_wf _ _ _ _ hw)

theorem keeps_registerWrite (h : Keeps s t) (a1 a2 : Nat) (a3 : BitVec 64) : Keeps s (State.registerWrite t a1 a2 a3) := by
  unfold State.registerWrite
  repeat' first
    | with_reducible first
        | assumption | apply keeps_writeClassCtrl | apply keeps_dropKey | apply keeps_breakKey | apply keeps_bar0
        | apply keeps_msixWrite | apply handler_handler | apply keeps_illegal | apply keeps_ite
    | intro _ | dsimp only | split | with_reducible apply keeps_mk

theorem keeps_execRegisterWrite (h : Keeps s t) (a0 a1 : Nat) (a2 : BitVec 64) : Answers s (execRegisterWrite a0 a1 a2 t) := by
  unfold execRegisterWrite
  repeat' first
    | with_reducible first
        | assumption | apply keeps_registerWrite | apply answers_next
    | intro _ | dsimp only | split | with_reducible apply keeps_mk

theorem loose_exec (h : Keeps s t) (a0 : Instr) : Reaches s (exec a0 t) := by
  cases a0 with
  | strokeBoundary => exact loose_execStrokeBoundary h
  | shadowSwitch => exact loose_execShadowSwitch h
  | periodSwitch => exact loose_execPeriodSwitch h
  | counterHalt => exact loose_execCounterHalt h
  | chunkStart unit => exact (keeps_execChunkStart h unit).reaches
  | chunkEnd work chunk res => exact (keeps_execChunkEnd h work chunk res).reaches
  | markReceive port f offsetNs => exact (keeps_execMarkReceive h port f offsetNs).reaches
  | markTimeout => exact (keeps_execMarkTimeout h).reaches
  | beatSend => exact (keeps_execBeatSend h).reaches
  | rosterTimeout member => exact (keeps_execRosterTimeout h member).reaches
  | helloSend => exact (keeps_execHelloSend h).reaches
  | joinCmd => exact (keeps_execJoinCmd h).reaches
  | joinTimeout => exact (keeps_execJoinTimeout h).reaches
  | leaveCmd => exact (keeps_execLeaveCmd h).reaches
  | powerInputChange input inTol => exact loose_execPowerInputChange h input inTol
  | perstChange asserted => exact loose_execPerstChange h asserted
  | resetInChange asserted => exact loose_execResetInChange h asserted
  | hotReset => exact loose_execHotReset h
  | flrPf0 => exact loose_execFlrPf0 h
  | resetExit => exact loose_execResetExit h
  | dramTrainingDone stack ok => exact (keeps_execDramTrainingDone h stack ok).reaches
  | pf0Ready => exact (keeps_execPf0Ready h).reaches
  | logScanStart => exact (keeps_execLogScanStart h).reaches
  | logScanDone => exact (keeps_execLogScanDone h).reaches
  | regionAdopt tid => exact (keeps_execRegionAdopt h tid).reaches
  | regionScrub => exact (keeps_execRegionScrub h).reaches
  | regionHold => exact (keeps_execRegionHold h).reaches
  | regionActionStart => exact (keeps_execRegionActionStart h).reaches
  | adoptDone => exact (keeps_execAdoptDone h).reaches
  | scrubDone => exact (keeps_execScrubDone h).reaches
  | releaseCmd => exact (keeps_execReleaseCmd h).reaches
  | quiesceStart => exact (keeps_execQuiesceStart h).reaches
  | quiesceDone => exact (keeps_execQuiesceDone h).reaches
  | bar2Write off bytes val => exact (keeps_execBar2Write h off bytes val).reaches
  | bar2HeaderSubmit val => exact (keeps_execBar2HeaderSubmit h val).reaches
  | bar2FrameSubmit slot val => exact (keeps_execBar2FrameSubmit h slot val).reaches
  | headerCmd words partialWord => exact (keeps_execHeaderCmd h words partialWord).reaches
  | frameCmd arg words partialWord => exact (keeps_execFrameCmd h arg words partialWord).reaches
  | statusCmd cursor => exact (keeps_execStatusCmd h cursor).reaches
  | serialAbort => exact (keeps_execSerialAbort h).reaches
  | serialBadcmd cmd => exact (keeps_execSerialBadcmd h cmd).reaches
  | headerCheckDone => exact (keeps_execHeaderCheckDone h).reaches
  | verifyDone => exact (keeps_execVerifyDone h).reaches
  | abortCmd => exact (keeps_execAbortCmd h).reaches
  | slotConfigDone slot ok => exact (keeps_execSlotConfigDone h slot ok).reaches
  | slotReady slot ident => exact (keeps_execSlotReady h slot ident).reaches
  | slotReadyTimeout slot => exact (keeps_execSlotReadyTimeout h slot).reaches
  | recouple => exact (keeps_execRecouple h).reaches
  | applyDone ok sysMask => exact (keeps_execApplyDone h ok sysMask).reaches
  | auditTail val => exact (keeps_execAuditTail h val).reaches
  | makerLock => exact (keeps_execMakerLock h).reaches
  | makerChallengeRequest scope => exact (keeps_execMakerChallengeRequest h scope).reaches
  | makerResponse sig => exact (keeps_execMakerResponse h sig).reaches
  | nonceExpiry => exact (keeps_execNonceExpiry h).reaches
  | makerAction scope code off => exact (keeps_execMakerAction h scope code off).reaches
  | registerWrite off bytes val => exact (keeps_execRegisterWrite h off bytes val).reaches
  | countLoRead path span => exact (keeps_execCountLoRead h path span).reaches
  | sqTail vf q val => exact (keeps_execSqTail h vf q val).reaches
  | cqHead vf q val => exact (keeps_execCqHead h vf q val).reaches
  | fetchStart tid q => exact (keeps_execFetchStart h tid q).reaches
  | descriptorFetched tid q => exact (keeps_execDescriptorFetched h tid q).reaches
  | sqCtrl tid q val => exact (keeps_execSqCtrl h tid q val).reaches
  | cqCtrl tid q val => exact (keeps_execCqCtrl h tid q val).reaches
  | nop d => exact (keeps_execNop h d).reaches
  | fence d => exact (keeps_execFence h d).reaches
  | seqOpen d => exact (keeps_execSeqOpen h d).reaches
  | seqClose d => exact (keeps_execSeqClose h d).reaches
  | closeRun idx => exact (keeps_execCloseRun h idx).reaches
  | closeEntriesRemoved idx => exact (keeps_execCloseEntriesRemoved h idx).reaches
  | seqFork d => exact (keeps_execSeqFork h d).reaches
  | append d => exact (keeps_execAppend h d).reaches
  | readPages d => exact (keeps_execReadPages h d).reaches
  | deliver d => exact (keeps_execDeliver h d).reaches
  | pin d => exact (keeps_execPin h d).reaches
  | unpin d => exact (keeps_execUnpin h d).reaches
  | scoreUpdate d => exact (keeps_execScoreUpdate h d).reaches
  | prefixFind d => exact (keeps_execPrefixFind h d).reaches
  | prefixNext d => exact (keeps_execPrefixNext h d).reaches
  | prefixInsert d => exact (keeps_execPrefixInsert h d).reaches
  | prefixRemove d => exact (keeps_execPrefixRemove h d).reaches
  | attnPartial d => exact (keeps_execAttnPartial h d).reaches
  | reshardMove d => exact (keeps_execReshardMove h d).reaches
  | reshardCopy d => exact (keeps_execReshardCopy h d).reaches
  | advance d => exact (keeps_execAdvance h d).reaches
  | poolXfer d => exact (keeps_execPoolXfer h d).reaches
  | rebuildStart => exact (keeps_execRebuildStart h).reaches
  | rebuildCopyDone => exact (keeps_execRebuildCopyDone h).reaches
  | walkCacheFlush => exact (keeps_execWalkCacheFlush h).reaches
  | tierProbe => exact (keeps_execTierProbe h).reaches
  | defineCmd => exact (keeps_execDefineCmd h).reaches
  | undefine => exact (keeps_execUndefine h).reaches
  | appendBuckets off val => exact (keeps_execAppendBuckets h off val).reaches
  | nandReadDone op res => exact (keeps_execNandReadDone h op res).reaches
  | programDone op ok => exact (keeps_execProgramDone h op ok).reaches
  | dieRebuildDone group lost => exact (keeps_execDieRebuildDone h group lost).reaches
  | openNandPageTimeout index => exact (keeps_execOpenNandPageTimeout h index).reaches
  | eviction => exact (keeps_execEviction h).reaches
  | scoreReevaluate => exact (keeps_execScoreReevaluate h).reaches
  | logFlush index => exact (keeps_execLogFlush h index).reaches
  | compaction index => exact (keeps_execCompaction h index).reaches
  | cascadeWord w => exact (keeps_execCascadeWord h w).reaches
  | cascadeWaitExpiry tag => exact (keeps_execCascadeWaitExpiry h tag).reaches
  | enumDone ring => exact (keeps_execEnumDone h ring).reaches
  | cascadeEnumTimeout => exact (keeps_execCascadeEnumTimeout h).reaches
  | matchToken port f => exact (keeps_execMatchToken h port f).reaches
  | matchReply port f => exact (keeps_execMatchReply h port f).reaches
  | pelotonWaitExpiry work => exact (keeps_execPelotonWaitExpiry h work).reaches
  | brakeSample temps => exact (keeps_execBrakeSample h temps).reaches
  | reshape => exact (keeps_execReshape h).reaches
  | reshapeDrainDone bank => exact (keeps_execReshapeDrainDone h bank).reaches
  | shadowTokensRestored entry => exact (keeps_execShadowTokensRestored h entry).reaches
  | constLoad => exact (keeps_execConstLoad h).reaches
  | constLoadDone ok => exact (keeps_execConstLoadDone h ok).reaches
  | constUnload => exact (keeps_execConstUnload h).reaches
  | hookResponse slot hook tag last data => exact (keeps_execHookResponse h slot hook tag last data).reaches
  | hookLatencyTimeout slot hook tag => exact (keeps_execHookLatencyTimeout h slot hook tag).reaches
  | slotFaultAssert slot => exact (keeps_execSlotFaultAssert h slot).reaches
  | slotWindow addr wr rdata => exact (keeps_execSlotWindow h addr wr rdata).reaches
  | windowTimeout addr => exact (keeps_execWindowTimeout h addr).reaches
  | cfgRdReq slot frame => exact (keeps_execCfgRdReq h slot frame).reaches
  | cfgReadbackDone ok => exact (keeps_execCfgReadbackDone h ok).reaches
  | unloadCmd => exact (keeps_execUnloadCmd h).reaches
  | tenantBind val => exact (keeps_execTenantBind h val).reaches
  | helloCmd port f => exact (keeps_execHelloCmd h port f).reaches
  | ackCmd port f => exact (keeps_execAckCmd h port f).reaches
  | beatCmd port f => exact (keeps_execBeatCmd h port f).reaches
  | badFrame port header payload => exact (keeps_execBadFrame h port header payload).reaches
  | replayTimeout port => exact (keeps_execReplayTimeout h port).reaches
  | reshardOpen port f => exact (keeps_execReshardOpen h port f).reaches
  | reshardAnswer port f => exact (keeps_execReshardAnswer h port f).reaches
  | pageSeg port f => exact (keeps_execPageSeg h port f).reaches
  | placed port f => exact (keeps_execPlaced h port f).reaches
  | epochPrepare port f => exact (keeps_execEpochPrepare h port f).reaches
  | epochReadySend tid => exact (keeps_execEpochReadySend h tid).reaches
  | epochReady port f => exact (keeps_execEpochReady h port f).reaches
  | advanceReadyDeadline work => exact (keeps_execAdvanceReadyDeadline h work).reaches
  | epochCommit port f => exact (keeps_execEpochCommit h port f).reaches
  | commitAck port f => exact (keeps_execCommitAck h port f).reaches
  | xferWaitExpiry xid => exact (keeps_execXferWaitExpiry h xid).reaches
  | mirrorWrite port f => exact (keeps_execMirrorWrite h port f).reaches
  | mirrorAck port f => exact (keeps_execMirrorAck h port f).reaches
  | linkDown port => exact (keeps_execLinkDown h port).reaches
  | linkHoldExpiry port => exact (keeps_execLinkHoldExpiry h port).reaches
  | linkUp port member => exact (keeps_execLinkUp h port member).reaches
  | freewheelOpen pair => exact (keeps_execFreewheelOpen h pair).reaches
  | freewheelClose pair => exact (keeps_execFreewheelClose h pair).reaches
  | freewheelSwitchDone pair => exact (keeps_execFreewheelSwitchDone h pair).reaches
  | qpReset => exact (keeps_execQpReset h).reaches
  | qpInit => exact (keeps_execQpInit h).reaches
  | qpRtr => exact (keeps_execQpRtr h).reaches
  | qpRts => exact (keeps_execQpRts h).reaches
  | qpSqd => exact (keeps_execQpSqd h).reaches
  | qpErr => exact (keeps_execQpErr h).reaches
  | commitCmd => exact (keeps_execCommitCmd h).reaches
  | regionRelease => exact (keeps_execRegionRelease h).reaches
  | rdmaWrite port p => exact (keeps_execRdmaWrite h port p).reaches
  | sprayWrite port p => exact (keeps_execSprayWrite h port p).reaches
  | flush port p => exact (keeps_execFlush h port p).reaches
  | flushResponse port p => exact (keeps_execFlushResponse h port p).reaches
  | rdmaAck port p => exact (keeps_execRdmaAck h port p).reaches
  | sprayAck port p => exact (keeps_execSprayAck h port p).reaches
  | sprayAckSend qp => exact (keeps_execSprayAckSend h qp).reaches
  | sprayTimeout qp psn => exact (keeps_execSprayTimeout h qp psn).reaches
  | ackTimeout qp => exact (keeps_execAckTimeout h qp).reaches
  | pathRestored qp path => exact (keeps_execPathRestored h qp path).reaches
  | cnp port p => exact (keeps_execCnp h port p).reaches
  | rateTimer qp => exact (keeps_execRateTimer h qp).reaches
  | pfcStorm port => exact (keeps_execPfcStorm h port).reaches
  | cxlReadNocache src tag dpa => exact (keeps_execCxlReadNocache h src tag dpa).reaches
  | cxlSharedRead src tag dpa => exact (keeps_execCxlSharedRead h src tag dpa).reaches
  | cxlOwnershipRead src tag dpa => exact (keeps_execCxlOwnershipRead h src tag dpa).reaches
  | cxlWrite src tag dpa data mask mval => exact (keeps_execCxlWrite h src tag dpa data mask mval).reaches
  | writeback hid dpa data => exact (keeps_execWriteback h hid dpa data).reaches
  | snoopResponse hid dpa data keeps => exact (keeps_execSnoopResponse h hid dpa data keeps).reaches
  | biTimeout slot dpa => exact (keeps_execBiTimeout h slot dpa).reaches
  | hostViral hid => exact (keeps_execHostViral h hid).reaches
  | poolRequestServe => exact (keeps_execPoolRequestServe h).reaches
  | dcReleaseAck hid region => exact (keeps_execDcReleaseAck h hid region).reaches
  | releaseWaitExpiry slot region => exact (keeps_execReleaseWaitExpiry h slot region).reaches
  | createCmd => exact (keeps_execCreateCmd h).reaches
  | destroy => exact (keeps_execDestroy h).reaches
  | destroyDone region => exact (keeps_execDestroyDone h region).reaches
  | takeover => exact (keeps_execTakeover h).reaches
  | takeoverKv => exact (keeps_execTakeoverKv h).reaches
  | takeoverKvDone => exact (keeps_execTakeoverKvDone h).reaches
  | resync => exact (keeps_execResync h).reaches
  | resyncDone tenant num => exact (keeps_execResyncDone h tenant num).reaches
  | hostCtrl val => exact (keeps_execHostCtrl h val).reaches
  | hostDrainDone slot => exact (keeps_execHostDrainDone h slot).reaches
  | partitionCreate => exact (keeps_execPartitionCreate h).reaches
  | partitionDestroy => exact (keeps_execPartitionDestroy h).reaches
  | tenantCreate => exact (keeps_execTenantCreate h).reaches
  | tenantDestroy => exact (keeps_execTenantDestroy h).reaches
  | tenantReset => exact (keeps_execTenantReset h).reaches
  | flrVf vf => exact (keeps_execFlrVf h vf).reaches
  | resetDrainExpiry tid => exact (keeps_execResetDrainExpiry h tid).reaches
  | keyLoad => exact (keeps_execKeyLoad h).reaches
  | keyClear => exact (keeps_execKeyClear h).reaches
  | domainStop => exact (keeps_execDomainStop h).reaches
  | domainStart => exact (keeps_execDomainStart h).reaches
  | domainRunning domain => exact (keeps_execDomainRunning h domain).reaches
  | isolate set => exact (keeps_execIsolate h set).reaches
  | domainReset set => exact (keeps_execDomainReset h set).reaches
  | xingReset set => exact (keeps_execXingReset h set).reaches
  | flashGate => exact (keeps_execFlashGate h).reaches
  | crossingOverrun crossing => exact (keeps_execCrossingOverrun h crossing).reaches
  | sysCheckin task seq => exact (keeps_execSysCheckin h task seq).reaches
  | hostCheckin val => exact (keeps_execHostCheckin h val).reaches
  | hostDisable key => exact (keeps_execHostDisable h key).reaches
  | hostEnable => exact (keeps_execHostEnable h).reaches
  | watchdogTimeout host => exact (keeps_execWatchdogTimeout h host).reaches
  | clockStopCheck stopped => exact (keeps_execClockStopCheck h stopped).reaches
  | xtalFail => exact (keeps_execXtalFail h).reaches
  | quiesceLimitExpiry => exact (keeps_execQuiesceLimitExpiry h).reaches
  | crashDone log => exact loose_execCrashDone h log
  | graceExpiry => exact loose_execGraceExpiry h
  | stackFailure stack => exact (keeps_execStackFailure h stack).reaches
  | tableRebuildDone stack => exact (keeps_execTableRebuildDone h stack).reaches
  | unitFault unit index work chunk => exact (keeps_execUnitFault h unit index work chunk).reaches
  | seqProbe => exact (keeps_execSeqProbe h).reaches
  | obsStart => exact (keeps_execObsStart h).reaches
  | obsStop => exact (keeps_execObsStop h).reaches
  | obsArm => exact (keeps_execObsArm h).reaches
  | thermalSample temps vin pin => exact (keeps_execThermalSample h temps vin pin).reaches
  | setOffset off => exact (keeps_execSetOffset h off).reaches
  | readDword => exact (keeps_execReadDword h).reaches
  | telemetry => exact (keeps_execTelemetry h).reaches
  | cascadeDown => exact (keeps_execCascadeDown h).reaches
  | fecDegraded port count => exact (keeps_execFecDegraded h port count).reaches

end Sys2Proof.Machine
end

