-- ==== Sys2Proof/Laws/Counter.lean ====
section
/-! SUPPORT. The Stroke counter: which commands leave it alone, and what a boundary makes of it. -/

namespace Sys2Proof.Machine

variable {s t : State}

/-- A command that does not move the Stroke counter keeps it. -/
theorem keeps_exec (h : Keeps s t) (a0 : Instr) (hc : movesCounter a0 = false) : Answers s (exec a0 t) := by
  cases a0 with
  | strokeBoundary => cases hc
  | shadowSwitch => cases hc
  | periodSwitch => cases hc
  | counterHalt => cases hc
  | chunkStart unit => exact keeps_execChunkStart h unit
  | chunkEnd work chunk res => exact keeps_execChunkEnd h work chunk res
  | markReceive port f offsetNs => exact keeps_execMarkReceive h port f offsetNs
  | markTimeout => exact keeps_execMarkTimeout h
  | beatSend => exact keeps_execBeatSend h
  | rosterTimeout member => exact keeps_execRosterTimeout h member
  | helloSend => exact keeps_execHelloSend h
  | joinCmd => exact keeps_execJoinCmd h
  | joinTimeout => exact keeps_execJoinTimeout h
  | leaveCmd => exact keeps_execLeaveCmd h
  | powerInputChange input inTol => cases hc
  | perstChange asserted => cases hc
  | resetInChange asserted => cases hc
  | hotReset => cases hc
  | flrPf0 => cases hc
  | resetExit => cases hc
  | dramTrainingDone stack ok => exact keeps_execDramTrainingDone h stack ok
  | pf0Ready => exact keeps_execPf0Ready h
  | logScanStart => exact keeps_execLogScanStart h
  | logScanDone => exact keeps_execLogScanDone h
  | regionAdopt tid => exact keeps_execRegionAdopt h tid
  | regionScrub => exact keeps_execRegionScrub h
  | regionHold => exact keeps_execRegionHold h
  | regionActionStart => exact keeps_execRegionActionStart h
  | adoptDone => exact keeps_execAdoptDone h
  | scrubDone => exact keeps_execScrubDone h
  | releaseCmd => exact keeps_execReleaseCmd h
  | quiesceStart => exact keeps_execQuiesceStart h
  | quiesceDone => exact keeps_execQuiesceDone h
  | bar2Write off bytes val => exact keeps_execBar2Write h off bytes val
  | bar2HeaderSubmit val => exact keeps_execBar2HeaderSubmit h val
  | bar2FrameSubmit slot val => exact keeps_execBar2FrameSubmit h slot val
  | headerCmd words partialWord => exact keeps_execHeaderCmd h words partialWord
  | frameCmd arg words partialWord => exact keeps_execFrameCmd h arg words partialWord
  | statusCmd cursor => exact keeps_execStatusCmd h cursor
  | serialAbort => exact keeps_execSerialAbort h
  | serialBadcmd cmd => exact keeps_execSerialBadcmd h cmd
  | headerCheckDone => exact keeps_execHeaderCheckDone h
  | verifyDone => exact keeps_execVerifyDone h
  | abortCmd => exact keeps_execAbortCmd h
  | slotConfigDone slot ok => exact keeps_execSlotConfigDone h slot ok
  | slotReady slot ident => exact keeps_execSlotReady h slot ident
  | slotReadyTimeout slot => exact keeps_execSlotReadyTimeout h slot
  | recouple => exact keeps_execRecouple h
  | applyDone ok sysMask => exact keeps_execApplyDone h ok sysMask
  | auditTail val => exact keeps_execAuditTail h val
  | makerLock => exact keeps_execMakerLock h
  | makerChallengeRequest scope => exact keeps_execMakerChallengeRequest h scope
  | makerResponse sig => exact keeps_execMakerResponse h sig
  | nonceExpiry => exact keeps_execNonceExpiry h
  | makerAction scope code off => exact keeps_execMakerAction h scope code off
  | registerWrite off bytes val => exact keeps_execRegisterWrite h off bytes val
  | countLoRead path span => exact keeps_execCountLoRead h path span
  | sqTail vf q val => exact keeps_execSqTail h vf q val
  | cqHead vf q val => exact keeps_execCqHead h vf q val
  | fetchStart tid q => exact keeps_execFetchStart h tid q
  | descriptorFetched tid q => exact keeps_execDescriptorFetched h tid q
  | sqCtrl tid q val => exact keeps_execSqCtrl h tid q val
  | cqCtrl tid q val => exact keeps_execCqCtrl h tid q val
  | nop d => exact keeps_execNop h d
  | fence d => exact keeps_execFence h d
  | seqOpen d => exact keeps_execSeqOpen h d
  | seqClose d => exact keeps_execSeqClose h d
  | closeRun idx => exact keeps_execCloseRun h idx
  | closeEntriesRemoved idx => exact keeps_execCloseEntriesRemoved h idx
  | seqFork d => exact keeps_execSeqFork h d
  | append d => exact keeps_execAppend h d
  | readPages d => exact keeps_execReadPages h d
  | deliver d => exact keeps_execDeliver h d
  | pin d => exact keeps_execPin h d
  | unpin d => exact keeps_execUnpin h d
  | scoreUpdate d => exact keeps_execScoreUpdate h d
  | prefixFind d => exact keeps_execPrefixFind h d
  | prefixNext d => exact keeps_execPrefixNext h d
  | prefixInsert d => exact keeps_execPrefixInsert h d
  | prefixRemove d => exact keeps_execPrefixRemove h d
  | attnPartial d => exact keeps_execAttnPartial h d
  | reshardMove d => exact keeps_execReshardMove h d
  | reshardCopy d => exact keeps_execReshardCopy h d
  | advance d => exact keeps_execAdvance h d
  | poolXfer d => exact keeps_execPoolXfer h d
  | rebuildStart => exact keeps_execRebuildStart h
  | rebuildCopyDone => exact keeps_execRebuildCopyDone h
  | walkCacheFlush => exact keeps_execWalkCacheFlush h
  | tierProbe => exact keeps_execTierProbe h
  | defineCmd => exact keeps_execDefineCmd h
  | undefine => exact keeps_execUndefine h
  | appendBuckets off val => exact keeps_execAppendBuckets h off val
  | nandReadDone op res => exact keeps_execNandReadDone h op res
  | programDone op ok => exact keeps_execProgramDone h op ok
  | dieRebuildDone group lost => exact keeps_execDieRebuildDone h group lost
  | openNandPageTimeout index => exact keeps_execOpenNandPageTimeout h index
  | eviction => exact keeps_execEviction h
  | scoreReevaluate => exact keeps_execScoreReevaluate h
  | logFlush index => exact keeps_execLogFlush h index
  | compaction index => exact keeps_execCompaction h index
  | cascadeWord w => exact keeps_execCascadeWord h w
  | cascadeWaitExpiry tag => exact keeps_execCascadeWaitExpiry h tag
  | enumDone ring => exact keeps_execEnumDone h ring
  | cascadeEnumTimeout => exact keeps_execCascadeEnumTimeout h
  | matchToken port f => exact keeps_execMatchToken h port f
  | matchReply port f => exact keeps_execMatchReply h port f
  | pelotonWaitExpiry work => exact keeps_execPelotonWaitExpiry h work
  | brakeSample temps => exact keeps_execBrakeSample h temps
  | reshape => exact keeps_execReshape h
  | reshapeDrainDone bank => exact keeps_execReshapeDrainDone h bank
  | shadowTokensRestored entry => exact keeps_execShadowTokensRestored h entry
  | constLoad => exact keeps_execConstLoad h
  | constLoadDone ok => exact keeps_execConstLoadDone h ok
  | constUnload => exact keeps_execConstUnload h
  | hookResponse slot hook tag last data => exact keeps_execHookResponse h slot hook tag last data
  | hookLatencyTimeout slot hook tag => exact keeps_execHookLatencyTimeout h slot hook tag
  | slotFaultAssert slot => exact keeps_execSlotFaultAssert h slot
  | slotWindow addr wr rdata => exact keeps_execSlotWindow h addr wr rdata
  | windowTimeout addr => exact keeps_execWindowTimeout h addr
  | cfgRdReq slot frame => exact keeps_execCfgRdReq h slot frame
  | cfgReadbackDone ok => exact keeps_execCfgReadbackDone h ok
  | unloadCmd => exact keeps_execUnloadCmd h
  | tenantBind val => exact keeps_execTenantBind h val
  | helloCmd port f => exact keeps_execHelloCmd h port f
  | ackCmd port f => exact keeps_execAckCmd h port f
  | beatCmd port f => exact keeps_execBeatCmd h port f
  | badFrame port header payload => exact keeps_execBadFrame h port header payload
  | replayTimeout port => exact keeps_execReplayTimeout h port
  | reshardOpen port f => exact keeps_execReshardOpen h port f
  | reshardAnswer port f => exact keeps_execReshardAnswer h port f
  | pageSeg port f => exact keeps_execPageSeg h port f
  | placed port f => exact keeps_execPlaced h port f
  | epochPrepare port f => exact keeps_execEpochPrepare h port f
  | epochReadySend tid => exact keeps_execEpochReadySend h tid
  | epochReady port f => exact keeps_execEpochReady h port f
  | advanceReadyDeadline work => exact keeps_execAdvanceReadyDeadline h work
  | epochCommit port f => exact keeps_execEpochCommit h port f
  | commitAck port f => exact keeps_execCommitAck h port f
  | xferWaitExpiry xid => exact keeps_execXferWaitExpiry h xid
  | mirrorWrite port f => exact keeps_execMirrorWrite h port f
  | mirrorAck port f => exact keeps_execMirrorAck h port f
  | linkDown port => exact keeps_execLinkDown h port
  | linkHoldExpiry port => exact keeps_execLinkHoldExpiry h port
  | linkUp port member => exact keeps_execLinkUp h port member
  | freewheelOpen pair => exact keeps_execFreewheelOpen h pair
  | freewheelClose pair => exact keeps_execFreewheelClose h pair
  | freewheelSwitchDone pair => exact keeps_execFreewheelSwitchDone h pair
  | qpReset => exact keeps_execQpReset h
  | qpInit => exact keeps_execQpInit h
  | qpRtr => exact keeps_execQpRtr h
  | qpRts => exact keeps_execQpRts h
  | qpSqd => exact keeps_execQpSqd h
  | qpErr => exact keeps_execQpErr h
  | commitCmd => exact keeps_execCommitCmd h
  | regionRelease => exact keeps_execRegionRelease h
  | rdmaWrite port p => exact keeps_execRdmaWrite h port p
  | sprayWrite port p => exact keeps_execSprayWrite h port p
  | flush port p => exact keeps_execFlush h port p
  | flushResponse port p => exact keeps_execFlushResponse h port p
  | rdmaAck port p => exact keeps_execRdmaAck h port p
  | sprayAck port p => exact keeps_execSprayAck h port p
  | sprayAckSend qp => exact keeps_execSprayAckSend h qp
  | sprayTimeout qp psn => exact keeps_execSprayTimeout h qp psn
  | ackTimeout qp => exact keeps_execAckTimeout h qp
  | pathRestored qp path => exact keeps_execPathRestored h qp path
  | cnp port p => exact keeps_execCnp h port p
  | rateTimer qp => exact keeps_execRateTimer h qp
  | pfcStorm port => exact keeps_execPfcStorm h port
  | cxlReadNocache src tag dpa => exact keeps_execCxlReadNocache h src tag dpa
  | cxlSharedRead src tag dpa => exact keeps_execCxlSharedRead h src tag dpa
  | cxlOwnershipRead src tag dpa => exact keeps_execCxlOwnershipRead h src tag dpa
  | cxlWrite src tag dpa data mask mval => exact keeps_execCxlWrite h src tag dpa data mask mval
  | writeback hid dpa data => exact keeps_execWriteback h hid dpa data
  | snoopResponse hid dpa data keeps => exact keeps_execSnoopResponse h hid dpa data keeps
  | biTimeout slot dpa => exact keeps_execBiTimeout h slot dpa
  | hostViral hid => exact keeps_execHostViral h hid
  | poolRequestServe => exact keeps_execPoolRequestServe h
  | dcReleaseAck hid region => exact keeps_execDcReleaseAck h hid region
  | releaseWaitExpiry slot region => exact keeps_execReleaseWaitExpiry h slot region
  | createCmd => exact keeps_execCreateCmd h
  | destroy => exact keeps_execDestroy h
  | destroyDone region => exact keeps_execDestroyDone h region
  | takeover => exact keeps_execTakeover h
  | takeoverKv => exact keeps_execTakeoverKv h
  | takeoverKvDone => exact keeps_execTakeoverKvDone h
  | resync => exact keeps_execResync h
  | resyncDone tenant num => exact keeps_execResyncDone h tenant num
  | hostCtrl val => exact keeps_execHostCtrl h val
  | hostDrainDone slot => exact keeps_execHostDrainDone h slot
  | partitionCreate => exact keeps_execPartitionCreate h
  | partitionDestroy => exact keeps_execPartitionDestroy h
  | tenantCreate => exact keeps_execTenantCreate h
  | tenantDestroy => exact keeps_execTenantDestroy h
  | tenantReset => exact keeps_execTenantReset h
  | flrVf vf => exact keeps_execFlrVf h vf
  | resetDrainExpiry tid => exact keeps_execResetDrainExpiry h tid
  | keyLoad => exact keeps_execKeyLoad h
  | keyClear => exact keeps_execKeyClear h
  | domainStop => exact keeps_execDomainStop h
  | domainStart => exact keeps_execDomainStart h
  | domainRunning domain => exact keeps_execDomainRunning h domain
  | isolate set => exact keeps_execIsolate h set
  | domainReset set => exact keeps_execDomainReset h set
  | xingReset set => exact keeps_execXingReset h set
  | flashGate => exact keeps_execFlashGate h
  | crossingOverrun crossing => exact keeps_execCrossingOverrun h crossing
  | sysCheckin task seq => exact keeps_execSysCheckin h task seq
  | hostCheckin val => exact keeps_execHostCheckin h val
  | hostDisable key => exact keeps_execHostDisable h key
  | hostEnable => exact keeps_execHostEnable h
  | watchdogTimeout host => exact keeps_execWatchdogTimeout h host
  | clockStopCheck stopped => exact keeps_execClockStopCheck h stopped
  | xtalFail => exact keeps_execXtalFail h
  | quiesceLimitExpiry => exact keeps_execQuiesceLimitExpiry h
  | crashDone log => cases hc
  | graceExpiry => cases hc
  | stackFailure stack => exact keeps_execStackFailure h stack
  | tableRebuildDone stack => exact keeps_execTableRebuildDone h stack
  | unitFault unit index work chunk => exact keeps_execUnitFault h unit index work chunk
  | seqProbe => exact keeps_execSeqProbe h
  | obsStart => exact keeps_execObsStart h
  | obsStop => exact keeps_execObsStop h
  | obsArm => exact keeps_execObsArm h
  | thermalSample temps vin pin => exact keeps_execThermalSample h temps vin pin
  | setOffset off => exact keeps_execSetOffset h off
  | readDword => exact keeps_execReadDword h
  | telemetry => exact keeps_execTelemetry h
  | cascadeDown => exact keeps_execCascadeDown h
  | fecDegraded port count => exact keeps_execFecDegraded h port count

theorem foldl_bnd {α : Type} {f : State → α → State} (hf : ∀ s x, (f s x).bnd = s.bnd) (l : List α) (s : State) :
    (l.foldl f s).bnd = s.bnd := by
  induction l generalizing s with
  | nil => rfl
  | cons x l ih => rw [List.foldl_cons, ih, hf]

theorem markThrottled_bnd (s : State) (w : Work) : (s.markThrottled w).bnd = s.bnd := by
  unfold State.markThrottled
  repeat' first | rfl | split | simp [State.updWork, State.setWk]

theorem throttlePart_bnd (short : Bool) (u : Nat) (ws : List Work) (s : State) : (s.throttlePart short u ws).bnd = s.bnd := by
  induction ws generalizing s u with
  | nil => simp [State.throttlePart]
  | cons w t ih =>
    cases u with
    | zero => simp [State.throttlePart]
    | succ u =>
      rw [State.throttlePart]
      split
      · rw [ih]
        split
        · exact markThrottled_bnd s w
        · rfl
      · exact ih _ _

theorem throttle_bnd (s : State) : s.throttle.bnd = s.bnd := by
  unfold State.throttle
  refine foldl_bnd (fun s b => ?_) _ _
  dsimp only
  split
  · refine foldl_bnd (fun s w => ?_) _ _
    split
    · exact markThrottled_bnd s w
    · rfl
  · exact throttlePart_bnd _ _ _ _

theorem probeTurn_bnd (s : State) : s.probeTurn.bnd = s.bnd := by
  unfold State.probeTurn
  split
  · rfl
  · dsimp only
    split <;> simp

theorem noteWaits_bnd (s : State) : s.noteWaits.bnd = s.bnd := by
  unfold State.noteWaits
  split <;> rfl

theorem dieRebuildTurn_bnd (s : State) : s.dieRebuildTurn.bnd = s.bnd := by
  unfold State.dieRebuildTurn
  generalize s.tier.rebuild = l
  suffices h : ∀ p : State × Nat, (l.foldl (fun (acc : State × Nat) r =>
      (acc.1.setRebuild r.1 r.2.1 (r.2.2.drop acc.2), acc.2 - r.2.2.length)) p).1.bnd = p.1.bnd from h _
  induction l with
  | nil => intro _; rfl
  | cons x l ih =>
    intro p
    rw [List.foldl_cons, ih]
    rfl

/-- A boundary begins the Stroke that `nextStroke` names, and nothing after that moves the counter (R26, R37). -/
theorem boundary_stroke (s : State) : s.boundary.stroke = s.nextStroke % 2 ^ 48 := by
  have hb (u : State) : u.beginStroke.stroke = u.nextStroke % 2 ^ 48 := by
    unfold State.beginStroke
    rw [(keeps_obsTurn (Keeps.refl _)).stroke]
    simp
  have hn : (if s.working = true then s.throttle.probeTurn.dieRebuildTurn.noteWaits else s).nextStroke = s.nextStroke := by
    split
    · have k := keeps_noteWaits (keeps_dieRebuildTurn (keeps_probeTurn (keeps_throttle (Keeps.refl s))))
      unfold State.nextStroke
      rw [noteWaits_bnd, dieRebuildTurn_bnd, probeTurn_bnd, throttle_bnd, k.stroke]
    · rfl
  have k1 (u : State) (b : Bool) : Keeps u (u.stepTwo.stepThree.stepFour.stepFive.unitTurns b).noteWaits :=
    keeps_noteWaits (keeps_unitTurns (keeps_stepFive (keeps_stepFour (keeps_stepThree (keeps_stepTwo (Keeps.refl u))))) b)
  have k2 (u : State) : Keeps u ((u.signalCqs.writeEvents.signalErr).auditDrain 64).expireNonce.stepFive :=
    keeps_stepFive (keeps_expireNonce (keeps_auditDrain (keeps_signalErr (keeps_writeEvents (keeps_signalCqs (Keeps.refl u)))) 64))
  unfold State.boundary
  rw [← hn, ← hb]
  dsimp only
  generalize (if s.working = true then s.throttle.probeTurn.dieRebuildTurn.noteWaits else s) = v
  split
  · exact (k1 _ _).stroke
  · exact (k2 _).stroke

end Sys2Proof.Machine
end

