-- ==== Sys2Proof/Laws/Frames.lean ====
section
/-! SUPPORT. A frame that arrives: what the hop does with it, and when the card itself takes it. -/

namespace Sys2Proof.Machine

/-- The hop's rules in the terms of `hopTook` and `hopPassed` (R329 to R331). -/
theorem receive_eq (s : State) (p typ : Nat) (f0 : Frame) (k : State → Frame → State) : s.receive p typ f0 k =
    if !s.working || !s.ringPort p || !s.linkUp p then s
    else if sequenced typ ∧ (frameOf typ f0).linkSeq ≠ seqNext ((s.takeAck p (frameOf typ f0)).hop p).got then
      (s.takeAck p (frameOf typ f0)).acknowledge p true 0 0
    else if typ = ftHELLO ∨ typ = ftACK then k (s.hopTook p typ (frameOf typ f0)) (frameOf typ f0)
    else if (frameOf typ f0).src = s.me then
      (if typ = ftBEAT ∧ (s.hopPassed p typ (frameOf typ f0)).memberState = 1 ∧
          (s.hopPassed p typ (frameOf typ f0)).foreignBeat p (frameOf typ f0) then
        ((s.hopPassed p typ (frameOf typ f0)).setChain fun c => { c with dupId := true }).tryJoin
      else s.hopPassed p typ (frameOf typ f0))
    else if (frameOf typ f0).dst = s.me ∨ (frameOf typ f0).dst = 0xFF then k (s.hopPassed p typ (frameOf typ f0)) (frameOf typ f0)
    else s.hopPassed p typ (frameOf typ f0) := by
  unfold State.receive State.hopPassed State.hopTook
  simp only [decide_eq_true_eq]
  rfl

/-- A frame that arrives for this card is taken by what its type does. -/
theorem arrives {s t : State} {p typ : Nat} {f0 f : Frame} (h : s.Arrives p typ f0 f t) (h1 : typ ≠ ftHELLO) (h2 : typ ≠ ftACK)
    (k : State → Frame → State) : s.receive p typ f0 k = k t f := by
  obtain ⟨a1, a2, a3, a4, a5, a6, a7, a8⟩ := h
  rw [receive_eq, ← a4, if_neg (by simp [a1, a2, a3]), if_neg (fun q => q.2 (a5 q.1)), if_neg (by simp [h1, h2]), if_neg a6, if_pos a7,
    ← a8]

/-- A frame for another member, and one of the card's own come round, goes on as the hop passes it (R331). -/
theorem passes {s : State} {p typ : Nat} {f0 f : Frame} (w : s.working = true) (r : s.ringPort p = true) (l : s.linkUp p = true)
    (hf : f = frameOf typ f0) (h1 : typ ≠ ftHELLO) (h2 : typ ≠ ftACK)
    (hs : sequenced typ = true → f.linkSeq = seqNext ((s.takeAck p f).hop p).got) (hd : f.src ≠ s.me → f.dst ≠ s.me ∧ f.dst ≠ 0xFF)
    (hb : f.src = s.me → typ = ftBEAT → (s.hopPassed p typ f).memberState ≠ 1) (k : State → Frame → State) :
    s.receive p typ f0 k = s.hopPassed p typ f := by
  rw [receive_eq, ← hf, if_neg (by simp [w, r, l]), if_neg (fun q => q.2 (hs q.1)), if_neg (by simp [h1, h2])]
  split
  · rw [if_neg fun q => hb ‹_› q.1 q.2.1]
  · rw [if_neg fun q => q.elim (hd ‹_›).1 (hd ‹_›).2]

end Sys2Proof.Machine
end

