-- ==== Sys2Proof/Laws/Chain.lean ====
section
/-! SUPPORT. Frames of the Chainring and the membership register. -/

namespace Sys2Proof.Laws.Chain

open Sys2Proof.Machine

theorem frameRow_exec {c : Instr} {p typ : Nat} {f0 : Frame} (h : frameRow c = some (p, typ, f0)) :
    (∃ k : State → State → Frame → State, ∀ s, exec c s = .next (s.receive p typ f0 (k s))) ∧ typ ≠ ftHELLO ∧ typ ≠ ftACK := by
  cases c
  case markReceive => cases h; exact ⟨⟨_, fun s => rfl⟩, by decide, by decide⟩
  case beatCmd => cases h; exact ⟨⟨_, fun s => rfl⟩, by decide, by decide⟩
  case matchToken => cases h; exact ⟨⟨_, fun s => rfl⟩, by decide, by decide⟩
  case matchReply => cases h; exact ⟨⟨_, fun s => rfl⟩, by decide, by decide⟩
  case reshardOpen => cases h; exact ⟨⟨_, fun s => rfl⟩, by decide, by decide⟩
  case reshardAnswer => cases h; exact ⟨⟨_, fun s => rfl⟩, by decide, by decide⟩
  case pageSeg => cases h; exact ⟨⟨_, fun s => rfl⟩, by decide, by decide⟩
  case placed => cases h; exact ⟨⟨_, fun s => rfl⟩, by decide, by decide⟩
  case epochPrepare => cases h; exact ⟨⟨_, fun s => rfl⟩, by decide, by decide⟩
  case epochReady => cases h; exact ⟨⟨_, fun s => rfl⟩, by decide, by decide⟩
  case epochCommit => cases h; exact ⟨⟨_, fun s => rfl⟩, by decide, by decide⟩
  case commitAck => cases h; exact ⟨⟨_, fun s => rfl⟩, by decide, by decide⟩
  case mirrorWrite => cases h; exact ⟨⟨_, fun s => rfl⟩, by decide, by decide⟩
  case mirrorAck => cases h; exact ⟨⟨_, fun s => rfl⟩, by decide, by decide⟩
  all_goals exact absurd h (by simp [frameRow])

theorem replay_out (p g : Nat) (l : List Frame) : ∀ s : State, (l.foldl (fun s f => s.emit (.chain p { f with ackSeq := g })) s).out =
    s.out ++ l.map (fun f => .chain p { f with ackSeq := g }) ∧ (l.foldl (fun s f => s.emit (.chain p { f with ackSeq := g })) s).chain = s.chain := by
  induction l with
  | nil => intro s; exact ⟨(List.append_nil _).symm, rfl⟩
  | cons a l ih =>
    intro s
    rw [List.foldl_cons, List.map_cons]
    refine ⟨(ih _).1.trans ?_, (ih _).2⟩
    unfold State.emit
    dsimp only
    rw [List.append_assoc]; rfl

def memR : RegRow := ⟨SPOKE.MEMBER_CTRL.off, 1, none, [⟨0, 5, .rw, 0⟩, ⟨8, 6, .rw, 1⟩, ⟨16, 1, .w1s, 0⟩, ⟨17, 1, .w1s, 0⟩]⟩

theorem put_wf {s : State} (h : spWf regDefault s.regs = true) (f : Fld) (v i : Nat) : spWf regDefault (s.put f v i).regs = true := setReg_wf s h _ _ _

theorem memPhase {s : State} (hp : s.phase = phCONFIGURE) : ∀ g ∈ memR.fields, s.phaseOk SPOKE.MEMBER_CTRL.JOIN.off g = true := by
  intro g hg
  have : g = ⟨0, 5, .rw, 0⟩ ∨ g = ⟨8, 6, .rw, 1⟩ ∨ g = ⟨16, 1, .w1s, 0⟩ ∨ g = ⟨17, 1, .w1s, 0⟩ := by
    simpa [memR] using hg
  rcases this with h | h | h | h <;> (subst h; unfold State.phaseOk; rw [hp]; rfl)

theorem leave16 {s : State} {w : Word} (hwd : w = memR.rwBits (s.reg SPOKE.MEMBER_CTRL.off) ||| 0x20000#32) : fieldGet (memR.fieldBits w) 16 1 = 0 := by
  rw [fieldGet_fieldBits (r := memR) w (f := ⟨16, 1, .w1s, 0⟩) (by decide) (by decide), hwd]
  exact fieldGet_bitClear (r := memR) (k := 17) (j := 16) _ (by decide) (by decide) (by decide) (by decide)

theorem leave17 {s : State} {w : Word} (hwd : w = memR.rwBits (s.reg SPOKE.MEMBER_CTRL.off) ||| 0x20000#32) : fieldGet (memR.fieldBits w) 17 1 = 1 := by
  rw [fieldGet_fieldBits (r := memR) w (f := ⟨17, 1, .w1s, 0⟩) (by decide) (by decide), hwd]
  exact fieldGet_bitOr (k := 17) _ (by decide)

theorem leaveW {s : State} {w : Word} (hc : s.canonical = true) (hw : s.writable = true) (hs : s.serving = true)
    (he : 0 < s.get SPOKE.MEMBER_CTRL.EXPECTED) (he' : s.get SPOKE.MEMBER_CTRL.EXPECTED ≤ 32)
    (hwd : w = memR.rwBits (s.reg SPOKE.MEMBER_CTRL.off) ||| 0x20000#32) :
    bar0Bit hMemberCtrl SPOKE.MEMBER_CTRL.LEAVE s = s.recorded (hMemberCtrl.act s 0 (memR.fieldBits w)) SPOKE.MEMBER_CTRL.off 0 w := by
  have k0 : fieldGet w 0 5 = fieldGet (s.reg SPOKE.MEMBER_CTRL.off) 0 5 := by
    rw [hwd]; exact fieldGet_rwOr (r := memR) (k := 17) _ (by decide) (by decide) (f := ⟨0, 5, .rw, 0⟩) (by decide) rfl
  have k1 : fieldGet w 8 6 = fieldGet (s.reg SPOKE.MEMBER_CTRL.off) 8 6 := by
    rw [hwd]; exact fieldGet_rwOr (r := memR) (k := 17) _ (by decide) (by decide) (f := ⟨8, 6, .rw, 1⟩) (by decide) rfl
  have k2 : fieldGet w 16 1 = 0 := by
    rw [hwd]; exact fieldGet_bitClear (r := memR) (k := 17) (j := 16) _ (by decide) (by decide) (by decide) (by decide)
  refine bit_sets_of (f := SPOKE.MEMBER_CTRL.LEAVE) (r := memR) (i := 0) rfl hwd.symm (canonical_regs hc) hw (by decide) (by decide) (by decide) (fun _ _ => rfl) ?_ rfl ?_ rfl (by decide) (by decide)
  · intro g hg hwr
    have : g = ⟨0, 5, .rw, 0⟩ ∨ g = ⟨8, 6, .rw, 1⟩ ∨ g = ⟨16, 1, .w1s, 0⟩ ∨ g = ⟨17, 1, .w1s, 0⟩ := by
      simpa [memR] using hg
    rcases this with h | h | h | h
    · subst h; unfold FieldRow.written at hwr; dsimp only at hwr; rw [k0] at hwr; simp at hwr
    · subst h; unfold FieldRow.written at hwr; dsimp only at hwr; rw [k1] at hwr; simp at hwr
    · subst h; unfold FieldRow.written at hwr; dsimp only at hwr; rw [k2] at hwr; simp at hwr
    · subst h
      unfold State.phaseOk
      rcases serving_cases hs with h | h <;> (rw [h]; rfl)
  · unfold hMemberCtrl
    dsimp only
    rw [leave16 hwd, fieldGet_fieldBits (r := memR) w (f := ⟨0, 5, .rw, 0⟩) (by decide) (by decide),
      fieldGet_fieldBits (r := memR) w (f := ⟨8, 6, .rw, 1⟩) (by decide) (by decide)]
    dsimp only
    rw [k0, k1]
    have e : fieldGet (s.reg SPOKE.MEMBER_CTRL.off) 8 6 = s.get SPOKE.MEMBER_CTRL.EXPECTED := rfl
    rw [e]
    simp [he', Nat.pos_iff_ne_zero.mp he]

theorem opt_filter_none {α : Type} (q : α → Bool) : (none : Option α).filter q = none := rfl

def fwR : RegRow := ⟨SPOKE.FREEWHEEL_CTRL.off, 1, none, [⟨0, 4, .w1s, 0⟩, ⟨4, 4, .w1s, 0⟩]⟩

end Sys2Proof.Laws.Chain
end

