-- ==== Sys2Proof/Laws/Clocks.lean ====
section
/-! SUPPORT. The control register of a clock domain, field by field. -/

namespace Sys2Proof.Laws.Clocks

open Sys2Proof.Machine

abbrev doR : RegRow := ⟨CLK.DOMAIN_CTRL.off, 1, some 0x120000, [⟨0, 1, .w1s, 0⟩, ⟨1, 1, .w1s, 0⟩, ⟨2, 1, .rw, 0⟩, ⟨3, 1, .rw, 0⟩, ⟨4, 1, .rw, 0⟩]⟩

theorem do_rw (o : Word) : doR.rwBits o = o &&& 0x1C#32 := by
  apply BitVec.eq_of_getLsbD_eq
  intro i hi
  rw [getLsbD_rwBits _ _ (by decide), BitVec.getLsbD_and]
  rcases (show i = 0 ∨ i = 1 ∨ i = 2 ∨ i = 3 ∨ i = 4 ∨ 5 ≤ i by omega) with h | h | h | h | h | h
  · subst h; simp [FieldRow.keepsBits, FieldRow.has]
  · subst h; simp [FieldRow.keepsBits, FieldRow.has]
  · subst h; simp [FieldRow.keepsBits, FieldRow.has]
  · subst h; simp [FieldRow.keepsBits, FieldRow.has]
  · subst h; simp [FieldRow.keepsBits, FieldRow.has]
  · have : (0x1C#32).getLsbD i = false := by
      rw [BitVec.getLsbD_ofNat]
      have : Nat.testBit 0x1C i = false := Nat.testBit_lt_two_pow (Nat.lt_of_lt_of_le (by decide : 28 < 2 ^ 5) (Nat.pow_le_pow_right (by decide) h))
      simp [this]
    rw [this, Bool.and_false]
    have : (doR.fields.any fun f => f.keepsBits && f.has i) = false := by
      simp only [List.any_cons, List.any_nil, FieldRow.has]
      simp; omega
    rw [this, Bool.false_and]

theorem do_kept (o : Word) (k : Nat) (hk : k = 2 ∨ k = 3 ∨ k = 4) : fieldGet (o &&& 0x1C#32) k 1 = fieldGet o k 1 := by
  apply Nat.eq_of_testBit_eq
  intro i
  rw [testBit_fieldGet, testBit_fieldGet, BitVec.getLsbD_and]
  by_cases hi : i = 0
  · subst hi; rcases hk with h | h | h <;> subst h <;> simp
  · have : ¬ i < 1 := by omega
    simp [this]

theorem do_low (o : Word) (k : Nat) (hk : k = 0 ∨ k = 1) : fieldGet (o &&& 0x1C#32) k 1 = 0 := by
  apply Nat.eq_of_testBit_eq
  intro i
  rw [testBit_fieldGet, BitVec.getLsbD_and]
  by_cases hi : i = 0
  · subst hi; rcases hk with h | h <;> subst h <;> simp
  · have : ¬ i < 1 := by omega
    simp [this]

theorem dom_phase (s : State) (g : FieldRow) : s.phaseOk CLK.DOMAIN_CTRL.off g = if 2 ≤ g.lo then
    s.phase == phLOAD || s.phase == phCONFIGURE || s.phase == phRELEASED || s.phase == phFAULT else s.phase == phLOAD || s.phase == phCONFIGURE || s.phase == phRELEASED := rfl

theorem live_dom {s : State} (hs : s.living = true) : ∀ g ∈ doR.fields, s.phaseOk CLK.DOMAIN_CTRL.off g = true := by
  intro g _
  rw [dom_phase]
  rcases living_cases hs with h | h | h <;> rw [h] <;> split <;> rfl

theorem do_bit (o : Word) (k j : Nat) (hk : k < 2) (hj : j = 2 ∨ j = 3 ∨ j = 4) :
    fieldGet (doR.fieldBits (o &&& 0x1C#32 ||| BitVec.ofNat 32 (2 ^ k))) j 1 = fieldGet o j 1 := by
  have hm : (⟨j, 1, .rw, 0⟩ : FieldRow) ∈ doR.fields := by rcases hj with h | h | h <;> subst h <;> decide
  rw [fieldGet_fieldBits (r := doR) _ hm (by decide), ← do_rw]
  exact fieldGet_rwOr (r := doR) o (k := k) (by omega) (by rcases (show k = 0 ∨ k = 1 by omega) with h | h <;> subst h <;> decide) hm rfl

theorem do_set (o : Word) (k : Nat) (hk : k < 2) : fieldGet (doR.fieldBits (o &&& 0x1C#32 ||| BitVec.ofNat 32 (2 ^ k))) k 1 = 1 := by
  have hm : (⟨k, 1, .w1s, 0⟩ : FieldRow) ∈ doR.fields := by rcases (show k = 0 ∨ k = 1 by omega) with h | h <;> subst h <;> decide
  rw [fieldGet_fieldBits (r := doR) _ hm (by decide)]
  exact fieldGet_bitOr _ (by omega)

theorem do_clr (o : Word) (k j : Nat) (hk : k < 2) (hj : j < 2) (hjk : j ≠ k) :
    fieldGet (doR.fieldBits (o &&& 0x1C#32 ||| BitVec.ofNat 32 (2 ^ k))) j 1 = 0 := by
  have hm : (⟨j, 1, .w1s, 0⟩ : FieldRow) ∈ doR.fields := by rcases (show j = 0 ∨ j = 1 by omega) with h | h <;> subst h <;> decide
  rw [fieldGet_fieldBits (r := doR) _ hm (by decide)]
  apply Nat.eq_of_testBit_eq
  intro i
  rw [testBit_fieldGet, BitVec.getLsbD_or, BitVec.getLsbD_and, getLsbD_bit _ _ (by omega)]
  by_cases hi : i = 0
  · subst hi
    rcases (show j = 0 ∧ k = 1 ∨ j = 1 ∧ k = 0 by omega) with ⟨h, h'⟩ | ⟨h, h'⟩ <;> subst h h' <;> simp
  · have : ¬ i < 1 := by omega
    simp [this]

theorem dom_chk (s : State) (d : Nat) (old v : Word) {a b g2 g3 g4 o2 o3 o4 : Nat} (h0 : fieldGet v 0 1 = a) (h1 : fieldGet v 1 1 = b)
    (h2 : fieldGet v 2 1 = g2) (h3 : fieldGet v 3 1 = g3) (h4 : fieldGet v 4 1 = g4)
    (k2 : fieldGet old 2 1 = o2) (k3 : fieldGet old 3 1 = o3) (k4 : fieldGet old 4 1 = o4) :
    hDomainCtrl.chk s d old v = (let stop := a = 1
      let start := b = 1
      let any := (g2 == 1 && o2 == 0) || (g3 == 1 && o3 == 0) || (g4 == 1 && o4 == 0) || (g2 == 0 && o2 == 1) || (g3 == 0 && o3 == 1) || (g4 == 0 && o4 == 1)
      (stop && start) || (stop && (s.dom d != domRUNNING || !stoppable d || !s.stopOk d)) ||
      (start && (s.dom d != domOFF || !stoppable d)) || (any && !isolable d) ||
      (((g3 == 1 && o3 == 0) || (g4 == 1 && o4 == 0)) && o2 == 0) ||
      ((g2 == 0 && o2 == 1) && (o3 == 1 || o4 == 1)) || ((g3 == 1 && o3 == 0) && !s.resetOk d)) := by
  subst h0 h1 h2 h3 h4 k2 k3 k4
  rfl

theorem dom_act (s : State) (d : Nat) (v : Word) {g2 g3 g4 : Nat} (h0 : fieldGet v 0 1 = 0) (h1 : fieldGet v 1 1 = 0)
    (h2 : fieldGet v 2 1 = g2) (h3 : fieldGet v 3 1 = g3) (h4 : fieldGet v 4 1 = g4) (st : Nat) (hst : s.dom d = st) :
    hDomainCtrl.act s d v = (let s1 :=
          if st = domOFF then s
          else if g3 = 1 then s.setDom d domIN_RESET
          else if st = domIN_RESET then s.setDom d domSTARTING
          else if g2 = 1 ∧ (st = domRUNNING ∨ st = domGATED) then s.setDom d domISOLATED
          else if ¬ g2 = 1 ∧ st = domISOLATED then s.setDom d domRUNNING
          else s
        if (g3 = 1 ∨ g4 = 1) ∧ s.xingBusy d then
          ((((s1.setReg CLK.XING_DIRTY.off (s1.reg CLK.XING_DIRTY.off ||| BitVec.ofNat 32 (2 ^ d))).put
            CLK.XING_STATUS.IN_EMPTY 1 d).put CLK.XING_STATUS.OUT_EMPTY 1 d).fault clsUNIT d 0).event (some [0]) 0x40
            (6 + d * 2 ^ 8)
        else s1) := by
  subst h2 h3 h4 hst
  unfold hDomainCtrl
  dsimp only
  rw [if_neg (by rw [h0]; decide), if_neg (by rw [h1]; decide)]

theorem bool_bit (o : Word) (k : Nat) : fieldGet o k 1 = 0 ∨ fieldGet o k 1 = 1 := by
  have : fieldGet o k 1 < 2 := fieldGet_lt _ _ _
  omega

theorem do_fieldBits (w : Word) (j : Nat) (hj : j < 5) : fieldGet (doR.fieldBits w) j 1 = fieldGet w j 1 := by
  rcases (show j = 0 ∨ j = 1 ∨ j = 2 ∨ j = 3 ∨ j = 4 by omega) with h | h | h | h | h <;> subst h
  · exact fieldGet_fieldBits (r := doR) (f := ⟨0, 1, .w1s, 0⟩) w (by decide) (by decide)
  · exact fieldGet_fieldBits (r := doR) (f := ⟨1, 1, .w1s, 0⟩) w (by decide) (by decide)
  · exact fieldGet_fieldBits (r := doR) (f := ⟨2, 1, .rw, 0⟩) w (by decide) (by decide)
  · exact fieldGet_fieldBits (r := doR) (f := ⟨3, 1, .rw, 0⟩) w (by decide) (by decide)
  · exact fieldGet_fieldBits (r := doR) (f := ⟨4, 1, .rw, 0⟩) w (by decide) (by decide)

/-- The bits of a word that puts one RW bit. -/
theorem do_put (o : Word) (k b j : Nat) (hk : k = 2 ∨ k = 3 ∨ k = 4) (hb : b < 2) (hj : j < 5) :
    fieldGet (fieldPut (o &&& 0x1C#32) k 1 b) j 1 = if j = k then b else if j < 2 then 0 else fieldGet o j 1 := by
  by_cases h : j = k
  · subst h; rw [if_pos rfl, fieldGet_fieldPut_same _ _ _ _ (by omega)]; exact Nat.mod_eq_of_lt hb
  · rw [if_neg h, fieldGet_fieldPut_other _ _ _ _ _ _ (by omega) (by omega)]
    split
    · exact do_low _ _ (by omega)
    · exact do_kept _ _ (by omega)

theorem do_store (o : Word) (k b : Nat) (hk : k = 2 ∨ k = 3 ∨ k = 4) (hb : b < 2) : doR.store o (fieldPut (o &&& 0x1C#32) k 1 b) = fieldPut o k 1 b := by
  have e : doR.store o (fieldPut (o &&& 0x1C#32) k 1 b) = fieldPut (fieldPut (fieldPut o 2 1 (fieldGet (fieldPut (o &&& 0x1C#32) k 1 b) 2 1)) 3 1
      (fieldGet (fieldPut (o &&& 0x1C#32) k 1 b) 3 1)) 4 1 (fieldGet (fieldPut (o &&& 0x1C#32) k 1 b) 4 1) := rfl
  rw [e, do_put _ _ _ _ hk hb (by decide), do_put _ _ _ _ hk hb (by decide), do_put _ _ _ _ hk hb (by decide)]
  rcases hk with h | h | h <;> subst h
  · have h3 : fieldGet o 3 1 = fieldGet (fieldPut o 2 1 b) 3 1 := (fieldGet_fieldPut_other _ _ _ _ _ _ (by decide) (by decide)).symm
    have h4 : fieldGet o 4 1 = fieldGet (fieldPut o 2 1 b) 4 1 := (fieldGet_fieldPut_other _ _ _ _ _ _ (by decide) (by decide)).symm
    rw [if_pos rfl, if_neg (by decide), if_neg (by decide), h3, fieldPut_fieldGet _ _ _ (by decide), if_neg (by decide), if_neg (by decide), h4, fieldPut_fieldGet _ _ _ (by decide)]
  · have h4 : fieldGet o 4 1 = fieldGet (fieldPut o 3 1 b) 4 1 := (fieldGet_fieldPut_other _ _ _ _ _ _ (by decide) (by decide)).symm
    rw [if_neg (by decide), if_neg (by decide), fieldPut_fieldGet _ _ _ (by decide), if_pos rfl, if_neg (by decide), if_neg (by decide), h4, fieldPut_fieldGet _ _ _ (by decide)]
  · rw [if_neg (by decide), if_neg (by decide), fieldPut_fieldGet _ _ _ (by decide), if_neg (by decide), if_neg (by decide), fieldPut_fieldGet _ _ _ (by decide), if_pos rfl]

theorem dom_fault {s : State} (hs : s.living = true ∨ s.phase = phFAULT) (g : FieldRow) (h : 2 ≤ g.lo) : s.phaseOk CLK.DOMAIN_CTRL.off g = true := by
  rw [dom_phase, if_pos h]
  rcases hs with hs | hs
  · rcases living_cases hs with h | h | h <;> rw [h] <;> rfl
  · rw [hs]; rfl

theorem do_written (o v : Word) (h0 : fieldGet v 0 1 = 0) (h1 : fieldGet v 1 1 = 0) (g : FieldRow) (hg : g ∈ doR.fields) (hw : g.written o v = true) : 2 ≤ g.lo := by
  simp only [List.mem_cons, List.not_mem_nil, or_false] at hg
  rcases hg with h | h | h | h | h <;> subst h
  · unfold FieldRow.written at hw; simp [h0] at hw
  · unfold FieldRow.written at hw; simp [h1] at hw
  · decide
  · decide
  · decide

theorem dom_bar0 {s : State} {d : Nat} {o v w : Word} (cr : spWf regDefault s.regs = true) (hw : s.writable = true) (hs : s.living = true ∨ s.phase = phFAULT)
    (hd : (s.reg CLK.DOMAIN_SELECT.off).toNat = d) (ho : s.reg CLK.DOMAIN_CTRL.off d = o) (h0 : fieldGet v 0 1 = 0) (h1 : fieldGet v 1 1 = 0)
    (hst : doR.store o v = w) :
    (hDomainCtrl.chk s d o (doR.fieldBits v) = false → bar0 hDomainCtrl CLK.DOMAIN_CTRL.off v s =
      s.recorded (hDomainCtrl.act (s.setReg CLK.DOMAIN_CTRL.off w d) d (doR.fieldBits v)) CLK.DOMAIN_CTRL.off d v) ∧
    (hDomainCtrl.chk s d o (doR.fieldBits v) = true → bar0 hDomainCtrl CLK.DOMAIN_CTRL.off v s = s.illegal 0 causeState CLK.DOMAIN_CTRL.off v.toNat) := by
  have hb : s.breakKey CLK.DOMAIN_CTRL.off = s := by unfold State.breakKey; rw [writable_key hw]
  have hr : findReg CLK.DOMAIN_CTRL.off = some doR := by decide
  have hi : s.selInst doR = d := hd
  have hl : ∀ g ∈ doR.fields, s.locked CLK.DOMAIN_CTRL.off g = false := fun _ _ => rfl
  have hp : ∀ g ∈ doR.fields, g.written (s.reg CLK.DOMAIN_CTRL.off d) v = true → s.phaseOk CLK.DOMAIN_CTRL.off g = true := fun g hg hwr =>
    dom_fault hs g (do_written _ v h0 h1 g hg hwr)
  refine ⟨fun hc => ?_, fun hc => ?_⟩
  · have hn := refuses_none_of (h := hDomainCtrl) (off := CLK.DOMAIN_CTRL.off) (val := v) (r := doR) d (writable_strict hw) hl hp rfl (by rw [ho]; exact hc)
    unfold bar0
    simp only [writable_pf0 hw, writable_key hw, hr, hi, hn, Bool.not_true, Bool.false_eq_true, if_false, Option.isSome_none]
    rw [accept_eq (h := hDomainCtrl) rfl (by decide) (by decide), ho, hst]
  · have hn : s.refuses hDomainCtrl doR CLK.DOMAIN_CTRL.off d v = some causeState := by
      unfold State.refuses
      dsimp only
      rw [if_neg, if_neg, if_pos (by rw [ho, hc, Bool.or_true])]
      · simp only [List.any_eq_true, not_exists, not_and, List.mem_filter]
        intro g hg
        rw [hp g hg.1 hg.2]; simp
      · simp only [List.any_eq_true, not_exists, not_and, List.mem_filter]
        intro g hg
        rw [hl g hg.1]; simp
    have hdk : s.dropKey CLK.DOMAIN_CTRL.off = s := rfl
    unfold bar0
    simp only [writable_pf0 hw, hb, hr, hi, hn, hdk, Bool.not_true, Bool.false_eq_true, if_false]

theorem dom_setReg {s : State} (cr : spWf regDefault s.regs = true) (d : Nat) (w : Word) : (s.setReg CLK.DOMAIN_CTRL.off w d).dom d = s.dom d := by
  unfold State.dom State.get
  rw [reg_setReg_other _ cr _ _ _ (by unfold regKey; simp only [CLK.DOMAIN_CTRL.off, CLK.DOMAIN_STATUS.STATE]; omega)]

end Sys2Proof.Laws.Clocks
end

