-- ==== Sys2Proof/Laws/Physical.lean ====
section
/-! SUPPORT. The observation window, thermal trips and telemetry. -/

namespace Sys2Proof.Laws.Physical

open Sys2Proof.Machine

abbrev obR : RegRow := ⟨ERR.OBS_CTRL.off, 1, none, [⟨0, 1, .w1s, 0⟩, ⟨1, 1, .w1s, 0⟩, ⟨2, 1, .w1s, 0⟩]⟩

theorem obs_phase {s : State} (hs : s.living = true ∨ s.phase = phFAULT) : ∀ g ∈ obR.fields, s.phaseOk ERR.OBS_CTRL.off g = true := by
  intro g _
  rcases hs with hs | h
  · rcases living_cases hs with h | h | h <;> (unfold State.phaseOk; rw [h]; rfl)
  · unfold State.phaseOk; rw [h]; rfl

theorem trip_fold (f : Nat → Nat) (hf : ∀ g, f g = 0 ∨ f g = 2 ^ g) : ((((List.range 6).map (· + 1)).map f).foldl (· + ·) 0) = f 1 + f 2 + f 3 + f 4 + f 5 + f 6 := by
  show 0 + f 1 + f 2 + f 3 + f 4 + f 5 + f 6 = _
  omega

theorem tripBits_bit (ts : List Int) (g : Nat) (h1 : 1 ≤ g) (h6 : g ≤ 6) : bits (tripBits ts) g 1 = 1 ↔ tripLevel g ≤ tempAt ts g := by
  unfold tripBits
  rw [trip_fold (fun g => if tripLevel g ≤ tempAt ts g then 2 ^ g else 0) (fun g => by split <;> simp)]
  have key : ∀ b1 b2 b3 b4 b5 b6 : Bool, ∀ g, 1 ≤ g → g ≤ 6 →
      (bits ((if b1 then 2 ^ 1 else 0) + (if b2 then 2 ^ 2 else 0) + (if b3 then 2 ^ 3 else 0) + (if b4 then 2 ^ 4 else 0) + (if b5 then 2 ^ 5 else 0) + (if b6 then 2 ^ 6 else 0)) g 1 = 1 ↔
        (if g = 1 then b1 else if g = 2 then b2 else if g = 3 then b3 else if g = 4 then b4 else if g = 5 then b5 else b6) = true) := by
    intro b1 b2 b3 b4 b5 b6 g h1 h6
    rcases (show g = 1 ∨ g = 2 ∨ g = 3 ∨ g = 4 ∨ g = 5 ∨ g = 6 by omega) with h | h | h | h | h | h <;> subst h <;>
      (revert b1 b2 b3 b4 b5 b6; decide)
  have := key (decide (tripLevel 1 ≤ tempAt ts 1)) (decide (tripLevel 2 ≤ tempAt ts 2)) (decide (tripLevel 3 ≤ tempAt ts 3)) (decide (tripLevel 4 ≤ tempAt ts 4))
    (decide (tripLevel 5 ≤ tempAt ts 5)) (decide (tripLevel 6 ≤ tempAt ts 6)) g h1 h6
  simp only [decide_eq_true_iff] at this
  rw [this]
  rcases (show g = 1 ∨ g = 2 ∨ g = 3 ∨ g = 4 ∨ g = 5 ∨ g = 6 by omega) with h | h | h | h | h | h <;> subst h <;> simp

theorem stop_regs (s : State) (l : List Nat) : ∀ (t : State), RegsBut (fun o => o == CLK.DOMAIN_STATUS.off) s t →
    RegsBut (fun o => o == CLK.DOMAIN_STATUS.off) s (l.foldl (fun s d => (s.setDom d domOFF).put CLK.DOMAIN_STATUS.PLL_LOCKED 0 d) t) := by
  induction l with
  | nil => intro t h; exact h
  | cons a l ih => intro t h; rw [List.foldl_cons]; exact ih _ (((h.put _ _ _ (by decide) (by decide))).put _ _ _ (by decide) (by decide))

theorem off_step (s : State) (h : spWf regDefault s.regs = true) (d : Nat) : spWf regDefault ((s.setDom d domOFF).put CLK.DOMAIN_STATUS.PLL_LOCKED 0 d).regs = true ∧
    ((s.setDom d domOFF).put CLK.DOMAIN_STATUS.PLL_LOCKED 0 d).dom d = domOFF ∧
    (∀ k, k ≠ d → ((s.setDom d domOFF).put CLK.DOMAIN_STATUS.PLL_LOCKED 0 d).dom k = s.dom k) := by
  have w1 : spWf regDefault (s.setDom d domOFF).regs = true := setReg_wf _ h _ _ _
  refine ⟨setReg_wf _ w1 _ _ _, ?_, fun k hk => ?_⟩
  · unfold State.dom
    rw [get_put_fld _ w1 CLK.DOMAIN_STATUS.PLL_LOCKED _ _ CLK.DOMAIN_STATUS.STATE rfl (by decide) (by decide)]
    unfold State.setDom
    rw [get_put_same _ h _ _ _ (by decide)]
    rfl
  · have o1 : ∀ (u : State) (w : spWf regDefault u.regs = true) (f : Fld) (v : Nat), f.off = CLK.DOMAIN_STATUS.off → (u.put f v d).dom k = u.dom k := by
      intro u w f v hf
      unfold State.dom State.put State.get
      rw [hf, reg_setReg_other _ w _ _ _ (by unfold regKey; simp only [CLK.DOMAIN_STATUS.off, CLK.DOMAIN_STATUS.STATE]; omega)]
    rw [o1 _ w1 _ _ rfl]
    exact o1 _ h _ _ rfl

theorem off_all (l : List Nat) : ∀ (s : State), spWf regDefault s.regs = true → ∀ d, d ∈ l ∨ s.dom d = domOFF →
    (l.foldl (fun s d => (s.setDom d domOFF).put CLK.DOMAIN_STATUS.PLL_LOCKED 0 d) s).dom d = domOFF := by
  induction l with
  | nil => intro s _ d h; rcases h with h | h; exact absurd h (by simp); exact h
  | cons a l ih =>
    intro s h d hd
    rw [List.foldl_cons]
    obtain ⟨w, e, k⟩ := off_step s h a
    refine ih _ w d ?_
    by_cases ha : d = a
    · subst ha; exact .inr e
    · rcases hd with hd | hd
      · rcases List.mem_cons.mp hd with x | x
        · exact absurd x ha
        · exact .inl x
      · exact .inr ((k d ha).trans hd)

theorem trip_does (s : State) (h : spWf regDefault s.regs = true) (g : Nat) : (s.thermalTrip g).phase = phFAULT ∧ ∀ d, 11 ≤ d → d ≤ 20 → (s.thermalTrip g).dom d = domOFF := by
  unfold State.thermalTrip
  have w1 : spWf regDefault (s.fault clsFATAL g 0).regs = true := (fault_regs _ _ _ _ (by decide)).wf h
  have ph := enterFault_phase _ w1
  have w2 : spWf regDefault (s.fault clsFATAL g 0).enterFault.regs = true := (keeps_enterFault (keeps_fault (Keeps.refl s) _ _ _)).regs h
  generalize (s.fault clsFATAL g 0).enterFault = u at ph w2
  unfold State.stopClocks
  refine ⟨?_, fun d h1 h2 => off_all _ u w2 d (.inl ?_)⟩
  · have := (stop_regs u ((List.range 10).map (· + 11)) u (.refl u)).get w2 SYS.BRINGUP_PHASE.PHASE 0 (by decide) (by decide)
    exact this.trans ph
  · rw [List.mem_map]
    exact ⟨d - 11, List.mem_range.mpr (by omega), by omega⟩

theorem find_fresh (p : Nat → Bool) (g : Nat) (h8 : g < 8) (h1 : p g = true) (h2 : ∀ k < g, p k = false) : (List.range 8).find? p = some g := by
  rw [List.find?_eq_some_iff_append]
  refine ⟨h1, List.range g, (List.range (8 - g - 1)).map (· + (g + 1)), ?_, ?_⟩
  · have : ∀ g < 8, List.range 8 = List.range g ++ g :: (List.range (8 - g - 1)).map (· + (g + 1)) := by decide
    exact this g h8
  · intro a ha
    have := h2 a (List.mem_range.mp ha)
    simp [this]

theorem telemetry_length (s : State) : s.telemetry.length = 32 := by
  unfold State.telemetry zeros
  dsimp only
  simp only [List.length_append, leBytes_length, List.length_map, List.length_range, List.length_cons, List.length_nil, List.length_replicate]

end Sys2Proof.Laws.Physical
end

