-- ==== Sys2Proof/Laws/Remote.lean ====
section
/-! SUPPORT. Remote access: what the responder does with a packet. -/

namespace Sys2Proof.Laws.Remote

open Sys2Proof.Machine

def qcR : RegRow := ⟨RDMA.QP_CTRL.off, 1, some 0x100030, [⟨0, 3, .wo, 0⟩]⟩

def rcR : RegRow := ⟨RDMA.REGION_CTRL.off, 1, some 0x100070, [⟨0, 1, .w1s, 0⟩, ⟨1, 1, .w1s, 0⟩]⟩

/-- What is done with a packet that a queue pair takes: an unsupported one answered, or discarded in SQD; a supported one placed once its payload
is in the port's buffer. -/
theorem inbound_eq {s : State} {port : Nat} {p : Packet} {q : Nat} {ops : List Nat} {sp : Bool} {k : State → Nat → State}
    (h : s.packetFor port p = (s, some q)) (ht : s.takesPackets q = true) : s.inbound port p ops sp k =
      if s.supported q p ops sp = false then (if s.qpState q = qpSQD then s.noteCe q p else (s.noteCe q p).nakInvalid q p.psn)
      else if ((s.noteCe q p).bufferIn port q p.payload.length).2 = true then k ((s.noteCe q p).bufferIn port q p.payload.length).1 q
      else ((s.noteCe q p).bufferIn port q p.payload.length).1 := by
  unfold State.inbound
  rw [h]
  dsimp only
  rw [if_neg (by simp [ht])]
  simp only [Bool.not_eq_true']

/-- A packet with no payload takes no buffer. -/
theorem bufferIn_empty (s : State) (port q : Nat) : s.bufferIn port q 0 = (s, true) := rfl

theorem qp_qp {s : State} (h : ∀ x ∈ s.rdma.qps, True) (q : Nat) : (s.qp q).qp = q := by
  unfold State.qp
  cases e : s.rdma.qps.find? (·.qp = q) with
  | none => rfl
  | some x => simpa using List.find?_some e

theorem established_hmem (s : State) (q : Nat) : (s.established q).hmem = s.hmem ∧ (s.established q).out = s.out ∧ (s.established q).regs = s.regs ∧ (s.established q).live = s.live := by
  unfold State.established
  dsimp only
  split <;> exact ⟨rfl, rfl, rfl, rfl⟩

theorem memWrite_out (bs : List Byte) : ∀ (t : State) (a : Nat), (t.memWrite a bs).out = t.out ∧ (t.memWrite a bs).live = t.live := by
  induction bs with
  | nil => intro t a; exact ⟨rfl, rfl⟩
  | cons b bs ih => intro t a; exact ih (t.memPut a b) (a + 1)

theorem packetOf_opcode (s : State) (q o n : Nat) : (s.packetOf q o n).opcode = o := rfl

theorem packetOf_psn (s : State) (q o n : Nat) : (s.packetOf q o n).psn = n := rfl

theorem takeWrite_only {u t : State} {p : Packet} {q r a : Nat} (hop : p.opcode = bthOnly) (hin : (u.qp q).inMsgs = []) (hm : p.malformed = false)
    (hl : p.length = p.payload.length) (hl2 : p.length ≤ 2 ^ 30) (hz : u.sizeOk q p.payload.length true = true) (hr : u.hostRegion q p.rkey p.va p.payload.length 0 false = some r)
    (hcn : u.rgCounter r = 0) (ha : a = u.rgBase r + p.va) (ht : t = u.takeWrite q p) :
    ∃ y : Qp, t = (((u.established q).memWrite a p.payload).setQp y).respond q bthAck p.psn 0 := by
  rw [ht]
  unfold State.takeWrite
  dsimp only
  rw [hop, hin]
  rw [if_neg (by simp)]
  rw [if_pos (.inr rfl)]
  dsimp only
  have hb : (!decide (bthOnly = bthFirst ∨ bthOnly = bthOnly)) = false := by decide
  rw [Nat.add_zero, hb, hr]
  dsimp only
  have he : decide (bthOnly = bthLast ∨ bthOnly = bthOnly) = true := by decide
  rw [he, hz, if_neg (by rw [hm, hl]; simp; omega), Nat.zero_add, ← ha]
  rw [if_pos (.inr rfl)]
  let y0 : Qp := { ((u.established q).memWrite a p.payload).qp q with
      rqPsn := add24 (((u.established q).memWrite a p.payload).qp q).rqPsn 1
      inMsgs := []
      cumMsn := add24 (((u.established q).memWrite a p.payload).qp q).cumMsn 1 }
  refine ⟨y0, ?_⟩
  · unfold State.advance
    dsimp only
    rw [if_pos]
    · rfl
    · refine (?_ : _ = u.rgCounter r).trans hcn
      have g : ∀ v : State, v.live = u.live → v.regs = u.regs → v.rgCounter r = u.rgCounter r := by
        intro v h1 h2
        unfold State.rgCounter State.rgPair State.liveReg
        rw [h1]
      obtain ⟨_, _, e3, e4⟩ := established_hmem u q
      refine g _ ?_ ?_
      · exact ((memWrite_out _ _ _).2).trans e4
      · exact (memWrite_regs _ _ _).trans e3

end Sys2Proof.Laws.Remote
end

