-- ==== Sys2Proof/Laws/Rows.lean ====
section
/-! SUPPORT. Descriptor rows: a row of the table is the admission of its descriptor. -/

namespace Sys2Proof.Laws.Rows

open Sys2Proof.Machine

theorem admits_work (s : State) (op) (d) (w a : Work) (e : State) (h : s.Admits op d w e a) : e.work w.id = some a := by
  obtain ⟨h1, h2, h3, h4, h5, h6, h7, h8, h9⟩ := h
  have hp : (w.id = w.id) := rfl
  have hu : ∀ (f : Work → Work), (∀ v, (f v).id = v.id) → (s.updWork w.id f).work w.id = some (f w) := by
    intro f hf
    unfold State.updWork State.work
    unfold State.work at h5
    generalize s.wk.works = l at h5
    induction l with
    | nil => cases h5
    | cons x l ih =>
      rw [List.find?_cons] at h5
      simp only [List.map_cons, List.find?_cons]
      by_cases hx : x.id = w.id
      · simp only [hx, decide_true] at h5
        have hxw : x = w := by simpa using h5
        subst hxw
        simp [hf]
      · simp only [hx, decide_false] at h5
        simp [hx, ih h5]
  rw [h8]
  unfold State.enter
  rw [h5]
  dsimp only
  have := hu (fun w => { w with phase := 1, admitted := s.stroke, stream := opStream w.d.opcode }) (fun _ => rfl)
  split
  · rw [h9]; exact this
  · rw [h9]; exact this

theorem admits_row (s : State) (op) (d) (w a : Work) (e : State) (h : s.Admits op d w e a) (k : State → Nat → State) :
    s.rowAdmit op d k = k s w.id := by
  obtain ⟨h1, h2, h3, h4, h5, h6, h7, h8, h9⟩ := h
  unfold State.rowAdmit
  rw [if_neg (by simp [h1, h2])]
  dsimp only
  rw [show s.findFetched { d with opcode := op, body := padTo 32 d.body } = some w from h3]
  dsimp only
  rw [if_pos ⟨h4, h6⟩]

theorem admits_with (s : State) (op) (d) (w a : Work) (e : State) (h : s.Admits op d w e a) (k : State → Work → State) :
    s.admitWith w.id k = k e a := by
  have hw := admits_work s op d w a e h
  obtain ⟨h1, h2, h3, h4, h5, h6, h7, h8, h9⟩ := h
  have hp : w.phase = 0 := by
    unfold State.mayAdmit at h6
    simp only [Bool.and_eq_true, beq_iff_eq] at h6
    exact h6.1.1.1.1.1.1
  unfold State.admitWith
  rw [h5]
  dsimp only
  rw [if_neg (by simp [hp]), h7, ← h8]
  dsimp only
  rw [hw]

def rowSQ : RegRow := ⟨FN.SQ_CTRL.rel, 1, none, [⟨0, 5, .rw, 6⟩, ⟨8, 3, .rw, 0⟩, ⟨16, 1, .rw, 0⟩]⟩

def rowCQ : RegRow := ⟨FN.CQ_CTRL.rel, 1, none, [⟨0, 5, .rw, 6⟩, ⟨8, 1, .rw, 0⟩, ⟨9, 1, .rw, 0⟩, ⟨16, 11, .rw, 0⟩]⟩

theorem sq_bits (val : Word) : fieldGet (rowSQ.fieldBits val) 0 5 = fieldGet val 0 5 ∧ fieldGet (rowSQ.fieldBits val) 8 3 = fieldGet val 8 3 ∧
    fieldGet (rowSQ.fieldBits val) 16 1 = fieldGet val 16 1 := by
  rw [show rowSQ.fieldBits val = fieldPut (fieldPut (fieldPut 0#32 0 5 (fieldGet val 0 5)) 8 3 (fieldGet val 8 3)) 16 1 (fieldGet val 16 1) from rfl]
  refine ⟨?_, ?_, ?_⟩
  · rw [fieldGet_fieldPut_other _ _ _ _ _ _ (by decide) (by decide), fieldGet_fieldPut_other _ _ _ _ _ _ (by decide) (by decide),
      fieldGet_fieldPut_same _ _ _ _ (by decide)]
    exact Nat.mod_eq_of_lt (fieldGet_lt _ _ _)
  · rw [fieldGet_fieldPut_other _ _ _ _ _ _ (by decide) (by decide), fieldGet_fieldPut_same _ _ _ _ (by decide)]
    exact Nat.mod_eq_of_lt (fieldGet_lt _ _ _)
  · rw [fieldGet_fieldPut_same _ _ _ _ (by decide)]
    exact Nat.mod_eq_of_lt (fieldGet_lt _ _ _)

theorem cq_bits (val : Word) : fieldGet (rowCQ.fieldBits val) 0 5 = fieldGet val 0 5 ∧ fieldGet (rowCQ.fieldBits val) 8 1 = fieldGet val 8 1 ∧
    fieldGet (rowCQ.fieldBits val) 9 1 = fieldGet val 9 1 ∧ fieldGet (rowCQ.fieldBits val) 16 11 = fieldGet val 16 11 := by
  rw [show rowCQ.fieldBits val = fieldPut (fieldPut (fieldPut (fieldPut 0#32 0 5 (fieldGet val 0 5)) 8 1 (fieldGet val 8 1)) 9 1 (fieldGet val 9 1)) 16 11 (fieldGet val 16 11) from rfl]
  refine ⟨?_, ?_, ?_, ?_⟩
  · rw [fieldGet_fieldPut_other _ _ _ _ _ _ (by decide) (by decide), fieldGet_fieldPut_other _ _ _ _ _ _ (by decide) (by decide),
      fieldGet_fieldPut_other _ _ _ _ _ _ (by decide) (by decide), fieldGet_fieldPut_same _ _ _ _ (by decide)]
    exact Nat.mod_eq_of_lt (fieldGet_lt _ _ _)
  · rw [fieldGet_fieldPut_other _ _ _ _ _ _ (by decide) (by decide), fieldGet_fieldPut_other _ _ _ _ _ _ (by decide) (by decide),
      fieldGet_fieldPut_same _ _ _ _ (by decide)]
    exact Nat.mod_eq_of_lt (fieldGet_lt _ _ _)
  · rw [fieldGet_fieldPut_other _ _ _ _ _ _ (by decide) (by decide), fieldGet_fieldPut_same _ _ _ _ (by decide)]
    exact Nat.mod_eq_of_lt (fieldGet_lt _ _ _)
  · rw [fieldGet_fieldPut_same _ _ _ _ (by decide)]
    exact Nat.mod_eq_of_lt (fieldGet_lt _ _ _)

theorem row_exec (c : Instr) (op : Nat) (d : Desc) (h : rowOf c = some (op, d)) :
    ∃ k : State → Nat → State, (∀ s, exec c s = .next (s.rowAdmit op d k)) ∧
      ((op ≠ opDELIVER → op ≠ opXFER → ∀ s w st dt, s.work w.id = some w → w.phase = 0 → s.admitFail w.d = some (st, dt) → k s w.id = (s.enter w.id).latch w.id st dt 0)) := by
  have base (k : State → Work → State) (s : State) (w : Work) (st dt : Nat) (h1 : s.work w.id = some w) (h2 : w.phase = 0) (h3 : s.admitFail w.d = some (st, dt)) :
      s.admitWith w.id k = (s.enter w.id).latch w.id st dt 0 := by
    unfold State.admitWith
    rw [h1]
    dsimp only
    rw [if_neg (by simp [h2]), h3]
  cases c <;> first
    | (simp [rowOf] at h; done)
    | (obtain ⟨rfl, rfl⟩ : _ = op ∧ _ = d := by simpa [rowOf] using h
       refine ⟨_, fun s => rfl, fun n1 n2 s w st dt h1 h2 h3 => ?_⟩
       first
        | exact base _ s w st dt h1 h2 h3
        | exact absurd rfl n1
        | exact absurd rfl n2
        | (show State.admitReshard _ _ = _
           unfold State.admitReshard
           rw [h1]
           dsimp only
           split <;> exact base _ s w st dt h1 h2 h3))

theorem rowAdmit_eq (s : State) (op : Nat) (d : Desc) (k : State → Nat → State) : s.rowAdmit op d k =
    if !s.working || s.phase != phRELEASED then s
    else match s.findFetched (asPosted op d) with
    | some w => if w.d.opcode = op ∧ s.mayAdmit w then k s w.id else s
    | none =>
      if s.draining (asPosted op d).tid ∨ s.tier.quiesce then s
      else if (asPosted op d).malformed 0 ≠ 0 then (s.newWork (asPosted op d)).1.latch s.wk.next stIGNORED ((asPosted op d).malformed 0) 0
      else
        let p := s.newWorkAt (asPosted op d) (s.stroke - 1)
        match p.1.work p.2 with
        | none => p.1
        | some w => if p.1.mayAdmit w then k p.1 p.2 else p.1 := rfl

theorem adm_d {s : State} {op} {d} {w a : Work} {e : State} (h : s.Admits op d w e a) : a.d = w.d ∧ a.id = w.id ∧ w.d.opcode = op ∧ a.phase = 1 := by
  obtain ⟨h1, h2, h3, h4, h5, h6, h7, h8, h9⟩ := h
  rw [h9]; exact ⟨rfl, rfl, h4, rfl⟩

end Sys2Proof.Laws.Rows
end

