-- ==== Sys2Proof/Laws/Shared.lean ====
section
/-! SUPPORT. The shared pool and tandem members. -/

namespace Sys2Proof.Laws.Shared

open Sys2Proof.Machine

/-- One request waits, at the head of its line: a pass answers it, or leaves it waiting as `tryReq` says, and what it writes to a mirror is sent. -/
theorem serveOne (u : State) (q : PReq) (h : u.pool.waiting = [q]) (ht : u.turnOrder = [q])
    (hl : isData q = true ∨ (u.lineHead (lineOf q.dpa)).any (· ≠ q) = false) :
    (∀ v, u.tryReq q = .served v → u.serveWaiting = (v.dropReq q).flushLines) ∧
    (∀ v, u.tryReq q = .given v → u.serveWaiting = ((v.dropReq q).put POOL.DIR_ROT.SLOT ((q.slot + 1) % 65)).flushLines) ∧
    (∀ v, u.tryReq q = .balance v → u.serveWaiting = v.flushLines) ∧
    (∀ v hard x, u.tryReq q = .line v hard x →
      u.serveWaiting = (v.swapReq q { q with severe := q.severe || hard, victim := x, lined := true }).flushLines) := by
  have e : u.serveWaiting = (Pass.take ⟨u, [], [], false⟩ q).s.flushLines := by
    unfold State.serveWaiting
    rw [h]
    show (u.servePasses false 1).flushLines = _
    unfold State.servePasses
    rw [ht, List.foldl_cons, List.foldl_nil]
    dsimp only
    split <;> rfl
  have k : ¬ (isData q = false ∧ (u.lineHead (lineOf q.dpa)).any (· ≠ q) = true) := fun x => by
    rcases hl with a | a
    · rw [a] at x; exact nomatch x.1
    · rw [a] at x; exact nomatch x.2
  have f (r : Try) (hr : u.tryReq q = r) : Pass.take ⟨u, [], [], false⟩ q = (match r with
      | .served s1 => ⟨s1.dropReq q, [], [], false⟩
      | .given s1 => ⟨(s1.dropReq q).put POOL.DIR_ROT.SLOT ((q.slot + 1) % 65), [], [], true⟩
      | .balance s1 => ⟨s1, [q.slot], [lineOf q.dpa], false⟩
      | .line s1 hard v => ⟨s1.swapReq q { q with severe := q.severe || hard, victim := v, lined := true }, [], [lineOf q.dpa], false⟩) := by
    unfold Pass.take
    simp only [List.contains_nil, Bool.false_eq_true, if_false, and_false, Bool.not_eq_true, Bool.not_eq_true', hr]
    rw [if_neg k]
    cases r <;> rfl
  rw [e]
  exact ⟨fun v hv => by rw [f _ hv], fun v hv => by rw [f _ hv], fun v hv => by rw [f _ hv], fun v hard x hv => by rw [f _ hv]⟩

theorem filter_ne_self (g h : Nat) (n : g ≠ h) : [g].filter (· ≠ h) = [g] := by simp [n]

def prR : RegRow := ⟨POOL.REGION_CTRL.off, 1, some 0x110020, [⟨0, 1, .w1s, 0⟩, ⟨1, 1, .w1s, 0⟩, ⟨2, 1, .w1s, 0⟩]⟩

theorem pr_bits : prR.fieldBits 1#32 = 1#32 ∧ prR.fieldBits 2#32 = 2#32 ∧ prR.fieldBits 4#32 = 4#32 := by decide

theorem setPool_regs (s : State) (f : PoolSt → PoolSt) : (s.setPool f).regs = s.regs := rfl

theorem accessOf_zero {v : State} {r slot : Nat} (h1 : v.listed r slot ≠ 0 → (slot, r) ∈ v.pool.gone)
    (h2 : ∀ x ∈ v.pool.releasing, ¬ (x.1 = slot ∧ x.2.1 = r)) : v.accessOf r slot = 0 := by
  unfold State.accessOf
  split
  · rfl
  · rename_i hg
    split
    · rename_i h0
      exact absurd (List.contains_iff_mem.mpr (h1 h0)) hg
    · rw [List.find?_eq_none.mpr]
      · rfl
      · intro x hx q
        exact h2 x hx (of_decide_eq_true q)

def hcR : RegRow := ⟨POOL.HOST_CTRL.off, 1, some 0x110010, [⟨0, 12, .rw, 0⟩, ⟨31, 1, .rw, 0⟩]⟩

theorem hc31 {val : Word} : fieldGet (hcR.fieldBits val) 31 1 = fieldGet val 31 1 := fieldGet_fieldBits (r := hcR) val (f := ⟨31, 1, .rw, 0⟩) (by decide) (by decide)

theorem hc0 {val : Word} : fieldGet (hcR.fieldBits val) 0 12 = fieldGet val 0 12 := fieldGet_fieldBits (r := hcR) val (f := ⟨0, 12, .rw, 0⟩) (by decide) (by decide)

def tcR : RegRow := ⟨POOL.TANDEM_CTRL.off, 1, none, [⟨0, 1, .w1s, 0⟩]⟩

def tkR : RegRow := ⟨POOL.TAKEOVER_KV.off, 1, none, [⟨0, 10, .rw, 0⟩, ⟨10, 5, .rw, 0⟩, ⟨16, 10, .rw, 0⟩, ⟨31, 1, .w1s, 0⟩]⟩

theorem foldl_put_resync (ts : List Nat) (f : State → Nat → State) (hf : ∀ s t, (f s t).pool.resync = s.pool.resync) :
    ∀ s : State, (ts.foldl f s).pool.resync = s.pool.resync := by
  induction ts with
  | nil => intro s; rfl
  | cons a l ih => intro s; rw [List.foldl_cons, ih, hf]

theorem foldl_mirror (l : List MirWait) : ∀ s : State, (l.foldl State.completeMirror s).pool = s.pool := by
  induction l with
  | nil => intro s; rfl
  | cons a l ih =>
    intro s
    rw [List.foldl_cons, ih]
    unfold State.completeMirror State.answerHost
    split
    · dsimp only
      split <;> rfl
    · rfl

end Sys2Proof.Laws.Shared
end

