-- ==== Sys2Proof/Laws/Slots.lean ====
section
/-! SUPPORT. Image loads and Gear slots. -/

namespace Sys2Proof.Laws.Slots

open Sys2Proof.Machine

theorem setLast_regs (s : State) (p l : Nat) : (s.setLast p l).regs = s.regs := by unfold State.setLast; split <;> rfl

theorem setLast_get (s : State) (p l : Nat) (f : Fld) (i : Nat) : (s.setLast p l).get f i = s.get f i := by unfold State.setLast; split <;> rfl

theorem endLoad_state (s : State) (hw : spWf regDefault s.regs = true) (c : Nat) (h0 : c ≠ 0) (h1 : c < 2 ^ IMG.LOAD_STATE.REJECT_CAUSE.w) : (s.endLoad c).load = ldREJECTED ∧ (s.endLoad c).get IMG.LOAD_STATE.REJECT_CAUSE = c := by
  let a := s.put IMG.LOAD_STATE.STATE (if c = 0 then ldDONE else ldREJECTED)
  have wa : spWf regDefault a.regs = true := setReg_wf _ hw _ _ _
  let b := a.put IMG.LOAD_STATE.REJECT_CAUSE c
  have wb : spWf regDefault b.regs = true := setReg_wf _ wa _ _ _
  have key (x : Fld) (hx : x.off = IMG.LOAD_STATE.STATE.off) : (s.endLoad c).get x = b.get x := by
    unfold State.endLoad
    have ha (t : State) (ht : t.regs = b.regs) (e1 e2 e3 e4 e5 : Nat) (e6 : List Byte) (e7 e8) : (t.audit e1 e2 e3 e4 e5 e8 e6 e7).get x = b.get x := by
      rw [(audit_regs _ _ _ _ _ _ _ _ _).get (ht ▸ wb) _ _ (by rw [hx]; decide) (by rw [hx]; decide)]
      unfold State.get
      rw [reg_of_regs ht]
    rw [show (s.put IMG.LOAD_STATE.STATE (if c = 0 then ldDONE else ldREJECTED)).put IMG.LOAD_STATE.REJECT_CAUSE c = b from rfl]
    clear_value b
    dsimp only
    apply ha
    split <;> rfl
  constructor
  · unfold State.load
    rw [key _ rfl, get_put_fld a wa IMG.LOAD_STATE.REJECT_CAUSE _ _ IMG.LOAD_STATE.STATE rfl (by decide) (by decide), get_put_same s hw _ _ _ (by decide), if_neg h0]
    rfl
  · rw [key IMG.LOAD_STATE.REJECT_CAUSE rfl, get_put_same a wa _ _ _ (by decide)]
    exact Nat.mod_eq_of_lt h1

def ne_slot (o : Nat) : Bool := o != IMG.SLOT_STATE.off

theorem rb_same_regs {P : Nat → Bool} {s t u : State} (h : RegsBut P s t) (e : u.regs = t.regs) : RegsBut P s u := h.same e

theorem updPage_regs (s : State) (pid : Nat) (f : Page → Page) : (s.updPage pid f).regs = s.regs := rfl

theorem gcPage_regs (s : State) (pid : Nat) : (s.gcPage pid).regs = s.regs := by
  unfold State.gcPage
  split <;> first | rfl | (split <;> rfl)

theorem endDemotion_regs (s : State) (pid : Nat) : (s.endDemotion pid).regs = s.regs := by
  unfold State.endDemotion
  split <;> first | rfl | (split <;> first | rfl | (dsimp only; split <;> rfl))

theorem unhold_regs (s : State) (pid : Nat) : (s.unhold pid).regs = s.regs := by
  unfold State.unhold
  rw [endDemotion_regs, gcPage_regs, updPage_regs]

theorem faultAnswer_regs (s : State) (c : HookCall) : (s.faultAnswer c).regs = s.regs := by
  have dr : ∀ (s : State) (id : Nat) (r : Run), (s.dropRun id r).regs = s.regs := by
    intro s id r
    unfold State.dropRun
    generalize r.refs = l
    have : ∀ (l : List Nat) (t : State), (l.foldl State.unhold t).regs = t.regs := by
      intro l
      induction l with
      | nil => intro t; rfl
      | cons a l ih =>
        intro t
        rw [List.foldl_cons, ih, unhold_regs]
    rw [this]; rfl
  have fd : ∀ (l : List Run) (id : Nat) (u : State), (l.foldl (fun s r => (s.dropCalls id r.idx).dropRun id r) u).regs = u.regs := by
    intro l id
    induction l with
    | nil => intro u; rfl
    | cons r l ih => intro u; rw [List.foldl_cons, ih, dr]; rfl
  unfold State.faultAnswer
  split
  · rfl
  · split
    · rfl
    · split
      · rfl
      · split
        · split
          · exact fd ..
          · rfl
        · exact dr ..

theorem audit_ne (o : Nat) (h : auditRegs o = true) : ne_slot o = true := by
  unfold auditRegs at h
  unfold ne_slot
  simp only [Bool.or_eq_true, beq_iff_eq] at h
  rcases h with (h | h) | h <;> subst h <;> decide

theorem err_ne (o : Nat) (h : errRegs o = true) : ne_slot o = true := by
  unfold errRegs at h
  unfold ne_slot
  rw [beq_iff_eq] at h
  simp only [bne_iff_ne, ne_eq]
  intro e
  rw [e] at h
  exact absurd h (by decide)

theorem failSlot_regs (s : State) (n cause : Nat) : RegsBut ne_slot (s.setSlotState n 6) (s.failSlot n cause) := by
  unfold State.failSlot
  dsimp only
  have h0 : RegsBut ne_slot (s.setSlotState n 6) ((s.setSlotState n 6).zeroBlocks n) := (RegsBut.refl _).same rfl
  have h1 := ((h0.put GEAR.SLOT_FAULT.CAUSE cause n (by decide) (by decide)).trans
    ((audit_regs _ actorCard 9 (n + cause * 2 ^ 8) 0 0 0 [] 0).mono audit_ne)).trans ((fault_regs _ clsRESOURCE n 0 (by decide)).mono err_ne)
  have fin : ∀ (l : List HookCall) (u : State), RegsBut ne_slot (s.setSlotState n 6) u →
      RegsBut ne_slot (s.setSlotState n 6) (l.foldl (fun s c => s.faultAnswer c) u) := fun l u h =>
    RegsBut.foldl h l fun t c h => h.same (faultAnswer_regs t c)
  apply fin
  exact h1.same rfl

theorem slotFails_regs (s : State) (n cause : Nat) : RegsBut ne_slot (s.setSlotState n 6) (s.slotFails n cause) := by
  unfold State.slotFails
  dsimp only
  refine .ite ?_ (.ite ((failSlot_regs s n cause).same rfl) (failSlot_regs s n cause))
  unfold State.endLoad
  dsimp only
  refine RegsBut.trans ?_ ((audit_regs _ _ _ _ _ _ _ _ _).mono audit_ne)
  have h2 := fun x y => (((failSlot_regs s n cause).same (u := { s.failSlot n cause with img := { (s.failSlot n cause).img with loadSlot := none, slotNext := kvDel (s.failSlot n cause).img.slotNext n } }) rfl).put IMG.LOAD_STATE.STATE x 0 (by decide) (by decide)).put IMG.LOAD_STATE.REJECT_CAUSE y 0 (by decide) (by decide)
  exact .ite ((h2 _ _).same rfl) (h2 _ _)

theorem slotFails_state (s : State) (h : spWf regDefault s.regs = true) (n cause : Nat) (hn : n < 8) :
    (s.slotFails n cause).slotState n = 6 := by
  have a : (s.setSlotState n 6).slotState n = 6 := by
    unfold State.setSlotState State.slotState
    rw [get_put_same s h _ _ _ (by dsimp only; omega)]
    rfl
  have w : spWf regDefault (s.setSlotState n 6).regs = true := setReg_wf _ h _ _ _
  unfold State.slotState at a ⊢
  rw [(slotFails_regs s n cause).get w _ _ (by dsimp only; decide) (by dsimp only; decide), a]

theorem find_window (k : Nat) (hk : k < 256) : findReg (GEAR.SLOT_WINDOW.off + 4 * k) = some ⟨GEAR.SLOT_WINDOW.off, 256, some 0x0E0010, [⟨0, 32, .rw, 0⟩]⟩ := by
  have h : ∀ a < 16, ∀ b < 16, findReg (GEAR.SLOT_WINDOW.off + 4 * (16 * a + b)) = some ⟨GEAR.SLOT_WINDOW.off, 256, some 0x0E0010, [⟨0, 32, .rw, 0⟩]⟩ := by
    decide
  have := h (k / 16) (by omega) (k % 16) (by omega)
  rwa [Nat.div_add_mod] at this

theorem gear_offDomain {s : State} (h : s.get CLK.DOMAIN_STATUS.STATE 20 ≠ 2) {o : Nat} (ho : o / 65536 = 0x0E) : s.offDomain o = false := by
  unfold State.offDomain
  simp only [shift16, ho]
  simp [h]

theorem win_phase {s : State} (hs : s.serving = true) {k : Nat} (hk : k < 256) (f : FieldRow) : s.phaseOk (GEAR.SLOT_WINDOW.off + 4 * k) f = true := by
  unfold State.phaseOk
  dsimp only
  repeat rw [if_neg (by simp only [GEAR.SLOT_WINDOW.off, shift16, SYS.STROKE_PERIOD.off, SYS.STROKE_TARGET_LO.off, SYS.STROKE_TARGET_HI.off, SYS.STROKE_CTRL.off, CLK.DOMAIN_SELECT.off,
    CLK.XING_DIRTY.off, CLK.DOMAIN_CTRL.off, WDOG.HOST_CTRL.off, TIER.QUIESCE_CTRL.off, XLAT.REBUILD_CTRL.off, TIER.LOG_SCAN_CTRL.off,
    XLAT.AREA_CTRL.off, CMPR.CONST_AREA.off, POOL.CARVE_DRAM.off, POOL.CARVE_FLASH.off, POOL.SWAP_CACHE.off, TIER.REGION_ACTION.off,
    SPOKE.PELOTON_ID.off, SPOKE.MEMBER_CTRL.off]; omega)]
  rcases serving_cases hs with h | h <;> rw [h] <;> rfl

theorem win_locked (s : State) {k : Nat} (hk : k < 256) (f : FieldRow) : s.locked (GEAR.SLOT_WINDOW.off + 4 * k) f = false := by
  unfold State.locked
  repeat rw [if_neg (by simp only [GEAR.SLOT_WINDOW.off, ROLE.MAKER_LOCK.off, ROLE.AUDIT_POLICY.off, IMG.POLICY.off, IMG.INSTALLER_KEY.off, IMG.MIN_VERSION_SLOT.off,
    WDOG.POLICY.off, WDOG.HOST_CTRL.off, WDOG.HOST_PERIOD.off, WDOG.HOST_TASKS.off, WDOG.SYS_PERIOD.off, WDOG.GRACE.off, WDOG.CRASH_BASE_LO.off,
    WDOG.CRASH_BASE_HI.off, WDOG.QUIESCE_LIMIT.off, WDOG.HOST_DISABLE.off]; omega)]

theorem fieldPut_all (a b : Word) : fieldPut a 0 32 (fieldGet b 0 32) = b := by
  apply BitVec.eq_of_getLsbD_eq
  intro i hi
  rw [getLsbD_put_get _ _ _ _ _ (by decide)]
  simp [hi]

end Sys2Proof.Laws.Slots
end

