-- ==== Sys2Proof/Laws/Tenant.lean ====
section
/-! SUPPORT. Partitions, tenants and keys. -/

namespace Sys2Proof.Laws.Tenant

open Sys2Proof.Machine

abbrev paR : RegRow := ⟨0x080004, 1, some 0x080000, [⟨0, 1, .w1s, 0⟩, ⟨1, 1, .w1s, 0⟩]⟩

abbrev teR : RegRow := ⟨PART.TENANT_CTRL.off, 1, some 0x080100, [⟨0, 1, .w1s, 0⟩, ⟨1, 1, .w1s, 0⟩, ⟨2, 1, .w1s, 0⟩]⟩

abbrev keR : RegRow := ⟨PART.KEY_CTRL.off, 1, some 0x080100, [⟨0, 1, .w1s, 0⟩, ⟨1, 1, .w1s, 0⟩]⟩

theorem kvFind_kvSet {α : Type} (l : List (Nat × α)) (k : Nat) (v : α) : kvFind (kvSet l k v) k = some v := by
  unfold kvFind kvSet
  induction l with
  | nil => simp [spInsert]
  | cons a l ih =>
    unfold spInsert
    split
    · simp
    · split
      · simp
      · rw [List.find?_cons_of_neg (by simp; omega)]; exact ih

theorem foldl_reg_other (t : Nat) (l : List Nat) : ∀ (s : State) (o i : Nat), spWf regDefault s.regs = true →
    (∀ j ∈ l, j < 16) → o < 0x1000000 → (∀ j ∈ l, PART.KEY_DATA.off + 4 * j ≠ o) →
    (l.foldl (fun s i => s.setReg (PART.KEY_DATA.off + 4 * i) 0#32 t) s).reg o i = s.reg o i ∧
    spWf regDefault (l.foldl (fun s i => s.setReg (PART.KEY_DATA.off + 4 * i) 0#32 t) s).regs = true := by
  induction l with
  | nil => intro s o i h _ _ _; exact ⟨rfl, h⟩
  | cons a l ih =>
    intro s o i h hl ho hne
    rw [List.foldl_cons]
    have w := setReg_wf s h (PART.KEY_DATA.off + 4 * a) 0#32 t
    obtain ⟨e, w2⟩ := ih _ o i w (fun j hj => hl j (List.mem_cons_of_mem _ hj)) ho (fun j hj => hne j (List.mem_cons_of_mem _ hj))
    refine ⟨?_, w2⟩
    rw [e]
    have := hl a (List.mem_cons_self ..)
    have n := hne a (List.mem_cons_self ..)
    exact reg_setReg_other s h _ _ _ (by unfold regKey; simp only [PART.KEY_DATA.off] at *; omega)

theorem zeroed (s : State) (t : Nat) (l : List Nat) : ∀ (s : State), spWf regDefault s.regs = true → (∀ j ∈ l, j < 16) → ∀ j ∈ l,
    (l.foldl (fun s i => s.setReg (PART.KEY_DATA.off + 4 * i) 0#32 t) s).reg (PART.KEY_DATA.off + 4 * j) t = 0#32 := by
  induction l with
  | nil => intro s _ _ j hj; exact absurd hj (by simp)
  | cons a l ih =>
    intro s h hl j hj
    rw [List.foldl_cons]
    have w := setReg_wf s h (PART.KEY_DATA.off + 4 * a) 0#32 t
    by_cases hm : j ∈ l
    · exact ih _ w (fun j hj => hl j (List.mem_cons_of_mem _ hj)) j hm
    · have : j = a := by simpa [hm] using hj
      subst this
      have hj16 := hl j hj
      rw [(foldl_reg_other t l _ _ _ w (fun j hj => hl j (List.mem_cons_of_mem _ hj)) (by simp only [PART.KEY_DATA.off]; omega)
        (fun k hk e => hm (by have : k = j := by omega
                              exact this ▸ hk))).1]
      exact reg_setReg_same s h _ _ _

theorem key_chk (s : State) {t : Nat} (h0 : t ≠ 0) (w v : Word) (hv : fieldGet v 0 2 ≠ 3) : hKeyCtrl.chk s t w v = false := by
  unfold hKeyCtrl
  dsimp only
  simp only [Bool.or_eq_false_iff, Bool.and_eq_false_iff, beq_eq_false_iff_ne]
  exact ⟨.inl h0, hv⟩

theorem key_bit {s : State} {t : Nat} (hc : s.canonical = true) (hw : s.writable = true) (hs : s.serving = true) (ht : (s.reg PART.TENANT_SELECT.off).toNat = t) (h0 : t ≠ 0) :
    exec .keyLoad s = .next (s.recorded (hKeyCtrl.act s t 1#32) PART.KEY_CTRL.off t 1#32) ∧
    exec .keyClear s = .next (s.recorded (hKeyCtrl.act s t 2#32) PART.KEY_CTRL.off t 2#32) :=
  ⟨congrArg Host.Outcome.next (bit_acts (h := hKeyCtrl) (r := keR) (f := PART.KEY_CTRL.LOAD) (i := t) (v := 1#32) ht (by decide) (canonical_regs hc) hw (by decide) (by decide) (fun _ _ => rfl) (by intro f _; rcases serving_cases hs with h | h <;> (unfold State.phaseOk; rw [h]; rfl)) rfl (key_chk s h0 _ _ (by decide)) rfl (by decide) (by decide)),
   congrArg Host.Outcome.next (bit_acts (h := hKeyCtrl) (r := keR) (f := PART.KEY_CTRL.CLEAR) (i := t) (v := 2#32) ht (by decide) (canonical_regs hc) hw (by decide) (by decide) (fun _ _ => rfl) (by intro f _; rcases serving_cases hs with h | h <;> (unfold State.phaseOk; rw [h]; rfl)) rfl (key_chk s h0 _ _ (by decide)) rfl (by decide) (by decide))⟩

theorem key_clear {s : State} {t : Nat} (cr : spWf regDefault s.regs = true) (h : s.keyNeeded t = false) :
    ∃ u : State, hKeyCtrl.act s t 2#32 = u ∧ u.part = { s.part with keys := kvDel s.part.keys t } ∧ u.get PART.KEY_STATUS.LOADED t = 0 ∧ u.reg PART.KEY_KCV.off t = 0#32 := by
  have act : hKeyCtrl.act s t 2#32 = ((({ s with part := { s.part with keys := kvDel s.part.keys t } } : State).put PART.KEY_STATUS.REFUSE_CAUSE 0 t).put PART.KEY_STATUS.LOADED 0 t).setReg PART.KEY_KCV.off 0#32 t := by
    unfold hKeyCtrl
    dsimp only
    rw [if_neg (by decide), if_pos (by decide), if_neg (by simp [h])]
  refine ⟨_, act, ?_⟩
  generalize hz : ({ s with part := { s.part with keys := kvDel s.part.keys t } } : State) = z2
  have w2 : spWf regDefault z2.regs = true := by subst hz; exact cr
  have w3 : spWf regDefault (z2.put PART.KEY_STATUS.REFUSE_CAUSE 0 t).regs = true := setReg_wf _ w2 _ _ _
  have hp : z2.part = { s.part with keys := kvDel s.part.keys t } := by subst hz; rfl
  have w4 : spWf regDefault ((z2.put PART.KEY_STATUS.REFUSE_CAUSE 0 t).put PART.KEY_STATUS.LOADED 0 t).regs = true := setReg_wf _ w3 _ _ _
  refine ⟨by simp [hp], ?_, reg_setReg_same _ w4 _ _ _⟩
  unfold State.get
  rw [reg_setReg_other _ w4 _ _ _ (by unfold regKey; simp only [PART.KEY_KCV.off, PART.KEY_STATUS.LOADED]; omega)]
  exact (get_put_same _ w3 _ _ _ (by decide)).trans rfl

theorem key_load {s : State} {t cause : Nat} {k : List Byte} (cr : spWf regDefault s.regs = true) (hk : k = s.keyData t) (hf : s.loadFail t = cause) :
    ∃ z : State, hKeyCtrl.act s t 1#32 = (if cause ≠ 0 then z.put PART.KEY_STATUS.REFUSE_CAUSE cause t else
          ({ z.put PART.KEY_STATUS.REFUSE_CAUSE cause t with part := { (z.put PART.KEY_STATUS.REFUSE_CAUSE cause t).part with keys := kvSet (z.put PART.KEY_STATUS.REFUSE_CAUSE cause t).part.keys t k } }.put PART.KEY_STATUS.LOADED 1 t).setReg PART.KEY_KCV.off
            (BitVec.ofNat 32 (kcv k)) t) ∧ z.part = s.part ∧ (∀ i < 16, z.reg (PART.KEY_DATA.off + 4 * i) t = 0#32) ∧ spWf regDefault z.regs = true := by
  refine ⟨s.zeroKeyData t, ?_, ?_, ?_, ?_⟩
  · unfold hKeyCtrl
    dsimp only
    rw [if_pos (by decide), hf, hk]
  · unfold State.zeroKeyData
    have : ∀ (l : List Nat) (u : State), (l.foldl (fun s i => s.setReg (PART.KEY_DATA.off + 4 * i) 0#32 t) u).part = u.part := by
      intro l
      induction l with
      | nil => intro u; rfl
      | cons a l ih => intro u; rw [List.foldl_cons, ih]; simp
    exact this _ s
  · intro i hi
    unfold State.zeroKeyData
    exact zeroed s t _ s cr (fun j hj => List.mem_range.mp hj) i (List.mem_range.mpr hi)
  · unfold State.zeroKeyData
    exact (foldl_reg_other t (List.range 16) s 0 0 cr (fun j hj => List.mem_range.mp hj) (by decide) (fun j hj => by simp only [PART.KEY_DATA.off]; omega)).2

end Sys2Proof.Laws.Tenant
end

