-- ==== Sys2Proof/Laws/Whole.lean ====
section
/-! SUPPORT. Laws of the whole machine: what a step keeps, and what a reset leaves. -/

namespace Sys2Proof.Laws.Whole

open Sys2Proof.Machine

theorem loose_inv {s t : State} (h : s.Inv) (k : Loose s t) : t.Inv := by
  obtain ⟨hc, hs⟩ := h
  refine ⟨?_, k.stroke hs⟩
  simp only [State.canonical, Bool.and_eq_true, Memory.wf] at hc ⊢
  exact ⟨⟨⟨⟨k.regs hc.1.1.1.1, k.live hc.1.1.1.2⟩, k.paths hc.1.1.2⟩, k.hmem hc.1.2⟩, k.msix hc.2⟩

theorem step_cases {s t : State} (h : step s = .next t) : ∃ u : State, u.stroke = s.stroke ∧ u.canonical = s.canonical ∧ u.out = s.out ∧ u.free = s.free ∧ Loose u t := by
  unfold step at h
  split at h
  · cases h
    exact ⟨s, rfl, rfl, rfl, rfl, loose_tick (Keeps.refl s)⟩
  · rename_i c rest _
    obtain ⟨t', e, k⟩ := loose_exec (Keeps.refl { s with pending := rest }) c
    rw [e] at h
    cases h
    exact ⟨{ s with pending := rest }, rfl, rfl, rfl, rfl, k⟩

theorem intoReset_wiped (s : State) (h : s.pw.held = false) (n : Nat) : s.WipedTo (s.intoReset n) ∧ (s.intoReset n).pw.causes = n := by
  unfold State.intoReset
  rw [if_neg (by simp [h])]
  exact ⟨⟨rfl, rfl, rfl, rfl, rfl, rfl, rfl, rfl, rfl, rfl, rfl, rfl, rfl, rfl, rfl, rfl, rfl, rfl, rfl⟩, rfl⟩

theorem rotate_none (s : State) (unit : UnitKind) : ∀ l : List Nat, (∀ p ∈ l, s.turnOf unit p = (s, false)) → s.rotate unit l = s := by
  intro l
  induction l with
  | nil => intro _; rfl
  | cons p l ih =>
    intro h
    unfold State.rotate
    rw [h p (List.mem_cons_self ..)]
    simpa using ih fun q hq => h q (List.mem_cons_of_mem _ hq)

end Sys2Proof.Laws.Whole
end

