-- ==== Sys2Proof/Laws/Watchdog.lean ====
section
/-! SUPPORT. Watchdogs: the registers that switch them, and what an expiry and the end of grace leave. -/

namespace Sys2Proof.Laws.Watchdog

open Sys2Proof.Machine Sys2Proof.Laws.Whole

abbrev ciR : RegRow := ⟨WDOG.HOST_CHECKIN.off, 1, none, [⟨0, 3, .wo, 0⟩, ⟨8, 8, .wo, 0⟩]⟩

abbrev diR : RegRow := ⟨WDOG.HOST_DISABLE.off, 1, none, [⟨0, 16, .wo, 0⟩]⟩

abbrev wcR : RegRow := ⟨WDOG.HOST_CTRL.off, 1, none, [⟨0, 1, .w1s, 0⟩, ⟨1, 1, .rw, 0⟩, ⟨2, 1, .rw, 0⟩]⟩

theorem win_iff (p c : Nat) : wdInWindow p c = true ↔ p - max 1 (p / 2 ^ Config.windowLog2) ≤ c ∧ c < p := by
  unfold wdInWindow wdWindow
  simp

theorem dis_lock (s : State) (g : FieldRow) : s.locked WDOG.HOST_DISABLE.off g = s.flag WDOG.POLICY.LOCK := rfl

theorem dis_bar0 {s : State} {key : Word} (cr : spWf regDefault s.regs = true) (hp : s.pf0 = true) (hst : s.flag ROLE.AUDIT_POLICY.STRICT = false)
    {gone : State} (hg : gone = { s with wd := { s.wd with key1 := none } }) (c : Option Nat) (hc : s.refuses hHostDisable diR WDOG.HOST_DISABLE.off 0 key = c) :
    bar0 hHostDisable WDOG.HOST_DISABLE.off key s = match c with
      | some c => gone.illegal 0 c WDOG.HOST_DISABLE.off key.toNat
      | none => s.recorded (hHostDisable.act s 0 (diR.fieldBits key)) WDOG.HOST_DISABLE.off 0 key := by
  have hb : s.breakKey WDOG.HOST_DISABLE.off = s := by unfold State.breakKey; split <;> rfl
  have hk : s.dropKey WDOG.HOST_DISABLE.off = gone := by rw [hg]; rfl
  have hr : findReg WDOG.HOST_DISABLE.off = some diR := by decide
  have hi : s.selInst diR = 0 := rfl
  unfold bar0
  simp only [hp, hb, hr, hi, hc, hk, Bool.not_true, Bool.false_eq_true, if_false]
  cases c with
  | some c => rfl
  | none =>
    have hb (u : State) : u.breakKey WDOG.HOST_DISABLE.off = u := by unfold State.breakKey; split <;> rfl
    simp only [hb, ite_self]
    rw [accept_eq (h := hHostDisable) rfl (by decide) (by decide), store_pulses (by decide), setReg_self s cr]

theorem wc_rw (o : Word) : wcR.rwBits o = o &&& 6#32 := by
  apply BitVec.eq_of_getLsbD_eq
  intro i hi
  rw [getLsbD_rwBits _ _ (by decide), BitVec.getLsbD_and]
  rcases (show i = 0 ∨ i = 1 ∨ i = 2 ∨ 3 ≤ i by omega) with h | h | h | h
  · subst h; simp [FieldRow.keepsBits, FieldRow.has]
  · subst h; simp [FieldRow.keepsBits, FieldRow.has]
  · subst h; simp [FieldRow.keepsBits, FieldRow.has]
  · have : (6#32).getLsbD i = false := by
      rw [BitVec.getLsbD_ofNat]
      have : Nat.testBit 6 i = false := Nat.testBit_lt_two_pow (Nat.lt_of_lt_of_le (by decide : 6 < 2 ^ 3) (Nat.pow_le_pow_right (by decide) h))
      simp [this]
    rw [this, Bool.and_false]
    have : (wcR.fields.any fun f => f.keepsBits && f.has i) = false := by
      simp only [List.any_cons, List.any_nil, FieldRow.has]
      simp; omega
    rw [this, Bool.false_and]

theorem wc_phase {s : State} (hs : s.serving = true) (g : FieldRow) : s.phaseOk WDOG.HOST_CTRL.off g = true := by
  have e : s.phaseOk WDOG.HOST_CTRL.off g = if WDOG.HOST_CTRL.off = WDOG.HOST_CTRL.off ∧ g.lo = 0 then s.phase == phCONFIGURE || s.phase == phRELEASED else
      s.phase == phLOAD || s.phase == phCONFIGURE || s.phase == phRELEASED := rfl
  rw [e]
  rcases serving_cases hs with h | h <;> rw [h] <;> split <;> rfl

theorem wc_written {o : Word} {v : Word} (h1 : fieldGet v 1 1 = fieldGet o 1 1) (h2 : fieldGet v 2 1 = fieldGet o 2 1) (g : FieldRow) (hg : g ∈ wcR.fields)
    (hw : g.written o v = true) : g.acc = .w1s := by
  simp only [List.mem_cons, List.not_mem_nil, or_false] at hg
  rcases hg with h | h | h <;> subst h
  · rfl
  · unfold FieldRow.written at hw; simp [h1] at hw
  · unfold FieldRow.written at hw; simp [h2] at hw

theorem memWrite_wd (bs : List Byte) : ∀ (t : State) (a : Nat), (t.memWrite a bs).wd = t.wd ∧ (t.memWrite a bs).pw = t.pw := by
  induction bs with
  | nil => intro t a; exact ⟨rfl, rfl⟩
  | cons b bs ih => intro t a; have := ih (t.memPut a b) (a + 1); simpa [State.memWrite] using this

structure WdEq (x : WdogSt) (t : State) : Prop where h : t.wd = x

theorem WdEq.ite {c : Prop} [Decidable c] {a b : State} {x : WdogSt} (h1 : WdEq x a) (h2 : WdEq x b) : WdEq x (if c then a else b) := by split <;> assumption

theorem WdEq.put {x : WdogSt} {t : State} (h : WdEq x t) (f : Fld) (v i : Nat) : WdEq x (t.put f v i) := ⟨h.h⟩

theorem WdEq.setReg {x : WdogSt} {t : State} (h : WdEq x t) (o : Nat) (v : Word) (i : Nat) : WdEq x (t.setReg o v i) := ⟨h.h⟩

theorem WdEq.sat {x : WdogSt} {t : State} (h : WdEq x t) (f : Fld) (v i : Nat) : WdEq x (t.sat f v i) := ⟨h.h⟩

theorem WdEq.setPair {x : WdogSt} {t : State} (h : WdEq x t) (o v i : Nat) : WdEq x (t.setPair o v i) := ⟨h.h⟩

theorem WdEq.signal {x : WdogSt} {t : State} (h : WdEq x t) (o v : Nat) : WdEq x (t.signal o v) := ⟨h.h⟩

theorem WdEq.mem {x : WdogSt} {t : State} (h : WdEq x t) (a : Nat) (bs : List Byte) : WdEq x (t.memWrite a bs) := ⟨(memWrite_wd _ _ _).1.trans h.h⟩

theorem WdEq.auditWrite {x : WdogSt} {s : State} (h : WdEq x s) (e : List Byte) : WdEq x (s.auditWrite e) := by
  unfold State.auditWrite
  dsimp only
  exact .ite (((h.mem _ _).put _ _ _).signal _ _) ((h.mem _ _).put _ _ _)

theorem WdEq.setHeld {x : WdogSt} {s : State} (h : WdEq x s) (l : List (List Byte)) : WdEq x (s.setHeld l) := by
  unfold State.setHeld
  have h1 : WdEq x { s with role := { s.role with held := l } } := ⟨h.h⟩
  exact h1.put _ _ _

theorem WdEq.audit {x : WdogSt} {s : State} (h : WdEq x s) (a b c d e f : Nat) (l : List Byte) (g : Nat) : WdEq x (s.audit a b c d e f l g) := by
  unfold State.audit
  dsimp only
  have h1 : ∀ r, WdEq x { s with role := r } := fun r => ⟨h.h⟩
  refine .ite ((h1 _).auditWrite _) (.ite ?_ ?_)
  · exact (h1 _).setHeld _
  · exact ((h1 _).put _ _ _).sat _ _ _

theorem WdEq.fault {x : WdogSt} {s : State} (h : WdEq x s) (c y i : Nat) : WdEq x (s.fault c y i) := by
  unfold State.fault State.add64
  dsimp only
  have h1 := (h.setPair (ERR.COUNT_CORRECTED_LO.off + 8 * c) ((s.pair (ERR.COUNT_CORRECTED_LO.off + 8 * c) + 1) % 2 ^ 64) 0).setReg ERR.STATUS.off
    (s.reg ERR.STATUS.off ||| BitVec.ofNat 32 (2 ^ c)) 0
  have h2 := WdEq.ite (c := s.obsOpen = true) (h1.sat (ERR.OBS_COUNT.COUNT.word c) 1 0) h1
  have e1 : ∀ {t : State} (_ : WdEq x t) (r), WdEq x { t with err := r } := fun h r => ⟨h.h⟩
  refine .ite (e1 (.ite h2 ?_) _) (.ite h2 ?_)
  all_goals exact ((((h2.put _ _ _).put _ _ _).put _ _ _).setPair _ _ _).setPair _ _ _

theorem WdEq.cutPort {x : WdogSt} {s : State} (h : WdEq x s) (p : Nat) : WdEq x (s.cutPort p) := by
  unfold State.cutPort
  dsimp only
  refine .ite (h.put _ _ _) ?_
  have h1 : WdEq x ((s.put SPOKE.PORT_STATUS.LINK_UP 0 p).portEvent 2 p 0) := ⟨h.h⟩
  revert h1
  generalize (s.put SPOKE.PORT_STATUS.LINK_UP 0 p).portEvent 2 p 0 = u
  generalize List.filter _ _ = l
  induction l generalizing u with
  | nil => exact id
  | cons q l ih => intro hu; exact ih _ ⟨hu.h⟩

theorem WdEq.dropHolds {x : WdogSt} {s : State} (h : WdEq x s) : WdEq x s.dropHolds := by
  unfold State.dropHolds
  generalize List.range 4 = l
  induction l generalizing s with
  | nil => exact h
  | cons a l ih => rw [List.foldl_cons]; exact ih (.ite (((h.put _ _ _).cutPort _).cutPort _) h)

theorem WdEq.enterFault {x : WdogSt} {s : State} (h : WdEq x s) : WdEq x s.enterFault := by
  unfold State.enterFault
  refine .ite h ?_
  dsimp only
  have h1 : WdEq x (s.toPhase phFAULT) := by unfold State.toPhase; exact (h.put _ _ _).audit _ _ _ _ _ _ _ _
  have h2 : WdEq x (((s.toPhase phFAULT).emit .viral).event none 0x30 0) := ⟨h1.h⟩
  exact ⟨h2.dropHolds.h⟩

theorem fault_wd (s : State) (c x i : Nat) : (s.fault c x i).wd = s.wd := (WdEq.fault ⟨rfl⟩ c x i).h

theorem enterFault_wd (s : State) : s.enterFault.wd = s.wd := (WdEq.enterFault ⟨rfl⟩).h

theorem writeCores_wd (s : State) : s.writeCores.wd = s.wd ∧ s.writeCores.regs = s.regs := by
  unfold State.writeCores
  split
  · exact ⟨rfl, rfl⟩
  · dsimp only; rw [State.nextFree_wd, State.nextFree_regs]; exact ⟨(memWrite_wd _ _ _).1, memWrite_regs _ _ _⟩

theorem wiped_pw {u v t : State} (h : u.WipedTo v) (h2 : v.pw.causes = 16) (x : Word) (e : t = { v with pw := { v.pw with expiryNext := x } }) :
    u.WipedTo t ∧ t.pw.causes = 16 ∧ t.pw.expiryNext = x := by
  subst e
  obtain ⟨a1, a2, a3, a4, a5, a6, a7, a8, a9, a10, a11, a12, a13, a14, a15, a16, a17, a18, a19⟩ := h
  exact ⟨⟨a1, a2, a3, a4, a5, a6, a7, a8, a9, a10, a11, a12, a13, a14, a15, a16, a17, a18, a19⟩, h2, rfl⟩

theorem grace_end {s : State} (hh : s.pw.held = false) {log : List Byte} {h : CrashHdr} {n : Nat} (h1 : s.wd.hdr = some h) (h2 : s.wd.grace = some n)
    (h3 : s.wd.coreStop = false) (u : State) (hu : u = (if s.crashBase = 0 then s else (s.memWrite (s.crashBase + 0x1100) (log.take 61184)).memWrite s.crashBase
      (crashHeader h (log.take 61184).length (s.get SYS.FW_VERSION.VERSION)))) :
    u.WipedTo (s.graceEnd log) ∧ (s.graceEnd log).pw.causes = 16 ∧ (s.graceEnd log).pw.expiryNext = expiryWord h := by
  have hup : u.pw.held = false := by
    rw [hu]; split
    · exact hh
    · rw [(memWrite_wd _ _ _).2, (memWrite_wd _ _ _).2]; exact hh
  obtain ⟨w, c⟩ := intoReset_wiped u hup 16
  refine wiped_pw w c (expiryWord h) ?_
  unfold State.graceEnd
  rw [h1, h2]
  dsimp only
  have : (if s.crashBase = 0 ∨ s.wd.coreStop = true then s
    else (s.memWrite (s.crashBase + 0x1100) (log.take 61184)).memWrite s.crashBase (crashHeader h (log.take 61184).length (s.get SYS.FW_VERSION.VERSION))) = u := by
    rw [hu, h3]
    by_cases hb : s.crashBase = 0
    · rw [if_pos (.inl hb), if_pos hb]
    · rw [if_neg (by simp [hb]), if_neg hb]
  rw [this]

theorem crashHeader_length (h : CrashHdr) (a b : Nat) : (crashHeader h a b).length ≤ 2 ^ 64 := by
  unfold crashHeader
  dsimp only
  rw [List.length_append, padTo_length, leBytes_length]
  decide

theorem memWrite_hwf (bs : List Byte) (t : State) (a : Nat) (h : spWf memDefault t.hmem = true) : spWf memDefault (t.memWrite a bs).hmem = true :=
  (keeps_memWrite (Keeps.refl t) a bs).hmem h

theorem phase_of_regs {s t : State} (h : t.regs = s.regs) : t.phase = s.phase := by
  unfold State.phase State.get State.reg
  rw [h]

theorem hdr_set (s : State) (h : CrashHdr) : ∃ z : State, ({ s with wd := { s.wd with hdr := some h } } : State) = z ∧ z.regs = s.regs ∧ z.wd.hdr = some h :=
  ⟨_, rfl, rfl, rfl⟩

theorem expire_first {s : State} {host : Bool} {cause domain missing seq : Nat} (h1 : s.wd.hdr = none)
    (h2 : ¬ (host = true ∧ s.flag WDOG.HOST_CTRL.ACTION = true ∧ s.phase = phRELEASED)) (h3 : ¬ (cause = 4 ∧ domain = 0)) :
    s.expire host cause domain missing seq = ({ s with wd := { s.wd with hdr := some (s.newHdr (if host then 2 else 1) cause domain missing seq) } } : State).expireNow false := by
  unfold State.expire
  rw [h1]
  dsimp only
  rw [if_neg h2, decide_eq_false h3]

theorem expireNow_false (s : State) : s.expireNow false = (let y := (s.fault clsFATAL 0 0).enterFault.writeCores
    { y with wd := { y.wd with grace := some (s.get WDOG.GRACE.TICKS), qlimit := none } }) := by
  unfold State.expireNow
  dsimp only
  rw [if_neg (by decide)]

theorem fx1 (z : State) : ((z.fault clsFATAL 0 0).enterFault.writeCores).wd = z.wd :=
  ((writeCores_wd _).1.trans (enterFault_wd _)).trans (fault_wd _ _ _ _)

theorem fx2 (z : State) (h : spWf regDefault z.regs = true) : ((z.fault clsFATAL 0 0).enterFault.writeCores).phase = phFAULT :=
  (phase_of_regs (writeCores_wd _).2).trans (enterFault_phase _ ((fault_regs _ _ _ _ (by decide)).wf h))

theorem fx3 (y : State) (g : Nat) : ∃ t : State, ({ y with wd := { y.wd with grace := some g, qlimit := none } } : State) = t ∧ t.regs = y.regs ∧ t.wd.hdr = y.wd.hdr ∧ t.wd.grace.isSome = true :=
  ⟨_, rfl, rfl, rfl, rfl⟩

theorem first_expiry {s : State} (cr : spWf regDefault s.regs = true) {h : CrashHdr} (z : State) (zr : z.regs = s.regs) (zw : z.wd.hdr = some h) (t : State)
    (ht : t = (let y := (z.fault clsFATAL 0 0).enterFault.writeCores
      { y with wd := { y.wd with grace := some (z.get WDOG.GRACE.TICKS), qlimit := none } })) :
    t.phase = phFAULT ∧ t.wd.hdr = some h ∧ t.wd.grace.isSome = true := by
  have e1 := fx1 z
  have e2 := fx2 z (by rw [zr]; exact cr)
  generalize (z.fault clsFATAL 0 0).enterFault.writeCores = y at ht e1 e2
  obtain ⟨u, hu, hr, hw, hg⟩ := fx3 y (z.get WDOG.GRACE.TICKS)
  have : t = u := ht.trans hu
  subst this
  exact ⟨(phase_of_regs hr).trans e2, by rw [hw, e1, zw], hg⟩

end Sys2Proof.Laws.Watchdog
end

