-- ==== Sys2Proof/WellFormed.lean ====
section
/-! DEFINITION. Which commands can arrive at all: the operands stay inside the fields the spec gives them (Tables 6-1, 14-3, 15-4,
21-1, R381, R245). `exec` is total, so it does not ask for this; a sender that follows the spec sends nothing else. -/

namespace Sys2Proof

/-- A TID is a 10-bit number (Table 17-6). -/
def tidOk (t : Nat) : Bool := decide (t < 1024)

/-- A function number: PF0 is 0, a VF is 1 to 1,023 (R481). -/
def vfOk (v : Nat) : Bool := decide (v < 1024)

/-- A Spoke port, 0 to 7 (R323). -/
def portOk (p : Nat) : Bool := decide (p < 8)

/-- A Freewheel pair, 0 to 3 (R325). -/
def pairOk (p : Nat) : Bool := decide (p < 4)

/-- A ring of a tenant, 0 to 7 (R114). -/
def ringOk (q : Nat) : Bool := decide (q < 8)

/-- A Gear slot, 0 to 7 (R305). -/
def slotOk (q : Nat) : Bool := decide (q < 8)

/-- A DRAM stack, 0 to 7. -/
def stackOk (q : Nat) : Bool := decide (q < 8)

/-- A queue pair, 0 to 16,383 (R356). -/
def qpOk (q : Nat) : Bool := decide (q < 2 ^ 14)

/-- A host identity, 12 bits (R381). -/
def hidOk (h : Nat) : Bool := decide (h ≤ 2 ^ 12)

/-- A host table slot, 0 to 63 (R381). -/
def hostSlotOk (h : Nat) : Bool := decide (h < 64)

/-- A pool region, 0 to 255 (R376). -/
def regionOk (r : Nat) : Bool := decide (r < 256)

/-- A line address of the CXL face: 64-byte aligned, 52 bits (R389). -/
def lineOk (a : Nat) : Bool := decide (a < 2 ^ 52) && a % 64 == 0

/-- A 64-byte line. -/
def lineBytesOk (b : List Byte) : Bool := b.length == 64

/-- A write into a window of a BAR of `size` bytes: 1 to 8 bytes, inside the window (Table 21-1). -/
def accessOk (size off bytes : Nat) : Bool := decide (1 ≤ bytes) && decide (bytes ≤ 8) && decide (off + bytes ≤ size)

/-- A word-aligned offset of BAR0 (R481). -/
def regOffOk (off : Nat) : Bool := decide (off < 2 ^ 24) && off % 4 == 0

/-- The fields of Table 6-1, under a given opcode. -/
def descOk (opcode : Nat) (d : Desc) : Bool :=
  d.opcode == opcode && tidOk d.tid && ringOk d.sq && decide (d.count < 2 ^ 32) && decide (d.resultUnits < 2 ^ 16) &&
  decide (d.sid < 2 ^ 32) && decide (d.notBefore < 2 ^ 48) && decide (d.deadline < 2 ^ 48) && decide (d.userTag < 2 ^ 32) &&
  decide (d.resultAddr < 2 ^ 64) && d.body.length == 32

/-- The fields of Table 14-3, under a given TYPE. -/
def frameOk (typ : Nat) (f : Frame) : Bool :=
  f.typ == typ && decide (f.vc < 4) && decide (f.src < 256) && decide (f.dst < 256) && decide (f.hops < 256) &&
  decide (f.ring < 256) && decide (f.linkSeq < 2 ^ 32) && decide (f.ackSeq < 2 ^ 32) && decide (f.credits < 2 ^ 16) &&
  decide (f.creditVc < 4) && decide (f.xid < 2 ^ 32) && decide (f.payload.length ≤ 257 * 64)

/-- The header fields a packet carries (R362, Table 15-4, R369). -/
def packetOk (p : Packet) : Bool :=
  decide (p.srcIp < 2 ^ 128) && decide (p.qpn < 2 ^ 24) && decide (p.opcode < 256) && decide (p.psn < 2 ^ 24) &&
  decide (p.va < 2 ^ 64) && decide (p.rkey < 2 ^ 32) && decide (p.length < 2 ^ 32) && decide (p.offset < 2 ^ 32) &&
  decide (p.msn < 2 ^ 24) && decide (p.path < 16) && decide (p.syndrome < 5) && decide (p.basePsn < 2 ^ 24) &&
  decide (p.payload.length ≤ 4096) && decide (p.udpSrc < 2 ^ 16) && decide (p.udpDst < 2 ^ 16) && decide (p.srcMac < 2 ^ 48) &&
  decide (p.dscp < 64) && p.vlan.all (fun v => decide (v < 4096))

/-- The fields of a cascade word (R245). -/
def cascadeOk (w : CascadeWord) : Bool :=
  decide (w.origin < 16) && decide (w.ns < 2 ^ 16) && w.key.length == 32 &&
  (match w.hit with
   | none => true
   | some l => l.length == 7)

/-- A frame arriving on a port. -/
def arrival (port typ : Nat) (f : Frame) : Bool := portOk port && frameOk typ f

/-- A packet arriving on a port. -/
def packetIn (port : Nat) (p : Packet) : Bool := portOk port && packetOk p

/-- An operand inside its fields, for every row of the table; a row without operands is always well formed. -/
def Instr.wellFormed : Instr → Bool
  | .markReceive port f _ => arrival port 0x03 f
  | .rosterTimeout member => decide (member < 32)
  | .powerInputChange input _ => decide (input < 2)
  | .dramTrainingDone stack _ => stackOk stack
  | .regionAdopt tid => tidOk tid
  | .bar2Write off bytes _ => accessOk (2 ^ 20) off bytes
  | .bar2FrameSubmit slot _ => decide (slot < 256)
  | .slotConfigDone slot _ => slotOk slot
  | .slotReady slot ident => slotOk slot && ident.length == 16
  | .slotReadyTimeout slot => slotOk slot
  | .applyDone _ sysMask => decide (sysMask < 256)
  | .makerResponse sig => sig.length == 96
  | .registerWrite off bytes _ => accessOk (2 ^ 24) off bytes
  | .countLoRead path span => decide (path < 1028) && [1, 2, 4, 8].contains span.bytes && decide (span.off < 2 ^ 24)
  | .sqTail vf q _ => vfOk vf && decide (q ≤ 8)
  | .cqHead vf q _ => vfOk vf && decide (q ≤ 8)
  | .fetchStart tid q => tidOk tid && ringOk q
  | .descriptorFetched tid q => tidOk tid && ringOk q
  | .sqCtrl tid q _ => tidOk tid && ringOk q
  | .cqCtrl tid q _ => tidOk tid && ringOk q
  | .nop d => descOk 0x00 d
  | .seqOpen d => descOk 0x01 d
  | .seqClose d => descOk 0x02 d
  | .seqFork d => descOk 0x03 d
  | .append d => descOk 0x10 d
  | .readPages d => descOk 0x11 d
  | .deliver d => descOk 0x12 d
  | .pin d => descOk 0x13 d
  | .unpin d => descOk 0x14 d
  | .prefixFind d => descOk 0x20 d
  | .prefixNext d => descOk 0x21 d
  | .prefixInsert d => descOk 0x22 d
  | .prefixRemove d => descOk 0x23 d
  | .attnPartial d => descOk 0x30 d
  | .scoreUpdate d => descOk 0x40 d
  | .reshardMove d | .reshardCopy d | .advance d => descOk 0x50 d
  | .poolXfer d => descOk 0x60 d
  | .fence d => descOk 0x7F d
  | .closeRun idx | .closeEntriesRemoved idx => decide (idx < 2 ^ 24)
  | .appendBuckets off _ => regOffOk off
  | .cascadeWord w => cascadeOk w
  | .cascadeWaitExpiry tag => decide (tag < 2 ^ 32)
  | .matchToken port f => arrival port 0x10 f
  | .matchReply port f => arrival port 0x11 f
  | .reshapeDrainDone bank => decide (bank < 2 ^ 12)
  | .hookResponse slot _ _ _ _ | .hookLatencyTimeout slot _ _ | .slotFaultAssert slot | .cfgRdReq slot _ => slotOk slot
  | .slotWindow addr _ _ | .windowTimeout addr => decide (addr < 2 ^ 24)
  | .helloCmd port f => arrival port 0x01 f
  | .ackCmd port f => arrival port 0x02 f
  | .beatCmd port f => arrival port 0x04 f
  | .badFrame port header payload =>
    portOk port && decide (header.length ≤ 32) && decide (payload.length ≤ 257 * 64) && (header.length == 32 || payload.isEmpty)
  | .reshardOpen port f => arrival port 0x20 f
  | .reshardAnswer port f => arrival port 0x21 f
  | .pageSeg port f => arrival port 0x22 f
  | .placed port f => arrival port 0x23 f
  | .epochPrepare port f => arrival port 0x24 f
  | .epochReady port f => arrival port 0x25 f
  | .epochCommit port f => arrival port 0x26 f
  | .commitAck port f => arrival port 0x27 f
  | .mirrorWrite port f => arrival port 0x30 f
  | .mirrorAck port f => arrival port 0x31 f
  | .replayTimeout port | .linkDown port | .linkHoldExpiry port | .pfcStorm port => portOk port
  | .fecDegraded port _ => portOk port
  | .epochReadySend tid | .resetDrainExpiry tid => tidOk tid
  | .xferWaitExpiry xid => decide (xid < 2 ^ 32)
  | .linkUp port member => portOk port && decide (member < 32)
  | .freewheelOpen pair | .freewheelClose pair | .freewheelSwitchDone pair => pairOk pair
  | .rdmaWrite port p | .sprayWrite port p | .flush port p | .flushResponse port p | .rdmaAck port p | .sprayAck port p
  | .cnp port p => packetIn port p
  | .sprayAckSend qp | .ackTimeout qp | .rateTimer qp => qpOk qp
  | .sprayTimeout qp psn => qpOk qp && decide (psn < 2 ^ 24)
  | .pathRestored qp path => qpOk qp && decide (path < 16)
  | .cxlReadNocache src _ dpa | .cxlSharedRead src _ dpa | .cxlOwnershipRead src _ dpa => hidOk src.hid && lineOk dpa
  | .cxlWrite src _ dpa data mask mval =>
    hidOk src.hid && lineOk dpa && lineBytesOk data && decide (mask < 2 ^ 64) && decide (mval < 4)
  | .writeback hid dpa data => hidOk hid && lineOk dpa && lineBytesOk data.bytes
  | .snoopResponse hid dpa data _ =>
    hidOk hid && lineOk dpa &&
    (match data with
     | none => true
     | some d => lineBytesOk d.bytes)
  | .biTimeout slot dpa => hostSlotOk slot && lineOk dpa
  | .hostViral hid => hidOk hid
  | .dcReleaseAck hid region => hidOk hid && regionOk region
  | .releaseWaitExpiry slot region => hostSlotOk slot && regionOk region
  | .destroyDone region => regionOk region
  | .resyncDone tenant num => if tenant then tidOk num else regionOk num
  | .hostDrainDone slot => hostSlotOk slot
  | .flrVf vf => vfOk vf && decide (1 ≤ vf)
  | .domainRunning domain => decide (domain < 22)
  | .sysCheckin task seq => decide (task < 256) && decide (seq < 2 ^ 16)
  | .stackFailure stack | .tableRebuildDone stack => stackOk stack
  | .thermalSample temps vin pins => temps.length == 8 && vin.length == 2 && pins.length == 2
  | .setOffset off => decide (off < 2 ^ 24)
  | .strokeBoundary | .shadowSwitch | .periodSwitch | .counterHalt | .chunkStart _ | .chunkEnd _ _ _ | .markTimeout | .beatSend
  | .helloSend | .joinCmd | .joinTimeout | .leaveCmd | .perstChange _ | .resetInChange _ | .hotReset | .flrPf0 | .resetExit
  | .pf0Ready | .logScanStart | .logScanDone | .regionScrub | .regionHold | .regionActionStart | .adoptDone | .scrubDone
  | .releaseCmd | .quiesceStart | .quiesceDone | .bar2HeaderSubmit _ | .headerCmd _ _ | .frameCmd _ _ _ | .statusCmd _
  | .serialAbort | .serialBadcmd _ | .headerCheckDone | .verifyDone | .abortCmd | .recouple | .auditTail _ | .makerLock
  | .makerChallengeRequest _ | .nonceExpiry | .makerAction _ _ _ | .rebuildStart | .rebuildCopyDone | .walkCacheFlush
  | .tierProbe | .defineCmd | .undefine | .nandReadDone _ _ | .programDone _ _ | .dieRebuildDone _ _ | .openNandPageTimeout _
  | .eviction | .scoreReevaluate | .logFlush _ | .compaction _ | .enumDone _ | .cascadeEnumTimeout | .pelotonWaitExpiry _
  | .brakeSample _ | .reshape | .shadowTokensRestored _ | .constLoad | .constLoadDone _ | .constUnload | .cfgReadbackDone _
  | .unloadCmd | .tenantBind _ | .advanceReadyDeadline _ | .qpReset | .qpInit | .qpRtr | .qpRts | .qpSqd | .qpErr | .commitCmd
  | .regionRelease | .poolRequestServe | .createCmd | .destroy | .takeover | .takeoverKv | .takeoverKvDone | .resync
  | .hostCtrl _ | .partitionCreate | .partitionDestroy | .tenantCreate | .tenantDestroy | .tenantReset | .keyLoad | .keyClear
  | .domainStop | .domainStart | .isolate _ | .domainReset _ | .xingReset _ | .flashGate | .crossingOverrun _ | .hostCheckin _
  | .hostDisable _ | .hostEnable | .watchdogTimeout _ | .clockStopCheck _ | .xtalFail | .quiesceLimitExpiry | .crashDone _
  | .graceExpiry | .unitFault _ _ _ _ | .seqProbe | .obsStart | .obsStop | .obsArm | .readDword | .telemetry | .cascadeDown =>
    true

end Sys2Proof
end

