-- ==== Sys2Proof/Tests/Slice0.lean ====
section
/-! SUPPORT. Tests: ill-formed operands that WellFormed refuses, witnesses that the hypotheses of the obligations can be met
together, and small steps whose results come from the spec's rules and tables. -/

namespace Sys2Proof.Tests

open Sys2Proof.Machine

/-! ### Small states -/

/-- The card after a cold power-up, moved to a phase. -/
def inPhase (p : Nat) : State := State.reset.put SYS.BRINGUP_PHASE.PHASE p

/-- The card held in reset by PERST#. -/
def inReset : State := { State.reset with pw := { State.reset.pw with held := true, causes := 2 } }

/-- Zero words of a serial transaction. -/
def zeros' (n : Nat) : List Word := List.replicate n 0#32

/-- The state a command leaves. -/
def after (c : Instr) (s : State) : State :=
  match exec c s with
  | .next t => t
  | .fault _ => s
  | .refused _ => s

/-- A descriptor of TID 1 at ring position 0 of SQ 0, with byte 32 on given. -/
def desc (op sid : Nat) (body : List Byte) : Desc :=
  { tid := 1, sq := 0, count := 0, opcode := op, quiet := false, urgent := false, resultUnits := 0, sid := sid, notBefore := 0,
    deadline := 0, userTag := 7, resultAddr := 0, body := padTo 32 body }

/-- A frame of no type yet from member 2 to member 0. -/
def frame (seq : Nat) (payload : List Byte) : Frame :=
  { typ := 0, vc := 0, nak := false, src := 2, dst := 0, hops := 0, ring := 0, linkSeq := seq, ackSeq := 0, credits := 0, creditVc := 0,
    xid := 9, payload := payload }

/-- A packet with an opcode and a PSN. -/
def packet (op psn : Nat) : Packet :=
  { srcIp := 0, qpn := 0, opcode := op, psn := psn, ce := false, malformed := false, va := 0, rkey := 0, length := 0, offset := 0, msn := 0,
    first := true, last := true, path := 0, syndrome := 0, basePsn := 0, bitmap := 0, payload := [] }

/-- A cascade word of card 1. -/
def word : CascadeWord := { origin := 1, tag := 0, ns := 0, block := 0, key := zeros 32, hit := none, verifyMiss := false, halted := false, crc := 0#32 }

/-! ### WellFormed: an operand outside its field is refused -/

theorem test_wf_accepts : (Instr.regionAdopt 1023).wellFormed = true ∧ (Instr.linkDown 7).wellFormed = true ∧
    (Instr.registerWrite 0xFFFFF8 8 0).wellFormed = true ∧ (Instr.nop (desc 0x00 0 [])).wellFormed = true ∧
    (Instr.beatCmd 0 { frame 1 [] with typ := 0x04 }).wellFormed = true ∧ (Instr.cascadeWord word).wellFormed = true := by decide

theorem test_wf_refuses_numbers : (Instr.regionAdopt 1024).wellFormed = false ∧ (Instr.rosterTimeout 32).wellFormed = false ∧
    (Instr.powerInputChange 2 true).wellFormed = false ∧ (Instr.dramTrainingDone 8 true).wellFormed = false ∧
    (Instr.slotConfigDone 8 true).wellFormed = false ∧ (Instr.bar2FrameSubmit 256 0).wellFormed = false ∧
    (Instr.applyDone true 256).wellFormed = false ∧ (Instr.linkDown 8).wellFormed = false ∧ (Instr.freewheelOpen 4).wellFormed = false ∧
    (Instr.ackTimeout 16384).wellFormed = false ∧ (Instr.sprayTimeout 0 16777216).wellFormed = false ∧
    (Instr.pathRestored 0 16).wellFormed = false ∧ (Instr.hostViral 4097).wellFormed = false ∧ (Instr.hostDrainDone 64).wellFormed = false ∧
    (Instr.destroyDone 256).wellFormed = false ∧ (Instr.flrVf 0).wellFormed = false ∧ (Instr.flrVf 1024).wellFormed = false ∧
    (Instr.domainRunning 22).wellFormed = false ∧ (Instr.sysCheckin 256 0).wellFormed = false ∧ (Instr.sysCheckin 0 65536).wellFormed = false ∧
    (Instr.closeRun 16777216).wellFormed = false ∧ (Instr.cascadeWaitExpiry (2 ^ 32)).wellFormed = false ∧
    (Instr.reshapeDrainDone 4096).wellFormed = false ∧ (Instr.windowTimeout 16777216).wellFormed = false ∧
    (Instr.xferWaitExpiry (2 ^ 32)).wellFormed = false ∧ (Instr.linkUp 0 32).wellFormed = false ∧ (Instr.setOffset 16777216).wellFormed = false ∧
    (Instr.resyncDone true 1024).wellFormed = false ∧ (Instr.resyncDone false 256).wellFormed = false := by decide

theorem test_wf_refuses_rings : (Instr.fetchStart 1024 0).wellFormed = false ∧ (Instr.fetchStart 0 8).wellFormed = false ∧
    (Instr.sqTail 1024 0 0).wellFormed = false ∧ (Instr.sqTail 0 9 0).wellFormed = false ∧ (Instr.cqHead 0 9 0).wellFormed = false := by decide

theorem test_wf_refuses_accesses : (Instr.registerWrite 0 0 0).wellFormed = false ∧ (Instr.registerWrite 0 9 0).wellFormed = false ∧
    (Instr.registerWrite 0xFFFFFC 8 0).wellFormed = false ∧ (Instr.bar2Write 0xFFFFC 8 0).wellFormed = false ∧
    (Instr.countLoRead 1028 ⟨0, 4⟩).wellFormed = false ∧ (Instr.countLoRead 0 ⟨0, 3⟩).wellFormed = false ∧ (Instr.appendBuckets 3 0).wellFormed = false := by
  decide

theorem test_wf_refuses_lengths : (Instr.makerResponse (zeros 95)).wellFormed = false ∧ (Instr.slotReady 0 [0#32]).wellFormed = false ∧
    (Instr.thermalSample [] [0, 0] [0, 0]).wellFormed = false ∧ (Instr.writeback 0 0 ⟨zeros 63, false⟩).wellFormed = false ∧
    (Instr.writeback 0 32 ⟨zeros 64, false⟩).wellFormed = false ∧ (Instr.cxlWrite ⟨0, .plain⟩ 0 0 (zeros 64) (2 ^ 64) 0).wellFormed = false ∧
    (Instr.cxlWrite ⟨0, .plain⟩ 0 0 (zeros 64) 0 4).wellFormed = false ∧ (Instr.snoopResponse 0 0 (some ⟨[], false⟩) true).wellFormed = false ∧
    (Instr.cxlReadNocache ⟨0, .plain⟩ 0 (2 ^ 52)).wellFormed = false := by decide

theorem test_wf_refuses_descriptors : (Instr.nop (desc 0x01 0 [])).wellFormed = false ∧
    (Instr.nop { desc 0x00 0 [] with body := zeros 31 }).wellFormed = false ∧ (Instr.nop { desc 0x00 0 [] with sq := 8 }).wellFormed = false ∧
    (Instr.nop { desc 0x00 0 [] with notBefore := 2 ^ 48 }).wellFormed = false := by decide

theorem test_wf_refuses_frames : (Instr.beatCmd 0 { frame 1 [] with typ := 0x05 }).wellFormed = false ∧
    (Instr.beatCmd 8 { frame 1 [] with typ := 0x04 }).wellFormed = false ∧
    (Instr.beatCmd 0 { frame 1 [] with typ := 0x04, src := 256 }).wellFormed = false ∧
    (Instr.badFrame 8 [] []).wellFormed = false ∧ (Instr.badFrame 0 [] [0]).wellFormed = false ∧
    (Instr.cnp 0 { packet 0x81 0 with qpn := 2 ^ 24 }).wellFormed = false ∧ (Instr.cnp 8 (packet 0x81 0)).wellFormed = false ∧
    (Instr.cascadeWord { word with origin := 16 }).wellFormed = false ∧ (Instr.cascadeWord { word with key := [] }).wellFormed = false ∧
    (Instr.cascadeWord { word with hit := some [1] }).wellFormed = false := by decide

/-! ### The whole machine -/

theorem test_step_runs_front : ∃ c rest, ({ State.reset with pending := [.perstChange false, .hotReset] } : State).pending = c :: rest :=
  ⟨_, _, rfl⟩

theorem test_scan_scope_stands_still : ((State.reset.put ROLE.MAKER_STATUS.SESSION 1).put ROLE.MAKER_STATUS.SCOPE 4).scanOpen = true := by decide

theorem test_invariant_next : ∃ t, State.reset.Inv ∧ step { State.reset with pending := [.perstChange false] } = .next t :=
  ⟨_, ⟨by decide, by decide⟩, rfl⟩

theorem test_counter_meets : inReset.pw.held = true ∧ inReset.resetCondition = false ∧ State.reset.counting = true ∧
    State.reset.bnd.preset = none ∧ State.reset.stroke + 1 < strokeMax ∧ movesCounter .beatSend = false ∧
    ({ State.reset with stroke := strokeMax - 2 } : State).stroke + 1 < strokeMax ∧
    ({ State.reset with bnd := { State.reset.bnd with preset := some (strokeMax - 1) } } : State).bnd.preset = some (strokeMax - 1) := by decide

theorem test_counter_end_meets : let s : State := { inPhase 4 with stroke := 0xFFFFFFFFFFFE }
    s.canonical = true ∧ s.counting = true ∧ s.lastBoundary = true ∧ s.phase ≠ phFAULT := by decide

/-- R30: the last boundary leaves the counter at its end, HALTED and in FAULT. -/
theorem test_counter_halts : (after .strokeBoundary { inPhase 4 with stroke := 0xFFFFFFFFFFFE }).stroke = 0xFFFFFFFFFFFF ∧
    (after .strokeBoundary { inPhase 4 with stroke := 0xFFFFFFFFFFFE }).phase = phFAULT := by decide

/-- R26: a boundary begins the next Stroke. -/
theorem test_boundary_counts : (inPhase 4).boundary.stroke = 1 := by
  rw [boundary_stroke]
  decide

/-- R4: the byte written is the byte read, at the top of the 64-bit space too. -/
theorem test_memory_reads_back : (State.reset.memPut (2 ^ 64 - 1) 0x5A#8).memByte (2 ^ 64 - 1) = 0x5A#8 ∧
    ((State.reset.memPut 0 1#8).memPut 0 0#8).hmem = [] := by decide

theorem test_memory_outside : ∀ i < 4, hostAddr 4 ≠ hostAddr (0 + i) := by decide

/-! ### Power-up (chapter 3) -/

theorem test_resets_begin_meets : State.reset.pw.held = false := by decide

/-- R54: PERST# holds the card in reset, with cause bit 1. -/
theorem test_perst : (after (.perstChange true) (inPhase 4)).pw.held = true ∧ (after (.perstChange true) (inPhase 4)).pw.causes = 2 := by decide

theorem test_reset_exit_meets : inReset.canonical = true ∧ inReset.pw.held = true ∧ inReset.resetCondition = false ∧ inReset.pw.causes < 64 ∧
    inReset.pw.casPos < 4 ∧ inReset.pw.casSize < 4 := by decide

/-- R54, Table 3-5: RESET_CAUSE shows what held the card. -/
theorem test_reset_cause : (after .resetExit inReset).get SYS.RESET_CAUSE.CAUSE = 2 ∧ (after .resetExit inReset).pw.held = false := by decide

theorem test_training_meets : State.reset.canonical = true ∧ State.reset.pw.held = false ∧ State.reset.get SYS.DRAM_STATUS.TRAINED / 2 ^ 7 % 2 = 0 ∧
    State.reset.get SYS.DRAM_STATUS.FAILED / 2 ^ 7 % 2 = 0 ∧ State.reset.phase = phROM := by decide

/-- R56: the last stack's training shows in TRAINED. -/
theorem test_training : (after (.dramTrainingDone 7 true) State.reset).get SYS.DRAM_STATUS.TRAINED = 128 ∧
    (after (.dramTrainingDone 0 false) State.reset).phase = phFAULT ∧ (after .pf0Ready State.reset).phase = phLOAD := by decide

/-- CONFIGURE with every stack trained and one KV region found, which the log holds for tenant 3. -/
def scanned : State :=
  ((((inPhase 3).put SYS.DRAM_STATUS.TRAINED 0xFF).put TIER.LOG_SCAN_CTRL.START 1).put TIER.LOG_SCAN_STATUS.DONE 1).put TIER.REGION_INFO.STATE 1 0

theorem test_bring_up_meets : (inPhase 3).canonical = true ∧ (inPhase 3).writable = true ∧ (inPhase 3).living = true ∧
    (inPhase 3).phase ≠ phRELEASED ∧ (inPhase 3).flag SYS.BRINGUP_CTRL.RELEASE = false ∧
    ((inPhase 3).put SYS.DRAM_STATUS.TRAINED 0xFF).get SYS.DRAM_STATUS.TRAINED = 0xFF ∧
    ((inPhase 3).put SYS.DRAM_STATUS.TRAINED 0xFF).flag TIER.LOG_SCAN_STATUS.DONE = false ∧ (inPhase 4).phase = phRELEASED ∧
    scanned.canonical = true ∧ scanned.writable = true ∧ (scanned.reg TIER.REGION_SELECT.off).toNat = 0 ∧ scanned.phase = phCONFIGURE ∧
    scanned.flag TIER.LOG_SCAN_STATUS.DONE = true ∧ scanned.regionState 0 = 1 ∧ scanned.flash.actions.any (·.index == 0) = false ∧
    (0 : Nat) = scanned.get TIER.REGION_INFO.OWNER 0 := by decide

/-- R62: a scrub joins the queue of actions. -/
theorem test_scrub_latched : (after .regionScrub scanned).flash.actions = [⟨0, 2, 0⟩] := by decide

/-- A region's chain with nothing in it, and the first action of a queue. -/
def acting (index action : Nat) : State :=
  scanned.setFlash fun f => { f with chains := [⟨index, index, [], [], [], 0⟩], acting := some ⟨index, action, 1⟩ }

def queued (index action : Nat) : State :=
  scanned.setFlash fun f => { f with chains := [⟨index, index, [], [], [], 0⟩], actions := [⟨index, action, 1⟩] }

theorem test_region_events_meet : scanned.working = true ∧ ((inPhase 3).put TIER.LOG_SCAN_CTRL.START 1).flag TIER.LOG_SCAN_STATUS.DONE = false ∧
    ((queued 0 1).put PART.TENANT_STATUS.STATE 1 1).adoptCause ⟨0, 1, 1⟩ = 0 ∧ (queued 0 1).adoptCause ⟨0, 1, 1⟩ = 2 ∧
    (queued 0 1).flash.acting = none ∧ (acting 1024 1).chainAt 1024 = some ⟨1024, 1024, [], [], [], 0⟩ ∧ kvIndex 1024 = false ∧ kvIndex 0 = true ∧
    (acting 0 1).chainAt 0 = some ⟨0, 0, [], [], [], 0⟩ ∧ (acting 0 2).flash.acting = some ⟨0, 2, 1⟩ := by decide

/-- A released card under an orderly power-down with nothing left to write. -/
def quiesced : State := (inPhase 4).setTier fun t => { t with quiesce := true }

theorem test_quiesce_meets : quiesced.tier.quiesce = true ∧ quiesced.flag TIER.QUIESCE_STATUS.DONE = false ∧ quiesced.wk.works = [] ∧
    quiesced.allOnFlash = true ∧ quiesced.wd.hdr = none := by decide

/-- R68: the power-down ends once nothing is left to write. -/
theorem test_quiesce_done : (after .quiesceDone quiesced).flag TIER.QUIESCE_STATUS.DONE = true := by decide

/-! ### Images (chapter 4) -/

/-- The card in a phase, with a load in a state. -/
def loading (p st : Nat) : State := (inPhase p).put IMG.LOAD_STATE.STATE st

/-- Bytes closed by their CRC, as a header and a frame are (R74, R79). -/
def closed (b : List Byte) : List Byte := b ++ leBytes 4 (crc32c b).toNat

theorem closed_crc (b : List Byte) : leAt (closed b) b.length 4 = (crc32c ((closed b).take b.length)).toNat := by
  have h : (closed b).take b.length = b := by simp [closed]
  rw [h]
  have h4 : ∀ c : Nat, c < 2 ^ 32 → leNat (leBytes 4 c) = c := by
    intro c hc
    simp only [leBytes, leNat, BitVec.toNat_ofNat]
    omega
  have hd : (closed b).drop b.length = leBytes 4 (crc32c b).toNat := by simp [closed]
  have ht : (leBytes 4 (crc32c b).toNat).take 4 = leBytes 4 (crc32c b).toNat := by simp [leBytes]
  simp only [leAt, hd, ht, h4 _ (crc32c b).isLt]

def headerBody : List Byte := [0x4E#8, 0x44#8, 0x4F#8, 0x49#8] ++ zeros 504

/-- A header that passes the transport checks of R79. -/
def header : List Byte := closed headerBody

theorem test_header_push_meets : (inPhase 2).canonical = true ∧ (inPhase 2).load = ldIDLE ∧ (loading 2 5).load = ldDONE ∧
    (loading 2 6).load = ldREJECTED ∧ (inPhase 2).serialOn = true ∧ (inPhase 2).bar2On = true ∧ (List.replicate 128 0#32).length = 128 := by
  decide +kernel

theorem test_header_meets : header.take 4 = [0x4E#8, 0x44#8, 0x4F#8, 0x49#8] ∧ leAt header 508 4 = (crc32c (header.take 508)).toNat := by
  have h := closed_crc headerBody
  have hl : headerBody.length = 508 := by decide +kernel
  rw [hl] at h
  refine ⟨?_, h⟩
  decide +kernel

theorem test_header_check_meets : (loading 2 1).working = true ∧ (loading 2 1).load = ldHEADER_CHECK ∧ (loading 2 1).headerCause ≠ 0 := by decide

/-- R75: a header whose first byte is not its magic's is not taken. -/
theorem test_header_magic : ((inPhase 2).pushHeader 1 (zeros 512) false).load = ldIDLE := by decide

def frameBody : List Byte := zeros 4124

/-- A frame of all zeros that R74 accepts, the first of one. -/
def imageFrame : List Byte := closed frameBody

/-- A load RECEIVING one frame. -/
def receiving : State :=
  let s := (loading 2 2).put IMG.FRAME_COUNT.COUNT 1
  { s with img := { s.img with header := zeros 512 } }

theorem test_frame_push_meets : receiving.canonical = true ∧ receiving.load = ldRECEIVING ∧
    receiving.get IMG.FRAME_COUNT.COUNT = 1 ∧ receiving.img.staged = [] ∧ receiving.get IMG.FRAMES_ACCEPTED.COUNT + 1 < 2 ^ 32 ∧
    receiving.serialOn = true ∧ receiving.bar2On = true ∧ bar2Kind 0 ≠ 2 := by decide +kernel

theorem test_frame_meets : leAt imageFrame 4124 4 = (crc32c (imageFrame.take 4124)).toNat ∧
    (imageFrame.drop 4100).take 4 = (receiving.img.header.drop 64).take 4 ∧ leAt imageFrame 4096 4 = 0 := by
  have h := closed_crc frameBody
  have hl : frameBody.length = 4124 := by decide +kernel
  rw [hl] at h
  exact ⟨h, by decide +kernel, by decide +kernel⟩

theorem test_abort_meets : (loading 2 1).canonical = true ∧ (loading 2 1).load = ldHEADER_CHECK ∧ (loading 2 2).load = ldRECEIVING ∧
    (loading 2 3).load = ldVERIFYING ∧ (loading 2 4).load = ldAPPLYING ∧ (loading 2 1).writable = true ∧ (loading 2 1).living = true ∧
    (loading 2 1).serialOn = true ∧ (loading 2 4).writable = true ∧ (loading 2 4).serialOn = true := by decide

/-- R82: ABORT rejects a load with cause 14. -/
theorem test_abort : (after .serialAbort (loading 2 2)).load = ldREJECTED ∧
    (after .serialAbort (loading 2 2)).get IMG.LOAD_STATE.REJECT_CAUSE = 14 := by decide

theorem test_serial_meets : (inPhase 2).serialOn = true ∧ bits (0#32 : Word).toNat 24 8 ≠ 0xA5 ∧ bits (0xA6000003#32 : Word).toNat 24 8 = 0xA6 ∧
    bits (0xA6000003#32 : Word).toNat 0 24 = 3 ∧ (⟨0, zeros' 4⟩ : StatusTxn).words.length = 4 ∧
    4 < (⟨0, zeros' 5⟩ : StatusTxn).words.length := by decide

/-- R87: a STATUS of five words is counted as overlong, and LAST and SSP_ATTN_N follow Table 4-7. -/
theorem test_status_overlong : (after (.statusCmd ⟨0, zeros' 5⟩) (inPhase 2)).get IMG.SERIAL_OVERLONG_COUNT.COUNT = 1 ∧
    (after (.statusCmd ⟨0, zeros' 4⟩) (inPhase 2)).get IMG.SERIAL_OVERLONG_COUNT.COUNT = 0 := by decide

/-- R86, R89: an unknown command byte is counted. -/
theorem test_bad_command : (after (.serialBadcmd [0#32]) (inPhase 2)).get IMG.SERIAL_BADCMD_COUNT.COUNT = 1 := by decide

/-- The hash of an image without frames. -/
def verifying (st kind : Nat) : State :=
  let s := loading 2 st
  { s with img := { s.img with header := zeros 12 ++ leBytes 1 kind ++ zeros 51 ++ sha384 [] ++ zeros 400 } }

theorem test_verify_meets : (verifying 3 1).working = true ∧ (verifying 3 1).load = ldVERIFYING ∧
    sha384 (verifying 3 1).payload = ((verifying 3 1).img.header.drop 64).take 48 ∧ leAt (verifying 3 3).img.header 12 1 = 3 ∧
    (verifying 3 3).dom 20 = domOFF ∧ leAt (verifying 3 4).img.header 12 1 = 4 ∧ ((verifying 3 4).put CLK.DOMAIN_STATUS.STATE 0 20).dom 20 ≠ domOFF := by
  decide +kernel

theorem test_verify_fails_meets : sha384 (loading 2 3).payload ≠ ((loading 2 3).img.header.drop 64).take 48 := by decide +kernel

theorem test_apply_meets : (verifying 4 1).load = ldAPPLYING ∧ leAt (verifying 4 1).img.header 12 1 = 1 ∧
    leAt (verifying 4 2).img.header 12 1 = 2 ∧ leAt (verifying 4 3).img.header 12 1 = 3 := by decide

/-- R57: applied firmware starts the cores and moves the card to CONFIGURE. -/
theorem test_firmware : (after (.applyDone true 0) (verifying 4 1)).phase = phCONFIGURE := by decide

/-- Slot 2 is the target of a load, in a slot state. -/
def slotLoad (st : Nat) : State :=
  let s := (inPhase 4).setSlotState 2 st
  { s with img := { s.img with loadSlot := some 2 } }

/-- An IDENT of version 1 with hook 0, II 1 and LATENCY 1 (Table 13-4). -/
def ident : List Word := [0x101#32, 1#32, 0x10001#32] ++ List.replicate 13 0#32

/-- A released card whose Gear fabric runs, with slot 0 ACTIVE and slot 3 HELD. -/
def geared : State := (((inPhase 4).put CLK.DOMAIN_STATUS.STATE 0 20).setSlotState 0 1).setSlotState 3 5

theorem test_slot_meets : (slotLoad 3).working = true ∧ (slotLoad 3).slotState 2 = 3 ∧ (slotLoad 4).slotState 2 = 4 ∧
    kvFind (slotLoad 4).img.slotNext 2 = none ∧ identOk (fun i => (([] : List Word).getD i 0#32).toNat) = false ∧
    identOk (fun i => (ident.getD i 0#32).toNat) = true ∧ (slotLoad 4).flag IMG.LOAD_CTRL.MANUAL_RECOUPLE = false ∧
    ((slotLoad 4).put IMG.LOAD_CTRL.MANUAL_RECOUPLE 1).flag IMG.LOAD_CTRL.MANUAL_RECOUPLE = true := by decide

theorem test_recouple_meets : geared.canonical = true ∧ geared.writable = true ∧ geared.living = true ∧ geared.serving = true ∧
    ((List.range 8).foldl (fun a n => if geared.slotState n = 5 then a + 2 ^ n else a) 0) = 8 ∧ geared.dom 20 ≠ domOFF ∧
    (geared.reg GEAR.SLOT_SELECT.off).toNat = 0 ∧ geared.slotState 0 = 1 ∧ geared.img.loadSlot ≠ some 0 ∧ kvFind geared.img.slotNext 0 = none := by
  decide

/-! ### Budgets, audit, maker and registers (chapters 2 and 5) -/

/-- A period of 2 µs and a partition switch, armed for Stroke 0. -/
def armed (us : Nat) (period part : Bool) : State :=
  let s := (inPhase 4).put SYS.STROKE_PERIOD.NEXT_US us
  { s with bnd := { s.bnd with armedPeriod := if period then some 0 else none, armedPart := if part then some 0 else none } }

theorem test_switch_meets : (armed 2 true false).up = true ∧ (armed 2 true false).dueAt (armed 2 true false).bnd.armedPeriod = true ∧
    (armed 2 true false).dueAt (armed 2 true false).bnd.armedPart = false ∧ 2 ≤ (armed 2 true false).get SYS.STROKE_PERIOD.NEXT_US ∧
    (armed 64 true false).get SYS.STROKE_PERIOD.NEXT_US ≤ 64 ∧ (armed 1 true false).get SYS.STROKE_PERIOD.NEXT_US < 2 ∧
    64 < (armed 65 true false).get SYS.STROKE_PERIOD.NEXT_US ∧ (armed 2 false true).dueAt (armed 2 false true).bnd.armedPart = true ∧
    (armed 2 false true).switchCause (armed 2 false true).period false = 0 ∧
    ((armed 2 false true).put PART.BUDGET_DRAM.NEXT 0xFFFFFF).switchCause 8 false ≠ 0 ∧ (armed 2 true true).switchCause 2 false = 0 := by decide

/-- R27, R49: the new period is in force; one beyond 64 µs is refused. -/
theorem test_period_switch : (armed 2 true false).switches.period = 2 ∧ (armed 65 true false).switches.period = 8 ∧
    (armed 65 true false).switches.flag SYS.STROKE_STATUS.REFUSED = true := by decide

/-- The boundary at which a switch is due, and one that is not. -/
theorem test_switch_command_meets : (armed 2 true true).counting = true ∧ (armed 2 true true).lastBoundary = false ∧
    (armed 2 true true).bnd.armedPeriod = some 0 ∧ 0 ≤ (armed 2 true true).nextStroke ∧ (armed 2 true true).bnd.armedPart = some 0 ∧
    ({ armed 2 true true with bnd := { (armed 2 true true).bnd with armedPart := some 2 } } : State).bnd.armedPart = some 2 ∧
    (armed 2 true true).nextStroke < 2 ∧ (armed 2 false false).bnd.armedPeriod = none ∧ (armed 2 true true).canonical = true ∧
    (Res6.sum ((armed 64 true false).parts.map (armed 64 true false).budget)).le ((armed 64 true false).capacityAt 64) = true ∧
    (Res6.sum (((armed 2 true false).put PART.BUDGET_POOL_LIVE.LIVE 0xFFFFFF).parts.map ((armed 2 true false).put PART.BUDGET_POOL_LIVE.LIVE
      0xFFFFFF).budget)).le (((armed 2 true false).put PART.BUDGET_POOL_LIVE.LIVE 0xFFFFFF).capacityAt 2) = false ∧
    ((armed 2 true true).put PART.BUDGET_DRAM.NEXT 0xFFFFFF).switchCause 2 false ≠ 0 ∧ (armed 1 true true).switchCause 8 true ≠ 0 := by decide

/-- A running chunk of an APPEND that has nothing to wait for. -/
def running (op : Nat) : State :=
  let s := ((inPhase 4).newWork (desc op 0 [])).1
  s.updWork 0 fun w => { w with phase := 1, run := [⟨0, .tier, 0, none, [], .none, none⟩] }

theorem test_chunk_meets : (running opPIN).working = true ∧ ((running opPIN).work 0).isSome = true ∧
    ((running opPIN).work 0).map (fun w => w.run.map (·.idx)) = some [0] ∧ readsHost opAPPEND = true := by decide

/-- A card whose audit ring has room. -/
def audited : State := ((inPhase 4).put ROLE.AUDIT_CTRL.ENABLE 1).put ROLE.AUDIT_CTRL.ENTRIES_LOG2 8

theorem test_audit_meets : audited.canonical = true ∧ audited.writable = true ∧ audited.living = true ∧ audited.auditRoom = true ∧
    audited.role.held = [] ∧ audited.flag ROLE.MAKER_LOCK.LOCK = false ∧
    (audited.put ROLE.AUDIT_HEAD.COUNT 3).get ROLE.AUDIT_HEAD.COUNT = 3 ∧
    ((3#32 : Word).toNat + 2 ^ 32 - ((audited.put ROLE.AUDIT_HEAD.COUNT 3).reg ROLE.AUDIT_TAIL.off).toNat) % 2 ^ 32 ≤
      ((audited.put ROLE.AUDIT_HEAD.COUNT 3).get ROLE.AUDIT_HEAD.COUNT + 2 ^ 32 -
        ((audited.put ROLE.AUDIT_HEAD.COUNT 3).reg ROLE.AUDIT_TAIL.off).toNat) % 2 ^ 32 := by decide

/-- R109: the tail goes as far as the head, and no further. -/
theorem test_audit_tail : (after (.auditTail 3#32) (audited.put ROLE.AUDIT_HEAD.COUNT 3)).get ROLE.AUDIT_TAIL.COUNT = 3 ∧
    (after (.auditTail 4#32) (audited.put ROLE.AUDIT_HEAD.COUNT 3)).get ROLE.AUDIT_TAIL.COUNT = 0 := by decide

/-- R109: an entry moves the head on by one. -/
theorem test_audit_entry : (audited.audit actorCard 3 0).get ROLE.AUDIT_HEAD.COUNT = 1 ∧ (audited.audit actorCard 3 0).role.auditSeq = 1 := by
  decide

/-- A card with a challenge out, and one with a session for diagnostics. -/
def challenged : State := { inPhase 2 with role := { (inPhase 2).role with nonce := some ⟨zeros 48, 1, 0⟩ } }

def session : State := ((inPhase 2).put ROLE.MAKER_STATUS.SESSION 1).put ROLE.MAKER_STATUS.SCOPE 1

theorem test_maker_meets : (inPhase 2).pw.held = false ∧ (inPhase 2).makerRefuses = false ∧ (inPhase 2).scopeServed 7 = true ∧
    (inPhase 4).scopeServed 2 = false ∧ ((inPhase 2).put ROLE.MAKER_LOCK.LOCK 1).makerRefuses = true ∧ challenged.role.nonce = some ⟨zeros 48, 1, 0⟩ ∧
    challenged.scopeServed 1 = true ∧ ({ challenged with stroke := 131072 } : State).stroke ≥ 0 + 131072 ∧ challenged.stroke < 0 + 131072 ∧
    session.flag ROLE.MAKER_STATUS.SESSION = true ∧ session.flag ROLE.AUDIT_POLICY.STRICT = false ∧
    (2 &&& session.get ROLE.MAKER_STATUS.SCOPE) ≠ 2 ∧ (1 &&& session.get ROLE.MAKER_STATUS.SCOPE) = 1 ∧ session.scopeServed 1 = true ∧
    (6 &&& (session.put ROLE.MAKER_STATUS.SCOPE 6).get ROLE.MAKER_STATUS.SCOPE) = 6 ∧ bits 6 0 1 ≠ 1 := by decide

/-- R103: a nonce older than its life is gone. -/
theorem test_nonce_expires : (after .nonceExpiry { challenged with stroke := 131072 }).role.nonce = none ∧
    (after .nonceExpiry { challenged with stroke := 131071 }).role.nonce ≠ none := by decide

theorem test_register_write_meets : (inPhase 4).canonical = true ∧ (inPhase 4).writable = true ∧ (findReg 0xEF0000).isNone = true ∧
    (findReg SYS.STROKE_PERIOD.off).isSome = true ∧ (∀ r ∈ (findReg SYS.STROKE_PERIOD.off).toList,
      ∀ f ∈ r.fields.filter (fun f => f.written ((inPhase 4).reg SYS.STROKE_PERIOD.off 0) 0x800#32), (inPhase 4).locked SYS.STROKE_PERIOD.off f = false) ∧
    (inPhase 4).offDomain SYS.STROKE_PERIOD.off = false ∧ (findReg SYS.STROKE_COUNT_LO.off).isSome = true ∧
    roPairs.contains SYS.STROKE_COUNT_LO.off = true ∧ (inPhase 4).pf0 = true ∧ (inPhase 4).offDomain SYS.STROKE_COUNT_LO.off = false := by decide

/-- R112: a write that is not an aligned word is counted and changes nothing else. -/
theorem test_illegal_write : (after (.registerWrite 2 4 1) (inPhase 4)).get ROLE.ILLEGAL_COUNT.COUNT = 1 := by decide
/-! ### Rings and descriptors (chapters 6 and 7) -/

/-- A released card in Stroke 1 with tenant 1 ACTIVE behind VF 1, SQ 0 and CQ 0 of 64 entries enabled, and budgets for partition 0. -/
def tenant : State :=
  let s := (((((({ inPhase 4 with stroke := 1 } : State).put PART.TENANT_STATUS.STATE 1 1).put FN.VF_BIND.TID 1 1).put PART.BUDGET_DRAM_LIVE.LIVE 64).put
    PART.BUDGET_FLASH_LIVE.LIVE 8).put PART.BUDGET_ENGINE_LIVE.LIVE 64).put PART.BUDGET_SEARCH_LIVE.LIVE 8
  let s := (((s.put PART.BUDGET_SPOKE_LIVE.LIVE 32).put PART.BUDGET_POOL_LIVE.LIVE 32).put XLAT.SEQ_CAP.CAP 4 1).put CMPR.CLASS_STATUS.DEFINED 1 0
  let s := (s.setReg (fnOff 1 0 FN.SQ_CTRL.rel) 0x10006#32).setReg (fnOff 1 0 FN.CQ_CTRL.rel) 0x106#32
  ((s.setLive PART.TENANT_CAPS.off 0xFFFFFFFF#32 1).setSqc 1 0 ⟨0, 0, 0, 0⟩).setCqc 1 0 ⟨0, 0, 0, 0, false⟩

/-- The same with sequence 0 of tenant 1, 2 layers and 4 slots, linear; its SID is 2^24. -/
def seq0 : Seq := { idx := 0, gen := 1, tid := 1, closing := false, layers := 2, cls := 0, slots := 4, ring := false, prot := false, btLog := 4,
                    len := 0, base := 0 }

def withSeq (q : Seq) : State := tenant.setSq fun x => { x with seqs := [q] }

theorem test_doorbells_meet : tenant.pf0 = true ∧ tenant.get FN.VF_BIND.TID 2 = 0 ∧ tenant.get FN.VF_BIND.TID 1 = 1 ∧ tenant.sqOn 1 0 = true ∧
    tenant.cqOn 1 0 = true ∧ ((64#32 : Word).toNat + 2 ^ 32 - (tenant.sqc 1 0).head % 2 ^ 32) % 2 ^ 32 ≤ 2 ^ tenant.fn 1 0 FN.SQ_CTRL.LENGTH_LOG2 ∧
    2 ^ tenant.fn 1 0 FN.SQ_CTRL.LENGTH_LOG2 < ((65#32 : Word).toNat + 2 ^ 32 - (tenant.sqc 1 0).head % 2 ^ 32) % 2 ^ 32 ∧
    tenant.sqOn 1 1 = false ∧ tenant.cqOn 1 1 = false ∧
    ((0#32 : Word).toNat + 2 ^ 32 - (tenant.cqc 1 0).head % 2 ^ 32) % 2 ^ 32 ≤ (tenant.cqc 1 0).waiting ∧
    (tenant.cqc 1 0).waiting < ((1#32 : Word).toNat + 2 ^ 32 - (tenant.cqc 1 0).head % 2 ^ 32) % 2 ^ 32 := by decide

/-- R120: a tail a full ring ahead is taken, one more is a doorbell error. -/
theorem test_sq_tail : ((after (.sqTail 1 0 64#32) tenant).sqc 1 0).tail = 64 ∧ ((after (.sqTail 1 0 65#32) tenant).sqc 1 0).tail = 0 ∧
    ((after (.sqTail 1 0 65#32) tenant).stat 1).dbErr = 1 := by decide

/-- Ring 0 of tenant 1 with one descriptor posted, and with its read begun. -/
def posted : State := tenant.setSqc 1 0 ⟨1, 0, 0, 0⟩

def reading : State := tenant.setSqc 1 0 ⟨1, 0, 1, 0⟩

theorem test_fetching_meets : posted.working = true ∧ posted.nextRing = some (ringKey 1 0) ∧ (reading.sqc 1 0).inFetch ≠ 0 ∧
    (descOf 1 0 0 (reading.memRead (reading.ringBase 1 0 0) 64)).malformed 0 = 0 := by decide

/-- R116: a slot of zeros is a NOP, and the head passes it. -/
theorem test_fetched : ((after (.descriptorFetched 1 0) reading).sqc 1 0).head = 1 ∧
    ((after (.descriptorFetched 1 0) reading).wk.works.map (·.d.opcode)) = [opNOP] := by decide

theorem test_ring_setup_meets : tenant.canonical = true ∧ tenant.writable = true ∧ tenant.serving = true ∧ fieldGet (5#32 : Word) 0 5 < 6 ∧
    16 < fieldGet (17#32 : Word) 0 5 ∧ tenant.sqOn 1 1 = false ∧ tenant.cqOn 1 (fieldGet (0x10006#32 : Word) 8 3) = true ∧
    fieldGet (0x10006#32 : Word) 16 1 = 1 ∧ tenant.cqOn 1 (fieldGet (0x10106#32 : Word) 8 3) = false ∧ tenant.sqOn 1 0 = true ∧
    fieldGet (6#32 : Word) 0 5 = tenant.fn 1 0 FN.SQ_CTRL.LENGTH_LOG2 ∧ fieldGet (6#32 : Word) 8 3 = tenant.cqOf 1 0 ∧
    tenant.cqOn 1 1 = false ∧ fieldGet (0x106#32 : Word) 8 1 = 1 ∧ fieldGet (0x106#32 : Word) 9 1 = 0 := by decide

/-- A state with a descriptor fetched in Stroke 0 as work 0. -/
def fetched (s : State) (op : Nat) (d : Desc) : State := (s.newWorkAt (asPosted op d) 0).1

/-- Whether the descriptor that stands fetched as work 0 can be admitted. -/
def admitsB (s : State) (op : Nat) (d : Desc) : Bool :=
  s.working && s.phase == phRELEASED && (s.findFetched (asPosted op d)).isSome && s.findFetched (asPosted op d) == s.work 0 &&
    ((s.work 0).any fun w => w.id == 0 && w.d.opcode == op && s.mayAdmit w && s.admitFail w.d == none)

theorem admits_of (s : State) (op : Nat) (d : Desc) (h : admitsB s op d = true) : ∃ w, s.work 0 = some w ∧ s.Admits op d w (s.enter w.id) (s.admitted w) := by
  simp only [admitsB, Bool.and_eq_true, beq_iff_eq, Option.any_eq_true] at h
  obtain ⟨⟨⟨⟨h1, h2⟩, -⟩, h4⟩, w, hw, ⟨⟨h5, h6⟩, h7⟩, h8⟩ := h
  exact ⟨w, hw, h1, h2, h4.trans hw, h6, h5 ▸ hw, h7, h8, rfl, rfl⟩

/-- A sequence's SID in the tests. -/
def sid0 : Nat := seq0.sid

theorem test_row_meets : rowOf (.nop (desc opNOP 0 [])) = some (opNOP, desc opNOP 0 []) ∧ (inPhase 3).phase ≠ phRELEASED ∧
    tenant.findFetched (asPosted opNOP (desc opNOP 0 [])) = none ∧ tenant.draining 1 = false ∧ tenant.wk.works = [] ∧
    (asPosted opNOP (desc opNOP 1 [])).malformed 0 = 3 ∧ (asPosted opNOP (desc opNOP 0 [])).malformed 0 = 0 ∧
    (fetched tenant opPIN (desc opPIN 5 [])).admitFail (asPosted opPIN (desc opPIN 5 [])) = some (stNOTFOUND, 0x0121) := by decide

/-- R134: a NOP is done at once. -/
theorem test_nop : (after (.nop (desc opNOP 0 [])) tenant).wk.latched = [0] := by decide

theorem test_admits_nop : admitsB (fetched tenant opNOP (desc opNOP 0 [])) opNOP (desc opNOP 0 []) = true := by decide

theorem test_admits_fence : admitsB (fetched tenant opFENCE (desc opFENCE 0 [1#8])) opFENCE (desc opFENCE 0 [1#8]) = true := by decide

/-- SEQ_OPEN of 2 layers, class 0, and 4 slots. -/
def openDesc : Desc := desc opOPEN 0 (leBytes 2 2 ++ [0#8, 0#8] ++ leBytes 4 4)

theorem test_admits_open : let s := fetched tenant opOPEN openDesc
    admitsB s opOPEN openDesc = true ∧ (s.enter 0).nextIndex = some 0 ∧ (s.enter 0).windowBase 1 8 = some 0 ∧
    (s.enter 0).openFail (asPosted opOPEN openDesc) = 0 ∧
    ((s.put XLAT.SEQ_CAP.CAP 0 1).enter 0).openFail (asPosted opOPEN openDesc) = dtSEQ_CAP := by decide

/-- R146: the first sequence opens with index 0, generation 1 and length 0. -/
theorem test_open : (after (.seqOpen openDesc) tenant).sq.seqs.map (fun q => (q.idx, q.gen, q.len, q.slots)) = [(0, 1, 0, 4)] := by decide

theorem test_admits_close : let d := desc opCLOSE sid0 []
    let s := fetched (withSeq seq0) opCLOSE d
    admitsB s opCLOSE d = true ∧ (s.enter 0).openSeq 1 sid0 = some seq0 := by decide

/-- The fork of sequence 0 into a sequence that does not exist. -/
def forkDesc : Desc := desc opFORK sid0 (leBytes 4 (seq0.sid + 1) ++ leBytes 4 1)

/-- Two sequences, of which the second can take a fork of the first. -/
def forkable : State := tenant.setSq fun x => { x with seqs := [seq0, { seq0 with idx := 1, base := 8 }] }

theorem test_admits_fork : admitsB (fetched (withSeq seq0) opFORK forkDesc) opFORK forkDesc = true ∧
    ((fetched (withSeq seq0) opFORK forkDesc).enter 0).forkFail 0 (asPosted opFORK forkDesc) ≠ 0 ∧
    ((fetched forkable opFORK forkDesc).enter 0).forkFail 0 (asPosted opFORK forkDesc) = 0 := by decide

/-- A CLOSING sequence whose close was admitted. -/
def closing : State :=
  let s := fetched (withSeq { seq0 with closing := true }) opCLOSE (desc opCLOSE sid0 [])
  s.updWork 0 fun w => { w with phase := 1 }

theorem test_close_meets : closing.working = true ∧ (closing.seqIdx 0).map (·.closing) = some true ∧
    (closing.seqIdx 0).map closing.busyOn = some false ∧
    (closing.wk.works.find? fun w => w.phase = 1 ∧ w.d.opcode = opCLOSE ∧ w.d.tid = 1 ∧ w.d.sid = sid0).isSome = true ∧
    ((inPhase 4).setSq fun x => { x with closed := [(0, 1)] }).sq.closed.find? (·.1 = 0) = some (0, 1) ∧
    (inPhase 4).flag SRCH.BRAKE_STATUS.HALTED = false := by decide

/-- R147: the close frees the sequence and is done. -/
theorem test_close_run : (after (.closeRun 0) closing).sq.seqs = [] ∧ (after (.closeRun 0) closing).wk.latched = [0] := by decide

/-- A range descriptor over block 0 and `nl` layers from layer 0. -/
def rangeDesc (op nl : Nat) (rest : List Byte) : Desc :=
  desc op sid0 (leBytes 4 0 ++ leBytes 4 1 ++ leBytes 2 0 ++ leBytes 2 nl ++ rest)

theorem test_admits_append : let d := desc opAPPEND sid0 (leBytes 4 1)
    admitsB (fetched (withSeq seq0) opAPPEND d) opAPPEND d = true := by decide

theorem test_admits_pages : let s (op nl : Nat) := fetched (withSeq seq0) op (rangeDesc op nl [])
    admitsB (s opREAD 2) opREAD (rangeDesc opREAD 2 []) = true ∧ admitsB (s opPIN 3) opPIN (rangeDesc opPIN 3 []) = true ∧
    admitsB (s opUNPIN 2) opUNPIN (rangeDesc opUNPIN 2 []) = true ∧ admitsB (s opSCORE 2) opSCORE (rangeDesc opSCORE 2 []) = true ∧
    ((s opREAD 2).enter 0).layerRange (asPosted opREAD (rangeDesc opREAD 2 [])) = false ∧
    ((s opPIN 3).enter 0).layerRange (asPosted opPIN (rangeDesc opPIN 3 [])) = true := by decide

/-- A DELIVER on QP 0 to region 0 of PD 0, which tenant 1 owns, its stride 65,536. -/
def deliverDesc (nl stride : Nat) : Desc := rangeDesc opDELIVER nl (leBytes 2 0 ++ [0#8, 0#8] ++ leBytes 4 0x1000000 ++ leBytes 4 stride)

def deliverable (st : Nat) : State :=
  let s := ((((withSeq seq0).put RDMA.PD_CTRL.ENABLE 1 0).put RDMA.PD_CTRL.OWNER_TID 1 0).put RDMA.REGION_STATUS.STATE 1 0).put
    RDMA.QP_STATUS.STATE st 0
  (s.setLive (RDMA.REGION_LENGTH_LO.off + 4) 1#32 0).setReg RDMA.REGION_STATUS.off ((s.reg RDMA.REGION_STATUS.off) ||| 0x100#32)

theorem test_admits_deliver : admitsB (fetched (withSeq seq0) opDELIVER (deliverDesc 2 65536)) opDELIVER (deliverDesc 2 65536) = true ∧
    (fetched (withSeq seq0) opDELIVER (deliverDesc 2 65536)).deliverFail (asPosted opDELIVER (deliverDesc 2 65536)) = dtQP_ACCESS ∧
    rightsOk (asPosted opDELIVER (deliverDesc 2 65536)) = true := by decide

/-- An RTS QP takes a DELIVER; a stride below the layers' bytes, or a QP in another state, ends it. -/
theorem test_admits_deliver_on_region : let s (st : Nat) := fetched (deliverable st) opDELIVER (deliverDesc 2 65536)
    let d := asPosted opDELIVER (deliverDesc 2 65536)
    admitsB (s 3) opDELIVER (deliverDesc 2 65536) = true ∧ (s 3).deliverFail d = 0 ∧ ((s 3).enter 0).layerRange d = false ∧
    ((s 3).enter 0).deliverBytes d ≤ d.b 52 4 ∧ ((s 3).enter 0).qpState (dlQp d) = qpRTS ∧ ((s 4).enter 0).qpState (dlQp d) = qpSQD ∧
    ((s 1).enter 0).qpState (dlQp d) ≠ qpRTS := by decide

theorem test_deliver_ends : let s := fetched (deliverable 3) opDELIVER (deliverDesc 3 65536)
    let u := fetched (deliverable 3) opDELIVER (deliverDesc 2 0)
    admitsB s opDELIVER (deliverDesc 3 65536) = true ∧ s.deliverFail (asPosted opDELIVER (deliverDesc 3 65536)) = 0 ∧
    (s.enter 0).layerRange (asPosted opDELIVER (deliverDesc 3 65536)) = true ∧ admitsB u opDELIVER (deliverDesc 2 0) = true ∧
    u.deliverFail (asPosted opDELIVER (deliverDesc 2 0)) = 0 := by decide

/-! ### Search, attention, reshard and pool descriptors -/

/-- Namespace 0 belongs to tenant 1, with blocks of 16 tokens. -/
def searching (q : Seq) : State :=
  (((withSeq q).put SRCH.NS_CTRL.ENABLE 1 0).put SRCH.NS_CTRL.OWNER_TID 1 0).put SRCH.NS_CTRL.BLOCK_TOKENS_LOG2 4 0

def findDesc (op scope : Nat) : Desc := desc op 0 (leBytes 2 0 ++ leBytes 1 0 ++ leBytes 1 scope ++ leBytes 4 4)

theorem test_admits_find : let s (op sc : Nat) := fetched (searching seq0) op (findDesc op sc)
    admitsB (s opFIND 0) opFIND (findDesc opFIND 0) = true ∧ admitsB (s opFIND 1) opFIND (findDesc opFIND 1) = true ∧
    admitsB (s opNEXT 0) opNEXT (findDesc opNEXT 0) = true ∧ ((s opFIND 0).enter 0).nsMine 1 0 = true ∧
    ((s opFIND 1).enter 0).nsScope 0 ≠ 2 ∧ (((s opFIND 0).put SRCH.NS_CTRL.OWNER_TID 2 0).enter 0).nsMine 1 0 = false := by decide

def insertDesc (op : Nat) : Desc := desc op sid0 []

theorem test_admits_insert : let s (q : Seq) (op : Nat) := fetched (searching q) op (insertDesc op)
    admitsB (s seq0 opINSERT) opINSERT (insertDesc opINSERT) = true ∧ admitsB (s seq0 opREMOVE) opREMOVE (insertDesc opREMOVE) = true ∧
    ((s seq0 opINSERT).enter 0).openSeq 1 sid0 = some seq0 ∧ seq0.bt = ((s seq0 opINSERT).enter 0).nsTokens 0 ∧
    (((s seq0 opINSERT).put SRCH.NS_CTRL.BLOCK_TOKENS_LOG2 5 0).enter 0).nsTokens 0 ≠ seq0.bt ∧
    admitsB (s { seq0 with ring := true } opINSERT) opINSERT (insertDesc opINSERT) = true ∧
    ((((s { seq0 with prot := true } opINSERT).put SRCH.NS_CTRL.KEY_SOURCE 1 0).put SRCH.NS_CTRL.HOOK 1 0).enter 0).nsHook 0 = true := by decide

/-- Class 0 of one head of 32 elements, grouped by one, and a program 1 that takes BF16 queries without bias. -/
def attending (group : Nat) : State :=
  let s := ((withSeq seq0).put CMPR.CLASS_GEOMETRY.KV_HEADS 1 0).put CMPR.CLASS_GEOMETRY.HEAD_DIM_DIV32 1 0
  (s.setReg ENG.PROG_INFO.off 0x45#32 1).setLive ENG.ATTN_GROUP.off (BitVec.ofNat 32 group) 0

/-- Layer 0, one token, one head, program 1, FLAGS, block 0, the query at host address 4,096. -/
def attnDesc (flags : Nat) : Desc :=
  desc opATTN sid0 ([0#8, 1#8] ++ leBytes 2 1 ++ [1#8, BitVec.ofNat 8 flags] ++ leBytes 2 0 ++ leBytes 4 0 ++ leBytes 4 1 ++ leBytes 8 4096)

theorem test_admits_attn : let s (g f : Nat) := fetched (attending g) opATTN (attnDesc f)
    let d (f : Nat) := asPosted opATTN (attnDesc f)
    admitsB (s 1 0) opATTN (attnDesc 0) = true ∧ ((s 1 0).enter 0).openSeq 1 sid0 = some seq0 ∧ ((s 1 0).enter 0).attnFail (d 0) seq0 = 0 ∧
    ((s 1 0).enter 0).readExt (d 0) (((s 1 0).enter 0).classDef 0) ≠ none ∧ atBias (d 0) = 0 ∧
    admitsB (s 0 0) opATTN (attnDesc 0) = true ∧ ((s 0 0).enter 0).attnFail (d 0) seq0 ≠ 0 := by decide

theorem test_attn_ext_meets : let s := fetched (attending 1) opATTN (attnDesc 1)
    admitsB s opATTN (attnDesc 1) = true ∧ (s.enter 0).attnFail (asPosted opATTN (attnDesc 1)) seq0 = 0 ∧
    (s.enter 0).readExt (asPosted opATTN (attnDesc 1)) ((s.enter 0).classDef 0) = none := by decide

/-- R298: an infinity in the query ends the descriptor with an INPUT fault. -/
theorem test_attn_nonfinite : let s := (fetched (attending 1) opATTN (attnDesc 0)).memWrite 4096 [0x80#8, 0x7F#8]
    ((after (.attnPartial (attnDesc 0)) s).work 0).map (fun w => (w.status, w.phase)) = some (stFAULT, 2) := by decide

/-- A member of a peloton of itself, with tenant 1 at epoch 0. -/
def member : State := ((withSeq seq0).put SPOKE.MEMBER_STATUS.STATE 2).setReg SPOKE.ROSTER.off 1#32

/-- KIND, FIRST_LAYER, LAYERS_M1 and the next epoch, to switch at Stroke 100. -/
def reshardDesc (kind layers epoch : Nat) : Desc :=
  desc opRESHARD sid0 ([BitVec.ofNat 8 kind, 0#8, 0#8, BitVec.ofNat 8 (layers - 1)] ++ zeros 8 ++ leBytes 4 epoch ++ zeros 8 ++ leBytes 6 100)

/-- The checks of R343 on the work admitted as work 0. -/
def reshardCheck (s : State) : Option Nat := ((s.enter 0).work 0).map (s.enter 0).reshardFail

theorem test_admits_reshard : let s (k l e : Nat) := fetched member opRESHARD (reshardDesc k l e)
    admitsB (s 0 2 1) opRESHARD (withKind (reshardDesc 0 2 1) 0) = true ∧ reshardCheck (s 0 2 1) = some 0 ∧
    admitsB (s 1 3 1) opRESHARD (withKind (reshardDesc 1 3 1) 1) = true ∧ reshardCheck (s 1 3 1) = some 0 ∧
    ((s 0 2 1).enter 0).seqBySid 1 sid0 = some seq0 ∧ ((s 0 2 1).work 0).map (·.isAdvance) = some false ∧
    reshardCheck (s 0 2 2) = some dtSTALE_EPOCH ∧ admitsB (s 0 2 2) opRESHARD (withKind (reshardDesc 0 2 2) 0) = true := by decide

theorem test_admits_advance : let s (e : Nat) := fetched member opRESHARD (reshardDesc 2 1 e)
    admitsB (s 1) opRESHARD (withKind (reshardDesc 2 1 1) 2) = true ∧ reshardCheck (s 1) = some 0 ∧ reshardCheck (s 0) = some 0 ∧
    admitsB (s 2) opRESHARD (withKind (reshardDesc 2 1 2) 2) = true ∧ reshardCheck (s 2) = some dtSTALE_EPOCH ∧
    ((s 1).work 0).map (·.isAdvance) = some true := by decide

/-- Pool region 0 ACTIVE in a partition, of 1 GiB. -/
def lending (part st : Nat) : State :=
  (((withSeq seq0).put POOL.REGION_STATUS.STATE st 0).put POOL.REGION_SIZE.GIB 1 0).put POOL.REGION_DEF.PARTITION part 0

/-- DIRECTION, region 0, LAYERS_M1, block 0, one block, LENGTH, offset 0. -/
def xferDesc (dir layers len : Nat) : Desc :=
  desc opXFER sid0 ([BitVec.ofNat 8 dir, 0#8, 0#8, BitVec.ofNat 8 (layers - 1)] ++ leBytes 4 0 ++ leBytes 4 1 ++ leBytes 4 len)

theorem test_admits_xfer : let s (p st dir l n : Nat) := fetched (lending p st) opXFER (xferDesc dir l n)
    let d (dir l n : Nat) := asPosted opXFER (xferDesc dir l n)
    admitsB (s 0 1 0 2 16) opXFER (xferDesc 0 2 16) = true ∧ ((s 0 1 0 2 16).enter 0).xferFail (d 0 2 16) seq0 = 0 ∧
    xferLong (d 0 2 16) seq0 = false ∧ xferLong (d 0 2 17) seq0 = true ∧ admitsB (s 0 1 0 2 17) opXFER (xferDesc 0 2 17) = true ∧
    admitsB (s 0 1 1 2 0) opXFER (xferDesc 1 2 0) = true ∧ admitsB (s 0 1 1 3 0) opXFER (xferDesc 1 3 0) = true ∧
    xferLong (d 1 3 0) seq0 = false ∧ admitsB (s 0 0 0 2 16) opXFER (xferDesc 0 2 16) = true ∧
    ((s 0 0 0 2 16).enter 0).xferFail (d 0 2 16) seq0 ≠ 0 ∧ (s 0 1 0 2 16).poolPart 0 = (s 0 1 0 2 16).partOf 1 ∧
    (s 1 1 0 2 16).poolPart 0 ≠ (s 1 1 0 2 16).partOf 1 ∧ ((s 0 1 0 2 16).enter 0).openSeq 1 sid0 = some seq0 := by decide

/-! ### Translation, classes and flash (chapters 7, 8 and 9) -/

theorem test_translation_meets : let s := tenant.put XLAT.TENANT_SELECT.TID 1
    let r (tid : Nat) := s.setSq fun x => { x with rebuild := some ⟨tid, 1⟩ }
    let short := s.setSq fun x => { x with xitems := [⟨1, 4, 0, 0⟩] }
    s.canonical = true ∧ s.writable = true ∧ s.phase = phRELEASED ∧ (s.reg XLAT.TENANT_SELECT.off).toNat = 1 ∧ s.tenState 1 ≠ 0 ∧
    s.sq.rebuild = none ∧ s.rebuildNeed 1 ≤ s.chunksFree ∧ s.tenState 2 = 0 ∧ (r 2).sq.rebuild = some ⟨2, 1⟩ ∧
    ((r 1).put XLAT.REBUILD_STATUS.STATE 1 1).get XLAT.REBUILD_STATUS.STATE 1 = 1 ∧ (r 1).working = true ∧ s.err.probing = false ∧
    short.sq.rebuild = none ∧ short.chunksFree < short.rebuildNeed 1 := by decide

/-- R164: a rebuild of a FREE tenant is refused with cause 1. -/
theorem test_rebuild_free : (after .rebuildStart (inPhase 4)).get XLAT.REBUILD_STATUS.CAUSE 0 = 1 ∧
    (after .rebuildStart (inPhase 4)).get XLAT.REBUILD_STATUS.STATE 0 = 4 := by decide

/-- CONFIGURE with class 3 selected, of 8 heads of 128 elements, blocks of 16 tokens, stored as BF16. -/
def classed : State :=
  ((((inPhase 3).put CMPR.CLASS_SELECT.CLASS 3).put CMPR.CLASS_GEOMETRY.KV_HEADS 8 3).put CMPR.CLASS_GEOMETRY.HEAD_DIM_DIV32 4 3).put
    CMPR.CLASS_GEOMETRY.BLOCK_TOKENS_LOG2 4 3

/-- The same class defined, and used by a sequence. -/
def defined : State := classed.put CMPR.CLASS_STATUS.DEFINED 1 3

def used : State := defined.setSq fun x => { x with seqs := [{ seq0 with cls := 3 }] }

theorem test_class_meets : classed.canonical = true ∧ classed.writable = true ∧ classed.serving = true ∧
    (classed.reg CMPR.CLASS_SELECT.off).toNat = 3 ∧ classed.get CMPR.CLASS_SELECT.CLASS = 3 ∧ classed.classDefined 3 = false ∧
    classed.defineCause 3 = 0 ∧ classed.defineCause 2 ≠ 0 ∧ defined.classDefined 3 = true ∧ defined.classUsers 3 = 0 ∧
    used.classUsers 3 ≠ 0 := by decide

/-- R167: what DEFINE leaves. -/
theorem test_define : (after .defineCmd classed).flag CMPR.CLASS_STATUS.DEFINED 3 = true ∧
    (after .undefine used).get CMPR.CLASS_STATUS.REFUSE_CAUSE 3 = 5 ∧ (after .undefine defined).classDefined 3 = false := by decide

theorem test_buckets_meet : 0 < fieldGet (1#32 : Word) 0 21 ∧
    fieldGet (1#32 : Word) 0 21 < (inPhase 3).get CMPR.APPEND_BUCKETS_1.EDGE_1 ∧
    (inPhase 3).get CMPR.APPEND_BUCKETS_1.EDGE_1 < (inPhase 3).get CMPR.APPEND_BUCKETS_2.EDGE_2 ∧
    0 < fieldGet (0x04040404#32 : Word) 0 5 ∧ 0 < fieldGet (0x0101010D#32 : Word) 24 5 ∧
    fieldGet (0x0101010D#32 : Word) 0 5 + fieldGet (0x0101010D#32 : Word) 8 5 + fieldGet (0x0101010D#32 : Word) 16 5 +
      fieldGet (0x0101010D#32 : Word) 24 5 = 16 := by decide

/-- A page in a state of Table 9-1, with a frame. -/
def page (st : Nat) : Page :=
  { pid := 7, tid := 1, st := st, hdr := zeros 256, body := [], flash := some 0, frame := some 0, prio := 0, last := 0, hint := 0, score := none,
    eval := 0, trans := 0, shared := false, started := 1, done := 0, readAt := 0, gen := 0, bad := 0 }

def withPage (st : Nat) : State := tenant.setSq fun x => { x with pages := [page st], leaves := [⟨0, 0, 7, false⟩] }

/-- A page-in's read under way, and a program. -/
def flashing (kind : Nat) (recon : Bool) : State := (withPage 5).setTier fun t => { t with ops := [⟨3, kind, 7, 0, 0, recon, 0⟩] }

/-- A program of the last NAND page of page 7. -/
def programming : State := (flashing 1 false).setTier fun t => { t with placed := [⟨7, 0, 0, 1, [0], false⟩] }

/-- Die 5 of group 15 dead and being rebuilt. -/
def dying : State := (tenant.setTier fun t => { t with dead := [(15, 5)], rebuild := [(15, 5, [])] }).setGroup 15 1

theorem test_flash_meets : (flashing 0 false).working = true ∧ ((flashing 0 true).tier.ops.find? (·.id = 3)).map (·.recon) = some true ∧
    ((flashing 0 false).pageBy 7).map (·.st) = some 5 ∧ (programming.tier.ops.find? (·.id = 3)).map (·.kind) = some 1 ∧
    ((programming.stripeTurn 0).placedDone 0 0).2.map (fun p => (p.pid, p.stale)) = [(7, false)] ∧
    (((flashing 1 false).stripeTurn 0).placedDone 0 0).2.length = 0 ∧ kvFind dying.tier.rebuild 15 = some (5, []) ∧
    dying.tier.dead.find? (·.1 = 15) = some (15, 5) ∧ dying.get TIER.GROUP_STATUS.SPARES_LEFT 15 ≠ 0 ∧
    (dying.put TIER.GROUP_STATUS.SPARES_LEFT 0 15).get TIER.GROUP_STATUS.SPARES_LEFT 15 = 0 ∧ tenant.tier.dead.find? (·.1 = 15) = none ∧
    (flashing 0 false).striped 0 = false ∧
    hdrValid (page 5).hdr = false ∧ ((withPage 5).setTier fun t => { t with plans := [(7, [])] }).readsLeft (page 5) = 0 ∧
    ((tenant.setTier fun t => { t with streams := [⟨0, 0, 1, 0, none⟩] }).put TIER.LOG_FLUSH.STROKES 0).openDue 0 = true ∧
    (tenant.setFlash fun f => { f with bufs := [(0, List.replicate 1020 (1, 0))] }).flushDue 0 = true := by decide +kernel

theorem test_striped_meets (s : State) (hd : s.tier.dead = []) (nand : Nat) (hp : s.flash.parity = [stripeOf nand]) : s.striped nand = true := by
  simp [State.striped, State.otherDead, State.deadAt, hd, hp]

theorem sealed_valid (x : List Byte) (hx : x.length = 252) (h5 : x.take 5 = [0x4B#8, 0x56#8, 0x50#8, 0x47#8, 1#8]) : hdrValid (closed x) = true := by
  have ht : (closed x).take 252 = x := by rw [closed, ← hx]; simp
  have hp : padTo 252 (closed x) = x := by
    have hl : 252 ≤ (closed x).length := by simp [closed, hx]
    rw [padTo, List.take_append_of_le_length hl, ht]
  have hm : (closed x).take 5 = [0x4B#8, 0x56#8, 0x50#8, 0x47#8, 1#8] := by
    rw [← h5, closed, List.take_append_of_le_length (by omega)]
  have hc := closed_crc x
  rw [hx, ht] at hc
  rw [hdrValid, hm, hp, hc]
  simp

/-- A page whose only read has ended, with a header of GEN 0 that is valid. -/
def readIn : Page := { page 5 with done := 1, hdr := sealHdr [0x4B#8, 0x56#8, 0x50#8, 0x47#8, 1#8] }

theorem test_read_ends_meets : readIn.started ≤ readIn.done ∧ readIn.st = 5 ∧ hdrValid readIn.hdr = true ∧ hdrGEN readIn.hdr % 256 = readIn.gen ∧
    hdrGEN readIn.hdr % 256 ≠ ({ readIn with gen := 1 } : Page).gen := by
  refine ⟨by decide, rfl, ?_, by decide +kernel, by decide +kernel⟩
  exact sealed_valid _ (by decide +kernel) (by decide +kernel)

/-- A log chain of more dead records than live ones. -/
def stale : State := (tenant.put TIER.LOG_SCAN_STATUS.DONE 1).setFlash fun f => { f with chains := [⟨0, 0, [⟨0, 0, 1, 1, 4, [4, 4, 4], [(0, 0), (8, 0)]⟩], [], [0], 4⟩] }

theorem test_compaction_meets : stale.compactDue 0 = true ∧ (stale.chainAt 0).isSome = true := by decide

theorem test_eviction_meets : let drop := ((withPage 3).setLive TIER.DEMOTE_LEVEL.off 0#32 0).setLive TIER.DROP_LEVEL.off 0xFFFFFFF#32 0
    let down := (withPage 1).setLive TIER.DEMOTE_LEVEL.off 0xFFFFFFF#32 0
    drop.candidates.find? (·.st = 3) = some (page 3) ∧ drop.lget TIER.DEMOTE_LEVEL.FRAMES ≤ drop.framesFree ∧
    drop.framesFree < drop.lget TIER.DROP_LEVEL.FRAMES ∧ down.candidates.find? (fun g => g.st == 3 || !down.flashFull) = some (page 1) ∧
    down.framesFree < down.lget TIER.DEMOTE_LEVEL.FRAMES := by
  have h (st : Nat) (s : State) (hs : s.sq.pages.filter s.candidate = [page st]) : s.candidates = [page st] := by
    rw [State.candidates, hs, List.mergeSort_singleton]
  intro drop down
  have h3 : drop.candidates = [page 3] := h 3 _ (by decide +kernel)
  have h1 : down.candidates = [page 1] := h 1 _ (by decide +kernel)
  have hf : down.flashFull = false := by
    have hn : down.blocksUsed false = 0 ∧ down.poolBlocks = 0 := by decide +kernel
    rw [State.flashFull, State.blocksFree, hn.1, hn.2]
    simp only [decide_eq_false_iff_not]
    omega
  exact ⟨by rw [h3]; decide +kernel, by decide +kernel, by decide +kernel, by rw [h1, hf]; rfl, by decide +kernel⟩

/-! ### Search, constants and the Gear fabric (chapters 10, 11 and 13) -/

/-- A released card whose Sprocket runs, in a cascade of `m1` + 1 cards at position 0, with namespace 0 in the cascade. -/
def cascade (m1 : Nat) : State :=
  let s := ((tenant.put CLK.DOMAIN_STATUS.STATE 0 19).put SRCH.NS_CTRL.ENABLE 1 0).put SRCH.NS_CTRL.SCOPE 1 0
  { s with pw := { s.pw with casSize := m1 } }

/-- A word of this card, and its search that waits since a Stroke. -/
def waiting (again : Bool) : State :=
  let s := (cascade 3).setSrch fun x => { x with casc := [⟨0, 0, 0, 0, 0, again, { word with origin := 0 }⟩] }
  { s with stroke := s.get SRCH.CASCADE_WAIT.STROKES + 1 }

theorem test_cascade_meets : (waiting false).working = true ∧ (waiting false).dom 19 ≠ domOFF ∧ (waiting false).get SRCH.ENUM_STATUS.POSITION = 0 ∧
    ((waiting true).srch.casc.find? (·.tag = 0)).map (·.again) = some true ∧ (waiting false).cascDue 0 = true ∧
    word.origin ≠ (cascade 3).get SRCH.ENUM_STATUS.POSITION ∧ (cascade 3).nsOn word.ns = true ∧ (cascade 3).nsScope word.ns = 1 ∧
    ((cascade 3).put SRCH.BRAKE_STATUS.HALTED 1).halted = true ∧ (cascade 3).nsOn { word with ns := 1 }.ns = false ∧
    (cascade 3).phase = phRELEASED ∧ (cascade 3).dom 19 = domRUNNING ∧ (cascade 0).pw.casSize = 0 ∧ (cascade 3).pw.casSize ≠ 0 ∧
    (cascade 3).flag SRCH.ENUM_STATUS.CASCADE_INCOMPLETE = false ∧ (cascade 3).flag SRCH.ENUM_STATUS.CASCADE_UP = false := by decide

/-- R247: a search that stays lost after its second word is counted. -/
theorem test_cascade_lost : (after (.cascadeWaitExpiry 0) (waiting true)).get SRCH.RING_LOSSES.COUNT = 1 ∧
    (after (.cascadeWaitExpiry 0) (waiting false)).get SRCH.RING_LOSSES.COUNT = 0 := by decide

/-- R249: a cascade of one is up at once, one of four when the ring closed. -/
theorem test_enumeration : (after (.enumDone false) (cascade 0)).flag SRCH.ENUM_STATUS.CASCADE_UP = true ∧
    (after (.enumDone false) (cascade 3)).flag SRCH.ENUM_STATUS.CASCADE_UP = false ∧
    (after (.enumDone true) (cascade 3)).flag SRCH.ENUM_STATUS.CASCADE_UP = true := by decide

/-- A ring port's link up: port 0 of pair 0, open. -/
def linked (s : State) : State :=
  ((s.put SPOKE.PORT_CTRL.MODE 2 0).put { SPOKE.FREEWHEEL_STATUS.STATE_i with lo := 0, w := 2 } 2).put SPOKE.PORT_STATUS.LINK_UP 1 0

/-- Whether a frame of a type arrives at the card itself over port 0. -/
def arrivesB (s : State) (typ : Nat) (f0 : Frame) : Bool :=
  s.working && s.ringPort 0 && s.linkUp 0 && (!sequenced typ || (frameOf typ f0).linkSeq == seqNext ((s.takeAck 0 (frameOf typ f0)).hop 0).got) &&
    (frameOf typ f0).src != s.me && (frameOf typ f0).dst == s.me

theorem arrives_of (s : State) (typ : Nat) (f0 : Frame) (h : arrivesB s typ f0 = true) :
    s.Arrives 0 typ f0 (frameOf typ f0) (s.hopTook 0 typ (frameOf typ f0)) := by
  simp only [arrivesB, Bool.and_eq_true, Bool.or_eq_true, Bool.not_eq_true', beq_iff_eq, bne_iff_ne] at h
  obtain ⟨⟨⟨⟨⟨h1, h2⟩, h3⟩, h4⟩, h5⟩, h6⟩ := h
  refine ⟨h1, h2, h3, rfl, ?_, h5, .inl h6, ?_⟩
  · intro hs
    rcases h4 with h4 | h4
    · simp [hs] at h4
    · exact h4
  · rw [State.hopPassed, if_neg fun q => q.1 h6]

/-- A work that waits for the members' replies, since past Strokes, with the transaction of its request. -/
def finding : State :=
  let s := (linked tenant).newWork (asPosted opFIND (findDesc opFIND 1)) |>.1
  let s := s.updWork 0 fun w => { w with phase := 1, aux := .find { FindSt.start 4 false with asked := [2], waitEnd := some 0 } }
  { s.setChain (fun c => { c with txns := [⟨9, ftMATCH_TOKEN, 2, 0, 0, false, []⟩] }) with stroke := 1 }

theorem test_match_meets : arrivesB (linked tenant) ftMATCH_TOKEN (frame 1 []) = true ∧ arrivesB finding ftMATCH_REPLY (frame 1 []) = true ∧
    ((finding.hopTook 0 ftMATCH_REPLY (frameOf ftMATCH_REPLY (frame 1 []))).txn 9).map (·.typ) = some ftMATCH_TOKEN ∧
    finding.working = true ∧ finding.pelDue 0 = true ∧ (finding.work 0).isSome = true := by decide

/-- R340: the first of two segments is gathered. -/
theorem test_match_token : (after (.matchToken 0 (frame 1 (leBytes 2 0 ++ leBytes 2 0 ++ leBytes 4 2 ++ leBytes 2 0))) (linked tenant)).srch.pel.map
    (fun y => (y.src, y.segs, y.got.length)) = [(2, 2, 1)] := by decide

/-- Bank 31 of die 3, in use with one entry width and to take another. -/
def reshaping (width : Nat) : State :=
  let s := (((cascade 0).put SRCH.BANK_SELECT.DIE 3).put SRCH.BANK_SELECT.BANK 31).setReg SRCH.BANK_CTRL.off 0x31#32 0x1F03
  ((s.put SRCH.BANK_STATUS.WIDTH width 0x1F03).put SRCH.BANK_STATUS.WIDTH 1 0x1E03)

def entry : Entry :=
  { addr := 0, width := 1, units := [], ns := 0, sid := 0, block := 0, stroke := 0, key := zeros 32, tokens := none, low := false,
    pend := some (5, 0) }

theorem test_reshape_meets : let s := reshaping 1
    s.working = true ∧ s.canonical = true ∧ s.writable = true ∧ s.serving = true ∧ (s.reg SRCH.BANK_SELECT.off).toNat = 0x1F03 ∧ s.dom 19 ≠ domOFF ∧
    fieldGet (s.reg SRCH.BANK_CTRL.off 0x1F03) 0 2 ≠ 0 ∧ fieldGet (s.reg SRCH.BANK_CTRL.off 0x1F03) 4 2 ≠ 0 ∧ s.phase = phRELEASED ∧
    s.reshapeCause (instBank 0x1F03) = 0 ∧ (reshaping 2).reshapeCause (instBank 0x1F03) ≠ 0 ∧
    (reshaping 2).srch.reshape.any (·.1 = instBank 0x1F03) = false := by decide

/-- Bank 127 being drained, and an entry whose tokens are away. -/
def draining : State :=
  ((cascade 0).put SRCH.BANK_STATUS.STATE 1 (bankInst 127)).setSrch fun x => { x with reshape := [(127, 3)], entries := [entry] }

theorem test_drain_meets : draining.srch.reshape.find? (·.1 = 127) = some (127, 3) ∧ draining.halted = false ∧
    draining.get SRCH.BANK_STATUS.STATE (bankInst 127) = 1 ∧ (draining.srch.entries.filter fun e => e.addr / 2 ^ 14 = 127) = [] ∧
    (draining.srch.entries.find? (·.addr = 0)).map (·.tokens) = some none ∧ draining.flash.chains = [] := by decide

/-- R252: the hottest die is shown. -/
theorem test_brake : (after (.brakeSample [20, 30, -5, 25]) (cascade 0)).get SRCH.BRAKE_STATUS.HOTTEST_C = 30 := by decide

/-- Constant set 7 selected, of rank 32 and width 64 in one layer, with an area of `mib` MiB, used by class 63 or not. -/
def constants (mib : Nat) (inUse : Bool) : State :=
  let s := ((((inPhase 3).put CMPR.CONST_SELECT.SET 7).put CMPR.CONST_SHAPE.SET_RANK 32 7).put CMPR.CONST_SHAPE.SET_WIDTH_DIV32 2 7).put
    CMPR.CONST_LAYERS.SET_LAYERS 1 7
  let s := s.put CMPR.CONST_AREA.MIB mib
  if inUse then ((s.put CMPR.CLASS_STATUS.DEFINED 1 63).put CMPR.CLASS_FORMAT.LATENT 1 63).put CMPR.CLASS_LATENT.CONST_SET 7 63 else s

theorem test_constants_meet : let s := constants 1 false
    s.canonical = true ∧ s.writable = true ∧ s.serving = true ∧ (s.reg CMPR.CONST_SELECT.off).toNat = 7 ∧ s.gear.loading = none ∧ s.constUsers 7 = 0 ∧
    (constants 1 true).constUsers 7 ≠ 0 ∧ s.constShapeOk 7 = true ∧ s.constMib 7 ≤ s.constFree ∧ (constants 0 false).constFree < (constants 0 false).constMib 7 ∧
    (s.put CMPR.CONST_SHAPE.SET_RANK 33 7).constShapeOk 7 = false ∧ (s.setGear fun g => { g with loading := some 7 }).gear.loading ≠ none ∧
    s.working = true ∧ constBad 2 [0#8, 0#8] = false ∧ constBad 2 [0#8, 0xFF#8] = true := by decide

/-- R264: a load in use fails with cause 5; an accepted one is LOADING. -/
theorem test_const_load : (after .constLoad (constants 1 true)).get CMPR.CONST_STATUS.FAIL_CAUSE 7 = 5 ∧
    (after .constLoad (constants 1 false)).gear.loading = some 7 := by decide

/-- Slot 7 ACTIVE with a design of hook 0 and one frame, and one open call. -/
def hooked : State :=
  let s := (geared.setSlotState 7 1).setReg GEAR.SLOT_IDENT.off 0x101#32 7
  { s.setGear (fun g => { g with calls := [⟨7, 0, 4095, 0, 0, 0, [], false⟩] }) with
    img := { s.img with designs := [(7, [(0, zeros 4)])] } }

theorem test_slots_meet : hooked.working = true ∧ hooked.canonical = true ∧ hooked.slotDrives 7 = true ∧ hooked.implements 7 0 = true ∧
    hooked.implements 7 1 = false ∧ hooked.openCall 7 0 (4094 % 4096) = none ∧ (hooked.openCall 7 0 (4095 % 4096)).isSome = true ∧
    (hooked.slotFrames 7).length = 1 ∧ (hooked.put IMG.LOAD_STATE.STATE ldAPPLYING).load = ldAPPLYING ∧ hooked.load ≠ ldAPPLYING ∧
    hooked.nextReadback = none ∧ (hooked.setGear fun g => { g with readback := [(7, 0)] }).nextReadback = some (7, 0) ∧
    (hooked.put GEAR.SCRUB_CTRL.ENABLE 1).flag GEAR.SCRUB_CTRL.ENABLE = true ∧ hooked.scrubAt.isSome = true := by decide

/-- R313: a call past its time fails the slot with cause 1; R320: FAULT with cause 4. -/
theorem test_slot_fails : (after (.hookLatencyTimeout 7 0 4095) hooked).slotState 7 = 6 ∧ (after (.slotFaultAssert 7) hooked).slotState 7 = 6 := by decide

theorem test_window_meets : geared.get CLK.DOMAIN_STATUS.STATE 20 ≠ 2 ∧ geared.windowOn (geared.get GEAR.SLOT_SELECT.SLOT) = true ∧
    ((geared.put GEAR.SLOT_SELECT.SLOT 3).windowOn 3 = true) ∧ (geared.put GEAR.SLOT_SELECT.SLOT 1).windowOn 1 = false ∧
    (geared.reg GEAR.TENANT_SELECT.off).toNat = 0 ∧ (∀ h < 4, fieldGet (0xF7F0#32 : Word) (4 * h) 4 < 8 ∨ fieldGet (0xF7F0#32 : Word) (4 * h) 4 = 15) ∧
    fieldGet (0x8FFF#32 : Word) (4 * 3) 4 ≠ fieldGet (geared.reg GEAR.TENANT_BIND.off 0) (4 * 3) 4 ∧ 8 ≤ fieldGet (0xEFFF#32 : Word) (4 * 3) 4 ∧
    fieldGet (0xEFFF#32 : Word) (4 * 3) 4 ≤ 14 := by decide

/-- R316: a window write to a slot that is EMPTY is refused. -/
theorem test_window_refused : (after (.slotWindow 0 (some 1#32) 0#32) (geared.put GEAR.SLOT_SELECT.SLOT 1)).get ROLE.ILLEGAL_COUNT.COUNT = 1 := by decide

/-! ### The Spoke and the peloton (chapter 14) -/

theorem test_hops_meet : let s := linked tenant
    s.working = true ∧ s.ringPort 0 = true ∧ s.linkUp 0 = true ∧ sequenced ftBEAT = true ∧ (frame 1 []).linkSeq = ((s.takeAck 0 (frame 1 [])).hop 0).got + 1 ∧
    (frame 2 []).linkSeq ≠ ((s.takeAck 0 (frame 2 [])).hop 0).got + 1 ∧ (frame 1 []).src ≠ (s.hopTook 0 ftBEAT (frame 1 [])).me ∧
    { frame 1 [] with dst := 5, hops := 1 }.dst ≠ (s.hopTook 0 ftBEAT { frame 1 [] with dst := 5, hops := 1 }).me ∧
    frameTypes.contains 0xFF = false ∧ frameTypes.contains ftBEAT = true ∧ (s.hop 0).replay = [] ∧
    ((s.setHop { freshHop 0 with replay := [frame 1 []] }).hop 0).replay ≠ [] := by decide

/-- R329: a frame out of order is answered with a NAK and not taken. -/
theorem test_out_of_order : ((after (.beatCmd 0 (frame 2 [])) (linked tenant)).hop 0).got = 0 ∧
    ((after (.beatCmd 0 (frame 1 [])) (linked tenant)).hop 0).got = 1 := by decide

/-- A card joining at Stroke `n`, and a member, of a peloton whose pacer is member 2. -/
def joining (n : Nat) : State :=
  let s := ((linked tenant).put SPOKE.MEMBER_STATUS.STATE 1).put SPOKE.MEMBER_STATUS.PACER 2
  { s.setChain (fun c => { c with takeCount := true, joinAt := some 0 }) with stroke := n }

def joined (n : Nat) : State := { (joining 0).put SPOKE.MEMBER_STATUS.STATE 2 with stroke := n }

theorem test_membership_meets : arrivesB (joined 0) ftBEAT (frame 1 []) = true ∧ (frame 1 []).b 0 4 = ((joined 0).reg SPOKE.PELOTON_ID.off).toNat ∧
    ((joined 0).hopTook 0 ftBEAT (frameOf ftBEAT (frame 1 []))).isMember = true ∧
    ((joining 0).hopTook 0 ftBEAT (frameOf ftBEAT (frame 1 []))).isMember = false ∧ arrivesB (joining 0) ftMARK (frame 1 []) = true ∧
    ((joining 0).hopTook 0 ftMARK (frameOf ftMARK (frame 1 []))).memberState = 1 ∧
    ((joining 0).hopTook 0 ftMARK (frameOf ftMARK (frame 1 []))).chain.takeCount = true ∧
    (frame 1 []).src = ((joined 1024).hopTook 0 ftMARK (frameOf ftMARK (frame 1 []))).get SPOKE.MEMBER_STATUS.PACER ∧
    ((joined 1024).hopTook 0 ftMARK (frameOf ftMARK (frame 1 []))).stroke ≤ (frame 1 []).b 0 6 + 1024 ∧
    (frame 1 []).b 0 6 + 1024 < ((joined 1025).hopTook 0 ftMARK (frameOf ftMARK (frame 1 []))).stroke := by decide

theorem test_member_waits_meet : (joined (2 ^ 32)).markDue = true ∧ (joined 0).markDue = false ∧
    ((joined (2 ^ 32)).setReg SPOKE.ROSTER.off 4#32).rosterDue 2 = true ∧ (joined 0).rosterDue 31 = false ∧
    (joining 250000).joinDue = true ∧ (joining 249999).joinDue = false ∧ (joining 0).canonical = true ∧ (joined 128).memberState = 2 ∧
    (joined 128).stroke % 128 = 0 ∧ (joined 128).chain.lastBeat ≠ some 128 ∧ (joined 1024).stroke % 1024 = 0 ∧
    (joined 1024).chain.lastHello ≠ some 1024 ∧ (joined 127).stroke % 128 ≠ 0 := by decide

theorem test_join_meets : (inPhase 3).canonical = true ∧ (inPhase 3).writable = true ∧ (inPhase 3).phase = phCONFIGURE ∧ (inPhase 3).memberState = 0 ∧
    ((inPhase 3).put SPOKE.MEMBER_STATUS.STATE 3).memberState = 3 ∧ ((inPhase 3).put SPOKE.MEMBER_STATUS.STATE 4).memberState = 4 ∧
    (joined 0).serving = true := by decide

/-- R335: the join runs out after 2 s, with cause 1. -/
theorem test_join_timeout : (after .joinTimeout (joining 250000)).memberState = 3 ∧
    (after .joinTimeout (joining 250000)).get SPOKE.MEMBER_STATUS.CAUSE = 1 := by decide

/-- The card with one transaction of a kind open for work 0, since Stroke 0. -/
def asked (typ : Nat) (again : Bool) (n : Nat) : State :=
  let s := (linked (withSeq seq0)).newWork (asPosted opRESHARD (reshardDesc 0 2 1)) |>.1
  let s := s.updWork 0 fun w => { w with phase := 1, aux := .resh { targets := [], opening := [(9, 2)], unplaced := [(9, 0, 2)] } }
  { s.setChain (fun c => { c with txns := [⟨9, typ, 2, 0, 0, again, []⟩], seen := [(2, 8, [])] }) with stroke := n }

/-- RESHARD_OPEN of sequence 0 for epoch 1, as Table 14-6 lays it out. -/
def openFrame (epoch : Nat) : Frame :=
  frame 1 (leBytes 4 seq0.sid ++ leBytes 2 1 ++ leBytes 4 epoch ++ leBytes 4 0 ++ leBytes 2 2 ++ [0#8, 0#8])

theorem test_reshard_meets : let s := linked ((withSeq seq0).put SPOKE.PEER_TENANT.LOCAL_TID 1 (2 + 1 * 2 ^ 16))
    let t (e : Nat) := s.hopTook 0 ftRESHARD_OPEN (frameOf ftRESHARD_OPEN (openFrame e))
    arrivesB s ftRESHARD_OPEN (openFrame 1) = true ∧ (t 1).openCause (openFrame 1) = (0, some (1, seq0)) ∧
    (t 2).openCause (openFrame 2) = (4, none) ∧ ((t 1).chain.seen.find? fun y => y.1 = 2 ∧ y.2.1 = 9) = none ∧
    ((asked ftPAGE_SEG false 0).chain.seen.find? fun y => y.1 = 2 ∧ y.2.1 = 8).isSome = true := by decide

theorem test_answer_meets : arrivesB (asked ftRESHARD_OPEN false 0) ftRESHARD_ANSWER (frame 1 [0#8]) = true ∧
    (((asked ftRESHARD_OPEN false 0).hopTook 0 ftRESHARD_ANSWER (frameOf ftRESHARD_ANSWER (frame 1 [0#8]))).txn 9).map (·.typ) = some ftRESHARD_OPEN ∧
    (frame 1 [0#8]).b 0 1 = 0 ∧ (frame 1 [4#8]).b 0 1 ≠ 0 := by decide

theorem test_segments_meet : let f (n : Nat) := frame 1 (zeros 15 ++ [BitVec.ofNat 8 n] ++ leBytes 2 256)
    let s := linked (withSeq seq0)
    arrivesB s ftPAGE_SEG (f 1) = true ∧ (f 1).b 14 1 = 0 ∧ (f 1).b 15 1 = 1 ∧ (f 1).b 16 2 * 64 ≤ 16384 ∧ 2 ≤ (f 2).b 15 1 ∧
    (s.hopTook 0 ftPAGE_SEG (frameOf ftPAGE_SEG (f 2))).chain.segs = [] := by decide

theorem test_placed_meets : let s := asked ftPAGE_SEG false 0
    let f := frame 1 (leBytes 4 9)
    arrivesB s ftPLACED f = true ∧ ((s.hopTook 0 ftPLACED (frameOf ftPLACED f)).txn (f.b 0 4)).map (·.typ) = some ftPAGE_SEG ∧
    ((s.hopTook 0 ftPLACED (frameOf ftPLACED f)).work 0).map (fun w => w.resh.unplaced.find? (·.1 = f.b 0 4)) = some (some (9, 0, 2)) ∧
    (s.hopTook 0 ftPLACED (frameOf ftPLACED f)).txn ((frame 1 (leBytes 4 8)).b 0 4) = none := by decide

theorem test_transaction_waits_meet : (asked ftPAGE_SEG true (2 ^ 32)).working = true ∧
    ((asked ftPAGE_SEG true (2 ^ 32)).txn 9).map (asked ftPAGE_SEG true (2 ^ 32)).txnDue = some true ∧
    ((asked ftRESHARD_OPEN false 0).txn 9).map (asked ftRESHARD_OPEN false 0).txnDue = some false ∧
    ((asked ftEPOCH_COMMIT true (2 ^ 32)).txn 9).map (·.again) = some true ∧ ((asked ftEPOCH_PREPARE false (2 ^ 32)).txn 9).map (·.again) = some false := by
  decide

/-- An ADVANCE to epoch 1 at Stroke 100, its members ready or not, at Stroke `n`. -/
def advancing (ready : List Nat) (n : Nat) : State :=
  let s := (asked ftEPOCH_PREPARE false n).newWork (asPosted opRESHARD (reshardDesc 2 1 1)) |>.1
  s.updWork 1 fun w => { w with phase := 1, aux := .adv { asked := [2], ready := ready, committed := false, acked := [] } }

theorem test_epoch_meets : let f := frame 1 (leBytes 2 1 ++ leBytes 4 1 ++ leBytes 6 100)
    let t := (asked ftEPOCH_PREPARE false 0).hopTook 0 ftEPOCH_PREPARE (frameOf ftEPOCH_PREPARE f)
    arrivesB (asked ftEPOCH_PREPARE false 0) ftEPOCH_PREPARE f = true ∧ (t.chain.seen.find? fun y => y.1 = f.src ∧ y.2.1 = f.xid) = none ∧
    t.tenState (f.b 0 2) ≠ 0 ∧ t.tenState ((frame 1 (leBytes 2 2)).b 0 2) = 0 ∧ arrivesB (asked ftEPOCH_PREPARE false 0) ftEPOCH_READY (frame 1 []) = true ∧
    (t.txn 9).map (·.typ) = some ftEPOCH_PREPARE ∧ t.txn 8 = none := by decide

theorem test_ready_deadline_meets : ((advancing [2] 98).work 1).map (fun w => (w.phase, w.isAdvance, w.adv.committed, w.allReady, rsSwitch w.d)) =
      some (1, true, false, true, 100) ∧ (advancing [2] 98).stroke + 2 ≤ 100 ∧ 100 ≤ (advancing [] 99).stroke + 1 ∧
    ((advancing [] 98).work 1).map (·.allReady) = some false ∧ (advancing [] 98).stroke + 1 < 100 := by decide

/-- R346: from Stroke X − 1 on the ADVANCE ends PARTIAL. -/
theorem test_not_ready : ((after (.advanceReadyDeadline 1) (advancing [] 99)).work 1).map (fun w => (w.status, w.detail)) = some (stPARTIAL, dtNOT_READY) ∧
    ((after (.advanceReadyDeadline 1) (advancing [] 98)).work 1).map (·.phase) = some 1 := by decide

/-- A plan of tenant 1's epoch 1, to switch at Stroke 100. -/
def planned (n : Nat) : State :=
  let s := asked ftEPOCH_COMMIT false n
  s.setPlan { s.plan_ 1 1 with switchAt := 100 }

theorem test_commit_meets : let f := frame 1 (leBytes 2 1 ++ leBytes 4 1)
    let t (n : Nat) := (planned n).hopTook 0 ftEPOCH_COMMIT (frameOf ftEPOCH_COMMIT f)
    arrivesB (planned 0) ftEPOCH_COMMIT f = true ∧ (t 0).epochOf (f.b 0 2) ≠ f.b 2 4 ∧ (t 99).stroke < ((t 99).plan_ 1 1).switchAt ∧
    ((t 100).plan_ 1 1).switchAt ≤ (t 100).stroke ∧ ((t 0).put SPOKE.TENANT_EPOCH.EPOCH 1 1).epochOf (f.b 0 2) = f.b 2 4 ∧
    arrivesB (planned 0) ftCOMMIT_ACK (frame 1 (zeros 7)) = true ∧ ((t 0).txn 9).map (·.typ) = some ftEPOCH_COMMIT := by decide

/-- R346: a COMMIT at the switch's own Stroke is late, and counted. -/
theorem test_late_commit : let f := frame 1 (leBytes 2 1 ++ leBytes 4 1)
    (after (.epochCommit 0 f) (planned 100)).get SPOKE.LATE_SWITCHES.COUNT = 1 ∧ (after (.epochCommit 0 f) (planned 99)).get SPOKE.LATE_SWITCHES.COUNT = 0 := by
  decide

/-- Pair 3 in a state, its two ports in one mode. -/
def paired (st mode : Nat) : State :=
  (((inPhase 4).put { SPOKE.FREEWHEEL_STATUS.STATE_i with lo := 6, w := 2 } st).put SPOKE.PORT_CTRL.MODE mode 6).put SPOKE.PORT_CTRL.MODE mode 7

theorem test_links_meet : let up := (paired 2 2).put SPOKE.PORT_STATUS.LINK_UP 1 7
    let held := (paired 2 2).setHop { freshHop 7 with held := some 0, member := some 31 }
    up.working = true ∧ up.linkUp 7 = true ∧ up.portMode 7 = 2 ∧ (paired 2 1).portMode 7 = 1 ∧ (paired 2 3).portMode 7 ≠ 1 ∧ (paired 2 3).portMode 7 ≠ 2 ∧
    (held.hop 7).held = some 0 ∧ held.linkUp 7 = false ∧ 0 + held.get SPOKE.LINK_HOLD.STROKES < ({ held with stroke := 2 ^ 32 } : State).stroke ∧
    (up.hop 7).held = none ∧ held.pairState (7 / 2) = 2 ∧ ((held.put SPOKE.PORT_STATUS.LINK_UP 1 7).hop 7).member = some 31 := by decide

theorem test_freewheels_meet : (paired 0 2).canonical = true ∧ (paired 0 2).writable = true ∧ (paired 0 2).serving = true ∧ (paired 0 2).pairState 3 = 0 ∧
    (paired 0 2).portMode (2 * 3) = (paired 0 2).portMode (2 * 3 + 1) ∧ (paired 0 2).portMode (2 * 3) ≠ 0 ∧ (paired 0 0).portMode (2 * 3) = 0 ∧
    (paired 2 2).pairState 3 = 2 ∧ (paired 1 2).pairState 3 = 1 ∧ (paired 3 2).pairState 3 = 3 := by decide

/-- R324: a pair opens through OPENING. -/
theorem test_freewheel : (after (.freewheelOpen 3) (paired 0 2)).pairState 3 = 1 ∧ (after (.freewheelSwitchDone 3) (paired 1 2)).pairState 3 = 2 ∧
    (after (.freewheelSwitchDone 3) (paired 3 2)).pairState 3 = 0 := by decide

/-! ### Remote access (chapter 15) -/

theorem test_moves_meet : let s := (inPhase 4).put RDMA.QP_SELECT.QP 16383
    let init := (((s.put RDMA.PD_CTRL.ENABLE 1 0).put SPOKE.PORT_CTRL.MODE 1 0))
    s.canonical = true ∧ s.writable = true ∧ s.serving = true ∧ (s.reg RDMA.QP_SELECT.off).toNat = 16383 ∧ moveAllowed (init.qpState 16383) qpINIT = true ∧
    init.moveFields 16383 (init.qpState 16383) qpINIT = true ∧ s.moveFields 16383 (s.qpState 16383) qpINIT = false ∧
    moveAllowed (s.qpState 16383) qpRTS = false ∧ moveAllowed 5 qpRESET = true := by decide

theorem test_regions_meet : let s := ((inPhase 4).put RDMA.REGION_SELECT.INDEX 0xFFFFF).setReg (RDMA.REGION_LENGTH_LO.off) 1#32 0xFFFFF
    (s.reg RDMA.REGION_SELECT.off).toNat = 0xFFFFF ∧ s.rgState 0xFFFFF = 0 ∧ (s.readEntry 0xFFFFF).entryOk 0xFFFFF = true ∧
    ((inPhase 4).readEntry 0).entryOk 0 = false ∧ (s.put RDMA.REGION_STATUS.STATE 1 0xFFFFF).rgState 0xFFFFF = 1 := by decide

/-- R353: a COMMIT of a VALID entry is refused. -/
theorem test_commit_refused : (after .commitCmd ((inPhase 4).put RDMA.REGION_STATUS.STATE 1 0)).get ROLE.ILLEGAL_COUNT.COUNT = 1 := by decide

/-- QP 5 on Ethernet port 1, its link up, in a state, with `paths` spray paths; HOST region 0 of 4 GiB at host address 0 takes writes and
flushes. -/
def remote (st paths : Nat) : State :=
  let s := (((inPhase 4).put SPOKE.PORT_CTRL.MODE 1 1).put SPOKE.PORT_STATUS.LINK_UP 1 1).put RDMA.QP_BIND.PORT 1 5
  let s := (s.put RDMA.QP_STATUS.STATE st 5).put RDMA.QP_PATH.SPRAY_PATHS paths 5
  let s := (s.setLive RDMA.REGION_KIND.off 0x300001#32 0).setLive RDMA.REGION_LENGTH_HI.off 1#32 0
  s.put RDMA.REGION_STATUS.STATE 1 0

/-- A packet to QP 5 with an opcode, a PSN and payload. -/
def toQp (op psn : Nat) (data : List Byte) : Packet :=
  { packet op psn with qpn := 0x105, rkey := (remote 3 0).cardKey 0, va := 4096, length := data.length, payload := data }

theorem test_responder_meets : (remote 3 0).packetFor 1 (toQp bthOnly 0 []) = (remote 3 0, some 5) ∧
    (remote 3 16).packetFor 1 (toQp bthSpray 0 []) = (remote 3 16, some 5) ∧ ((remote 3 0).packetFor 1 { toQp bthOnly 0 [] with srcIp := 1 }).2 = none ∧
    (remote 3 0).qpState 5 = qpRTS ∧ (remote 4 0).qpState 5 = qpSQD ∧ (remote 3 0).draining ((remote 3 0).pdOwner ((remote 3 0).qpPd 5)) = false ∧
    [bthFirst, bthMiddle, bthLast, bthOnly].contains bthSpray = false ∧ (remote 3 0).sprayPaths 5 = 0 ∧ 0 < (remote 3 16).sprayPaths 5 ∧
    (toQp bthOnly 0 []).psn = ((remote 3 0).qp 5).rqPsn ∧ before24 (2 ^ 24 - 1) ((remote 3 0).qp 5).rqPsn = true ∧
    before24 1 ((remote 3 0).qp 5).rqPsn = false := by decide

theorem test_host_region_meets : (remote 3 0).canonical = true ∧ ((remote 3 0).qp 5).inMsgs = [] ∧
    (remote 3 0).hostRegion 5 (toQp bthOnly 0 [1#8]).rkey 4096 1 0 false = some 0 ∧ (remote 3 0).hostRegion 5 (toQp bthOnly 0 []).rkey (2 ^ 32) 1 0 false = none ∧
    (remote 3 0).hostRegion 5 (toQp bthFlush 0 []).rkey 4096 0 1 false = some 0 ∧ (remote 3 0).rgCounter 0 = 0 ∧
    (toQp bthOnly 0 [1#8]).length = (toQp bthOnly 0 [1#8]).payload.length := by decide

/-- R362: a WRITE's payload lies where its region and address say. -/
theorem test_remote_write : (after (.rdmaWrite 1 (toQp bthOnly 0 [0xA5#8])) (remote 3 0)).memByte 4096 = 0xA5#8 := by decide +kernel

theorem test_spray_meets : let u := (remote 3 16).established 5
    before24 0 (u.qp 5).basePsn = false ∧ (u.qp 5).psns.contains 0 = false ∧
    1024 ≤ ((1024 : Nat) + 2 ^ 24 - ((remote 3 16).qp 5).cumMsn) % 2 ^ 24 ∧ before24 1024 ((remote 3 16).qp 5).cumMsn = false ∧
    (((remote 3 16).setQp { freshQp 5 with unacked := 1 }).qp 5).unacked ≠ 0 ∧ ((remote 3 16).qp 5).unacked = 0 := by decide

/-- QP 5 with one packet out, and one FLUSH that work 0 waits for. -/
def requester (st paths op tries : Nat) : State :=
  (remote st paths).setQp { freshQp 5 with out := [⟨7, 0, 0, tries, packet op 7⟩], tries := tries, flushOut := [(8, 0, 1)] }

theorem test_answers_meet : let s := requester 3 0 bthOnly 0
    s.packetFor 1 (toQp bthAck 7 []) = (s, some 5) ∧ s.takesAnswers 5 = true ∧ (requester 2 0 bthOnly 0).takesAnswers 5 = false ∧
    (s.qp 5).flushOut.any (·.1 = 8) = true ∧ (s.qp 5).flushOut.any (·.1 = 7) = false ∧ (s.qp 5).flushOut.find? (·.1 = 8) = some (8, 0, 1) ∧
    (s.qp 5).flushOut.find? (·.1 = 7) = none ∧ 0 < (requester 3 16 bthSpray 0).sprayPaths 5 := by decide

theorem test_retries_meet : let s := (requester 3 0 bthOnly 6).put RDMA.QP_RETRY.RETRY_COUNT 7 5
    let u := (requester 3 16 bthSpray 7).put RDMA.QP_RETRY.RETRY_COUNT 7 5
    ((s.qp 5).out.filter (fun o => s.sprayPaths 5 == 0 || o.pkt.opcode == bthFlush)) ≠ [] ∧ (s.qp 5).tries < s.get RDMA.QP_RETRY.RETRY_COUNT 5 ∧
    u.get RDMA.QP_RETRY.RETRY_COUNT 5 ≤ (u.qp 5).tries ∧ ((u.qp 5).out.filter (fun o => u.sprayPaths 5 == 0 || o.pkt.opcode == bthFlush)) = [] ∧
    ((u.qp 5).out.find? (fun o => o.psn = 7 ∧ o.pkt.opcode = bthSpray)).map (·.tries) = some 7 ∧ kvFind (u.qp 5).retired 0 = none ∧
    s.working = true ∧ s.qpState 5 ≠ qpRESET ∧ (freshQp 5).rate ≤ portRate := by decide

theorem test_paths_and_ports_meet : let s := (remote 3 16).setQp { freshQp 5 with retired := [(15, 1024)] }
    kvFind (s.qp 5).retired 15 = some 1024 ∧ ({ s with stroke := 1023 } : State).stroke < 1024 ∧ 1024 ≤ ({ s with stroke := 1024 } : State).stroke ∧
    s.etherPort 1 = true ∧ (s.put RDMA.PORT_CTRL.PFC_ON 1 1).flag RDMA.PORT_CTRL.PFC_ON 1 = true ∧ s.etherPort 0 = false ∧
    s.get RDMA.FEC_LIMIT.COUNT < 2 ^ 32 := by decide

/-- R371: the first CNP halves the rate; R367: a path comes back in its Stroke. -/
theorem test_rates : (((after (.cnp 1 (toQp bthCnp 0 [])) (remote 3 0)).qp 5).rate = 400000000) ∧
    ((after (.pathRestored 5 15) { (remote 3 16).setQp { freshQp 5 with retired := [(15, 1024)] } with stroke := 1024 }).qp 5).retired = [] := by decide

/-! ### The shared pool (chapter 16) -/

/-- Host slot 9 with HID 4,095, in a state. -/
def hosted (st : Nat) : State := ((inPhase 4).put POOL.HOST_STATUS.STATE st 9).setLive POOL.HOST_CTRL.off 0x80000FFF#32 9

/-- The same with one line of the directory, in a state and with holders, and its snoop under way. -/
def lined (st : Nat) (holders : List Nat) (snooped : Bool) : State :=
  (hosted 1).setPool fun x => { x with dir := [⟨3, st, holders, 0⟩], snoops := if snooped then [⟨9, 3, 2, 0, 0⟩] else [] }

/-- That a directory set is full cannot be shown: which set a line takes is an opaque constant (log 17). -/
theorem test_lines_meet : (hosted 1).up = true ∧ (hosted 1).pw.cxlLink = true ∧ ((hosted 1).put SYS.BRINGUP_PHASE.PHASE 15).phase = phFAULT ∧
    (hosted 1).hostSlot 4095 = some 9 ∧ (hosted 1).hostSlot 4094 = none ∧ (hosted 1).pool.waiting = [] ∧ (hosted 1).dirEnt (lineOf 192) = none ∧
    (hosted 1).dirRoom (lineOf 192) = true ∧ ((lined 1 [9] false).dirEnt (lineOf 255)).map (·.holders) = some [9] ∧
    ((lined 2 [4] false).dirEnt (lineOf 192)).map (·.st) = some 2 ∧ (4 : Nat) ≠ 9 := by decide

theorem test_writeback_meets : (lined 2 [9] false).phase = phRELEASED ∧ (lined 2 [9] false).hostState 9 = 1 ∧ (hosted 2).hostState 9 = 2 ∧
    ((lined 2 [9] false).dirEnt (lineOf 192)).map (fun e => (e.st, e.holders)) = some (2, [9]) ∧
    ((lined 2 [9] true).pool.snoops.any fun y => y.line = lineOf 192 ∧ y.slot = 9) = true ∧
    ((lined 2 [9] false).pool.snoops.any fun y => y.line = lineOf 192 ∧ y.slot = 9) = false ∧
    ((lined 2 [9] true).pool.snoops.find? fun y => y.slot = 9 ∧ y.line = lineOf 192).map (·.who) = some 0 ∧
    0 + (lined 2 [9] true).get POOL.BI_TIMEOUT.STROKES < ({ lined 2 [9] true with stroke := 2 ^ 17 } : State).stroke := by decide

/-- R391: a host that misses a snoop's time is FAILED; R400: in FAULT a request is answered with poison. -/
theorem test_bi_timeout : (after (.biTimeout 9 192) { lined 2 [9] true with stroke := 2 ^ 17 }).hostState 9 = 3 ∧
    (after (.biTimeout 9 192) (lined 2 [9] true)).hostState 9 = 1 ∧
    (after (.cxlReadNocache ⟨4095, .plain⟩ 0 0) ((hosted 1).put SYS.BRINGUP_PHASE.PHASE 15)).get POOL.POISONED_RESPONSES.COUNT = 1 := by decide

/-- Pool region 255 selected, FREE, of 1 GiB on stack 0, with 16 GiB carved out. -/
def poolFree : State :=
  (((((inPhase 3).put TIER.LOG_SCAN_CTRL.START 1).put POOL.REGION_SELECT.REGION 255).put POOL.REGION_SIZE.GIB 1 255).put POOL.REGION_DEF.STACK_MASK 1 255).put POOL.CARVE_DRAM.GIB 16

def poolIn (st : Nat) : State := poolFree.put POOL.REGION_STATUS.STATE st 255

theorem test_pool_regions_meet : poolFree.canonical = true ∧ poolFree.writable = true ∧ poolFree.serving = true ∧
    (poolFree.reg POOL.REGION_SELECT.off).toNat = 255 ∧ poolFree.poolState 255 = 0 ∧ poolFree.createCause 255 = 0 ∧
    (poolFree.put POOL.REGION_SIZE.GIB 0 255).createCause 255 = 1 ∧ (poolIn 1).poolState 255 = 1 ∧ (poolIn 1).hostsOn 255 = false ∧
    (poolIn 1).xferOn 255 = false ∧ (poolIn 1).poolFlash 255 = false ∧ ((poolIn 1).put POOL.REGION_DEF.TIER 1 255).poolFlash 255 = true ∧
    (poolIn 2).poolState 255 = 2 ∧ ((poolIn 2).put POOL.TANDEM_STATUS.PARTNER_LOST 1).flag POOL.TANDEM_STATUS.PARTNER_LOST = true ∧
    (poolIn 4).poolState 255 = 4 := by decide

theorem test_pool_hosts_meet : let s := ((hosted 2).put POOL.HOST_SELECT.SLOT 63).put POOL.HOST_CTRL.ENABLE 1 9 |>.put POOL.HOST_CTRL.HID 4095 9
    (s.reg POOL.HOST_SELECT.off).toNat = 63 ∧
    (∀ n < 64, n ≠ 63 → s.flag POOL.HOST_CTRL.ENABLE n = true → s.get POOL.HOST_CTRL.HID n ≠ fieldGet (0x80000FFE#32 : Word) 0 12) ∧
    s.get POOL.HOST_CTRL.HID 9 = fieldGet (0x80000FFF#32 : Word) 0 12 ∧ s.hostState 9 = 2 ∧ (s.pool.snoops.any fun y => y.slot = 9) = false ∧
    ({ s.setPool fun x => { x with releasing := [(9, 255, 0, 3)] } with stroke := 2 ^ 17 } : State).releaseDue 9 255 = true ∧
    s.hostSlot 4095 = some 9 := by decide

/-- R378: DESTROY of an ACTIVE region, and its end. -/
theorem test_destroy : (after .destroy (poolIn 1)).poolState 255 = 4 ∧ (after (.destroyDone 255) (poolIn 4)).poolState 255 = 0 := by decide

/-- The Tandem card, partner member 2, SYNCING or not. -/
def tandem (st : Nat) : State :=
  ((((linked tenant).put SPOKE.TANDEM_PARTNER.ENABLE 1).put SPOKE.TANDEM_PARTNER.MEMBER 2).put POOL.REGION_STATUS.MIRROR_STATE st 0).setChain fun c =>
    { c with txns := [⟨9, ftMIRROR_WRITE, 2, 0, 0, false, []⟩], seen := [(2, 8, [])] }

theorem test_mirror_meets : arrivesB (tandem 0) ftMIRROR_WRITE (frame 1 []) = true ∧ (tandem 0).tandemOn = true ∧
    ((tandem 0).chain.seen.find? fun y => y.1 = 2 ∧ y.2.1 = 8).isSome = true ∧
    ((tandem 0).chain.seen.find? fun y => y.1 = 2 ∧ y.2.1 = 9) = none ∧ (linked tenant).tandemOn = false ∧
    arrivesB (tandem 0) ftMIRROR_ACK (frame 1 (leBytes 4 9)) = true ∧
    (((tandem 0).hopTook 0 ftMIRROR_ACK (frameOf ftMIRROR_ACK (frame 1 (leBytes 4 9)))).txn ((frame 1 (leBytes 4 9)).b 0 4)).map
      (fun x => (x.typ, x.member)) = some (ftMIRROR_WRITE, 2) ∧ (frame 1 (leBytes 4 9 ++ [1#8])).b 4 1 ≠ 0 := by decide

theorem test_tandem_meets : (tandem 2).canonical = true ∧ (tandem 2).writable = true ∧ (tandem 2).serving = true ∧
    (tandem 2).flag POOL.TANDEM_STATUS.SYNCING = false ∧ ((tandem 2).put POOL.TANDEM_STATUS.SYNCING 1).flag POOL.TANDEM_STATUS.SYNCING = true ∧
    (tandem 2).mirState 0 = 2 ∧ (tandem 1).mirState 0 ≠ 2 ∧ ((tandem 2).put POOL.KV_MIRROR.STATE 2 1023).get POOL.KV_MIRROR.STATE 1023 = 2 ∧
    (tandem 2).pool.resync = [] ∧ (tandem 2).pool.copying = [] ∧ (tandem 2).get POOL.TAKEOVER_STATUS.STATE ≠ 1 ∧
    ((tandem 2).put POOL.TAKEOVER_STATUS.STATE 1).get POOL.TAKEOVER_STATUS.STATE = 1 ∧ (tandem 2).pool.takeover = none ∧
    ((tandem 2).setPool fun x => { x with takeover := some (3, 2, 1) }).pool.takeover = some (3, 2, 1) ∧ (tandem 2).working = true := by decide

/-- R405: a takeover into a tenant that is FREE fails with cause 2. -/
theorem test_takeover : (after .takeoverKv ((tandem 0).put POOL.TAKEOVER_KV.TARGET_TID 2)).get POOL.TAKEOVER_STATUS.FAIL_CAUSE = 2 ∧
    (after .takeoverKv ((tandem 0).put POOL.TAKEOVER_KV.TARGET_TID 1)).get POOL.TAKEOVER_STATUS.STATE = 1 := by decide

/-! ### Partitions, tenants and keys (chapter 17) -/

/-- Partition 127 and tenant 1023 selected, the tenant in a state of partition `next`. -/
def tenanted (st next : Nat) : State :=
  ((((inPhase 4).put PART.PARTITION_SELECT.PARTITION 127).put PART.TENANT_SELECT.TID 1023).put PART.TENANT_STATUS.STATE st 1023).put
    PART.TENANT_PARTITION.NEXT next 1023

theorem test_tenants_meet : let s := tenanted 0 0
    s.canonical = true ∧ s.writable = true ∧ s.serving = true ∧ (s.reg PART.PARTITION_SELECT.off).toNat = 127 ∧
    (s.reg PART.TENANT_SELECT.off).toNat = 1023 ∧ s.partCreated 127 = false ∧ s.partCreated 0 = true ∧ s.tenState 1023 = 0 ∧
    s.partCreated (s.get PART.TENANT_PARTITION.NEXT 1023) = true ∧ (tenanted 0 127).partCreated 127 = false ∧
    (tenanted 1 0).tenState 1023 = 1 ∧ (tenanted 1 0).mayDestroy 1023 = true ∧ (tenanted 1 0).draining 1023 = false ∧
    ((tenanted 1 0).put FN.VF_BIND.TID 1023 1023).get FN.VF_BIND.TID 1023 = 1023 := by decide

/-- The same tenant draining since Stroke 0, at Stroke `n`. -/
def tenantDrain (n : Nat) : State := { tenanted 1 0 with part := { (tenanted 1 0).part with drains := [⟨1023, 0, false, false⟩] }, stroke := n }

theorem test_drain_expiry_meets : (tenantDrain 0).draining 1023 = true ∧
    (∃ d ∈ (tenantDrain (2 ^ 32)).part.drains, d.tid = 1023 ∧ d.since + (tenantDrain (2 ^ 32)).get PART.RESET_DRAIN.STROKES ≤ (tenantDrain (2 ^ 32)).stroke) ∧
    (∀ d ∈ (tenantDrain 0).part.drains, d.tid = 1023 → (tenantDrain 0).stroke < d.since + (tenantDrain 0).get PART.RESET_DRAIN.STROKES) := by decide

/-- R411: CREATE into a partition that does not exist is refused with cause 2; R427: RESET starts the drain. -/
theorem test_tenant_commands : (after .tenantCreate (tenanted 0 127)).get PART.TENANT_STATUS.REFUSE_CAUSE 1023 = 2 ∧
    (after .tenantReset (tenanted 1 0)).draining 1023 = true ∧ (after .partitionDestroy ((inPhase 4))).get ROLE.ILLEGAL_COUNT.COUNT = 1 := by decide

/-- A key of unequal halves, and one of equal ones. -/
def key : List Byte := (zeros 31 ++ [1#8]) ++ (zeros 31 ++ [2#8])

theorem test_keys_meet : (tenanted 1 0).tenState 1023 = 1 ∧ kvFind (tenanted 1 0).part.keys 1023 = none ∧ key.take 32 ≠ key.drop 32 ∧
    key.take 32 ≠ zeros 32 ∧ key.drop 32 ≠ zeros 32 ∧ (tenanted 1 0).keyNeeded 1023 = false ∧ (tenanted 1 0).keyData 1023 = zeros 64 := by decide

/-- R417: zeros are no key: the halves are equal. -/
theorem test_key_refused : (after .keyLoad (tenanted 1 0)).get PART.KEY_STATUS.REFUSE_CAUSE 1023 = 3 ∧
    (after .keyLoad (tenanted 0 0)).get PART.KEY_STATUS.REFUSE_CAUSE 1023 = 1 := by decide +kernel

/-! ### Clock domains (chapter 18) -/

/-- Domain `d` selected, in a state, with the control bits ISOLATE, RESET and XING_RESET as given. -/
def domain (p d st ctrl : Nat) : State :=
  (((inPhase p).put CLK.DOMAIN_SELECT.DOMAIN d).put CLK.DOMAIN_STATUS.STATE st d).setReg CLK.DOMAIN_CTRL.off (BitVec.ofNat 32 ctrl) d

theorem test_domains_meet : let s := domain 4 11 domRUNNING 0
    s.canonical = true ∧ s.writable = true ∧ s.living = true ∧ (s.reg CLK.DOMAIN_SELECT.off).toNat = 11 ∧ s.dom 11 = domRUNNING ∧ s.stopOk 11 = true ∧
    (domain 4 20 domRUNNING 0).stopOk 20 = true ∧ (domain 4 20 domOFF 0).dom 20 = domOFF ∧ (s.put SPOKE.PORT_CTRL.MODE 1 0).stopOk 11 = false ∧
    s.up = true ∧ (domain 4 18 domSTARTING 0).dom 18 = domSTARTING ∧ ((inPhase 4).put CLK.AUTO_GATE.FLASH 1).flag CLK.AUTO_GATE.FLASH = true ∧
    (inPhase 4).dom 10 = domRUNNING ∧ (inPhase 4).tier.ops = [] ∧ (inPhase 4).xingBusy 10 = false ∧
    ((inPhase 4).put CLK.XING_STATUS.IN_EMPTY 0 10).xingBusy 10 = true := by decide

/-- R441: the core's clock cannot be stopped, Spoke 0's can; R440: the flash clock is gated. -/
theorem test_stop : (after .domainStop (domain 4 11 domRUNNING 0)).dom 11 = domOFF ∧ (after .domainStop (domain 4 10 domRUNNING 0)).dom 10 = domRUNNING ∧
    (after .flashGate ((inPhase 4).put CLK.AUTO_GATE.FLASH 1)).dom 10 = domGATED := by decide

theorem test_isolation_meets : let s := domain 15 10 domISOLATED 4
    s.canonical = true ∧ s.writable = true ∧ s.phase = phFAULT ∧ (s.reg CLK.DOMAIN_SELECT.off).toNat = 10 ∧ s.resetOk 10 = true ∧ s.dom 10 ≠ domOFF ∧
    fieldGet (s.reg CLK.DOMAIN_CTRL.off 10) 2 1 = 1 ∧ fieldGet (s.reg CLK.DOMAIN_CTRL.off 10) 3 1 = 0 ∧ fieldGet (s.reg CLK.DOMAIN_CTRL.off 10) 4 1 = 0 ∧
    (domain 4 20 domRUNNING 0).dom 20 = domRUNNING ∧ fieldGet ((domain 4 20 domRUNNING 0).reg CLK.DOMAIN_CTRL.off 20) 2 1 = 0 ∧
    (domain 4 10 domISOLATED 4).resetOk 10 = false ∧ fieldGet ((domain 4 20 domIN_RESET 12).reg CLK.DOMAIN_CTRL.off 20) 3 1 = 1 ∧
    fieldGet ((domain 4 20 domISOLATED 20).reg CLK.DOMAIN_CTRL.off 20) 4 1 = 1 := by decide

/-- R445: a crossing reset that drops data marks the crossing. -/
theorem test_crossing_reset : let s := (domain 4 20 domISOLATED 4).put CLK.XING_STATUS.IN_EMPTY 0 20
    (after (.xingReset true) s).xingBusy 20 = false ∧ bits ((after (.xingReset true) s).reg CLK.XING_DIRTY.off).toNat 20 1 = 1 := by decide

/-! ### Watchdogs (chapter 19) -/

/-- The core's unit runs over tasks 0 and 1, 10 ticks long, its count at `n`; the host's likewise. -/
def watched (n : Nat) : State :=
  let s := (((inPhase 4).put WDOG.SYS_STATUS.COUNT n).put WDOG.HOST_COUNT.COUNT n)
  { s with wd := { s.wd with sys := ⟨true, 10, 3, false, false⟩, host := ⟨true, 10, 1, false, false⟩ } }

theorem test_check_ins_meet : (watched 9).up = true ∧ (watched 9).scanOpen = false ∧ (watched 9).wd.sys.running = true ∧
    bits (watched 9).wd.sys.mask 1 1 = 1 ∧ bits (watched 9).wd.sys.mask 7 1 = 0 ∧ (watched 9).get WDOG.SYS_STATUS.COUNT = 9 ∧
    (watched 9).wd.sys.period ≤ (watched 9).get WDOG.SYS_STATUS.COUNT + 1 ∧ (watched 9).sysMissing ≠ 0 ∧
    ((watched 9).put WDOG.SYS_TASKS.DONE 3).sysMissing = 0 ∧ (watched 9).canonical = true ∧ (watched 9).writable = true ∧ (watched 9).living = true ∧
    bits (watched 9).wd.host.mask 0 1 = 1 ∧ bits (watched 9).wd.host.mask 7 1 = 0 ∧ (watched 9).hostMissing ≠ 0 ∧
    (watched 10).get WDOG.SYS_STATUS.COUNT = 10 := by decide

/-- The last tick of a unit lies in every window that R451 allows, and the tick after it in none. -/
theorem test_window_meets_edges : (10 - max 1 (10 / 2 ^ Config.windowLog2) ≤ 9 ∧ 9 < 10) ∧ ¬ (10 - max 1 (10 / 2 ^ Config.windowLog2) ≤ 10 ∧ 10 < 10) := by
  generalize 10 / 2 ^ Config.windowLog2 = w
  omega

/-- R449: a unit that ends with a task missing expires. -/
theorem test_unit_timeout : (after (.watchdogTimeout false) (watched 9)).phase = phFAULT ∧ (after (.watchdogTimeout false) (watched 8)).phase = phRELEASED := by
  decide +kernel

/-- The host's watchdog off with task 0 named, and the first key written in Stroke 0. -/
def keyed (n : Nat) : State :=
  { (inPhase 4).put WDOG.HOST_TASKS.MASK 1 with wd := { (inPhase 4).wd with key1 := some 0 }, stroke := n }

theorem test_host_switch_meets : (keyed 1).canonical = true ∧ (keyed 1).pf0 = true ∧ (keyed 1).flag ROLE.AUDIT_POLICY.STRICT = false ∧
    (keyed 1).living = true ∧ (keyed 1).flag WDOG.POLICY.LOCK = false ∧ (keyed 1).wd.key1 = some 0 ∧ (keyed 1).stroke ≤ 0 + 1 ∧
    0 + 1 < (keyed 2).stroke ∧ fieldGet (0xA28F#32 : Word) 0 16 = 0xA28F ∧ fieldGet (0x5D70#32 : Word) 0 16 = 0x5D70 ∧
    ((keyed 0).put WDOG.POLICY.LOCK 1).flag WDOG.POLICY.LOCK = true ∧ (inPhase 4).wd.key1 = none ∧ (keyed 0).serving = true ∧
    (keyed 0).get WDOG.HOST_TASKS.MASK ≠ 0 ∧ (keyed 0).flag WDOG.HOST_CTRL.ENABLE = false ∧ ((inPhase 4).put WDOG.HOST_TASKS.MASK 0).get WDOG.HOST_TASKS.MASK = 0 ∧
    ((keyed 0).put WDOG.HOST_CTRL.ENABLE 1).flag WDOG.HOST_CTRL.ENABLE = true := by decide

/-- R455: the second key one Stroke late is refused. -/
theorem test_keys : (after (.hostDisable 0xA28F#32) (keyed 1)).get ROLE.ILLEGAL_COUNT.COUNT = 0 ∧
    (after (.hostDisable 0xA28F#32) (keyed 2)).get ROLE.ILLEGAL_COUNT.COUNT = 1 ∧ (after .hostEnable ((inPhase 4).put WDOG.HOST_TASKS.MASK 0)).get ROLE.ILLEGAL_COUNT.COUNT = 1 := by
  decide

/-- The card in FAULT after an expiry, with `n` ticks of grace, or `n` of the power-down's limit. -/
def graced (n : Nat) : State :=
  let s := inPhase 15
  { s with wd := { s.wd with hdr := some ⟨1, 1, 0xFF, 1, 4, 0, 0, 0⟩, grace := some n } }

def limited (n : Nat) : State := { graced n with wd := { (graced n).wd with grace := none, qlimit := some n } }

theorem test_expiry_meets : (inPhase 4).canonical = true ∧ (inPhase 4).pw.held = false ∧ (inPhase 4).wd.hdr = none ∧ (inPhase 4).up = true ∧
    (inPhase 4).scanOpen = false ∧ (inPhase 4).get CLK.DOMAIN_STATUS.STATE 21 = domRUNNING ∧ (inPhase 4).get CLK.DOMAIN_STATUS.STATE 11 ≠ domRUNNING ∧
    (inPhase 4).flag WDOG.CLOCK_STATUS.XTAL_FAIL = false ∧ ((inPhase 4).put WDOG.CLOCK_STATUS.XTAL_FAIL 1).flag WDOG.CLOCK_STATUS.XTAL_FAIL = true ∧
    (graced 1).wd.grace = some 1 ∧ (graced 1).wd.coreStop = false ∧ (limited 1).wd.qlimit = some 1 ∧ (graced 1).crashBase = 0 ∧
    ((graced 1).setReg WDOG.CRASH_BASE_LO.off 0x10000#32).crashBase ≠ 0 := by decide

/-- R462, R466: the end of grace resets the card. -/
theorem test_grace : (after .graceExpiry (graced 1)).pw.held = true ∧ (after .graceExpiry (graced 1)).pw.causes = 16 ∧
    (after .graceExpiry (graced 2)).pw.held = false := by decide

/-! ### Faults, observation and the physical card (chapters 20 and 22) -/

/-- Every stack trained, those of `failed` lost. -/
def stacked (failed : Nat) : State := ((inPhase 4).put SYS.DRAM_STATUS.TRAINED 0xFF).put ERR.STACK_STATUS.FAILED failed

theorem test_stacks_meet : (stacked 0).working = true ∧ bits ((stacked 0).get SYS.DRAM_STATUS.TRAINED) 7 1 = 1 ∧
    bits ((stacked 0).get ERR.STACK_STATUS.FAILED) 7 1 = 0 ∧ (stacked 0).err.rebuilding = [] ∧ (stacked 0xBF).stacksLost = 7 ∧
    (stacked 0x3F).stacksLost ≤ 6 ∧ bits ((inPhase 4).get SYS.DRAM_STATUS.TRAINED) 0 1 = 0 ∧ (stacked 0).work 0 = none ∧
    ((running opPIN).work 0).map (fun w => w.run.map (·.idx)) = some [0] ∧ (stacked 0).get ERR.UNIT_RETIRED.LANES < 4 ∧
    4 ≤ ((stacked 0).put ERR.UNIT_RETIRED.LANES 4).get ERR.UNIT_RETIRED.LANES := by decide

/-- R471, R472: the loss that leaves one stack enters FAULT; the one before does not. -/
theorem test_stack_loss : (after (.stackFailure 7) (stacked 0x3F)).phase = phFAULT ∧ (after (.stackFailure 7) (stacked 0x1F)).phase = phRELEASED := by
  decide +kernel

/-- The observation window in a mode. -/
def observing (m : ObsMode) : State := (inPhase 4).setObs m

theorem test_observation_meets : (observing .closed).canonical = true ∧ (observing .closed).writable = true ∧ (observing .closed).living = true ∧
    (observing .closed).err.obs = .closed ∧ (observing .closed).err.obsEatStart = false ∧ (observing .pendingStart).err.obs = .pendingStart ∧
    (observing (.open none)).err.obs = .open none ∧ (observing (.armed 3 5)).err.obs ≠ .closed ∧
    max ((inPhase 4).pair ERR.OBS_START_LO.off) ((inPhase 4).stroke + 1) < ((inPhase 4).setReg ERR.OBS_END_LO.off 2#32).pair ERR.OBS_END_LO.off ∧
    ((inPhase 4).setReg ERR.OBS_END_LO.off 1#32).pair ERR.OBS_END_LO.off ≤ max ((inPhase 4).pair ERR.OBS_START_LO.off) ((inPhase 4).stroke + 1) := by decide

/-- R479: START asks for a window, ARM of a range in the past counts an empty one. -/
theorem test_observe : (after .obsStart (inPhase 4)).err.obs = .pendingStart ∧ (after .obsArm (inPhase 4)).err.obs = .closed := by decide

/-- Every sensor hot trips every group of Table 22-9, none trips none. -/
theorem test_sensors_meet : tripBits [] = 0 ∧ (List.range 7).all (fun g => tripBits (List.replicate 64 (200 : Int)) / 2 ^ g % 2 == if g = 0 then 0 else 1) = true ∧
    State.reset.pw.trip = 0 ∧ State.reset.up = true ∧ inReset.up = false ∧ smbusMay SYS.IDENTITY.off = true ∧ smbusMay 0x10000 = false := by decide

/-- R501: a trip puts the card into FAULT; R515: SET_OFFSET keeps 24 bits, TELEMETRY sends 32 bytes. -/
theorem test_trip : (after (.thermalSample (List.replicate 64 200) [12000, 12000] [0, 0]) (inPhase 4)).phase = phFAULT ∧
    (after (.setOffset 0xFFFFFF) (inPhase 4)).pw.smOffset = 0xFFFFFF ∧ (inPhase 4).telemetry.length = 32 := by decide

/-! ### Witnesses for the clauses on forms, boundaries and free values -/

theorem test_region_holds_meet : let i := scanned
    (i.put TIER.REGION_INFO.SCRUB_MARKED 1 0).flag TIER.REGION_INFO.SCRUB_MARKED 0 = true ∧ i.flag TIER.REGION_INFO.SCRUB_MARKED 0 = false ∧
    (i.put TIER.REGION_INFO.STANDBY 1 0).flag TIER.REGION_INFO.STANDBY 0 = true ∧ i.flag TIER.REGION_INFO.STANDBY 0 = false ∧
    i.straysBy 1280 3 0 = false ∧ i.straysBy 0 3 0 = true ∧ i.straysBy 0 1 0 = false ∧ i.straysBy 0 1 5 = true := by decide

/-- R65: a hold of a region marked for a scrub is refused. -/
theorem test_marked_hold : (after .regionHold (scanned.put TIER.REGION_INFO.SCRUB_MARKED 1 0)).get ROLE.ILLEGAL_COUNT.COUNT = 1 ∧
    (after .regionHold scanned).get ROLE.ILLEGAL_COUNT.COUNT = 0 := by decide +kernel

/-- A READ_PAGES of one page admitted in Stroke 1, with its partition's balance. -/
def starting (dram : Nat) : State :=
  let s := (withSeq seq0).newWork (desc opREAD sid0 (leBytes 4 0 ++ leBytes 4 1 ++ leBytes 2 0 ++ leBytes 2 1)) |>.1
  let s := s.updWork 0 fun w => { w with phase := 1 }
  let r : Res6 := { Res6.zero with dram := dram }
  { s with bnd := { s.bnd with bal := [⟨0, r, Res6.zero, 0, 0⟩], capLeft := { Res6.zero with dram := 64 } } }

theorem test_chunk_starts_meets : let s := starting 16
    ((s.work 0).map fun w => (s.mayStart w, match s.decide_ w with
      | .go _ draw _ _ _ => (draw.le (s.available (s.partOf w.d.tid)), draw.le ((starting 15).available (s.partOf w.d.tid)))
      | _ => (false, true))) = some (true, true, false) := by decide +kernel

theorem test_no_turn_meets : (inPhase 4).working = true ∧ ∀ p < 128, (inPhase 4).turnOf .tier p = (inPhase 4, false) := by
  refine ⟨by decide, fun p _ => ?_⟩
  have h : ((inPhase 4).serviceOrder p fun w => unitOf w.d.opcode == some .tier) = [] := by
    simp [State.serviceOrder, show (inPhase 4).wk.works = [] from rfl, inOrder]
  simp [State.turnOf, h, State.tryAll]

theorem test_run_open_meets : ((running opPIN).work 0).map (fun w => w.run.map ((running opPIN).runOpen w)) = some [false] ∧
    (((running opPIN).setSrch fun x => { x with casc := [⟨0, 0, 0, 0, 0, false, word⟩] }).work 0).map (fun w => w.run.map
      (((running opPIN).setSrch fun x => { x with casc := [⟨0, 0, 0, 0, 0, false, word⟩] }).runOpen w)) = some [true] := by decide

/-- A session in STRICT mode whose ring has no room. -/
def strict : State := ((session.put ROLE.AUDIT_POLICY.STRICT 1).put ROLE.AUDIT_CTRL.ENABLE 1).put ROLE.AUDIT_CTRL.ENTRIES_LOG2 8

theorem test_strict_meets : let s : State := { strict with role := { strict.role with held := List.replicate 64 [] } }
    s.flag ROLE.AUDIT_POLICY.STRICT = true ∧ s.auditFull = true ∧ strict.auditFull = false ∧ s.flag ROLE.MAKER_STATUS.SESSION = true ∧
    s.pf0 = true ∧ s.wd.key1 = none ∧ (findReg SYS.STROKE_PERIOD.off).isSome = true ∧ s.offDomain SYS.STROKE_PERIOD.off = false ∧ s.canonical = true ∧
    bits 4 2 1 = 1 ∧ bits 1 2 1 = 0 ∧ (inPhase 2).role.nonce = none := by decide

theorem test_reads_meet : (inPhase 4).pf0 = true ∧ 2 % 4 ≠ 0 ∧ msixSpace 2 = false ∧ (findReg 0xEF0000).isNone = true ∧ msixSpace 0xEF0000 = false := by decide

/-- R90: a read of BAR2 is 0; R112: a misaligned read of BAR0 is 0 and counted. -/
theorem test_reads : (after (.countLoRead 1 ⟨0, 4⟩) (inPhase 4)).out = [.readReturn 1 0 0#32] ∧
    (after (.countLoRead 0 ⟨2, 4⟩) (inPhase 4)).get ROLE.ILLEGAL_COUNT.COUNT = 1 := by decide

/-- R42: a descriptor latched in Stroke 1 is not admitted in Stroke 1. -/
theorem test_not_yet : ((tenant.newWork (asPosted opNOP (desc opNOP 0 []))).1.findFetched (asPosted opNOP (desc opNOP 0 []))).map (·.fetched) = some 1 ∧
    (after (.nop (desc opNOP 0 [])) (tenant.newWork (asPosted opNOP (desc opNOP 0 []))).1).wk.latched = [] := by decide

theorem test_run_close_meets : (withSeq seq0).seqIdx 0 = some seq0 := by decide

theorem test_attn_bias_meets : let s := fetched (attending 1) opATTN (attnDesc 0)
    let c := (s.enter 0).classDef 0
    ((s.enter 0).readExt (asPosted opATTN (attnDesc 0)) c).isSome = true ∧
    (List.range (queryBytes (attnDesc 0) c / 2)).all (fun i => !bf16Bad (leAt ((s.enter 0).memRead (atQuery (attnDesc 0))
      (queryBytes (attnDesc 0) c)) (2 * i) 2)) = true ∧ ([] : List Word).any biasBad = false ∧ fp32Nan 0x7FC00000#32 = true ∧ biasBad 0x7F800000#32 = true := by
  decide +kernel

/-- A page with a leaf, its tables present, and one shared by a record. -/
def tabled (shared : Bool) : State :=
  tenant.setSq fun x =>
    { x with
      seqs := [seq0], leaves := [⟨0, 0, 7, true⟩], pages := [{ page 3 with shared := shared, gen := 5, frame := some 9 }],
      xitems := [⟨1, 3, 0, 0⟩, ⟨1, 2, 0, 0⟩, ⟨1, 1, 0, 0⟩, ⟨1, 0, 0, 0⟩] }

theorem test_tables_meet : let s := tabled false
    s.hasTable 1 0 0 = true ∧ s.hasTable 1 0 1 = false ∧ 0 < seq0.pages ∧ 1 < seq0.pages ∧
    (s.sq.seqs.find? fun x => x.tid = 1 ∧ x.base ≤ seq0.base + 0 ∧ seq0.base + 0 < x.base + x.pages) = some seq0 ∧
    (s.sq.seqs.find? fun x => x.tid = 1 ∧ x.base ≤ seq0.base + 1 ∧ seq0.base + 1 < x.base + x.pages) = some seq0 ∧
    s.leafAt 0 1 = none ∧ s.leafAt 0 0 = some ⟨0, 0, 7, true⟩ ∧ (s.pageBy 7).map (fun g => (g.shared, g.st, decide (sectorsOf g.hdr g.body < 32))) =
      some (false, 3, true) ∧ ((tabled true).pageBy 7).map (·.shared) = some true := by decide +kernel

/-- Table 7-7: a page in frame 9 with GEN 5, pinned: TIER DRAM, SECTORS 1, GEN, PIN and FRAME. -/
theorem test_leaf_word : (tabled false).leafWord 1 0 = 1 + 1 * 2 ^ 3 + 5 * 2 ^ 8 + 1 * 2 ^ 17 + 9 * 2 ^ 24 ∧ (tabled false).leafWord 1 1 = 0 := by
  decide +kernel

theorem word_ok (c : CascadeWord) : wordOk (sealWord c) = true := by
  have h : cascadeBytes (sealWord c) = cascadeBytes c := rfl
  rw [wordOk, h]
  simp [sealWord]

theorem word_bad (c : CascadeWord) : wordOk { sealWord c with crc := (sealWord c).crc + 1#32 } = false := by
  have h : cascadeBytes { sealWord c with crc := (sealWord c).crc + 1#32 } = cascadeBytes c := rfl
  rw [wordOk, h]
  simp [sealWord]

theorem test_cascade_word_meets : wordOk (sealWord word) = true ∧ wordOk { sealWord word with crc := (sealWord word).crc + 1#32 } = false ∧
    (sealWord word).origin = 1 ∧ (cascade 3).halted = false := ⟨word_ok word, word_bad word, rfl, by decide⟩

/-- R248: a word whose CRC fails goes no further. -/
theorem test_cascade_crc : exec (.cascadeWord { sealWord word with crc := (sealWord word).crc + 1#32 }) (cascade 3) = .next (cascade 3) := by
  simp [exec, execCascadeWord, test_cascade_word_meets.2.1]

theorem test_peloton_expiry_meets : (finding.work 0).map (fun w => (w.phase, match w.aux with
    | .find g => g.waitEnd
    | _ => none)) = some (1, some 0) := by decide

/-- Bank 127's sister, and room there. -/
theorem test_sister_meets : draining.bankValid 127 ≤ draining.bankRoom (sisterOf 127) ∧
    (draining.setSrch fun x => { x with entries := [{ entry with addr := 127 * 2 ^ 14 }] }).bankValid 127 = 1 ∧
    (draining.bankFree (sisterOf 127) (draining.bankUnits (sisterOf 127)) false).isSome = true ∧ entry.pend = some (5, 0) := by decide +kernel

theorem test_trained_meets : State.reset.get SYS.DRAM_STATUS.TRAINED ≠ 0xFF ∧
    ((inPhase 3).put SYS.DRAM_STATUS.TRAINED 0xFF).get SYS.DRAM_STATUS.TRAINED = 0xFF := by decide

theorem test_mark_judged_meets : 1000 < (1001 : Int).natAbs ∧ (joined 5).stroke + 1 < 7 ∧ (-1000 : Int).natAbs ≤ 1000 ∧ (6 : Nat) ≤ (joined 5).stroke + 1 ∧
    16 ≤ ((joined 5).setChain fun c => { c with marks := 15 }).chain.marks + 1 ∧ (220 : Int).natAbs ≤ 200 + 20 * 1 ∧ (joined 5).canonical = true ∧
    ((joining 0).setChain fun c => { c with takeCount := false }).chain.takeCount = false := by decide

theorem test_laser_meets : (inPhase 4).portMode 0 = 0 ∧ (paired 2 2).laserOn 7 = true ∧ ((paired 2 2).put SYS.BRINGUP_PHASE.PHASE phFAULT).laserOn 7 = false ∧
    ({ paired 2 2 with pw := { (paired 2 2).pw with held := true } } : State).laserOn 7 = false := by decide

/-- R505: with the laser off no link comes up. -/
theorem test_laser_off : (after (.linkUp 7 31) ((paired 2 2).put SYS.BRINGUP_PHASE.PHASE phFAULT)).linkUp 7 = false ∧
    (after (.linkUp 7 31) (paired 2 2)).linkUp 7 = true := by decide

theorem test_key_differs_meets : ({ tenant with part := { tenant.part with keys := [(1, zeros 64)] } } : State).keyDiffers
      { Replay.start with kcv := some 5 } 1 = true ∧ tenant.keyDiffers { Replay.start with kcv := some 5 } 1 = false := by decide

theorem test_core_stop_meets : (inPhase 4).wd.hdr = none ∧ ({ (inPhase 4) with wd := { (inPhase 4).wd with coreStop := true } } : State).wd.coreStop = true := by
  decide

/-- R463: when the core clock stops, the phase stays and no handler ends. -/
theorem test_core_stop : ((inPhase 4).expire false 4 0 0 0).phase = phRELEASED ∧ ((inPhase 4).expire false 4 0 0 0).wd.coreStop = true := by decide

/-- R217: a group with no spare left is DEGRADED when a die dies. -/
theorem test_die_dead : ((tenant.put TIER.GROUP_STATUS.SPARES_LEFT 0 15).dieDead 15 5).groupState 15 = 2 ∧
    ((tenant.put TIER.GROUP_STATUS.SPARES_LEFT 0 15).dieDead 15 5).get TIER.GROUP_STATUS.DEAD_DIES 15 = 32 := by decide +kernel


/-! ### Witnesses and tests for what the second reading of the rules changed -/

theorem test_recouple_target_meets : geared.loadTarget 0 = false ∧ (geared.slotState 3 = 5) := by decide

/-- A switch in a boundary of a card that works, and of one in FAULT. -/
theorem test_switch_phases_meet : (armed 2 true true).begun.working = true ∧
    ({ (armed 2 true true) with regs := ((armed 2 true true).put SYS.BRINGUP_PHASE.PHASE phFAULT).regs } : State).begun.working = false ∧
    ({ (armed 2 true true) with bnd := { (armed 2 true true).bnd with armedPeriod := some 9 } } : State).bnd.armedPeriod = some 9 := by decide +kernel

/-- R52: a switch done after its target sets SWITCH_LATE. -/
theorem test_switch_late : (State.endPeriod { armed 2 true false with stroke := 1 } true).flag SYS.STROKE_STATUS.SWITCH_LATE = true ∧
    (State.endPeriod (armed 2 true false) true).flag SYS.STROKE_STATUS.SWITCH_LATE = false ∧
    (State.endPart { armed 2 false true with stroke := 1 } 0).flag PART.SWITCH_STATUS.SWITCH_LATE = true := by decide +kernel

theorem test_read_widths_meet : isWindow SYS.STROKE_COUNT_LO.off = false ∧ (2 : Nat) ≠ 4 ∧ msixSpace 0 = false := by decide

/-- R112: a read of BAR0 that is not of 32 bits is counted. -/
theorem test_read_width : (after (.countLoRead 0 ⟨0, 8⟩) (inPhase 4)).get ROLE.ILLEGAL_COUNT.COUNT = 1 ∧
    (after (.countLoRead 0 ⟨0, 4⟩) (inPhase 4)).get ROLE.ILLEGAL_COUNT.COUNT = 0 := by decide

theorem test_row_quiesce_meets : tenant.tier.quiesce = false ∧ quiesced.tier.quiesce = true ∧
    quiesced.findFetched (asPosted opNOP (desc opNOP 0 [])) = none := by decide

/-- R68: in an orderly power-down no descriptor is taken that was not fetched. -/
theorem test_row_quiesced : (after (.nop (desc opNOP 0 [])) (tenant.setTier fun t => { t with quiesce := true })).wk.works = [] := by decide

theorem test_admits_whole_xfer : let s (l : Nat) := fetched (lending 0 1) opXFER (xferDesc 0 l 0xFFFFFFFF)
    let d (l : Nat) := asPosted opXFER (xferDesc 0 l 0xFFFFFFFF)
    admitsB (s 3) opXFER (xferDesc 0 3 0xFFFFFFFF) = true ∧ ((s 3).enter 0).xferFail (d 3) seq0 = 0 ∧ xferLong (d 3) seq0 = false ∧
    (d 3).b 44 4 = 0xFFFFFFFF ∧ seq0.layers < (d 3).b 34 1 + ((d 3).b 35 1 + 1) ∧ (d 2).b 34 1 + ((d 2).b 35 1 + 1) ≤ seq0.layers ∧
    admitsB (s 2) opXFER (xferDesc 0 2 0xFFFFFFFF) = true := by decide

theorem test_lost_pages_meet : ((flashing 0 false).setFlash fun f => { f with lost := [0] }).flash.lost.contains 0 = true ∧
    (flashing 0 false).flash.lost.contains 0 = false ∧
    ((dying.setTier fun t => { t with rebuild := [(15, 5, [1])] }).tier.rebuild.map fun r => r.2.2) = [[1]] := by decide

theorem test_readback_outside_meets : let s := hooked.setGear fun g => { g with readback := [(7, 5)] }
    s.nextReadback = some (7, 5) ∧ (s.slotFrames 7).length ≤ 5 ∧ s.load ≠ ldAPPLYING := by decide

/-- R92: a readback of a frame outside the slot answers no match; during a load it waits. -/
theorem test_readback_outside : (after (.cfgRdReq 7 5) hooked).out = [.cfgMatch 7 false] ∧
    (after (.cfgRdReq 7 5) (hooked.put IMG.LOAD_STATE.STATE ldAPPLYING)).gear.readback = [(7, 5)] := by decide

/-- A frame of this card's own that has come round to it. -/
theorem test_own_frame_meets : let f := { frame 1 [] with src := 0, dst := 0xFF, hops := 3 }
    f.src = (linked tenant).me ∧ (linked tenant).memberState ≠ 1 ∧ f.dst ≠ (linked tenant).me ∧
    (frameOf ftBEAT f).linkSeq = seqNext (((linked tenant).takeAck 0 (frameOf ftBEAT f)).hop 0).got := by decide

/-- The bytes of frames: an unknown type, and one whose payload breaks its CRC. -/
def unknownFrame : Frame := { frame 1 [] with typ := 0x7F }

def unknownHeader : List Byte := unknownFrame.bytes.take 32

def paidFrame : Frame := { frame 1 [1#8] with typ := 0x7F }

theorem test_bad_frames_meet : headerBad [] = true ∧ headerBad unknownHeader = false ∧ payloadBad unknownHeader [] = false ∧
    headerBad (paidFrame.bytes.take 32) = false ∧ payloadBad (paidFrame.bytes.take 32) (zeros 64) = true ∧
    frameTypes.contains (leAt unknownHeader 0 1) = false ∧ unknownFrame.units ≤ 257 ∧
    headerBad (({ unknownFrame with typ := ftBEAT } : Frame).bytes.take 32) = false ∧
    payloadBad (({ unknownFrame with typ := ftBEAT } : Frame).bytes.take 32) [] = false ∧
    frameTypes.contains (leAt (({ unknownFrame with typ := ftBEAT } : Frame).bytes.take 32) 0 1) = true := by decide +kernel

/-- R328: Table 14-3's header lays TYPE, the count of units, SRC, DST and LINK_SEQ out and closes itself with its CRC. -/
theorem test_bad_frames : (after (.badFrame 0 unknownHeader []) (linked tenant)).get SPOKE.BAD_FRAMES.COUNT = 1 ∧
    (after (.badFrame 0 (paidFrame.bytes.take 32) (zeros 64)) (linked tenant)).get SPOKE.NAKS.COUNT = 1 ∧
    (after (.badFrame 0 (unknownHeader.take 31) []) (linked tenant)).get SPOKE.BAD_FRAMES.COUNT = 0 := by decide +kernel

theorem test_expected_meets : 0 < (inPhase 3).get SPOKE.MEMBER_CTRL.EXPECTED ∧ (inPhase 3).get SPOKE.MEMBER_CTRL.EXPECTED ≤ 32 ∧
    ((inPhase 3).put SPOKE.MEMBER_CTRL.EXPECTED 32).get SPOKE.MEMBER_CTRL.EXPECTED ≤ 32 ∧
    ((inPhase 3).put SPOKE.MEMBER_CTRL.EXPECTED 0).get SPOKE.MEMBER_CTRL.EXPECTED = 0 ∧
    32 < ((inPhase 3).put SPOKE.MEMBER_CTRL.EXPECTED 33).get SPOKE.MEMBER_CTRL.EXPECTED := by decide

/-- R335: JOIN with EXPECTED 33 is refused. -/
theorem test_expected : (after .joinCmd ((inPhase 3).put SPOKE.MEMBER_CTRL.EXPECTED 33)).memberState = 0 := by decide

theorem test_commit_outcome_meets : bits ((frame 1 (zeros 6 ++ [1#8])).b 6 1) 0 1 = 1 ∧ bits ((frame 1 (zeros 7)).b 6 1) 0 1 = 0 := by decide

theorem test_held_links_meet : let held := (paired 2 2).setHop { freshHop 7 with held := some 0, member := some 31 }
    let u := held.put SPOKE.PORT_STATUS.LINK_UP 1 7
    (u.hop 7).held.isSome = true ∧ (u.hop 7).member = some 31 ∧ ((paired 2 2).hop 7).held = none ∧ ((paired 2 2).hop 7).member ≠ some 31 := by decide

theorem test_inbound_meets : let s := remote 3 0
    s.working = true ∧ s.portMode 1 = 1 ∧ s.linkUp 1 = true ∧ (toQp bthOnly 0 []).qpn = 5 + 0x100 ∧ (toQp bthOnly 0 []).icrcOk = true ∧
    (toQp bthOnly 0 []).udpDst = 4791 ∧ s.ipAt RDMA.QP_REMOTE_IP.off 5 ≠ ({ toQp bthOnly 0 [] with srcIp := 1 } : Packet).srcIp ∧
    s.takesPackets 5 = true ∧ (remote 5 0).takesPackets 5 = false ∧ s.supported 5 (toQp bthOnly 0 []) [bthFirst, bthMiddle, bthLast, bthOnly] false = true ∧
    s.supported 5 { toQp bthFlush 0 [] with regionRange := false } [bthFlush] false = false ∧ s.rdma.held = [] ∧
    (s.bufferIn 1 5 1).2 = true ∧ 1 ≤ s.qpMtu 5 := by decide

/-- R364: with PFC off a payload that the port's 4 MiB have no room for is dropped. -/
def crowded : State := { remote 3 0 with rdma := { (remote 3 0).rdma with held := [(5, 4 * 2 ^ 20)] } }

theorem test_sprayed_again_meets : let v := (remote 3 16).setQp { freshQp 5 with psns := [3] }
    (v.qp 5).psns.contains 3 = true ∧ (0 + 2 ^ 24 - (v.qp 5).cumMsn) % 2 ^ 24 < 1024 := by decide

/-- R371: a CNP on a QP in ERR is discarded. -/
theorem test_cnp_in_err : (after (.cnp 1 (toQp bthCnp 0 [])) (remote 5 0)).get RDMA.CNPS_RECEIVED.COUNT = 0 ∧
    (after (.cnp 1 (toQp bthCnp 0 [])) (remote 3 0)).get RDMA.CNPS_RECEIVED.COUNT = 1 := by decide

theorem test_pool_requests_meet : ((hosted 1).put SYS.BRINGUP_PHASE.PHASE 15).up = true ∧ (hosted 1).hidOf 4096 = (hosted 1).get POOL.DIRECT_HID.HID ∧
    (hosted 1).hostSlot ((hosted 1).hidOf 4095) = some 9 ∧ (hosted 1).pool.mirNow = [] ∧ (lined 2 [9] true).snoopOf 4095 (lineOf 192) ≠ none ∧
    (lined 2 [9] false).snoopOf 4095 (lineOf 192) = none ∧ (lined 2 [9] false).ownerWrites 9 192 = false := by decide

/-- Host slot 9 writes pool region 0, of 1 GiB on stack 0, and owns its line 3. -/
def owning : State :=
  let s := ((((lined 2 [9] false).put POOL.REGION_STATUS.STATE 1 0).put POOL.REGION_SIZE.GIB 1 0).put POOL.REGION_DEF.STACK_MASK 1 0)
  s.setLive POOL.REGION_ACCESS.off 0x209#32 0

theorem test_owner_meets : owning.ownerWrites 9 192 = true ∧ owning.poolRegion 192 = some 0 ∧ owning.poolState 0 = 1 ∧ owning.accessOf 0 9 = 2 ∧
    owning.snoopOf 4095 (lineOf 192) = none := by decide

/-- R390: an owner's writeback leaves its line held by no host. -/
theorem test_writeback : ((after (.writeback 4095 192 ⟨zeros 64, false⟩) owning).dirEnt 3).map (·.st) = none := by decide +kernel

/-- A request with an unsupported feature is counted, and one of another HID is foreign (R375, R382). -/
theorem test_unsupported : (after (.cxlReadNocache ⟨4095, .unsupported⟩ 0 0) (hosted 1)).get POOL.FOREIGN_REQUESTS.COUNT = 1 ∧
    (after (.cxlReadNocache ⟨4094, .plain⟩ 0 0) (hosted 1)).get POOL.FOREIGN_REQUESTS.COUNT = 1 := by decide

theorem test_snoop_answers_meet : ((lined 1 [9] true).dirEnt 3).map (·.holders) = some [9] ∧
    ((lined 2 [9] true).pool.snoops.map (·.kind)) = [2] := by decide

theorem test_viral_meets : ∀ n < 64, (((hosted 1).hostState n = 1 ∨ (hosted 1).hostState n = 2) ∧ (hosted 1).hostHid n = (hosted 1).hidOf 4095 ↔ n = 9) := by
  decide

theorem test_drain_meets_lines : let s := (lined 2 [9] false).put POOL.HOST_STATUS.STATE 2 9
    s.hostState 9 = 2 ∧ (s.pool.dir.any fun e => e.holders.contains 9) = true ∧ (s.pool.snoops.any fun y => y.slot = 9) = false ∧
    ((hosted 2).pool.dir.any fun e => e.holders.contains 9) = false ∧ ((hosted 2).setPool fun x => { x with snoops := [⟨9, 3, 2, 0, 0⟩] }).hostState 9 = 2 := by
  decide

theorem test_release_ack_meets : let s := (hosted 1).setPool fun x => { x with releasing := [(9, 255, 0, 3)] }
    (s.pool.releasing.find? fun x => x.2.1 = 255 ∧ s.hostState x.1 ≠ 0 ∧ s.hostHid x.1 = s.hidOf 4095) = some (9, 255, 0, 3) := by decide

/-- The Tandem card with its stacks trained, and with pool region 5 the standby of the partner's region 1. -/
def standby : State :=
  ((((tandem 0).put SYS.DRAM_STATUS.TRAINED 0xFF).put POOL.REGION_STATUS.STATE 2 5).put POOL.REGION_DEF.MIRROR_OF 1 5).put POOL.REGION_SIZE.GIB 1 5

/-- A MIRROR_WRITE of one line at `off` into region 1 (Table 14-7). -/
def mirrorFrame (kind off : Nat) : Frame := frame 1 ([BitVec.ofNat 8 kind, 1#8] ++ leBytes 2 1 ++ zeros 60 ++ leBytes 8 off ++ zeros 120)

theorem test_mirror_lines_meet : standby.mirReady (mirrorFrame 1 0) = true ∧ (tandem 0).mirReady (mirrorFrame 1 0) = false ∧
    standby.mirReady (mirrorFrame 3 0) = false ∧ standby.standbyOf ((mirrorFrame 1 0).b 1 1) = some 5 ∧ standby.standbyOf 2 = none ∧
    (mirrorFrame 1 0).b 0 1 = 1 ∧ (mirrorFrame 1 0).b 2 2 = 1 ∧ (mirrorFrame 1 (2 ^ 30)).b 64 8 = 2 ^ 30 ∧ standby.poolBytes 5 < 2 ^ 30 + 64 ∧
    0 + 64 ≤ standby.poolBytes 5 ∧ standby.mirNewer 0 (mirrorFrame 1 0) = true ∧ (mirrorFrame 3 0).b 0 1 = 3 ∧ standby.partner = 2 := by decide

theorem test_mirror_answers_meet : (⟨0, 0, 9, 0, 0, 0, false, true⟩ : MirWait).answers = true ∧ (tandem 0).phase ≠ phFAULT ∧
    (((tandem 2).setPool fun x => { x with kvOut := [⟨3, some 0, 0, 0, [], true⟩] }).pool.kvOut.any fun k => k.copy ∧ k.tid = 3) = true ∧
    ((tandem 2).pool.kvOut.any fun k => k.copy ∧ k.tid = 3) = false := by decide

theorem test_takeover_done_meets : let s := (standby.put TIER.LOG_SCAN_STATUS.DONE 1).setPool fun x => { x with takeover := some (3, 2, 1) }
    s.canonical = true ∧ s.working = true ∧ s.pool.takeover = some (3, 2, 1) ∧ s.get SYS.DRAM_STATUS.TRAINED = 0xFF ∧
    s.flag TIER.LOG_SCAN_STATUS.DONE = true ∧ standby.flag TIER.LOG_SCAN_STATUS.DONE = false ∧ (tandem 0).get SYS.DRAM_STATUS.TRAINED ≠ 0xFF := by decide

/-- The same with caps in range. -/
def capped : State := (((tenanted 0 0).put PART.TENANT_CAPS.DESC_CAP 1 1023).put PART.TENANT_CAPS.STREAM_CAP 1 1023).put XLAT.SEQ_CAP.CAP 5 1023

theorem test_tenant_boundaries_meet : capped.createFail 1023 = 0 ∧ (tenanted 0 0).partInUse 127 = false ∧
    ((tenanted 1 0).put PART.TENANT_PARTITION.NEXT 127 1023).partInUse 127 = true ∧ (tenanted 2 0).tenState 1023 ≠ 1 := by decide

/-- R411, R418: the boundary makes a tenant ACTIVE with SEQ_CAP 0; R427: its reset shows in its state. -/
theorem test_tenant_created : (capped.actNow (.tenantCreate 1023)).tenState 1023 = 1 ∧
    (capped.actNow (.tenantCreate 1023)).get XLAT.SEQ_CAP.CAP 1023 = 0 ∧
    ((tenanted 1 0).startReset 1023 false false).tenState 1023 = 2 := by decide
end Sys2Proof.Tests
end

section
/-! The scope of the card (chapter 0): host memory, byte by byte (R4). -/

namespace Sys2Proof.Machine

/-- Settles O9: in a canonical state host memory is a canonical store, so the rules of one byte and of a list of bytes apply. -/
theorem hostMemoryReadsBack : Obligations.HostMemoryReadsBack := by
  intro s a b bs hc
  have hm : spWf memDefault s.hmem = true := canonical_hmem hc
  exact ⟨memByte_memPut_same s hm a b, memByte_memWrite_other bs s a hm⟩

end Sys2Proof.Machine
end

section
/-! The card after a cold power-up (chapters 1, 3 and 18): with RESET_CAUSE alone listed, every other register reads its After power-up word. -/

namespace Sys2Proof.Machine

/-- RESET_CAUSE apart, the reset state lists no register, so each reads its After power-up word (R20). -/
theorem reset_reg {o i : Nat} (h : regKey o i ≠ SYS.RESET_CAUSE.off) : State.reset.reg o i = regDefault (regKey o i) := by
  show spGet regDefault [(SYS.RESET_CAUSE.off, 1#32)] (regKey o i) = _
  simp only [spGet, if_neg h, ite_self]

theorem regKey_off {o : Nat} (i : Nat) (h : o < 0x1000000) : regKey o i % 0x1000000 = o := by
  unfold regKey
  omega

theorem regKey_inst {o : Nat} (i : Nat) (h : o < 0x1000000) : regKey o i / 0x1000000 = i := by
  unfold regKey
  omega

theorem regKey_ne {o : Nat} (i o' : Nat) (h : o < 0x1000000) (h' : o' < 0x1000000) (n : o ≠ o') : regKey o i ≠ o' := by
  unfold regKey
  omega

/-- Table 18-6: the word that a domain's status shows after power-up. -/
theorem reset_domainStatus (d : Nat) : State.reset.reg CLK.DOMAIN_STATUS.off d = domainResetWord d := by
  rw [reset_reg (regKey_ne d _ (by decide) (by decide) (by decide))]
  unfold regDefault
  rw [regKey_off d (by decide), regKey_inst d (by decide), if_pos rfl]

/-- After power-up the eight Spokes, the Sprocket and the Gear fabric are OFF, every other domain runs. -/
theorem reset_dom (d : Nat) : State.reset.dom d = if 11 ≤ d ∧ d ≤ 20 then domOFF else domRUNNING := by
  show fieldGet (State.reset.reg CLK.DOMAIN_STATUS.off d) 0 3 = _
  rw [reset_domainStatus]
  unfold domainResetWord
  split
  · decide
  · decide

/-- Partition 0 is created at power-up, and no other is (R409). -/
theorem reset_partCreated (p : Nat) : State.reset.partCreated p = decide (p = 0) := by
  have hr : State.reset.reg PART.PARTITION_STATUS.off p = if p = 0 then 1#32 else 0#32 := by
    rw [reset_reg (regKey_ne p _ (by decide) (by decide) (by decide))]
    unfold regDefault
    rw [regKey_off p (by decide), regKey_inst p (by decide), if_neg (by decide), if_pos rfl]
  show decide (fieldGet (State.reset.reg PART.PARTITION_STATUS.off p) 0 1 = 1) = _
  rw [hr]
  by_cases h : p = 0
  · simp [h, fieldGet]
  · simp [h, fieldGet]

/-- No tenant of any number exists after power-up (R20). -/
theorem reset_tenState (t : Nat) : State.reset.tenState t = 0 := by
  have hr : State.reset.reg PART.TENANT_STATUS.off t = State.reset.reg PART.TENANT_STATUS.off 0 := by
    rw [reset_reg (regKey_ne t _ (by decide) (by decide) (by decide)), reset_reg (by decide)]
    unfold regDefault
    rw [regKey_off t (by decide), if_neg (by decide), if_neg (by decide)]
    rfl
  show fieldGet (State.reset.reg PART.TENANT_STATUS.off t) 0 2 = 0
  rw [hr]
  decide

/-- Settles O8: the status registers of domains, partitions and tenants by their rules for every number, the rest by the reset state's record. -/
theorem resetState : Obligations.ResetState := by
  have hdom : (List.range 22).all (fun d => State.reset.dom d == if 11 ≤ d ∧ d ≤ 20 then domOFF else domRUNNING) = true :=
    List.all_eq_true.2 fun d _ => beq_iff_eq.2 (reset_dom d)
  have hpair : (List.range 4).all (fun i => State.reset.pairState i == 0) = true := by decide
  exact ⟨rfl, rfl, rfl, by decide, by decide, by decide, rfl, rfl, rfl, rfl, reset_partCreated 0, reset_partCreated 1,
    reset_partCreated 127, reset_tenState 1, reset_tenState 1023, hdom, hpair, fun _ => rfl⟩

end Sys2Proof.Machine
end

section
/-! Chunks (chapters 1 and 2): the turn of a unit among the partitions (R44), what a chunk that starts leaves in its work (R35), and how a
running chunk ends. -/

namespace Sys2Proof.Machine

variable (s : State)

/-! ### The turn among the partitions -/

theorem rotation_length : s.rotation.length = 128 := by simp [State.rotation]

theorem rotation_getElem? {k : Nat} (hk : k < 128) : s.rotation[k]? = some ((s.bnd.rot + 1 + k) % 128) := by
  simp [State.rotation, hk]

theorem rotation_mem_lt {p : Nat} (h : p ∈ s.rotation) : p < 128 := by
  obtain ⟨k, -, rfl⟩ := List.mem_map.1 h
  exact Nat.mod_lt _ (by decide)

/-- Partitions with nothing to start pass the turn on. -/
theorem rotate_idle_append (unit : UnitKind) (pre l : List Nat) (h : ∀ p ∈ pre, s.turnOf unit p = (s, false)) :
    s.rotate unit (pre ++ l) = s.rotate unit l := by
  induction pre with
  | nil => rfl
  | cons p pre ih =>
    obtain ⟨hp, hpre⟩ := List.forall_mem_cons.1 h
    simp only [List.cons_append, State.rotate, hp, Bool.false_eq_true, if_false]
    exact ih hpre

theorem rotate_idle (unit : UnitKind) (l : List Nat) (h : ∀ p ∈ l, s.turnOf unit p = (s, false)) : s.rotate unit l = s := by
  simpa [State.rotate] using rotate_idle_append s unit l [] h

/-- A partition that starts a chunk takes the turn, and the rotation stands at it. -/
theorem rotate_cons_of_starts (unit : UnitKind) (p : Nat) (l : List Nat) (h : (s.turnOf unit p).2 = true) :
    s.rotate unit (p :: l) = { (s.turnOf unit p).1 with bnd := { (s.turnOf unit p).1.bnd with rot := p } } := by
  simp only [State.rotate, h, if_true]

/-- The rotation up to its `k`-th partition, that partition, and the rest. -/
theorem rotation_split {k : Nat} (hk : k < 128) :
    s.rotation = s.rotation.take k ++ (s.bnd.rot + 1 + k) % 128 :: s.rotation.drop (k + 1) := by
  have hl : k < s.rotation.length := by rw [rotation_length]; exact hk
  have hg : s.rotation[k] = (s.bnd.rot + 1 + k) % 128 :=
    Option.some.inj ((List.getElem?_eq_getElem hl).symm.trans (rotation_getElem? s hk))
  rw [← hg, List.getElem_cons_drop, List.take_append_drop]

theorem exec_chunkStart (unit : UnitKind) (h : s.working = true) :
    exec (.chunkStart unit) s = .next (s.rotate unit s.rotation).noteWaits := by
  show execChunkStart unit s = _
  rw [execChunkStart, if_pos h]

/-- The first partition of the rotation that has a chunk to start takes the turn, at whichever place `k` it stands (R44). -/
theorem chunkStart_serves_first (unit : UnitKind) (k : Nat) (hw : s.working = true) (hk : k < 128)
    (hidle : ∀ j < k, s.turnOf unit ((s.bnd.rot + 1 + j) % 128) = (s, false))
    (hstart : (s.turnOf unit ((s.bnd.rot + 1 + k) % 128)).2 = true) :
    exec (.chunkStart unit) s = .next ({ (s.turnOf unit ((s.bnd.rot + 1 + k) % 128)).1 with
      bnd := { (s.turnOf unit ((s.bnd.rot + 1 + k) % 128)).1.bnd with rot := (s.bnd.rot + 1 + k) % 128 } }.noteWaits) := by
  have hpre : ∀ p ∈ s.rotation.take k, s.turnOf unit p = (s, false) := by
    intro p hp
    obtain ⟨j, hj, rfl⟩ := List.mem_take_iff_getElem.1 hp
    have hjk : j < k := by omega
    have hg := Option.some.inj ((List.getElem?_eq_getElem (by omega)).symm.trans (rotation_getElem? s (by omega : j < 128)))
    rw [hg]
    exact hidle j hjk
  rw [exec_chunkStart s unit hw, rotation_split s hk, rotate_idle_append s unit _ _ hpre, rotate_cons_of_starts s unit _ _ hstart]

theorem chunkStart_of_idle (unit : UnitKind) (hw : s.working = true) (hidle : ∀ p < 128, s.turnOf unit p = (s, false)) :
    exec (.chunkStart unit) s = .next s.noteWaits := by
  rw [exec_chunkStart s unit hw, rotate_idle s unit _ fun p hp => hidle p (rotation_mem_lt s hp)]

/-! ### The turn among a partition's works -/

/-- The first work that is ready starts, or holds the later ones back when its draw is not all there (R15, R44). -/
theorem tryAll_cons_of_go {s1 : State} {unit : UnitKind} {w : Work} {l : List Work} {draw : Res6} {refs : List Nat} {frame : Bool}
    {res : RunRes} (hwork : s.work w.id = some w) (hmay : s.mayStart w = true) (hgo : s.decide_ w = .go s1 draw refs frame res) :
    s.tryAll unit (w :: l) =
      if draw.le (s.available (s.partOf w.d.tid)) then (s1.begin w unit draw refs frame res, true) else (s, false) := by
  rw [State.tryAll, hwork]
  cases hle : draw.le (s.available (s.partOf w.d.tid))
  case true => simp only [State.tryStart, hmay, hgo, hle, Bool.not_true, Bool.false_eq_true, if_true, if_false]
  case false => simp only [State.tryStart, hmay, hgo, hle, Bool.not_true, Bool.false_eq_true, if_false]

/-! ### A work after an update -/

theorem work_of_wk {s t : State} (h : t.wk = s.wk) (id : Nat) : t.work id = s.work id := by
  unfold State.work
  rw [h]

theorem work_id {id : Nat} {w : Work} (h : s.work id = some w) : w.id = id := by
  simpa using List.find?_some h

/-- A work updated, its number kept, is found as updated. -/
theorem work_updWork {id : Nat} {f : Work → Work} {w : Work} (h : s.work id = some w) (hf : ∀ v, (f v).id = v.id) :
    (s.updWork id f).work id = some (f w) := by
  have hid : ((fun v : Work => decide (v.id = id)) ∘ fun v => if v.id = id then f v else v) = fun v => decide (v.id = id) := by
    funext v
    by_cases hv : v.id = id
    · simp [hv, hf]
    · simp [hv]
  have hw : s.wk.works.find? (fun v => decide (v.id = id)) = some w := h
  show (s.wk.works.map _).find? _ = _
  rw [List.find?_map, hid, hw, Option.map_some, if_pos (work_id s h)]

@[simp] theorem Work.stopWith_id (w : Work) (st dt : Nat) : (w.stopWith st dt).id = w.id := by
  unfold Work.stopWith
  split <;> rfl

@[simp] theorem Work.stopWith_run (w : Work) (st dt : Nat) : (w.stopWith st dt).run = w.run := by
  unfold Work.stopWith
  split <;> rfl

theorem draw_wk (p : Nat) (need : Res6) : (s.draw p need).wk = s.wk := by
  unfold State.draw
  split <;> rfl

theorem foldl_wk {α : Type} {f : State → α → State} (hf : ∀ s x, (f s x).wk = s.wk) (l : List α) : (l.foldl f s).wk = s.wk :=
  List.foldlRecOn l f (motive := fun t => t.wk = s.wk) rfl fun t ht x _ => (hf t x).trans ht

theorem hold_touch_wk (pid : Nat) : ((s.hold pid).touch pid).wk = s.wk := rfl

/-- An epoch noted leaves what a work runs and where it stands. -/
theorem noteEpoch_work {id : Nat} {w : Work} (h : s.work id = some w) (epoch : Nat) :
    ∃ v, (s.noteEpoch id epoch).work id = some v ∧ v.run = w.run ∧ v.next = w.next := by
  refine ⟨_, work_updWork s h fun v => ?_, ?_, ?_⟩
  all_goals
    split
    · rfl
    · split <;> rfl

/-- A drain stops a work and leaves what it runs. -/
theorem drainStop_work {id : Nat} {w : Work} (h : s.work id = some w) :
    ∃ v, (s.drainStop id).work id = some v ∧ v.run = w.run := by
  unfold State.drainStop
  rw [h]
  dsimp only
  split
  · exact ⟨w, h, rfl⟩
  · split
    · exact ⟨w, h, rfl⟩
    · exact ⟨_, work_updWork s h fun v => Work.stopWith_id v _ _, Work.stopWith_run w _ _⟩

/-- A chunk that starts stands last in its work's run, at the work's next position, with its Stroke, its pages and its result (R35). -/
theorem begin_work {w : Work} (unit : UnitKind) (draw : Res6) (refs : List Nat) (frame : Bool) (res : RunRes)
    (h : s.work w.id = some w) :
    ∃ (v : Work) (r : Run), (s.begin w unit draw refs frame res).work w.id = some v ∧ v.run = w.run ++ [r] ∧ r.idx = w.next ∧
      r.at_ = s.stroke ∧ r.refs = refs ∧ r.res = res := by
  have hdraw : (s.draw (s.partOf w.d.tid) draw).work w.id = some w := (work_of_wk (draw_wk s _ _) _).trans h
  obtain ⟨v1, hv1, hrun1, hnext1⟩ := noteEpoch_work _ hdraw (s.get SPOKE.TENANT_EPOCH.EPOCH w.d.tid)
  unfold State.begin
  extract_lets s1 s2 fr lane
  have hs2 : (if frame then s2.nextFree else s2).work w.id = some v1 := by
    have hpages : s2.wk = s1.wk := foldl_wk s1 hold_touch_wk refs
    have hframe : (if frame then s2.nextFree else s2).wk = s2.wk := by split <;> rfl
    exact (work_of_wk (hframe.trans hpages) _).trans hv1
  obtain ⟨v, hv, hrun⟩ := drainStop_work _ (work_updWork _ hs2 (f := fun v =>
    { v with
      next := nextAfter v res
      run := v.run ++
        [{ idx := v.next, unit := unit, at_ := s.stroke, frame := fr, refs := refs, res := res, lane := lane }] })
    fun _ => rfl)
  exact ⟨v, _, hv, by rw [hrun, hrun1], hnext1, rfl, rfl, rfl⟩

/-! ### The end of a running chunk -/

/-- CHUNK_END of a chunk that runs (R35, Table 20-1). -/
theorem exec_chunkEnd_run {work chunk : Nat} {w : Work} {r : Run} (cr : ChunkRes) (hup : s.working = true)
    (hw : s.work work = some w) (hr : w.run.find? (·.idx = chunk) = some r) :
    exec (.chunkEnd work chunk cr) s = .next (if cr = .inputFault then (if readsHost w.d.opcode then s.inputFault w r else s)
      else if s.runOpen w r then s else s.endRun w r) := by
  show execChunkEnd work chunk cr s = _
  rw [execChunkEnd, if_pos hup, hw]
  dsimp only
  rw [hr]

end Sys2Proof.Machine
end

section
/-! The start and the end of a chunk, as the card's commands show them (R15, R35, R44). -/

namespace Sys2Proof.Machine

/-- Settles O21: the turn by the rotation's first partition with a chunk to start, the start by `begin_work`, the end by `exec_chunkEnd_run`. -/
theorem chunks : Obligations.Chunks := by
  refine ⟨?turn, ?first, ?start, ?finish⟩
  case turn =>
    intro s unit hw
    exact ⟨rotation_length s, fun k hk => rotation_getElem? s hk, chunkStart_serves_first s unit 0 hw (by decide) (by simp),
      chunkStart_of_idle s unit hw⟩
  case first =>
    intro s s1 unit w l draw refs frame res hwork hmay hgo
    rw [tryAll_cons_of_go s hwork hmay hgo]
    exact ⟨fun h => if_pos h, fun h => if_neg (by simp [h])⟩
  case start =>
    intro s unit w draw refs frame res hwork
    exact begin_work s unit draw refs frame res hwork
  case finish =>
    intro s work chunk w r hup hw hr
    refine ⟨fun h => ?_, fun h => ?_, fun h => ?_⟩
    · simp [exec_chunkEnd_run s .ok hup hw hr, h]
    · simp [exec_chunkEnd_run s .ok hup hw hr, h]
    · simp [exec_chunkEnd_run s .inputFault hup hw hr, h]

end Sys2Proof.Machine
end

section
/-! The whole machine over one step (R26, R30, R481): the invariant of a run, the record of what was sent, and the Stroke counter. -/

namespace Sys2Proof.Machine

open Sys2Proof.Laws.Whole

/-- Settles O3: every store of the reset state is canonical, and the counter stands at 0. -/
theorem resetMeetsInvariant : Obligations.ResetMeetsInvariant := ⟨by decide, by decide⟩

/-- Settles O4: a tick and every command are `Loose`, which carries the invariant. -/
theorem stepKeepsInvariant : Obligations.StepKeepsInvariant := by
  rintro s t ⟨hcanon, hstroke⟩ hstep
  obtain ⟨u, hus, huc, -, -, hloose⟩ := step_cases hstep
  exact loose_inv ⟨huc.trans hcanon, hus ▸ hstroke⟩ hloose

/-- Settles O5: what is `Loose` only adds to what was sent and never lowers the count of free values. -/
theorem stepOnlyAddsToWhatWasSent : Obligations.StepOnlyAddsToWhatWasSent := by
  intro s t hstep
  obtain ⟨u, -, -, huo, huf, hloose⟩ := step_cases hstep
  exact ⟨huo ▸ hloose.out, huf ▸ hloose.free⟩

/-! ### The Stroke counter -/

theorem Answers.stroke_eq {s t : State} {r : Res} (h : Answers s r) (e : r = .next t) : t.stroke = s.stroke := by
  obtain ⟨u, hu, k⟩ := h
  cases hu.symm.trans e
  exact k.stroke

theorem Reaches.stroke_le {s t : State} {r : Res} (h : Reaches s r) (e : r = .next t) (hs : s.stroke ≤ strokeMax) :
    t.stroke ≤ strokeMax := by
  obtain ⟨u, hu, k⟩ := h
  cases hu.symm.trans e
  exact k.stroke hs

/-- With no condition left the card leaves reset at Stroke 0 (R26, R54). -/
theorem exec_resetExit_stroke {s : State} (held : s.pw.held = true) (free : s.resetCondition = false) :
    ∃ t, exec .resetExit s = .next t ∧ t.pw.held = false ∧ t.stroke = 0 := by
  show ∃ t, execResetExit s = .next t ∧ _
  unfold execResetExit
  rw [if_neg (by simp [held, free])]
  exact ⟨_, rfl, rfl, rfl⟩

theorem lastBoundary_eq_false {s : State} : s.lastBoundary = false ↔ s.nextStroke < strokeMax := by
  simp [State.lastBoundary]

/-- Before the counter's end the boundary's command is the boundary (R26, R37). -/
theorem exec_strokeBoundary {s : State} (up : s.counting = true) (last : s.lastBoundary = false) :
    exec .strokeBoundary s = .next s.boundary := by
  show execStrokeBoundary s = _
  simp [execStrokeBoundary, up, last]

/-- Before the counter's end the Stroke that begins is the one that `nextStroke` names, in 48 bits (R26). -/
theorem boundary_stroke_of_lt {s : State} (last : s.nextStroke < strokeMax) : s.boundary.stroke = s.nextStroke := by
  have h48 : strokeMax < 2 ^ 48 := by decide
  rw [boundary_stroke, Nat.mod_eq_of_lt (by omega)]

theorem exec_strokeBoundary_stroke {s : State} (up : s.counting = true) (last : s.nextStroke < strokeMax) :
    ∃ t, exec .strokeBoundary s = .next t ∧ t.stroke = s.nextStroke :=
  ⟨_, exec_strokeBoundary up (lastBoundary_eq_false.2 last), boundary_stroke_of_lt last⟩

/-- Settles O6: reset exit by its record, the boundary by `boundary_stroke`, every other command by what `Keeps` and `Loose` say of the counter. -/
theorem strokeCounter : Obligations.StrokeCounter := by
  refine ⟨fun s => exec_resetExit_stroke, ?next, ?preset, ?others, ?bound⟩
  case next =>
    intro s up unset lt
    have hn : s.nextStroke = s.stroke + 1 := by simp [State.nextStroke, unset]
    exact hn ▸ exec_strokeBoundary_stroke up (hn ▸ lt)
  case preset =>
    intro s n up preset lt
    have hn : s.nextStroke = n := by simp [State.nextStroke, preset]
    exact hn ▸ exec_strokeBoundary_stroke up (hn ▸ lt)
  case others => exact fun c s t stays e => (keeps_exec (Keeps.refl s) c stays).stroke_eq e
  case bound => exact fun c s t le e => (loose_exec (Keeps.refl s) c).stroke_le e le

end Sys2Proof.Machine
end

section
/-! The end of the counter (R30): what a fault's report and the entry into FAULT leave alone, and the halt. -/

namespace Sys2Proof.Machine

/-- From `s` to `t` the work of the boundary (R37) is untouched: what waits for it, the rings and the live registers stand, and events are
only added. -/
structure LeavesBoundary (s t : State) : Prop where
  bnd : t.bnd = s.bnd
  ring : t.ring = s.ring
  live : t.live = s.live
  events : s.err.events <+: t.err.events

namespace LeavesBoundary

variable {s t u : State}

theorem refl (s : State) : LeavesBoundary s s := ⟨rfl, rfl, rfl, List.prefix_refl _⟩

theorem trans (h : LeavesBoundary s t) (k : LeavesBoundary t u) : LeavesBoundary s u :=
  ⟨k.bnd.trans h.bnd, k.ring.trans h.ring, k.live.trans h.live, h.events.trans k.events⟩

/-- What leaves those fields as they are. -/
theorem same (h : LeavesBoundary s t) (hb : u.bnd = t.bnd) (hr : u.ring = t.ring) (hl : u.live = t.live)
    (he : u.err.events = t.err.events) : LeavesBoundary s u :=
  h.trans ⟨hb, hr, hl, he ▸ List.prefix_refl _⟩

theorem put (h : LeavesBoundary s t) (f : Fld) (v i : Nat) : LeavesBoundary s (t.put f v i) := h.same rfl rfl rfl rfl

theorem setReg (h : LeavesBoundary s t) (o : Nat) (w : Word) (i : Nat) : LeavesBoundary s (t.setReg o w i) := h.same rfl rfl rfl rfl

theorem sat (h : LeavesBoundary s t) (f : Fld) (n i : Nat) : LeavesBoundary s (t.sat f n i) := h.same rfl rfl rfl rfl

theorem setPair (h : LeavesBoundary s t) (o v i : Nat) : LeavesBoundary s (t.setPair o v i) := h.same rfl rfl rfl rfl

theorem memWrite (h : LeavesBoundary s t) (a : Nat) (bs : List Byte) : LeavesBoundary s (t.memWrite a bs) := by
  induction bs generalizing t a with
  | nil => exact h
  | cons b bs ih => exact ih (t := t.memPut a b) (h.same rfl rfl rfl rfl) (a + 1)

theorem ite {c : Prop} [Decidable c] {a b : State} (ha : LeavesBoundary s a) (hb : LeavesBoundary s b) :
    LeavesBoundary s (if c then a else b) := by
  split
  · exact ha
  · exact hb

theorem foldl {α : Type} {f : State → α → State} (h : LeavesBoundary s t) (l : List α)
    (hf : ∀ u x, LeavesBoundary s u → LeavesBoundary s (f u x)) : LeavesBoundary s (l.foldl f t) :=
  List.foldlRecOn l f h fun u hu x _ => hf u x hu

theorem signal (h : LeavesBoundary s t) (fn vector : Nat) : LeavesBoundary s (t.signal fn vector) := h.same rfl rfl rfl rfl

theorem setQp (h : LeavesBoundary s t) (x : Qp) : LeavesBoundary s (t.setQp x) := h.same rfl rfl rfl rfl

theorem auditWrite (h : LeavesBoundary s t) (e : List Byte) : LeavesBoundary s (t.auditWrite e) := by
  unfold State.auditWrite
  dsimp only
  exact .ite (((h.memWrite _ _).put _ _ _).signal _ _) ((h.memWrite _ _).put _ _ _)

theorem setHeld (h : LeavesBoundary s t) (l : List (List Byte)) : LeavesBoundary s (t.setHeld l) := h.same rfl rfl rfl rfl

/-- An audit entry goes to its ring, to the holding buffer, or is dropped (R108, R110). -/
theorem audit (h : LeavesBoundary s t) (actor event subject old written after : Nat) (detail : List Byte) (dword : Nat) :
    LeavesBoundary s (t.audit actor event subject old written after detail dword) := by
  have h1 : LeavesBoundary s { t with role := { t.role with auditSeq := t.role.auditSeq + 1 } } := h.same rfl rfl rfl rfl
  unfold State.audit
  dsimp only
  exact .ite (h1.auditWrite _) (.ite (h1.setHeld _) ((h1.put _ _ _).sat _ _ _))

theorem fault (h : LeavesBoundary s t) (cls source info : Nat) : LeavesBoundary s (t.fault cls source info) := by
  unfold State.fault State.add64
  dsimp only
  have h1 := (h.setPair (ERR.COUNT_CORRECTED_LO.off + 8 * cls) ((t.pair (ERR.COUNT_CORRECTED_LO.off + 8 * cls) + 1) % 2 ^ 64) 0).setReg
    ERR.STATUS.off (t.reg ERR.STATUS.off ||| BitVec.ofNat 32 (2 ^ cls)) 0
  have h2 := LeavesBoundary.ite (c := t.obsOpen = true) (h1.sat (ERR.OBS_COUNT.COUNT.word cls) 1 0) h1
  refine .ite (.same (.ite h2 ?_) rfl rfl rfl rfl) (.ite h2 ?_)
  all_goals exact ((((h2.put _ _ _).put _ _ _).put _ _ _).setPair _ _ _).setPair _ _ _

theorem eventX (h : LeavesBoundary s t) (e : Event) : LeavesBoundary s (t.eventX e) :=
  h.trans ⟨rfl, rfl, rfl, List.prefix_append _ _⟩

theorem markErr (h : LeavesBoundary s t) (q cause : Nat) : LeavesBoundary s (t.markErr q cause) := by
  unfold State.markErr State.rdmaEvent
  exact (((h.put _ _ _).put _ _ _).setQp _).eventX _

theorem cutPort (h : LeavesBoundary s t) (p : Nat) : LeavesBoundary s (t.cutPort p) := by
  unfold State.cutPort
  exact .ite (h.put _ _ _) (foldl (eventX (h.put _ _ _) _) _ fun u q k => k.markErr q 5)

theorem dropHolds (h : LeavesBoundary s t) : LeavesBoundary s t.dropHolds := by
  unfold State.dropHolds
  exact h.foldl _ fun u i k => .ite (((k.put _ _ _).cutPort _).cutPort _) k

end LeavesBoundary

/-- An event that is added later is added to what was there first. -/
theorem LeavesBoundary.events_add {s t : State} (h : LeavesBoundary s t) {l es : List Event} {e : Event} (hl : l = t.err.events ++ e :: es) :
    ∃ e' es', l = s.err.events ++ e' :: es' := by
  obtain ⟨m, hm⟩ := h.events
  rw [hl, ← hm, List.append_assoc]
  cases m with
  | nil => exact ⟨e, es, rfl⟩
  | cons e' m => exact ⟨e', m ++ e :: es, rfl⟩

/-! ### The entry into FAULT -/

/-- The registers that the entry into FAULT moves: the phase, the audit ring's, and those of links that close. -/
def enterFaultRegs (o : Nat) : Bool := o == SYS.BRINGUP_PHASE.PHASE.off || auditRegs o || dropRegs o

theorem enterFault_regs (s : State) : RegsBut enterFaultRegs s s.enterFault := by
  unfold State.enterFault State.toPhase
  refine .ite (.refl s) ?_
  have hphase := (RegsBut.refl (P := enterFaultRegs) s).put SYS.BRINGUP_PHASE.PHASE phFAULT 0 (by decide) (by decide)
  have haudit := (audit_regs (s.put SYS.BRINGUP_PHASE.PHASE phFAULT) actorCard 4 phFAULT 0 0 0 [] 0).mono (Q := enterFaultRegs)
    fun o h => by simp [enterFaultRegs, h]
  dsimp only
  have hevent := (hphase.trans haudit).same (u := ((s.toPhase phFAULT).emit .viral).event none 0x30 0) rfl
  exact (hevent.trans ((dropHolds_regs _).mono fun o h => by simp [enterFaultRegs, h])).same rfl

/-- A card that is not in FAULT ends its work as it enters (R57), and the entry is an event (R372). -/
theorem enterFault_of_phase_ne {s : State} (h : s.phase ≠ phFAULT) :
    s.enterFault.wk.works = [] ∧ s.enterFault.wk.latched = [] ∧ s.enterFault.bnd = s.bnd ∧ s.enterFault.ring = s.ring ∧
      s.enterFault.live = s.live ∧ ∃ e es, s.enterFault.err.events = s.err.events ++ e :: es := by
  have hphase : LeavesBoundary s (s.toPhase phFAULT) := ((LeavesBoundary.refl s).put _ _ _).audit _ _ _ _ _ _ _ _
  have hdrop := (LeavesBoundary.refl (((s.toPhase phFAULT).emit .viral).event none 0x30 0)).dropHolds
  unfold State.enterFault
  rw [if_neg h]
  refine ⟨rfl, rfl, hdrop.bnd.trans hphase.bnd, hdrop.ring.trans hphase.ring, hdrop.live.trans hphase.live, ?_⟩
  obtain ⟨m, hm⟩ := hdrop.events
  exact hphase.events_add (hm.symm.trans (List.append_assoc (s.toPhase phFAULT).err.events [_] m))

/-! ### The report of a fault -/

/-- The report of a fault sets the bit of its class in ERR.STATUS (R468). -/
theorem fault_status {s : State} (h : spWf regDefault s.regs = true) (cls source info : Nat) (hc : cls < 8) :
    (s.fault cls source info).reg ERR.STATUS.off = s.reg ERR.STATUS.off ||| BitVec.ofNat 32 (2 ^ cls) := by
  have hoff : ∀ c < 8, (ERR.OBS_COUNT.COUNT.word c).off ≠ ERR.STATUS.off ∧ (ERR.OBS_COUNT.COUNT.word c).off < 0x1000000 := by decide
  obtain ⟨hne, hlt⟩ := hoff cls hc
  unfold State.fault State.add64
  dsimp only
  have hw := ((RegsBut.refl (P := fun _ => true) s).setPair (ERR.COUNT_CORRECTED_LO.off + 8 * cls)
    ((s.pair (ERR.COUNT_CORRECTED_LO.off + 8 * cls) + 1) % 2 ^ 64) 0 rfl rfl (by simp only [ERR.COUNT_CORRECTED_LO.off]; omega)).wf h
  generalize s.setPair (ERR.COUNT_CORRECTED_LO.off + 8 * cls) ((s.pair (ERR.COUNT_CORRECTED_LO.off + 8 * cls) + 1) % 2 ^ 64) = c at hw
  have hset := reg_setReg_same c hw ERR.STATUS.off (s.reg ERR.STATUS.off ||| BitVec.ofNat 32 (2 ^ cls)) 0
  have hw1 := setReg_wf c hw ERR.STATUS.off (s.reg ERR.STATUS.off ||| BitVec.ofNat 32 (2 ^ cls)) 0
  generalize c.setReg ERR.STATUS.off (s.reg ERR.STATUS.off ||| BitVec.ofNat 32 (2 ^ cls)) = s1 at hset hw1
  rw [← hset]
  refine RegsBut.reg (P := fun o => o != ERR.STATUS.off) ?_ hw1 _ _ (by decide) (by decide)
  have h1 := RegsBut.refl (P := fun o => o != ERR.STATUS.off) s1
  have h2 := RegsBut.ite (c := s.obsOpen = true) (h1.sat (ERR.OBS_COUNT.COUNT.word cls) 1 0 (by simpa using hne) hlt) h1
  refine .ite (.same (.ite h2 ?_) rfl) (.ite h2 ?_)
  all_goals exact ((((h2.put _ _ _ (by decide) (by decide)).put _ _ _ (by decide) (by decide)).put _ _ _ (by decide)
    (by decide)).setPair _ _ _ (by decide) (by decide) (by decide)).setPair _ _ _ (by decide) (by decide) (by decide)

/-! ### The halt -/

variable {s : State}

/-- The counter at its end, HALTED. -/
def State.stopped (s : State) : State := { s with stroke := strokeMax }.put SYS.STROKE_STATUS.HALTED 1

/-- The state in which the halt enters FAULT: the counter stopped and the fault reported. -/
def State.halting (s : State) : State := s.stopped.fault clsFATAL 0 0

theorem haltCounter_eq (s : State) : s.haltCounter = s.halting.enterFault := rfl

theorem stopped_wf (h : spWf regDefault s.regs = true) : spWf regDefault s.stopped.regs = true :=
  setReg_wf { s with stroke := strokeMax } h _ _ _

theorem stopped_halted (h : spWf regDefault s.regs = true) : s.stopped.get SYS.STROKE_STATUS.HALTED = 1 :=
  get_put_same { s with stroke := strokeMax } h SYS.STROKE_STATUS.HALTED 1 0 (by decide)

theorem stopped_phase (h : spWf regDefault s.regs = true) : s.stopped.phase = s.phase :=
  get_put_reg { s with stroke := strokeMax } h SYS.STROKE_STATUS.HALTED 1 0 SYS.BRINGUP_PHASE.PHASE 0 (by decide)

theorem halting_regs (s : State) : RegsBut errRegs s.stopped s.halting := fault_regs _ _ _ _ (by decide)

theorem halting_wf (h : spWf regDefault s.regs = true) : spWf regDefault s.halting.regs = true := (halting_regs s).wf (stopped_wf h)

theorem halting_phase (h : spWf regDefault s.regs = true) : s.halting.phase = s.phase :=
  ((halting_regs s).get (stopped_wf h) SYS.BRINGUP_PHASE.PHASE 0 (by decide) (by decide)).trans (stopped_phase h)

theorem halting_leaves (s : State) : LeavesBoundary s s.halting :=
  (((LeavesBoundary.refl s).same (u := { s with stroke := strokeMax }) rfl rfl rfl rfl).put _ _ _).fault _ _ _

theorem haltCounter_stroke (s : State) : s.haltCounter.stroke = strokeMax := by
  rw [haltCounter_eq, (keeps_enterFault (Keeps.refl _)).stroke, State.halting, (keeps_fault (Keeps.refl _) _ _ _).stroke]
  rfl

theorem haltCounter_halted (h : spWf regDefault s.regs = true) : s.haltCounter.flag SYS.STROKE_STATUS.HALTED = true := by
  have hget : s.haltCounter.get SYS.STROKE_STATUS.HALTED = 1 := by
    rw [haltCounter_eq, (enterFault_regs _).get (halting_wf h) _ _ (by decide) (by decide),
      (halting_regs s).get (stopped_wf h) _ _ (by decide) (by decide), stopped_halted h]
  unfold State.flag
  simp [hget]

theorem haltCounter_fatal (h : spWf regDefault s.regs = true) : bits (s.haltCounter.reg ERR.STATUS.off).toNat clsFATAL 1 = 1 := by
  rw [haltCounter_eq, (enterFault_regs _).reg (halting_wf h) _ _ (by decide) (by decide), State.halting,
    fault_status (stopped_wf h) _ _ _ (by decide)]
  exact fieldGet_bitOr _ (k := clsFATAL) (by decide)

/-- A HALTED counter sees no further boundary (R30). -/
theorem exec_strokeBoundary_halted (h : s.flag SYS.STROKE_STATUS.HALTED = true) : exec .strokeBoundary s = .next s := by
  have hc : s.counting = false := by simp [State.counting, h]
  show execStrokeBoundary s = _
  simp [execStrokeBoundary, hc]

/-- Settles O7: both commands are the halt; its registers by `fault_regs` and `enterFault_regs`, its frame by `LeavesBoundary`. -/
theorem counterStopsAtItsEnd : Obligations.CounterStopsAtItsEnd := by
  intro s canon up last phase
  have h := canonical_regs canon
  have hphase : s.halting.phase ≠ phFAULT := halting_phase h ▸ phase
  obtain ⟨works, latched, bnd, ring, live, e, es, events⟩ := enterFault_of_phase_ne hphase
  refine ⟨s.haltCounter, ?boundary, ?halt, haltCounter_stroke s, haltCounter_halted h, haltCounter_fatal h,
    enterFault_phase _ (halting_wf h), works, latched, bnd.trans (halting_leaves s).bnd, ring.trans (halting_leaves s).ring,
    live.trans (halting_leaves s).live, (halting_leaves s).events_add events, exec_strokeBoundary_halted (haltCounter_halted h)⟩
  case boundary =>
    show execStrokeBoundary s = _
    simp [execStrokeBoundary, up, last]
  case halt =>
    show execCounterHalt s = _
    simp [execCounterHalt, up, last]

end Sys2Proof.Machine
end

section
/-! Fields of registers across writes: when two fields do not overlap, what keeps a field, and what several fields written together read as. -/

namespace Sys2Proof.Machine

variable {s t u : State} {f g : Fld} {i j : Nat}

/-- Field `f` with index `i` and field `g` with index `j` share no bit: they lie in two registers, or side by side in one. -/
abbrev Apart (f : Fld) (i : Nat) (g : Fld) (j : Nat) : Prop :=
  regKey g.off j ≠ regKey f.off i ∨ f.lo + f.w ≤ 32 ∧ (f.lo + f.w ≤ g.lo ∨ g.lo + g.w ≤ f.lo)

theorem apart_of_off (hf : f.off < 0x1000000) (hg : g.off < 0x1000000) (h : g.off ≠ f.off) : Apart f i g j := .inl (key_ne hg hf h)

theorem apart_of_inst (hf : f.off < 0x1000000) (hg : g.off < 0x1000000) (h : j ≠ i) : Apart f i g j :=
  .inl fun e => h (regKey_inj hg hf e).2

/-- A write of one field leaves a field apart from it. -/
theorem get_put_apart (h : spWf regDefault s.regs = true) (v : Nat) (d : Apart f i g j) : (s.put f v i).get g j = s.get g j := by
  by_cases hk : regKey g.off j = regKey f.off i
  · obtain ⟨hb, hd⟩ := d.resolve_left fun ne => ne hk
    have hs (w : State) : w.reg g.off j = w.reg f.off i := by unfold State.reg; rw [hk]
    unfold State.get State.put
    rw [hs, hs, reg_setReg_same s h, fieldGet_fieldPut_other _ _ _ _ _ _ hb hd]
  · exact get_put_reg s h f v i g j hk

/-- From `s` to `t` the register store stays canonical, and field `g` with index `j` keeps its value. -/
structure KeepsFld (g : Fld) (j : Nat) (s t : State) : Prop where
  wf : spWf regDefault s.regs = true → spWf regDefault t.regs = true
  get : spWf regDefault s.regs = true → t.get g j = s.get g j

namespace KeepsFld

theorem refl (s : State) : KeepsFld g j s s := ⟨id, fun _ => rfl⟩

theorem trans (h : KeepsFld g j s t) (k : KeepsFld g j t u) : KeepsFld g j s u :=
  ⟨fun w => k.wf (h.wf w), fun w => (k.get (h.wf w)).trans (h.get w)⟩

/-- What does not touch the registers. -/
theorem same (h : KeepsFld g j s t) (e : u.regs = t.regs) : KeepsFld g j s u :=
  h.trans ⟨fun w => e ▸ w, fun _ => by unfold State.get; rw [reg_of_regs e]⟩

theorem put (h : KeepsFld g j s t) (v : Nat) (d : Apart f i g j) : KeepsFld g j s (t.put f v i) :=
  h.trans ⟨fun w => setReg_wf t w _ _ _, fun w => get_put_apart w v d⟩

theorem ite {c : Prop} [Decidable c] {a b : State} (ha : KeepsFld g j s a) (hb : KeepsFld g j s b) :
    KeepsFld g j s (if c then a else b) := by
  split
  · exact ha
  · exact hb

theorem of_regsBut {P : Nat → Bool} (h : RegsBut P s t) (hg : g.off < 0x1000000) (hp : P g.off = false) : KeepsFld g j s t :=
  ⟨h.wf, fun w => h.get w g j hg hp⟩

theorem flag (h : KeepsFld g j s t) (w : spWf regDefault s.regs = true) : t.flag g j = s.flag g j := by
  unfold State.flag
  rw [h.get w]

end KeepsFld

/-- A field of one bit that is written reads as the bit. -/
theorem flag_put_same (h : spWf regDefault s.regs = true) (f : Fld) (v i : Nat) (b : f.lo + f.w ≤ 32) (hv : v < 2 ^ f.w) :
    (s.put f v i).flag f i = decide (v = 1) := by
  unfold State.flag
  rw [get_put_same s h f v i b, Nat.mod_eq_of_lt hv]

/-! ### Several fields of one index -/

/-- Fields of one index written one after another. -/
def State.putAll (s : State) (i : Nat) (l : List (Fld × Nat)) : State := l.foldl (fun s x => s.put x.1 x.2 i) s

theorem putAll_keepsFld (l : List (Fld × Nat)) (hl : ∀ f ∈ l.map Prod.fst, Apart f i g j) : KeepsFld g j s (s.putAll i l) := by
  induction l generalizing s with
  | nil => exact .refl s
  | cons x l ih =>
    obtain ⟨hx, hl⟩ := List.forall_mem_cons.1 hl
    exact ((KeepsFld.refl s).put x.2 hx).trans (ih hl)

theorem putAll_regsBut {P : Nat → Bool} (l : List (Fld × Nat)) (hl : ∀ f ∈ l.map Prod.fst, P f.off = true ∧ f.off < 0x1000000) :
    RegsBut P s (s.putAll i l) :=
  List.foldlRecOn l _ (.refl s) fun u hu x hx => by
    obtain ⟨hp, ho⟩ := hl x.1 (List.mem_map_of_mem hx)
    exact hu.put x.1 x.2 i hp ho

/-- Each of several fields that do not overlap reads as it was written. -/
theorem get_putAll (h : spWf regDefault s.regs = true) (l : List (Fld × Nat)) (hl : (l.map Prod.fst).Pairwise fun a b => Apart b i a i)
    {x : Fld × Nat} (hx : x ∈ l) (hb : x.1.lo + x.1.w ≤ 32) : (s.putAll i l).get x.1 i = x.2 % 2 ^ x.1.w := by
  induction l generalizing s with
  | nil => cases hx
  | cons y l ih =>
    obtain ⟨hy, hl⟩ := List.pairwise_cons.1 hl
    have hw : spWf regDefault (s.put y.1 y.2 i).regs = true := setReg_wf s h _ _ _
    cases hx with
    | head => exact ((putAll_keepsFld l hy).get hw).trans (get_put_same s h _ _ _ hb)
    | tail _ hx => exact ih hw hl hx

end Sys2Proof.Machine
end

section
/-! The armed switches (R27, R49, R52, R53, R425, R522): the boundary as it reaches step 5, the judgement of what is due, and what the end of
a switch leaves. -/

namespace Sys2Proof.Machine

variable {s : State}

/-! ### The boundary from step 5 on -/

/-- A boundary is step 5 on what steps 1 to 4 leave, and outside FAULT the units' turns after it (R37). -/
theorem boundary_eq (s : State) : s.boundary =
    if s.begun.working then (s.beforeSwitches.stepFive.unitTurns (s.begun.flag SYS.STROKE_STATUS.PACER)).noteWaits
    else s.beforeSwitches.stepFive := by
  unfold State.beforeSwitches
  split
  case isTrue h => exact if_pos h
  case isFalse h => exact if_neg h

/-- Steps 2 to 4 leave the Stroke that step 1 began (R26, R37). -/
theorem beforeSwitches_stroke (s : State) : s.beforeSwitches.stroke = s.begun.stroke := by
  unfold State.beforeSwitches
  split
  case isTrue => exact (keeps_stepFour (keeps_stepThree (keeps_stepTwo (Keeps.refl _)))).stroke
  case isFalse => exact (keeps_expireNonce (keeps_auditDrain (keeps_signalErr (keeps_writeEvents (keeps_signalCqs (Keeps.refl _)))) 64)).stroke

/-- The Stroke of the boundary is the one that step 5 finds. -/
theorem boundary_stroke_eq (s : State) : s.boundary.stroke = s.beforeSwitches.stroke := by
  rw [boundary_eq]
  split
  case isTrue => exact (keeps_noteWaits (keeps_unitTurns (keeps_stepFive (Keeps.refl _)) _)).stroke
  case isFalse => exact (keeps_stepFive (Keeps.refl _)).stroke

/-! ### The two commands -/

theorem dueNext_some (up : s.counting = true) (last : s.lastBoundary = false) (n : Nat) : s.dueNext (some n) = decide (n ≤ s.nextStroke) := by
  simp [State.dueNext, up, last]

theorem exec_periodSwitch (s : State) : exec .periodSwitch s = .next (if s.dueNext s.bnd.armedPeriod then s.boundary else s) := rfl

theorem exec_shadowSwitch (s : State) : exec .shadowSwitch s = .next (if s.dueNext s.bnd.armedPart then s.boundary else s) := rfl

/-- What a switch's command does with a switch armed for Stroke `n`: `r` is the command's answer. -/
theorem armed_switch {a : Option Nat} {r : Res} (up : s.counting = true) (last : s.lastBoundary = false)
    (hr : r = .next (if s.dueNext a then s.boundary else s)) (n : Nat) (ha : a = some n) :
    (n ≤ s.nextStroke → s.begun.working = true →
      r = .next (s.beforeSwitches.stepFive.unitTurns (s.begun.flag SYS.STROKE_STATUS.PACER)).noteWaits) ∧
    (n ≤ s.nextStroke → s.begun.working = false → r = .next s.beforeSwitches.stepFive) ∧
    (s.nextStroke < n → r = .next s) := by
  rw [ha, dueNext_some up last] at hr
  refine ⟨fun due works => ?_, fun due works => ?_, fun early => ?_⟩
  · rw [hr, if_pos (decide_eq_true due), boundary_eq, if_pos works]
  · rw [hr, if_pos (decide_eq_true due), boundary_eq, if_neg (by simp [works])]
  · rw [hr, if_neg (by simpa using early)]

/-! ### The judgement of the switches that are due -/

theorem outside_eq_false {v lo hi : Nat} : outside v lo hi = false ↔ lo ≤ v ∧ v ≤ hi := by
  simp [outside]

theorem outside_eq_true {v lo hi : Nat} : outside v lo hi = true ↔ v < lo ∨ hi < v := by
  simp [outside]

section judged

variable (hp : s.dueAt s.bnd.armedPeriod = true) (np : s.dueAt s.bnd.armedPeriod = false) (hb : s.dueAt s.bnd.armedPart = true)
  (nb : s.dueAt s.bnd.armedPart = false) (good : 2 ≤ s.get SYS.STROKE_PERIOD.NEXT_US ∧ s.get SYS.STROKE_PERIOD.NEXT_US ≤ 64)
  (bad : s.get SYS.STROKE_PERIOD.NEXT_US < 2 ∨ 64 < s.get SYS.STROKE_PERIOD.NEXT_US)

include np nb in
theorem switches_none : s.switches = s := by
  simp [State.switches, np, nb]

include hp nb good in
/-- A period switch due alone is held against the live budgets (R49, log 79). -/
theorem switches_period : s.switches =
    if (Res6.sum (s.parts.map s.budget)).le (s.capacityAt (s.get SYS.STROKE_PERIOD.NEXT_US)) then (s.endPeriod true).audit actorCard 5 1
    else ((s.endPeriod false).refuseSwitch 1).audit actorCard 5 5 := by
  have ho := outside_eq_false.2 good
  split
  case isTrue h => simp [State.switches, State.dueCause, hp, nb, ho, h, b01]
  case isFalse h => simp [State.switches, State.dueCause, hp, nb, ho, h, b01]

include hp nb bad in
theorem switches_period_bad : s.switches = (s.endPeriod false).audit actorCard 5 5 := by
  simp [State.switches, State.dueCause, hp, nb, outside_eq_true.2 bad, b01]

include np hb in
theorem switches_part : s.switches = (s.endPart (s.switchCause s.period false)).audit actorCard 5
    (if s.switchCause s.period false = 0 then 2 else 6) := by
  split
  case isTrue h => simp [State.switches, State.dueCause, np, hb, h, b01]
  case isFalse h => simp [State.switches, State.dueCause, np, hb, h, b01]

include hp hb good in
/-- Two switches due at one boundary take effect, or are refused, together (R53). -/
theorem switches_both : s.switches =
    ((s.endPeriod (s.switchCause (s.get SYS.STROKE_PERIOD.NEXT_US) false == 0)).endPart
      (s.switchCause (s.get SYS.STROKE_PERIOD.NEXT_US) false)).audit actorCard 5
      (if s.switchCause (s.get SYS.STROKE_PERIOD.NEXT_US) false = 0 then 3 else 7) := by
  have ho := outside_eq_false.2 good
  split
  case isTrue h => simp [State.switches, State.dueCause, hp, hb, ho, h, b01]
  case isFalse h => simp [State.switches, State.dueCause, hp, hb, ho, h, b01]

include hp hb bad in
theorem switches_both_bad : s.switches = ((s.endPeriod false).endPart (s.switchCause s.period true)).audit actorCard 5 7 := by
  simp [State.switches, State.dueCause, hp, hb, outside_eq_true.2 bad, b01]

end judged

/-! ### The end of a period switch -/

/-- The arming of the period switch taken back: what `endPeriod` does whether or not the switch is done. -/
def State.disarmPeriod (s : State) : State :=
  let t := (s.put SYS.STROKE_CTRL.ARM_PERIOD 0).put SYS.STROKE_STATUS.ARMED 0
  { t with bnd := { t.bnd with armedPeriod := none } }

theorem endPeriod_false (s : State) : s.endPeriod false = s.disarmPeriod.put SYS.STROKE_STATUS.REFUSED 1 := rfl

theorem endPeriod_true (s : State) : s.endPeriod true =
    if s.lateAt s.bnd.armedPeriod then
      (s.disarmPeriod.put SYS.STROKE_PERIOD.PERIOD_US (s.get SYS.STROKE_PERIOD.NEXT_US)).put SYS.STROKE_STATUS.SWITCH_LATE 1
    else s.disarmPeriod.put SYS.STROKE_PERIOD.PERIOD_US (s.get SYS.STROKE_PERIOD.NEXT_US) := rfl

theorem endPeriod_armed (s : State) (ok : Bool) : (s.endPeriod ok).bnd.armedPeriod = none := by
  cases ok with
  | false => rfl
  | true => rw [endPeriod_true]; split <;> rfl

theorem disarmPeriod_keepsFld {g : Fld} {j : Nat} (h1 : Apart SYS.STROKE_CTRL.ARM_PERIOD 0 g j) (h2 : Apart SYS.STROKE_STATUS.ARMED 0 g j) :
    KeepsFld g j s s.disarmPeriod :=
  (((KeepsFld.refl s).put 0 h1).put 0 h2).same rfl

section period

variable (h : spWf regDefault s.regs = true)
include h

theorem disarmPeriod_wf : spWf regDefault s.disarmPeriod.regs = true :=
  (disarmPeriod_keepsFld (g := SYS.STROKE_PERIOD.PERIOD_US) (j := 0) (by decide) (by decide)).wf h

theorem disarmPeriod_disarmed : s.disarmPeriod.flag SYS.STROKE_CTRL.ARM_PERIOD = false := by
  have hkeep : KeepsFld SYS.STROKE_CTRL.ARM_PERIOD 0 (s.put SYS.STROKE_CTRL.ARM_PERIOD 0) s.disarmPeriod :=
    ((KeepsFld.refl _).put (f := SYS.STROKE_STATUS.ARMED) (i := 0) 0 (by decide)).same rfl
  rw [hkeep.flag (setReg_wf s h _ _ _), flag_put_same h _ _ _ (by decide) (by decide)]
  rfl

theorem endPeriod_disarmed (ok : Bool) : (s.endPeriod ok).flag SYS.STROKE_CTRL.ARM_PERIOD = false := by
  have hkeep : KeepsFld SYS.STROKE_CTRL.ARM_PERIOD 0 s.disarmPeriod (s.endPeriod ok) := by
    cases ok with
    | false => exact (KeepsFld.refl _).put _ (by decide)
    | true =>
      have hset := (KeepsFld.refl (g := SYS.STROKE_CTRL.ARM_PERIOD) (j := 0) s.disarmPeriod).put (f := SYS.STROKE_PERIOD.PERIOD_US) (i := 0)
        (s.get SYS.STROKE_PERIOD.NEXT_US) (by decide)
      exact .ite (hset.put _ (by decide)) hset
  rw [hkeep.flag (disarmPeriod_wf h), disarmPeriod_disarmed h]

theorem endPeriod_false_period : (s.endPeriod false).period = s.period :=
  ((disarmPeriod_keepsFld (by decide) (by decide)).put (f := SYS.STROKE_STATUS.REFUSED) (i := 0) 1 (by decide)).get h

theorem endPeriod_false_refused : (s.endPeriod false).flag SYS.STROKE_STATUS.REFUSED = true :=
  flag_put_same (disarmPeriod_wf h) SYS.STROKE_STATUS.REFUSED 1 0 (by decide) (by decide)

/-- A switch that is done puts NEXT_US in force. -/
theorem endPeriod_true_period : (s.endPeriod true).period = s.get SYS.STROKE_PERIOD.NEXT_US := by
  have hset : (s.disarmPeriod.put SYS.STROKE_PERIOD.PERIOD_US (s.get SYS.STROKE_PERIOD.NEXT_US)).period = s.get SYS.STROKE_PERIOD.NEXT_US :=
    (get_put_same _ (disarmPeriod_wf h) _ _ _ (by decide)).trans (Nat.mod_eq_of_lt (fieldGet_lt _ _ _))
  rw [endPeriod_true]
  split
  case isTrue => exact (get_put_apart (setReg_wf _ (disarmPeriod_wf h) _ _ _) 1 (by decide)).trans hset
  case isFalse => exact hset

/-- A switch that is done after its target sets SWITCH_LATE (R522). -/
theorem endPeriod_true_late : (s.endPeriod true).flag SYS.STROKE_STATUS.SWITCH_LATE =
    (s.lateAt s.bnd.armedPeriod || s.flag SYS.STROKE_STATUS.SWITCH_LATE) := by
  have hkeep : KeepsFld SYS.STROKE_STATUS.SWITCH_LATE 0 s
      (s.disarmPeriod.put SYS.STROKE_PERIOD.PERIOD_US (s.get SYS.STROKE_PERIOD.NEXT_US)) :=
    (disarmPeriod_keepsFld (by decide) (by decide)).put _ (by decide)
  rw [endPeriod_true]
  cases hl : s.lateAt s.bnd.armedPeriod with
  | false => exact hkeep.flag h
  | true => exact flag_put_same (hkeep.wf h) SYS.STROKE_STATUS.SWITCH_LATE 1 0 (by decide) (by decide)

end period

/-! ### The shadows taken -/

/-- The live budgets' fields. -/
def budgetFlds : List Fld := [PART.BUDGET_DRAM_LIVE.LIVE, PART.BUDGET_FLASH_LIVE.LIVE, PART.BUDGET_ENGINE_LIVE.LIVE,
  PART.BUDGET_SEARCH_LIVE.LIVE, PART.BUDGET_SPOKE_LIVE.LIVE, PART.BUDGET_POOL_LIVE.LIVE]

/-- The shadow budgets' fields. -/
def shadowFlds : List Fld := [PART.BUDGET_DRAM.NEXT, PART.BUDGET_FLASH.NEXT, PART.BUDGET_ENGINE.NEXT, PART.BUDGET_SEARCH.NEXT,
  PART.BUDGET_SPOKE.NEXT, PART.BUDGET_POOL.NEXT]

/-- The live budgets' fields with what they take from partition `p`'s shadows. -/
def State.taken (s : State) (p : Nat) : List (Fld × Nat) :=
  let b := s.shadow p
  [(PART.BUDGET_DRAM_LIVE.LIVE, b.dram), (PART.BUDGET_FLASH_LIVE.LIVE, b.flash), (PART.BUDGET_ENGINE_LIVE.LIVE, b.engine),
    (PART.BUDGET_SEARCH_LIVE.LIVE, b.search), (PART.BUDGET_SPOKE_LIVE.LIVE, b.spoke), (PART.BUDGET_POOL_LIVE.LIVE, b.pool)]

theorem taken_flds (p : Nat) : (s.taken p).map Prod.fst = budgetFlds := rfl

theorem takeShadow_eq (p : Nat) : s.takeShadow p = ((s.putAll p (s.taken p)).setLive PART.RISK_MARGIN.off (s.reg PART.RISK_MARGIN.off p) p).setLive
    PART.IMPLICIT_HORIZON.off (s.reg PART.IMPLICIT_HORIZON.off p) p := rfl

theorem takeShadow_regs (p : Nat) : (s.takeShadow p).regs = (s.putAll p (s.taken p)).regs := by
  rw [takeShadow_eq, State.setLive_regs, State.setLive_regs]

theorem budget_of_get {t : State} {p : Nat} (e : ∀ f ∈ budgetFlds, t.get f p = s.get f p) : t.budget p = s.budget p := by
  simp only [budgetFlds, List.forall_mem_cons] at e
  obtain ⟨e1, e2, e3, e4, e5, e6, -⟩ := e
  unfold State.budget
  rw [e1, e2, e3, e4, e5, e6]

theorem shadow_of_get {t : State} {p : Nat} (e : ∀ f ∈ shadowFlds, t.get f p = s.get f p) : t.shadow p = s.shadow p := by
  simp only [shadowFlds, List.forall_mem_cons] at e
  obtain ⟨e1, e2, e3, e4, e5, e6, -⟩ := e
  unfold State.shadow
  rw [e1, e2, e3, e4, e5, e6]

theorem takeShadow_keepsFld (p : Nat) {g : Fld} {j : Nat} (hg : ∀ f ∈ budgetFlds, Apart f p g j) : KeepsFld g j s (s.takeShadow p) :=
  (putAll_keepsFld (s.taken p) (taken_flds p ▸ hg)).same (takeShadow_regs p)

theorem budgetFlds_off : ∀ f ∈ budgetFlds, f.off < 0x1000000 := by decide

theorem taken_lt (p : Nat) : ∀ x ∈ s.taken p, x.2 < 2 ^ x.1.w := by
  simp only [State.taken, List.forall_mem_cons]
  exact ⟨fieldGet_lt _ _ _, fieldGet_lt _ _ _, fieldGet_lt _ _ _, fieldGet_lt _ _ _, fieldGet_lt _ _ _, fieldGet_lt _ _ _,
    fun _ h => absurd h List.not_mem_nil⟩

theorem takeShadow_get (h : spWf regDefault s.regs = true) (p : Nat) : ∀ x ∈ s.taken p, (s.takeShadow p).get x.1 p = x.2 := by
  have hpair : budgetFlds.Pairwise fun a b => Apart b p a p := by
    have hoff : budgetFlds.Pairwise fun a b => a.off ≠ b.off := by decide
    exact hoff.imp_of_mem fun ha hb hne => apart_of_off (budgetFlds_off _ hb) (budgetFlds_off _ ha) hne
  have hbits : ∀ f ∈ budgetFlds, f.lo + f.w ≤ 32 := by decide
  intro x hx
  have hfld : x.1 ∈ budgetFlds := taken_flds (s := s) p ▸ List.mem_map_of_mem hx
  calc (s.takeShadow p).get x.1 p = (s.putAll p (s.taken p)).get x.1 p := by
        unfold State.get; rw [reg_of_regs (takeShadow_regs p)]
    _ = x.2 % 2 ^ x.1.w := get_putAll h _ (taken_flds (s := s) p ▸ hpair) hx (hbits _ hfld)
    _ = x.2 := Nat.mod_eq_of_lt (taken_lt p x hx)

/-- The live budgets of a partition that takes its shadows are the shadows. -/
theorem takeShadow_budget (h : spWf regDefault s.regs = true) (p : Nat) : (s.takeShadow p).budget p = s.shadow p := by
  have e := takeShadow_get h p
  simp only [State.taken, List.forall_mem_cons] at e
  obtain ⟨e1, e2, e3, e4, e5, e6, -⟩ := e
  unfold State.budget
  rw [e1, e2, e3, e4, e5, e6]

theorem shadowFlds_apart (p q : Nat) : ∀ g ∈ shadowFlds, ∀ f ∈ budgetFlds, Apart f q g p := by
  have hne : ∀ g ∈ shadowFlds, ∀ f ∈ budgetFlds, g.off < 0x1000000 ∧ g.off ≠ f.off := by decide
  exact fun g hg f hf => apart_of_off (budgetFlds_off f hf) (hne g hg f hf).1 (hne g hg f hf).2

theorem takeShadow_shadow (h : spWf regDefault s.regs = true) (p q : Nat) : (s.takeShadow q).shadow p = s.shadow p :=
  shadow_of_get fun g hg => (takeShadow_keepsFld q (shadowFlds_apart p q g hg)).get h

/-- A partition that takes its shadows leaves every other's live budgets. -/
theorem takeShadow_budget_other (h : spWf regDefault s.regs = true) {p q : Nat} (hpq : p ≠ q) : (s.takeShadow q).budget p = s.budget p :=
  budget_of_get fun g hg =>
    (takeShadow_keepsFld q fun f hf => apart_of_inst (budgetFlds_off f hf) (budgetFlds_off g hg) hpq).get h

theorem takeShadow_wf (h : spWf regDefault s.regs = true) (p : Nat) : spWf regDefault (s.takeShadow p).regs = true :=
  (takeShadow_keepsFld p (g := PART.BUDGET_DRAM.NEXT) (j := p) (shadowFlds_apart p p _ (by decide))).wf h

/-- Of several partitions that take their shadows, each ends with its own. -/
theorem foldl_takeShadow_budget (p : Nat) (l : List Nat) (h : spWf regDefault s.regs = true) (hp : p ∈ l ∨ s.budget p = s.shadow p) :
    (l.foldl State.takeShadow s).budget p = s.shadow p := by
  induction l generalizing s with
  | nil => exact hp.resolve_left List.not_mem_nil
  | cons q l ih =>
    rw [List.foldl_cons, ih (takeShadow_wf h q), takeShadow_shadow h p q]
    rw [takeShadow_shadow h p q]
    by_cases hpq : p = q
    · subst hpq
      exact .inr (takeShadow_budget h p)
    · rw [takeShadow_budget_other h hpq]
      exact hp.imp_left fun hm => (List.mem_cons.1 hm).resolve_left hpq

/-- The registers that the switch of the shadows writes: the live budgets and the tenants' partitions. -/
def shadowRegs (o : Nat) : Bool := budgetFlds.any (·.off == o) || o == PART.TENANT_PARTITION.off

theorem takeShadow_regsBut (p : Nat) : RegsBut shadowRegs s (s.takeShadow p) := by
  have hflds : ∀ f ∈ budgetFlds, shadowRegs f.off = true ∧ f.off < 0x1000000 := by decide
  exact (putAll_regsBut (s.taken p) (taken_flds (s := s) p ▸ hflds)).same (takeShadow_regs p)

theorem moveTenant_regsBut (t : Nat) : RegsBut (· == PART.TENANT_PARTITION.off) s (s.moveTenant t) :=
  ((RegsBut.refl s).put PART.TENANT_PARTITION.LIVE _ t (by decide) (by decide)).same rfl

theorem moveTenants_regsBut (l : List Nat) : RegsBut (· == PART.TENANT_PARTITION.off) s (l.foldl State.moveTenant s) :=
  (RegsBut.refl s).foldl l fun _ t h => h.trans (moveTenant_regsBut t)

/-- The balances cut to the shadows that they come from, as the switch of the shadows begins (R254). -/
def State.cutBalances (s : State) : State :=
  { s with bnd := { s.bnd with bal := s.bnd.bal.map fun b => { b with unbraked := min b.unbraked (s.budget b.part).search } } }

theorem takeShadows_eq (s : State) : s.takeShadows = s.tenants.foldl State.moveTenant (s.parts.foldl State.takeShadow s.cutBalances) := rfl

theorem takeShadows_regsBut (s : State) : RegsBut shadowRegs s s.takeShadows := by
  have hcut : RegsBut shadowRegs s s.cutBalances := (RegsBut.refl s).same rfl
  rw [takeShadows_eq]
  refine (hcut.foldl s.parts fun u p h => h.trans (takeShadow_regsBut p)).trans ((moveTenants_regsBut s.tenants).mono fun o ho => ?_)
  simp only [shadowRegs, ho, Bool.or_true]

theorem takeShadows_armed (s : State) : s.takeShadows.bnd.armedPart = s.bnd.armedPart := by
  have hmove (l : List Nat) (u : State) : (l.foldl State.moveTenant u).bnd = u.bnd := foldl_bnd (f := State.moveTenant) (fun _ _ => rfl) l u
  have htake (l : List Nat) (u : State) : (l.foldl State.takeShadow u).bnd = u.bnd := foldl_bnd (f := State.takeShadow) (fun _ _ => rfl) l u
  rw [takeShadows_eq, hmove, htake]
  rfl

/-- After the switch every partition's live budgets are its shadows (R52). -/
theorem takeShadows_budget (h : spWf regDefault s.regs = true) {p : Nat} (hp : p ∈ s.parts) : s.takeShadows.budget p = s.shadow p := by
  have hcut : spWf regDefault s.cutBalances.regs = true := h
  have hw : spWf regDefault (s.parts.foldl State.takeShadow s.cutBalances).regs = true :=
    List.foldlRecOn s.parts _ (motive := fun u : State => spWf regDefault u.regs = true) hcut fun u hu q _ => takeShadow_wf hu q
  have hne : ∀ g ∈ budgetFlds, (g.off == PART.TENANT_PARTITION.off) = false := by decide
  rw [takeShadows_eq, budget_of_get fun g hg => (moveTenants_regsBut s.tenants).get hw g p (budgetFlds_off g hg) (hne g hg)]
  exact foldl_takeShadow_budget p s.parts hcut (.inl hp)

/-! ### The end of a switch of the shadows -/

/-- The arming of the switch of the shadows taken back: what `endPart` does whether or not the switch is done. -/
def State.disarmPart (s : State) : State :=
  let t := (s.put PART.SWITCH_CTRL.ARM 0).put PART.SWITCH_STATUS.ARMED 0
  { t with bnd := { t.bnd with armedPart := none } }

theorem endPart_refused {k : Nat} (hk : k ≠ 0) :
    s.endPart k = (s.disarmPart.put PART.SWITCH_STATUS.REFUSE_CAUSE k).put PART.SWITCH_STATUS.REFUSED 1 := if_pos hk

theorem endPart_done (s : State) : s.endPart 0 =
    if s.lateAt s.bnd.armedPart then (s.disarmPart.put PART.SWITCH_STATUS.REFUSE_CAUSE 0).takeShadows.put PART.SWITCH_STATUS.SWITCH_LATE 1
    else (s.disarmPart.put PART.SWITCH_STATUS.REFUSE_CAUSE 0).takeShadows := rfl

theorem endPart_armed (s : State) (k : Nat) : (s.endPart k).bnd.armedPart = none := by
  by_cases hk : k = 0
  · rw [hk, endPart_done]
    split
    case isTrue => exact takeShadows_armed _
    case isFalse => exact takeShadows_armed _
  · rw [endPart_refused hk]
    rfl

theorem disarmPart_keepsFld {g : Fld} {j : Nat} (h1 : Apart PART.SWITCH_CTRL.ARM 0 g j) (h2 : Apart PART.SWITCH_STATUS.ARMED 0 g j) :
    KeepsFld g j s s.disarmPart :=
  (((KeepsFld.refl s).put 0 h1).put 0 h2).same rfl

/-- The switch of the shadows leaves what lies apart from the registers that it writes. -/
theorem takeShadows_keepsFld {g : Fld} {j : Nat} (hg : g.off < 0x1000000) (hs : shadowRegs g.off = false) : KeepsFld g j s s.takeShadows :=
  .of_regsBut (takeShadows_regsBut s) hg hs

section part

variable (h : spWf regDefault s.regs = true)
include h

theorem disarmPart_wf : spWf regDefault s.disarmPart.regs = true :=
  (disarmPart_keepsFld (g := PART.SWITCH_STATUS.REFUSED) (j := 0) (by decide) (by decide)).wf h

theorem disarmPart_disarmed : s.disarmPart.flag PART.SWITCH_CTRL.ARM = false := by
  have hkeep : KeepsFld PART.SWITCH_CTRL.ARM 0 (s.put PART.SWITCH_CTRL.ARM 0) s.disarmPart :=
    ((KeepsFld.refl _).put (f := PART.SWITCH_STATUS.ARMED) (i := 0) 0 (by decide)).same rfl
  rw [hkeep.flag (setReg_wf s h _ _ _), flag_put_same h _ _ _ (by decide) (by decide)]
  rfl

theorem endPart_disarmed (k : Nat) : (s.endPart k).flag PART.SWITCH_CTRL.ARM = false := by
  have hkeep : KeepsFld PART.SWITCH_CTRL.ARM 0 s.disarmPart (s.endPart k) := by
    have hcause := (KeepsFld.refl (g := PART.SWITCH_CTRL.ARM) (j := 0) s.disarmPart).put (f := PART.SWITCH_STATUS.REFUSE_CAUSE) (i := 0) k
      (by decide)
    by_cases hk : k = 0
    · subst hk
      have htake := hcause.trans (takeShadows_keepsFld (by decide) (by decide))
      rw [endPart_done]
      exact .ite (htake.put _ (by decide)) htake
    · rw [endPart_refused hk]
      exact hcause.put _ (by decide)
  rw [hkeep.flag (disarmPart_wf h), disarmPart_disarmed h]

/-- REFUSE_CAUSE shows the cause, 0 for a switch that is done (Table 2-12). -/
theorem endPart_cause {k : Nat} (hk : k < 8) : (s.endPart k).get PART.SWITCH_STATUS.REFUSE_CAUSE = k := by
  have hw := setReg_wf s.disarmPart (disarmPart_wf h) PART.SWITCH_STATUS.off
    (fieldPut (s.disarmPart.reg PART.SWITCH_STATUS.off) 8 3 k) 0
  have hkeep : KeepsFld PART.SWITCH_STATUS.REFUSE_CAUSE 0 (s.disarmPart.put PART.SWITCH_STATUS.REFUSE_CAUSE k) (s.endPart k) := by
    by_cases h0 : k = 0
    · subst h0
      have htake := takeShadows_keepsFld (g := PART.SWITCH_STATUS.REFUSE_CAUSE) (j := 0)
        (s := s.disarmPart.put PART.SWITCH_STATUS.REFUSE_CAUSE 0) (by decide) (by decide)
      rw [endPart_done]
      exact .ite (htake.put _ (by decide)) htake
    · rw [endPart_refused h0]
      exact (KeepsFld.refl _).put _ (by decide)
  rw [hkeep.get hw, get_put_same _ (disarmPart_wf h) _ _ _ (by decide)]
  exact Nat.mod_eq_of_lt hk

theorem endPart_refused_flag {k : Nat} (hk : k ≠ 0) : (s.endPart k).flag PART.SWITCH_STATUS.REFUSED = true := by
  rw [endPart_refused hk]
  exact flag_put_same (setReg_wf _ (disarmPart_wf h) _ _ _) _ 1 0 (by decide) (by decide)

theorem endPart_done_late : (s.endPart 0).flag PART.SWITCH_STATUS.SWITCH_LATE =
    (s.lateAt s.bnd.armedPart || s.flag PART.SWITCH_STATUS.SWITCH_LATE) := by
  have hkeep : KeepsFld PART.SWITCH_STATUS.SWITCH_LATE 0 s (s.disarmPart.put PART.SWITCH_STATUS.REFUSE_CAUSE 0).takeShadows :=
    ((disarmPart_keepsFld (by decide) (by decide)).put _ (by decide)).trans (takeShadows_keepsFld (by decide) (by decide))
  rw [endPart_done]
  cases hl : s.lateAt s.bnd.armedPart with
  | false => exact hkeep.flag h
  | true => exact flag_put_same (hkeep.wf h) PART.SWITCH_STATUS.SWITCH_LATE 1 0 (by decide) (by decide)

/-- A switch that is done puts each partition's shadow budgets in force (R52). -/
theorem endPart_done_budget {p : Nat} (hp : p ∈ s.parts) : (s.endPart 0).budget p = s.shadow p := by
  have hbefore : (s.disarmPart.put PART.SWITCH_STATUS.REFUSE_CAUSE 0).shadow p = s.shadow p := by
    have hne : ∀ g ∈ shadowFlds, g.off < 0x1000000 ∧ g.off ≠ PART.SWITCH_CTRL.off ∧ g.off ≠ PART.SWITCH_STATUS.off := by decide
    refine shadow_of_get fun g hg => ?_
    obtain ⟨ho, hc, hs⟩ := hne g hg
    exact ((disarmPart_keepsFld (apart_of_off (by decide) ho hc) (apart_of_off (by decide) ho hs)).put _ (apart_of_off (by decide) ho hs)).get h
  have hafter (u : State) (hu : spWf regDefault u.regs = true) : (u.put PART.SWITCH_STATUS.SWITCH_LATE 1).budget p = u.budget p := by
    have hne : ∀ g ∈ budgetFlds, g.off ≠ PART.SWITCH_STATUS.off := by decide
    exact budget_of_get fun g hg => get_put_apart hu 1 (apart_of_off (by decide) (budgetFlds_off g hg) (hne g hg))
  have hw : spWf regDefault (s.disarmPart.put PART.SWITCH_STATUS.REFUSE_CAUSE 0).regs = true := setReg_wf _ (disarmPart_wf h) _ _ _
  rw [endPart_done]
  split
  case isTrue => rw [hafter _ ((takeShadows_regsBut _).wf hw), takeShadows_budget hw hp, hbefore]
  case isFalse => rw [takeShadows_budget hw hp, hbefore]

end part

/-- SWITCH_LATE reads 1 where the target lies before the Stroke (R522), and where it read 1 before. -/
theorem late_iff {a : Option Nat} {b c : Bool} (h : b = (s.lateAt a || c)) : b = true ↔ c = true ∨ ∃ n, a = some n ∧ n < s.stroke := by
  rw [h, Bool.or_eq_true, or_comm, State.lateAt, Option.any_eq_true]
  simp

/-- Settles O20: the commands by `boundary_eq`, the judgement case by case of what is due, and what each end of a switch leaves. -/
theorem periodAndPartitionSwitch : Obligations.PeriodAndPartitionSwitch := by
  refine ⟨?commands, ?judged, ?ends⟩
  case commands =>
    rintro s u up last rfl
    refine ⟨?_, rfl, armed_switch up last (exec_periodSwitch s), armed_switch up last (exec_shadowSwitch s), fun unarmed => ?_, fun unarmed => ?_⟩
    · rw [← boundary_stroke_eq, boundary_stroke_of_lt (lastBoundary_eq_false.1 last)]
    · simp [exec_periodSwitch, unarmed, State.dueNext]
    · simp [exec_shadowSwitch, unarmed, State.dueNext]
  case judged =>
    intro s
    refine ⟨switches_none, fun hp nb => ⟨fun lo hi fits => ?_, switches_period_bad hp nb, fun lo hi exceeds => ?_⟩,
      fun np hb => ⟨fun done => ?_, fun cause => ?_⟩,
      fun hp hb => ⟨fun lo hi => ⟨fun done => ?_, fun k hk cause => ?_⟩, switches_both_bad hp hb⟩⟩
    · rw [switches_period hp nb ⟨lo, hi⟩, if_pos fits]
    · rw [switches_period hp nb ⟨lo, hi⟩, if_neg (by simp [exceeds])]
    · rw [switches_part np hb, if_pos done, done]
    · rw [switches_part np hb, if_neg cause]
    · rw [switches_both hp hb ⟨lo, hi⟩, if_pos done, done]
      rfl
    · subst hk
      rw [switches_both hp hb ⟨lo, hi⟩, if_neg cause, beq_false_of_ne cause]
  case ends =>
    intro s canon
    have h := canonical_regs canon
    refine ⟨⟨endPeriod_true_period h, endPeriod_disarmed h true, endPeriod_armed s true, late_iff (endPeriod_true_late h)⟩,
      ⟨endPeriod_false_period h, endPeriod_false_refused h, endPeriod_disarmed h false, endPeriod_armed s false⟩,
      ⟨fun p hp _ => endPart_done_budget h hp, endPart_disarmed h 0, endPart_armed s 0, endPart_cause h (by decide),
        late_iff (endPart_done_late h)⟩,
      fun k pos lt => ⟨?_, endPart_refused_flag h (by omega), endPart_cause h lt, endPart_disarmed h k, endPart_armed s k⟩⟩
    rw [endPart_refused (by omega)]
    rfl

end Sys2Proof.Machine
end

section
/-! The observation window's START, STOP and ARM (R41, R479). -/

namespace Sys2Proof.Machine

open Sys2Proof.Laws.Physical

variable {s : State}

/-- The window's control register takes the write of one bit: its action, then the audit entry (R107, R479). -/
theorem obsCtrl_bit_acts {k : Nat} {v : Word} (canon : s.canonical = true) (wr : s.writable = true)
    (ph : s.living = true ∨ s.phase = phFAULT) (hv : BitVec.ofNat 32 (2 ^ k) = v) (hb : obR.fieldBits v = v)
    (hc : hObsCtrl.chk s 0 (s.reg ERR.OBS_CTRL.off 0) v = false) :
    bar0Bit hObsCtrl ⟨ERR.OBS_CTRL.off, k, 1⟩ s = s.recorded (hObsCtrl.act s 0 v) ERR.OBS_CTRL.off 0 v := by
  have hrow : findReg ERR.OBS_CTRL.off = some obR := by decide
  have hdom : s.offDomain ERR.OBS_CTRL.off = false := rfl
  have hplain : ERR.OBS_CTRL.off ≠ ROLE.AUDIT_TAIL.off ∧ isKeyData ERR.OBS_CTRL.off = false := by decide
  subst hv
  exact bit_acts (r := obR) rfl hb (canonical_regs canon) wr hrow (by decide) (fun _ _ => rfl) (obs_phase ph) hdom hc rfl hplain.1 hplain.2

theorem exec_obsStart (s : State) : exec .obsStart s = .next (bar0Bit hObsCtrl ERR.OBS_CTRL.START s) := rfl

theorem exec_obsStop (s : State) : exec .obsStop s = .next (bar0Bit hObsCtrl ERR.OBS_CTRL.STOP s) := rfl

theorem exec_obsArm (s : State) : exec .obsArm s = .next (bar0Bit hObsCtrl ERR.OBS_CTRL.ARM s) := rfl

/-- ARM is refused while a window is pending or open (R479). -/
theorem obsCtrl_chk_arm (s : State) (old : Word) : hObsCtrl.chk s 0 old 4#32 = (s.err.obs != .closed) := by
  simp [hObsCtrl, fieldGet]

theorem obsCtrl_act_start (s : State) : hObsCtrl.act s 0 1#32 = s.obsStart := by
  simp [hObsCtrl, fieldGet]

theorem obsCtrl_act_stop (s : State) : hObsCtrl.act s 0 2#32 = s.obsStop := by
  simp [hObsCtrl, fieldGet]

theorem obsCtrl_act_arm (closed : s.err.obs = .closed) : hObsCtrl.act s 0 4#32 = s.obsArm := by
  simp [hObsCtrl, fieldGet, closed]

/-- A START waits for the next Stroke where no window is pending or open, unless the STOP before it has taken it along (R41). -/
theorem obsStart_eq {t : State} (h1 : s.err.obs = .closed → s.err.obsEatStart = false → t = s.setObs .pendingStart)
    (h2 : s.err.obs = .closed → s.err.obsEatStart = true → t = { s with err := { s.err with obsEatStart := false } })
    (h3 : s.err.obs ≠ .closed → t = s) : s.obsStart = t := by
  unfold State.obsStart
  split
  case h_1 closed =>
    split
    case isTrue eat => exact (h2 closed eat).symm
    case isFalse eat => exact (h1 closed (by simpa using eat)).symm
  case h_2 other => exact (h3 fun e => other e).symm

/-- A STOP ends an open window at the next boundary; without one it counts an empty window (R41, R479). -/
theorem obsStop_eq {t : State} (h1 : s.err.obs = .closed → t = { s.emptyWindow with err := { s.emptyWindow.err with obsEatStart := true } })
    (h2 : ∀ e, s.err.obs = .open e → t = { s with err := { s.err with obsStop := true } })
    (h3 : s.err.obs = .pendingStart ∨ (∃ a e, s.err.obs = .armed a e) → t = s.emptyWindow) : s.obsStop = t := by
  unfold State.obsStop
  cases hm : s.err.obs
  case closed => exact (h1 hm).symm
  case pendingStart => exact (h3 (.inl hm)).symm
  case armed a e => exact (h3 (.inr ⟨a, e, hm⟩)).symm
  next e => exact (h2 e hm).symm

theorem obsArm_eq (s : State) : s.obsArm =
    if s.pair ERR.OBS_END_LO.off ≤ max (s.pair ERR.OBS_START_LO.off) (s.stroke + 1) then s.emptyWindow
    else s.setObs (.armed (max (s.pair ERR.OBS_START_LO.off) (s.stroke + 1)) (s.pair ERR.OBS_END_LO.off)) := rfl

/-- Settles O59: each command is the write of one bit of OBS_CTRL, which acts by the window's state. -/
theorem observationWindow : Obligations.ObservationWindow := by
  intro s canon wr ph
  refine ⟨fun t h1 h2 h3 => ?start, fun t h1 h2 h3 => ?stop, fun a e ha he => ?arm⟩
  case start =>
    rw [exec_obsStart, obsCtrl_bit_acts canon wr ph (v := 1#32) rfl (by decide) rfl, obsCtrl_act_start, obsStart_eq h1 h2 h3]
  case stop =>
    rw [exec_obsStop, obsCtrl_bit_acts canon wr ph (v := 2#32) rfl (by decide) rfl, obsCtrl_act_stop, obsStop_eq h1 h2 h3]
  case arm =>
    subst ha he
    have acts (closed : s.err.obs = .closed) : exec .obsArm s = .next (s.recorded s.obsArm ERR.OBS_CTRL.off 0 4#32) := by
      have hchk : hObsCtrl.chk s 0 (s.reg ERR.OBS_CTRL.off 0) 4#32 = false := by rw [obsCtrl_chk_arm, closed]; rfl
      rw [exec_obsArm, obsCtrl_bit_acts canon wr ph (v := 4#32) rfl (by decide) hchk, obsCtrl_act_arm closed]
    refine ⟨fun closed lt => ?_, fun closed le => ?_, fun pending => ?_⟩
    · rw [acts closed, obsArm_eq, if_neg (by omega)]
    · rw [acts closed, obsArm_eq, if_pos le]
    · have hchk : hObsCtrl.chk s 0 (s.reg ERR.OBS_CTRL.off 0) (obR.fieldBits 4#32) = true := by
        rw [show obR.fieldBits 4#32 = 4#32 by decide, obsCtrl_chk_arm]
        exact bne_iff_ne.2 pending
      rw [exec_obsArm, bit_refused (r := obR) (f := ERR.OBS_CTRL.ARM) (i := 0) (w := 4#32) rfl (pulse_word (by decide) _ _) wr
        (by decide) (fun _ _ => rfl) (obs_phase ph) (by decide) hchk]
      rfl

end Sys2Proof.Machine
end

section
/-! The admission of a descriptor by its row (R42, R126 to R128). -/

namespace Sys2Proof.Machine

open Sys2Proof.Laws.Rows

variable {s : State} {op : Nat} {d : Desc}

/-- Outside RELEASED no row admits anything (R127). -/
theorem rowAdmit_of_phase_ne (h : s.phase ≠ phRELEASED) (k : State → Nat → State) : s.rowAdmit op d k = s := by
  rw [rowAdmit_eq, if_pos (by simp [h])]

/-- In a drain or an orderly power-down nothing is fetched. -/
theorem rowAdmit_of_draining (hf : s.findFetched (asPosted op d) = none) (h : s.draining d.tid = true ∨ s.tier.quiesce = true)
    (k : State → Nat → State) : s.rowAdmit op d k = s := by
  rw [rowAdmit_eq, hf]
  have hd : s.draining (asPosted op d).tid = true ∨ s.tier.quiesce = true := h
  simp [hd]

section fresh

variable (hup : s.working = true) (hph : s.phase = phRELEASED) (hf : s.findFetched (asPosted op d) = none)
  (hdrain : s.draining d.tid = false) (hq : s.tier.quiesce = false)
include hup hph hf hdrain hq

/-- A row whose descriptor the card has not fetched takes it as a new work (log 22). -/
theorem rowAdmit_unfetched (k : State → Nat → State) : s.rowAdmit op d k =
    if (asPosted op d).malformed 0 ≠ 0 then (s.newWork (asPosted op d)).1.latch s.wk.next stIGNORED ((asPosted op d).malformed 0) 0
    else match (s.newWorkAt (asPosted op d) (s.stroke - 1)).1.work s.wk.next with
      | none => (s.newWorkAt (asPosted op d) (s.stroke - 1)).1
      | some w => if (s.newWorkAt (asPosted op d) (s.stroke - 1)).1.mayAdmit w then k (s.newWorkAt (asPosted op d) (s.stroke - 1)).1 s.wk.next
        else (s.newWorkAt (asPosted op d) (s.stroke - 1)).1 := by
  have hd : s.draining (asPosted op d).tid = false := hdrain
  rw [rowAdmit_eq, if_neg (by simp [hup, hph]), hf]
  dsimp only
  rw [if_neg (by simp [hd, hq])]
  rfl

end fresh

/-- The work fetched for the descriptor's ring position is admitted where nothing holds it back (R42, R123). -/
theorem rowAdmit_fetched (hup : s.working = true) (hph : s.phase = phRELEASED) {w : Work} (hf : s.findFetched (asPosted op d) = some w)
    (k : State → Nat → State) : s.rowAdmit op d k = if w.d.opcode = op ∧ s.mayAdmit w then k s w.id else s := by
  rw [rowAdmit_eq, if_neg (by simp [hup, hph]), hf]

/-- A descriptor latched in this Stroke is admitted in a later one only (R42). -/
theorem mayAdmit_of_late {w : Work} (h : s.stroke ≤ w.fetched) : s.mayAdmit w = false := by
  simp [State.mayAdmit, show ¬ w.fetched < s.stroke by omega]

theorem rowAdmit_of_late {w : Work} (hf : s.findFetched (asPosted op d) = some w) (h : s.stroke ≤ w.fetched) (k : State → Nat → State) :
    s.rowAdmit op d k = s := by
  rw [rowAdmit_eq, hf]
  simp [mayAdmit_of_late h]

/-! ### The work that a row brings -/

/-- The new work stands last, under the next number, with its descriptor. -/
theorem newWorkAt_works (s : State) (d : Desc) (n : Nat) :
    ∃ w : Work, (s.newWorkAt d n).1.wk.works = s.wk.works ++ [w] ∧ w.id = s.wk.next ∧ w.d = d := ⟨_, rfl, rfl, rfl⟩

/-- With its number free, the new work is found both by number and by ring position. -/
theorem newWorkAt_found {e : Desc} (n : Nat) (hf : s.findFetched e = none) (hnew : ∀ v ∈ s.wk.works, v.id ≠ s.wk.next) :
    ∃ w : Work, (s.newWorkAt e n).1.work s.wk.next = some w ∧ (s.newWorkAt e n).1.findFetched e = some w ∧ w.id = s.wk.next ∧ w.d = e := by
  obtain ⟨w, hws, hid, hd⟩ := newWorkAt_works s e n
  refine ⟨w, ?number, ?position, hid, hd⟩
  case number =>
    have hold : s.wk.works.find? (fun v => decide (v.id = s.wk.next)) = none := List.find?_eq_none.2 fun v hv => by simp [hnew v hv]
    unfold State.work
    rw [hws, List.find?_append, hold]
    simp [hid]
  case position =>
    unfold State.findFetched at hf ⊢
    rw [hws, List.find?_append, hf]
    simp [hd]

/-- A row whose well-formed descriptor the card has not fetched acts as if it stood fetched in the Stroke before (log 22). -/
theorem rowAdmit_newWork (hup : s.working = true) (hph : s.phase = phRELEASED) (hf : s.findFetched (asPosted op d) = none)
    (hdrain : s.draining d.tid = false) (hq : s.tier.quiesce = false) (hnew : ∀ v ∈ s.wk.works, v.id ≠ s.wk.next)
    (hm : (asPosted op d).malformed 0 = 0) (k : State → Nat → State) :
    s.rowAdmit op d k = (s.newWorkAt (asPosted op d) (s.stroke - 1)).1.rowAdmit op d k := by
  obtain ⟨w, hw, hfound, hid, hd⟩ := newWorkAt_found (s.stroke - 1) hf hnew
  have hop : w.d.opcode = op := by rw [hd]; rfl
  have hup' : (s.newWorkAt (asPosted op d) (s.stroke - 1)).1.working = true := hup
  have hph' : (s.newWorkAt (asPosted op d) (s.stroke - 1)).1.phase = phRELEASED := hph
  rw [rowAdmit_unfetched hup hph hf hdrain hq, if_neg (by simp [hm]), hw, rowAdmit_fetched hup' hph' hfound, hid]
  simp [hop]

theorem phase_of_mayAdmit {w : Work} (h : s.mayAdmit w = true) : w.phase = 0 :=
  Decidable.byContradiction fun hp => by simp [State.mayAdmit, hp] at h

/-- Settles O29: every descriptor row is `rowAdmit` with what its opcode does, and each clause is a branch of it. -/
theorem descriptorAdmission : Obligations.DescriptorAdmission := by
  intro c s op d hrow
  obtain ⟨k, hexec, hfail⟩ := row_exec c op d hrow
  refine ⟨fun phase => ?_, fun unfetched drains => ?_, fun up phase unfetched drain quiesce fresh => ⟨fun bad => ?_, fun good => ?_⟩,
    fun w found late => ?_, fun w st dt up phase found hop hw may fails deliver xfer => ?_⟩
  · rw [hexec, rowAdmit_of_phase_ne phase]
  · rw [hexec, rowAdmit_of_draining unfetched drains]
  · rw [hexec, rowAdmit_unfetched up phase unfetched drain quiesce, if_pos bad]
  · rw [hexec, hexec, rowAdmit_newWork up phase unfetched drain quiesce fresh good]
  · rw [hexec, rowAdmit_of_late found late]
  · rw [hexec, rowAdmit_fetched up phase found, if_pos ⟨hop, may⟩, hfail deliver xfer s w st dt hw (phase_of_mayAdmit may) fails]

end Sys2Proof.Machine
end

section
/-! Membership of a peloton (R31, R33, R335 to R339): BEATs and MARKs that arrive, the judgement of a MARK's offset, the waits that are over,
what is sent, and the writes of MEMBER_CTRL. -/

namespace Sys2Proof.Machine

open Sys2Proof.Laws.Chain

variable {s t : State} {p : Nat} {f0 f : Frame}

/-! ### BEATs and MARKs that arrive -/

theorem exec_beat_arrives (h : s.Arrives p ftBEAT f0 f t) : exec (.beatCmd p f0) s = .next (t.takeBeat f) := by
  show execBeatCmd p f0 s = _
  rw [execBeatCmd, arrives h (by decide) (by decide)]

theorem exec_mark_arrives (h : s.Arrives p ftMARK f0 f t) (off : Int) : exec (.markReceive p f0 off) s = .next (t.takeMark f off) := by
  show execMarkReceive p f0 off s = _
  rw [execMarkReceive, arrives h (by decide) (by decide)]

/-- The sender of a BEAT of this peloton stands heard in this Stroke (R335, R336). -/
def State.heard (s : State) (f : Frame) : State :=
  s.setChain fun c => { c with beats := kvSet c.beats f.src s.stroke, running := c.running || bits (f.b 8 1) 0 1 == 1 }

theorem takeBeat_foreign (h : f.b 0 4 ≠ (t.reg SPOKE.PELOTON_ID.off).toNat ∨ 32 ≤ f.src) : t.takeBeat f = t := if_pos h

theorem takeBeat_own (hid : f.b 0 4 = (t.reg SPOKE.PELOTON_ID.off).toNat) (hsrc : f.src < 32) : t.takeBeat f =
    (if t.isMember then (t.heard f).setRoster ((t.heard f).roster ++ [f.src]) else t.heard f).tryJoin := by
  have hno : ¬ (f.b 0 4 ≠ (t.reg SPOKE.PELOTON_ID.off).toNat ∨ 32 ≤ f.src) := by simp [hid, hsrc]
  unfold State.takeBeat
  rw [if_neg hno]
  rfl

/-- A card that takes the count takes it from any member's MARK (R26, R336). -/
theorem takeMark_joining (hst : t.memberState = 1) (hc : t.chain.takeCount = true) (off : Int) :
    t.takeMark f off = (t.takeCountFrom (f.b 0 6)).armFrom (f.b 19 1 % 128) (f.b 20 6) := if_pos ⟨hst, hc⟩

theorem takeMark_not_joining (h : t.memberState ≠ 1 ∨ t.chain.takeCount = false) (off : Int) : t.takeMark f off =
    if f.src ≠ t.get SPOKE.MEMBER_STATUS.PACER then t
    else if !t.isMember || decide (f.b 0 6 + 1024 < t.stroke) then t
    else (t.judgeMark (f.b 0 6) off (f.b 18 1 + 1)).armFrom (f.b 19 1 % 128) (f.b 20 6) := by
  have hno : ¬ (t.memberState = 1 ∧ t.chain.takeCount = true) := by
    rintro ⟨h1, h2⟩
    simp [h1, h2] at h
  exact if_neg hno

theorem isMember_iff (s : State) : s.isMember = true ↔ s.memberState = 2 := beq_iff_eq

theorem isMember_not_joining (h : s.isMember = true) : s.memberState ≠ 1 := by
  rw [(isMember_iff s).1 h]
  decide

/-! ### The judgement of a MARK -/

/-- MARKs in a row within bounds, one of offset `off` counted (R31). -/
def State.marksWith (s : State) (off : Int) (hops : Nat) : Nat := if off.natAbs ≤ 200 + 20 * hops then s.chain.marks + 1 else 0

/-- A MARK's offset taken: shown in OFFSET_NS, and counted while it lies within bounds (R31, R32). -/
def State.offsetTaken (s : State) (off : Int) (hops : Nat) : State :=
  (s.put SYS.STROKE_STATUS.OFFSET_NS ((max (-32767) (min 32767 off) % 65536).toNat)).setChain fun c =>
    { c with lastMark := s.stroke, marks := s.marksWith off hops }

theorem judgeMark_eq (s : State) (n : Nat) (off : Int) (hops : Nat) : s.judgeMark n off hops =
    if 1000 < off.natAbs ∨ s.stroke + 1 < n then (s.offsetTaken off hops).leave
    else if 16 ≤ s.marksWith off hops then (s.offsetTaken off hops).put SYS.STROKE_STATUS.LOCKED 1
    else s.offsetTaken off hops := by
  unfold State.judgeMark State.offsetTaken State.marksWith
  simp only [decide_eq_true_eq]

theorem judgeMark_marks {n : Nat} {off : Int} (hops : Nat) (ho : off.natAbs ≤ 1000) (hn : n ≤ s.stroke + 1) :
    (s.judgeMark n off hops).chain.marks = s.marksWith off hops := by
  rw [judgeMark_eq, if_neg (by omega)]
  split <;> rfl

/-- The sixteenth MARK in a row within bounds locks the card (R31). -/
theorem judgeMark_locked (h : spWf regDefault s.regs = true) {n : Nat} {off : Int} {hops : Nat} (ho : off.natAbs ≤ 1000)
    (hn : n ≤ s.stroke + 1) (hk : 16 ≤ s.chain.marks + 1) (hin : off.natAbs ≤ 200 + 20 * hops) :
    (s.judgeMark n off hops).flag SYS.STROKE_STATUS.LOCKED = true := by
  rw [judgeMark_eq, if_neg (by omega), State.marksWith, if_pos hin, if_pos hk]
  exact flag_put_same (s := s.offsetTaken off hops) (setReg_wf s h _ _ _) SYS.STROKE_STATUS.LOCKED 1 0 (by decide) (by decide)

/-! ### Waits that are over, and what is sent -/

theorem exec_markTimeout (hup : s.working = true) : exec .markTimeout s = .next (if s.markDue then s.leave else s) := by
  show execMarkTimeout s = _
  rw [execMarkTimeout, hup, Bool.true_and]

theorem exec_rosterTimeout (hup : s.working = true) (m : Nat) :
    exec (.rosterTimeout m) s = .next (if s.rosterDue m then s.loseMember m else s) := by
  show execRosterTimeout m s = _
  rw [execRosterTimeout, hup, Bool.true_and]

theorem exec_joinTimeout (hup : s.working = true) : exec .joinTimeout s = .next (if s.joinDue then s.refuseJoin 1 else s) := by
  show execJoinTimeout s = _
  rw [execJoinTimeout, hup, Bool.true_and]

/-- A refused join shows in MEMBER_STATUS with its cause (R335). -/
theorem refuseJoin_status (h : spWf regDefault s.regs = true) {cause : Nat} (hc : cause < 8) :
    (s.refuseJoin cause).memberState = 3 ∧ (s.refuseJoin cause).get SPOKE.MEMBER_STATUS.CAUSE = cause ∧
      (s.refuseJoin cause).chain = { s.chain with joinAt := none } := by
  have hw := setReg_wf s h SPOKE.MEMBER_STATUS.off (fieldPut (s.reg SPOKE.MEMBER_STATUS.off) 0 3 3) 0
  refine ⟨?state, ?cause, rfl⟩
  case state =>
    exact (get_put_apart (s := s.put SPOKE.MEMBER_STATUS.STATE 3) hw (f := SPOKE.MEMBER_STATUS.CAUSE) (i := 0) cause (by decide)).trans
      (get_put_same s h SPOKE.MEMBER_STATUS.STATE 3 0 (by decide))
  case cause =>
    exact (get_put_same (s.put SPOKE.MEMBER_STATUS.STATE 3) hw SPOKE.MEMBER_STATUS.CAUSE cause 0 (by decide)).trans (Nat.mod_eq_of_lt hc)

theorem exec_beatSend (hup : s.working = true) : exec .beatSend s = .next
    (if !(s.memberState == 1 || s.isMember) || s.stroke % 128 != 0 || s.chain.lastBeat == some s.stroke then s
      else (s.sendTo 0 ftBEAT 0xFF 0 s.beatBytes).setChain fun c => { c with lastBeat := some s.stroke }) := by
  show execBeatSend s = _
  rw [execBeatSend, State.sendBeat, hup, Bool.not_true, Bool.false_or]

theorem exec_helloSend (hup : s.working = true) : exec .helloSend s = .next
    (if s.stroke % 1024 != 0 || s.chain.lastHello == some s.stroke then s
      else (s.ringPorts.foldl (fun s p => if s.linkUp p then s.sayHello p 0 else s) s).setChain fun c =>
        { c with lastHello := some s.stroke }) := by
  show execHelloSend s = _
  rw [execHelloSend, State.sendHellos, hup, Bool.not_true, Bool.false_or]

/-! ### The writes of MEMBER_CTRL -/

section writes

variable {w : Word}

/-- The word that JOIN writes: the register's stored fields with bit 16 (R335). -/
theorem joinWord_fields (hw : w = memR.rwBits (s.reg SPOKE.MEMBER_CTRL.off) ||| 0x10000#32) :
    fieldGet (memR.fieldBits w) 0 5 = s.me ∧ fieldGet (memR.fieldBits w) 8 6 = s.get SPOKE.MEMBER_CTRL.EXPECTED ∧
      fieldGet (memR.fieldBits w) 16 1 = 1 ∧ fieldGet (memR.fieldBits w) 17 1 = 0 := by
  have hfields (f : FieldRow) (hf : f ∈ memR.fields) := fieldGet_fieldBits (r := memR) w hf (by decide)
  have hstored (f : FieldRow) (hf : f ∈ memR.fields) (hk : f.keepsBits = true) :=
    fieldGet_rwOr (r := memR) (s.reg SPOKE.MEMBER_CTRL.off) (k := 16) (by decide) (by decide) hf hk
  refine ⟨?id, ?expected, ?join, ?leave⟩
  case id => exact (hfields ⟨0, 5, .rw, 0⟩ (by decide)).trans (hw ▸ hstored ⟨0, 5, .rw, 0⟩ (by decide) rfl)
  case expected => exact (hfields ⟨8, 6, .rw, 1⟩ (by decide)).trans (hw ▸ hstored ⟨8, 6, .rw, 1⟩ (by decide) rfl)
  case join => exact (hfields ⟨16, 1, .w1s, 0⟩ (by decide)).trans (hw ▸ fieldGet_bitOr (k := 16) _ (by decide))
  case leave =>
    exact (hfields ⟨17, 1, .w1s, 0⟩ (by decide)).trans
      (hw ▸ fieldGet_bitClear (r := memR) (k := 16) (j := 17) _ (by decide) (by decide) (by decide) (by decide))

/-- JOIN is refused in a card that joins, is a member or is gone, and with an EXPECTED outside 1 to 32 (R335, Table 14-8). -/
theorem joinWord_chk (hw : w = memR.rwBits (s.reg SPOKE.MEMBER_CTRL.off) ||| 0x10000#32) :
    hMemberCtrl.chk s 0 (s.reg SPOKE.MEMBER_CTRL.off) (memR.fieldBits w) = true ↔
      (s.memberState = 1 ∨ s.memberState = 2 ∨ s.memberState = 4) ∨
        s.get SPOKE.MEMBER_CTRL.EXPECTED = 0 ∨ 32 < s.get SPOKE.MEMBER_CTRL.EXPECTED := by
  obtain ⟨_, expected, join, _⟩ := joinWord_fields hw
  simp [hMemberCtrl, expected, join, or_assoc]

/-- What an accepted JOIN makes of the card before its conditions are looked at: joining, with nothing of an earlier join seen (R335). -/
def State.joining (s : State) : State :=
  (((s.put SPOKE.MEMBER_CTRL.JOIN 1).put SPOKE.MEMBER_STATUS.STATE 1).put SPOKE.MEMBER_STATUS.CAUSE 0).setChain fun c =>
    { c with joinAt := some s.stroke, beats := [], helloOn := [], badPeriod := false, dupId := false, takeCount := false, running := false }

theorem joining_memberState (h : spWf regDefault s.regs = true) : s.joining.memberState = 1 := by
  have hw := setReg_wf s h SPOKE.MEMBER_CTRL.off (fieldPut (s.reg SPOKE.MEMBER_CTRL.off) 16 1 1) 0
  exact (get_put_apart (s := (s.put SPOKE.MEMBER_CTRL.JOIN 1).put SPOKE.MEMBER_STATUS.STATE 1) (setReg_wf _ hw _ _ _)
    (f := SPOKE.MEMBER_STATUS.CAUSE) (i := 0) 0 (by decide)).trans (get_put_same _ hw SPOKE.MEMBER_STATUS.STATE 1 0 (by decide))

theorem hMemberCtrl_act_join {v : Word} (join : fieldGet v 16 1 = 1) (leave : fieldGet v 17 1 = 0) :
    hMemberCtrl.act s 0 v = s.joining.tryJoin := by
  unfold hMemberCtrl
  simp only [join, leave]
  rfl

theorem hMemberCtrl_act_leave {v : Word} (join : fieldGet v 16 1 = 0) (leave : fieldGet v 17 1 = 1) :
    hMemberCtrl.act s 0 v = if s.memberState = 1 ∨ s.isMember then (s.put SPOKE.MEMBER_CTRL.LEAVE 1).leave
      else s.put SPOKE.MEMBER_CTRL.LEAVE 1 := by
  unfold hMemberCtrl
  simp only [join, leave]
  rfl

theorem exec_joinCmd (s : State) : exec .joinCmd s = .next (bar0Bit hMemberCtrl SPOKE.MEMBER_CTRL.JOIN s) := rfl

theorem exec_leaveCmd (s : State) : exec .leaveCmd s = .next (bar0Bit hMemberCtrl SPOKE.MEMBER_CTRL.LEAVE s) := rfl

theorem memR_row : findReg SPOKE.MEMBER_CTRL.off = some memR := by decide

/-- JOIN, accepted (R335). -/
theorem exec_joinCmd_accepted (canon : s.canonical = true) (wr : s.writable = true) (ph : s.phase = phCONFIGURE)
    (hw : w = memR.rwBits (s.reg SPOKE.MEMBER_CTRL.off) ||| 0x10000#32)
    (hchk : hMemberCtrl.chk s 0 (s.reg SPOKE.MEMBER_CTRL.off) (memR.fieldBits w) = false) :
    exec .joinCmd s = .next (s.recorded s.joining.tryJoin SPOKE.MEMBER_CTRL.off 0 w) := by
  obtain ⟨_, _, join, leave⟩ := joinWord_fields hw
  have hdom : s.offDomain SPOKE.MEMBER_CTRL.JOIN.off = false := rfl
  rw [exec_joinCmd, bit_sets (r := memR) (f := SPOKE.MEMBER_CTRL.JOIN) (i := 0) rfl hw.symm (canonical_regs canon) wr memR_row (by decide)
    (by decide) (fun _ _ => rfl) (memPhase ph) hdom hchk rfl (by decide) (by decide), hMemberCtrl_act_join join leave]

/-- JOIN, refused by the register's own rules (R485). -/
theorem exec_joinCmd_refused (wr : s.writable = true) (ph : s.phase = phCONFIGURE)
    (hw : w = memR.rwBits (s.reg SPOKE.MEMBER_CTRL.off) ||| 0x10000#32)
    (hchk : hMemberCtrl.chk s 0 (s.reg SPOKE.MEMBER_CTRL.off) (memR.fieldBits w) = true) :
    exec .joinCmd s = .next (s.illegal 0 causeState SPOKE.MEMBER_CTRL.off w.toNat) := by
  rw [exec_joinCmd, bit_refused (r := memR) (f := SPOKE.MEMBER_CTRL.JOIN) (i := 0) rfl hw.symm wr memR_row (fun _ _ => rfl) (memPhase ph)
    (by decide) hchk]

/-- LEAVE, accepted (R337). -/
theorem exec_leaveCmd_accepted (canon : s.canonical = true) (wr : s.writable = true) (serving : s.serving = true)
    (lo : 0 < s.get SPOKE.MEMBER_CTRL.EXPECTED) (hi : s.get SPOKE.MEMBER_CTRL.EXPECTED ≤ 32)
    (hw : w = memR.rwBits (s.reg SPOKE.MEMBER_CTRL.off) ||| 0x20000#32) :
    exec .leaveCmd s = .next (s.recorded (if s.memberState = 1 ∨ s.isMember then (s.put SPOKE.MEMBER_CTRL.LEAVE 1).leave
      else s.put SPOKE.MEMBER_CTRL.LEAVE 1) SPOKE.MEMBER_CTRL.off 0 w) := by
  rw [exec_leaveCmd, leaveW canon wr serving lo hi hw, hMemberCtrl_act_leave (leave16 hw) (leave17 hw)]

end writes

/-- Settles O41: frames by what an arriving frame does, MARKs by `judgeMark_eq`, waits and sends by their commands' equations, writes by the
rules of MEMBER_CTRL. -/
theorem membership : Obligations.Membership := by
  intro s p f0 f t
  refine ⟨fun arr => ⟨fun foreign => ?_, fun u own src hu => ?_⟩, fun off arr => ⟨fun other idle => ?_, fun joining takes => ⟨?_, rfl⟩,
    fun pacer member => ⟨fun late => ?_, fun near => ?_⟩⟩,
    fun n hops off => ⟨fun beyond => ?_, fun canon near next => ⟨fun sixteen inside => ?_, ?_⟩⟩,
    fun up => ?waits, fun w canon wr => ⟨fun ph hw => ?join, fun serving lo hi hw => ?leave⟩⟩
  · rw [exec_beat_arrives arr, takeBeat_foreign foreign]
  · subst hu
    rw [exec_beat_arrives arr, takeBeat_own own src]
    exact ⟨fun member => by rw [if_pos member]; rfl, fun outside => by rw [if_neg (by simp [outside])]; rfl⟩
  · rw [exec_mark_arrives arr, takeMark_not_joining idle, if_pos other]
  · rw [exec_mark_arrives arr, takeMark_joining joining takes]
  · rw [exec_mark_arrives arr, takeMark_not_joining (.inl (isMember_not_joining member)), if_neg fun ne => ne pacer,
      if_pos (by simp [late])]
  · rw [exec_mark_arrives arr, takeMark_not_joining (.inl (isMember_not_joining member)), if_neg fun ne => ne pacer,
      if_neg (by simp [member, near])]
  · exact ⟨_, by rw [judgeMark_eq, if_pos beyond]⟩
  · exact judgeMark_locked (canonical_regs canon) near next sixteen inside
  · exact judgeMark_marks hops near next
  case waits =>
    refine ⟨fun due => ?_, fun wait => ?_, fun m => ⟨fun due => ?_, fun wait => ?_⟩,
      fun due canon => ⟨s.refuseJoin 1, ?_, refuseJoin_status (canonical_regs canon) (by decide)⟩,
      fun st at128 first => ⟨_, ?_, rfl, rfl⟩, fun held => ?_, fun at1024 first => ⟨_, _, ?_, rfl, rfl⟩, fun held => ?_⟩
    · rw [exec_markTimeout up, if_pos due]
    · rw [exec_markTimeout up, if_neg (by simp [wait])]
    · rw [exec_rosterTimeout up, if_pos due]
    · rw [exec_rosterTimeout up, if_neg (by simp [wait])]
    · rw [exec_joinTimeout up, if_pos due]
    · have heard : (s.memberState == 1 || s.isMember) = true := by simpa [isMember_iff] using st
      rw [exec_beatSend up, if_neg (by simp [heard, at128, first])]
      rfl
    · rw [exec_beatSend up, if_pos (by rcases held with h | h <;> simp [h])]
    · rw [exec_helloSend up, if_neg (by simp [at1024, first])]
      rfl
    · rw [exec_helloSend up, if_pos (by rcases held with h | h <;> simp [h])]
  case join =>
    have chk := joinWord_chk hw
    refine ⟨fun lo hi st => ?_, fun st => exec_joinCmd_refused wr ph hw (chk.2 (.inl st)),
      fun out => exec_joinCmd_refused wr ph hw (chk.2 (.inr out))⟩
    have free : hMemberCtrl.chk s 0 (s.reg SPOKE.MEMBER_CTRL.off) (memR.fieldBits w) = false := by
      rw [← Bool.not_eq_true, chk]
      omega
    exact ⟨s.joining, exec_joinCmd_accepted canon wr ph hw free, joining_memberState (canonical_regs canon), rfl, rfl, rfl, rfl, rfl⟩
  case leave =>
    rw [exec_leaveCmd_accepted canon wr serving lo hi hw]
    exact ⟨fun st => by rw [if_pos (st.imp_right (isMember_iff s).2)], fun st1 st2 => by rw [if_neg (by simp [isMember_iff, st1, st2])]⟩

end Sys2Proof.Machine
end

section
/-! Reset (chapter 3): what each condition of R54 leaves of the card, and the exit from reset (R54, R466, R508). -/

namespace Sys2Proof.Machine

open Sys2Proof.Laws.Whole

variable {s t : State}

/-! ### The conditions that begin -/

/-- A power input noted as in tolerance or not (R495). -/
def PowerSt.setInput (p : PowerSt) (input : Nat) (inTol : Bool) : PowerSt :=
  if input = 0 then { p with inA := inTol } else { p with inB := inTol }

@[simp] theorem PowerSt.setInput_held (p : PowerSt) (input : Nat) (b : Bool) : (p.setInput input b).held = p.held := by
  unfold PowerSt.setInput
  split <;> rfl

@[simp] theorem PowerSt.setInput_causes (p : PowerSt) (input : Nat) (b : Bool) : (p.setInput input b).causes = p.causes := by
  unfold PowerSt.setInput
  split <;> rfl

/-- The card's pins and straps are no part of what a reset wipes (R54, R508). -/
theorem State.WipedTo.with_pw {pw : PowerSt} (h : s.WipedTo t) (held : pw.held = true) : s.WipedTo { t with pw := pw } :=
  ⟨held, h.2⟩

theorem exec_powerInputChange_lost (s : State) (input : Nat) : exec (.powerInputChange input false) s =
    .next { s.intoReset 1 with pw := (s.intoReset 1).pw.setInput input false } := rfl

theorem exec_perstChange_asserted (s : State) :
    exec (.perstChange true) s = .next { s.intoReset 2 with pw := { (s.intoReset 2).pw with perst := true } } := rfl

theorem exec_resetInChange_asserted (s : State) :
    exec (.resetInChange true) s = .next { s.intoReset 8 with pw := { (s.intoReset 8).pw with resetIn := true } } := rfl

theorem exec_hotReset (s : State) : exec .hotReset s = .next (if s.pw.held then s else s.intoReset 4) := rfl

theorem exec_flrPf0 (s : State) : exec .flrPf0 s = .next (if s.pw.held then s else s.intoReset 32) := rfl

/-- An input out of tolerance is a condition of R54. -/
theorem resetCondition_setInput (s : State) (input : Nat) : { s with pw := s.pw.setInput input false }.resetCondition = true := by
  unfold State.resetCondition PowerSt.setInput
  split <;> simp

/-- In reset, one more condition adds its bit to the causes collected (R54). -/
theorem intoReset_held (h : s.pw.held = true) (cause : Nat) :
    s.intoReset cause = { s with pw := { s.pw with causes := s.pw.causes ||| cause } } := if_pos h

/-- Settles O10: each condition enters reset by `intoReset_wiped`, and its pin is noted beside the wiped card. -/
theorem resetsBegin : Obligations.ResetsBegin := by
  intro s running
  have wiped (cause : Nat) : s.WipedTo (s.intoReset cause) := (intoReset_wiped s running cause).1
  have causes (cause : Nat) : (s.intoReset cause).pw.causes = cause := (intoReset_wiped s running cause).2
  have held (cause : Nat) : (s.intoReset cause).pw.held = true := (wiped cause).1
  refine ⟨fun input => ?power, ?perst, ?resetIn, ?hot, ?flr, rfl, rfl, rfl, rfl⟩
  case power =>
    exact ⟨_, exec_powerInputChange_lost s input, (wiped 1).with_pw (by simp [held]), by simp [causes], resetCondition_setInput _ input⟩
  case perst =>
    exact ⟨_, exec_perstChange_asserted s, (wiped 2).with_pw (held 2), causes 2, rfl, by simp [State.resetCondition]⟩
  case resetIn =>
    exact ⟨_, exec_resetInChange_asserted s, (wiped 8).with_pw (held 8), causes 8, rfl, by simp [State.resetCondition]⟩
  case hot =>
    exact ⟨s.intoReset 4, by simp [exec_hotReset, running], wiped 4, causes 4⟩
  case flr =>
    exact ⟨s.intoReset 32, by simp [exec_flrPf0, running], wiped 32, causes 32⟩

/-! ### The exit -/

/-- The card as it leaves reset, its causes not yet shown (R26, R54). -/
def State.outOfReset (s : State) : State :=
  { s with stroke := 0, pw := { s.pw with held := false, causes := 0, expiryNext := 0#32, trip := 0 } }

/-- `outOfReset`, with what held the card shown in RESET_CAUSE and LAST_EXPIRY (R54, R466). -/
def State.causesShown (s : State) : State :=
  (s.outOfReset.put SYS.RESET_CAUSE.CAUSE s.pw.causes).setReg WDOG.LAST_EXPIRY.off s.pw.expiryNext

/-- `causesShown`, with the straps sampled (R508). -/
def State.leftReset (s : State) : State :=
  (s.causesShown.put SRCH.ENUM_STATUS.POSITION s.pw.casPos).put SRCH.ENUM_STATUS.SIZE_M1 s.pw.casSize

theorem exec_resetExit (held : s.pw.held = true) (free : s.resetCondition = false) : exec .resetExit s = .next s.leftReset := by
  show execResetExit s = _
  rw [execResetExit, held, free]
  rfl

/-- The registers that the exit from reset writes. -/
def resetExitRegs (o : Nat) : Bool := o == SYS.RESET_CAUSE.off || o == WDOG.LAST_EXPIRY.off || o == SRCH.ENUM_STATUS.off

theorem causesShown_regs (s : State) : RegsBut resetExitRegs s.outOfReset s.causesShown :=
  ((RegsBut.refl _).put _ _ _ (by decide) (by decide)).setReg _ _ _ (by decide) (by decide)

theorem leftReset_straps (s : State) : RegsBut (fun o => o == SRCH.ENUM_STATUS.off) s.causesShown s.leftReset :=
  ((RegsBut.refl _).put _ _ _ (by decide) (by decide)).put _ _ _ (by decide) (by decide)

/-- The exit from reset leaves every register but RESET_CAUSE, LAST_EXPIRY and ENUM_STATUS. -/
theorem leftReset_regs (s : State) : RegsBut resetExitRegs s s.leftReset :=
  ((RegsBut.refl (P := resetExitRegs) s).same (u := s.outOfReset) rfl).trans
    ((causesShown_regs s).trans ((leftReset_straps s).mono fun o h => by simp [resetExitRegs, beq_iff_eq.1 h]))

section shown

variable (h : spWf regDefault s.regs = true)
include h

theorem causesShown_wf : spWf regDefault s.causesShown.regs = true := (causesShown_regs s).wf h

theorem leftReset_cause (hc : s.pw.causes < 64) : s.leftReset.get SYS.RESET_CAUSE.CAUSE = s.pw.causes := by
  have hw : spWf regDefault (s.outOfReset.put SYS.RESET_CAUSE.CAUSE s.pw.causes).regs = true := setReg_wf s.outOfReset h _ _ _
  have hexpiry := RegsBut.setReg (P := fun o => o == WDOG.LAST_EXPIRY.off) (.refl (s.outOfReset.put SYS.RESET_CAUSE.CAUSE s.pw.causes))
    WDOG.LAST_EXPIRY.off s.pw.expiryNext 0 (by decide) (by decide)
  calc s.leftReset.get SYS.RESET_CAUSE.CAUSE
      = s.causesShown.get SYS.RESET_CAUSE.CAUSE := (leftReset_straps s).get (causesShown_wf h) _ _ (by decide) (by decide)
    _ = (s.outOfReset.put SYS.RESET_CAUSE.CAUSE s.pw.causes).get SYS.RESET_CAUSE.CAUSE := hexpiry.get hw _ _ (by decide) (by decide)
    _ = s.pw.causes % 2 ^ 6 := get_put_same s.outOfReset h _ _ _ (by decide)
    _ = s.pw.causes := Nat.mod_eq_of_lt hc

theorem leftReset_expiry : s.leftReset.reg WDOG.LAST_EXPIRY.off = s.pw.expiryNext := by
  rw [(leftReset_straps s).reg (causesShown_wf h) _ _ (by decide) (by decide)]
  exact reg_setReg_same _ (setReg_wf s.outOfReset h _ _ _) _ _ _

theorem leftReset_position (hp : s.pw.casPos < 4) : s.leftReset.get SRCH.ENUM_STATUS.POSITION = s.pw.casPos := by
  have hw : spWf regDefault (s.causesShown.put SRCH.ENUM_STATUS.POSITION s.pw.casPos).regs = true := setReg_wf _ (causesShown_wf h) _ _ _
  unfold State.leftReset
  rw [get_put_apart hw _ (by decide), get_put_same _ (causesShown_wf h) _ _ _ (by decide)]
  exact Nat.mod_eq_of_lt hp

theorem leftReset_size (hz : s.pw.casSize < 4) : s.leftReset.get SRCH.ENUM_STATUS.SIZE_M1 = s.pw.casSize := by
  have hw : spWf regDefault (s.causesShown.put SRCH.ENUM_STATUS.POSITION s.pw.casPos).regs = true := setReg_wf _ (causesShown_wf h) _ _ _
  unfold State.leftReset
  rw [get_put_same _ hw _ _ _ (by decide)]
  exact Nat.mod_eq_of_lt hz

end shown

/-- Settles O11: a card that is held takes a further condition by `intoReset_held`; the exit is `leftReset`, register by register. -/
theorem resetExit : Obligations.ResetExit := by
  intro s canon held
  have h := canonical_regs canon
  refine ⟨?hot, ?flr, ?perst, ?resetIn, fun free causes pos size => ?leave⟩
  case hot => simp [exec_hotReset, held]
  case flr => simp [exec_flrPf0, held]
  case perst => rw [exec_perstChange_asserted, intoReset_held held]
  case resetIn => rw [exec_resetInChange_asserted, intoReset_held held]
  case leave =>
    exact ⟨s.leftReset, exec_resetExit held free, rfl, rfl, leftReset_cause h causes, leftReset_expiry h, leftReset_position h pos,
      leftReset_size h size, rfl, rfl, fun o i small cause expiry straps =>
        (leftReset_regs s).reg h o i small (by simp [resetExitRegs, cause, expiry, straps])⟩

end Sys2Proof.Machine
end

section
/-! Writes of control registers: the registers of bring-up and of the constant sets that only act. -/

namespace Sys2Proof.Machine

variable {s : State} {off : Nat} {r : RegRow}

/-- `r` is the row of the register at `off`, which only acts: no field stores, no lock stands against it, its clock domain is never OFF, and a
write of it is recorded like any other (R107). -/
structure ControlReg (off : Nat) (r : RegRow) : Prop where
  row : findReg off = some r
  pulses : r.pulses = true
  unlocked : ∀ (s : State) (f : FieldRow), s.locked off f = false
  powered : ∀ s : State, s.offDomain off = false
  recorded : off ≠ ROLE.AUDIT_TAIL.off ∧ isKeyData off = false
  keyless : off ≠ WDOG.HOST_DISABLE.off

namespace ControlReg

variable (c : ControlReg off r) (wr : s.writable = true) (phase : ∀ f ∈ r.fields, s.phaseOk off f = true) {i : Nat} (hi : s.selInst r = i)
include c wr phase hi

/-- A write that the register's own rules take: its action on the index selected, then the audit entry (R107, R485). -/
theorem takes (canon : s.canonical = true) (h : Handler) (hplain : h.endsPlain) {val v : Word} {t : State} (hv : r.fieldBits val = v)
    (hc : h.chk s i (s.reg off i) v = false) (act : h.act s i v = t) : bar0 h off val s = s.recorded t off i val := by
  rw [bar0_acts hi hv (canonical_regs canon) wr c.row c.pulses (fun f _ => c.unlocked s f) phase (c.powered s) hc hplain c.recorded.1
    c.recorded.2, act]

/-- A write that the register's own rules refuse is counted, with cause STATE (R112, R485). -/
theorem refuses (h : Handler) {val v : Word} (hv : r.fieldBits val = v) (hc : h.chk s i (s.reg off i) v = true) :
    bar0 h off val s = s.illegal 0 causeState off val.toNat := by
  subst hi hv
  exact bar0_refused wr c.row c.keyless (refuses_state _ (fun f _ => c.unlocked s f) phase hc)

end ControlReg

end Sys2Proof.Machine
end

section
/-! Bring-up (R56, R57, R61 to R68): DRAM training, the boot ROM's end, and the installer's bring-up writes. -/

namespace Sys2Proof.Machine

variable {s : State}

/-! ### DRAM training and the boot ROM's end -/

section training

variable {k : Nat} (run : s.pw.held = false) (hk : k < 8) (untrained : s.get SYS.DRAM_STATUS.TRAINED / 2 ^ k % 2 = 0)
  (sound : s.get SYS.DRAM_STATUS.FAILED / 2 ^ k % 2 = 0)
include run hk untrained sound

theorem exec_dramTrainingDone (ok : Bool) : exec (.dramTrainingDone k ok) s = .next
    (if ok then s.put SYS.DRAM_STATUS.TRAINED (s.get SYS.DRAM_STATUS.TRAINED ||| 2 ^ k)
      else ((s.put SYS.DRAM_STATUS.FAILED (s.get SYS.DRAM_STATUS.FAILED ||| 2 ^ k)).fault clsFATAL k 0).enterFault) := by
  show execDramTrainingDone k ok s = _
  rw [execDramTrainingDone, Nat.mod_eq_of_lt hk, if_neg (by simp [run, untrained, sound])]
  cases ok <;> rfl

/-- A stack that fails its training puts the card into FAULT (R56). -/
theorem dramTrainingDone_failed_phase (canon : s.canonical = true) :
    ∃ t, exec (.dramTrainingDone k false) s = .next t ∧ t.phase = phFAULT :=
  ⟨_, exec_dramTrainingDone run hk untrained sound false,
    enterFault_phase _ ((fault_regs _ clsFATAL k 0 (by decide)).wf (setReg_wf s (canonical_regs canon) _ _ _))⟩

end training

theorem exec_pf0Ready (run : s.pw.held = false) (rom : s.phase = phROM) : exec .pf0Ready s = .next (s.toPhase phLOAD) := by
  show execPf0Ready s = _
  rw [execPf0Ready, if_neg (by simp [run, rom])]

/-! ### The rows written -/

abbrev bringupCtrlRow : RegRow := ⟨SYS.BRINGUP_CTRL.off, 1, none, [⟨0, 1, .w1s, 0⟩]⟩

abbrev logScanCtrlRow : RegRow := ⟨TIER.LOG_SCAN_CTRL.off, 1, none, [⟨0, 1, .w1s, 0⟩]⟩

abbrev quiesceCtrlRow : RegRow := ⟨TIER.QUIESCE_CTRL.off, 1, none, [⟨0, 1, .w1s, 0⟩]⟩

abbrev regionActionRow : RegRow := ⟨TIER.REGION_ACTION.off, 1, some TIER.REGION_SELECT.off, [⟨0, 2, .wo, 0⟩, ⟨16, 10, .wo, 0⟩]⟩

theorem bringupCtrl_control : ControlReg SYS.BRINGUP_CTRL.off bringupCtrlRow :=
  ⟨by decide, by decide, fun _ _ => rfl, fun _ => rfl, by decide, by decide⟩

theorem logScanCtrl_control : ControlReg TIER.LOG_SCAN_CTRL.off logScanCtrlRow :=
  ⟨by decide, by decide, fun _ _ => rfl, fun _ => rfl, by decide, by decide⟩

theorem quiesceCtrl_control : ControlReg TIER.QUIESCE_CTRL.off quiesceCtrlRow :=
  ⟨by decide, by decide, fun _ _ => rfl, fun _ => rfl, by decide, by decide⟩

theorem regionAction_control : ControlReg TIER.REGION_ACTION.off regionActionRow :=
  ⟨by decide, by decide, fun _ _ => rfl, fun _ => rfl, by decide, by decide⟩

/-! ### The phases that take them (Table 3-4, Table 21-19) -/

theorem bringupCtrl_phase (ph : s.living = true) (f : FieldRow) : s.phaseOk SYS.BRINGUP_CTRL.off f = true := by
  unfold State.phaseOk
  rcases living_cases ph with h | h | h <;> rw [h] <;> rfl

theorem logScanCtrl_phase (ph : s.phase = phCONFIGURE) (f : FieldRow) : s.phaseOk TIER.LOG_SCAN_CTRL.off f = true := by
  unfold State.phaseOk
  rw [ph]
  rfl

theorem quiesceCtrl_phase (ph : s.phase = phRELEASED) (f : FieldRow) : s.phaseOk TIER.QUIESCE_CTRL.off f = true := by
  unfold State.phaseOk
  rw [ph]
  rfl

theorem regionAction_phase (ph : s.phase = phCONFIGURE) (done : s.flag TIER.LOG_SCAN_STATUS.DONE = true) (f : FieldRow) :
    s.phaseOk TIER.REGION_ACTION.off f = true := by
  unfold State.phaseOk
  rw [ph, done]
  rfl

/-! ### The writes -/

theorem exec_releaseCmd (s : State) : exec .releaseCmd s = .next (bar0 hBringupCtrl SYS.BRINGUP_CTRL.off 1#32 s) := rfl

theorem exec_logScanStart (s : State) : exec .logScanStart s = .next (bar0 hLogScanCtrl TIER.LOG_SCAN_CTRL.off 1#32 s) := rfl

theorem exec_quiesceStart (s : State) : exec .quiesceStart s = .next (bar0 hQuiesceCtrl TIER.QUIESCE_CTRL.off 1#32 s) := rfl

theorem exec_regionScrub (s : State) : exec .regionScrub s = .next (bar0 hRegionAction TIER.REGION_ACTION.off 2#32 s) := rfl

theorem exec_regionHold (s : State) : exec .regionHold s = .next (bar0 hRegionAction TIER.REGION_ACTION.off 3#32 s) := rfl

theorem exec_regionAdopt (s : State) {tid : Nat} (h : tid < 1024) : exec (.regionAdopt tid) s =
    .next (bar0 hRegionAction TIER.REGION_ACTION.off (BitVec.ofNat 32 (1 + tid * 2 ^ 16)) s) := by
  show execRegionAdopt tid s = _
  rw [execRegionAdopt, Nat.mod_eq_of_lt h]

/-- A RELEASE that does not stand already waits for the boundary (R67). -/
theorem hBringupCtrl_act (ph : s.phase ≠ phRELEASED) (idle : s.flag SYS.BRINGUP_CTRL.RELEASE = false) :
    hBringupCtrl.act s 0 1#32 = (s.put SYS.BRINGUP_CTRL.RELEASE 1).atBoundary .release :=
  if_pos ⟨rfl, ph, by simp [idle]⟩

theorem hLogScanCtrl_chk (s : State) (old : Word) : hLogScanCtrl.chk s 0 old 1#32 =
    (s.get SYS.DRAM_STATUS.TRAINED != 0xFF || s.flag TIER.LOG_SCAN_STATUS.DONE) := rfl

theorem hLogScanCtrl_act (idle : s.flag TIER.LOG_SCAN_CTRL.START = false) : hLogScanCtrl.act s 0 1#32 =
    (s.put TIER.LOG_SCAN_CTRL.START 1).put TIER.FRAMES_TOTAL.FRAMES s.frameTotal :=
  if_pos ⟨rfl, by simp [idle]⟩

theorem hQuiesceCtrl_act (s : State) :
    hQuiesceCtrl.act s 0 1#32 = (s.put TIER.QUIESCE_CTRL.START 1).setTier fun t => { t with quiesce := true } := rfl

/-! ### Region actions -/

section regionAction

variable {i : Nat} {v : Word} {a tid : Nat} (ha : fieldGet v 0 2 = a) (ht : fieldGet v 16 10 = tid)

include ha ht in
/-- The fields of a written word are those that the row's word shows. -/
theorem regionAction_fields : fieldGet (regionActionRow.fieldBits v) 0 2 = a ∧ fieldGet (regionActionRow.fieldBits v) 16 10 = tid :=
  ⟨(fieldGet_fieldBits (r := regionActionRow) v (f := ⟨0, 2, .wo, 0⟩) (by decide) (by decide)).trans ha,
    (fieldGet_fieldBits (r := regionActionRow) v (f := ⟨16, 10, .wo, 0⟩) (by decide) (by decide)).trans ht⟩

variable (st : s.regionState i = 1 ∨ s.regionState i = 7) (unlatched : s.flash.actions.any (·.index == i) = false)
include ha ht st unlatched

/-- An action on an undecided or failed region is refused where it holds a marked one, or needs a set-aside index that is not there
(R62, R65, R526, log 88). -/
theorem hRegionAction_chk (ne : a ≠ 0) (old : Word) : hRegionAction.chk s i old (regionActionRow.fieldBits v) =
    (a == 3 && (s.flag TIER.REGION_INFO.SCRUB_MARKED i || s.flag TIER.REGION_INFO.STANDBY i) ||
      s.straysBy i a tid && decide (s.asides.length < (s.strayRegions.filter (· ≠ i)).length + 1)) := by
  obtain ⟨action, target⟩ := regionAction_fields ha ht
  have undecided : (s.regionState i != 1 && s.regionState i != 7) = false := by rcases st with h | h <;> simp [h]
  unfold hRegionAction
  dsimp only
  rw [action, target, undecided, unlatched]
  simp [ne]

variable (canon : s.canonical = true) (wr : s.writable = true) (ph : s.phase = phCONFIGURE)
  (done : s.flag TIER.LOG_SCAN_STATUS.DONE = true) (sel : (s.reg TIER.REGION_SELECT.off).toNat = i)
include wr ph done sel

include canon in
/-- An action that is taken joins the queue of actions (R62). -/
theorem regionAction_joins (ne : a ≠ 0)
    (unmarked : a = 3 → s.flag TIER.REGION_INFO.SCRUB_MARKED i = false ∧ s.flag TIER.REGION_INFO.STANDBY i = false)
    (room : s.straysBy i a tid = false ∨ (s.strayRegions.filter (· ≠ i)).length + 1 ≤ s.asides.length) :
    bar0 hRegionAction TIER.REGION_ACTION.off v s =
      s.recorded (s.setFlash fun f => { f with actions := f.actions ++ [⟨i, a, tid⟩] }) TIER.REGION_ACTION.off i v := by
  obtain ⟨action, target⟩ := regionAction_fields ha ht
  have act : hRegionAction.act s i (regionActionRow.fieldBits v) =
      s.setFlash fun f => { f with actions := f.actions ++ [⟨i, a, tid⟩] } := by
    unfold hRegionAction
    dsimp only
    rw [action, target, if_neg ne]
  have noHold : (a == 3 && (s.flag TIER.REGION_INFO.SCRUB_MARKED i || s.flag TIER.REGION_INFO.STANDBY i)) = false := by
    by_cases h : a = 3
    · simp [unmarked h]
    · simp [h]
  have fits : (s.straysBy i a tid && decide (s.asides.length < (s.strayRegions.filter (· ≠ i)).length + 1)) = false := by
    rcases room with h | h
    · simp [h]
    · simp only [Bool.and_eq_false_iff, decide_eq_false_iff_not]
      exact .inr (by omega)
  exact regionAction_control.takes wr (fun f _ => regionAction_phase ph done f) sel canon hRegionAction rfl rfl
    (by rw [hRegionAction_chk ha ht st unlatched ne, noHold, fits]; rfl) act

/-- A HOLD of a marked region is refused (log 88). -/
theorem regionAction_hold_refused (hold : a = 3)
    (marked : s.flag TIER.REGION_INFO.SCRUB_MARKED i = true ∨ s.flag TIER.REGION_INFO.STANDBY i = true) :
    bar0 hRegionAction TIER.REGION_ACTION.off v s = s.illegal 0 causeState TIER.REGION_ACTION.off v.toNat := by
  refine regionAction_control.refuses wr (fun f _ => regionAction_phase ph done f) sel hRegionAction rfl ?_
  rw [hRegionAction_chk ha ht st unlatched (by omega), hold]
  rcases marked with h | h <;> simp [h]

end regionAction

/-- The word that REGION_ADOPT writes: ACTION 1 and the target tenant. -/
theorem adoptWord_fields {tid : Nat} (h : tid < 1024) :
    fieldGet (BitVec.ofNat 32 (1 + tid * 2 ^ 16)) 0 2 = 1 ∧ fieldGet (BitVec.ofNat 32 (1 + tid * 2 ^ 16)) 16 10 = tid := by
  unfold fieldGet
  rw [BitVec.toNat_ofNat, Nat.shiftRight_eq_div_pow, Nat.shiftRight_eq_div_pow]
  omega

/-- Settles O12: training and PF0's readiness by their commands' equations; each write is one of a register that only acts. -/
theorem bringUp : Obligations.BringUp := by
  refine ⟨fun s k canon run hk untrained sound => ⟨?trained, ?failed, fun rom => ?ready⟩,
    fun s i canon wr sel => ⟨fun ph unreleased idle => ?release, fun ph trained undone idle => ?scan, fun ph => ?quiesce,
      fun ph done st unlatched => ⟨?scrub, fun marked => ?refused, fun unmarked active room => ?hold, fun tid ht room => ?adopt⟩⟩⟩
  case trained => exact exec_dramTrainingDone run hk untrained sound true
  case failed => exact dramTrainingDone_failed_phase run hk untrained sound canon
  case ready => exact ⟨exec_pf0Ready run rom, toPhase_phase s (canonical_regs canon) phLOAD (by decide)⟩
  case release =>
    rw [exec_releaseCmd, bringupCtrl_control.takes (i := 0) (v := 1#32) wr (fun f _ => bringupCtrl_phase ph f) rfl canon
      hBringupCtrl rfl rfl rfl (hBringupCtrl_act unreleased idle)]
  case scan =>
    have hc : hLogScanCtrl.chk s 0 (s.reg TIER.LOG_SCAN_CTRL.off 0) 1#32 = false := by simp [hLogScanCtrl_chk, trained, undone]
    rw [exec_logScanStart, logScanCtrl_control.takes (i := 0) (v := 1#32) wr (fun f _ => logScanCtrl_phase ph f) rfl canon
      hLogScanCtrl rfl rfl hc (hLogScanCtrl_act idle)]
  case quiesce =>
    rw [exec_quiesceStart, quiesceCtrl_control.takes (i := 0) (v := 1#32) wr (fun f _ => quiesceCtrl_phase ph f) rfl canon
      hQuiesceCtrl rfl rfl rfl (hQuiesceCtrl_act s)]
  case scrub =>
    have room : s.straysBy i 2 0 = false := by simp [State.straysBy]
    rw [exec_regionScrub, regionAction_joins (a := 2) (tid := 0) rfl rfl st unlatched canon wr ph done sel (by decide) nofun (.inl room)]
  case refused =>
    rw [exec_regionHold, regionAction_hold_refused (a := 3) (tid := 0) rfl rfl st unlatched wr ph done sel rfl marked]
    rfl
  case hold =>
    rw [exec_regionHold, regionAction_joins (a := 3) (tid := 0) rfl rfl st unlatched canon wr ph done sel (by decide)
      (fun _ => ⟨unmarked, active⟩) room]
  case adopt =>
    obtain ⟨action, target⟩ := adoptWord_fields ht
    rw [exec_regionAdopt s ht, regionAction_joins action target st unlatched canon wr ph done sel (by decide) nofun room]

end Sys2Proof.Machine
end

section
/-! The log scan, region actions and the orderly power-down: what each event does in a card that works (R61 to R66, R68, R461). -/

namespace Sys2Proof.Machine

variable {s : State}

section works

variable (up : s.working = true)
include up

/-- The scan lists every chain that it found, and is done (R61). -/
theorem exec_logScanDone (start : s.flag TIER.LOG_SCAN_CTRL.START = true) (undone : s.flag TIER.LOG_SCAN_STATUS.DONE = false)
    {u v : State} (hu : u = s.setFlash FlashSt.scanned) (hv : v = u.flash.chains.foldl State.listChain u) :
    exec .logScanDone s = .next ((v.put TIER.LOG_SCAN_STATUS.REGIONS v.flash.found.length).put TIER.LOG_SCAN_STATUS.DONE 1) := by
  subst hu hv
  show execLogScanDone s = _
  simp [execLogScanDone, up, start, undone]

/-- With no action running, the oldest latched one starts; what that does goes by its code (R62). -/
theorem exec_regionActionStart {a : RegAct} {rest : List RegAct} (idle : s.flash.acting = none) (latched : s.flash.actions = a :: rest) :
    exec .regionActionStart s = .next
      (if a.action = 1 then
        if s.adoptCause a = 0 then
          (((s.setFlash fun f => { f with actions := rest }).put TIER.REGION_INFO.STATE 2 a.index).put TIER.REGION_INFO.FAIL_CAUSE 0
            a.index).setFlash fun f => { f with acting := some a }
        else ((s.setFlash fun f => { f with actions := rest }).put TIER.REGION_INFO.FAIL_CAUSE (s.adoptCause a) a.index).regionEnds a.index 7
      else if a.action = 2 then
        ((((((s.setFlash fun f => { f with actions := rest }).logRaw a.index recScrub).flushAll a.index).anchorUpdate).put
          TIER.REGION_INFO.STATE 4 a.index).put TIER.REGION_INFO.SCRUB_MARKED 1 a.index).setFlash fun f => { f with acting := some a }
      else (s.setFlash fun f => { f with actions := rest }).regionEnds a.index 6) := by
  show execRegionActionStart s = _
  unfold execRegionActionStart
  simp only [idle, latched, up, Bool.not_true, Bool.false_eq_true, if_false]
  split
  · split <;> rfl
  · split <;> rfl

section adopt

variable {a : RegAct} {c : Chain} (acting : s.flash.acting = some a) (adopt : a.action = 1) (chain : s.chainAt a.index = some c)
include acting adopt chain

/-- An adopt of a pool region takes it from its log (R63, R407). -/
theorem exec_adoptDone_pool (pool : kvIndex a.index = false) : exec .adoptDone s = .next
    (((s.setFlash fun f => { f with acting := none }).adoptPool (a.index - 1024) (replayOf c.recs)).regionEnds a.index 3) := by
  show execAdoptDone s = _
  simp [execAdoptDone, acting, up, adopt, chain, pool]

/-- An adopt of a KV region replays its log into the target tenant and counts the pages that it lost (R63, R64). -/
theorem exec_adoptDone_kv (kv : kvIndex a.index = true) {u : State} {map : List (Nat × Seq)}
    (replay : (s.setFlash fun f => { f with acting := none }).replayInto a.target (replayOf c.recs) false = (u, map)) :
    exec .adoptDone s = .next (((u.put TIER.REGION_LOST_PAGES.LOST (u.absentIn (map.map (·.2))) a.index).setFlash fun f =>
      { f with adopted := f.adopted ++ [(a.index, a.target)] }).regionEnds a.index 3) := by
  show execAdoptDone s = _
  simp [execAdoptDone, acting, up, adopt, chain, kv, replay]

end adopt

/-- A scrub that runs erases every chain of its region (R65). -/
theorem exec_scrubDone {a : RegAct} (acting : s.flash.acting = some a) (scrub : a.action = 2) : exec .scrubDone s = .next
    ((((s.chainsOf a.index).foldl State.eraseChain s).setFlash fun f => { f with acting := none }).regionEnds a.index 5) := by
  show execScrubDone s = _
  simp [execScrubDone, acting, up, scrub]

section powerDown

variable (quiesce : s.tier.quiesce = true) (undone : s.flag TIER.QUIESCE_STATUS.DONE = false) (works : s.wk.works = [])
  (flash : s.allOnFlash = true)
include quiesce undone works flash

/-- The power-down ends once nothing is outstanding and every page is on flash (R68). -/
theorem exec_quiesceDone (host : s.wd.hdr = none) : exec .quiesceDone s = .next (s.markClean.put TIER.QUIESCE_STATUS.DONE 1) := by
  show execQuiesceDone s = _
  simp [execQuiesceDone, up, quiesce, undone, works, flash, host]

/-- A power-down that a watchdog began goes on to its expiry (R461). -/
theorem exec_quiesceDone_watchdog {h : CrashHdr} {n : Nat} (hdr : s.wd.hdr = some h) (limit : s.wd.qlimit = some n) :
    exec .quiesceDone s = .next (({ s.markClean.put TIER.QUIESCE_STATUS.DONE 1 with
      wd := { (s.markClean.put TIER.QUIESCE_STATUS.DONE 1).wd with hdr := some { h with quiesce := 1 } } }).expireNow false) := by
  show execQuiesceDone s = _
  simp [execQuiesceDone, up, quiesce, undone, works, flash, hdr, limit]

end powerDown

end works

/-- Settles O13: each event by its command's equation in a card that works, the start of an action by the branch of its code. -/
theorem regionEvents : Obligations.RegionEvents := by
  intro s up
  refine ⟨fun start undone u v => exec_logScanDone up start undone, fun a rest idle latched => ?start,
    fun a c acting adopt pool chain => exec_adoptDone_pool up acting adopt chain pool,
    fun a c u map acting adopt kv chain replay => exec_adoptDone_kv up acting adopt chain kv replay,
    fun a acting scrub => exec_scrubDone up acting scrub,
    fun quiesce undone works flash => ⟨exec_quiesceDone up quiesce undone works flash,
      fun h n hdr limit => exec_quiesceDone_watchdog up quiesce undone works flash hdr limit⟩⟩
  case start =>
    rw [exec_regionActionStart up idle latched]
    refine ⟨fun adopt sound => ?_, fun adopt fails => ?_, fun scrub => ?_, fun hold => ?_⟩
    · rw [if_pos adopt, if_pos sound]
    · rw [if_pos adopt, if_neg fails]
    · rw [if_neg (by omega), if_pos scrub]
    · rw [if_neg (by omega), if_neg (by omega)]

end Sys2Proof.Machine
end

section
/-! The verification of a payload and its application by kind (R57, R76, R81, R94, R442). -/

namespace Sys2Proof.Machine

variable {s : State}

section verify

variable (up : s.working = true) (verifying : s.load = ldVERIFYING)
include up verifying

/-- A payload whose hash is not the manifest's is discarded, and the load rejected with cause HASH (R81). -/
theorem exec_verifyDone_mismatch (hash : sha384 s.payload ≠ (s.img.header.drop 64).take 48) :
    exec .verifyDone s = .next ({ s with img := { s.img with staged := [] } }.endLoad 12) := by
  show execVerifyDone s = _
  simp [execVerifyDone, up, verifying, hash]

/-- A payload with the manifest's hash goes on to APPLYING, as its kind and the Gear fabric's clock let it (R81, R94, R442). -/
theorem exec_verifyDone_match (hash : sha384 s.payload = (s.img.header.drop 64).take 48) : exec .verifyDone s = .next
    (if (leAt s.img.header 12 1 = 3 ∨ leAt s.img.header 12 1 = 4) ∧ s.dom 20 = domOFF then
      (s.put IMG.LOAD_STATE.STATE ldAPPLYING).endLoad 13
    else if leAt s.img.header 12 1 = 4 then
      { s.put IMG.LOAD_STATE.STATE ldAPPLYING with
        img := { s.img with loadSlot := some (s.get IMG.LOAD_CTRL.SLOT) } }.slotAtBoundary (s.get IMG.LOAD_CTRL.SLOT) 2
    else s.put IMG.LOAD_STATE.STATE ldAPPLYING) := by
  show execVerifyDone s = _
  unfold execVerifyDone
  rw [if_neg (by simp [up, verifying])]
  dsimp only
  rw [if_neg fun ne => ne hash]
  show (if (leAt s.img.header 12 1 = 3 ∨ leAt s.img.header 12 1 = 4) ∧ s.dom 20 = domOFF then _ else _) = _
  split
  · rfl
  · split <;> rfl

end verify

/-- The end of an application: rejected with cause APPLY where it failed, else done with what its kind applies (R57, R76). -/
theorem exec_applyDone (up : s.working = true) (applying : s.load = ldAPPLYING) (kind : leAt s.img.header 12 1 ≠ 4) (ok : Bool) (m : Nat) :
    exec (.applyDone ok m) s = .next
      (if ok then (if leAt s.img.header 12 1 = 1 then s.firmwareStart m else if leAt s.img.header 12 1 = 2 then s.applyUcode
        else s.applyShell).endLoad 0
      else s.endLoad 13) := by
  show execApplyDone ok m s = _
  unfold execApplyDone
  dsimp only
  rw [if_neg (by simp [up, applying, kind])]
  cases ok <;> rfl

/-- Settles O18: the end of verification by the hash and the kind, the end of application by its result and the kind. -/
theorem verifyAndApply : Obligations.VerifyAndApply := by
  intro s up
  refine ⟨fun verifying => ⟨exec_verifyDone_mismatch up verifying, fun hash => ?verified⟩, fun applying kind => ?applied⟩
  case verified =>
    rw [exec_verifyDone_match up verifying hash]
    refine ⟨fun fabric off => ?_, fun slot on => ?_, fun other shell => ?_⟩
    · rw [if_pos ⟨fabric, off⟩]
    · rw [if_neg fun h => on h.2, if_pos slot]
    · rw [if_neg fun h => shell (h.1.resolve_right other) h.2, if_neg other]
  case applied =>
    have ends := exec_applyDone up applying kind
    refine ⟨fun m => ends false m, fun m firmware => ?_, fun m microcode => ?_, fun m shell => ?_⟩
    · rw [ends, if_pos rfl, if_pos firmware]
    · rw [ends, if_pos rfl, if_neg (by omega), if_pos microcode]
    · rw [ends, if_pos rfl, if_neg (by omega), if_neg (by omega)]

end Sys2Proof.Machine
end

section
/-! Constant sets (R264, R265, Table 11-4): LOAD and UNLOAD as writes of CONST_CTRL, and the end of a load. -/

namespace Sys2Proof.Machine

variable {s : State} {k : Nat}

/-! ### The control register -/

abbrev constCtrlRow : RegRow := ⟨CMPR.CONST_CTRL.off, 1, some CMPR.CONST_SELECT.off, [⟨0, 1, .w1s, 0⟩, ⟨1, 1, .w1s, 0⟩]⟩

theorem constCtrl_control : ControlReg CMPR.CONST_CTRL.off constCtrlRow :=
  ⟨by decide, by decide, fun _ _ => rfl, fun _ => rfl, by decide, by decide⟩

theorem constCtrl_phase (ph : s.serving = true) (f : FieldRow) : s.phaseOk CMPR.CONST_CTRL.off f = true := by
  unfold State.phaseOk
  rcases serving_cases ph with h | h <;> rw [h] <;> rfl

theorem exec_constLoad (s : State) : exec .constLoad s = .next (bar0 hConstCtrl CMPR.CONST_CTRL.off 1#32 s) :=
  congrArg _ (bit_eq (f := CMPR.CONST_CTRL.LOAD) constCtrl_control.row constCtrl_control.pulses)

theorem exec_constUnload (s : State) : exec .constUnload s = .next (bar0 hConstCtrl CMPR.CONST_CTRL.off 2#32 s) :=
  congrArg _ (bit_eq (f := CMPR.CONST_CTRL.UNLOAD) constCtrl_control.row constCtrl_control.pulses)

theorem hConstCtrl_act (s : State) (k : Nat) (v : Word) : hConstCtrl.act s k v =
    if fieldGet v 0 1 = 1 then s.constLoad k else if fieldGet v 1 1 = 1 then s.constUnload k else s := rfl

theorem hConstCtrl_act_load (s : State) (k : Nat) : hConstCtrl.act s k 1#32 = s.constLoad k := by
  rw [hConstCtrl_act, if_pos (by decide)]

theorem hConstCtrl_act_unload (s : State) (k : Nat) : hConstCtrl.act s k 2#32 = s.constUnload k := by
  rw [hConstCtrl_act, if_neg (by decide), if_pos (by decide)]

section write

variable (wr : s.writable = true) (ph : s.serving = true)
include wr ph

/-- With no set loading, LOAD and UNLOAD act on the set selected (R264). -/
theorem constCtrl_acts (sel : (s.reg CMPR.CONST_SELECT.off).toNat = k) (canon : s.canonical = true) (idle : s.gear.loading = none) :
    exec .constLoad s = .next (s.recorded (s.constLoad k) CMPR.CONST_CTRL.off k 1#32) ∧
      exec .constUnload s = .next (s.recorded (s.constUnload k) CMPR.CONST_CTRL.off k 2#32) := by
  have chk (v : Word) : hConstCtrl.chk s k (s.reg CMPR.CONST_CTRL.off k) v = false := by simp [hConstCtrl, idle]
  have takes {val : Word} {t : State} (hv : constCtrlRow.fieldBits val = val) (act : hConstCtrl.act s k val = t) :=
    constCtrl_control.takes wr (fun f _ => constCtrl_phase ph f) sel canon hConstCtrl rfl hv (chk val) act
  rw [exec_constLoad, exec_constUnload]
  exact ⟨congrArg _ (takes (by decide) (hConstCtrl_act_load s k)), congrArg _ (takes (by decide) (hConstCtrl_act_unload s k))⟩

/-- While a set is loading, CONST_CTRL takes no command (R264). -/
theorem constCtrl_refuses (busy : s.gear.loading ≠ none) :
    exec .constLoad s = .next (s.illegal 0 causeState CMPR.CONST_CTRL.off 1) ∧
      exec .constUnload s = .next (s.illegal 0 causeState CMPR.CONST_CTRL.off 2) := by
  have refuses {val : Word} (hv : constCtrlRow.fieldBits val = val) (set : fieldGet val 0 2 ≠ 0) :=
    constCtrl_control.refuses wr (fun f _ => constCtrl_phase ph f) rfl hConstCtrl hv
      (show (fieldGet val 0 2 != 0 && s.gear.loading.isSome) = true by simp [set, Option.isSome_iff_ne_none, busy])
  rw [exec_constLoad, exec_constUnload]
  exact ⟨congrArg _ (refuses (by decide) (by decide)), congrArg _ (refuses (by decide) (by decide))⟩

end write

/-! ### LOAD and UNLOAD -/

/-- A set that a class names is neither loaded nor unloaded (R264, R278). -/
theorem constLoad_inUse (used : s.constUsers k ≠ 0) : s.constLoad k = s.put CMPR.CONST_STATUS.FAIL_CAUSE 5 k := if_pos used

theorem constUnload_inUse (used : s.constUsers k ≠ 0) : s.constUnload k = s.put CMPR.CONST_STATUS.FAIL_CAUSE 5 k := if_pos used

theorem constUnload_free (free : s.constUsers k = 0) :
    s.constUnload k = (s.setConst k 0 0).setGear fun g => { g with consts := g.consts.filter (·.set ≠ k) } :=
  if_neg fun ne => ne free

/-- The room of the set that stood there is freed before the new one's shape and room are judged (R264, Table 11-4). -/
theorem constLoad_free (free : s.constUsers k = 0) {u : State}
    (hu : u = s.setGear fun g => { g with consts := g.consts.filter (·.set ≠ k) }) :
    s.constLoad k =
      if u.constShapeOk k = false then u.setConst k 3 3
      else if u.constFree < u.constMib k then u.setConst k 3 1
      else (u.setConst k 1 0).setGear fun g => { g with loading := some k, consts := g.consts ++ [⟨k, [], u.constMib k⟩] } := by
  subst hu
  unfold State.constLoad
  rw [if_neg fun ne => ne free]
  simp only [Bool.not_eq_eq_eq_not, Bool.not_true]

/-! ### The end of a load -/

/-- The load of set `k` ends with `cause`, and its room is free again (R264). -/
def State.constFails (s : State) (k cause : Nat) : State :=
  ((s.setConst k 3 cause).setGear fun g => { g with loading := none }).setGear fun g => { g with consts := g.consts.filter (·.set ≠ k) }

/-- Set `k` stands LOADED with its image (R264, R265). -/
def State.constLoaded (s : State) (k : Nat) (image : List Byte) : State :=
  (((s.setConst k 2 0).put CMPR.CONST_CHECK.CRC (crc32c image).toNat k).setGear fun g => { g with loading := none }).setGear fun g =>
    { g with consts := g.consts.map fun c => if c.set = k then { c with image := image } else c }

section loadDone

variable (up : s.working = true) (loading : s.gear.loading = some k)
include up loading

theorem exec_constLoadDone_failed : exec (.constLoadDone false) s = .next (s.constFails k 2) := by
  show execConstLoadDone false s = _
  simp only [execConstLoadDone, loading, up]
  rfl

/-- An image that has been read waits for the DRAM stacks, and is LOADED unless a value in it is not finite (R56, R264). -/
theorem exec_constLoadDone_read {image : List Byte} {rn : Nat} (himage : image = s.memRead (s.pair CMPR.CONST_ADDR_LO.off k) (s.constBytes k))
    (hrn : rn = s.get CMPR.CONST_SHAPE.SET_RANK k * (s.get CMPR.CONST_SHAPE.SET_WIDTH_DIV32 k * 32)) :
    exec (.constLoadDone true) s = .next
      (if s.get SYS.DRAM_STATUS.TRAINED ≠ 0xFF then s else if constBad rn image then s.constFails k 4 else s.constLoaded k image) := by
  subst himage hrn
  show execConstLoadDone true s = _
  simp only [execConstLoadDone, loading, up, Bool.not_true, Bool.false_eq_true, if_false]
  split
  · rfl
  · split <;> rfl

end loadDone

/-- Settles O38: LOAD and UNLOAD act by `constCtrl_acts`, or are refused while a set is loading; the end of a load by what was read. -/
theorem constantSets : Obligations.ConstantSets := by
  intro s k
  refine ⟨fun canon wr ph sel idle => ?commands, fun _ wr ph busy => constCtrl_refuses wr ph busy,
    fun image rn up loading himage hrn => ?ends⟩
  case commands =>
    obtain ⟨load, unload⟩ := constCtrl_acts wr ph sel canon idle
    rw [load, unload]
    refine ⟨fun used => ?_, fun free => ?_, fun u free hu => ?_⟩
    · rw [constLoad_inUse used, constUnload_inUse used]
      exact ⟨rfl, rfl⟩
    · rw [constUnload_free free]
    · rw [constLoad_free free hu]
      refine ⟨fun bad => ?_, fun good small => ?_, fun good room => ?_⟩
      · rw [if_pos bad]
      · rw [if_neg (by simp [good]), if_pos small]
      · rw [if_neg (by simp [good]), if_neg (by omega)]
  case ends =>
    refine ⟨exec_constLoadDone_failed up loading, ?_⟩
    rw [exec_constLoadDone_read up loading himage hrn]
    refine ⟨fun untrained => ?_, fun trained bad => ?_, fun trained finite => ?_⟩
    · rw [if_pos untrained]
    · rw [if_neg (by simp [trained]), if_pos bad]
      rfl
    · rw [if_neg (by simp [trained]), if_neg (by simp [finite])]
      rfl

end Sys2Proof.Machine
end

section
/-! A BAR0 write from the checks on: what the written fields' locks and phases leave to the register's own rules, the refusal, the accepted
write with what follows its entry, and the registers that only act. -/

namespace Sys2Proof.Machine

variable {s : State} {h : Handler} {r : RegRow} {off i : Nat} {val : Word}

section checks

variable {ws : List FieldRow} (written : ws = r.fields.filter fun f => f.written (s.reg off i) val)
include written

/-- A lock against a written field is the first cause of all (R485). -/
theorem refuses_locked (locked : ∃ f ∈ ws, s.locked off f = true) : s.refuses h r off i val = some causeLocked := by
  subst written
  exact if_pos (List.any_eq_true.2 locked)

variable (unlocked : ∀ f ∈ ws, s.locked off f = false)
include unlocked

theorem refuses_phase (early : ∃ f ∈ ws, s.phaseOk off f = false) : s.refuses h r off i val = some causePhase := by
  subst written
  have noLock : ¬ (r.fields.filter fun f => f.written (s.reg off i) val).any (s.locked off) = true := by simpa using unlocked
  exact (if_neg noLock).trans (if_pos (List.any_eq_true.2 (early.imp fun f hf => ⟨hf.1, by simp [hf.2]⟩)))

variable (phase : ∀ f ∈ ws, s.phaseOk off f = true)
include phase

/-- Where locks and phase take the written fields, the register's domain and rules are asked, then the room for the entry (R111, R485). -/
theorem refuses_eq_of_fields : s.refuses h r off i val =
    if (!ws.isEmpty && s.offDomain off) || h.chk s i (s.reg off i) (r.fieldBits val) then some causeState
    else if s.flag ROLE.AUDIT_POLICY.STRICT && s.auditFull && off != ROLE.AUDIT_TAIL.off then some causeAuditFull
    else none := by
  subst written
  have noLock : ¬ (r.fields.filter fun f => f.written (s.reg off i) val).any (s.locked off) = true := by simpa using unlocked
  have noPhase : ¬ ((r.fields.filter fun f => f.written (s.reg off i) val).any fun f => !s.phaseOk off f) = true := by simpa using phase
  exact (if_neg noLock).trans (if_neg noPhase)

theorem refuses_chk (chk : h.chk s i (s.reg off i) (r.fieldBits val) = true) : s.refuses h r off i val = some causeState := by
  rw [refuses_eq_of_fields written unlocked phase, chk, Bool.or_true, if_pos rfl]

variable (powered : s.offDomain off = false) (chk : h.chk s i (s.reg off i) (r.fieldBits val) = false)
include powered chk

/-- In STRICT mode a write whose entry would be dropped is refused, but for one of AUDIT_TAIL (R111). -/
theorem refuses_auditFull (strict : s.flag ROLE.AUDIT_POLICY.STRICT = true) (full : s.auditFull = true) (tail : off ≠ ROLE.AUDIT_TAIL.off) :
    s.refuses h r off i val = some causeAuditFull := by
  rw [refuses_eq_of_fields written unlocked phase]
  simp [powered, chk, strict, full, tail]

theorem refuses_nothing (lax : s.flag ROLE.AUDIT_POLICY.STRICT = false) : s.refuses h r off i val = none := by
  rw [refuses_eq_of_fields written unlocked phase]
  simp [powered, chk, lax]

end checks

section write

theorem breakKey_none (key : s.wd.key1 = none) (off : Nat) : s.breakKey off = s := by
  unfold State.breakKey
  rw [key]

variable (pf : s.pf0 = true) (key : s.wd.key1 = none)
include pf key

/-- A write to an offset without a register is counted (R112). -/
theorem bar0_unassigned (row : findReg off = none) : bar0 h off val s = s.illegal 0 causeUnassigned off val.toNat := by
  unfold bar0
  simp [pf, row, breakKey_none key]

variable (row : findReg off = some r)
include row

/-- A write that is refused is counted with its cause, and does nothing else (R112, R485). -/
theorem bar0_of_refuses {c : Nat} (nd : off ≠ WDOG.HOST_DISABLE.off) (refused : s.refuses h r off (s.selInst r) val = some c) :
    bar0 h off val s = s.illegal 0 c off val.toNat := by
  unfold bar0
  simp [pf, row, refused, breakKey_none key, State.dropKey, nd]

theorem bar0_of_accepts (taken : s.refuses h r off (s.selInst r) val = none) : bar0 h off val s = s.accept h r off (s.selInst r) val := by
  unfold bar0
  simp [pf, row, taken, key]

end write

/-- What an accepted write of the word `val` makes of the card before its audit entry: stored, then the action of the fields written (R483). -/
def State.acted (s : State) (h : Handler) (r : RegRow) (off i : Nat) (val : Word) : State :=
  h.act (h.chg (s.setReg off (r.store (s.reg off i) val) i) i (s.view off i) (r.fieldBits val)) i (r.fieldBits val)

/-- An accepted write acts, makes its entry, and goes on to what follows the entry; a write of AUDIT_TAIL makes none, a key's entry shows
none of its words (R107, R108, R109). -/
theorem accept_acted (s : State) (h : Handler) (r : RegRow) (off i : Nat) (val : Word) : s.accept h r off i val =
    h.post (if off = ROLE.AUDIT_TAIL.off then s.acted h r off i val
      else if isKeyData off then (s.acted h r off i val).audit actorBar0 1 off
      else s.recorded (s.acted h r off i val) off i val) (r.fieldBits val) := rfl

/-- A write of a register that only acts, where something follows its audit entry: `ControlReg.takes` for such a handler. -/
theorem ControlReg.takes_then (c : ControlReg off r) (wr : s.writable = true) (phase : ∀ f ∈ r.fields, s.phaseOk off f = true)
    (hi : s.selInst r = i) (canon : s.canonical = true) (h : Handler) (hplain : h.chg = Handler.plain.chg) {val v : Word} {t : State}
    (hv : r.fieldBits val = v) (hc : h.chk s i (s.reg off i) v = false) (act : h.act s i v = t) :
    bar0 h off val s = h.post (s.recorded t off i val) v := by
  subst hi hv act
  have stored : s.setReg off (r.store (s.reg off (s.selInst r)) val) (s.selInst r) = s := by
    rw [store_pulses c.pulses, setReg_self s (canonical_regs canon)]
  have acted : s.acted h r off (s.selInst r) val = h.act s (s.selInst r) (r.fieldBits val) := by
    unfold State.acted
    rw [stored, hplain]
    rfl
  obtain ⟨tail, secret⟩ := c.recorded
  rw [bar0_takes wr c.row (fun f _ => c.unlocked s f) phase (c.powered s) hc, accept_acted, acted, if_neg tail, if_neg (by simp [secret])]

end Sys2Proof.Machine
end

section
/-! Register writes on BAR0 (R107, R112, R485, R493), and the reads of counts, of BAR2 and of offsets that are no register (R90, R112, R478,
R490). -/

namespace Sys2Proof.Machine

variable {s : State} {off : Nat} {val : BitVec 64}

section write

variable (pf : s.pf0 = true) (key : s.wd.key1 = none) (low : off < 0xF00000)
include pf low

include key in
/-- A write that is not an aligned word is counted with cause WIDTH (R112, R485). -/
theorem exec_registerWrite_width (nd : off ≠ WDOG.HOST_DISABLE.off) {bytes : Nat} (odd : bytes ≠ 4 ∨ off % 4 ≠ 0) :
    exec (.registerWrite off bytes val) s = .next (s.illegal 0 causeWidth off (val.toNat % 2 ^ 32)) := by
  show execRegisterWrite off bytes val s = _
  unfold execRegisterWrite State.registerWrite
  rw [Nat.mod_eq_of_lt (by omega), if_neg (by simp [pf]), if_neg (by omega), if_pos odd, breakKey_none key]
  simp [State.dropKey, nd]

/-- An aligned word below the MSI-X table goes to its register's handler (R482, R485). -/
theorem exec_registerWrite_word (nc : off ≠ CMPR.CLASS_CTRL.off) (aligned : off % 4 = 0) :
    exec (.registerWrite off 4 val) s = .next (bar0 (s.handler off) off (val.truncate 32) s) := by
  show execRegisterWrite off 4 val s = _
  unfold execRegisterWrite State.registerWrite
  rw [Nat.mod_eq_of_lt (by omega), if_neg (by simp [pf]), if_neg (by omega), if_neg (by omega), if_neg nc]

end write

/-! ### Reads -/

theorem exec_countLoRead_bar0 (pf : s.pf0 = true) (bytes : Nat) : exec (.countLoRead 0 ⟨off, bytes⟩) s =
    .next ((s.readBar0 bytes off).1.emit (.readReturn 0 off (s.readBar0 bytes off).2)) := by
  show execCountLoRead 0 ⟨off, bytes⟩ s = _
  simp [execCountLoRead, State.readAny, pf]

theorem exec_countLoRead_bar2 (pf : s.pf0 = true) (bytes : Nat) :
    exec (.countLoRead 1 ⟨off, bytes⟩) s = .next (s.emit (.readReturn 1 off 0#32)) := by
  show execCountLoRead 1 ⟨off, bytes⟩ s = _
  simp [execCountLoRead, State.readAny, pf]

/-- An illegal read is counted with its cause and returns 0 (R112). -/
theorem readBar0_illegal (table : msixSpace off = false) {bytes c : Nat}
    (illegal : (if bytes = 4 then illegalRead off else some causeWidth) = some c) : s.readBar0 bytes off = (s.illegal 0 c off 0, 0#32) := by
  unfold State.readBar0
  simp [table, illegal]

theorem readBar0_assigned (table : msixSpace off = false) (aligned : off % 4 = 0) {r : RegRow} (row : findReg off = some r) :
    s.readBar0 4 off = s.readPath 0 off := by
  unfold State.readBar0
  simp [table, illegalRead, aligned, row]

theorem msixSpace_roPairs (pair : roPairs.contains off = true) : msixSpace off = false := by
  have all : ∀ o ∈ roPairs, msixSpace o = false := by decide
  exact all off (List.contains_iff_mem.1 pair)

/-- A read of a count's low word latches the high word on the path, and returns the low one (R478, R490). -/
theorem readPath_low {r : RegRow} (row : findReg off = some r) (pair : roPairs.contains off = true) (window : isWindow off = false)
    (powered : s.offDomain off = false) : s.readPath 0 off =
      ({ s with paths := spPut (fun _ => 0#32) s.paths (pathKey 0 (regKey (off + 4) (s.selInst r))) (s.highOf off (s.selInst r)) },
        s.readWord 0 off (s.selInst r)) := by
  unfold State.readPath
  rw [row]
  simp only [powered, window, pair, if_true, if_false, Bool.false_eq_true]
  rfl

theorem canonical_paths (canon : s.canonical = true) : spWf (fun _ => 0#32) s.paths = true := by
  simp only [State.canonical, Bool.and_eq_true] at canon
  exact canon.1.1.2

/-- Settles O24: a write's checks one after another by the cause each gives, the accepted write by `accept_acted`, reads by what BAR0 answers. -/
theorem registerWritesAndCountReads : Obligations.RegisterWritesAndCountReads := by
  refine ⟨fun s off val canon wr low nd nc => ⟨?width, fun aligned => ⟨?unassigned, fun r i ws row sel written => ?checks⟩⟩,
    fun s off val r i ws pf key low aligned nc nd tail strict full row sel written unlocked phase powered chk => ?strict,
    fun s off r canon pf aligned row pair window powered => ?low, fun s off pf => ⟨?bar2, ?oddRead, ?noRegister⟩⟩
  case width => exact fun bytes odd => exec_registerWrite_width (writable_pf0 wr) (writable_key wr) low nd odd
  case unassigned =>
    intro row _ _
    rw [exec_registerWrite_word (writable_pf0 wr) low nc aligned, bar0_unassigned (writable_pf0 wr) (writable_key wr) row]
  case checks =>
    have pf := writable_pf0 wr
    have key := writable_key wr
    subst sel
    rw [exec_registerWrite_word pf low nc aligned]
    refine ⟨fun locked => ?_, fun unlocked early => ?_, fun unlocked phase chk => ?_, fun w v h u hw hv hh unlocked phase powered chk hu => ?_⟩
    · rw [bar0_of_refuses pf key row nd (refuses_locked written locked)]
    · rw [bar0_of_refuses pf key row nd (refuses_phase written unlocked early)]
    · rw [bar0_of_refuses pf key row nd (refuses_chk written unlocked phase chk)]
    · subst hw hv hh hu
      rw [bar0_of_accepts pf key row (refuses_nothing written unlocked phase powered chk (writable_strict wr)), accept_acted]
      rfl
  case strict =>
    subst sel
    rw [exec_registerWrite_word pf low nc aligned,
      bar0_of_refuses pf key row nd (refuses_auditFull written unlocked phase powered chk strict full tail)]
  case low =>
    refine ⟨_, exec_countLoRead_bar0 pf 4, ?_⟩
    rw [readBar0_assigned (msixSpace_roPairs pair) aligned row, readPath_low row pair window powered]
    exact ⟨rfl, spGet_spPut_same _ _ _ _ (canonical_paths canon), rfl, rfl, rfl⟩
  case bar2 => exact exec_countLoRead_bar2 pf
  case oddRead =>
    intro bytes odd table
    have illegal : (if bytes = 4 then illegalRead off else some causeWidth) = some causeWidth := by
      split
      case isTrue four => exact if_pos (odd.resolve_left fun ne => ne four)
      case isFalse => rfl
    rw [exec_countLoRead_bar0 pf, readBar0_illegal table illegal]
  case noRegister =>
    intro aligned row table
    have illegal : (if 4 = 4 then illegalRead off else some causeWidth) = some causeUnassigned := by
      simp [illegalRead, aligned, row]
    rw [exec_countLoRead_bar0 pf, readBar0_illegal table illegal]

end Sys2Proof.Machine
end

section
/-! The serial slave port (R79, R82, R86, R87, R89): what each command byte of Table 4-6 makes of a transaction, and the commands that bring one. -/

namespace Sys2Proof.Machine

variable {s : State} {w : Word} {ws : List Word}

/-- The command byte and the ARG of a command word are those that it was built from (R86). -/
theorem serialWord_fields {cmd : Nat} (hc : cmd < 256) (arg : Nat) :
    bits (serialWord cmd arg).toNat 24 8 = cmd ∧ bits (serialWord cmd arg).toNat 0 24 = arg % 2 ^ 24 := by
  unfold bits serialWord
  rw [BitVec.toNat_ofNat, Nat.shiftRight_eq_div_pow, Nat.shiftRight_eq_div_pow]
  omega

/-- A transaction of just the words that its command needs is not SHORT (R87). -/
theorem shortMark_exact {n : Nat} (h : ws.length = n) : s.shortMark n ws false = (false, s) := by
  unfold State.shortMark
  simp [h]

/-- The command byte chooses what becomes of a transaction (R86, Table 4-6). -/
theorem serialTxn_cons (on : s.serialOn = true) {cmd : Nat} (byte : bits w.toNat 24 8 = cmd) (partialWord : Bool) :
    s.serialTxn (w :: ws) partialWord =
    if cmd = 0xA5 then (s.shortMark 128 ws partialWord).2.pushHeader 1 (padTo 512 (wordBytes ws)) (s.shortMark 128 ws partialWord).1
    else if cmd = 0xA6 then
      (s.shortMark 1032 ws partialWord).2.pushFrame 1 (padTo 4128 (wordBytes ws)) (s.shortMark 1032 ws partialWord).1
        (bits w.toNat 0 24 == bits (leAt (padTo 4128 (wordBytes ws)) 4096 4) 0 24)
    else if cmd = 0x5A then s.serialStatus (bits w.toNat 0 24) ws
    else if cmd = 0x5B then s.serialAbort ws
    else (s.sat IMG.SERIAL_BADCMD_COUNT.COUNT).setLast 1 7 := by
  subst byte
  unfold State.serialTxn
  simp [on]

section commands

variable (on : s.serialOn = true)
include on

theorem exec_headerCmd (partialWord : Bool) : exec (.headerCmd ws partialWord) s =
    .next ((s.shortMark 128 ws partialWord).2.pushHeader 1 (padTo 512 (wordBytes ws)) (s.shortMark 128 ws partialWord).1) :=
  congrArg _ (serialTxn_cons on (serialWord_fields (by decide) 0).1 partialWord)

theorem exec_frameCmd (arg : Nat) (partialWord : Bool) : exec (.frameCmd arg ws partialWord) s =
    .next ((s.shortMark 1032 ws partialWord).2.pushFrame 1 (padTo 4128 (wordBytes ws)) (s.shortMark 1032 ws partialWord).1
      (arg % 2 ^ 24 == bits (leAt (padTo 4128 (wordBytes ws)) 4096 4) 0 24)) := by
  obtain ⟨byte, harg⟩ := serialWord_fields (cmd := 0xA6) (by decide) arg
  rw [← harg]
  exact congrArg _ (serialTxn_cons on byte partialWord)

theorem exec_statusCmd (x : StatusTxn) : exec (.statusCmd x) s = .next (s.serialStatus (x.cursor % 2 ^ 24) x.words) := by
  obtain ⟨byte, harg⟩ := serialWord_fields (cmd := 0x5A) (by decide) x.cursor
  rw [← harg]
  exact congrArg _ (serialTxn_cons on byte false)

theorem exec_serialAbort : exec .serialAbort s = .next (s.serialAbort []) :=
  congrArg _ (serialTxn_cons on (serialWord_fields (by decide) 0).1 false)

end commands

/-- A STATUS of its four words sends them, and releases SSP_ATTN_N (R89). -/
theorem serialStatus_exact (h : ws.length = 4) (cursor : Nat) : s.serialStatus cursor ws =
    { s with out := s.out ++ [.serial (s.statusWords cursor)], img := { s.img with attn := false } } := by
  unfold State.serialStatus State.overlong
  rw [h]
  rfl

/-- A STATUS of more words sends no more than the four, and is counted as overlong and SHORT (R87, R89). -/
theorem serialStatus_overlong (h : 4 < ws.length) (cursor : Nat) :
    (s.serialStatus cursor ws).out = s.out ++ [.serial (s.statusWords cursor)] ∧ (s.serialStatus cursor ws).img.attn = false ∧
      (s.serialStatus cursor ws).regs = ((s.sat IMG.SERIAL_OVERLONG_COUNT.COUNT).sat IMG.SHORT_COUNT.COUNT).regs := by
  have all : (s.statusWords cursor).take ws.length = s.statusWords cursor := List.take_of_length_le (Nat.le_of_lt h)
  unfold State.serialStatus State.overlong
  rw [all, if_pos h, if_pos (Nat.le_of_lt h), if_pos h]
  exact ⟨rfl, rfl, rfl⟩

/-- Settles O17: every transaction by what its command byte makes of it, STATUS by the words clocked. -/
theorem serialCommands : Obligations.SerialCommands := by
  intro s on
  refine ⟨fun x four => ?status, fun x more => ?overlong, fun w rest cmd byte => ?bytes⟩
  case status => rw [exec_statusCmd on, serialStatus_exact four]
  case overlong => exact ⟨_, exec_statusCmd on x, serialStatus_overlong more _⟩
  case bytes =>
    have txn : exec (.serialBadcmd (w :: rest)) s = .next (s.serialTxn (w :: rest) false) := rfl
    have arg : bits w.toNat 0 24 % 2 ^ 24 = bits w.toNat 0 24 := Nat.mod_mod _ _
    rw [txn, serialTxn_cons on byte.symm]
    refine ⟨fun header frame status abort => ?_, fun header => ?_, fun frame => ?_, fun status => ?_, fun abort alone => ?_⟩
    · rw [if_neg header, if_neg frame, if_neg status, if_neg abort]
      rfl
    · rw [exec_headerCmd on, if_pos header]
    · rw [exec_frameCmd on, arg, frame, if_neg (by decide), if_pos rfl]
    · rw [exec_statusCmd on, arg, status, if_neg (by decide), if_neg (by decide), if_pos rfl]
    · rw [exec_serialAbort on, abort, alone, if_neg (by decide), if_neg (by decide), if_neg (by decide), if_pos rfl]

end Sys2Proof.Machine
end

section
/-! Header pushes and frame pushes (R74, R75, R79, R80, R90, R91): what a push that is taken leaves, and the ports that bring one. -/

namespace Sys2Proof.Machine

open Sys2Proof.Laws.Slots

variable {s : State}

/-! ### Headers -/

/-- The fields that a header writes as it begins a load (Table 4-4). -/
def headerFlds : List Fld :=
  [IMG.LOAD_STATE.STATE, IMG.LOAD_STATE.PORT, IMG.LOAD_STATE.REJECT_CAUSE, IMG.LOAD_STATE.KIND, IMG.FRAME_COUNT.COUNT, IMG.FRAMES_ACCEPTED.COUNT]

/-- `headerFlds` with what a header takes from its port and its bytes: no cause, and no frame accepted. -/
def loadFlds (port : Nat) (h : List Byte) : List (Fld × Nat) :=
  [(IMG.LOAD_STATE.STATE, ldHEADER_CHECK), (IMG.LOAD_STATE.PORT, port), (IMG.LOAD_STATE.REJECT_CAUSE, 0),
    (IMG.LOAD_STATE.KIND, leAt h 12 1), (IMG.FRAME_COUNT.COUNT, leAt h 16 4), (IMG.FRAMES_ACCEPTED.COUNT, 0)]

theorem loadFlds_flds (port : Nat) (h : List Byte) : (loadFlds port h).map Prod.fst = headerFlds := rfl

/-- The card with the header taken, nothing of a load before it left. -/
def State.headerTaken (s : State) (h : List Byte) : State :=
  { s with img := { s.img with header := h, staged := [], loadSlot := none, slotAt := s.slotState (s.get IMG.LOAD_CTRL.SLOT) } }

theorem not_loading_of_idle (idle : s.load = ldIDLE ∨ s.load = ldDONE ∨ s.load = ldREJECTED) : ¬ (1 ≤ s.load ∧ s.load ≤ 4) := by
  unfold ldIDLE ldDONE ldREJECTED at idle
  omega

section header

variable {port : Nat} {h : List Byte} (magic : h.take 4 = [0x4E#8, 0x44#8, 0x4F#8, 0x49#8])
  (crc : leAt h 508 4 = (crc32c (h.take 508)).toNat) (idle : s.load = ldIDLE ∨ s.load = ldDONE ∨ s.load = ldREJECTED)

include magic crc idle

/-- A header that passes the transport checks while no load runs begins a load (R78, R79). -/
theorem pushHeader_begins : s.pushHeader port h false = ((s.headerTaken h).putAll 0 (loadFlds port h)).setLast port 0 := by
  unfold State.pushHeader
  rw [if_neg (by simp [magic, crc]), if_neg (not_loading_of_idle idle)]
  rfl

theorem pushHeader_img : (s.pushHeader port h false).img.header = h ∧ (s.pushHeader port h false).img.staged = [] := by
  rw [pushHeader_begins magic crc idle]
  unfold State.setLast
  split <;> exact ⟨rfl, rfl⟩

/-- Each field of the load that begins reads as it was written. -/
theorem pushHeader_get (canon : s.canonical = true) {x : Fld × Nat} (hx : x ∈ loadFlds port h) :
    (s.pushHeader port h false).get x.1 = x.2 % 2 ^ x.1.w := by
  have apart : headerFlds.Pairwise fun a b => Apart b 0 a 0 := by decide
  have within : ∀ f ∈ headerFlds, f.lo + f.w ≤ 32 := by decide
  have fld : x.1 ∈ headerFlds := loadFlds_flds port h ▸ List.mem_map_of_mem hx
  have regs : spWf regDefault (s.headerTaken h).regs = true := canonical_regs canon
  rw [pushHeader_begins magic crc idle, setLast_get]
  exact get_putAll regs _ (loadFlds_flds port h ▸ apart) hx (within _ fld)

end header

theorem exec_bar2HeaderSubmit (on : s.bar2On = true) (val : Word) : exec (.bar2HeaderSubmit val) s = .next (s.bar2Header val) := by
  show execBar2HeaderSubmit val s = _
  rw [execBar2HeaderSubmit, if_pos on]

/-- The header's checks end the load's first state by the first cause that fails (R80, Table 4-5). -/
theorem exec_headerCheckDone (up : s.working = true) (checking : s.load = ldHEADER_CHECK) : exec .headerCheckDone s =
    .next (if s.headerCause = 0 then s.put IMG.LOAD_STATE.STATE ldRECEIVING else s.endLoad s.headerCause) := by
  show execHeaderCheckDone s = _
  rw [execHeaderCheckDone, if_neg (by simp [up, checking])]

/-- Settles O14: the load's fields by `pushHeader_get`, each port by its command's equation, the end of the checks by their first cause. -/
theorem headerPush : Obligations.HeaderPush := by
  intro s canon
  refine ⟨fun p h hp magic crc idle => ?begins, fun words on len => ?serial, fun val on => exec_bar2HeaderSubmit on val,
    fun up checking => ?checked⟩
  case begins =>
    have get {x : Fld × Nat} := pushHeader_get (port := p) magic crc idle canon (x := x)
    simp only [loadFlds, List.mem_cons, List.not_mem_nil, or_false] at get
    obtain ⟨header, staged⟩ := pushHeader_img (port := p) magic crc idle
    exact ⟨get (.inl rfl), header, staged, (get (.inr (.inl rfl))).trans (Nat.mod_eq_of_lt hp), get (.inr (.inr (.inl rfl))),
      get (.inr (.inr (.inr (.inr (.inr rfl)))))⟩
  case serial => rw [exec_headerCmd on, shortMark_exact len]
  case checked =>
    rw [exec_headerCheckDone up checking]
    exact ⟨fun pass => by rw [if_pos pass], fun fail => by rw [if_neg fail]⟩

/-! ### Frames -/

/-- The card with frame `num` of the image staged (R74). -/
def State.frameStaged (s : State) (num : Nat) (payload : List Byte) : State :=
  { s with img := { s.img with staged := kvSet s.img.staged num payload } }

/-- The staged frame counted, and shown as accepted on its port (R75). -/
def State.frameTaken (s : State) (port num : Nat) (payload : List Byte) : State :=
  ((s.frameStaged num payload).put IMG.FRAMES_ACCEPTED.COUNT (s.get IMG.FRAMES_ACCEPTED.COUNT + 1)).setLast port 0

section frame

variable {port : Nat} {f : List Byte} (receiving : s.load = ldRECEIVING) (crc : leAt f 4124 4 = (crc32c (f.take 4124)).toNat)
  (tag : (f.drop 4100).take 4 = (s.img.header.drop 64).take 4) (inImage : leAt f 4096 4 < s.get IMG.FRAME_COUNT.COUNT)
include receiving crc tag inImage

/-- A frame of the image that passes its tests is placed by its number, unless it was accepted before (R74, R75). -/
theorem pushFrame_placed : s.pushFrame port f false true =
    if (kvFind s.img.staged (leAt f 4096 4)).isSome then (s.sat IMG.DUPLICATE_COUNT.COUNT).setLast port 3
    else if (s.frameTaken port (leAt f 4096 4) (f.take 4096)).get IMG.FRAMES_ACCEPTED.COUNT = s.get IMG.FRAME_COUNT.COUNT then
      (s.frameTaken port (leAt f 4096 4) (f.take 4096)).put IMG.LOAD_STATE.STATE ldVERIFYING
    else s.frameTaken port (leAt f 4096 4) (f.take 4096) := by
  unfold State.pushFrame
  dsimp only
  rw [if_neg fun ne => ne receiving, if_neg (by simp [crc, tag]), if_neg (by omega)]
  rfl

end frame

section taken

variable {port num : Nat} {payload : List Byte}

theorem frameTaken_staged : (s.frameTaken port num payload).img.staged = kvSet s.img.staged num payload := by
  unfold State.frameTaken State.setLast
  split <;> rfl

variable (canon : s.canonical = true)
include canon

theorem frameStaged_wf : spWf regDefault (s.frameStaged num payload).regs = true := canonical_regs canon

theorem frameTaken_wf : spWf regDefault (s.frameTaken port num payload).regs = true := by
  unfold State.frameTaken
  rw [setLast_regs]
  exact setReg_wf _ (frameStaged_wf canon) _ _ _

theorem frameTaken_accepted (room : s.get IMG.FRAMES_ACCEPTED.COUNT + 1 < 2 ^ 32) :
    (s.frameTaken port num payload).get IMG.FRAMES_ACCEPTED.COUNT = s.get IMG.FRAMES_ACCEPTED.COUNT + 1 :=
  calc (s.frameTaken port num payload).get IMG.FRAMES_ACCEPTED.COUNT = (s.get IMG.FRAMES_ACCEPTED.COUNT + 1) % 2 ^ 32 :=
        (setLast_get _ _ _ _ _).trans (get_put_same _ (frameStaged_wf canon) _ _ _ (by decide))
    _ = s.get IMG.FRAMES_ACCEPTED.COUNT + 1 := Nat.mod_eq_of_lt room

theorem frameTaken_load : (s.frameTaken port num payload).load = s.load :=
  (setLast_get _ _ _ _ _).trans (get_put_apart (frameStaged_wf canon) _ (by decide))

end taken

theorem exec_bar2FrameSubmit (on : s.bar2On = true) {slot : Nat} (hs : slot < 127) (val : Word) :
    exec (.bar2FrameSubmit slot val) s = .next (s.bar2Frame slot val) := by
  show execBar2FrameSubmit slot val s = _
  rw [execBar2FrameSubmit, if_pos (by simp [on, hs])]

/-- An aligned word of the BAR2 window that submits nothing is stored (R90). -/
theorem exec_bar2Write_stored (on : s.bar2On = true) {off : Nat} (aligned : off % 4 = 0) (kind : bar2Kind off ≠ 2) (header : off ≠ 0x1FC)
    (frame : ¬ (bar2Kind off = 1 ∧ (off - 0x2000) % 0x2000 = 0x101C)) (val : BitVec 64) :
    exec (.bar2Write off 4 val) s = .next (s.bar2Put off (val.truncate 32)) := by
  show execBar2Write off 4 val s = _
  rw [execBar2Write, if_neg (by simp [on]), if_neg (by omega), if_neg kind, if_neg header, if_neg frame]

/-- Settles O15: a frame by where it is placed, the last one by the counts of frames, each port by its command's equation. -/
theorem framePush : Obligations.FramePush := by
  intro s canon
  refine ⟨fun p f receiving crc tag inImage => ⟨fun missing room => ?missing, fun x again => ?again⟩, fun arg words on len => ?serial,
    fun slot val on hs => exec_bar2FrameSubmit on hs val,
    fun off val on aligned kind header frame => exec_bar2Write_stored on aligned kind header frame val⟩
  case missing =>
    have accepted := frameTaken_accepted (port := p) (num := leAt f 4096 4) (payload := f.take 4096) canon room
    have wf := frameTaken_wf (port := p) (num := leAt f 4096 4) (payload := f.take 4096) canon
    rw [pushFrame_placed receiving crc tag inImage, if_neg (by simp [missing]), accepted]
    split
    case isTrue last =>
      exact ⟨frameTaken_staged, (get_put_apart wf _ (by decide)).trans accepted, get_put_same _ wf _ _ _ (by decide)⟩
    case isFalse more => exact ⟨frameTaken_staged, accepted, (frameTaken_load canon).trans receiving⟩
  case again => rw [pushFrame_placed receiving crc tag inImage, if_pos (by simp [again])]
  case serial => rw [exec_frameCmd on, shortMark_exact len]

end Sys2Proof.Machine
end

section
/-! ABORT of a load and RECOUPLE (R82, R94): the writes of IMG.LOAD_CMD and the serial command. -/

namespace Sys2Proof.Machine

open Sys2Proof.Laws.Slots

variable {s : State}

abbrev loadCmdRow : RegRow := ⟨IMG.LOAD_CMD.off, 1, none, [⟨0, 1, .w1s, 0⟩, ⟨1, 1, .w1s, 0⟩]⟩

theorem loadCmd_control : ControlReg IMG.LOAD_CMD.off loadCmdRow :=
  ⟨by decide, by decide, fun _ _ => rfl, fun _ => rfl, by decide, by decide⟩

theorem loadCmd_phase (ph : s.living = true) (f : FieldRow) : s.phaseOk IMG.LOAD_CMD.off f = true := by
  unfold State.phaseOk
  rcases living_cases ph with h | h | h <;> rw [h] <;> rfl

section running

variable (running : s.load = ldHEADER_CHECK ∨ s.load = ldRECEIVING ∨ s.load = ldVERIFYING)
include running

theorem not_applying_of_running : s.load ≠ ldAPPLYING := by
  rcases running with h | h | h <;> rw [h] <;> decide

/-- An ABORT acts on the states up to VERIFYING (R82). -/
theorem abortLoad_of_running : s.abortLoad = s.endLoad 14 := by
  unfold ldHEADER_CHECK ldRECEIVING ldVERIFYING at running
  exact if_pos (by omega)

end running

section idle

variable (idle : s.load = ldIDLE ∨ s.load = ldDONE ∨ s.load = ldREJECTED)
include idle

theorem not_applying_of_idle : s.load ≠ ldAPPLYING := by
  rcases idle with h | h | h <;> rw [h] <;> decide

theorem abortLoad_of_idle : s.abortLoad = s :=
  if_neg fun h => not_loading_of_idle idle ⟨h.1, by omega⟩

end idle

/-- The entry of a write leaves the load's state. -/
theorem recorded_load (canon : s.canonical = true) (off i : Nat) (val : Word) : (s.recorded s off i val).load = s.load :=
  (audit_regs _ _ _ _ _ _ _ _ _).get (canonical_regs canon) IMG.LOAD_STATE.STATE 0 (by decide) (by decide)

section write

variable (canon : s.canonical = true) (wr : s.writable = true) (ph : s.living = true)
include wr ph

include canon in
/-- Outside APPLYING an ABORT is recorded, and its entry comes before that of the load it ends (R82, R107). -/
theorem exec_abortCmd (other : s.load ≠ ldAPPLYING) : exec .abortCmd s = .next (s.recorded s IMG.LOAD_CMD.off 0 1#32).abortLoad := by
  have chk : hLoadCmd.chk s 0 (s.reg IMG.LOAD_CMD.off 0) 1#32 = false := by simp [hLoadCmd, other]
  exact congrArg _ (loadCmd_control.takes_then wr (fun f _ => loadCmd_phase ph f) rfl canon hLoadCmd rfl
    (val := 1#32) (v := 1#32) (by decide) chk rfl)

theorem exec_abortCmd_applying (applying : s.load = ldAPPLYING) :
    exec .abortCmd s = .next (s.illegal 0 causeState IMG.LOAD_CMD.off 1) := by
  have chk : hLoadCmd.chk s 0 (s.reg IMG.LOAD_CMD.off 0) 1#32 = true := by simp [hLoadCmd, applying, fieldGet]
  exact congrArg _ (loadCmd_control.refuses wr (fun f _ => loadCmd_phase ph f) rfl hLoadCmd (val := 1#32) (v := 1#32) (by decide) chk)

include canon in
/-- RECOUPLE waits for the boundary with the slots that are HELD now (R94). -/
theorem exec_recouple {held : Nat} (hh : held = (List.range 8).foldl (fun a n => if s.slotState n = 5 then a + 2 ^ n else a) 0) :
    exec .recouple s = .next (s.recorded (s.atBoundary (.recouple held)) IMG.LOAD_CMD.off 0 2#32) := by
  subst hh
  exact congrArg _ (loadCmd_control.takes_then wr (fun f _ => loadCmd_phase ph f) rfl canon hLoadCmd rfl
    (val := 2#32) (v := 2#32) (by decide) rfl rfl)

end write

/-- A serial ABORT leaves LAST 0 (log 104). -/
theorem serialAbort_nil (s : State) : s.serialAbort [] =
    if s.load = ldAPPLYING then { s with img := { s.img with serialLast := 0 } }.illegal 2 causeState IMG.LOAD_CMD.off 1
    else { s with img := { s.img with serialLast := 0 } }.abortLoad := rfl

/-- Settles O16: by register and by serial command an ABORT is `abortLoad`, which acts by the load's state; in APPLYING it is counted. -/
theorem abortOfALoad : Obligations.AbortOfALoad := by
  intro s canon
  have load_recorded := recorded_load canon IMG.LOAD_CMD.off 0 1#32
  refine ⟨fun running => ⟨fun wr ph => ?register, fun on => ?serial, endLoad_state s (canonical_regs canon) 14 (by decide) (by decide)⟩,
    fun applying => ⟨fun wr ph => exec_abortCmd_applying wr ph applying, fun on => ?counted⟩,
    fun idle => ⟨fun wr ph => ?registerIdle, fun on => ?serialIdle⟩⟩
  case register =>
    rw [exec_abortCmd canon wr ph (not_applying_of_running running), abortLoad_of_running (load_recorded ▸ running)]
  case serial =>
    rw [exec_serialAbort on, serialAbort_nil, if_neg (not_applying_of_running running)]
    exact congrArg _ (abortLoad_of_running running)
  case counted => rw [exec_serialAbort on, serialAbort_nil, if_pos applying]
  case registerIdle =>
    rw [exec_abortCmd canon wr ph (not_applying_of_idle idle), abortLoad_of_idle (load_recorded ▸ idle)]
  case serialIdle =>
    rw [exec_serialAbort on, serialAbort_nil, if_neg (not_applying_of_idle idle)]
    exact congrArg _ (abortLoad_of_idle idle)

end Sys2Proof.Machine
end

section
/-! The slot handshake (R94, R319, R322) and UNLOAD. -/

namespace Sys2Proof.Machine

open Sys2Proof.Laws.Slots

variable {s : State} {n : Nat}

section handshake

variable (up : s.working = true) (target : s.img.loadSlot = some n)
include up target

/-- The end of the configuration of a LOADING slot: STARTING with the image's block memory, or the load fails (R94, R304). -/
theorem exec_slotConfigDone (loading : s.slotState n = 3) (ok : Bool) {u : State}
    (hu : u = { s with gear := { s.gear with blockMem := kvSet s.gear.blockMem n s.free }, free := s.free + 1 }) :
    exec (.slotConfigDone n ok) s = .next
      (if ok then { u with img := { u.img with designs := kvSet u.img.designs n u.img.staged } }.setSlotState n 4 else s.loadFails n) := by
  subst hu
  show execSlotConfigDone n ok s = _
  rw [execSlotConfigDone, if_neg (by simp [up, target, loading])]
  cases ok <;> rfl

variable (starting : s.slotState n = 4) (unanswered : kvFind s.img.slotNext n = none)
include starting unanswered

/-- READY of a STARTING slot: a bad IDENT fails the load; a good one is shown, and the slot is HELD at once under MANUAL_RECOUPLE, else ACTIVE
at the next boundary (R94, R319). -/
theorem exec_slotReady (ident : List Word) : exec (.slotReady n ident) s = .next
    (if identOk (fun i => (ident.getD i 0#32).toNat) then
      if s.flag IMG.LOAD_CTRL.MANUAL_RECOUPLE then
        ({ s.setIdent n ident with img := { (s.setIdent n ident).img with loadSlot := none } }.setSlotState n 5).endLoad 0
      else (s.setIdent n ident).slotAtBoundary n 1
    else s.loadFails n) := by
  show execSlotReady n ident s = _
  unfold execSlotReady
  dsimp only
  rw [if_neg (by simp [up, target, starting, unanswered])]
  by_cases good : identOk (fun i => (ident.getD i 0#32).toNat) = true
  · rw [if_neg (by simpa using good), if_pos good]
    split <;> rfl
  · rw [if_pos (by simpa using good), if_neg good]

theorem exec_slotReadyTimeout : exec (.slotReadyTimeout n) s = .next (s.loadFails n) := by
  show execSlotReadyTimeout n s = _
  rw [execSlotReadyTimeout, if_neg (by simp [up, target, starting, unanswered])]

end handshake

abbrev slotCtrlRow : RegRow := ⟨GEAR.SLOT_CTRL.off, 1, some GEAR.SLOT_SELECT.off, [⟨0, 1, .w1s, 0⟩]⟩

theorem slotCtrl_phase (ph : s.serving = true) (f : FieldRow) : s.phaseOk GEAR.SLOT_CTRL.off f = true := by
  unfold State.phaseOk
  rcases serving_cases ph with h | h <;> rw [h] <;> rfl

/-- UNLOAD of a slot that holds a design, or failed, waits for the boundary (R322). -/
theorem exec_unloadCmd (canon : s.canonical = true) (wr : s.writable = true) (ph : s.serving = true) (fabric : s.dom 20 ≠ domOFF)
    (sel : (s.reg GEAR.SLOT_SELECT.off).toNat = n) (full : s.slotState n = 1 ∨ s.slotState n = 5 ∨ s.slotState n = 6)
    (free : s.loadTarget n = false) (idle : kvFind s.img.slotNext n = none) :
    exec .unloadCmd s = .next (s.recorded (s.slotAtBoundary n 2) GEAR.SLOT_CTRL.off n 1#32) := by
  have chk : hSlotCtrl.chk s n (s.reg GEAR.SLOT_CTRL.off n) 1#32 = false := by
    rcases full with h | h | h <;> simp [hSlotCtrl, free, h]
  have act : hSlotCtrl.act s n 1#32 = s.slotAtBoundary n 2 := if_pos ⟨rfl, full, by simp [idle]⟩
  have write : bar0Bit hSlotCtrl GEAR.SLOT_CTRL.UNLOAD s = s.recorded (hSlotCtrl.act s n 1#32) GEAR.SLOT_CTRL.off n 1#32 :=
    bit_acts (r := slotCtrlRow) sel (by decide) (canonical_regs canon) wr (by decide) (by decide) (fun _ _ => rfl)
      (fun f _ => slotCtrl_phase ph f) (gear_offDomain fabric (by decide)) chk rfl (by decide) (by decide)
  rw [act] at write
  exact congrArg _ write

/-- Settles O19: the steps of the handshake by their commands' equations, RECOUPLE and UNLOAD as writes that wait for the boundary. -/
theorem slotHandshake : Obligations.SlotHandshake := by
  intro s n up
  refine ⟨fun target loading => ⟨fun u hu => exec_slotConfigDone up target loading true hu, exec_slotConfigDone up target loading false rfl⟩,
    fun target starting unanswered => ⟨fun ident bad => ?bad, fun ident good auto => ?auto, fun ident good manual => ?manual,
      exec_slotReadyTimeout up target starting unanswered⟩,
    fun held canon wr ph hh => exec_recouple canon wr ph hh,
    fun canon wr ph fabric sel full free idle => exec_unloadCmd canon wr ph fabric sel full free idle⟩
  case bad => rw [exec_slotReady up target starting unanswered, if_neg (by simpa using bad)]
  case auto => rw [exec_slotReady up target starting unanswered, if_pos good, if_neg (by simp [auto])]
  case manual => rw [exec_slotReady up target starting unanswered, if_pos good, if_pos manual]

end Sys2Proof.Machine
end

section
/-! Audit entries (R108, R109, R110): where an entry goes, and what it leaves of the card. -/

namespace Sys2Proof.Machine

variable (s : State)

/-! ### An entry written to the ring -/

/-- The address of the ring's next place: the entry with count HEAD lies at index HEAD mod size (R109). -/
def State.auditSlot : Nat := s.pair ROLE.AUDIT_BASE_LO.off + 64 * (s.get ROLE.AUDIT_HEAD.COUNT % s.auditSize)

theorem auditWrite_role (e : List Byte) : (s.auditWrite e).role = s.role := by
  obtain h | ⟨v, h⟩ := auditWrite_eq s e _ _ rfl rfl
  · rw [h, State.put_role, memWrite_role]
  · rw [h, State.signal_role, State.put_role, memWrite_role]

theorem auditWrite_memByte (e : List Byte) (a : Nat) : (s.auditWrite e).memByte a = (s.memWrite s.auditSlot e).memByte a := by
  obtain h | ⟨v, h⟩ := auditWrite_eq s e s.auditSlot _ rfl rfl <;> rw [h] <;> rfl

/-- An entry that is written moves HEAD on by one, modulo 2^32 (R109). -/
theorem auditWrite_head (canon : spWf regDefault s.regs = true) (e : List Byte) :
    (s.auditWrite e).get ROLE.AUDIT_HEAD.COUNT = (s.get ROLE.AUDIT_HEAD.COUNT + 1) % 2 ^ 32 := by
  have hw : spWf regDefault (s.memWrite s.auditSlot e).regs = true := memWrite_regs e s _ ▸ canon
  have head : ((s.memWrite s.auditSlot e).put ROLE.AUDIT_HEAD.COUNT ((s.get ROLE.AUDIT_HEAD.COUNT + 1) % 2 ^ 32)).get ROLE.AUDIT_HEAD.COUNT =
      (s.get ROLE.AUDIT_HEAD.COUNT + 1) % 2 ^ 32 := (get_put_same _ hw _ _ _ (by decide)).trans (Nat.mod_mod _ _)
  obtain h | ⟨v, h⟩ := auditWrite_eq s e s.auditSlot _ rfl rfl <;> rw [h] <;> exact head

/-! ### An entry created -/

section created

/-- The card after an entry has taken its SEQUENCE (R108). -/
def State.numbered : State := { s with role := { s.role with auditSeq := s.role.auditSeq + 1 } }

variable {actor event subject old written after : Nat} {detail : List Byte} {dword : Nat}

/-- With room in the ring and none held before it, an entry goes to the ring (R110). -/
theorem audit_of_room (room : s.auditRoom = true) (unheld : s.role.held = []) :
    s.audit actor event subject old written after detail dword =
      s.numbered.auditWrite (auditBytes s.role.auditSeq s.stroke actor event subject old written after detail dword) :=
  if_pos (by simp [room, unheld])

variable {t : State} (ht : t = s.audit actor event subject old written after detail dword)
include ht

/-- An entry goes to the ring, joins the holding buffer, or is dropped (R110). -/
theorem audit_cases :
    (∃ e : List Byte, e.length = 64 ∧ t = s.numbered.auditWrite e) ∨
    (∃ e : List Byte, t = s.numbered.setHeld (s.role.held ++ [e])) ∨
    t = (s.numbered.put ROLE.AUDIT_STATUS.OVERFLOW 1).sat ROLE.AUDIT_DROPPED.COUNT := by
  subst ht
  unfold State.audit
  dsimp only
  split
  · exact .inl ⟨_, auditBytes_length .., rfl⟩
  · split
    · exact .inr (.inl ⟨_, rfl⟩)
    · exact .inr (.inr rfl)

/-- Every entry takes a SEQUENCE, a dropped one too (R108). -/
theorem audit_auditSeq : t.role.auditSeq = s.role.auditSeq + 1 := by
  obtain ⟨e, -, h⟩ | ⟨e, h⟩ | h := audit_cases s ht
  · rw [h, auditWrite_role]; rfl
  · rw [h]; rfl
  · rw [h]; rfl

/-- Host memory outside the ring's next place stands. -/
theorem audit_memByte_other (canon : spWf memDefault s.hmem = true) {a : Nat} (out : ∀ k < 64, hostAddr a ≠ hostAddr (s.auditSlot + k)) :
    t.memByte a = s.memByte a := by
  obtain ⟨e, len, h⟩ | ⟨e, h⟩ | h := audit_cases s ht
  · rw [h, auditWrite_memByte]
    exact memByte_memWrite_other e s.numbered _ canon a (len ▸ out)
  · rw [h]; rfl
  · rw [h]; rfl

end created

/-- Settles O25: the sequence number and the frames by `audit_cases`, the entry that goes to the ring by what `auditWrite` leaves. -/
theorem auditEntry : Obligations.AuditEntry := by
  intro s actor event subject old written after detail dword slot t canon hslot ht
  subst hslot
  refine ⟨audit_auditSeq s ht, fun o i low head status dropped => ?regs, fun a out => audit_memByte_other s ht (canonical_hmem canon) out,
    fun room unheld => ?ring⟩
  case regs => exact ht ▸ (audit_regs ..).reg (canonical_regs canon) o i low (by simp [auditRegs, head, status, dropped])
  case ring =>
    rw [ht, audit_of_room s room unheld]
    refine ⟨fun k b hb => ?_, auditWrite_head s.numbered (canonical_regs canon) _⟩
    rw [auditWrite_memByte]
    exact memByte_memWrite_same _ s.numbered _ (canonical_hmem canon) (by rw [auditBytes_length]; decide) k b hb

end Sys2Proof.Machine
end

section
/-! The audit ring's consumer and MAKER_LOCK (R106, R107, R109): writes of two registers of block ROLE. -/

namespace Sys2Proof.Machine

variable {s : State}

abbrev auditTailRow : RegRow := ⟨ROLE.AUDIT_TAIL.off, 1, none, [⟨0, 32, .rw, 0⟩]⟩

abbrev makerLockRow : RegRow := ⟨ROLE.MAKER_LOCK.off, 1, none, [⟨0, 1, .rwl, 0⟩]⟩

theorem auditTail_phase (ph : s.living = true) (f : FieldRow) : s.phaseOk ROLE.AUDIT_TAIL.off f = true := by
  unfold State.phaseOk
  rcases living_cases ph with h | h | h <;> rw [h] <;> rfl

theorem makerLock_phase (ph : s.living = true) (f : FieldRow) : s.phaseOk ROLE.MAKER_LOCK.off f = true := by
  unfold State.phaseOk
  rcases living_cases ph with h | h | h <;> rw [h] <;> rfl

/-! ### The tail -/

theorem auditTail_fieldBits (val : Word) : auditTailRow.fieldBits val = val := fieldPut_word 0#32 val

theorem auditTail_store (old val : Word) : auditTailRow.store old val = val := fieldPut_word old val

/-- A tail passes the register's rule when it moves forward by no more than the pending count (R109). -/
theorem hAuditTail_chk (s : State) (i : Nat) (old v : Word) : hAuditTail.chk s i old v =
    decide ((s.get ROLE.AUDIT_HEAD.COUNT + 2 ^ 32 - old.toNat) % 2 ^ 32 < (v.toNat + 2 ^ 32 - old.toNat) % 2 ^ 32) := rfl

theorem exec_auditTail (s : State) (val : Word) : exec (.auditTail val) s = .next (bar0 hAuditTail ROLE.AUDIT_TAIL.off val s) := rfl

/-- What a taken tail makes of the card: the register alone, without an entry (R107, R109). -/
theorem accept_auditTail (s : State) (val : Word) :
    s.accept hAuditTail auditTailRow ROLE.AUDIT_TAIL.off 0 val = s.setReg ROLE.AUDIT_TAIL.off val := by
  rw [accept_acted, if_pos rfl, State.acted, auditTail_store]
  rfl

section tail

variable (wr : s.writable = true) (ph : s.living = true) {val : Word}
include wr ph

theorem auditTail_takes
    (within : (val.toNat + 2 ^ 32 - (s.reg ROLE.AUDIT_TAIL.off).toNat) % 2 ^ 32 ≤
      (s.get ROLE.AUDIT_HEAD.COUNT + 2 ^ 32 - (s.reg ROLE.AUDIT_TAIL.off).toNat) % 2 ^ 32) :
    bar0 hAuditTail ROLE.AUDIT_TAIL.off val s = s.setReg ROLE.AUDIT_TAIL.off val := by
  have chk : hAuditTail.chk s 0 (s.reg ROLE.AUDIT_TAIL.off) (auditTailRow.fieldBits val) = false := by
    rw [auditTail_fieldBits, hAuditTail_chk]
    exact decide_eq_false (Nat.not_lt.2 within)
  exact (bar0_takes (r := auditTailRow) wr (by decide) (fun _ _ => rfl) (fun f _ => auditTail_phase ph f) rfl chk).trans
    (accept_auditTail s val)

theorem auditTail_refused
    (beyond : (s.get ROLE.AUDIT_HEAD.COUNT + 2 ^ 32 - (s.reg ROLE.AUDIT_TAIL.off).toNat) % 2 ^ 32 <
      (val.toNat + 2 ^ 32 - (s.reg ROLE.AUDIT_TAIL.off).toNat) % 2 ^ 32) :
    bar0 hAuditTail ROLE.AUDIT_TAIL.off val s = s.illegal 0 causeState ROLE.AUDIT_TAIL.off val.toNat := by
  have chk : hAuditTail.chk s 0 (s.reg ROLE.AUDIT_TAIL.off) (auditTailRow.fieldBits val) = true := by
    rw [auditTail_fieldBits, hAuditTail_chk]
    exact decide_eq_true beyond
  exact bar0_refused (r := auditTailRow) wr (by decide) (by decide)
    (refuses_state 0 (fun _ _ => rfl) (fun f _ => auditTail_phase ph f) chk)

end tail

/-! ### The lock -/

/-- The card with the lock set, before the write's entry. -/
def State.lockedMaker (s : State) : State := s.setReg ROLE.MAKER_LOCK.off (fieldPut (s.reg ROLE.MAKER_LOCK.off) 0 1 1)

/-- The write's entry leaves the lock, which refuses every challenge (R106). -/
theorem recorded_lockedMaker_flag (canon : s.canonical = true) (val : Word) :
    (s.recorded s.lockedMaker ROLE.MAKER_LOCK.off 0 val).flag ROLE.MAKER_LOCK.LOCK = true := by
  have hw := canonical_regs canon
  have entry : KeepsFld ROLE.MAKER_LOCK.LOCK 0 s.lockedMaker (s.recorded s.lockedMaker ROLE.MAKER_LOCK.off 0 val) :=
    .of_regsBut (audit_regs ..) (by decide) (by decide)
  exact (entry.flag (setReg_wf s hw _ _ _)).trans (flag_put_same hw ROLE.MAKER_LOCK.LOCK 1 0 (by decide) (by decide))

theorem makerRefuses_of_lock (lock : s.flag ROLE.MAKER_LOCK.LOCK = true) : s.makerRefuses = true := by
  rw [State.makerRefuses, lock, Bool.true_or]

/-- After the entry of the write that sets the lock comes the lock's own, then an open session closes (R106, R107). -/
theorem hMakerLock_post (lock : s.flag ROLE.MAKER_LOCK.LOCK = true) (v : Word) :
    hMakerLock.post s v = ((s.put ROLE.MAKER_STATUS.REFUSING 1).audit actorBar0 8 0).closeMaker := if_pos lock

theorem exec_makerLock (unset : s.flag ROLE.MAKER_LOCK.LOCK = false) :
    exec .makerLock s = .next (bar0 hMakerLock ROLE.MAKER_LOCK.off 1#32 s) := by
  show execMakerLock s = _
  rw [execMakerLock, if_neg (by simp [unset])]

/-- The lock stands against its own register (Table 5-5). -/
theorem makerLock_locked (s : State) (f : FieldRow) : s.locked ROLE.MAKER_LOCK.off f = s.flag ROLE.MAKER_LOCK.LOCK := rfl

/-- A write that sets the lock, taken: stored, recorded, and followed by what the lock brings. -/
theorem makerLock_takes (wr : s.writable = true) (ph : s.living = true) (unset : s.flag ROLE.MAKER_LOCK.LOCK = false) :
    bar0 hMakerLock ROLE.MAKER_LOCK.off 1#32 s =
      hMakerLock.post (s.recorded s.lockedMaker ROLE.MAKER_LOCK.off 0 1#32) (makerLockRow.fieldBits 1#32) := by
  rw [bar0_takes (r := makerLockRow) wr (by decide) (fun f _ => (makerLock_locked s f).trans unset) (fun f _ => makerLock_phase ph f) rfl rfl,
    accept_acted, if_neg (by decide), if_neg (by decide)]
  rfl

/-- Settles O22: a tail by the register's rule, the lock by the write that sets it and what follows its entry. -/
theorem auditTailAndMakerLock : Obligations.AuditTailAndMakerLock := by
  intro s canon wr
  refine ⟨fun val ph => ⟨fun within => ?taken, fun beyond => ?refused⟩, fun t ph unset ht => ?lock⟩
  case taken => rw [exec_auditTail, auditTail_takes wr ph within]
  case refused => rw [exec_auditTail, auditTail_refused wr ph beyond]
  case lock =>
    have ht : t = s.recorded s.lockedMaker ROLE.MAKER_LOCK.off 0 1#32 := ht
    have lock : t.flag ROLE.MAKER_LOCK.LOCK = true := ht ▸ recorded_lockedMaker_flag canon 1#32
    refine ⟨lock, makerRefuses_of_lock lock, ?_⟩
    rw [exec_makerLock unset, makerLock_takes wr ph unset, ← ht, hMakerLock_post lock]

end Sys2Proof.Machine
end

section
/-! The maker channel (R103, R104, R105, R107, R111, R513): the challenge, the response and its nonce, and actions under an open session. -/

namespace Sys2Proof.Machine

variable {s : State}

theorem makerRefuses_fails (answers : s.makerRefuses = false) : s.get ROLE.MAKER_STATUS.FAILS ≠ 3 := by
  rw [State.makerRefuses, Bool.or_eq_false_iff] at answers
  exact of_decide_eq_false answers.2

theorem scopeServed_lt {scope : Nat} (served : s.scopeServed scope = true) : scope < 8 := by
  simp only [State.scopeServed, Bool.and_eq_true, decide_eq_true_eq] at served
  exact served.1.2

/-! ### A session opens -/

/-- The session opened and answered on the channel, before its entry (R103, R513). -/
def State.makerOpened (s : State) (scope : Nat) : State :=
  ((s.put ROLE.MAKER_STATUS.SESSION 1).put ROLE.MAKER_STATUS.SCOPE scope).emit (.makerFrame 4 [0#8])

/-- A session opens with its entry, and a scan session takes the card to FAULT (R105, R107). -/
theorem openMaker_eq (s : State) (scope : Nat) : s.openMaker scope =
    if bits scope 2 1 = 1 then
      ((s.makerOpened scope).audit actorMaker 6 (scope + Config.sessionCode 0 % 256 * 2 ^ 8)).enterFault
    else (s.makerOpened scope).audit actorMaker 6 (scope + Config.sessionCode 0 % 256 * 2 ^ 8) := rfl

theorem makerOpened_session (canon : spWf regDefault s.regs = true) (scope : Nat) :
    (s.makerOpened scope).flag ROLE.MAKER_STATUS.SESSION = true := by
  have scopePut : KeepsFld ROLE.MAKER_STATUS.SESSION 0 (s.put ROLE.MAKER_STATUS.SESSION 1) (s.makerOpened scope) :=
    ((KeepsFld.refl _).put (f := ROLE.MAKER_STATUS.SCOPE) (i := 0) scope (.inr (by decide))).same rfl
  exact (scopePut.flag (setReg_wf s canon _ _ _)).trans (flag_put_same canon ROLE.MAKER_STATUS.SESSION 1 0 (by decide) (by decide))

theorem makerOpened_scope (canon : spWf regDefault s.regs = true) {scope : Nat} (low : scope < 8) :
    (s.makerOpened scope).get ROLE.MAKER_STATUS.SCOPE = scope :=
  (get_put_same (s.put ROLE.MAKER_STATUS.SESSION 1) (setReg_wf s canon _ _ _) ROLE.MAKER_STATUS.SCOPE scope 0 (by decide)).trans
    (Nat.mod_eq_of_lt low)

/-! ### A response that fails -/

/-- The failure counted and answered on the channel, before its entry (R104, R513). -/
def State.makerFailed (s : State) : State :=
  ((s.put ROLE.MAKER_STATUS.FAILS (s.get ROLE.MAKER_STATUS.FAILS + 1)).put ROLE.MAKER_STATUS.REFUSING
    (b01 (s.get ROLE.MAKER_STATUS.FAILS + 1 = 3))).emit (.makerFrame 4 [1#8])

theorem failMaker_eq (s : State) (scope : Nat) : s.failMaker scope =
    s.makerFailed.audit actorMaker 6 (scope + Config.sessionCode 2 % 256 * 2 ^ 8 + 2 ^ 16) := rfl

/-- While fewer than three responses have failed, the count does not wrap (R104). -/
theorem makerFailed_fails (canon : spWf regDefault s.regs = true) (answers : s.makerRefuses = false) :
    s.makerFailed.get ROLE.MAKER_STATUS.FAILS = s.get ROLE.MAKER_STATUS.FAILS + 1 := by
  have fewer : s.get ROLE.MAKER_STATUS.FAILS + 1 < 2 ^ 2 := by
    have below : s.get ROLE.MAKER_STATUS.FAILS < 2 ^ 2 := fieldGet_lt _ _ _
    have := makerRefuses_fails answers
    omega
  have refusingPut : KeepsFld ROLE.MAKER_STATUS.FAILS 0 (s.put ROLE.MAKER_STATUS.FAILS (s.get ROLE.MAKER_STATUS.FAILS + 1)) s.makerFailed :=
    ((KeepsFld.refl _).put (f := ROLE.MAKER_STATUS.REFUSING) (i := 0) _ (.inr (by decide))).same rfl
  rw [refusingPut.get (setReg_wf s canon _ _ _), get_put_same s canon _ _ _ (by decide)]
  exact Nat.mod_eq_of_lt fewer

/-- The third failure leaves the port refusing (R104). -/
theorem makerFailed_refusing (canon : spWf regDefault s.regs = true) :
    s.makerFailed.flag ROLE.MAKER_STATUS.REFUSING = true ↔ s.get ROLE.MAKER_STATUS.FAILS + 1 = 3 := by
  have refusing : s.makerFailed.flag ROLE.MAKER_STATUS.REFUSING = decide (b01 (s.get ROLE.MAKER_STATUS.FAILS + 1 = 3) = 1) :=
    flag_put_same (setReg_wf s canon _ _ _) ROLE.MAKER_STATUS.REFUSING _ 0 (by decide) (by unfold b01; split <;> decide)
  rw [refusing]
  simp [b01]

/-! ### The commands -/

/-- Outside STRICT mode, or with room for the entry, no action is refused for its entry (R111). -/
theorem not_strictFull (room : s.flag ROLE.AUDIT_POLICY.STRICT = false ∨ s.auditFull = false) :
    ¬ (s.flag ROLE.AUDIT_POLICY.STRICT && s.auditFull) = true := by
  rcases room with h | h <;> simp [h]

/-- The card with no nonce outstanding. -/
def State.spentNonce (s : State) : State := { s with role := { s.role with nonce := none } }

theorem spentNonce_of_none (idle : s.role.nonce = none) : s.spentNonce = s := by
  unfold State.spentNonce
  rw [← idle]

section running

variable (run : s.pw.held = false)
include run

theorem exec_makerChallengeRequest_served {scope : Nat} (answers : s.makerRefuses = false) (served : s.scopeServed scope = true)
    {nb : List Byte} (hnb : nb = (List.range 32).map (Config.nonceByte s.free) ++ (List.range 16).map Config.uniqueId) :
    exec (.makerChallengeRequest scope) s = .next { s with
      free := s.free + 1, out := s.out ++ [.makerFrame 2 nb], role := { s.role with nonce := some ⟨nb, scope, s.stroke⟩ } } := by
  subst hnb
  show execMakerChallengeRequest scope s = _
  rw [execMakerChallengeRequest, if_neg (by simp [run]), if_neg (by simp [answers, served])]
  rfl

theorem exec_makerChallengeRequest_refused {scope : Nat} (refused : s.makerRefuses = true ∨ s.scopeServed scope = false) :
    exec (.makerChallengeRequest scope) s = .next (s.refuseMaker scope) := by
  show execMakerChallengeRequest scope s = _
  rw [execMakerChallengeRequest, if_neg (by simp [run]), if_pos (by simpa using refused)]

/-- A response uses its nonce up, and opens the session with the nonce's scope or counts as failed (R103, R104). -/
theorem exec_makerResponse_nonce (sig : List Byte) {n : Nonce} (answers : s.makerRefuses = false) (nonce : s.role.nonce = some n)
    (served : s.scopeServed n.scope = true) : exec (.makerResponse sig) s =
      .next (if makerVerifies n sig then s.spentNonce.openMaker n.scope else s.spentNonce.failMaker n.scope) := by
  show execMakerResponse sig s = _
  rw [execMakerResponse, if_neg (by simp [run]), nonce]
  dsimp only
  rw [if_neg (by simp [answers]), served, Bool.and_true]
  split <;> rfl

/-- A response without an outstanding nonce counts as failed (R104). -/
theorem exec_makerResponse_none (sig : List Byte) (answers : s.makerRefuses = false) (idle : s.role.nonce = none) :
    exec (.makerResponse sig) s = .next (s.failMaker 0) := by
  show execMakerResponse sig s = _
  rw [execMakerResponse, if_neg (by simp [run]), idle]
  dsimp only
  rw [if_neg (by simp [answers])]
  exact congrArg (fun u => Host.Outcome.next (State.failMaker u 0)) (spentNonce_of_none idle)

/-- A nonce lasts 131,072 Strokes (R103). -/
theorem exec_nonceExpiry {n : Nonce} (nonce : s.role.nonce = some n) :
    exec .nonceExpiry s = .next (if n.issued + 131072 ≤ s.stroke then s.spentNonce else s) := by
  have due : s.nonceDue = decide (n.issued + 131072 ≤ s.stroke) := by rw [State.nonceDue, nonce]
  show execNonceExpiry s = _
  rw [execNonceExpiry, if_neg (by simp [run]), State.expireNonce, due]
  simp only [decide_eq_true_eq]
  rfl

section action

variable {scope code off : Nat} (session : s.flag ROLE.MAKER_STATUS.SESSION = true)
include session

/-- In STRICT mode an action whose entry would be dropped is refused (R111). -/
theorem exec_makerAction_full (strict : s.flag ROLE.AUDIT_POLICY.STRICT = true) (full : s.auditFull = true) :
    exec (.makerAction scope code off) s = .next (s.illegal 3 causeAuditFull off 0) := by
  show execMakerAction scope code off s = _
  rw [execMakerAction, if_neg (by simp [run, session]), if_pos (by simp [strict, full])]

variable (room : s.flag ROLE.AUDIT_POLICY.STRICT = false ∨ s.auditFull = false)
include room

/-- An action outside the granted scope, or one that the phase does not serve, makes an entry that says so (R105, R107). -/
theorem exec_makerAction_outside (outside : (scope &&& s.get ROLE.MAKER_STATUS.SCOPE) ≠ scope ∨ s.scopeServed scope = false) :
    exec (.makerAction scope code off) s = .next (s.audit actorMaker 7 (scope % 256 + code % 256 * 2 ^ 8 + 2 ^ 16)) := by
  show execMakerAction scope code off s = _
  rw [execMakerAction, if_neg (by simp [run, session]), if_neg (not_strictFull room), if_pos (by simpa using outside)]

/-- A granted action makes its entry, after the read that a diagnostics action asks for (R105, R107). -/
theorem exec_makerAction_granted (granted : (scope &&& s.get ROLE.MAKER_STATUS.SCOPE) = scope) (served : s.scopeServed scope = true) :
    exec (.makerAction scope code off) s = .next ((if bits scope 0 1 = 1 then
      (s.readPath 3 off).1.emit (.readReturn 3 off (s.readPath 3 off).2) else s).audit actorMaker 7 (scope % 256 + code % 256 * 2 ^ 8)) := by
  show execMakerAction scope code off s = _
  rw [execMakerAction, if_neg (by simp [run, session]), if_neg (not_strictFull room), if_neg (by simp [granted, served])]

end action

end running

/-- Settles O23: each command by its equation, the opened session and the counted failure by the fields they write. -/
theorem makerSession : Obligations.MakerSession := by
  intro s run
  refine ⟨fun scope nb answers served hnb => exec_makerChallengeRequest_served run answers served hnb,
    fun scope refused => exec_makerChallengeRequest_refused run refused,
    fun sig n u answers nonce served hu => ?response, fun scope answers => ?failure,
    fun sig answers idle => exec_makerResponse_none run sig answers idle,
    fun n nonce => ⟨fun due => ?expired, fun early => ?lasts⟩,
    fun scope code off session => ⟨exec_makerAction_full run session, fun room => ⟨exec_makerAction_outside run session room,
      fun granted served => ⟨fun diagnostics => ?reads, fun other => ?acts⟩⟩⟩⟩
  case response =>
    subst hu
    refine ⟨exec_makerResponse_nonce run sig answers nonce served, s.spentNonce.makerOpened n.scope, fun scan => ?_, fun scan => ?_, rfl, rfl,
      fun canon => ⟨makerOpened_session (s := s.spentNonce) (canonical_regs canon) _,
        makerOpened_scope (s := s.spentNonce) (canonical_regs canon) (scopeServed_lt served)⟩⟩
    · exact (openMaker_eq _ _).trans (if_neg (by omega))
    · exact (openMaker_eq _ _).trans (if_pos scan)
  case failure =>
    exact ⟨s.makerFailed, failMaker_eq s scope, rfl, rfl,
      fun canon => ⟨makerFailed_fails (canonical_regs canon) answers, makerFailed_refusing (canonical_regs canon)⟩⟩
  case expired => exact (exec_nonceExpiry run nonce).trans (congrArg _ (if_pos due))
  case lasts => exact (exec_nonceExpiry run nonce).trans (congrArg _ (if_neg (by omega)))
  case reads => rw [exec_makerAction_granted run session room granted served, if_pos diagnostics]
  case acts => rw [exec_makerAction_granted run session room granted served, if_neg other]

end Sys2Proof.Machine
end

section
/-! Doorbells (R98, R120): whose rings a function's page reaches, and what the write of a tail or of a head does. -/

namespace Sys2Proof.Machine

variable {s : State} {vf tid q : Nat} {val : Word}

/-- The page of an unbound VF reaches no tenant's rings (R98). -/
theorem pageTid_unbound (function : vf ≠ 0) (unbound : s.get FN.VF_BIND.TID vf = 0) : s.pageTid vf = none :=
  (if_neg function).trans (if_pos unbound)

/-- PF0's page is TID 0's, and a bound VF's page its tenant's (R98). -/
theorem pageTid_bound (h : (vf = 0 ∧ tid = 0) ∨ (vf ≠ 0 ∧ s.get FN.VF_BIND.TID vf = tid ∧ tid ≠ 0)) : s.pageTid vf = some tid := by
  obtain ⟨rfl, rfl⟩ | ⟨function, rfl, bound⟩ := h
  · rfl
  · exact (if_neg function).trans (if_neg bound)

section doorbell

variable (up : s.pf0 = true)
include up

theorem exec_sqTail_unbound (page : s.pageTid vf = none) :
    exec (.sqTail vf q val) s = .next (s.sat ROLE.UNBOUND_DOORBELL_COUNT.COUNT) := by
  show execSqTail vf q val s = _
  rw [execSqTail, if_neg (by simp [up]), page]

theorem exec_cqHead_unbound (page : s.pageTid vf = none) :
    exec (.cqHead vf q val) s = .next (s.sat ROLE.UNBOUND_DOORBELL_COUNT.COUNT) := by
  show execCqHead vf q val s = _
  rw [execCqHead, if_neg (by simp [up]), page]

/-- A tail that lies no more than the ring's length ahead of the head is recorded; any other is a doorbell error (R120). -/
theorem exec_sqTail_page (page : s.pageTid vf = some tid) : exec (.sqTail vf q val) s =
    .next (if 8 ≤ q ∨ s.sqOn tid q = false ∨ s.sqLen tid q < sub32 val.toNat (s.sqc tid q).head then s.dbErr tid
      else s.setSqc tid q { s.sqc tid q with tail := val.toNat }) := by
  show execSqTail vf q val s = _
  rw [execSqTail, if_neg (by simp [up]), page]
  simp only [Bool.or_eq_true, decide_eq_true_eq, Bool.not_eq_true', or_assoc]
  split <;> rfl

/-- A head that lies no more than the completions waiting ahead of the one before releases them; any other is a doorbell error (R120). -/
theorem exec_cqHead_page (page : s.pageTid vf = some tid) : exec (.cqHead vf q val) s =
    .next (if 8 ≤ q ∨ s.cqOn tid q = false ∨ (s.cqc tid q).waiting < sub32 val.toNat (s.cqc tid q).head then s.dbErr tid
      else (s.keepBounds tid q).setCqc tid q { s.cqc tid q with head := val.toNat }) := by
  show execCqHead vf q val s = _
  rw [execCqHead, if_neg (by simp [up]), page]
  simp only [Bool.or_eq_true, decide_eq_true_eq, Bool.not_eq_true', or_assoc]
  split <;> rfl

end doorbell

/-- What a doorbell write must meet: a ring number below 8, a ring that is enabled, a count within its bound (R120). -/
theorem not_discarded {on : Bool} {bound ahead : Nat} (low : q < 8) (enabled : on = true) (within : ahead ≤ bound) :
    ¬ (8 ≤ q ∨ on = false ∨ bound < ahead) := by
  simp [enabled, low, within]

/-- Settles O26: the page by `pageTid`, each write by its equation. -/
theorem doorbells : Obligations.Doorbells := by
  intro s vf val up
  refine ⟨fun function unbound q => ?unbound, fun tid q owner =>
    ⟨fun low on within => ?tail, fun bad => ?tailDiscarded, fun low on within => ?head, fun bad => ?headDiscarded⟩⟩
  case unbound =>
    have page := pageTid_unbound function unbound
    exact ⟨exec_sqTail_unbound up page, exec_cqHead_unbound up page⟩
  case tail => exact (exec_sqTail_page up (pageTid_bound owner)).trans (congrArg _ (if_neg (not_discarded low on within)))
  case tailDiscarded => exact (exec_sqTail_page up (pageTid_bound owner)).trans (congrArg _ (if_pos bad))
  case head => exact (exec_cqHead_page up (pageTid_bound owner)).trans (congrArg _ (if_neg (not_discarded low on within)))
  case headDiscarded => exact (exec_cqHead_page up (pageTid_bound owner)).trans (congrArg _ (if_pos bad))

end Sys2Proof.Machine
end

section
/-! The fetch of descriptors (R123, R124, R126): the read that begins for the next ring, and the latch of the slot that the head counts. -/

namespace Sys2Proof.Machine

variable {s : State} {tid q : Nat}

/-- One read takes at most 32 slots (R123). -/
theorem fetchRoom_le (s : State) (tid q : Nat) : s.fetchRoom tid q ≤ 32 :=
  Nat.le_trans (Nat.min_le_left _ _) (Nat.min_le_left _ _)

/-- The slot that SQ_HEAD counts, as a descriptor (R126). -/
def State.headBytes (s : State) (tid q : Nat) : List Byte :=
  s.memRead (s.ringBase tid q 0 + 64 * ((s.sqc tid q).head % s.sqLen tid q)) 64

/-- SQ_HEAD past one slot of the read that runs (R116, R126). -/
def State.headPassed (s : State) (tid q : Nat) : State :=
  s.setSqc tid q { s.sqc tid q with head := ((s.sqc tid q).head + 1) % 2 ^ 32, inFetch := (s.sqc tid q).inFetch - 1 }

/-- The read of the next ring in rotation begins (R123, R124). -/
theorem exec_fetchStart (up : s.working = true) (next : s.nextRing = some (ringKey tid q)) {u : State}
    (hu : u = s.setSqc tid q { s.sqc tid q with inFetch := (s.sqc tid q).inFetch + s.fetchRoom tid q }) :
    exec (.fetchStart tid q) s = .next { u with ring := { u.ring with lastServed := ringKey tid q } } := by
  subst hu
  show execFetchStart tid q s = _
  rw [execFetchStart, if_neg (by simp [up, next])]

/-- While a read of the ring runs, its next slot is latched as a descriptor under the next work number; a malformed one completes
IGNORED (R126). -/
theorem exec_descriptorFetched (up : s.working = true) (running : (s.sqc tid q).inFetch ≠ 0) {d : Desc}
    (hd : d = descOf tid q (s.sqc tid q).head (s.headBytes tid q)) : exec (.descriptorFetched tid q) s =
      .next (if d.malformed (leAt (s.headBytes tid q) 1 1 / 4) = 0 then ((s.headPassed tid q).newWork d).1
        else ((s.headPassed tid q).newWork d).1.latch s.wk.next stIGNORED (d.malformed (leAt (s.headBytes tid q) 1 1 / 4)) 0) := by
  subst hd
  show execDescriptorFetched tid q s = _
  rw [execDescriptorFetched, if_neg (by simp [up, running])]
  rfl

/-- Settles O27: the read by `exec_fetchStart` and `fetchRoom_le`, the latch by `exec_descriptorFetched`. -/
theorem fetching : Obligations.Fetching := by
  intro s tid q up
  refine ⟨fun next => ⟨_, exec_fetchStart up next rfl, rfl, rfl⟩, fetchRoom_le s tid q, fun bs d u running hbs hd hu => ?_⟩
  have hbs : bs = s.headBytes tid q := hbs
  have hu : u = s.headPassed tid q := hu
  subst hbs hu
  exact ⟨fun good => by rw [exec_descriptorFetched up running hd, if_pos good],
    fun bad => by rw [exec_descriptorFetched up running hd, if_neg bad]⟩

end Sys2Proof.Machine
end

section
/-! Ring control (R114, R115, R136): the writes of SQ_CTRL and CQ_CTRL in the ring window. -/

namespace Sys2Proof.Machine

open Sys2Proof.Laws.Rows

variable {s : State} {tid q : Nat} {val : Word}

/-! ### Registers of the ring window -/

/-- The registers of the ring pairs, up to those of a CQ's control, lie in the ring window (Table 21-6). -/
theorem fnOff_window (ht : tid < 1024) (hq : q < 8) {rel : Nat} (hr : rel < 0x90) :
    0x40000 ≤ fnOff tid q rel ∧ fnOff tid q rel < 0x80000 := by
  unfold fnOff
  omega

section window

variable {off : Nat} {r : RegRow} (wr : s.writable = true) (ph : s.serving = true)
  (win : 0x40000 ≤ off ∧ off < 0x80000) (row : findReg off = some r) (sel : s.selInst r = 0)
include wr ph win row sel

/-- A write in the ring window that the register's own rules take: stored, its action, then the audit entry (R107, R485). -/
theorem ringReg_takes (h : Handler) (plain : h.endsPlain) {w : Word} {t : State} (store : w = r.store (s.reg off) val)
    (chk : h.chk s 0 (s.reg off) (r.fieldBits val) = false) (act : h.act (s.setReg off w) 0 (r.fieldBits val) = t) :
    bar0 h off val s = s.recorded t off 0 val := by
  have unaudited : off ≠ ROLE.AUDIT_TAIL.off := by simp only [ROLE.AUDIT_TAIL.off]; omega
  have unkeyed : isKeyData off = false := by
    unfold isKeyData
    simp only [PART.KEY_DATA.off, Bool.and_eq_false_iff, decide_eq_false_iff_not]
    omega
  rw [bar0_stores sel rfl store.symm wr row (fun f _ => ring_locked s win.1 win.2 f) (fun f _ => ring_phase ph win.1 win.2 f)
    (ring_offDomain s win.1 win.2) chk plain unaudited unkeyed, act]

/-- A write in the ring window that the register's own rules refuse is counted with cause STATE (R112, R485). -/
theorem ringReg_refused (h : Handler) (chk : h.chk s 0 (s.reg off) (r.fieldBits val) = true) :
    bar0 h off val s = s.illegal 0 causeState off val.toNat := by
  have keyless : off ≠ WDOG.HOST_DISABLE.off := by simp only [WDOG.HOST_DISABLE.off]; omega
  refine bar0_refused wr row keyless (refuses_state _ (fun f _ => ring_locked s win.1 win.2 f) (fun f _ => ring_phase ph win.1 win.2 f) ?_)
  rw [sel]
  exact chk

end window

/-! ### SQ_CTRL -/

/-- What SQ_CTRL refuses (R136, Table 6-11): a length outside 2^6 to 2^16, another length or CQ for a ring that is enabled, and enabling
a ring onto a CQ that is not. -/
theorem hSqCtrl_chk (rise : Bool) : (hSqCtrl tid q rise).chk s 0 (s.reg (fnOff tid q FN.SQ_CTRL.rel)) (rowSQ.fieldBits val) = true ↔
    (fieldGet val 0 5 < 6 ∨ 16 < fieldGet val 0 5) ∨
    (s.sqOn tid q = true ∧ (fieldGet val 0 5 ≠ s.fn tid q FN.SQ_CTRL.LENGTH_LOG2 ∨ fieldGet val 8 3 ≠ s.cqOf tid q)) ∨
    (s.sqOn tid q = false ∧ fieldGet val 16 1 = 1 ∧ s.cqOn tid (fieldGet val 8 3) = false) := by
  obtain ⟨length, cq, enable⟩ := sq_bits val
  have on : (fieldGet (s.reg (fnOff tid q FN.SQ_CTRL.rel)) 16 1 == 1) = s.sqOn tid q := rfl
  have old : fieldGet (s.reg (fnOff tid q FN.SQ_CTRL.rel)) 0 5 = s.fn tid q FN.SQ_CTRL.LENGTH_LOG2 := rfl
  have bound : fieldGet (s.reg (fnOff tid q FN.SQ_CTRL.rel)) 8 3 = s.cqOf tid q := rfl
  simp only [hSqCtrl, length, cq, enable, on, old, bound, Bool.or_eq_true, Bool.and_eq_true, decide_eq_true_eq, bne_iff_ne, beq_iff_eq,
    Bool.not_eq_true', or_assoc, and_assoc]

theorem hSqCtrl_act_enable {rise : Bool} (rises : rise = true) (enable : fieldGet val 16 1 = 1) :
    (hSqCtrl tid q rise).act s 0 (rowSQ.fieldBits val) = s.setSqc tid q ⟨0, 0, 0, 0⟩ := by
  simp [hSqCtrl, (sq_bits val).2.2, enable, rises]

theorem hSqCtrl_act_disable (rise : Bool) (disable : fieldGet val 16 1 = 0) : (hSqCtrl tid q rise).act s 0 (rowSQ.fieldBits val) =
    s.setSqc tid q { s.sqc tid q with tail := (s.sqc tid q).head, inFetch := 0, wait := 0 } := by
  simp [hSqCtrl, (sq_bits val).2.2, disable]

theorem exec_sqCtrl (ht : tid < 1024) (hq : q < 8) :
    exec (.sqCtrl tid q val) s = .next (bar0 (hSqCtrl tid q (!s.sqOn tid q)) (fnOff tid q FN.SQ_CTRL.rel) val s) := by
  show execSqCtrl tid q val s = _
  rw [execSqCtrl, Nat.mod_eq_of_lt ht, Nat.mod_eq_of_lt hq]
  rfl

/-! ### CQ_CTRL -/

/-- What CQ_CTRL refuses of a ring that is not enabled (R136, Table 6-11): a length outside 2^6 to 2^16, and enabling the ring with
interrupts on a vector that its function does not have (R135). -/
theorem hCqCtrl_chk_off (rise : Bool) (off : s.cqOn tid q = false) :
    (hCqCtrl tid q rise).chk s 0 (s.reg (fnOff tid q FN.CQ_CTRL.rel)) (rowCQ.fieldBits val) = true ↔
    (fieldGet val 0 5 < 6 ∨ 16 < fieldGet val 0 5) ∨
    (fieldGet val 8 1 = 1 ∧ fieldGet val 9 1 = 1 ∧ (if tid = 0 then 2048 else 16) ≤ fieldGet val 16 11) := by
  obtain ⟨length, enable, irq, vector⟩ := cq_bits val
  have on : (fieldGet (s.reg (fnOff tid q FN.CQ_CTRL.rel)) 8 1 == 1) = s.cqOn tid q := rfl
  simp only [hCqCtrl, length, enable, irq, vector, on, off, Bool.or_eq_true, Bool.and_eq_true, decide_eq_true_eq, beq_iff_eq,
    Bool.not_false, Bool.false_and, Bool.true_and, Bool.or_false, or_assoc, and_assoc]

/-- CQ_CTRL refuses a length outside 2^6 to 2^16 of any ring (R114). -/
theorem hCqCtrl_chk_length (rise : Bool) (len : fieldGet val 0 5 < 6 ∨ 16 < fieldGet val 0 5) :
    (hCqCtrl tid q rise).chk s 0 (s.reg (fnOff tid q FN.CQ_CTRL.rel)) (rowCQ.fieldBits val) = true := by
  have len : (decide (fieldGet val 0 5 < 6) || decide (16 < fieldGet val 0 5)) = true := by simpa using len
  simp only [hCqCtrl, (cq_bits val).1, len, Bool.true_or]

theorem hCqCtrl_act_enable {rise : Bool} (rises : rise = true) (enable : fieldGet val 8 1 = 1) :
    (hCqCtrl tid q rise).act s 0 (rowCQ.fieldBits val) = s.setCqc tid q ⟨0, 0, 0, 0, false⟩ := by
  simp [hCqCtrl, (cq_bits val).2.1, enable, rises]

theorem exec_cqCtrl (ht : tid < 1024) (hq : q < 8) :
    exec (.cqCtrl tid q val) s = .next (bar0 (hCqCtrl tid q (!s.cqOn tid q)) (fnOff tid q FN.CQ_CTRL.rel) val s) := by
  show execCqCtrl tid q val s = _
  rw [execCqCtrl, Nat.mod_eq_of_lt ht, Nat.mod_eq_of_lt hq]
  rfl

/-! ### The commands -/

section commands

variable (wr : s.writable = true) (ph : s.serving = true) (ht : tid < 1024) (hq : q < 8)
include wr ph ht hq

theorem exec_sqCtrl_refused
    (chk : (hSqCtrl tid q (!s.sqOn tid q)).chk s 0 (s.reg (fnOff tid q FN.SQ_CTRL.rel)) (rowSQ.fieldBits val) = true) :
    exec (.sqCtrl tid q val) s = .next (s.illegal 0 causeState (fnOff tid q FN.SQ_CTRL.rel) val.toNat) := by
  rw [exec_sqCtrl ht hq, ringReg_refused wr ph (fnOff_window ht hq (by decide)) (r := rowSQ) (find_sqCtrl ht hq) rfl _ chk]

theorem exec_cqCtrl_refused
    (chk : (hCqCtrl tid q (!s.cqOn tid q)).chk s 0 (s.reg (fnOff tid q FN.CQ_CTRL.rel)) (rowCQ.fieldBits val) = true) :
    exec (.cqCtrl tid q val) s = .next (s.illegal 0 causeState (fnOff tid q FN.CQ_CTRL.rel) val.toNat) := by
  rw [exec_cqCtrl ht hq, ringReg_refused wr ph (fnOff_window ht hq (by decide)) (r := rowCQ) (find_cqCtrl ht hq) rfl _ chk]

section lengths

variable (lo : 6 ≤ fieldGet val 0 5) (hi : fieldGet val 0 5 ≤ 16) {w : Word}
include lo hi

/-- A ring enabled onto a CQ that is enabled counts from 0 (R115, R136). -/
theorem exec_sqCtrl_enable (hw : w = rowSQ.store (s.reg (fnOff tid q FN.SQ_CTRL.rel)) val) (off : s.sqOn tid q = false)
    (enable : fieldGet val 16 1 = 1) (cq : s.cqOn tid (fieldGet val 8 3) = true) : exec (.sqCtrl tid q val) s =
      .next (s.recorded ((s.setReg (fnOff tid q FN.SQ_CTRL.rel) w).setSqc tid q ⟨0, 0, 0, 0⟩) (fnOff tid q FN.SQ_CTRL.rel) 0 val) := by
  have chk := Bool.eq_false_iff.2 (mt (hSqCtrl_chk (s := s) (tid := tid) (q := q) (val := val) (!s.sqOn tid q)).1
    (by simp [off, cq, lo, hi]))
  rw [exec_sqCtrl ht hq, ringReg_takes wr ph (fnOff_window ht hq (by decide)) (r := rowSQ) (find_sqCtrl ht hq) rfl (hSqCtrl tid q _) rfl hw chk
    (hSqCtrl_act_enable (by simp [off]) enable)]

/-- A ring disabled, its length and CQ left as they are, drops what it has not fetched (R136). -/
theorem exec_sqCtrl_disable (hw : w = rowSQ.store (s.reg (fnOff tid q FN.SQ_CTRL.rel)) val) (on : s.sqOn tid q = true)
    (disable : fieldGet val 16 1 = 0) (length : fieldGet val 0 5 = s.fn tid q FN.SQ_CTRL.LENGTH_LOG2)
    (cq : fieldGet val 8 3 = s.cqOf tid q) : exec (.sqCtrl tid q val) s =
      .next (s.recorded ((s.setReg (fnOff tid q FN.SQ_CTRL.rel) w).setSqc tid q
        { s.sqc tid q with tail := (s.sqc tid q).head, inFetch := 0, wait := 0 }) (fnOff tid q FN.SQ_CTRL.rel) 0 val) := by
  have chk := Bool.eq_false_iff.2 (mt (hSqCtrl_chk (s := s) (tid := tid) (q := q) (val := val) (!s.sqOn tid q)).1
    (by simp [on, cq, ← length, lo, hi]))
  rw [exec_sqCtrl ht hq, ringReg_takes wr ph (fnOff_window ht hq (by decide)) (r := rowSQ) (find_sqCtrl ht hq) rfl (hSqCtrl tid q _) rfl hw chk
    (hSqCtrl_act_disable _ disable)]
  rfl

/-- A CQ enabled without interrupts, or with a vector that its function has, counts from 0 (R135, R136). -/
theorem exec_cqCtrl_enable (hw : w = rowCQ.store (s.reg (fnOff tid q FN.CQ_CTRL.rel)) val) (off : s.cqOn tid q = false)
    (enable : fieldGet val 8 1 = 1) (vector : fieldGet val 9 1 = 0 ∨ fieldGet val 16 11 < (if tid = 0 then 2048 else 16)) :
    exec (.cqCtrl tid q val) s = .next (s.recorded ((s.setReg (fnOff tid q FN.CQ_CTRL.rel) w).setCqc tid q ⟨0, 0, 0, 0, false⟩)
      (fnOff tid q FN.CQ_CTRL.rel) 0 val) := by
  have chk := Bool.eq_false_iff.2 (mt (hCqCtrl_chk_off (s := s) (tid := tid) (q := q) (val := val) (!s.cqOn tid q) off).1 (by omega))
  rw [exec_cqCtrl ht hq, ringReg_takes wr ph (fnOff_window ht hq (by decide)) (r := rowCQ) (find_cqCtrl ht hq) rfl (hCqCtrl tid q _) rfl hw chk
    (hCqCtrl_act_enable (by simp [off]) enable)]

end lengths

end commands

/-- Settles O28: a write that the register's own rules refuse is counted, the others enable or disable the ring. -/
theorem ringSetup : Obligations.RingSetup := by
  intro s tid q val w _ wr ph ht hq
  refine ⟨fun hw => ⟨fun len => ?length, fun lo hi off enable => ⟨fun cq => ?enabled, fun cq => ?unbound⟩,
    fun lo hi on disable length cq => ?disabled⟩, fun hw => ⟨fun len => ?cqLength, fun lo hi off enable vector => ?cqEnabled⟩⟩
  case length => exact exec_sqCtrl_refused wr ph ht hq ((hSqCtrl_chk _).2 (.inl len))
  case enabled => exact exec_sqCtrl_enable wr ph ht hq lo hi hw off enable cq
  case unbound => exact exec_sqCtrl_refused wr ph ht hq ((hSqCtrl_chk _).2 (.inr (.inr ⟨off, enable, cq⟩)))
  case disabled => exact exec_sqCtrl_disable wr ph ht hq lo hi hw on disable length cq
  case cqLength => exact exec_cqCtrl_refused wr ph ht hq (hCqCtrl_chk_length _ len)
  case cqEnabled => exact exec_cqCtrl_enable wr ph ht hq lo hi hw off enable vector

end Sys2Proof.Machine
end

section
/-! What a close drops (R138, R147): the leaves of its sequence, through the operations on pages, tables and logs that it calls. -/

namespace Sys2Proof.Machine

variable (s : State)

/-! ### The log leaves sequences and translation alone -/

theorem takeBlock_sq (idx : Nat) (log : Bool) : (s.takeBlock idx log).1.sq = s.sq := by
  unfold State.takeBlock
  cases s.flash.freeBlocks <;> rfl

theorem logSector_sq (idx : Nat) : (s.logSector idx).1.sq = s.sq := by
  have taken := takeBlock_sq s idx true
  unfold State.logSector
  generalize s.takeBlock idx true = block at taken ⊢
  dsimp only
  split
  · exact taken
  · split
    · rfl
    · exact taken

theorem keepSector_sq (idx : Nat) : (s.keepSector idx).sq = s.sq := logSector_sq s idx

theorem moveRegion_sq (i j : Nat) : (s.moveRegion i j).sq = s.sq := by simp [State.moveRegion]

theorem moveChain_sq (i j : Nat) : (s.moveChain i j).sq = s.sq := rfl

theorem setAside_sq (idx : Nat) : (s.setAside idx).sq = s.sq := by
  unfold State.setAside
  split
  · rw [moveRegion_sq, moveChain_sq]
  · rfl

theorem firstWrite_sq : s.firstWrite.sq = s.sq := by
  unfold State.firstWrite
  split <;> rfl

theorem queueKv_sq (tid r : Nat) : (s.queueKv tid r).sq = s.sq := by
  unfold State.queueKv
  split <;> rfl

theorem logRaw_sq (idx r : Nat) : (s.logRaw idx r).sq = s.sq := rfl

theorem newChain_sq (idx : Nat) : (s.newChain idx).sq = s.sq := keepSector_sq _ idx

theorem anchorUpdate_sq : s.anchorUpdate.sq = s.sq := rfl

theorem needChain_sq (tid : Nat) : (s.needChain tid).sq = s.sq := by
  unfold State.needChain
  split
  · rfl
  · rw [queueKv_sq, logRaw_sq, anchorUpdate_sq, newChain_sq, setAside_sq, firstWrite_sq]

/-- A record logged changes no sequence, leaf or page (R212). -/
theorem logKv_sq (tid r : Nat) : (s.logKv tid r).sq = s.sq := by
  unfold State.logKv
  rw [queueKv_sq, logRaw_sq, needChain_sq]

/-! ### Pages and tables that leave the card -/

/-- From `s` to `t` the sequences and the leaves stand. -/
structure SameLeaves (s t : State) : Prop where
  seqs : t.sq.seqs = s.sq.seqs
  leaves : t.sq.leaves = s.sq.leaves

variable {s} {t : State}

theorem SameLeaves.trans {u : State} (h : SameLeaves s t) (k : SameLeaves t u) : SameLeaves s u :=
  ⟨k.seqs.trans h.seqs, k.leaves.trans h.leaves⟩

theorem SameLeaves.seqIdx (h : SameLeaves s t) (idx : Nat) : t.seqIdx idx = s.seqIdx idx := by
  unfold State.seqIdx
  rw [h.seqs]

theorem gcPage_sameLeaves (s : State) (pid : Nat) : SameLeaves s (s.gcPage pid) := by
  unfold State.gcPage
  split
  · exact ⟨rfl, rfl⟩
  · split <;> exact ⟨rfl, rfl⟩

theorem trimTables_sameLeaves (s : State) (tid : Nat) : SameLeaves s (s.trimTables tid) := ⟨rfl, rfl⟩

theorem unwalk_sameLeaves (s : State) (tid dva : Nat) : SameLeaves s (s.unwalk tid dva) := ⟨rfl, rfl⟩

/-- Staged pages that leave the card name no leaf of the sequence (R152, R345). -/
theorem dropStaged_sameLeaves (s : State) (q : Seq) : SameLeaves s (s.dropStaged q) := by
  unfold State.dropStaged
  exact List.foldlRecOn _ _ (motive := SameLeaves s) ⟨rfl, rfl⟩ fun t ht pid _ => ht.trans (gcPage_sameLeaves t pid)

/-! ### The leaves of a sequence -/

/-- A leaf dropped is gone, and no other leaf and no sequence changes (R147). -/
theorem dropLeaf_leaves {idx : Nat} {q : Seq} (hq : s.seqIdx idx = some q) (p : Nat) :
    (s.dropLeaf idx p).sq.seqs = s.sq.seqs ∧
    (s.dropLeaf idx p).sq.leaves = s.sq.leaves.filter fun y => ¬ (y.sq = idx ∧ y.p = p) := by
  unfold State.dropLeaf
  rw [hq]
  cases hl : s.leafAt idx p with
  | none =>
    have absent : ∀ y ∈ s.sq.leaves, ¬ (y.sq = idx ∧ y.p = p) := fun y hy e => List.find?_eq_none.1 hl y hy (decide_eq_true e)
    exact ⟨rfl, (List.filter_eq_self.2 fun y hy => decide_eq_true (absent y hy)).symm⟩
  | some l =>
    have same := ((unwalk_sameLeaves (s.setSq fun x => { x with leaves := x.leaves.filter fun y => ¬ (y.sq = idx ∧ y.p = p) }) q.tid
      (q.base + p)).trans (gcPage_sameLeaves _ l.pid)).trans (trimTables_sameLeaves _ q.tid)
    exact ⟨same.seqs, same.leaves⟩

/-- The leaves of `idx` at pages of a list dropped, one by one. -/
theorem foldl_dropLeaf {idx : Nat} {q : Seq} (ps : List Nat) (hq : s.seqIdx idx = some q) :
    (ps.foldl (fun s p => s.dropLeaf idx p) s).sq.seqs = s.sq.seqs ∧
    ∀ x ∈ (ps.foldl (fun s p => s.dropLeaf idx p) s).sq.leaves, x ∈ s.sq.leaves ∧ (x.sq = idx → x.p ∉ ps) := by
  induction ps generalizing s with
  | nil => exact ⟨rfl, fun x hx => ⟨hx, fun _ => List.not_mem_nil⟩⟩
  | cons p ps ih =>
    obtain ⟨hseqs, hleaves⟩ := dropLeaf_leaves hq p
    have hq' : (s.dropLeaf idx p).seqIdx idx = some q := by rw [State.seqIdx, hseqs]; exact hq
    obtain ⟨ihseqs, ihleaves⟩ := ih hq'
    refine ⟨ihseqs.trans hseqs, fun x hx => ?_⟩
    obtain ⟨hmem, hps⟩ := ihleaves x hx
    rw [hleaves, List.mem_filter, decide_eq_true_eq] at hmem
    obtain ⟨hmem, hp⟩ := hmem
    exact ⟨hmem, fun hsq => fun h => (List.mem_cons.1 h).elim (fun e => hp ⟨hsq, e⟩) (hps hsq)⟩

/-- With its pages dropped a sequence has no leaf left (R147). -/
theorem dropSeqPages_leaves {q : Seq} (hq : s.seqIdx q.idx = some q) : ∀ x ∈ (s.dropSeqPages q).sq.leaves, x.sq ≠ q.idx := by
  intro x hx hsq
  obtain ⟨hmem, hp⟩ := (foldl_dropLeaf _ hq).2 x hx
  exact hp hsq (List.mem_map_of_mem (List.mem_filter.2 ⟨hmem, by simpa using hsq⟩))

/-! ### The close -/

theorem runClose_seqs (s : State) (q : Seq) : ∀ x ∈ (s.runClose q).sq.seqs, x.idx ≠ q.idx := by
  intro x hx
  exact of_decide_eq_true (List.mem_filter.1 hx).2

/-- A close counts the generation of its index on, from 255 to 1 (R138). -/
theorem runClose_genOf (s : State) (q : Seq) : (s.runClose q).genOf q.idx = q.gen % 255 + 1 := by
  have listed : kvFind (s.runClose q).sq.gens q.idx = some (q.gen % 255 + 1) := Sys2Proof.Laws.Tenant.kvFind_kvSet _ _ _
  rw [State.genOf, listed]
  rfl

theorem runClose_leaves {q : Seq} (hq : s.seqIdx q.idx = some q) : ∀ x ∈ (s.runClose q).sq.leaves, x.sq ≠ q.idx := by
  have hstaged : (s.dropStaged q).seqIdx q.idx = some q := (dropStaged_sameLeaves s q).seqIdx q.idx ▸ hq
  have hleaves : (s.runClose q).sq.leaves = ((s.dropStaged q).dropSeqPages q).sq.leaves := by
    show ((((s.dropStaged q).dropSeqPages q).trimTables q.tid).logKv q.tid (recClose q)).sq.leaves = _
    rw [logKv_sq]
    rfl
  rw [hleaves]
  exact dropSeqPages_leaves hstaged

end Sys2Proof.Machine
end

section
/-! NOP, FENCE and the sequence descriptors at their admission (R133, R134, R145 to R149), and the commands that end a close
(R147, R241). -/

namespace Sys2Proof.Machine

open Sys2Proof.Laws.Rows

variable {s e : State} {d : Desc} {w a : Work}

/-- An opcode that adds its own part to the common admission acts on the work as admitted, in the state of its admission (R127). -/
theorem rowAdmit_admits {op : Nat} (h : s.Admits op d w e a) (k : Nat → State → Work → State) :
    s.rowAdmit op d (fun s id => s.admitWith id (k id)) = k w.id e a := by
  rw [admits_row s op d w a e h, admits_with s op d w a e h]

theorem State.Admits.desc {op : Nat} (h : s.Admits op d w e a) : a.d = w.d := (adm_d h).1

theorem State.Admits.number {op : Nat} (h : s.Admits op d w e a) : a.id = w.id := (adm_d h).2.1

theorem exec_nop_admits (h : s.Admits opNOP d w e a) : exec (.nop d) s = .next (e.latch w.id stDONE 0 0) := by
  have acts := rowAdmit_admits h fun _ t v => t.latch v.id stDONE 0 0
  rw [h.number] at acts
  exact congrArg _ acts

theorem exec_fence_admits (h : s.Admits opFENCE d w e a) : exec (.fence d) s = .next e.settleFences :=
  congrArg _ (rowAdmit_admits h fun _ t _ => t.settleFences)

/-! ### SEQ_OPEN -/

/-- The sequence that a SEQ_OPEN makes at an index and a window (R140, R146). -/
def State.openedSeq (s : State) (d : Desc) (idx base : Nat) : Seq :=
  { idx := idx, gen := s.genOf idx, tid := d.tid, closing := false, layers := d.b 32 2, cls := d.b 34 1, slots := d.b 36 4,
    ring := bits (d.b 35 1) 0 1 = 1, prot := bits (d.b 35 1) 1 1 = 1, btLog := (s.classDef (d.b 34 1)).btLog, len := 0,
    base := base }

theorem exec_seqOpen_admits (h : s.Admits opOPEN d w e a) {idx base : Nat} (index : e.nextIndex = some idx)
    (window : e.windowBase w.d.tid (w.d.b 36 4 * w.d.b 32 2) = some base) (passes : e.openFail w.d = 0) {q : Seq}
    (hq : q = e.openedSeq w.d idx base) : exec (.seqOpen d) s =
      .next (((((e.takeIndex.setSq fun x => { x with seqs := x.seqs ++ [q] }).rootFor w.d.tid).logKv w.d.tid
        (recSeq q)).updWork w.id fun w => { w with newSid := q.sid }).latch w.id stDONE 0 0) := by
  subst hq
  show Host.Outcome.next (s.rowAdmit opOPEN d fun s id => s.admitOpen id) = _
  unfold State.admitOpen
  rw [rowAdmit_admits h, h.desc]
  dsimp only
  rw [index, window]
  dsimp only
  rw [if_neg fun fails => fails passes]
  rfl

/-- A SEQ_OPEN that fails a check is DENIED with that check's DETAIL (R146). -/
theorem exec_seqOpen_denied (h : s.Admits opOPEN d w e a) (fails : e.openFail w.d ≠ 0) :
    exec (.seqOpen d) s = .next (e.latch w.id stDENIED (e.openFail w.d) 0) := by
  show Host.Outcome.next (s.rowAdmit opOPEN d fun s id => s.admitOpen id) = _
  unfold State.admitOpen
  rw [rowAdmit_admits h, h.desc]
  dsimp only
  split
  · rw [if_pos fails]
  · rfl

/-! ### SEQ_CLOSE -/

theorem exec_seqClose_admits (h : s.Admits opCLOSE d w e a) {q : Seq} (isOpen : e.openSeq w.d.tid w.d.sid = some q) :
    exec (.seqClose d) s = .next (e.setSeq { q with closing := true }) := by
  show Host.Outcome.next (s.rowAdmit opCLOSE d fun s id => s.admitClose id) = _
  unfold State.admitClose
  rw [rowAdmit_admits h, h.desc, isOpen]

/-- With nothing else on its sequence a close runs, and its descriptor is done (R147). -/
theorem exec_closeRun {idx : Nat} {q : Seq} (up : s.working = true) (found : s.seqIdx idx = some q) (closing : q.closing = true)
    (idle : s.busyOn q = false)
    (close : (s.wk.works.find? fun w => w.phase = 1 ∧ w.d.opcode = opCLOSE ∧ w.d.tid = q.tid ∧ w.d.sid = q.sid) = some w) :
    exec (.closeRun idx) s = .next ((s.runClose q).latch w.id stDONE 0 0) := by
  show execCloseRun idx s = _
  rw [execCloseRun, found]
  dsimp only
  rw [close]
  dsimp only
  rw [if_neg (by simp [up, closing, idle])]

/-- Unless the Brake has halted search, the entries of a closed sequence are removed and its index joins the free list (R241, R253). -/
theorem exec_closeEntriesRemoved {idx : Nat} {c : Nat × Nat} (up : s.working = true) (closed : s.sq.closed.find? (·.1 = idx) = some c)
    (search : s.flag SRCH.BRAKE_STATUS.HALTED = false) : exec (.closeEntriesRemoved idx) s =
      .next ((s.dropEntries c.2 (s.srch.entries.filter fun e => sidIdx e.sid = idx ∧ s.seqIdx idx = none)).setSq
        fun x => { x with closed := x.closed.filter (·.1 ≠ idx), freed := x.freed ++ [idx] }) := by
  show execCloseEntriesRemoved idx s = _
  rw [execCloseEntriesRemoved, closed]
  dsimp only
  rw [if_neg (by simp [up, search])]

/-! ### SEQ_FORK -/

/-- A SEQ_FORK that fails a check ends NOT_FOUND with that check's DETAIL; one that passes begins, its blocks counted (R148). -/
theorem exec_seqFork_admits (h : s.Admits opFORK d w e a) : exec (.seqFork d) s =
    .next (if e.forkFail w.id w.d ≠ 0 then e.latch w.id stNOTFOUND (e.forkFail w.id w.d) 0
      else e.updWork w.id fun w => { w with aux := .fork (sidIdx (w.d.b 32 4)) [] (e.forkedBlocks w.d) false 0 }) := by
  show Host.Outcome.next (s.rowAdmit opFORK d fun s id => s.admitFork id) = _
  unfold State.admitFork
  rw [rowAdmit_admits h, h.desc]

/-- Settles O30: each descriptor by its admission, the close by `runClose` and what that leaves of its sequence. -/
theorem sequenceDescriptors : Obligations.SequenceDescriptors := by
  intro s e d w a
  refine ⟨exec_nop_admits, exec_fence_admits, fun h => ⟨fun idx base index window passes => ?opened, exec_seqOpen_denied h⟩,
    fun h q => exec_seqClose_admits h, fun h => ⟨fun fails => ?forkFails, fun passes => ?forkBegins⟩,
    fun idx q up found closing idle close => exec_closeRun up found closing idle close,
    fun u q found => ⟨runClose_seqs u q, runClose_genOf u q, runClose_leaves found⟩,
    fun idx c up closed search => ⟨_, exec_closeEntriesRemoved up closed search, rfl⟩⟩
  case opened =>
    exact ⟨e.openedSeq w.d idx base, rfl, rfl, rfl, rfl, rfl, rfl, rfl, rfl, rfl, exec_seqOpen_admits h index window passes rfl⟩
  case forkFails => rw [exec_seqFork_admits h, if_pos fails]
  case forkBegins => rw [exec_seqFork_admits h, if_neg fun fails => fails passes]

end Sys2Proof.Machine
end

section
/-! Registers of one GO bit in phase RELEASED, and the words of the tables (R153 to R157, R164, R222, R476, Tables 7-5, 7-7 and 7-9). -/

namespace Sys2Proof.Machine

variable {s : State}

/-! ### Registers of one GO bit -/

/-- The row of a register whose only field is a W1S bit at its low end. -/
abbrev goRow (off : Nat) (sel : Option Nat) : RegRow := ⟨off, 1, sel, [⟨0, 1, .w1s, 0⟩]⟩

/-- The write of a GO bit that nothing refuses acts on the index selected, then makes its audit entry (R107, R485). -/
theorem ControlReg.go_takes {off i : Nat} {sel : Option Nat} (c : ControlReg off (goRow off sel)) (canon : s.canonical = true)
    (wr : s.writable = true) (phase : s.phaseOk off ⟨0, 1, .w1s, 0⟩ = true) (hi : s.selInst (goRow off sel) = i) (h : Handler)
    (plain : h.endsPlain) (chk : h.chk s i (s.reg off i) 1#32 = false) {t : State} (act : h.act s i 1#32 = t) :
    bar0Bit h ⟨off, 0, 1⟩ s = s.recorded t off i 1#32 := by
  have fields : (goRow off sel).fieldBits 1#32 = 1#32 := rfl
  have phases : ∀ f ∈ (goRow off sel).fields, s.phaseOk off f = true := List.forall_mem_singleton.mpr phase
  exact (bit_eq (f := ⟨off, 0, 1⟩) c.row c.pulses).trans (c.takes wr phases hi canon h plain fields chk act)

theorem rebuildCtrl_control : ControlReg XLAT.REBUILD_CTRL.off (goRow XLAT.REBUILD_CTRL.off (some XLAT.TENANT_SELECT.off)) :=
  ⟨by decide, by decide, fun _ _ => rfl, fun _ => rfl, by decide, by decide⟩

theorem walkCacheCtrl_control : ControlReg XLAT.WALK_CACHE_CTRL.off (goRow XLAT.WALK_CACHE_CTRL.off none) :=
  ⟨by decide, by decide, fun _ _ => rfl, fun _ => rfl, by decide, by decide⟩

theorem tierProbeCtrl_control : ControlReg TIER.PROBE_CTRL.off (goRow TIER.PROBE_CTRL.off none) :=
  ⟨by decide, by decide, fun _ _ => rfl, fun _ => rfl, by decide, by decide⟩

theorem seqProbeCtrl_control : ControlReg ERR.SEQ_PROBE_CTRL.off (goRow ERR.SEQ_PROBE_CTRL.off none) :=
  ⟨by decide, by decide, fun _ _ => rfl, fun _ => rfl, by decide, by decide⟩

/-- The four registers take their GO bit in RELEASED (Table 21-19, R164, R476). -/
theorem released_phaseOk (ph : s.phase = phRELEASED) {off : Nat}
    (go : off ∈ [XLAT.REBUILD_CTRL.off, XLAT.WALK_CACHE_CTRL.off, TIER.PROBE_CTRL.off, ERR.SEQ_PROBE_CTRL.off]) (f : FieldRow) :
    s.phaseOk off f = true := by
  unfold State.phaseOk
  rw [ph]
  simp only [List.mem_cons, List.not_mem_nil, or_false] at go
  rcases go with rfl | rfl | rfl | rfl <;> rfl

section released

variable (canon : s.canonical = true) (wr : s.writable = true) (ph : s.phase = phRELEASED)
include canon wr ph

theorem exec_rebuildStart {n : Nat} (sel : (s.reg XLAT.TENANT_SELECT.off).toNat = n) : exec .rebuildStart s =
    .next (s.recorded (hRebuildCtrl.act s n 1#32) XLAT.REBUILD_CTRL.off n 1#32) :=
  congrArg _ (rebuildCtrl_control.go_takes canon wr (released_phaseOk ph (by decide) _) sel hRebuildCtrl rfl rfl rfl)

/-- A flush empties the walk cache and the directory cache (R157). -/
theorem exec_walkCacheFlush : exec .walkCacheFlush s =
    .next (s.recorded (s.setSq fun x => { x with walk := [], dirs := [] }) XLAT.WALK_CACHE_CTRL.off 0 1#32) :=
  congrArg _ (walkCacheCtrl_control.go_takes canon wr (released_phaseOk ph (by decide) _) rfl hWalkCtrl rfl rfl rfl)

/-- A tier probe answers in the write's own step (R222). -/
theorem exec_tierProbe : exec .tierProbe s =
    .next (s.recorded (s.setReg TIER.PROBE_RESULT.off s.probeWord) TIER.PROBE_CTRL.off 0 1#32) :=
  congrArg _ (tierProbeCtrl_control.go_takes canon wr (released_phaseOk ph (by decide) _) rfl hTierProbe rfl rfl rfl)

/-- A sequence probe runs until the Stroke's end; one at a time (R476). -/
theorem exec_seqProbe (idle : s.err.probing = false) : exec .seqProbe s =
    .next (s.recorded { s.put ERR.SEQ_PROBE_RESULT.DONE 0 with
      err := { (s.put ERR.SEQ_PROBE_RESULT.DONE 0).err with probing := true } } ERR.SEQ_PROBE_CTRL.off 0 1#32) :=
  congrArg _ (seqProbeCtrl_control.go_takes canon wr (released_phaseOk ph (by decide) _) rfl hSeqProbe rfl
    (by simp [hSeqProbe, idle]) rfl)

end released

/-! ### Rebuild of a tenant's tables (R164, Table 7-9) -/

section rebuild

variable {n : Nat}

/-- The cause with which a rebuild of tenant `n` is refused, or 0 (Table 7-9). -/
def State.rebuildCause (s : State) (n : Nat) : Nat :=
  if s.tenState n = 0 then 1 else if s.sq.rebuild.isSome then 2 else if s.chunksFree < s.rebuildNeed n then 3 else 0

theorem rebuildCtrl_starts (cause : s.rebuildCause n = 0) : hRebuildCtrl.act s n 1#32 =
    ((s.put XLAT.REBUILD_STATUS.STATE 1 n).put XLAT.REBUILD_STATUS.CAUSE 0 n).setSq fun x =>
      { x with rebuild := some ⟨n, s.rebuildNeed n⟩ } :=
  if_pos cause

/-- A refused rebuild shows its cause; STATE stays with a rebuild of the same tenant that runs. -/
theorem rebuildCtrl_refuses {c : Nat} (cause : s.rebuildCause n = c) (ne : c ≠ 0) (other : s.sq.rebuild.any (·.tid = n) = false) :
    hRebuildCtrl.act s n 1#32 = (s.put XLAT.REBUILD_STATUS.CAUSE c n).put XLAT.REBUILD_STATUS.STATE 4 n := by
  subst cause
  have refused : hRebuildCtrl.act s n 1#32 =
      if s.sq.rebuild.any (·.tid = n) then s.put XLAT.REBUILD_STATUS.CAUSE (s.rebuildCause n) n
      else (s.put XLAT.REBUILD_STATUS.CAUSE (s.rebuildCause n) n).put XLAT.REBUILD_STATUS.STATE 4 n := if_neg ne
  rw [refused, if_neg (by simp [other])]

theorem rebuildCause_free (free : s.tenState n = 0) : s.rebuildCause n = 1 := if_pos free

theorem rebuildCause_running (used : s.tenState n ≠ 0) {r : Rebuild} (running : s.sq.rebuild = some r) : s.rebuildCause n = 2 := by
  simp only [State.rebuildCause, if_neg used, running, Option.isSome_some, if_true]

theorem rebuildCause_idle (used : s.tenState n ≠ 0) (idle : s.sq.rebuild = none) :
    s.rebuildCause n = if s.chunksFree < s.rebuildNeed n then 3 else 0 := by
  simp only [State.rebuildCause, if_neg used, idle, Option.isSome_none, Bool.false_eq_true, if_false]

theorem exec_rebuildCopyDone {r : Rebuild} (up : s.working = true) (running : s.sq.rebuild = some r)
    (copying : s.get XLAT.REBUILD_STATUS.STATE r.tid = 1) :
    exec .rebuildCopyDone s = .next (s.put XLAT.REBUILD_STATUS.STATE 2 r.tid) := by
  show execRebuildCopyDone s = _
  simp only [execRebuildCopyDone, running]
  rw [if_pos ⟨up, copying⟩]

end rebuild

/-! ### Upper entries and leaves (R153 to R155, Table 7-7) -/

theorem bits_eq_div (x lo n : Nat) : bits x lo n = x / 2 ^ lo % 2 ^ n := by rw [bits, Nat.shiftRight_eq_div_pow]

theorem b01_lt (b : Bool) : b01 b < 2 := by cases b <;> decide

theorem tableWords_length (s : State) (n level key : Nat) : (s.tableWords n level key).length = 512 := by
  rw [State.tableWords, List.length_map, List.length_range]

theorem upperEntry_absent {n level key : Nat} (absent : s.hasTable n level key = false) : s.upperEntry n level key = 0 :=
  if_neg (by simp [absent])

theorem upperEntry_present {n level key : Nat} (present : s.hasTable n level key = true) :
    s.upperEntry n level key = 1 + Config.tableAddr n (s.rootOf n) level key % 2 ^ 39 * 2 ^ 12 :=
  if_pos present

theorem upperEntry_presentBit (s : State) (n level key : Nat) : bits (s.upperEntry n level key) 0 1 = b01 (s.hasTable n level key) := by
  cases held : s.hasTable n level key with
  | false => rw [upperEntry_absent held]; rfl
  | true =>
    rw [upperEntry_present held, bits_eq_div, b01, if_pos rfl]
    omega

theorem upperEntry_address {n level key : Nat} (present : s.hasTable n level key = true) :
    bits (s.upperEntry n level key) 12 39 = Config.tableAddr n (s.rootOf n) level key % 2 ^ 39 := by
  rw [upperEntry_present present, bits_eq_div]
  omega

theorem tier_lt (g : Page) : g.tier < 8 := by
  unfold Page.tier
  repeat' split
  all_goals decide

/-- The fields of a direct leaf (Table 7-7). -/
theorem leafWord_fields {g : Page} (pinned : Bool) (written : g.st ≠ 0) (small : sectorsOf g.hdr g.body < 32) :
    bits (g.leafWord pinned) 0 3 = g.tier ∧ bits (g.leafWord pinned) 3 5 = (if g.st = 6 then 0 else sectorsOf g.hdr g.body) ∧
      bits (g.leafWord pinned) 8 8 = g.gen % 256 ∧ bits (g.leafWord pinned) 16 1 = b01 (hdrProt g.hdr) ∧
      bits (g.leafWord pinned) 17 1 = b01 pinned ∧ bits (g.leafWord pinned) 24 40 = g.place % 2 ^ 40 := by
  have tier := tier_lt g
  have sectors : (if g.st = 6 then 0 else sectorsOf g.hdr g.body) < 32 := by split <;> omega
  have prot := b01_lt (hdrProt g.hdr)
  have pin := b01_lt pinned
  have latent := b01_lt (hdrLatent g.hdr)
  have raw := b01_lt (hdrRaw g.hdr)
  have size := b01_lt (hdrSizeRaw g.hdr)
  simp only [Page.leafWord, if_neg written, bits_eq_div]
  refine ⟨?_, ?_, ?_, ?_, ?_, ?_⟩ <;> omega

/-- The fields of a leaf that points to a share record (R155, Table 7-7). -/
theorem sharedWord_fields (g : Page) (pinned : Bool) :
    bits (g.sharedWord pinned) 0 3 = 3 ∧ bits (g.sharedWord pinned) 3 5 = 0 ∧ bits (g.sharedWord pinned) 8 8 = g.gen % 256 ∧
      bits (g.sharedWord pinned) 17 1 = b01 pinned ∧ bits (g.sharedWord pinned) 24 40 = Config.recordIndex g.pid % 2 ^ 40 := by
  have prot := b01_lt (hdrProt g.hdr)
  have pin := b01_lt pinned
  have latent := b01_lt (hdrLatent g.hdr)
  have raw := b01_lt (hdrRaw g.hdr)
  have size := b01_lt (hdrSizeRaw g.hdr)
  simp only [Page.sharedWord, bits_eq_div]
  refine ⟨?_, ?_, ?_, ?_, ?_⟩ <;> omega

section leaf

variable {n p : Nat} {q : Seq}
  (found : (s.sq.seqs.find? fun x => x.tid = n ∧ x.base ≤ q.base + p ∧ q.base + p < x.base + x.pages) = some q)
include found

theorem leafWord_noLeaf (noLeaf : s.leafAt q.idx p = none) : s.leafWord n (q.base + p) = 0 := by
  simp only [State.leafWord, found, Nat.add_sub_cancel_left, noLeaf]

theorem leafWord_leaf {l : Leaf} {g : Page} (leaf : s.leafAt q.idx p = some l) (page : s.pageBy l.pid = some g) :
    s.leafWord n (q.base + p) = if g.shared then g.sharedWord l.pinned else g.leafWord l.pinned := by
  simp only [State.leafWord, found, Nat.add_sub_cancel_left, leaf, page]
  rfl

end leaf

/-! ### Share records (R156) -/

theorem leNat_leBytes (n : Nat) : ∀ x, leNat (leBytes n x) = x % 2 ^ (8 * n) := by
  induction n with
  | zero => intro x; rw [Nat.mul_zero, Nat.pow_zero, Nat.mod_one]; rfl
  | succ n ih =>
    intro x
    have width : 2 ^ (8 * (n + 1)) = 256 * 2 ^ (8 * n) := by rw [Nat.mul_succ, Nat.pow_add, Nat.mul_comm]
    rw [leBytes, leNat, ih, BitVec.toNat_ofNat, width, Nat.mod_mul]

/-- A number stored between other bytes reads back, cut to its width (R4). -/
theorem leAt_leBytes {pre post : List Byte} {i : Nat} (len : pre.length = i) (n x : Nat) :
    leAt (pre ++ leBytes n x ++ post) i n = x % 2 ^ (8 * n) := by
  rw [leAt, List.append_assoc, List.drop_left' len, List.take_left' (leBytes_length n x), leNat_leBytes]

theorem shareRecord_length (s : State) (g : Page) : (s.shareRecord g).length = 16 := by
  simp only [State.shareRecord, List.length_append, leBytes_length, zeros, List.length_replicate]

theorem shareRecord_refs (s : State) (g : Page) : leAt (s.shareRecord g) 8 4 = s.refsOf g.pid % 2 ^ 32 := by
  rw [State.shareRecord, List.append_assoc _ (leBytes 2 _), leAt_leBytes (leBytes_length 8 _)]

theorem shareRecord_pins (s : State) (g : Page) : leAt (s.shareRecord g) 12 2 = s.pinsOf g.pid % 2 ^ 16 := by
  rw [State.shareRecord, leAt_leBytes (by rw [List.length_append, leBytes_length, leBytes_length])]

/-- Settles O33: the commands as writes of GO bits, a rebuild by its cause; the words by their fields. -/
theorem translationCommands : Obligations.TranslationCommands := by
  intro s n canon wr ph
  refine ⟨fun sel => ?rebuild, fun r => exec_rebuildCopyDone, exec_walkCacheFlush canon wr ph, exec_tierProbe canon wr ph,
    exec_seqProbe canon wr ph, fun level key => ⟨tableWords_length s n level key, upperEntry_presentBit s n level key,
      upperEntry_absent, upperEntry_address⟩, fun q p _ found => ⟨leafWord_noLeaf found, ?direct, ?shared⟩,
    fun g => ⟨shareRecord_length s g, shareRecord_refs s g, shareRecord_pins s g⟩⟩
  case rebuild =>
    rw [exec_rebuildStart canon wr ph sel]
    refine ⟨fun used idle room => ?_, fun free idle => ?_, fun r used running other => ?_, fun used idle small => ?_⟩
    · rw [rebuildCtrl_starts (by rw [rebuildCause_idle used idle, if_neg (by omega)])]
    · rw [rebuildCtrl_refuses (rebuildCause_free free) (by decide) (by rw [idle]; rfl)]
    · rw [rebuildCtrl_refuses (rebuildCause_running used running) (by decide) (by simp [running, other])]
    · rw [rebuildCtrl_refuses (c := 3) (by rw [rebuildCause_idle used idle, if_pos small]) (by decide) (by rw [idle]; rfl)]
  case direct =>
    intro l g w leaf page unshared written small hw
    rw [leafWord_leaf found leaf page, if_neg (by simp [unshared])] at hw
    exact hw ▸ leafWord_fields l.pinned written small
  case shared =>
    intro l g w leaf page shared hw
    rw [leafWord_leaf found leaf page, if_pos shared] at hw
    exact hw ▸ sharedWord_fields g l.pinned

end Sys2Proof.Machine
end

section
/-! The end of a page-in's reads (R158, R194, R217 to R219). -/

namespace Sys2Proof.Machine

variable {s : State}

/-- A NAND operation leaves the list of those under way. -/
def State.opEnded (s : State) (op : Nat) : State := s.setTier fun t => { t with ops := t.ops.filter (·.id ≠ op) }

/-- One NAND page of a page-in has been read. -/
def State.nandRead (s : State) (pid : Nat) : State := (s.updPage pid fun g => { g with done := g.done + 1 }).finishRead pid

/-- A page-in whose read gave nothing: its page is lost where it has not been lost before. -/
def State.readGone (s : State) (pid : Nat) : State := if (s.pageBy pid).any (·.st = 5) then s.losePage pid else s

/-- The reads of a plan with the fifteen of one NAND page's reconstruction behind them (R218). -/
def State.readAgain (s : State) (o : NandOp) : State :=
  s.setTier fun t => { t with plans := kvSet t.plans o.pid ((kvFind s.tier.plans o.pid).getD [] ++ List.replicate 15 (o.nand, true)) }

theorem exec_nandReadDone {op : Nat} {o : NandOp} (up : s.working = true) (found : s.tier.ops.find? (·.id = op) = some o)
    (kind : o.kind = 0) (res : NandRes) : exec (.nandReadDone op res) s = .next ((s.opEnded op).readDone o res) := by
  show execNandReadDone op res s = _
  simp only [execNandReadDone, found, up, kind]
  rfl

/-- While its page is PAGING_IN, a read ends by its result, sub-streams that do not decode marked first (R194). -/
theorem readDone_pagingIn {o : NandOp} (pagingIn : (s.pageBy o.pid).any (·.st = 5) = true) (res : NandRes) : s.readDone o res =
    (if res = .badCode then s.markBad o.pid else s).readEnds o res (·.nandRead o.pid) (·.readGone o.pid) :=
  if_neg (by simp [pagingIn])

theorem readGone_pagingIn {pid : Nat} (pagingIn : (s.pageBy pid).any (·.st = 5) = true) : s.readGone pid = s.losePage pid := if_pos pagingIn

section ends

variable {o : NandOp} {ended lose : State → State}

/-- A NAND page lost before gives no data, whatever its read answers (R219). -/
theorem readEnds_lost (lost : s.flash.lost.contains o.nand = true) (res : NandRes) : s.readEnds o res ended lose = lose s := if_pos lost

theorem readEnds_kept (kept : s.flash.lost.contains o.nand = false) :
    s.readEnds o .ok ended lose = ended (if o.recon ∧ o.sub = 14 then s.fault clsCORRECTED 0 0 else s) ∧
      s.readEnds o .corrected ended lose = ended (s.fault clsCORRECTED 0 0) ∧
      s.readEnds o .uncorrectable ended lose = s.retryRead o ended lose ∧
      s.readEnds o .badCode ended lose = ended s ∧ s.readEnds o .badPage ended lose = lose s := by
  have present : ¬ s.flash.lost.contains o.nand = true := ne_true_of_eq_false kept
  exact ⟨if_neg present, if_neg present, if_neg present, if_neg present, if_neg present⟩

/-- A first read is repeated by its stripe's fifteen others where the stripe has its parity (R218). -/
theorem retryRead_again (first : o.recon = false) (striped : s.striped o.nand = true) : s.retryRead o ended lose = ended (s.readAgain o) :=
  if_neg (by simp [first, striped])

/-- A read of a reconstruction, or of a stripe without parity, has no second way: its NAND page is lost with those on dead dies (R219). -/
theorem retryRead_gone (last : o.recon = true ∨ s.striped o.nand = false) :
    s.retryRead o ended lose = lose (s.loseNands (o.nand :: s.deadNands o.nand)) :=
  if_pos (by simpa using last)

end ends

/-! ### The last read of a page -/

theorem pageBy_updPage {pid : Nat} {f : Page → Page} (keeps : ∀ g, (f g).pid = g.pid) :
    (s.updPage pid f).pageBy pid = (s.pageBy pid).map f := by
  have pages : (s.updPage pid f).sq.pages = s.sq.pages.map fun g => if g.pid = pid then f g else g := by
    unfold State.updPage State.setSq
    dsimp only
    split <;> rfl
  have same (g : Page) : decide ((if g.pid = pid then f g else g).pid = pid) = decide (g.pid = pid) := by split <;> simp only [*]
  rw [State.pageBy, State.pageBy, pages, List.find?_map]
  simp only [Function.comp_def, same]
  cases hit : s.sq.pages.find? (·.pid = pid) with
  | none => rfl
  | some g =>
    have own : g.pid = pid := by simpa using List.find?_some hit
    simp [own]

/-- A page read in: CLEAN, with the card's priority and no hook's score, its LAST the Stroke in which its last read started (R190, R203). -/
def Page.readIn (g : Page) (prio : Nat) : Page := { g with st := 3, prio := prio, last := g.readAt, score := none }

/-- The page read in, and its plan done. -/
def State.pageReadIn (s : State) (pid : Nat) : State :=
  (s.updPage pid (·.readIn (s.get TIER.SCORE_CTRL.DEFAULT_PRIORITY))).setTier fun t => { t with plans := kvDel t.plans pid }

/-- A page with its built-in score as the state gives it (R203). -/
def State.evaluated (s : State) (g : Page) : Page := { g with eval := s.builtinScore g }

theorem pageBy_pageReadIn (s : State) (pid : Nat) :
    (s.pageReadIn pid).pageBy pid = (s.pageBy pid).map (·.readIn (s.get TIER.SCORE_CTRL.DEFAULT_PRIORITY)) :=
  pageBy_updPage fun _ => rfl

section last

variable {pid : Nat} {g : Page} (page : s.pageBy pid = some g) (pagingIn : g.st = 5) (ended : g.started ≤ g.done) (left : s.readsLeft g = 0)
include page pagingIn ended left

/-- A page whose header fails its checks, or shows another GEN than its leaf, is lost (R158, log 59). -/
theorem finishRead_lost (bad : hdrValid g.hdr = false ∨ hdrGEN g.hdr % 256 ≠ g.gen) : s.finishRead pid = s.losePage pid := by
  simp only [State.finishRead, page]
  rw [if_neg (by omega), if_pos (by simpa using bad)]

/-- A page whose header is its leaf's is read in (R158). -/
theorem finishRead_clean (valid : hdrValid g.hdr = true) (own : hdrGEN g.hdr % 256 = g.gen) :
    s.finishRead pid = (s.pageReadIn pid).updPage pid (s.pageReadIn pid).evaluated := by
  simp only [State.finishRead, page]
  rw [if_neg (by omega), if_neg (by simp [valid, own])]
  rfl

theorem pageBy_finishRead_clean (valid : hdrValid g.hdr = true) (own : hdrGEN g.hdr % 256 = g.gen) : (s.finishRead pid).pageBy pid =
    some ((s.pageReadIn pid).evaluated (g.readIn (s.get TIER.SCORE_CTRL.DEFAULT_PRIORITY))) := by
  rw [finishRead_clean page pagingIn ended left valid own, pageBy_updPage (f := (s.pageReadIn pid).evaluated) fun _ => rfl, pageBy_pageReadIn, page]
  rfl

end last

end Sys2Proof.Machine
end

section
/-! Flash events: programs, die rebuilds, eviction, and the logs (R192, R193, R205, R207, R212, R215, R217). -/

namespace Sys2Proof.Machine

variable {s : State}

/-! ### Programs (R193, R194, R217) -/

/-- A placement whose last NAND page was programmed is complete: a page, a pool page or a mirrored page; a stale one has nothing to show. -/
def State.placementEnds (s : State) (p : Placed) : State :=
  if p.stale then s
  else if p.pid < 2 ^ 63 then s.pageProgrammed p.pid p.first
  else if p.pid < 2 ^ 64 then s.swapWritten p.pid p.first
  else s.mirrorWritten (p.pid - 2 ^ 64) p.index p.first p.count

theorem placementEnds_page {p : Placed} (current : p.stale = false) (page : p.pid < 2 ^ 63) :
    s.placementEnds p = s.pageProgrammed p.pid p.first := by
  rw [State.placementEnds, if_neg (by simp [current]), if_pos page]

section program

variable {op : Nat} {o : NandOp} (up : s.working = true) (found : s.tier.ops.find? (·.id = op) = some o) (kind : o.kind = 1)
include up found kind

/-- A program that fails declares its die dead and waits to be made again (R217). -/
theorem exec_programDone_failed : exec (.programDone op false) s =
    .next (((s.opEnded op).dieDead (nandGroupOf o.nand) (nandDieOf o.nand)).readyProgram o.index o.nand) := by
  show execProgramDone op false s = _
  simp only [execProgramDone, found, up, kind]
  rfl

/-- A program that ends counts in its stripe, and completes the placements that it was the last of (R192, R193). -/
theorem exec_programDone_ok {v : State} (hv : v = (s.opEnded op).stripeTurn o.nand) : exec (.programDone op true) s =
    .next ((v.placedDone o.index o.nand).2.foldl State.placementEnds (v.placedDone o.index o.nand).1) := by
  subst hv
  show execProgramDone op true s = _
  simp only [execProgramDone, found, up, kind]
  rfl

end program

/-! ### Rebuild of a die (R217) -/

theorem exec_dieRebuildDone {g : Nat} {r : Nat × List Nat} (up : s.working = true) (group : g < 16)
    (running : kvFind s.tier.rebuild g = some r) (lost : List Nat) : exec (.dieRebuildDone g lost) s =
    .next (if r.2 = [] then (((s.loseNands lost).loseDefines).endRebuild g r.1).nextRebuild g else s) := by
  show execDieRebuildDone g lost s = _
  simp only [execDieRebuildDone, Nat.mod_eq_of_lt group, running, up]
  by_cases done : r.2 = [] <;> simp [done]

theorem nextRebuild_noDead {g : Nat} (noDead : s.tier.dead.find? (·.1 = g) = none) : s.nextRebuild g = s.setGroup g 0 := by
  simp only [State.nextRebuild, noDead]

theorem nextRebuild_dead {g : Nat} {d : Nat × Nat} (dead : s.tier.dead.find? (·.1 = g) = some d) : s.nextRebuild g =
    if s.get TIER.GROUP_STATUS.SPARES_LEFT g ≠ 0 then s.takeSpare g d.2 else s.setGroup g 2 := by
  simp only [State.nextRebuild, dead]

/-! ### The tier manager (R203, R205) -/

/-- The page that the tier manager takes: below DEMOTE_LEVEL the first candidate that it can drop or demote, below DROP_LEVEL the first CLEAN
one (R205). -/
def State.evicted (s : State) : Option Page :=
  if decide (s.framesFree < s.lget TIER.DEMOTE_LEVEL.FRAMES) then s.candidates.find? (fun g => g.st == 3 || !s.flashFull)
  else if s.framesFree < s.lget TIER.DROP_LEVEL.FRAMES then s.candidates.find? (·.st = 3) else none

theorem evicted_demoting (below : s.framesFree < s.lget TIER.DEMOTE_LEVEL.FRAMES) :
    s.evicted = s.candidates.find? fun g => g.st == 3 || !s.flashFull :=
  if_pos (decide_eq_true below)

theorem evicted_dropping (above : s.lget TIER.DEMOTE_LEVEL.FRAMES ≤ s.framesFree) (below : s.framesFree < s.lget TIER.DROP_LEVEL.FRAMES) :
    s.evicted = s.candidates.find? (·.st = 3) := by
  rw [State.evicted, if_neg (by simpa using above), if_pos below]

section working

variable (up : s.working = true)
include up

/-- A CLEAN page taken is dropped, any other begins its demotion (R205). -/
theorem exec_eviction {g : Page} (taken : s.evicted = some g) : exec .eviction s =
    .next (if g.st = 3 then (s.dropPage g.pid).add64 TIER.DROPS_LO.off
      else (s.setTier fun t => { t with demote := t.demote ++ [g.pid] }).startWriting g.pid) := by
  show execEviction s = _
  unfold State.evicted at taken
  unfold execEviction
  dsimp only
  rw [if_neg (by simp [up]), taken]
  dsimp only
  split <;> rfl

theorem exec_scoreReevaluate : exec .scoreReevaluate s = .next s.reevaluate.sweepBurst := congrArg _ (if_pos up)

/-! ### What is closed, written and compacted when due (R193, R212, R215) -/

theorem exec_openNandPageTimeout {index : Nat} (due : s.openDue index = true) :
    exec (.openNandPageTimeout index) s = .next (s.closeOpen index) :=
  congrArg _ (if_pos (by rw [up, due]; rfl))

theorem exec_logFlush {index : Nat} (due : s.flushDue index = true) : exec (.logFlush index) s = .next (s.flushLog index) :=
  congrArg _ (if_pos (by rw [up, due]; rfl))

theorem exec_compaction {index : Nat} {c : Chain} (due : s.compactDue index = true) (chain : s.chainAt index = some c) :
    exec (.compaction index) s =
      .next ((s.firstWrite.rewriteChain index (liveRecs s.flash.media c.recs)).anchorUpdate.reclaim) := by
  show execCompaction index s = _
  rw [execCompaction, if_neg (by simp [up, due])]
  simp only [chain]

end working

/-- Settles O35: a read by its result, a page's last read by its header, and every other event by its own lemma. -/
theorem flashEvents : Obligations.FlashEvents := by
  intro s up
  refine ⟨fun op o g u found kind hu page st => ?reads, fun pid g page st ended left =>
      ⟨finishRead_lost page st ended left, fun valid own =>
        ⟨_, pageBy_finishRead_clean page st ended left valid own, rfl, rfl, rfl, rfl, rfl⟩⟩, fun op o u found kind hu => ?programs,
    fun g r lost group running => ?rebuild, fun g => ⟨nextRebuild_noDead, fun d dead => ?spare⟩, fun index => exec_openNandPageTimeout up,
    fun g first above below clean => ?drop, fun g first below dirty => ?demote, exec_scoreReevaluate up, fun index => exec_logFlush up,
    fun index c => exec_compaction up⟩
  case reads =>
    have hu : u = s.opEnded op := hu
    have pagingIn : (u.pageBy o.pid).any (·.st = 5) = true := by simp [page, st]
    have ends (res : NandRes) : exec (.nandReadDone op res) s =
        .next ((if res = .badCode then u.markBad o.pid else u).readEnds o res (·.nandRead o.pid) (·.readGone o.pid)) := by
      rw [exec_nandReadDone up found kind, ← hu, readDone_pagingIn pagingIn]
    refine ⟨fun lost res known => ?_, fun kept => ?_⟩
    · have lost : u.flash.lost.contains o.nand = true := hu ▸ lost
      have plain : res ≠ .badCode := by rintro rfl; simp at known
      rw [ends, if_neg plain, readEnds_lost lost, readGone_pagingIn pagingIn]
    · have kept : u.flash.lost.contains o.nand = false := hu ▸ kept
      obtain ⟨ok, corrected, uncorrectable, -, badPage⟩ :=
        readEnds_kept (ended := (·.nandRead o.pid)) (lose := (·.readGone o.pid)) kept
      obtain ⟨-, -, -, badCode, -⟩ := readEnds_kept (s := u.markBad o.pid) (ended := (·.nandRead o.pid)) (lose := (·.readGone o.pid)) kept
      simp only [ends, reduceCtorEq, if_false, if_true, ok, corrected, uncorrectable, badCode, badPage]
      refine ⟨fun first => ?_, fun recon last => ?_, rfl, fun left hleft first striped => ?_, fun v gone hv => ?_, rfl, ?_⟩
      · rw [if_neg (by rcases first with h | h <;> simp [h])]
        rfl
      · rw [if_pos ⟨recon, last⟩]
        rfl
      · rw [retryRead_again first striped, hleft]
        rfl
      · rw [retryRead_gone gone, hv]
        rfl
      · rw [readGone_pagingIn pagingIn]
  case programs =>
    have hu : u = s.opEnded op := hu
    subst hu
    refine ⟨exec_programDone_failed up found kind, fun v p hv only current page => ?_, fun v hv nothing => ?_⟩
    · rw [exec_programDone_ok up found kind hv, only, List.foldl_cons, List.foldl_nil, placementEnds_page current page]
    · rw [exec_programDone_ok up found kind hv, nothing, List.foldl_nil]
  case rebuild =>
    rw [exec_dieRebuildDone up group running lost]
    exact ⟨fun more => by rw [if_neg more], fun done => by rw [if_pos done]⟩
  case drop => rw [exec_eviction up ((evicted_dropping above below).trans first), if_pos clean]
  case demote => rw [exec_eviction up ((evicted_demoting below).trans first), if_neg dirty]
  case spare =>
    rw [nextRebuild_dead dead]
    exact ⟨fun left => by rw [if_pos left], fun out => by rw [if_neg fun left => left out]⟩

end Sys2Proof.Machine
end

section
/-! The descriptors over a range of pages at their admission (R182, R196, R197, R208, R221, R358). -/

namespace Sys2Proof.Machine

open Sys2Proof.Laws.Rows

variable {s e : State} {d : Desc} {w a : Work}

/-! ### APPEND -/

/-- An APPEND keeps the bucket of its TOKENS, and is active when no other writer of its sequence is (R182, R185). -/
theorem exec_append_admits (h : s.Admits opAPPEND d w e a) : exec (.append d) s =
    .next (e.updWork w.id fun w => { w with aux := .append (e.bucketOf (w.d.b 32 4)) }).activateWriters :=
  congrArg _ (rowAdmit_admits h fun id t _ =>
    (t.updWork id fun w => { w with aux := .append (t.bucketOf (w.d.b 32 4)) }).activateWriters)

/-! ### READ_PAGES, PIN, UNPIN and SCORE_UPDATE -/

/-- A range opcode is held against its sequence's layers, then planned (R196, R200). -/
theorem rowAdmit_range {op : Nat} (h : s.Admits op d w e a) : s.rowAdmit op d (fun s id => s.admitRange id) =
    if e.layerRange w.d then e.latch w.id stPARTIAL dtLAYER_RANGE 0 else e.plan a true := by
  unfold State.admitRange
  rw [rowAdmit_admits h, h.desc]

/-- The four range opcodes are admitted alike. -/
theorem exec_range_admits {c : Instr}
    (h : (c = .readPages d ∧ s.Admits opREAD d w e a) ∨ (c = .pin d ∧ s.Admits opPIN d w e a) ∨
      (c = .unpin d ∧ s.Admits opUNPIN d w e a) ∨ (c = .scoreUpdate d ∧ s.Admits opSCORE d w e a)) :
    exec c s = .next (if e.layerRange w.d then e.latch w.id stPARTIAL dtLAYER_RANGE 0 else e.plan a true) := by
  obtain ⟨rfl, h⟩ | ⟨rfl, h⟩ | ⟨rfl, h⟩ | ⟨rfl, h⟩ := h <;> exact congrArg _ (rowAdmit_range h)

/-! ### DELIVER -/

/-- A DELIVER that its QP, key or remote range does not carry is DENIED before the common checks (R127, R358). -/
theorem exec_deliver_denied (up : s.working = true) (ph : s.phase = phRELEASED) (found : s.findFetched (asPosted opDELIVER d) = some w)
    (op : w.d.opcode = opDELIVER) (work : s.work w.id = some w) (may : s.mayAdmit w = true) (rights : rightsOk w.d = true)
    (fails : s.deliverFail w.d ≠ 0) : exec (.deliver d) s = .next ((s.enter w.id).latch w.id stDENIED (s.deliverFail w.d) 0) := by
  show Host.Outcome.next (s.rowAdmit opDELIVER d fun s id => s.admitDeliver id) = _
  rw [rowAdmit_fetched up ph found, if_pos ⟨op, may⟩, State.admitDeliver, work]
  dsimp only
  rw [if_pos ⟨phase_of_mayAdmit may, rights, fails⟩]

/-- A DELIVER that passes R358 is held against its sequence's layers, its stride and its QP's state, in this order, then planned. That
these checks come in this order is deduced (log 52). -/
theorem exec_deliver_admits (h : s.Admits opDELIVER d w e a) (passes : s.deliverFail w.d = 0) : exec (.deliver d) s =
    .next (if e.layerRange w.d then e.latch w.id stPARTIAL dtLAYER_RANGE 0
      else if w.d.b 52 4 < e.deliverBytes w.d then e.latch w.id stPARTIAL dtSTRIDE 0
      else if e.qpState (dlQp w.d) ≠ qpRTS ∧ e.qpState (dlQp w.d) ≠ qpSQD then e.latch w.id stPARTIAL dtQP_STATE 0
      else (e.updWork w.id fun w =>
        { w with aux := .deliver (e.get RDMA.QP_FLUSH.FLUSH_PAGES (dlQp w.d)) 0 0 }).plan a true) := by
  have h' := h
  obtain ⟨-, -, -, -, work, -⟩ := h'
  show Host.Outcome.next (s.rowAdmit opDELIVER d fun s id => s.admitDeliver id) = _
  rw [admits_row s opDELIVER d w a e h, State.admitDeliver, work]
  dsimp only
  rw [if_neg (by simp [passes]), admits_with s opDELIVER d w a e h, h.desc]

/-- Settles O31: an APPEND by its turn, the range opcodes by their layers, a DELIVER by the first check that fails. -/
theorem pageDescriptors : Obligations.PageDescriptors := by
  intro s e d w a
  refine ⟨exec_append_admits, fun c h => ⟨fun past => ?past, fun inside => ?planned⟩, exec_deliver_denied,
    fun h passes => ⟨fun past => ?layers, fun inside short => ?stride, fun inside wide notRts notSqd => ?state,
      fun inside wide ready => ?begins⟩⟩
  case past => rw [exec_range_admits h, if_pos past]
  case planned => rw [exec_range_admits h, if_neg (by simp [inside])]
  all_goals rw [exec_deliver_admits h passes]
  case layers => rw [if_pos past]
  case stride => rw [if_neg (by simp [inside]), if_pos short]
  case state => rw [if_neg (by simp [inside]), if_neg (Nat.not_lt.2 wide), if_pos ⟨notRts, notSqd⟩]
  case begins =>
    rw [if_neg (by simp [inside]), if_neg (Nat.not_lt.2 wide), if_neg fun idle => ready.elim idle.1 idle.2]

end Sys2Proof.Machine
end

section
/-! Classes (R167, R168) and the append buckets (R186): the writes of CLASS_CTRL, of a bucket's edge and of the lanes. -/

namespace Sys2Proof.Machine

variable {s : State} {k : Nat} {val : Word}

/-- The registers of classes and buckets take writes in CONFIGURE and RELEASED (Table 21-19). -/
theorem cmpr_phaseOk (ph : s.serving = true) {off : Nat}
    (cmpr : off ∈ [CMPR.CLASS_CTRL.off, CMPR.APPEND_BUCKETS.off, CMPR.APPEND_LANES.off]) (f : FieldRow) : s.phaseOk off f = true := by
  simp only [List.mem_cons, List.not_mem_nil, or_false] at cmpr
  unfold State.phaseOk
  rcases serving_cases ph with h | h <;> rw [h] <;> rcases cmpr with rfl | rfl | rfl <;> rfl

/-! ### DEFINE and UNDEFINE -/

abbrev classCtrlRow : RegRow := ⟨CMPR.CLASS_CTRL.off, 1, some CMPR.CLASS_SELECT.off, [⟨0, 1, .w1s, 0⟩, ⟨1, 1, .w1s, 0⟩]⟩

theorem classCtrl_control : ControlReg CMPR.CLASS_CTRL.off classCtrlRow :=
  ⟨by decide, by decide, fun _ _ => rfl, fun _ => rfl, by decide, by decide⟩

theorem hClassCtrl_chk (s : State) (k : Nat) (old v : Word) : hClassCtrl.chk s k old v =
    ((fieldGet v 0 1 == 1 && s.classDefined k) || (fieldGet v 1 1 == 1 && s.classUsers k != 0)) := rfl

/-- DEFINE is refused for a class that is defined (R188). -/
theorem hClassCtrl_chk_define (s : State) (k : Nat) (old : Word) : hClassCtrl.chk s k old 1#32 = s.classDefined k := by
  rw [hClassCtrl_chk, show fieldGet (1#32 : Word) 0 1 = 1 by decide, show fieldGet (1#32 : Word) 1 1 = 0 by decide]
  exact Bool.or_false _

/-- UNDEFINE is refused for a class that a sequence uses (R168). -/
theorem hClassCtrl_chk_undefine (s : State) (k : Nat) (old : Word) : hClassCtrl.chk s k old 2#32 = (s.classUsers k != 0) := by
  rw [hClassCtrl_chk, show fieldGet (2#32 : Word) 0 1 = 0 by decide, show fieldGet (2#32 : Word) 1 1 = 1 by decide]
  rfl

/-- The selected class is no longer defined, and its page size, draw and cause read 0 (R168). -/
def State.undefine (s : State) (k : Nat) : State :=
  (((s.put CMPR.CLASS_STATUS.DEFINED 0 k).put CMPR.CLASS_STATUS.PAYLOAD_BYTES 0 k).put CMPR.CLASS_STATUS.ENGINE_DRAW 0 k).put
    CMPR.CLASS_STATUS.REFUSE_CAUSE 0 k

theorem hClassCtrl_act (s : State) (k : Nat) (v : Word) : hClassCtrl.act s k v =
    if fieldGet v 0 1 = 1 then s.define k else if fieldGet v 1 1 = 1 ∧ s.classDefined k then s.undefine k else s := rfl

theorem hClassCtrl_act_define (s : State) (k : Nat) : hClassCtrl.act s k 1#32 = s.define k := by
  rw [hClassCtrl_act, if_pos (by decide)]

theorem hClassCtrl_act_undefine (defined : s.classDefined k = true) : hClassCtrl.act s k 2#32 = s.undefine k := by
  rw [hClassCtrl_act, if_neg (by decide), if_pos ⟨by decide, defined⟩]

/-- DEFINE is the register's write and nothing more. -/
theorem exec_defineCmd (s : State) : exec .defineCmd s = .next (bar0 hClassCtrl CMPR.CLASS_CTRL.off 1#32 s) :=
  congrArg Host.Outcome.next (if_neg fun h => absurd h.2.2.1 (by decide))

/-- UNDEFINE is the register's write, and shows cause 5 where a sequence uses the class (R168, Table 8-8). -/
theorem exec_undefine (wr : s.writable = true) (ph : s.serving = true) (sel : s.get CMPR.CLASS_SELECT.CLASS = k) :
    exec .undefine s = .next (if s.classUsers k ≠ 0
      then (bar0 hClassCtrl CMPR.CLASS_CTRL.off 2#32 s).put CMPR.CLASS_STATUS.REFUSE_CAUSE 5 k
      else bar0 hClassCtrl CMPR.CLASS_CTRL.off 2#32 s) := by
  subst sel
  have bit : fieldGet (2#32 : Word) 1 1 = 1 := by decide
  show Host.Outcome.next (s.writeClassCtrl 2#32) = _
  by_cases used : s.classUsers (s.get CMPR.CLASS_SELECT.CLASS) ≠ 0
  · rw [if_pos used]
    exact congrArg Host.Outcome.next (if_pos ⟨writable_pf0 wr, serving_cases ph, bit, used⟩)
  · rw [if_neg used]
    exact congrArg Host.Outcome.next (if_neg fun ⟨_, _, _, users⟩ => used users)

section command

variable (wr : s.writable = true) (ph : s.serving = true) (sel : (s.reg CMPR.CLASS_SELECT.off).toNat = k)
include wr ph sel

theorem exec_defineCmd_takes (canon : s.canonical = true) (free : s.classDefined k = false) :
    exec .defineCmd s = .next (s.recorded (s.define k) CMPR.CLASS_CTRL.off k 1#32) := by
  rw [exec_defineCmd, classCtrl_control.takes wr (fun f _ => cmpr_phaseOk ph (by decide) f) sel canon hClassCtrl rfl (v := 1#32) (by decide)
    ((hClassCtrl_chk_define s k _).trans free) (hClassCtrl_act_define s k)]

theorem exec_defineCmd_refused (defined : s.classDefined k = true) :
    exec .defineCmd s = .next (s.illegal 0 causeState CMPR.CLASS_CTRL.off 1) := by
  rw [exec_defineCmd, classCtrl_control.refuses wr (fun f _ => cmpr_phaseOk ph (by decide) f) sel hClassCtrl (v := 1#32) (by decide)
    ((hClassCtrl_chk_define s k _).trans defined)]
  rfl

variable (cls : s.get CMPR.CLASS_SELECT.CLASS = k)
include cls

theorem exec_undefine_takes (canon : s.canonical = true) (defined : s.classDefined k = true) (idle : s.classUsers k = 0) :
    exec .undefine s = .next (s.recorded (s.undefine k) CMPR.CLASS_CTRL.off k 2#32) := by
  rw [exec_undefine wr ph cls, if_neg fun ne => ne idle, classCtrl_control.takes wr (fun f _ => cmpr_phaseOk ph (by decide) f) sel canon
    hClassCtrl rfl (v := 2#32) (by decide) ((hClassCtrl_chk_undefine s k _).trans (by simp [idle])) (hClassCtrl_act_undefine defined)]

theorem exec_undefine_refused (busy : s.classUsers k ≠ 0) : exec .undefine s =
    .next ((s.illegal 0 causeState CMPR.CLASS_CTRL.off 2).put CMPR.CLASS_STATUS.REFUSE_CAUSE 5 k) := by
  rw [exec_undefine wr ph cls, if_pos busy, classCtrl_control.refuses wr (fun f _ => cmpr_phaseOk ph (by decide) f) sel hClassCtrl
    (v := 2#32) (by decide) ((hClassCtrl_chk_undefine s k _).trans (bne_iff_ne.2 busy))]
  rfl

end command

/-! ### What DEFINE leaves -/

/-- A class that breaks a condition of R167 shows that condition's cause, and nothing else changes. -/
theorem define_refused (cause : s.defineCause k ≠ 0) : s.define k = s.put CMPR.CLASS_STATUS.REFUSE_CAUSE (s.defineCause k) k := if_neg cause

/-- The fields of CLASS_STATUS that a class is recorded in (Table 8-8). -/
def State.classRecord (s : State) (k : Nat) : List (Fld × Nat) :=
  let c := s.classDef k
  [(CMPR.CLASS_STATUS.DEFINED, 1), (CMPR.CLASS_STATUS.REFUSE_CAUSE, 0),
    (CMPR.CLASS_STATUS.PAYLOAD_BYTES, c.payload (fmtOf (if c.format = 0x80 then c.fallback else c.format) c.groupLog2)),
    (CMPR.CLASS_STATUS.ENGINE_DRAW, c.engineDraw)]

theorem define_recorded (passes : s.defineCause k = 0) : s.define k = s.putAll k (s.classRecord k) := if_pos passes

/-- The four fields of CLASS_STATUS lie side by side. -/
theorem classRecord_apart (s : State) (k : Nat) : ((s.classRecord k).map Prod.fst).Pairwise fun a b => Apart b k a k := by
  simp [State.classRecord, Apart]

/-- A class that breaks none stands defined, without a cause. -/
theorem define_status (canon : s.canonical = true) (passes : s.defineCause k = 0) :
    (s.define k).flag CMPR.CLASS_STATUS.DEFINED k = true ∧ (s.define k).get CMPR.CLASS_STATUS.REFUSE_CAUSE k = 0 := by
  have reads {x : Fld × Nat} (field : x ∈ s.classRecord k) (fits : x.1.lo + x.1.w ≤ 32) :=
    get_putAll (canonical_regs canon) (s.classRecord k) (classRecord_apart s k) field fits
  rw [define_recorded passes, State.flag]
  refine ⟨?_, ?_⟩
  · rw [reads (x := (CMPR.CLASS_STATUS.DEFINED, 1)) (by simp [State.classRecord]) (by decide)]
    rfl
  · rw [reads (x := (CMPR.CLASS_STATUS.REFUSE_CAUSE, 0)) (by simp [State.classRecord]) (by decide)]
    rfl

/-! ### Edges and lanes -/

abbrev bucketRow : RegRow := ⟨CMPR.APPEND_BUCKETS.off, 1, none, [⟨0, 21, .rw, 1⟩]⟩

abbrev lanesRow : RegRow :=
  ⟨CMPR.APPEND_LANES.off, 1, none, [⟨0, 5, .rw, 4⟩, ⟨8, 5, .rw, 4⟩, ⟨16, 5, .rw, 4⟩, ⟨24, 5, .rw, 4⟩]⟩

/-- Edges that rise from at least 1 are consistent (R186). -/
theorem bucketsBad_rising {e0 e1 e2 : Nat} (h0 : 0 < e0) (h1 : e0 < e1) (h2 : e1 < e2) : bucketsBad e0 e1 e2 = false := by
  simp only [bucketsBad, Bool.or_eq_false_iff, beq_eq_false_iff_ne, decide_eq_false_iff_not]
  omega

/-- Four nonzero counts that make 16 are consistent (R186). -/
theorem lanesBad_sixteen {v : Word} (h0 : 0 < fieldGet v 0 5) (h1 : 0 < fieldGet v 8 5) (h2 : 0 < fieldGet v 16 5) (h3 : 0 < fieldGet v 24 5)
    (sum : fieldGet v 0 5 + fieldGet v 8 5 + fieldGet v 16 5 + fieldGet v 24 5 = 16) : lanesBad v = false := by
  simp only [lanesBad, Nat.mul_zero, Nat.mul_one, Nat.reduceMul, Bool.or_eq_false_iff, beq_eq_false_iff_ne, bne_eq_false_iff_eq]
  omega

theorem hBuckets_chk_edge0 (s : State) (i : Nat) (old v : Word) : (hBuckets CMPR.APPEND_BUCKETS.off).chk s i old v =
    (old != v && bucketsBad (fieldGet v 0 21) (s.get CMPR.APPEND_BUCKETS_1.EDGE_1) (s.get CMPR.APPEND_BUCKETS_2.EDGE_2)) := rfl

theorem hBuckets_chk_lanes (s : State) (i : Nat) (old v : Word) :
    (hBuckets CMPR.APPEND_LANES.off).chk s i old v = (old != v && lanesBad v) := rfl

/-- A word stored in a register of buckets or lanes comes into force at the next boundary (R186). -/
theorem hBuckets_act_stored (canon : s.canonical = true) (off : Nat) (w v : Word) : (hBuckets off).act (s.setReg off w) 0 v =
    (s.setReg off w).atBoundary (.live (regKey off 0) w) := by
  show (s.setReg off w).atBoundary (.live (regKey off 0) ((s.setReg off w).reg off)) = _
  rw [reg_setReg_same s (canonical_regs canon)]

/-- A write of buckets or lanes that R186 takes is stored, waits for the boundary, and is recorded. -/
theorem buckets_takes (canon : s.canonical = true) (wr : s.writable = true) (ph : s.serving = true) {r : RegRow} {off : Nat}
    (reg : (off, r) ∈ [(CMPR.APPEND_BUCKETS.off, bucketRow), (CMPR.APPEND_LANES.off, lanesRow)])
    (chk : (hBuckets off).chk s 0 (s.reg off) (r.fieldBits val) = false) : exec (.appendBuckets off val) s =
      .next (s.recorded ((s.setReg off (r.store (s.reg off) val)).atBoundary (.live (regKey off 0) (r.store (s.reg off) val))) off 0 val) := by
  rw [← hBuckets_act_stored canon off (r.store (s.reg off) val) (r.fieldBits val)]
  simp only [List.mem_cons, List.not_mem_nil, or_false, Prod.mk.injEq] at reg
  obtain ⟨rfl, rfl⟩ | ⟨rfl, rfl⟩ := reg
  all_goals exact congrArg Host.Outcome.next (bar0_stores rfl rfl rfl wr (by decide) (fun _ _ => rfl)
    (fun f _ => cmpr_phaseOk ph (by decide) f) rfl chk rfl (by decide) (by decide))

/-- Settles O34: CLASS_CTRL by what its handler refuses and does, DEFINE by the fields it records, edges and lanes by R186's rule. -/
theorem classesAndBuckets : Obligations.ClassesAndBuckets := by
  intro s k canon wr ph
  refine ⟨fun sel cls => ⟨exec_defineCmd_takes wr ph sel canon, fun _ passes _ => define_status canon passes, define_refused,
    exec_defineCmd_refused wr ph sel, exec_undefine_takes wr ph sel cls canon, exec_undefine_refused wr ph sel cls⟩,
    fun val w hw e0 e1 e2 => ?edge, fun val w hw n0 n1 n2 n3 sum => ?lanes⟩
  case edge =>
    have field : fieldGet (bucketRow.fieldBits val) 0 21 = fieldGet val 0 21 :=
      fieldGet_fieldBits val (f := ⟨0, 21, .rw, 1⟩) (by decide) (by decide)
    subst hw
    refine buckets_takes canon wr ph (r := bucketRow) (by simp) ?_
    rw [hBuckets_chk_edge0, field, bucketsBad_rising e0 e1 e2, Bool.and_false]
  case lanes =>
    have count (f : FieldRow) (hf : f ∈ lanesRow.fields) := fieldGet_fieldBits (r := lanesRow) val hf (by decide)
    have good : lanesBad (lanesRow.fieldBits val) = false := by
      rw [← count ⟨0, 5, .rw, 4⟩ (by decide)] at n0 sum
      rw [← count ⟨8, 5, .rw, 4⟩ (by decide)] at n1 sum
      rw [← count ⟨16, 5, .rw, 4⟩ (by decide)] at n2 sum
      rw [← count ⟨24, 5, .rw, 4⟩ (by decide)] at n3 sum
      exact lanesBad_sixteen n0 n1 n2 n3 sum
    subst hw
    refine buckets_takes canon wr ph (r := lanesRow) (by simp) ?_
    rw [hBuckets_chk_lanes, good, Bool.and_false]

end Sys2Proof.Machine
end

section
/-! The search, attention, reshard and pool descriptors at their admission (R242, R244, R298, R314, R342, R343, R346, R395, R396). -/

namespace Sys2Proof.Machine

open Sys2Proof.Laws.Rows

variable {s e : State} {d : Desc} {w a : Work}

theorem State.Admits.opcode {op : Nat} (h : s.Admits op d w e a) : w.d.opcode = op := (adm_d h).2.2.1

/-- The work stands in the state that its row finds. -/
theorem State.Admits.work_eq {op : Nat} (h : s.Admits op d w e a) : s.work w.id = some w := by
  obtain ⟨-, -, -, -, work, -⟩ := h
  exact work

/-! ### PREFIX_FIND and PREFIX_NEXT -/

/-- A FIND or NEXT is held against its namespace; a FIND that asks the peloton, against the namespace's scope too; then it begins (R242,
R244). -/
theorem exec_find_admits {c : Instr}
    (h : (c = .prefixFind d ∧ s.Admits opFIND d w e a) ∨ (c = .prefixNext d ∧ s.Admits opNEXT d w e a)) : exec c s =
    .next (if e.nsMine w.d.tid (w.d.b 32 2) = false then e.latch w.id stNOTFOUND 0 0
      else if c = .prefixFind d ∧ w.d.b 35 1 = 1 ∧ e.nsScope (w.d.b 32 2) ≠ 2 then e.latch w.id stPARTIAL dtNOT_PELOTON 0
      else e.updWork w.id fun w =>
        { w with aux := .find (FindSt.start (if w.d.opcode = opFIND then w.d.b 36 4 else 1) false) }) := by
  have row : ∃ op, exec c s = .next (s.rowAdmit op d fun s id => s.admitFind id) ∧ s.Admits op d w e a ∧
      (op = opFIND ↔ c = .prefixFind d) := by
    obtain ⟨rfl, h⟩ | ⟨rfl, h⟩ := h
    · exact ⟨opFIND, rfl, h, by simp⟩
    · exact ⟨opNEXT, rfl, h, by simp [opNEXT, opFIND]⟩
  obtain ⟨op, row, h, isFind⟩ := row
  rw [row]
  unfold State.admitFind
  rw [rowAdmit_admits h, h.desc]
  simp only [h.opcode, isFind, Bool.not_eq_eq_eq_not, Bool.not_true]

/-! ### PREFIX_INSERT and PREFIX_REMOVE -/

/-- An INSERT or REMOVE is held against its namespace and its sequence; an INSERT, against the hook of a protected sequence too (R242, R244,
R314). -/
theorem exec_update_admits {c : Instr} {q : Seq}
    (h : (c = .prefixInsert d ∧ s.Admits opINSERT d w e a) ∨ (c = .prefixRemove d ∧ s.Admits opREMOVE d w e a))
    (isOpen : e.openSeq w.d.tid w.d.sid = some q) : exec c s =
    .next (if e.nsMine w.d.tid (w.d.b 32 2) = false then e.latch w.id stNOTFOUND 0 0
      else if q.ring = true then e.latch w.id stPARTIAL dtRING 0
      else if q.bt ≠ e.nsTokens (w.d.b 32 2) then e.latch w.id stPARTIAL dtBLOCK_MISMATCH 0
      else if c = .prefixInsert d ∧ q.prot = true ∧ e.nsHook (w.d.b 32 2) = true then e.latch w.id stPARTIAL dtPROTECTED_HOOK 0
      else e) := by
  have row : ∃ op, exec c s = .next (s.rowAdmit op d fun s id => s.admitUpdate id) ∧ s.Admits op d w e a ∧
      (op = opINSERT ↔ c = .prefixInsert d) := by
    obtain ⟨rfl, h⟩ | ⟨rfl, h⟩ := h
    · exact ⟨opINSERT, rfl, h, by simp⟩
    · exact ⟨opREMOVE, rfl, h, by simp [opREMOVE, opINSERT]⟩
  obtain ⟨op, row, h, inserts⟩ := row
  rw [row]
  unfold State.admitUpdate
  rw [rowAdmit_admits h, h.desc]
  simp only [isOpen, h.opcode, inserts, Bool.not_eq_eq_eq_not, Bool.not_true]

/-! ### ATTN_PARTIAL -/

/-- The query rows of an ATTN_PARTIAL (R283). -/
def State.queryRead (s : State) (d : Desc) (c : ClassDef) : List Word :=
  (List.range (queryBytes d c / 2)).map fun i => BitVec.ofNat 32 (leAt (s.memRead (atQuery d) (queryBytes d c)) (2 * i) 2)

/-- The bias of an ATTN_PARTIAL over `blocks` blocks: a value for each position, or a slope for each head (R283, R286). -/
def State.biasRead (s : State) (d : Desc) (c : ClassDef) (blocks ba : Nat) : List Word :=
  (List.range (if atBias d = 1 then blocks * c.bt else if atBias d = 2 then atHeads d else 0)).map fun i =>
    BitVec.ofNat 32 (leNat (s.memRead (ba + 4 * i) 4))

/-- What an ATTN_PARTIAL has read of its extension record: position, ranges, mask and bias addresses (Table 12-2). -/
abbrev AttnExt := Nat × List (Nat × Nat) × Nat × Nat

/-- What an ATTN_PARTIAL on the sequence `q` holds when it begins (R283, R294, R300). -/
def State.attnRead (s : State) (d : Desc) (q : Seq) : AttnExt → AttnSt
  | (qpos, ranges, ma, ba) =>
    let c := s.classDef q.cls
    let g := s.lget ENG.ATTN_GROUP.GROUP q.cls
    let blocks := (ranges.map (·.2)).foldl (· + ·) 0
    { query := s.queryRead d c, ranges := ranges, qpos := qpos, maskAddr := ma,
      mask := if ma = 0 then [] else s.memRead ma (cdiv (blocks * c.bt) 8), bias := s.biasRead d c blocks ba, group := g,
      scale := s.liveReg ENG.ATTN_SCALE.off q.cls,
      draw := attnDraw d c g (classOperand c (s.reg ENG.PROG_USER_ID.off (atProgram d)).toNat), bucket := s.attnBucket blocks, parts := [],
      positions := 0, overflows := 0, bypassed := 0, lost := 0, lFirst := none, lLast := 0, valid := true }

/-- A value that has been read ends the descriptor before its first chunk: a query or slope that is not finite, a bias that is a NaN or +∞
(R286, R298; of a slope only a NaN does, log 94). -/
def AttnSt.unusable (x : AttnSt) (d : Desc) : Prop :=
  x.query.any (fun v => bf16Bad v.toNat) = true ∨ (if atBias d = 2 then x.bias.any fp32Nan else x.bias.any biasBad) = true

section attn

variable {q : Seq} (h : s.Admits opATTN d w e a) (isOpen : e.openSeq w.d.tid w.d.sid = some q)
include h isOpen

/-- An ATTN_PARTIAL that fails one of the checks 1 to 6 of R298 ends with that check's DETAIL. -/
theorem exec_attn_fails (fails : e.attnFail w.d q ≠ 0) :
    exec (.attnPartial d) s = .next (e.latch w.id stPARTIAL (e.attnFail w.d q) 0) := by
  show Host.Outcome.next (s.rowAdmit opATTN d fun s id => s.admitAttn id) = _
  unfold State.admitAttn
  rw [rowAdmit_admits h, h.desc]
  simp only [isOpen]
  rw [if_pos fails]

theorem exec_attn_badExt (passes : e.attnFail w.d q = 0) (bad : e.readExt w.d (e.classDef q.cls) = none) :
    exec (.attnPartial d) s = .next (e.latch w.id stPARTIAL dtEXT_INVALID 0) := by
  show Host.Outcome.next (s.rowAdmit opATTN d fun s id => s.admitAttn id) = _
  unfold State.admitAttn
  rw [rowAdmit_admits h, h.desc]
  simp only [isOpen]
  rw [if_neg fun fails => fails passes, bad]

/-- An ATTN_PARTIAL that passes R298 plans its first pages, unless what it has read of the host ends it with an INPUT fault (R283, R298,
R299). -/
theorem exec_attn_admits (passes : e.attnFail w.d q = 0) {ext : AttnExt} (hext : e.readExt w.d (e.classDef q.cls) = some ext) {x : AttnSt}
    (hx : x = e.attnRead w.d q ext) :
    (¬ x.unusable w.d →
      exec (.attnPartial d) s = .next ((e.updWork w.id fun w => { w with aux := .attn x }).plan { a with aux := .attn x } true)) ∧
    (x.unusable w.d →
      exec (.attnPartial d) s = .next ((((e.updWork w.id fun w => { w with aux := .attn x }).fault clsINPUT 0
        (tidSidInfo w.d.tid w.d.sid)).updWork w.id fun w => w.stopWith stFAULT dtATTN_NONFINITE).endAttnWork w.id)) := by
  obtain ⟨qpos, ranges, ma, ba⟩ := ext
  subst hx
  rw [← h.desc] at isOpen passes hext ⊢
  have admits : exec (.attnPartial d) s = .next (s.rowAdmit opATTN d fun s id => s.admitAttn id) := rfl
  unfold State.admitAttn at admits
  rw [rowAdmit_admits h] at admits
  simp only [isOpen] at admits
  rw [if_neg fun fails => fails passes, hext] at admits
  rw [admits]
  exact ⟨fun good => congrArg _ (if_neg good), fun bad => congrArg _ (if_pos bad)⟩

end attn

/-! ### RESHARD -/

/-- A MOVE or COPY is held against R343, then against its sequence's layers (log 60); then it asks its targets (R342). -/
theorem exec_send_admits {c : Instr} {q : Seq}
    (h : (c = .reshardMove d ∧ s.Admits opRESHARD (withKind d 0) w e a) ∨
      (c = .reshardCopy d ∧ s.Admits opRESHARD (withKind d 1) w e a))
    (send : w.isAdvance = false) (found : e.seqBySid w.d.tid w.d.sid = some q) : exec c s =
    .next (if e.reshardFail a ≠ 0 then e.latch w.id stPARTIAL (e.reshardFail a) 0
      else if q.layers < w.d.b 34 1 + w.d.b 35 1 + 1 then e.latch w.id stPARTIAL dtLAYER_RANGE 0
      else e.openTargets a q) := by
  have row : ∃ d', exec c s = .next (s.rowAdmit opRESHARD d' fun s id => s.admitReshard id) ∧ s.Admits opRESHARD d' w e a := by
    obtain ⟨rfl, h⟩ | ⟨rfl, h⟩ := h <;> exact ⟨_, rfl, h⟩
  obtain ⟨d', row, h⟩ := row
  rw [row, admits_row s opRESHARD d' w a e h, State.admitReshard, h.work_eq]
  simp only [send, Bool.false_eq_true, if_false]
  rw [State.admitSend, admits_with s opRESHARD d' w a e h, h.desc]
  simp only [found]

/-- PREPARE sent to every other member (R346). -/
def State.askReady (s : State) (d : Desc) (id : Nat) (members : List Nat) : State :=
  members.foldl (fun s m => (s.openTxn 0 ftEPOCH_PREPARE m id [epochBytes (s.remoteTid m d.tid) (rsEpoch d) (rsSwitch d)]).1) s

/-- An ADVANCE that passes R343 notes the Stroke of its switch and asks every other member; this card is READY as soon as it is (R346). -/
theorem exec_advance_admits (h : s.Admits opRESHARD (withKind d 2) w e a) (advance : w.isAdvance = true) : exec (.advance d) s =
    .next (if e.reshardFail a ≠ 0 then e.latch w.id stPARTIAL (e.reshardFail a) 0
      else
        let u := e.updWork w.id fun w => { w with aux := .adv { asked := e.ringOrder, ready := [], committed := false, acked := [] } }
        ((u.setPlan { u.plan_ w.d.tid (rsEpoch w.d) with switchAt := rsSwitch w.d }).askReady w.d w.id
          (e.ringOrder.filter (· ≠ e.me))).sendReadies w.d.tid) := by
  show Host.Outcome.next (s.rowAdmit opRESHARD (withKind d 2) fun s id => s.admitReshard id) = _
  rw [admits_row s opRESHARD (withKind d 2) w a e h, State.admitReshard, h.work_eq]
  simp only [advance, if_true]
  rw [State.admitAdvance, admits_with s opRESHARD (withKind d 2) w a e h, h.desc]
  rfl

/-! ### POOL_XFER -/

/-- A POOL_XFER through a region of another partition is DENIED before the common checks (R127, R396). -/
theorem exec_poolXfer_denied (up : s.working = true) (ph : s.phase = phRELEASED) (found : s.findFetched (asPosted opXFER d) = some w)
    (op : w.d.opcode = opXFER) (work : s.work w.id = some w) (may : s.mayAdmit w = true)
    (foreign : s.poolPart (w.d.b 33 1) ≠ s.partOf w.d.tid) :
    exec (.poolXfer d) s = .next ((s.enter w.id).latch w.id stDENIED 0 0) := by
  show Host.Outcome.next (s.rowAdmit opXFER d fun s id => s.admitXfer id) = _
  rw [rowAdmit_fetched up ph found, if_pos ⟨op, may⟩, State.admitXfer, work]
  dsimp only
  rw [if_pos ⟨phase_of_mayAdmit may, foreign⟩]

/-- A POOL_XFER in its own partition is held against the items of R396 in order; one into the sequence then waits for its turn as the
sequence's writer (R395). -/
theorem exec_poolXfer_admits {q : Seq} (h : s.Admits opXFER d w e a) (own : s.poolPart (w.d.b 33 1) = s.partOf w.d.tid)
    (isOpen : e.openSeq w.d.tid w.d.sid = some q) : exec (.poolXfer d) s =
    .next (if e.xferFail w.d q ≠ 0 then e.latch w.id stPARTIAL (e.xferFail w.d q) 0
      else if xferLong w.d q = true then e.latch w.id stPARTIAL dtLENGTH 0
      else if (w.d.b 32 1 = 1 ∨ w.d.b 44 4 = 0xFFFFFFFF) ∧ q.layers < w.d.b 34 1 + (w.d.b 35 1 + 1) then
        e.latch w.id stPARTIAL dtLAYER_RANGE 0
      else if w.d.b 32 1 = 0 then e.activateWriters else e) := by
  show Host.Outcome.next (s.rowAdmit opXFER d fun s id => s.admitXfer id) = _
  rw [admits_row s opXFER d w a e h, State.admitXfer, h.work_eq]
  dsimp only
  rw [if_neg fun foreign => foreign.2 own, admits_with s opXFER d w a e h, h.desc]
  simp only [isOpen, xferLayers, decide_eq_true_eq]

/-- Settles O32: each descriptor by the chain of its checks, the clauses by the first check that fails. -/
theorem unitDescriptors : Obligations.UnitDescriptors := by
  intro s e d w a
  refine ⟨fun c h => ?find, fun c q h isOpen => ?update, fun q h isOpen => ⟨exec_attn_fails h isOpen, exec_attn_badExt h isOpen, ?attn⟩,
    fun c q h send found => ?send, fun h advance => ?advance, exec_poolXfer_denied, fun q h own isOpen => ?xfer⟩
  case find =>
    rw [exec_find_admits h]
    refine ⟨fun foreign => ?_, fun mine find asks scope => ?_, fun mine passes => ?_⟩
    · rw [if_pos foreign]
    · rw [if_neg (by simp [mine]), if_pos ⟨find, asks, scope⟩]
    · rw [if_neg (by simp [mine]), if_neg fun ⟨find, asks, scope⟩ => scope (passes find asks)]
  case update =>
    rw [exec_update_admits h isOpen]
    refine ⟨fun foreign => ?_, fun mine ring => ?_, fun mine linear block => ?_, fun mine linear block insert prot hook => ?_,
      fun mine linear block plain => ?_⟩
    · rw [if_pos foreign]
    all_goals rw [if_neg (by simp [mine])]
    · rw [if_pos ring]
    all_goals rw [if_neg (by simp [linear])]
    · rw [if_pos block]
    all_goals rw [if_neg fun ne => ne block]
    · rw [if_pos ⟨insert, prot, hook⟩]
    · rw [if_neg fun ⟨insert, prot, hook⟩ => by simpa [prot, hook] using plain insert]
  case attn =>
    intro qs bias qpos ranges ma ba blocks c hc passes ext hblocks hbias hqs
    subst hc hblocks hbias hqs
    obtain ⟨good, bad⟩ := exec_attn_admits h isOpen passes ext rfl
    refine ⟨e.attnRead w.d q (qpos, ranges, ma, ba), rfl, rfl, rfl, rfl, rfl, rfl, rfl, rfl, rfl, rfl, fun query values => good ?_, bad⟩
    rintro (badQuery | badValue)
    · exact Bool.false_ne_true (query.symm.trans badQuery)
    · exact Bool.false_ne_true (values.symm.trans badValue)
  case send =>
    rw [exec_send_admits h send found]
    refine ⟨fun fails => ?_, fun passes past => ?_, fun passes inside => ?_⟩
    · rw [if_pos fails]
    all_goals rw [if_neg fun fails => fails passes]
    · rw [if_pos past]
    · rw [if_neg (Nat.not_lt.2 inside)]
  case advance =>
    rw [exec_advance_admits h advance]
    refine ⟨fun fails => ?_, fun u p passes hu hp => ?_⟩
    · rw [if_pos fails]
    · subst hu hp
      rw [if_neg fun fails => fails passes]
      rfl
  case xfer =>
    rw [exec_poolXfer_admits h own isOpen]
    refine ⟨fun fails => ?_, fun passes long => ?_, fun passes fits checked past => ?_, fun passes fits out inside => ?_,
      fun passes fits into inside => ?_⟩
    · rw [if_pos fails]
    all_goals rw [if_neg fun fails => fails passes]
    · rw [if_pos long]
    all_goals rw [if_neg (by simp [fits])]
    · rw [if_pos ⟨checked, past⟩]
    · rw [if_neg fun past => absurd past.2 (Nat.not_lt.2 inside), if_neg (by simp [out])]
    · rw [if_neg ?_, if_pos into]
      rintro ⟨out | whole, past⟩
      · simp [into] at out
      · exact inside.elim (fun ne => ne whole) (Nat.not_lt.2 · past)

end Sys2Proof.Machine
end

section
/-! The cascade's words (R245 to R249) and match tokens (R250, R251, R340). -/

namespace Sys2Proof.Machine

variable {s t : State} {c : CascadeWord} {o : CascOut} {w : Work} {f : FindSt}

theorem up_of_working (up : s.working = true) : s.up = true := by
  simp only [State.working, Bool.and_eq_true] at up
  exact up.1

/-! ### A word that came back (R246) -/

theorem ownWord_casc (found : s.srch.casc.find? (·.tag = c.tag) = some o) :
    (s.ownWord c).srch.casc = s.srch.casc.filter (·.tag ≠ c.tag) := by
  unfold State.ownWord
  rw [found]
  rfl

/-- The search that sent the word awaits it no more; it keeps the word's flags, and its hit where the cursor has not passed it (R234, R246). -/
theorem ownWord_find (found : s.srch.casc.find? (·.tag = c.tag) = some o) (work : s.work o.work = some w) (aux : w.aux = .find f) :
    ∃ (v : Work) (g : FindSt), (s.ownWord c).work o.work = some v ∧ v.aux = .find g ∧ g.words = f.words.filter (· ≠ c.tag) ∧
      g.flags = f.flags ||| (if c.halted then 4 else 0) ||| (if c.verifyMiss then 16 else 0) ∧
      ∀ h, c.hit = some h → g.remote = if beyondCursor w.d h then f.remote ++ [o.key :: h] else f.remote := by
  unfold State.ownWord
  rw [found]
  refine ⟨_, _, work_updWork _ (w := w) work fun v => ?_, by rw [aux], rfl, rfl, fun h hit => by rw [hit]⟩
  split <;> rfl

/-! ### A word of another card (R246) -/

theorem passWord_halted (halted : s.halted = true) : s.passWord c = s.emit (.cascade (sealWord { c with halted := true })) :=
  if_pos halted

theorem passWord_foreign (runs : s.halted = false) (foreign : s.nsOn c.ns = false ∨ s.nsScope c.ns ≠ 1) :
    s.passWord c = s.emit (.cascade c) := by
  unfold State.passWord
  rw [if_neg (by simp [runs]), if_pos (by simpa using foreign)]

/-- A word of a namespace that is searched here goes on as its own, with its hit or a hit of this card (R246). -/
theorem passWord_searched (runs : s.halted = false) (on : s.nsOn c.ns = true) (scope : s.nsScope c.ns = 1) :
    ∃ (n : Tally) (c1 : CascadeWord), s.passWord c = (s.tally n).emit (.cascade (sealWord c1)) ∧ c1.origin = c.origin ∧ c1.tag = c.tag ∧
      c1.ns = c.ns ∧ c1.block = c.block ∧ c1.key = c.key ∧ c1.halted = c.halted ∧ (c.verifyMiss = true → c1.verifyMiss = true) ∧
      (c1.hit = c.hit ∨ ∃ h, c1.hit = some h ∧ h.head? = some (s.get SRCH.ENUM_STATUS.POSITION)) := by
  unfold State.passWord
  rw [if_neg (by simp [runs]), if_neg (by simp [on, scope])]
  obtain ⟨a, n⟩ := s.wordHit c.ns c.block c.key 4096 none 0 Tally.zero
  refine ⟨n, _, rfl, rfl, rfl, rfl, rfl, rfl, rfl, fun miss => by simp [miss], ?_⟩
  cases a with
  | none => exact .inl rfl
  | some e =>
    cases c.hit with
    | none => exact .inr ⟨_, rfl, rfl⟩
    | some h =>
      dsimp only
      split
      · exact .inr ⟨_, rfl, rfl⟩
      · exact .inl rfl

section word

variable (up : s.working = true) (power : s.dom 19 ≠ domOFF) (ok : wordOk c = true)
include up power ok

theorem exec_cascadeWord_own (own : c.origin = s.get SRCH.ENUM_STATUS.POSITION)
    (found : s.srch.casc.find? (·.tag = c.tag) = some o) : exec (.cascadeWord c) s = .next ((s.ownWord c).settleFind o.work) := by
  show execCascadeWord c s = _
  rw [execCascadeWord, if_neg (by simp [up, power, ok]), if_pos own, found]
  rfl

theorem exec_cascadeWord_other (other : c.origin ≠ s.get SRCH.ENUM_STATUS.POSITION) :
    exec (.cascadeWord c) s = .next (s.passWord c) := by
  show execCascadeWord c s = _
  rw [execCascadeWord, if_neg (by simp [up, power, ok]), if_neg other]

end word

/-- A word whose CRC fails is discarded (R248). -/
theorem exec_cascadeWord_bad (bad : wordOk c = false) : exec (.cascadeWord c) s = .next s := by
  show execCascadeWord c s = _
  rw [execCascadeWord, if_pos (by simp [bad])]

/-! ### A word that does not come back (R248) -/

/-- The search that lost the word awaits it no more, and its result says so. -/
def Work.wordLost (w : Work) (tag : Nat) : Work :=
  match w.aux with
  | .find f => { w with aux := .find { f with words := f.words.filter (· ≠ tag), flags := f.flags ||| 2 } }
  | _ => w

/-- A word lost: it waits no more and is counted. -/
def State.wordLost (s : State) (tag work : Nat) : State :=
  ((s.setSrch fun x => { x with casc := x.casc.filter (·.tag ≠ tag) }).sat SRCH.RING_LOSSES.COUNT).updWork work (·.wordLost tag)

theorem exec_cascadeWaitExpiry {tag : Nat} (up : s.working = true) (due : s.cascDue tag = true)
    (found : s.srch.casc.find? (·.tag = tag) = some o) : exec (.cascadeWaitExpiry tag) s =
    .next (if o.again = false then
        (s.setSrch fun x => { x with casc := x.casc.map fun y => if y.tag = tag then { y with again := true, sent := s.stroke } else y }).emit
          (.cascade o.word)
      else (s.wordLost tag o.work).settleFind o.work) := by
  show Host.Outcome.next (if s.working && s.cascDue tag then s.cascExpire tag else s) = _
  rw [if_pos (by simp [up, due]), State.cascExpire, found]
  simp only [Bool.not_eq_eq_eq_not, Bool.not_true]
  rfl

/-! ### Enumeration (R249) -/

section enumeration

variable (up : s.working = true) (ph : s.phase = phCONFIGURE ∨ s.phase = phRELEASED)
include up ph

theorem exec_enumDone (power : s.dom 19 = domRUNNING) {u t : State}
    (hu : u = if s.flag SRCH.ENUM_STATUS.ENUM_DONE then s else s.enumBanks)
    (ht : t = (((u.put SRCH.ENUM_STATUS.DIES_LOCAL 15).put SRCH.ENUM_STATUS.ENUM_DONE 1).put SRCH.ENUM_STATUS.POSITION s.pw.casPos).put
      SRCH.ENUM_STATUS.SIZE_M1 s.pw.casSize) (ring : Bool) : exec (.enumDone ring) s =
    .next (if s.pw.casSize = 0 ∨ (ring = true ∧ ¬ s.flag SRCH.ENUM_STATUS.CASCADE_INCOMPLETE = true) then
      t.put SRCH.ENUM_STATUS.CASCADE_UP 1 else t) := by
  subst hu ht
  show execEnumDone ring s = _
  rw [execEnumDone, if_neg (by rcases ph with h | h <;> simp [up_of_working up, h, power])]

theorem exec_cascadeEnumTimeout (power : s.dom 19 ≠ domOFF) (down : s.flag SRCH.ENUM_STATUS.CASCADE_UP = false) (size : s.pw.casSize ≠ 0) :
    exec .cascadeEnumTimeout s = .next (s.put SRCH.ENUM_STATUS.CASCADE_INCOMPLETE 1) := by
  show execCascadeEnumTimeout s = _
  rw [execCascadeEnumTimeout, if_neg (by rcases ph with h | h <;> simp [up_of_working up, h, power, down, size])]

end enumeration

/-! ### Tokens and replies (R250, R251, R340) -/

theorem exec_matchToken_arrives {p : Nat} {f0 f : Frame} (h : s.Arrives p ftMATCH_TOKEN f0 f t) :
    exec (.matchToken p f0) s = .next (t.takeToken f) :=
  congrArg _ (arrives h (by decide) (by decide) fun s f => s.takeToken f)

theorem exec_matchReply_arrives {p : Nat} {f0 f : Frame} (h : s.Arrives p ftMATCH_REPLY f0 f t) {x : Txn} (asked : t.txn f.xid = some x) :
    exec (.matchReply p f0) s = .next ((t.takeReply f).settleFind x.work) := by
  show Host.Outcome.next (s.receive p ftMATCH_REPLY f0 fun s f =>
    (s.takeReply f).settleFind (((s.txn f.xid).map (·.work)).getD s.wk.next)) = _
  rw [arrives h (by decide) (by decide), asked]
  rfl

/-- A reply to anything but a token sent to that member is discarded (R251). -/
theorem takeReply_discards {f : Frame} {x : Txn} (asked : t.txn f.xid = some x) (other : x.typ ≠ ftMATCH_TOKEN ∨ x.member ≠ f.src) :
    t.takeReply f = t := by
  unfold State.takeReply
  rw [asked]
  exact if_pos other

/-! ### The end of the wait (R251) -/

theorem exec_pelotonWaitExpiry {id : Nat} (up : s.working = true) (due : s.pelDue id = true) :
    exec (.pelotonWaitExpiry id) s = .next (s.pelExpire id) := by
  show Host.Outcome.next (if s.working && s.pelDue id then s.pelExpire id else s) = _
  rw [if_pos (by simp [up, due])]

theorem pelDue_iff {id : Nat} (work : s.work id = some w) (aux : w.aux = .find f) :
    s.pelDue id = true ↔ ∃ n, f.waitEnd = some n ∧ n < s.stroke := by
  unfold State.pelDue
  rw [work, Option.any_some, aux]
  simp only [Option.any_eq_true, decide_eq_true_eq]

/-- From `s` to `t` work `id` stands in its phase, with what its unit holds of it. -/
def State.Stands (id : Nat) (s t : State) : Prop :=
  ∀ w, s.work id = some w → ∃ v, t.work id = some v ∧ v.phase = w.phase ∧ v.aux = w.aux

theorem State.Stands.of_wk {id : Nat} (h : t.wk = s.wk) : State.Stands id s t :=
  fun w work => ⟨w, (work_of_wk h id).trans work, rfl, rfl⟩

theorem State.Stands.trans {id : Nat} {u : State} (h : State.Stands id s t) (k : State.Stands id t u) : State.Stands id s u := by
  intro w work
  obtain ⟨v, hv, phase, aux⟩ := h w work
  obtain ⟨x, hx, phase', aux'⟩ := k v hv
  exact ⟨x, hx, phase'.trans phase, aux'.trans aux⟩

theorem gcPage_wk (s : State) (pid : Nat) : (s.gcPage pid).wk = s.wk := by
  unfold State.gcPage
  split
  · rfl
  · split <;> rfl

theorem endDemotion_wk (s : State) (pid : Nat) : (s.endDemotion pid).wk = s.wk := by
  unfold State.endDemotion
  split
  · rfl
  · split
    · rfl
    · dsimp only
      split <;> rfl

theorem unhold_wk (s : State) (pid : Nat) : (s.unhold pid).wk = s.wk := (endDemotion_wk _ pid).trans (gcPage_wk _ pid)

theorem dropRun_stands (s : State) (id : Nat) (r : Run) : State.Stands id s (s.dropRun id r) := by
  intro w work
  exact ⟨_, (work_of_wk (foldl_wk _ unhold_wk r.refs) id).trans (work_updWork s work fun _ => rfl), rfl, rfl⟩

/-- A work that drops all that it runs stands. -/
theorem dropRuns_stands (s : State) (id : Nat) (rs : List Run) :
    State.Stands id s (rs.foldl (fun s r => (s.dropCalls id r.idx).dropRun id r) s) :=
  List.foldlRecOn rs _ (motive := State.Stands id s) (.of_wk rfl) fun t ht r _ =>
    (ht.trans (.of_wk rfl)).trans (dropRun_stands (t.dropCalls id r.idx) id r)

theorem memWrite_wk (bs : List Byte) : ∀ (t : State) (a : Nat), (t.memWrite a bs).wk = t.wk := by
  induction bs with
  | nil => exact fun _ _ => rfl
  | cons b bs ih => exact fun t a => ih (t.memPut a b) (a + 1)

theorem undefTarget_wk (s : State) (d : Desc) (j : Nat) : (s.undefTarget d j).wk = s.wk := by
  rw [State.undefTarget, State.nextFree_wk, memWrite_wk]

theorem undefTargets_wk (s : State) (d : Desc) (n : Nat) : (s.undefTargets d n).wk = s.wk :=
  foldl_wk s (fun t => undefTarget_wk t d) _

theorem work_of_works {id : Nat} (h : t.wk.works = s.wk.works) : t.work id = s.work id := by
  unfold State.work
  rw [h]

/-- The work of a completion that is latched in Stroke `at_` (R125, R130). -/
def Work.latched (w : Work) (status detail extent flags : Nat) (results : List (List Byte)) (at_ : Nat) : Work :=
  { w with
    phase := 2, status := status, detail := detail, extent := extent, flags := flags, results := results, run := [], stream := false,
    latchedAt := at_ }

/-- A latch changes no work but its own, which keeps its number. -/
theorem latch_works {id : Nat} (work : s.work id = some w) (ends : w.phase ≠ 2) (st dt n : Nat) : ∃ flags results,
    (s.latch id st dt n).wk.works = (s.updWork id fun v => v.latched st dt n flags results s.stroke).wk.works := by
  unfold State.latch
  rw [work]
  dsimp -zeta only
  rw [if_neg ends]
  extract_lets bare late fl res s1 wk s0 s2 s3
  have targets : s2.wk = s0.wk := by
    unfold s2
    split
    · exact undefTargets_wk s0 w.d n
    · rfl
  have counted : (if late then if s3.obsOpen then s3.sat ERR.OBS_LATE.COUNT else s3 else s2).wk = s2.wk := by
    split
    · split <;> rfl
    · rfl
  exact ⟨fl, res, congrArg (·.works) (counted.trans targets)⟩

/-- A work that has been latched is in phase 2 (R125). -/
theorem latch_phase {id : Nat} (work : s.work id = some w) (st dt n : Nat) :
    ∃ v, (s.latch id st dt n).work id = some v ∧ v.phase = 2 := by
  by_cases ended : w.phase = 2
  · refine ⟨w, ?_, ended⟩
    unfold State.latch
    rw [work]
    dsimp only
    rw [if_pos ended, work]
  · obtain ⟨flags, results, works⟩ := latch_works work ended st dt n
    exact ⟨_, (work_of_works works).trans (work_updWork s work fun _ => rfl), rfl⟩

/-- A FIND that is finished has been latched. -/
theorem finishFind_phase (work : s.work w.id = some w) (aux : w.aux = .find f) :
    ∃ v, (s.finishFind w).work w.id = some v ∧ v.phase = 2 := by
  unfold State.finishFind
  rw [aux]
  dsimp only
  split
  · exact latch_phase work _ _ _
  · exact latch_phase (work_updWork s work (by exact fun _ => rfl)) _ _ _

/-- Once the wait is over, the FIND is latched (R251). -/
theorem pelExpire_phase {id : Nat} (work : s.work id = some w) (aux : w.aux = .find f) :
    ∃ v, (s.pelExpire id).work id = some v ∧ v.phase = 2 := by
  obtain ⟨v, hv, phase, haux⟩ := dropRuns_stands (s.setChain fun c =>
    { c with txns := c.txns.filter fun t => ¬ (t.typ = ftMATCH_TOKEN ∧ t.work = id) }) id w.run w work
  unfold State.pelExpire
  rw [work]
  dsimp -zeta only
  extract_lets s1 s2 s3 s4
  have expired : s4.work id = some { v with aux := .find { f with waitEnd := none } } := by
    rw [work_updWork s3 (w := v) hv fun x => by split <;> rfl, haux, aux]
  rw [expired]
  obtain rfl := work_id s2 hv
  exact finishFind_phase (w := { v with aux := .find { f with waitEnd := none } }) expired rfl

/-- Settles O36: a word by whose it is and by what becomes of its search, a token or reply as the hop hands it over, the end of the wait by
the latch of its FIND. -/
theorem cascadeAndMatchTokens : Obligations.CascadeAndMatchTokens := by
  refine ⟨fun s up => ⟨fun c => exec_cascadeWord_bad, fun c o ok power own found => ⟨exec_cascadeWord_own up power ok own found,
      ownWord_casc found, fun w f work aux => ownWord_find found work aux⟩, fun c ok power other => ?word, fun tag o due found => ?expiry,
      fun ph power u t hu ht => ?enumeration, exec_cascadeEnumTimeout up, rfl⟩,
    fun s t p f0 f => ⟨exec_matchToken_arrives, fun x h => exec_matchReply_arrives h, fun id => exec_pelotonWaitExpiry,
      fun id w g up due work aux _ => pelExpire_phase work aux, fun id w g work aux => pelDue_iff work aux,
      fun x => takeReply_discards⟩⟩
  case word =>
    rw [exec_cascadeWord_other up power ok other]
    refine ⟨fun halted => ?_, fun runs foreign => ?_, fun runs on scope => ?_⟩
    · rw [passWord_halted halted]
      rfl
    · rw [passWord_foreign runs foreign]
      rfl
    · obtain ⟨n, c1, word, fields⟩ := passWord_searched runs on scope
      exact ⟨n, c1, congrArg _ word, fields⟩
  case expiry =>
    rw [exec_cascadeWaitExpiry up due found]
    exact ⟨fun first => by rw [if_pos first], fun again => ⟨s.wordLost tag o.work, by rw [if_neg (by simp [again])], rfl, rfl⟩⟩
  case enumeration =>
    have ends := exec_enumDone up ph power hu ht
    refine ⟨fun ring closed => ?_, fun ring size broken => ?_⟩
    · rw [ends, if_pos (by simpa using closed)]
    · rw [ends, if_neg (by rcases broken with h | h <;> simp [size, h])]

end Sys2Proof.Machine
end

section
/-! The Brake's samples (R252), the reshape of a bank (R255, R256) and the return of a shadow's tokens (R258). -/

namespace Sys2Proof.Machine

variable {s : State}

/-! ### The Brake -/

/-- A sample shows the dies' temperatures and the hottest, and measures the step of the next boundary (R252). -/
theorem exec_brakeSample (up : s.working = true) (power : s.dom 19 ≠ domOFF) {temps : List Int} {hot : Int}
    (hhot : hot = (temps.take 4).foldl max (-128)) : ∃ word : Word, exec (.brakeSample temps) s =
    .next (((s.setReg SRCH.DIE_TEMP.off word).put SRCH.BRAKE_STATUS.HOTTEST_C (hot % 256).toNat).setSrch fun x =>
      { x with brakeNext := some (brakeStep hot s.brakeNow) }) := by
  subst hhot
  show ∃ word, execBrakeSample temps s = _
  rw [execBrakeSample, if_neg (by simp [up_of_working up, power])]
  exact ⟨_, rfl⟩

/-! ### RESHAPE (R255) -/

abbrev bankCtrlRow : RegRow := ⟨SRCH.BANK_CTRL.off, 1, some SRCH.BANK_SELECT.off, [⟨0, 2, .rw, 1⟩, ⟨4, 2, .rw, 1⟩, ⟨8, 1, .w1s, 0⟩]⟩

theorem bankCtrl_row : findReg SRCH.BANK_CTRL.off = some bankCtrlRow := by decide

theorem bankCtrl_phase (ph : s.serving = true) (f : FieldRow) : s.phaseOk SRCH.BANK_CTRL.off f = true := by
  unfold State.phaseOk
  rcases serving_cases ph with h | h <;> rw [h] <;> rfl

/-- The search registers answer while the Sprocket's domain is not OFF (R442). -/
theorem bankCtrl_powered (power : s.dom 19 ≠ domOFF) : s.offDomain SRCH.BANK_CTRL.off = false :=
  decide_eq_false power

theorem bankCtrl_view (i : Nat) : s.view SRCH.BANK_CTRL.off i = s.reg SRCH.BANK_CTRL.off i := by
  have readable : woBits SRCH.BANK_CTRL.off = 0#32 := by decide
  show s.reg SRCH.BANK_CTRL.off i &&& ~~~ woBits SRCH.BANK_CTRL.off = _
  rw [readable, BitVec.not_zero, BitVec.and_allOnes]

/-- The word that sets RESHAPE keeps both widths. -/
theorem reshapeWord_fields {old w : Word} (hw : w = bankCtrlRow.rwBits old ||| BitVec.ofNat 32 (2 ^ 8)) :
    fieldGet (bankCtrlRow.fieldBits w) 0 2 = fieldGet old 0 2 ∧ fieldGet (bankCtrlRow.fieldBits w) 4 2 = fieldGet old 4 2 ∧
      fieldGet (bankCtrlRow.fieldBits w) 8 1 = 1 := by
  have kept (f : FieldRow) (mem : f ∈ bankCtrlRow.fields) (stores : f.keepsBits = true) :
      fieldGet (bankCtrlRow.fieldBits w) f.lo f.w = fieldGet old f.lo f.w := by
    rw [fieldGet_fieldBits w mem (by decide), hw]
    exact fieldGet_rwOr old (by decide) (by decide) mem stores
  refine ⟨kept ⟨0, 2, .rw, 1⟩ (by decide) rfl, kept ⟨4, 2, .rw, 1⟩ (by decide) rfl, ?_⟩
  rw [fieldGet_fieldBits w (f := ⟨8, 1, .w1s, 0⟩) (by decide) (by decide), hw]
  exact fieldGet_bitOr _ (by decide)

theorem hBankCtrl_chk {i : Nat} {old v : Word} (same : fieldGet v 0 2 = fieldGet old 0 2) (width : fieldGet v 0 2 ≠ 0)
    (next : fieldGet v 4 2 ≠ 0) : hBankCtrl.chk s i old v = false := by
  simp [hBankCtrl, same, same ▸ width, next]

theorem hBankCtrl_chg_same {i : Nat} {old v : Word} (same : fieldGet v 0 2 = fieldGet old 0 2) : hBankCtrl.chg s i old v = s :=
  if_neg fun ne => ne same

theorem hBankCtrl_act {i : Nat} {v : Word} (set : fieldGet v 8 1 = 1) : hBankCtrl.act s i v =
    if s.reshapeCause (instBank i) ≠ 0 then
      if s.srch.reshape.any (·.1 = instBank i) then s.put SRCH.BANK_STATUS.REFUSE_CAUSE (s.reshapeCause (instBank i)) i
      else (s.put SRCH.BANK_STATUS.REFUSE_CAUSE (s.reshapeCause (instBank i)) i).put SRCH.BANK_STATUS.STATE 3 i
    else ((s.put SRCH.BANK_STATUS.STATE 1 i).put SRCH.BANK_STATUS.REFUSE_CAUSE 0 i).setSrch fun x =>
      { x with reshape := x.reshape ++ [(instBank i, fieldGet v 4 2)] } :=
  if_neg (by simp [set])

/-- RESHAPE leaves the stored widths, acts on the bank selected, and is recorded (R255, R485). -/
theorem exec_reshape_takes {i : Nat} {w : Word} (canon : s.canonical = true) (wr : s.writable = true) (ph : s.serving = true)
    (sel : (s.reg SRCH.BANK_SELECT.off).toNat = i) (power : s.dom 19 ≠ domOFF)
    (width : fieldGet (s.reg SRCH.BANK_CTRL.off i) 0 2 ≠ 0) (next : fieldGet (s.reg SRCH.BANK_CTRL.off i) 4 2 ≠ 0)
    (hw : w = bankCtrlRow.rwBits (s.reg SRCH.BANK_CTRL.off i) ||| BitVec.ofNat 32 (2 ^ 8)) :
    exec .reshape s = .next (s.recorded (hBankCtrl.act s i (bankCtrlRow.fieldBits w)) SRCH.BANK_CTRL.off i w) := by
  obtain ⟨sameWidth, sameNext, -⟩ := reshapeWord_fields hw
  have word : bar0Bit hBankCtrl SRCH.BANK_CTRL.RESHAPE s = bar0 hBankCtrl SRCH.BANK_CTRL.off w s := by
    subst sel
    rw [bar0Bit, bankCtrl_row, hw]
    rfl
  have inst : s.selInst bankCtrlRow = i := sel
  show Host.Outcome.next (bar0Bit hBankCtrl SRCH.BANK_CTRL.RESHAPE s) = _
  rw [word, bar0_takes wr bankCtrl_row (fun _ _ => rfl) (fun f _ => bankCtrl_phase ph f) (bankCtrl_powered power)
    (inst ▸ hBankCtrl_chk sameWidth (sameWidth ▸ width) (sameNext ▸ next)), inst]
  have stored : s.setReg SRCH.BANK_CTRL.off (bankCtrlRow.store (s.reg SRCH.BANK_CTRL.off i) w) i = s := by
    rw [hw, store_bit _ (by decide) (by decide), setReg_self s (canonical_regs canon)]
  have unchanged : hBankCtrl.chg s i (s.view SRCH.BANK_CTRL.off i) (bankCtrlRow.fieldBits w) = s :=
    hBankCtrl_chg_same (by rw [bankCtrl_view, sameWidth])
  unfold State.accept
  dsimp only
  rw [stored, unchanged]
  rfl

/-! ### The drain (R255) -/

/-- A bank that is being drained is empty once its sister has the room; its new width waits for the boundary (log 112). -/
theorem exec_reshapeDrainDone {bank : Nat} {r : Nat × Nat} (up : s.working = true)
    (draining : s.srch.reshape.find? (·.1 = bank) = some r) (runs : s.halted = false)
    (state : s.get SRCH.BANK_STATUS.STATE (bankInst bank) = 1) : exec (.reshapeDrainDone bank) s =
    .next (if s.bankRoom (sisterOf bank) < s.bankValid bank then s
      else (((((s.srch.entries.filter fun e => e.addr / 2 ^ 14 = bank).mergeSort (fun a b => decide (a.addr ≤ b.addr))).foldl
        (fun s e => s.moveEntry e) s).put SRCH.BANK_STATUS.STATE 2 (bankInst bank)).atBoundary (.bankWidth (bankInst bank) r.2))) := by
  show execReshapeDrainDone bank s = _
  rw [execReshapeDrainDone, draining]
  simp only [up, runs, state, Bool.not_true, bne_self_eq_false, Bool.false_or, decide_eq_true_eq]
  split <;> rfl

theorem holdEntry_entries (s : State) (a : Nat) : (s.holdEntry a).srch.entries = s.srch.entries := by
  unfold State.holdEntry
  split <;> rfl

/-- An entry that is moved changes its address alone (R255). -/
theorem moveEntry_entries {e : Entry} {a : Nat}
    (free : s.bankFree (sisterOf (e.addr / 2 ^ 14)) (s.bankUnits (sisterOf (e.addr / 2 ^ 14))) e.low = some a) :
    (s.moveEntry e).srch.entries = s.srch.entries.map fun y => if y.addr = e.addr then { y with addr := a } else y := by
  unfold State.moveEntry
  dsimp only
  rw [free]
  exact congrArg _ (holdEntry_entries s e.addr)

/-! ### Shadows (R258) -/

theorem exec_shadowTokensRestored {entry sec slot : Nat} {e : Entry} (up : s.working = true)
    (found : s.srch.entries.find? (·.addr = entry) = some e) (away : e.tokens = none) (pend : e.pend = some (sec, slot)) {toks : List Byte}
    (htoks : toks = (((kvFind s.flash.media sec).getD (zeros 4096)).drop (512 * slot)).take (4 * s.nsTokens e.ns)) :
    exec (.shadowTokensRestored entry) s = .next (s.setSrch fun x => { x with entries := x.entries.map fun y =>
      if y.addr = entry then { y with tokens := some toks, pend := none } else y }).notePending := by
  subst htoks
  show execShadowTokensRestored entry s = _
  rw [execShadowTokensRestored, found]
  dsimp only
  rw [if_pos (by simp [up, away]), pend]

/-- Settles O37: a sample by what it writes, RESHAPE as a write of BANK_CTRL, the drain by the room of the sister bank. -/
theorem brakeAndReshape : Obligations.BrakeAndReshape := by
  intro s up
  refine ⟨fun temps hot power hhot => ?sample, fun i w canon wr ph sel power width next hw => ?reshape,
    fun bank r draining runs state => ?drain, fun e a => moveEntry_entries, fun entry e sec slot toks found away pend htoks =>
      exec_shadowTokensRestored up found away pend htoks⟩
  case sample =>
    obtain ⟨word, shown⟩ := exec_brakeSample up power hhot
    exact ⟨_, shown, rfl, fun canon => get_put_same _ (setReg_wf s (canonical_regs canon) _ _ _) _ _ _ (by decide), rfl, rfl⟩
  case reshape =>
    obtain ⟨-, sameNext, set⟩ := reshapeWord_fields hw
    rw [exec_reshape_takes canon wr ph sel power width next hw, hBankCtrl_act set, sameNext]
    refine ⟨fun passes => ?_, fun fails idle => ?_⟩
    · rw [if_neg fun fails => fails passes]
    · rw [if_pos fails, if_neg (by rw [idle]; decide)]
  case drain =>
    rw [exec_reshapeDrainDone up draining runs state]
    refine ⟨fun full => ?_, fun es room hes => ?_⟩
    · rw [if_pos full]
    · subst hes
      rw [if_neg (Nat.not_lt.2 room)]

end Sys2Proof.Machine
end

section
/-! A hop and any frame (R328 to R331): what is taken with a frame's header, what is out of order and what goes on, frames whose bytes are bad, the
bytes of a frame that the card sends, and replay. -/

namespace Sys2Proof.Machine

open Sys2Proof.Laws.Chain

variable {s : State} {p : Nat}

/-! ### What a hop does leaves the registers, but for the count of replays -/

/-- A counter that counts up to its maximum leaves every other register, in a canonical store or not: what it writes is no zero. -/
theorem get_sat_other (s : State) {f g : Fld} {i j : Nat} (counts : regDefault (regKey f.off i) = 0#32) (whole : f.lo = 0 ∧ f.w = 32)
    (apart : regKey g.off j ≠ regKey f.off i) : (s.sat f 1 i).get g j = s.get g j := by
  obtain ⟨lo, width⟩ := whole
  have written : fieldPut (s.reg f.off i) f.lo f.w (min (s.get f i + 1) (2 ^ f.w - 1)) ≠ 0#32 := fun zero => by
    have read := fieldGet_fieldPut_same (s.reg f.off i) f.lo f.w (min (s.get f i + 1) (2 ^ f.w - 1)) (by omega)
    rw [zero, lo, width] at read
    have none : fieldGet 0#32 0 32 = 0 := rfl
    omega
  unfold State.get State.reg State.sat State.put State.setReg
  rw [spPut_eq, counts, if_neg written, spGet_spInsert_other _ _ _ apart]

theorem acknowledge_regs (s : State) (p credits vc : Nat) : (s.acknowledge p false credits vc).regs = s.regs := by
  unfold State.acknowledge
  dsimp only
  rw [if_neg Bool.false_ne_true]
  split <;> rfl

theorem freeBuffer_regs (s : State) (src : Option Nat) (f : Frame) : (s.freeBuffer src f).regs = s.regs := by
  unfold State.freeBuffer
  cases src with
  | none => rfl
  | some p =>
    dsimp only
    split
    · rfl
    · split
      · exact acknowledge_regs s p f.cost f.vc
      · rfl

theorem sendUp_regs (s : State) (p : Nat) (src : Option Nat) (f : Frame) : (s.sendUp p src f).regs = s.regs := by
  unfold State.sendUp
  dsimp only
  split
  · exact freeBuffer_regs _ src f
  · rfl

theorem sendFrom_regs (s : State) (p : Nat) (src : Option Nat) (f : Frame) : (s.sendFrom p src f).regs = s.regs := by
  unfold State.sendFrom
  dsimp only
  split
  · exact sendUp_regs s p src f
  · split
    · exact sendUp_regs s (otherPort p) src f
    · split <;> rfl

theorem forward_regs (s : State) (p : Nat) (f : Frame) : (s.forward p f).regs = s.regs := by
  unfold State.forward
  dsimp only
  split
  · exact sendFrom_regs s.nextFree _ _ _
  · exact sendFrom_regs s _ _ _

theorem drainHop_regs (s : State) (p : Nat) : (s.drainHop p).regs = s.regs := by
  unfold State.drainHop
  dsimp only
  split
  · rfl
  · refine List.foldlRecOn (motive := fun acc : State × List Nat => acc.1.regs = s.regs) _ _ rfl fun acc same x _ => ?_
    split
    · exact (freeBuffer_regs _ _ _).trans same
    · exact same

theorem replayHop_memberState (s : State) (p : Nat) : (s.replayHop p).memberState = s.memberState := by
  unfold State.replayHop
  dsimp only
  split
  · rfl
  · have sent : ∀ (l : List Frame) (u : State) (g : Nat), (l.foldl (fun s f => s.emit (.chain p { f with ackSeq := g })) u).regs = u.regs :=
      fun l u g => List.foldlRecOn (motive := fun t : State => t.regs = u.regs) l _ rfl fun _ same _ _ => same
    exact (congrArg (fieldGet · _ _) (reg_of_regs (sent _ _ _) _ _)).trans (get_sat_other s rfl ⟨rfl, rfl⟩ (by decide))

theorem memberState_of_regs {t : State} (same : t.regs = s.regs) : t.memberState = s.memberState :=
  congrArg (fieldGet · _ _) (reg_of_regs same _ _)

theorem takeAck_memberState (s : State) (p : Nat) (f : Frame) : (s.takeAck p f).memberState = s.memberState := by
  unfold State.takeAck
  dsimp only
  refine (memberState_of_regs (drainHop_regs _ p)).trans ?_
  split
  · exact replayHop_memberState _ p
  · rfl

theorem hopTook_memberState (s : State) (p typ : Nat) (f : Frame) : (s.hopTook p typ f).memberState = s.memberState := by
  unfold State.hopTook
  split
  · exact (memberState_of_regs (acknowledge_regs _ _ _ _)).trans (takeAck_memberState s p f)
  · exact takeAck_memberState s p f

theorem hopPassed_memberState (s : State) (p typ : Nat) (f : Frame) : (s.hopPassed p typ f).memberState = s.memberState := by
  unfold State.hopPassed
  split
  · exact (memberState_of_regs (forward_regs _ p f)).trans (hopTook_memberState s p typ f)
  · exact hopTook_memberState s p typ f

/-! ### Frames that a ring port receives -/

section port

variable (up : s.working = true) (ring : s.ringPort p = true) (link : s.linkUp p = true)
include up ring link

/-- HELLO and ACK are no frames of a sequence: the hop takes them itself (R329). -/
theorem receive_own {typ : Nat} (own : typ = ftHELLO ∨ typ = ftACK) (f0 : Frame) (k : State → Frame → State) :
    s.receive p typ f0 k = k (s.takeAck p (frameOf typ f0)) (frameOf typ f0) := by
  have unsequenced : sequenced typ = false := by
    obtain rfl | rfl := own <;> rfl
  rw [receive_eq, if_neg (by simp [up, ring, link]), if_neg (by simp [unsequenced]), if_pos own, State.hopTook, unsequenced]
  rfl

/-- A sequenced frame out of order is answered with a NAK (R329). -/
theorem receive_out_of_order {typ : Nat} {f0 f : Frame} (hf : f = frameOf typ f0) (seq : sequenced typ = true)
    (order : f.linkSeq ≠ seqNext ((s.takeAck p f).hop p).got) (k : State → Frame → State) :
    s.receive p typ f0 k = (s.takeAck p f).acknowledge p true 0 0 := by
  subst hf
  rw [receive_eq, if_neg (by simp [up, ring, link]), if_pos ⟨seq, order⟩]

/-- BAD_FRAME by what is wrong with the bytes (R328). -/
theorem exec_badFrame (header payload : List Byte) : exec (.badFrame p header payload) s = .next
    (if headerBad header then s else if payloadBad header payload then s.acknowledge p true 0 0
      else if !frameTypes.contains (leAt header 0 1) then s.sat SPOKE.BAD_FRAMES.COUNT else s) := by
  show execBadFrame p header payload s = _
  simp only [execBadFrame, up, ring, link, Bool.not_true, Bool.false_or, apply_ite Host.Outcome.next]

end port

theorem headerBad_iff (header : List Byte) :
    headerBad header = true ↔ header.length < 32 ∨ leAt header 28 4 ≠ (crc32c (header.take 28)).toNat := by
  simp [headerBad]

/-! ### The bytes of a frame (Table 14-3) -/

section bytes

variable (f : Frame)

/-- The header of a frame as it is sent: its fields, then HEADER_CRC over them. -/
def wireHeader (f : Frame) : List Byte := f.head ++ leBytes 4 (crc32c f.head).toNat

theorem head_length : f.head.length = 28 := by
  simp only [Frame.head, List.length_append, leBytes_length]

theorem wireHeader_length : (wireHeader f).length = 32 := by
  rw [wireHeader, List.length_append, head_length, leBytes_length]

theorem bytes_take_header : f.bytes.take 32 = wireHeader f := List.take_left' (wireHeader_length f)

theorem bytes_drop_header : f.bytes.drop 32 = f.body := List.drop_left' (wireHeader_length f)

theorem wireHeader_units : leAt (wireHeader f) 2 2 = f.units % 2 ^ 16 := by
  have split : wireHeader f = (leBytes 1 f.typ ++ leBytes 1 (f.vc + 4 * b01 f.nak)) ++ leBytes 2 f.units ++ (leBytes 1 f.src ++
      leBytes 1 f.dst ++ leBytes 1 f.hops ++ leBytes 1 f.ring ++ leBytes 4 f.linkSeq ++ leBytes 4 f.ackSeq ++ leBytes 2 f.credits ++
      leBytes 2 f.creditVc ++ leBytes 4 f.xid ++ leBytes 4 f.payloadCrc ++ leBytes 4 (crc32c f.head).toNat) := by
    simp only [wireHeader, Frame.head, List.append_assoc]
  rw [split, leAt_leBytes (by simp only [List.length_append, leBytes_length])]

theorem payloadCrc_lt : f.payloadCrc < 2 ^ 32 := by
  unfold Frame.payloadCrc
  split
  · exact Nat.two_pow_pos 32
  · exact (crc32c f.body).isLt

theorem wireHeader_payloadCrc : leAt (wireHeader f) 24 4 = f.payloadCrc := by
  rw [wireHeader, Frame.head, leAt_leBytes (by simp only [List.length_append, leBytes_length])]
  exact Nat.mod_eq_of_lt (payloadCrc_lt f)

/-- The header of a frame that the card sends keeps HEADER_CRC. -/
theorem headerBad_wireHeader : headerBad (wireHeader f) = false := by
  have crc : leAt (wireHeader f) 28 4 = (crc32c f.head).toNat := by
    rw [wireHeader, ← List.append_nil (_ ++ leBytes 4 _), leAt_leBytes (head_length f)]
    exact Nat.mod_eq_of_lt (crc32c f.head).isLt
  have fields : (wireHeader f).take 28 = f.head := List.take_left' (head_length f)
  simp [headerBad, wireHeader_length, crc, fields]

/-- Its payload keeps PAYLOAD_CRC, where LENGTH holds the count of its units. -/
theorem payloadBad_wireHeader (fits : f.units < 2 ^ 16) : payloadBad (wireHeader f) f.body = false := by
  have length : f.body.length = 64 * f.units := padTo_length _ _
  have whole : f.body.take (64 * f.units) = f.body := List.take_of_length_le (Nat.le_of_eq length)
  have empty : (64 * f.units = 0) = (f.units = 0) := propext (by omega)
  unfold payloadBad
  simp only [wireHeader_units, wireHeader_payloadCrc, Nat.mod_eq_of_lt fits, length, whole, Frame.payloadCrc, empty, Nat.lt_irrefl,
    decide_false, bne_self_eq_false, Bool.or_self]

end bytes

/-! ### Replay -/

theorem exec_replayTimeout (up : s.working = true) (ring : s.ringPort p = true) : exec (.replayTimeout p) s = .next (s.replayHop p) := by
  show execReplayTimeout p s = _
  rw [execReplayTimeout, up, ring]
  rfl

/-- Settles O40: HELLO, ACK and every frame row by the hop's rules of `receive_eq`, bad bytes by `exec_badFrame`, the bytes sent by their fields. -/
theorem hops : Obligations.Hops := by
  intro s p up ring link
  refine ⟨fun f0 f hf => ?hello, fun f0 f hf => ?ack, fun c typ f0 f row hf => ?rows, fun hd pl => ?bad, fun f units => ?bytes,
    fun none => ?nothing, fun some => ?replay⟩
  case hello =>
    subst hf
    exact congrArg Host.Outcome.next (receive_own up ring link (.inl rfl) f0 _)
  case ack =>
    subst hf
    exact congrArg Host.Outcome.next (receive_own up ring link (.inr rfl) f0 _)
  case rows =>
    obtain ⟨⟨k, runs⟩, noHello, noAck⟩ := frameRow_exec row
    refine ⟨fun seq order => ?_, fun order away round alone => ?_⟩
    · rw [runs, receive_out_of_order up ring link hf seq order]
    · have others : f.src ≠ s.me → f.dst ≠ s.me ∧ f.dst ≠ 0xFF := fun other => ⟨away, round.resolve_right other⟩
      have beats : f.src = s.me → typ = ftBEAT → (s.hopPassed p typ f).memberState ≠ 1 := fun own _ =>
        (hopPassed_memberState s p typ f).symm ▸ alone own
      rw [runs, passes up ring link hf noHello noAck order others beats, State.hopPassed]
      refine ⟨fun far => ?_, fun last => ?_⟩
      · rw [if_pos ⟨away, far⟩]
      · rw [if_neg fun goes => Nat.ne_of_gt goes.2 last]
  case bad =>
    rw [exec_badFrame up ring link]
    refine ⟨headerBad_iff hd, fun bad => ?_, fun sound => ⟨fun bad => ?_, fun whole unknown => ?_, fun whole known => ?_⟩⟩
    · rw [if_pos bad]
    · rw [sound, bad]
      rfl
    · rw [sound, whole, unknown]
      rfl
    · rw [sound, whole, known]
      rfl
  case bytes =>
    rw [bytes_take_header, bytes_drop_header]
    exact ⟨headerBad_wireHeader f, payloadBad_wireHeader f (by omega)⟩
  case nothing =>
    rw [exec_replayTimeout up ring, State.replayHop, if_pos (.inl none)]
  case replay =>
    have sends : ¬ ((s.hop p).replay = [] ∨ (!s.linkUp p) = true) := by simp [some, link]
    rw [exec_replayTimeout up ring, State.replayHop, if_neg sends]
    obtain ⟨out, chain⟩ := replay_out p (s.hop p).got (s.hop p).replay (s.sat SPOKE.REPLAYS.COUNT)
    exact ⟨_, rfl, chain, out⟩

end Sys2Proof.Machine
end

section
/-! Requests of other members (R334): an XID that is new is acted on, one that is repeated is answered as before. -/

namespace Sys2Proof.Machine

variable {t : State} {f : Frame}

/-- A request whose XID its source has not used yet is acted on (R334). -/
theorem once_new (fresh : (t.chain.seen.find? fun y => y.1 = f.src ∧ y.2.1 = f.xid) = none) (k : State → State) : t.once f k = k t := by
  unfold State.once
  rw [fresh]

/-- A request whose XID its source has used is answered as before, and not acted on (R334). -/
theorem once_repeated {y : Nat × Nat × List Frame} (seen : (t.chain.seen.find? fun y => y.1 = f.src ∧ y.2.1 = f.xid) = some y)
    (k : State → State) : t.once f k = y.2.2.foldl (fun s g => s.sendTo 0 g.typ f.src f.xid g.payload) t := by
  unfold State.once
  rw [seen]

end Sys2Proof.Machine
end

section
/-! What a RESHARD sends and gets (R334, R343, R344): RESHARD_OPEN and its answer, the segments of a page, PLACED, and transactions that go
unanswered. -/

namespace Sys2Proof.Machine

variable {s t : State} {p : Nat} {f0 f : Frame}

/-! ### RESHARD_OPEN and its answer (R343) -/

theorem exec_reshardOpen_arrives (h : s.Arrives p ftRESHARD_OPEN f0 f t) : exec (.reshardOpen p f0) s = .next (t.takeOpen f) :=
  congrArg Host.Outcome.next (arrives h (by decide) (by decide) _)

theorem takeOpen_refused (fresh : (t.chain.seen.find? fun y => y.1 = f.src ∧ y.2.1 = f.xid) = none) {c : Nat}
    (cause : t.openCause f = (c, none)) : t.takeOpen f = t.answer f ftRESHARD_ANSWER (leBytes 1 c) := by
  rw [State.takeOpen, once_new fresh, cause]

theorem takeOpen_named (fresh : (t.chain.seen.find? fun y => y.1 = f.src ∧ y.2.1 = f.xid) = none) {c tid : Nat} {q : Seq} {pl : EpochPlan}
    (cause : t.openCause f = (c, some (tid, q))) (plan : pl = t.plan_ tid (f.b 6 4)) : t.takeOpen f =
      (t.setPlan { pl with lens := kvSet pl.lens q.idx (max (f.b 10 4) ((kvFind pl.lens q.idx).getD 0)) }).answer f ftRESHARD_ANSWER
        (leBytes 1 c) := by
  rw [State.takeOpen, once_new fresh, cause, plan]

theorem exec_reshardAnswer_arrives (h : s.Arrives p ftRESHARD_ANSWER f0 f t) :
    exec (.reshardAnswer p f0) s = .next (t.takeOpenAnswer f.xid (f.b 0 1)) :=
  congrArg Host.Outcome.next (arrives h (by decide) (by decide) _)

/-- The answer to a RESHARD_OPEN: acceptance takes its member off those that are asked, a refusal ends the RESHARD (R343). -/
theorem takeOpenAnswer_asked {xid : Nat} {x : Txn} (asked : t.txn xid = some x) (typ : x.typ = ftRESHARD_OPEN) (cause : Nat) :
    t.takeOpenAnswer xid cause =
      if cause = 0 then (t.endTxn xid).updWork x.work fun w => w.setResh fun r => { r with opening := r.opening.filter (·.1 ≠ xid) }
      else ((t.endTxn xid).setChain fun c => { c with txns := c.txns.filter fun y => ¬ (y.typ = ftRESHARD_OPEN ∧ y.work = x.work) }).latch
        x.work stPARTIAL dtTARGET_REFUSED 0 := by
  simp only [State.takeOpenAnswer, asked]
  rw [if_neg (not_not_intro typ)]

/-! ### The segments of a page (R344) -/

theorem exec_pageSeg_arrives (h : s.Arrives p ftPAGE_SEG f0 f t) : exec (.pageSeg p f0) s = .next (t.takeSeg f) :=
  congrArg Host.Outcome.next (arrives h (by decide) (by decide) _)

/-- A gathered page is the one that a PAGE_SEG is of. -/
def ofPage (f : Frame) (g : SegBuf) : Bool := g.src == f.src && g.sid == f.b 0 4 && g.page == f.b 4 4 * 65536 + f.b 8 2

/-- The page of a PAGE_SEG that brings segment 0, with that segment gathered. -/
def firstSegment (f : Frame) : SegBuf :=
  ⟨f.src, f.b 0 4, f.b 4 4 * 65536 + f.b 8 2, f.xid, f.b 15 1, [(0, padTo (min 16384 (f.b 16 2 * 64)) (f.payload.drop 64))]⟩

/-- Segment 0 of a page of which nothing is gathered: a page of one segment is staged, any other is gathered from now. -/
theorem takeSeg_first (fresh : (t.chain.seen.find? fun y => y.1 = f.src ∧ y.2.1 = f.xid) = none) (first : f.b 14 1 = 0)
    (empty : t.chain.segs.find? (ofPage f) = none) : t.takeSeg f =
      if 1 < f.b 15 1 then t.setChain fun c => { c with segs := (c.segs.filter fun g => !ofPage f g) ++ [firstSegment f] }
      else (t.setChain fun c => { c with segs := c.segs.filter fun g => !ofPage f g }).stagePage f f.xid
        (padTo (min 16384 (f.b 16 2 * 64)) (f.payload.drop 64)) := by
  have gathers : (t.chain.segs.find? fun g => g.src == f.src && g.sid == f.b 0 4 && g.page == f.b 4 4 * 65536 + f.b 8 2) = none := empty
  rw [State.takeSeg, once_new fresh]
  simp only [gathers, first, Option.filter_none, Option.getD_none, Nat.mul_zero, Nat.sub_zero, if_true]
  rw [show ∀ v : List Byte, kvSet [] 0 v = [(0, v)] from fun _ => rfl]
  simp only [List.length_singleton, List.flatMap_cons, List.flatMap_nil, List.append_nil]
  rfl

/-! ### PLACED (R344) -/

theorem exec_placed_arrives (h : s.Arrives p ftPLACED f0 f t) : exec (.placed p f0) s = .next (t.takePlaced (f.b 0 4)) :=
  congrArg Host.Outcome.next (arrives h (by decide) (by decide) _)

theorem takePlaced_none {xid : Nat} (none : t.txn xid = none) : t.takePlaced xid = t := by
  rw [State.takePlaced, none]

/-- The work of a RESHARD with a page placed: its position ends, unless its chunk still runs. -/
def Work.pagePlaced (w : Work) (xid : Nat) : Work :=
  match w.resh.unplaced.find? (·.1 = xid) with
  | none => w
  | some x =>
    if w.run.any (·.idx = x.2.1) then w.setResh fun r => { r with unplaced := r.unplaced.filter (·.1 ≠ xid) }
    else (w.setResh fun r => { r with unplaced := r.unplaced.filter (·.1 ≠ xid) }).endAt x.2.1

theorem takePlaced_sent {xid : Nat} {x : Txn} (sent : t.txn xid = some x) (typ : x.typ = ftPAGE_SEG) :
    t.takePlaced xid = ((t.endTxn xid).updWork x.work fun w => w.pagePlaced xid).settleReshard x.work := by
  simp only [State.takePlaced, sent]
  rw [if_neg (not_not_intro typ)]
  rfl

/-! ### Transactions that go unanswered (R334, Table 14-5) -/

theorem exec_xferWaitExpiry {xid : Nat} {x : Txn} (up : s.working = true) (waits : s.txn xid = some x) :
    exec (.xferWaitExpiry xid) s = .next (if s.txnDue x then s.txnTurn x else s) := by
  show execXferWaitExpiry xid s = _
  simp only [execXferWaitExpiry, waits, up, Bool.true_and]

/-- What the failure of a transaction ends, by its type. -/
theorem failTxn_eq (s : State) (x : Txn) :
    (x.typ = ftRESHARD_OPEN → s.failTxn x = s.takeOpenAnswer x.xid 1) ∧
    (x.typ = ftPAGE_SEG → s.failTxn x = (s.endTxn x.xid).sendLost x.work x.member) ∧
    (x.typ = ftEPOCH_COMMIT → s.failTxn x = (s.endTxn x.xid).countAck x.work x.member 2) ∧
    (x.typ = ftMIRROR_WRITE → s.failTxn x = (s.endTxn x.xid).partnerLost) ∧
    (x.typ = ftEPOCH_PREPARE → s.failTxn x = s.endTxn x.xid) := by
  unfold State.failTxn
  refine ⟨fun typ => ?_, fun typ => ?_, fun typ => ?_, fun typ => ?_, fun typ => ?_⟩
  all_goals rw [typ]; rfl

/-- Settles O42: each frame by what the card takes of one that arrives, an unanswered transaction by its turn. -/
theorem reshardTransfers : Obligations.ReshardTransfers := by
  intro s p f0 f t
  refine ⟨fun arr => ?opens, fun arr x asked typ => ?answered, fun arr => ?segment, fun arr => ?placed, fun xid x up waits => ?unanswered⟩
  case opens =>
    rw [exec_reshardOpen_arrives arr]
    refine ⟨fun y seen => ?_, fun c fresh cause => ?_, fun c tid q pl fresh cause plan => ?_⟩
    · rw [State.takeOpen, once_repeated seen]
    · rw [takeOpen_refused fresh cause]
    · rw [takeOpen_named fresh cause plan]
  case answered =>
    rw [exec_reshardAnswer_arrives arr, takeOpenAnswer_asked asked typ]
    refine ⟨fun accepted => ?_, fun refused => ?_⟩
    · rw [if_pos accepted]
    · rw [if_neg refused]
  case segment =>
    rw [exec_pageSeg_arrives arr]
    refine ⟨fun y seen => ?_, fun fresh first one small empty => ?_, fun fresh first more empty => ?_⟩
    · rw [State.takeSeg, once_repeated seen]
    · rw [takeSeg_first fresh first empty, if_neg (by omega), Nat.min_eq_right small]
      rfl
    · rw [takeSeg_first fresh first empty, if_pos (Nat.lt_of_succ_le more)]
      exact ⟨_, rfl, rfl, rfl, List.mem_append_right _ (List.mem_singleton_self _)⟩
  case placed =>
    rw [exec_placed_arrives arr]
    refine ⟨fun none => ?_, fun x _ _ sent typ _ _ => ⟨_, congrArg Host.Outcome.next (takePlaced_sent sent typ), rfl⟩⟩
    rw [takePlaced_none none]
  case unanswered =>
    obtain ⟨opens, page, commit, mirror, prepare⟩ := failTxn_eq s x
    have last (due : s.txnDue x = true) (again : x.again = true) : exec (.xferWaitExpiry xid) s = .next (s.failTxn x) := by
      rw [exec_xferWaitExpiry up waits, if_pos due, State.txnTurn, if_pos again]
    refine ⟨fun early => ?_, fun due first => ?_, fun due again => ?_⟩
    · rw [exec_xferWaitExpiry up waits, if_neg (by simp [early])]
    · rw [exec_xferWaitExpiry up waits, if_pos due, State.txnTurn, if_neg (by simp [first])]
    · rw [last due again]
      exact ⟨fun typ => congrArg _ (opens typ), fun typ => congrArg _ (page typ), fun typ => congrArg _ (commit typ),
        fun typ => congrArg _ (mirror typ), fun typ => congrArg _ (prepare typ)⟩

end Sys2Proof.Machine
end

section
/-! The agreement of an epoch (R345, R346): PREPAREs and READYs, the ADVANCE's deadline, COMMITs and their acknowledgements. -/

namespace Sys2Proof.Machine

variable {s t : State} {p : Nat} {f0 f : Frame}

/-! ### PREPARE and READY -/

theorem exec_epochPrepare_arrives (h : s.Arrives p ftEPOCH_PREPARE f0 f t) : exec (.epochPrepare p f0) s = .next (t.takePrepare f) :=
  congrArg Host.Outcome.next (arrives h (by decide) (by decide) _)

theorem exec_epochReadySend (up : s.working = true) (tid : Nat) : exec (.epochReadySend tid) s = .next (s.sendReadies tid) :=
  congrArg Host.Outcome.next (if_pos up)

theorem exec_epochReady_arrives (h : s.Arrives p ftEPOCH_READY f0 f t) : exec (.epochReady p f0) s = .next (t.takeReady f) :=
  congrArg Host.Outcome.next (arrives h (by decide) (by decide) _)

theorem takeReady_none (none : t.txn f.xid = none) : t.takeReady f = t := by
  rw [State.takeReady, none]

theorem takeReady_asked {x : Txn} (asked : t.txn f.xid = some x) (typ : x.typ = ftEPOCH_PREPARE) :
    t.takeReady f = (t.endTxn f.xid).countReady x.work f.src := by
  simp only [State.takeReady, asked, typ, ne_eq, not_true_eq_false, if_false]

/-! ### The deadline of an ADVANCE -/

theorem exec_advanceReadyDeadline {work : Nat} {w : Work} (up : s.working = true) (found : s.work work = some w) :
    exec (.advanceReadyDeadline work) s = .next (s.advanceTurn w 2) := by
  show execAdvanceReadyDeadline work s = _
  simp only [execAdvanceReadyDeadline, found, up, if_true]

/-- An ADVANCE that has not committed: it commits, runs out of time, or waits (R346). -/
theorem advanceTurn_open {w : Work} (runs : w.phase = 1) (advance : w.isAdvance = true) (uncommitted : w.adv.committed = false) (lead : Nat) :
    s.advanceTurn w lead = if w.allReady ∧ s.stroke + lead ≤ rsSwitch w.d then s.sendCommits w
      else if rsSwitch w.d ≤ s.stroke + 1 then
        (s.setChain fun c => { c with txns := c.txns.filter (·.work ≠ w.id) }).latch w.id stPARTIAL dtNOT_READY 0
      else s := by
  rw [State.advanceTurn, if_neg (by simp [runs, advance, uncommitted])]

/-! ### COMMIT and COMMIT_ACK -/

theorem exec_epochCommit_arrives (h : s.Arrives p ftEPOCH_COMMIT f0 f t) : exec (.epochCommit p f0) s = .next (t.takeCommit f) :=
  congrArg Host.Outcome.next (arrives h (by decide) (by decide) _)

/-- A COMMIT that is new is answered with the outcome recorded for it (R346). -/
theorem takeCommit_recorded (fresh : (t.chain.seen.find? fun y => y.1 = f.src ∧ y.2.1 = f.xid) = none) {u : State} {o : Nat}
    (recorded : t.recordCommit (f.b 0 2) (f.b 2 4) = (u, o)) : t.takeCommit f =
      u.answer f ftCOMMIT_ACK (leBytes 2 (f.b 0 2) ++ leBytes 4 (f.b 2 4) ++ leBytes 1 (b01 (o = 1))) := by
  rw [State.takeCommit, once_new fresh, recorded]

section record

variable {tid e : Nat}

theorem recordCommit_already (already : t.epochOf tid = e) : t.recordCommit tid e = (t, 3) := if_pos already

theorem recordCommit_inTime (other : t.epochOf tid ≠ e) (inTime : t.stroke < (t.plan_ tid e).switchAt) :
    t.recordCommit tid e = (t.setPlan { t.plan_ tid e with commit := some (t.plan_ tid e).switchAt }, 0) := by
  rw [State.recordCommit, if_neg other, if_pos inTime]

theorem recordCommit_late (other : t.epochOf tid ≠ e) (late : (t.plan_ tid e).switchAt ≤ t.stroke) : t.recordCommit tid e =
    ((t.setPlan { t.plan_ tid e with commit := some (t.stroke + 1) }).sat SPOKE.LATE_SWITCHES.COUNT, 1) := by
  rw [State.recordCommit, if_neg other, if_neg (Nat.not_lt.2 late)]

end record

theorem exec_commitAck_arrives (h : s.Arrives p ftCOMMIT_ACK f0 f t) : exec (.commitAck p f0) s = .next (t.takeCommitAck f) :=
  congrArg Host.Outcome.next (arrives h (by decide) (by decide) _)

theorem takeCommitAck_none (none : t.txn f.xid = none) : t.takeCommitAck f = t := by
  rw [State.takeCommitAck, none]

theorem takeCommitAck_asked {x : Txn} (asked : t.txn f.xid = some x) (typ : x.typ = ftEPOCH_COMMIT) :
    t.takeCommitAck f = (t.endTxn f.xid).nextFree.countAck x.work f.src (t.ackOutcome f) := by
  simp only [State.takeCommitAck, asked, typ, ne_eq, not_true_eq_false, if_false]

/-- An acknowledgement that says 1 is of a late switch (R346). -/
theorem ackOutcome_late (late : bits (f.b 6 1) 0 1 = 1) : t.ackOutcome f = 1 := if_pos late

/-- One that says 0 is of a switch at X or before it: which, is a free value (log 132). -/
theorem ackOutcome_inTime (inTime : bits (f.b 6 1) 0 1 = 0) : t.ackOutcome f = 0 ∨ t.ackOutcome f = 3 := by
  rw [State.ackOutcome, if_neg (by rw [inTime]; decide)]
  split
  · exact .inr rfl
  · exact .inl rfl

/-- Settles O43: each frame by what the card takes of one that arrives, the deadline and the COMMIT by their cases. -/
theorem epochAgreement : Obligations.EpochAgreement := by
  intro s p f0 f t
  refine ⟨fun arr fresh => ?prepare, fun tid up => exec_epochReadySend up tid, fun arr => ?ready,
    fun work w up found runs advance uncommitted => ?deadline, fun pl arr fresh hpl => ?commit, fun arr => ?ack⟩
  case prepare =>
    rw [exec_epochPrepare_arrives arr, State.takePrepare, once_new fresh]
    refine ⟨fun unknown => ?_, fun pl known hpl => ?_⟩
    · rw [if_pos unknown]
    · rw [if_neg known, hpl]
  case ready =>
    rw [exec_epochReady_arrives arr]
    refine ⟨fun none => ?_, fun x asked typ => ?_⟩
    · rw [takeReady_none none]
    · rw [takeReady_asked asked typ, State.countReady]
  case deadline =>
    rw [exec_advanceReadyDeadline up found, advanceTurn_open runs advance uncommitted]
    refine ⟨fun ready early => ?_, fun late => ?_, fun waits early => ?_⟩
    · rw [if_pos ⟨ready, early⟩]
    · rw [if_neg (by omega), if_pos late]
    · rw [if_neg (by simp [waits]), if_neg (by omega)]
  case commit =>
    subst hpl
    rw [exec_epochCommit_arrives arr]
    refine ⟨fun already => ?_, fun other inTime => ?_, fun other late => ?_⟩
    · rw [takeCommit_recorded fresh (recordCommit_already already)]
      rfl
    · rw [takeCommit_recorded fresh (recordCommit_inTime other inTime)]
      rfl
    · rw [takeCommit_recorded fresh (recordCommit_late other late)]
      rfl
  case ack =>
    rw [exec_commitAck_arrives arr]
    refine ⟨fun none => ?_, ackOutcome_late, ackOutcome_inTime, fun x u asked typ hu => ?_⟩
    · rw [takeCommitAck_none none]
    · rw [takeCommitAck_asked asked typ, hu]
      rfl

end Sys2Proof.Machine
end

section
/-! Links and Freewheel pairs (R324, R325, R333, R349, R505): a port that loses its link or gets one, the hold of its frames, and the writes that
open and close a pair. -/

namespace Sys2Proof.Machine

open Sys2Proof.Laws.Chain

variable {s : State} {p : Nat}

/-! ### A link goes down, and its hold runs out (R333) -/

theorem exec_linkDown (up : s.working = true) (low : p < 8) (link : s.linkUp p = true) : exec (.linkDown p) s = .next (s.loseLink p) := by
  show execLinkDown p s = _
  rw [execLinkDown, if_pos (by simp [up, low, link])]

/-- What a port without its link does, by its mode (R324, R333). -/
theorem loseLink_eq {d : State} (down : d = (s.put SPOKE.PORT_STATUS.LINK_UP 0 p).fault clsLINK p 0) : s.loseLink p =
    if s.portMode p = 2 then d.setHop { d.hop p with held := some d.stroke } else if s.portMode p = 1 then d.portDown p else d := by
  subst down
  rfl

theorem exec_linkHoldExpiry (up : s.working = true) : exec (.linkHoldExpiry p) s = .next (if s.holdDue p then s.endHold p else s) := by
  show execLinkHoldExpiry p s = _
  rw [execLinkHoldExpiry, up, Bool.true_and]

theorem holdDue_over {t0 : Nat} (held : (s.hop p).held = some t0) (link : s.linkUp p = false)
    (late : t0 + s.get SPOKE.LINK_HOLD.STROKES < s.stroke) : s.holdDue p = true := by
  simp [State.holdDue, held, link, late]

theorem holdDue_none (idle : (s.hop p).held = none ∨ s.linkUp p = true) : s.holdDue p = false := by
  unfold State.holdDue
  obtain held | link := idle
  · rw [held]
  · rw [link]
    cases (s.hop p).held <;> rfl

/-! ### A link comes up (R333, R505) -/

theorem laserOn_iff : s.laserOn p = true ↔ s.pw.held = false ∧ s.phase ≠ phROM ∧ s.phase ≠ phFAULT ∧ s.portMode p ≠ 0 := by
  simp [State.laserOn, and_assoc]

theorem exec_linkUp_dark (dark : s.laserOn p = false) (m : Nat) : exec (.linkUp p m) s = .next s := by
  show execLinkUp p m s = _
  rw [execLinkUp, if_pos (by simp [dark])]

theorem exec_linkUp_lit (up : s.working = true) (low : p < 8) (link : s.linkUp p = false) (pair : s.pairState (p / 2) = 2)
    (lit : s.laserOn p = true) {u : State} (hu : u = s.put SPOKE.PORT_STATUS.LINK_UP 1 p) (m : Nat) :
    exec (.linkUp p m) s = .next (if s.portMode p = 2 then u.relink p m else u.portEvent 0x01 p 0) := by
  show execLinkUp p m s = _
  rw [execLinkUp, if_neg (by simp [up, low, link, pair, lit]), hu]

/-- Back to the same member within the hold: what is owed is paid, and the hop replays (R329, R333). -/
theorem relink_same {m : Nat} (held : (s.hop p).held.isSome = true) (same : (s.hop p).member = some m) :
    s.relink p m = (((s.setHop { s.hop p with held := none }).payOwed p).replayHop p).drainHop p := if_pos ⟨held, same⟩

/-- Any other link begins a new hop, with the frames that still have a way to go (R329, R333). -/
theorem relink_new {m : Nat} (new : (s.hop p).held = none ∨ (s.hop p).member ≠ some m) {keep : List (Option Nat × Frame)} {v : State}
    (hkeep : keep = (s.hop p).kept.filter (fun x => (s.hop p).member = some m ∨ (s.hop p).member ≠ some x.2.dst) ++ s.strandedAt (otherPort p))
    (hv : v = if s.strandedAt (otherPort p) = [] then s else s.setHop { s.hop (otherPort p) with queue := [] }) :
    s.relink p m = ((v.setHop { freshHop p with member := some m, queue := keep }).put SPOKE.PORT_STATUS.PARTNER m p).drainHop p := by
  have anew : ¬ ((s.hop p).held.isSome = true ∧ (s.hop p).member = some m) := by
    rintro ⟨held, same⟩
    obtain none | other := new
    · rw [none] at held
      cases held
    · exact other same
  have goes (x : Option Nat × Frame) : (!((s.hop p).member != some m && (s.hop p).member == some x.2.dst)) =
      decide ((s.hop p).member = some m ∨ (s.hop p).member ≠ some x.2.dst) := by
    rw [Bool.eq_iff_iff]
    simp
  subst hkeep hv
  rw [State.relink, if_neg anew]
  simp only [goes]

/-! ### Freewheel pairs (R324, R325, R349) -/

theorem freewheelCtrl_control : ControlReg SPOKE.FREEWHEEL_CTRL.off fwR :=
  ⟨by decide, by decide, fun _ _ => rfl, fun _ => rfl, by decide, by decide⟩

theorem freewheelCtrl_phase (ph : s.serving = true) (f : FieldRow) : s.phaseOk SPOKE.FREEWHEEL_CTRL.off f = true := by
  unfold State.phaseOk
  rcases serving_cases ph with h | h <;> rw [h] <;> rfl

/-- The bit of FREEWHEEL_CTRL that is written, and no other, reads 1. -/
theorem fieldGet_bit {k : Nat} (low : k < 32) (j : Nat) : fieldGet (BitVec.ofNat 32 (2 ^ k)) j 1 = if j = k then 1 else 0 := by
  apply Nat.eq_of_testBit_eq
  intro i
  rw [testBit_fieldGet, getLsbD_bit _ _ low]
  cases i with
  | zero => by_cases same : j = k <;> simp [same]
  | succ i => split <;> simp [Nat.testBit_succ]

theorem eq_of_bit_eq_one {j k : Nat} (one : (if j = k then 1 else 0) = 1) : j = k :=
  Decidable.byContradiction fun other => Nat.zero_ne_one ((if_neg other).symm.trans one)

theorem freewheel_fieldBits {k : Nat} (low : k < 8) : fwR.fieldBits (BitVec.ofNat 32 (2 ^ k)) = BitVec.ofNat 32 (2 ^ k) := by
  revert k
  decide

theorem freewheel_toNat {k : Nat} (low : k < 8) : (BitVec.ofNat 32 (2 ^ k)).toNat = 2 ^ k := by
  revert k
  decide

/-- A write of FREEWHEEL_CTRL is refused for a pair that it cannot open, or cannot close (R324, R325, R349). -/
theorem hFreewheelCtrl_chk (s : State) (old v : Word) : hFreewheelCtrl.chk s 0 old v = true ↔ ∃ j < 4,
    (fieldGet v j 1 = 1 ∧ (s.pairState j ≠ 0 ∨ s.portMode (2 * j) = 0 ∨ s.portMode (2 * j) ≠ s.portMode (2 * j + 1))) ∨
      (fieldGet v (4 + j) 1 = 1 ∧ s.pairState j ≠ 2) := by
  simp only [hFreewheelCtrl, List.any_eq_true, List.mem_range, Bool.or_eq_true, Bool.and_eq_true, beq_iff_eq, bne_iff_ne, or_assoc]

section pair

variable {i : Nat} (low : i < 4)
include low

theorem hFreewheelCtrl_chk_open (old : Word) : hFreewheelCtrl.chk s 0 old (BitVec.ofNat 32 (2 ^ i)) = true ↔
    s.pairState i ≠ 0 ∨ s.portMode (2 * i) ≠ s.portMode (2 * i + 1) ∨ s.portMode (2 * i) = 0 := by
  simp only [hFreewheelCtrl_chk, fieldGet_bit (show i < 32 by omega)]
  constructor
  · rintro ⟨j, -, ⟨own, bad⟩ | ⟨own, -⟩⟩
    · obtain rfl : j = i := eq_of_bit_eq_one own
      exact bad.imp_right Or.symm
    · exact absurd own (by rw [if_neg (by omega)]; decide)
  · exact fun bad => ⟨i, low, .inl ⟨if_pos rfl, bad.imp_right Or.symm⟩⟩

theorem hFreewheelCtrl_chk_close (old : Word) :
    hFreewheelCtrl.chk s 0 old (BitVec.ofNat 32 (2 ^ (4 + i))) = true ↔ s.pairState i ≠ 2 := by
  simp only [hFreewheelCtrl_chk, fieldGet_bit (show 4 + i < 32 by omega)]
  constructor
  · rintro ⟨j, hj, ⟨own, -⟩ | ⟨own, bad⟩⟩
    · exact absurd own (by rw [if_neg (by omega)]; decide)
    · obtain rfl : j = i := Nat.add_left_cancel (eq_of_bit_eq_one own)
      exact bad
  · exact fun bad => ⟨i, low, .inr ⟨if_pos rfl, bad⟩⟩

end pair

theorem hFreewheelCtrl_act_open : ∀ i < 4, hFreewheelCtrl.act s 0 (BitVec.ofNat 32 (2 ^ i)) = s.setPairSt i 1
  | 0, _ => rfl
  | 1, _ => rfl
  | 2, _ => rfl
  | 3, _ => rfl

theorem hFreewheelCtrl_act_close : ∀ i < 4, hFreewheelCtrl.act s 0 (BitVec.ofNat 32 (2 ^ (4 + i))) = s.closePair i
  | 0, _ => rfl
  | 1, _ => rfl
  | 2, _ => rfl
  | 3, _ => rfl

section write

variable (wr : s.writable = true) (ph : s.serving = true) {i : Nat} (low : i < 4)
include wr ph low

theorem exec_freewheelOpen_takes (canon : s.canonical = true) (closed : s.pairState i = 0)
    (agree : s.portMode (2 * i) = s.portMode (2 * i + 1)) (on : s.portMode (2 * i) ≠ 0) : exec (.freewheelOpen i) s =
      .next (s.recorded (s.setPairSt i 1) SPOKE.FREEWHEEL_CTRL.off 0 (BitVec.ofNat 32 (2 ^ i))) := by
  have chk : hFreewheelCtrl.chk s 0 (s.reg SPOKE.FREEWHEEL_CTRL.off 0) (BitVec.ofNat 32 (2 ^ i)) = false :=
    Bool.eq_false_iff.2 fun bad => by simpa [closed, agree, agree ▸ on] using (hFreewheelCtrl_chk_open low _).1 bad
  show execFreewheelOpen i s = _
  rw [execFreewheelOpen, Nat.mod_eq_of_lt low, freewheelCtrl_control.takes wr (fun f _ => freewheelCtrl_phase ph f) (i := 0) rfl canon
    hFreewheelCtrl rfl (freewheel_fieldBits (by omega)) chk (hFreewheelCtrl_act_open i low)]

theorem exec_freewheelOpen_refused
    (bad : s.pairState i ≠ 0 ∨ s.portMode (2 * i) ≠ s.portMode (2 * i + 1) ∨ s.portMode (2 * i) = 0) :
    exec (.freewheelOpen i) s = .next (s.illegal 0 causeState SPOKE.FREEWHEEL_CTRL.off (2 ^ i)) := by
  show execFreewheelOpen i s = _
  rw [execFreewheelOpen, Nat.mod_eq_of_lt low, freewheelCtrl_control.refuses wr (fun f _ => freewheelCtrl_phase ph f) rfl hFreewheelCtrl
    (freewheel_fieldBits (by omega)) ((hFreewheelCtrl_chk_open low _).2 bad), freewheel_toNat (by omega)]

theorem exec_freewheelClose_takes (canon : s.canonical = true) (opened : s.pairState i = 2) : exec (.freewheelClose i) s =
    .next (s.recorded (s.closePair i) SPOKE.FREEWHEEL_CTRL.off 0 (BitVec.ofNat 32 (2 ^ (4 + i)))) := by
  have chk : hFreewheelCtrl.chk s 0 (s.reg SPOKE.FREEWHEEL_CTRL.off 0) (BitVec.ofNat 32 (2 ^ (4 + i))) = false :=
    Bool.eq_false_iff.2 fun bad => (hFreewheelCtrl_chk_close low _).1 bad opened
  show execFreewheelClose i s = _
  rw [execFreewheelClose, Nat.mod_eq_of_lt low, freewheelCtrl_control.takes wr (fun f _ => freewheelCtrl_phase ph f) (i := 0) rfl canon
    hFreewheelCtrl rfl (freewheel_fieldBits (by omega)) chk (hFreewheelCtrl_act_close i low)]

theorem exec_freewheelClose_refused (bad : s.pairState i ≠ 2) :
    exec (.freewheelClose i) s = .next (s.illegal 0 causeState SPOKE.FREEWHEEL_CTRL.off (2 ^ (4 + i))) := by
  show execFreewheelClose i s = _
  rw [execFreewheelClose, Nat.mod_eq_of_lt low, freewheelCtrl_control.refuses wr (fun f _ => freewheelCtrl_phase ph f) rfl hFreewheelCtrl
    (freewheel_fieldBits (by omega)) ((hFreewheelCtrl_chk_close low _).2 bad), freewheel_toNat (by omega)]

end write

/-- A pair's moving state ends in the state that it moves to (R325). -/
theorem exec_freewheelSwitchDone {i : Nat} (low : i < 4) : exec (.freewheelSwitchDone i) s = .next
    (if s.pairState i = 1 then s.setPairSt i 2 else if s.pairState i = 3 then s.setPairSt i 0 else s) := by
  show execFreewheelSwitchDone i s = _
  rw [execFreewheelSwitchDone, Nat.mod_eq_of_lt low]

theorem setPairSt_pairState (canon : s.canonical = true) {i v : Nat} (low : i < 4) (state : v < 4) : (s.setPairSt i v).pairState i = v :=
  (get_put_same s (canonical_regs canon) _ v 0 (show 2 * i + 2 ≤ 32 by omega)).trans (Nat.mod_eq_of_lt state)

/-- Settles O44: links by what their events do in a card that works, the pairs' writes by the rules of FREEWHEEL_CTRL. -/
theorem linksAndFreewheels : Obligations.LinksAndFreewheels := by
  intro s
  refine ⟨fun p d up low link hd => ?down, fun p up => ?hold, fun p m dark => exec_linkUp_dark dark m, fun p => laserOn_iff,
    fun p m u up low link pair lit hu => ?up, fun i canon wr ph low => ?pairs⟩
  case down =>
    rw [exec_linkDown up low link, loseLink_eq hd]
    refine ⟨fun ring => ?_, fun ether => ?_, fun other off => ?_⟩
    · rw [if_pos ring]
    · rw [if_neg (by omega), if_pos ether]
    · rw [if_neg off, if_neg other]
  case hold =>
    rw [exec_linkHoldExpiry up]
    refine ⟨fun t0 held link late => ?_, fun idle => ?_⟩
    · rw [if_pos (holdDue_over held link late)]
      rfl
    · rw [holdDue_none idle]
      rfl
  case up =>
    rw [exec_linkUp_lit up low link pair lit hu]
    refine ⟨fun other => ?_, fun ring held same => ?_, fun keep v ring new hkeep hv => ?_⟩
    · rw [if_neg other]
    · rw [if_pos ring, relink_same held same]
    · rw [if_pos ring, relink_new new hkeep hv]
  case pairs =>
    refine ⟨exec_freewheelOpen_takes wr ph low canon, exec_freewheelOpen_refused wr ph low, exec_freewheelClose_takes wr ph low canon,
      exec_freewheelClose_refused wr ph low, fun opening => ?_, fun closing => ?_⟩
    · rw [exec_freewheelSwitchDone low, if_pos opening]
      exact ⟨_, rfl, setPairSt_pairState canon low (by decide), rfl, rfl⟩
    · rw [exec_freewheelSwitchDone low, if_neg (by omega), if_pos closing]
      exact ⟨_, rfl, setPairSt_pairState canon low (by decide), rfl, rfl⟩

end Sys2Proof.Machine
end

section
/-! The Tandem pair's mirrored writes (R341, R401, R403, R404): a MIRROR_WRITE of the partner, and the acknowledgement of one of the card's own. -/

namespace Sys2Proof.Machine

variable {s t : State} {p : Nat} {f0 f : Frame}

/-! ### MIRROR_WRITE -/

theorem exec_mirrorWrite_arrives (h : s.Arrives p ftMIRROR_WRITE f0 f t) : exec (.mirrorWrite p f0) s = .next (t.takeMirror f) :=
  congrArg Host.Outcome.next (arrives h (by decide) (by decide) _)

theorem mirReady_iff : t.mirReady f = true ↔
    t.get SYS.DRAM_STATUS.TRAINED = 0xFF ∧ (f.b 0 1 = 1 ∨ f.b 0 1 = 2 ∨ t.flag TIER.LOG_SCAN_STATUS.DONE = true) := by
  simp [State.mirReady, or_assoc]

/-- A write of a card that is not the partner is not applied (R341). -/
theorem applyMirror_stranger (stranger : t.tandemOn = false ∨ f.src ≠ t.partner) : t.applyMirror f = (t, 1) := by
  rw [State.applyMirror]
  exact if_pos (by simpa using stranger)

section partner

variable (on : t.tandemOn = true) (partner : f.src = t.partner)
include on partner

theorem applyMirror_partner : t.applyMirror f =
    if f.b 0 1 = 1 ∨ f.b 0 1 = 2 then
      match t.standbyOf (f.b 1 1) with
      | none => (t, 2)
      | some r => if f.b 0 1 = 1 then t.mirrorLines r f else t.mirrorQuarter r f
    else if f.b 0 1 = 3 then
      ((List.range (f.b 2 2)).foldl (fun s i => s.mirrorRecord (f.b 4 2 % 1024) (f.b (64 + 16 * i) 16)) (t.mirrorChain f.src (f.b 4 2 % 1024)), 0)
    else if f.b 0 1 = 4 then ((t.mirrorChain f.src (f.b 4 2 % 1024)).mirrorSegment f, 0)
    else (t, 1) := by
  rw [State.applyMirror]
  exact if_neg (by simp [on, partner])

/-- A region without a standby here takes no write (R401). -/
theorem applyMirror_noStandby (kind : f.b 0 1 = 1 ∨ f.b 0 1 = 2) (none : t.standbyOf (f.b 1 1) = none) : t.applyMirror f = (t, 2) := by
  rw [applyMirror_partner on partner, if_pos kind, none]

/-- A write of kind 1 is of the region's lines. -/
theorem applyMirror_lines (kind : f.b 0 1 = 1) {r : Nat} (standby : t.standbyOf (f.b 1 1) = some r) :
    t.applyMirror f = t.mirrorLines r f := by
  rw [applyMirror_partner on partner, if_pos (.inl kind), standby]
  exact if_pos kind

/-- KV data is always taken (R402). -/
theorem applyMirror_kv (kind : f.b 0 1 = 3 ∨ f.b 0 1 = 4) : (t.applyMirror f).2 = 0 := by
  rw [applyMirror_partner on partner, if_neg (by omega)]
  obtain records | page := kind
  · rw [if_pos records]
  · rw [if_neg (by omega), if_pos page]

end partner

/-- One line beyond the region's end is not placed (R401). -/
theorem mirrorLines_beyond {r : Nat} (one : f.b 2 2 = 1) (beyond : t.poolBytes r < f.b 64 8 + 64) : t.mirrorLines r f = (t, 2) := by
  have room : ¬ f.b 64 8 + 64 ≤ t.poolBytes r := Nat.not_le.2 beyond
  simp [State.mirrorLines, one, room]

/-- One line within the region, newer than what was applied to it, is placed (R341, R401). -/
theorem mirrorLines_one {r a : Nat} (one : f.b 2 2 = 1) (within : f.b 64 8 + 64 ≤ t.poolBytes r) (ha : a = t.poolBase r + f.b 64 8)
    (newer : t.mirNewer (lineOf a) f = true) : t.mirrorLines r f =
      ((t.stampLine (lineOf a) f).takeData 5 64 a ((padTo 192 f.payload).drop 128) false, 0) := by
  subst ha
  simp [State.mirrorLines, one, within, newer]

/-! ### MIRROR_ACK -/

theorem exec_mirrorAck_arrives (h : s.Arrives p ftMIRROR_ACK f0 f t) : exec (.mirrorAck p f0) s = .next (t.takeMirrorAck f) :=
  congrArg Host.Outcome.next (arrives h (by decide) (by decide) _)

theorem takeMirrorAck_none (none : t.txn (f.b 0 4) = none) : t.takeMirrorAck f = t := by
  simp only [State.takeMirrorAck, none]

/-- The host writes that wait for the XID acknowledged, completed (R401). -/
def State.mirrorAnswered (t : State) (xid : Nat) : State :=
  ((t.endTxn xid).pool.mirror.filter (·.xid = xid)).foldl State.completeMirror (t.endTxn xid)

/-- Nothing waits for the XID any more. -/
def State.mirrorSettled (t : State) (xid : Nat) : State :=
  (t.mirrorAnswered xid).setPool fun y => { y with
    mirror := y.mirror.filter (·.xid ≠ xid), copying := y.copying.filter (·.1 ≠ xid), kvSent := y.kvSent.filter (·.1 ≠ xid) }

/-- The partner's acknowledgement: outcome 0 completes what waits for it, any other is the partner's loss (R401, R404, R406). -/
theorem takeMirrorAck_asked {x : Txn} (asked : t.txn (f.b 0 4) = some x) (typ : x.typ = ftMIRROR_WRITE) (member : f.src = x.member) :
    t.takeMirrorAck f = if f.b 4 1 ≠ 0 then (t.endTxn (f.b 0 4)).partnerLost
      else ((t.pool.copying.filter (·.1 = f.b 0 4)).foldl (fun s c => s.resyncEnd c.2.1 c.2.2) (t.mirrorSettled (f.b 0 4))).afterMirror := by
  simp only [State.takeMirrorAck, asked]
  rw [if_neg (by simp [typ, member])]
  rfl

/-- A host write that waited answers its host, in every phase but FAULT (R385, R400). -/
theorem completeMirror_answers {m : MirWait} (answers : m.answers = true) (sound : s.phase ≠ phFAULT) :
    ∃ load, s.completeMirror m = s.emit (.cxlResp (s.hostHid m.slot) m.tag [] false load 0) := by
  have clean : (s.phase == phFAULT) = false := beq_false_of_ne sound
  rw [State.completeMirror, if_pos answers, clean]
  exact ⟨_, rfl⟩

end Sys2Proof.Machine
end

section
/-! A Tandem pair's resync (R406): what RESYNC makes of the mirrored regions and tenants, and the end of a copy. -/

namespace Sys2Proof.Machine

open Sys2Proof.Laws.Shared

variable {s : State}

/-! ### One field written for several indices -/

/-- A field written for each of several indices. -/
def State.putEach (s : State) (f : Fld) (v : Nat) (l : List Nat) : State := l.foldl (fun s i => s.put f v i) s

theorem get_putEach_apart (wf : spWf regDefault s.regs = true) {f g : Fld} {j : Nat} (v : Nat) (l : List Nat) (apart : ∀ i, Apart f i g j) :
    (s.putEach f v l).get g j = s.get g j :=
  KeepsFld.get (List.foldlRecOn l _ (.refl s) fun _ kept i _ => kept.put v (apart i)) wf

theorem putEach_wf (wf : spWf regDefault s.regs = true) (f : Fld) (v : Nat) (l : List Nat) : spWf regDefault (s.putEach f v l).regs = true :=
  List.foldlRecOn (motive := fun t : State => spWf regDefault t.regs = true) l _ wf fun t wf _ _ => setReg_wf t wf _ _ _

/-- The field reads as written for each of the indices. -/
theorem get_putEach (wf : spWf regDefault s.regs = true) {f : Fld} (low : f.off < 0x1000000) (v : Nat) (l : List Nat)
    (width : f.lo + f.w ≤ 32) {i : Nat} (listed : i ∈ l) : (s.putEach f v l).get f i = v % 2 ^ f.w := by
  suffices given : ∀ (l : List Nat) (u : State), spWf regDefault u.regs = true → (i ∈ l ∨ u.get f i = v % 2 ^ f.w) →
      (u.putEach f v l).get f i = v % 2 ^ f.w from given l s wf (.inl listed)
  intro l
  induction l with
  | nil => exact fun u _ done => done.resolve_left List.not_mem_nil
  | cons j l ih =>
    intro u wf done
    refine ih (u.put f v j) (setReg_wf u wf _ _ _) ?_
    by_cases same : i = j
    · exact .inr (same ▸ get_put_same u wf f v i width)
    · exact done.imp (fun mem => (List.mem_cons.1 mem).resolve_left same) (get_put_apart wf v (apart_of_inst low low same)).trans

theorem setPool_get (s : State) (f : PoolSt → PoolSt) (g : Fld) (j : Nat) : (s.setPool f).get g j = s.get g j := rfl

/-! ### RESYNC -/

theorem tandemCtrl_control : ControlReg POOL.TANDEM_CTRL.off tcR :=
  ⟨by decide, by decide, fun _ _ => rfl, fun _ => rfl, by decide, by decide⟩

/-- The pool's registers of the Tandem pair take writes in CONFIGURE and RELEASED (Table 21-19). -/
theorem tandem_phaseOk (ph : s.serving = true) {off : Nat} (tandem : off ∈ [POOL.TANDEM_CTRL.off, POOL.TAKEOVER_KV.off]) (f : FieldRow) :
    s.phaseOk off f = true := by
  simp only [List.mem_cons, List.not_mem_nil, or_false] at tandem
  unfold State.phaseOk
  rcases serving_cases ph with h | h <;> rw [h] <;> rcases tandem with rfl | rfl <;> rfl

/-- The mirrored regions that a resync copies. -/
def State.resyncRegions (s : State) : List Nat := s.mirrorRegions.filter fun r => s.poolState r = 1

/-- What RESYNC shows: every region and tenant that it copies reads SYNCING (R406). -/
def State.resyncShown (s : State) : State :=
  ((s.put POOL.TANDEM_CTRL.RESYNC 1).putEach POOL.REGION_STATUS.MIRROR_STATE 2 s.resyncRegions).putEach POOL.KV_MIRROR.STATE 2 s.mirrorTenants

/-- RESYNC with its copies queued. -/
def State.resyncQueued (s : State) : State :=
  (s.resyncShown.setPool fun x => { x with
    resync := s.resyncRegions.map (fun r => (false, r, 0)) ++ s.mirrorTenants.map fun t => (true, t, 0) }).put
      POOL.TANDEM_STATUS.SYNCING (b01 (s.resyncRegions ≠ [] ∨ s.mirrorTenants ≠ []))

/-- The live records of a mirrored tenant queued for the partner. -/
def State.recordsQueued (s : State) (t : Nat) : State :=
  s.setPool fun x => { x with kvOut := x.kvOut ++ (((s.chainAt (s.ownIdx t)).map fun c => liveRecs s.flash.media c.recs).getD [] ++
    s.buffered (s.ownIdx t)).map fun r => ⟨t, some r, 0, 0, [], true⟩ }

/-- A resync begun (R406). -/
def State.resyncBegun (s : State) : State := s.mirrorTenants.foldl State.recordsQueued s.resyncQueued

theorem hTandemCtrl_act (s : State) : hTandemCtrl.act s 0 1#32 = s.resyncBegun := by
  unfold hTandemCtrl State.resyncBegun State.resyncQueued State.resyncShown State.resyncRegions
  dsimp only
  rw [if_neg (by decide)]
  rfl

theorem hTandemCtrl_chk (s : State) (old : Word) : hTandemCtrl.chk s 0 old 1#32 = s.flag POOL.TANDEM_STATUS.SYNCING := Bool.true_and _

theorem exec_resync (s : State) : exec .resync s = .next (bar0 hTandemCtrl POOL.TANDEM_CTRL.off 1#32 s) :=
  congrArg _ (bit_eq (f := POOL.TANDEM_CTRL.RESYNC) tandemCtrl_control.row tandemCtrl_control.pulses)

section write

variable (wr : s.writable = true) (ph : s.serving = true)
include wr ph

theorem exec_resync_takes (canon : s.canonical = true) (idle : s.flag POOL.TANDEM_STATUS.SYNCING = false) :
    exec .resync s = .next (s.recorded s.resyncBegun POOL.TANDEM_CTRL.off 0 1#32) := by
  rw [exec_resync, tandemCtrl_control.takes wr (fun f _ => tandem_phaseOk ph (by decide) f) (i := 0) rfl canon hTandemCtrl rfl (v := 1#32)
    (by decide) ((hTandemCtrl_chk s _).trans idle) (hTandemCtrl_act s)]

theorem exec_resync_refused (runs : s.flag POOL.TANDEM_STATUS.SYNCING = true) :
    exec .resync s = .next (s.illegal 0 causeState POOL.TANDEM_CTRL.off 1) := by
  rw [exec_resync, tandemCtrl_control.refuses wr (fun f _ => tandem_phaseOk ph (by decide) f) (i := 0) rfl hTandemCtrl (v := 1#32)
    (by decide) ((hTandemCtrl_chk s _).trans runs)]
  rfl

end write

/-! ### What a resync that began shows -/

theorem resyncBegun_regs (s : State) : s.resyncBegun.regs = s.resyncQueued.regs :=
  List.foldlRecOn (motive := fun u : State => u.regs = s.resyncQueued.regs) _ _ rfl fun _ same _ _ => same

theorem resyncBegun_queue (s : State) : s.resyncBegun.pool.resync =
    s.resyncRegions.map (fun r => (false, r, 0)) ++ s.mirrorTenants.map fun t => (true, t, 0) := by
  unfold State.resyncBegun
  rw [foldl_put_resync s.mirrorTenants State.recordsQueued fun _ _ => rfl]
  rfl

theorem resyncBegun_get (s : State) (g : Fld) (j : Nat) : s.resyncBegun.get g j = s.resyncQueued.get g j := by
  unfold State.get
  rw [reg_of_regs (resyncBegun_regs s)]

theorem b01_eq_one (b : Bool) : b01 b = 1 ↔ b = true := by cases b <;> decide

section begun

variable (canon : s.canonical = true)
include canon

theorem resyncShown_wf : spWf regDefault s.resyncShown.regs = true :=
  putEach_wf (putEach_wf (setReg_wf s (canonical_regs canon) _ _ _) _ _ _) _ _ _

/-- SYNCING is written last, and no mirror's state is in its register. -/
theorem resyncQueued_get {g : Fld} {j : Nat} (apart : Apart POOL.TANDEM_STATUS.SYNCING 0 g j) :
    s.resyncQueued.get g j = s.resyncShown.get g j := by
  unfold State.resyncQueued
  rw [get_put_apart (by rw [setPool_regs]; exact resyncShown_wf canon) _ apart, setPool_get]

theorem resyncBegun_region {r : Nat} (copied : r ∈ s.resyncRegions) : s.resyncBegun.mirState r = 2 := by
  have wf : spWf regDefault (s.put POOL.TANDEM_CTRL.RESYNC 1).regs = true := setReg_wf s (canonical_regs canon) _ _ _
  rw [State.mirState, resyncBegun_get, resyncQueued_get canon (apart_of_off (by decide) (by decide) (by decide)), State.resyncShown,
    get_putEach_apart (putEach_wf wf _ _ _) _ _ fun _ => apart_of_off (by decide) (by decide) (by decide)]
  exact get_putEach wf (by decide) 2 _ (by decide) copied

theorem resyncBegun_tenant {n : Nat} (copied : n ∈ s.mirrorTenants) : s.resyncBegun.get POOL.KV_MIRROR.STATE n = 2 := by
  have wf : spWf regDefault (s.put POOL.TANDEM_CTRL.RESYNC 1).regs = true := setReg_wf s (canonical_regs canon) _ _ _
  rw [resyncBegun_get, resyncQueued_get canon (apart_of_off (by decide) (by decide) (by decide)), State.resyncShown]
  exact get_putEach (putEach_wf wf _ _ _) (by decide) 2 _ (by decide) copied

theorem resyncBegun_syncing :
    s.resyncBegun.flag POOL.TANDEM_STATUS.SYNCING = true ↔ s.mirrorTenants ≠ [] ∨ ∃ r ∈ s.mirrorRegions, s.poolState r = 1 := by
  have regions : s.resyncRegions ≠ [] ↔ ∃ r ∈ s.mirrorRegions, s.poolState r = 1 := by
    simp [State.resyncRegions, List.filter_eq_nil_iff]
  have shown : s.resyncBegun.get POOL.TANDEM_STATUS.SYNCING 0 = b01 (s.resyncRegions ≠ [] ∨ s.mirrorTenants ≠ []) := by
    rw [resyncBegun_get, State.resyncQueued, get_put_same _ (by rw [setPool_regs]; exact resyncShown_wf canon) _ _ _ (by decide)]
    exact Nat.mod_eq_of_lt (b01_lt _)
  rw [State.flag, shown, decide_eq_true_eq, b01_eq_one, decide_eq_true_eq, ← regions, or_comm]

end begun

/-! ### The end of a copy -/

theorem exec_resyncDone (up : s.working = true) (tenant : Bool) (num : Nat) :
    exec (.resyncDone tenant num) s = .next (s.resyncEnd tenant num) :=
  congrArg Host.Outcome.next (if_pos up)

section ends

variable {tenant : Bool} {num st : Nat} (state : st = if tenant then s.get POOL.KV_MIRROR.STATE num else s.mirState num)
include state

theorem resyncEnd_waits (waits : st ≠ 2 ∨ (tenant = true ∧ (s.pool.kvOut.any fun k => k.copy ∧ k.tid = num) = true) ∨
      (s.pool.resync.any fun x => x.1 = tenant ∧ x.2.1 = num) = true ∨
      (s.pool.copying.any fun x => x.2.1 = tenant ∧ x.2.2 = num) = true) : s.resyncEnd tenant num = s := by
  subst state
  exact if_pos waits

/-- With nothing of it left to send or to acknowledge it reads SYNC, and the resync ends with the last one (R406). -/
theorem resyncEnd_synced (syncing : st = 2) (records : tenant = true → (s.pool.kvOut.any fun k => k.copy ∧ k.tid = num) = false)
    (queue : (s.pool.resync.any fun x => x.1 = tenant ∧ x.2.1 = num) = false)
    (copying : (s.pool.copying.any fun x => x.2.1 = tenant ∧ x.2.2 = num) = false) {u : State}
    (synced : u = if tenant then s.put POOL.KV_MIRROR.STATE 1 num else s.put POOL.REGION_STATUS.MIRROR_STATE 1 num) :
    s.resyncEnd tenant num = if (u.mirrorRegions.any (fun r => u.mirState r == 2) ||
      u.mirrorTenants.any fun t => u.get POOL.KV_MIRROR.STATE t == 2) then u else u.put POOL.TANDEM_STATUS.SYNCING 0 := by
  subst state synced
  refine if_neg ?_
  rintro (other | ⟨own, left⟩ | left | left)
  · exact other syncing
  · exact Bool.false_ne_true ((records own).symm.trans left)
  · exact Bool.false_ne_true (queue.symm.trans left)
  · exact Bool.false_ne_true (copying.symm.trans left)

end ends

end Sys2Proof.Machine
end

section
/-! The takeover of a tenant's KV mirror (R403, R405): the write of TAKEOVER_KV, and the end of the replay. -/

namespace Sys2Proof.Machine

open Sys2Proof.Laws.Shared

variable {s : State}

/-! ### The write of TAKEOVER_KV -/

theorem takeoverKv_row : findReg POOL.TAKEOVER_KV.off = some tkR := by decide

section write

variable {w : Word}

/-- The word that GO writes: the register's stored fields with bit 31. -/
theorem takeoverWord_fields (hw : w = tkR.rwBits (s.reg POOL.TAKEOVER_KV.off) ||| BitVec.ofNat 32 (2 ^ 31)) :
    fieldGet (tkR.fieldBits w) 0 10 = s.get POOL.TAKEOVER_KV.SOURCE_TID ∧
      fieldGet (tkR.fieldBits w) 10 5 = s.get POOL.TAKEOVER_KV.SOURCE_MEMBER ∧
      fieldGet (tkR.fieldBits w) 16 10 = s.get POOL.TAKEOVER_KV.TARGET_TID ∧ fieldGet (tkR.fieldBits w) 31 1 = 1 := by
  have fields (f : FieldRow) (hf : f ∈ tkR.fields) := fieldGet_fieldBits (r := tkR) w hf (by decide)
  have stored (f : FieldRow) (hf : f ∈ tkR.fields) (keeps : f.keepsBits = true) :=
    fieldGet_rwOr (r := tkR) (s.reg POOL.TAKEOVER_KV.off) (k := 31) (by decide) (by decide) hf keeps
  refine ⟨?source, ?member, ?target, ?go⟩
  case source => exact (fields ⟨0, 10, .rw, 0⟩ (by decide)).trans (hw ▸ stored ⟨0, 10, .rw, 0⟩ (by decide) rfl)
  case member => exact (fields ⟨10, 5, .rw, 0⟩ (by decide)).trans (hw ▸ stored ⟨10, 5, .rw, 0⟩ (by decide) rfl)
  case target => exact (fields ⟨16, 10, .rw, 0⟩ (by decide)).trans (hw ▸ stored ⟨16, 10, .rw, 0⟩ (by decide) rfl)
  case go => exact (fields ⟨31, 1, .w1s, 0⟩ (by decide)).trans (hw ▸ fieldGet_bitOr (k := 31) _ (by decide))

theorem hTakeoverKv_chk {v : Word} (go : fieldGet v 31 1 = 1) (old : Word) :
    hTakeoverKv.chk s 0 old v = (s.get POOL.TAKEOVER_STATUS.STATE == 1) := by
  unfold hTakeoverKv
  simp only [go, beq_self_eq_true, Bool.true_and]

/-- The cause that a takeover of the mirror `x` into tenant `tgt` fails with, 0 for none (Table 3-6). -/
def State.takeoverCause (s : State) (x : Replay) (tgt : Nat) : Nat :=
  if s.tenState tgt = 0 then 2
  else if x.prot s.flash.media ∧ (kvFind s.part.keys tgt).isNone then 4
  else if s.keyDiffers x tgt = true then 5 else 0

/-- What GO shows of a takeover: its cause and its state. -/
def takeoverFlds (cause state : Nat) : List (Fld × Nat) :=
  [(POOL.TAKEOVER_KV.GO, 1), (POOL.TAKEOVER_STATUS.FAIL_CAUSE, cause), (POOL.TAKEOVER_STATUS.SEQUENCES, 0),
    (POOL.TAKEOVER_STATUS.STATE, state)]

theorem takeoverFlds_apart (cause state : Nat) : ((takeoverFlds cause state).map Prod.fst).Pairwise fun a b => Apart b 0 a 0 := by
  show [POOL.TAKEOVER_KV.GO, POOL.TAKEOVER_STATUS.FAIL_CAUSE, POOL.TAKEOVER_STATUS.SEQUENCES, POOL.TAKEOVER_STATUS.STATE].Pairwise _
  decide

theorem hTakeoverKv_act {v : Word} (go : fieldGet v 31 1 = 1) {src member tgt cause : Nat} (source : fieldGet v 0 10 = src)
    (sender : fieldGet v 10 5 = member) (target : fieldGet v 16 10 = tgt)
    (fails : cause = s.takeoverCause (s.mirrorReplay src member) tgt) : hTakeoverKv.act s 0 v =
      if cause ≠ 0 then s.putAll 0 (takeoverFlds cause 3)
      else (s.putAll 0 (takeoverFlds cause 1)).setPool fun y => { y with takeover := some (src, member, tgt) } := by
  subst source sender target fails
  unfold hTakeoverKv
  dsimp only
  rw [if_neg (by rw [go]; decide)]
  rfl

theorem takeoverCause_lt (s : State) (x : Replay) (tgt : Nat) : s.takeoverCause x tgt < 16 := by
  unfold State.takeoverCause
  split
  · decide
  · split
    · decide
    · split <;> decide

theorem takeoverFlds_shown (canon : s.canonical = true) {cause state : Nat} (hcause : cause < 16) (hstate : state < 8) :
    (s.putAll 0 (takeoverFlds cause state)).get POOL.TAKEOVER_STATUS.FAIL_CAUSE = cause ∧
      (s.putAll 0 (takeoverFlds cause state)).get POOL.TAKEOVER_STATUS.STATE = state := by
  have shown (y : Fld × Nat) (hy : y ∈ takeoverFlds cause state) := get_putAll (canonical_regs canon) _ (takeoverFlds_apart cause state) hy
  exact ⟨(shown (POOL.TAKEOVER_STATUS.FAIL_CAUSE, cause) (by simp [takeoverFlds]) (show 4 + 4 ≤ 32 by decide)).trans (Nat.mod_eq_of_lt hcause),
    (shown (POOL.TAKEOVER_STATUS.STATE, state) (by simp [takeoverFlds]) (show 0 + 3 ≤ 32 by decide)).trans (Nat.mod_eq_of_lt hstate)⟩

/-- GO shows its cause, and starts the takeover where there is none (R405). -/
theorem hTakeoverKv_act_shows (canon : s.canonical = true) {v : Word} (go : fieldGet v 31 1 = 1) {src member tgt cause : Nat}
    (source : fieldGet v 0 10 = src) (sender : fieldGet v 10 5 = member) (target : fieldGet v 16 10 = tgt)
    (fails : cause = s.takeoverCause (s.mirrorReplay src member) tgt) {t : State} (ht : t = hTakeoverKv.act s 0 v) :
    t.get POOL.TAKEOVER_STATUS.FAIL_CAUSE = cause ∧ (cause ≠ 0 → t.get POOL.TAKEOVER_STATUS.STATE = 3 ∧ t.pool = s.pool) ∧
      (cause = 0 → t.get POOL.TAKEOVER_STATUS.STATE = 1 ∧ t.pool = { s.pool with takeover := some (src, member, tgt) }) := by
  have low : cause < 16 := fails ▸ takeoverCause_lt s _ _
  rw [hTakeoverKv_act go source sender target fails] at ht
  subst ht
  by_cases starts : cause = 0
  · obtain ⟨shown, state⟩ := takeoverFlds_shown canon low (show 1 < 8 by decide)
    rw [if_neg (not_not_intro starts), setPool_get, setPool_get]
    exact ⟨shown, fun other => absurd starts other, fun _ => ⟨state, rfl⟩⟩
  · obtain ⟨shown, state⟩ := takeoverFlds_shown canon low (show 3 < 8 by decide)
    rw [if_pos starts]
    exact ⟨shown, fun _ => ⟨state, rfl⟩, fun none => absurd none starts⟩

variable (wr : s.writable = true) (ph : s.serving = true)
  (hw : w = tkR.rwBits (s.reg POOL.TAKEOVER_KV.off) ||| BitVec.ofNat 32 (2 ^ 31))
include wr ph hw

/-- While a takeover runs, another is refused (R405). -/
theorem exec_takeoverKv_refused (runs : s.get POOL.TAKEOVER_STATUS.STATE = 1) :
    exec .takeoverKv s = .next (s.illegal 0 causeState POOL.TAKEOVER_KV.off w.toNat) := by
  obtain ⟨-, -, -, go⟩ := takeoverWord_fields hw
  show execTakeoverKv s = _
  rw [execTakeoverKv, bit_refused (r := tkR) (f := POOL.TAKEOVER_KV.GO) (i := 0) rfl hw.symm wr takeoverKv_row (fun _ _ => rfl)
    (fun f _ => tandem_phaseOk ph (by decide) f) (by decide) ((hTakeoverKv_chk go _).trans (beq_iff_eq.2 runs))]

theorem exec_takeoverKv_takes (canon : s.canonical = true) (idle : s.get POOL.TAKEOVER_STATUS.STATE ≠ 1) :
    exec .takeoverKv s = .next (s.recorded (hTakeoverKv.act s 0 (tkR.fieldBits w)) POOL.TAKEOVER_KV.off 0 w) := by
  obtain ⟨-, -, -, go⟩ := takeoverWord_fields hw
  show execTakeoverKv s = _
  rw [execTakeoverKv, bit_sets (r := tkR) (f := POOL.TAKEOVER_KV.GO) (i := 0) rfl hw.symm (canonical_regs canon) wr takeoverKv_row (by decide)
    (by decide) (fun _ _ => rfl) (fun f _ => tandem_phaseOk ph (by decide) f) rfl ((hTakeoverKv_chk go _).trans (beq_false_of_ne idle)) rfl
    (by decide) (by decide)]

end write

/-! ### The log leaves host memory alone -/

section log

variable (s : State)

theorem takeBlock_hmem (idx : Nat) (log : Bool) : (s.takeBlock idx log).1.hmem = s.hmem := by
  unfold State.takeBlock
  cases s.flash.freeBlocks <;> rfl

theorem logSector_hmem (idx : Nat) : (s.logSector idx).1.hmem = s.hmem := by
  have taken := takeBlock_hmem s idx true
  unfold State.logSector
  generalize s.takeBlock idx true = block at taken ⊢
  dsimp only
  split
  · exact taken
  · split
    · rfl
    · exact taken

theorem firstWrite_hmem : s.firstWrite.hmem = s.hmem := by
  unfold State.firstWrite
  split <;> rfl

theorem wakeFlash_hmem : s.wakeFlash.hmem = s.hmem := by
  unfold State.wakeFlash
  split <;> rfl

theorem keepSector_hmem (idx : Nat) : (s.keepSector idx).hmem = s.hmem := logSector_hmem s idx

theorem updChain_hmem (idx : Nat) (f : Chain → Chain) : (s.updChain idx f).hmem = s.hmem := rfl

theorem setFlash_hmem (f : FlashSt → FlashSt) : (s.setFlash f).hmem = s.hmem := rfl

theorem logPage_hmem (idx : Nat) (recs : List Nat) : (s.logPage idx recs).hmem = s.hmem := by
  unfold State.logPage
  split
  · rfl
  · rw [State.put_hmem, setFlash_hmem, updChain_hmem, keepSector_hmem]

theorem programLog_hmem (idx : Nat) : (s.programLog idx).hmem = s.hmem := by
  unfold State.programLog
  split
  · rfl
  · rw [setFlash_hmem, logPage_hmem, firstWrite_hmem, wakeFlash_hmem]

theorem flushAll_hmem (idx : Nat) : (s.flushAll idx).hmem = s.hmem :=
  List.foldlRecOn (motive := fun t : State => t.hmem = s.hmem) _ _ rfl fun u same _ _ => (programLog_hmem u idx).trans same

end log

/-! ### The end of a replay (R405) -/

/-- The mirror of a source tenant merged into the target: its MERGED record is durable, and its chain is a region no more (R213, R405). -/
def State.mirrorMerged (s : State) (src tgt : Nat) : State :=
  ((s.logRaw (1280 + src) (recKvDefine src false 0 true tgt)).flushAll (1280 + src)).moveChain (1280 + src) s.mergedIdx

theorem mirrorMerged_hmem (s : State) (src tgt : Nat) : (s.mirrorMerged src tgt).hmem = s.hmem :=
  (flushAll_hmem (s.logRaw _ _) _)

theorem keeps_mirrorMerged {s t : State} (h : Keeps s t) (src tgt : Nat) : Keeps s (t.mirrorMerged src tgt) :=
  keeps_moveChain (keeps_flushAll (keeps_logRaw h _ _) _) _ _

/-- The sequences of a replay logged in the target's region, and the map of their numbers in host memory. -/
def State.replayLogged (s : State) (x : Replay) (map : List (Nat × Seq)) (base : Nat) : State :=
  (map.foldl (fun s y => (s.logRebuilt y.2).logEntries y.2 y.1 x) s).memWrite base (map.flatMap fun y => leBytes 4 y.1 ++ leBytes 4 y.2.sid)

theorem keeps_replayLogged {s t : State} (h : Keeps s t) (x : Replay) (map : List (Nat × Seq)) (base : Nat) :
    Keeps s (t.replayLogged x map base) :=
  keeps_memWrite (keeps_foldl h fun _ _ hu => keeps_logEntries (keeps_logRebuilt hu _) _ _ _) _ _

/-- What TAKEOVER_STATUS shows of a takeover that ended with `n` sequences. -/
def State.takeoverShown (s : State) (n : Nat) : State := (s.put POOL.TAKEOVER_STATUS.STATE 2).put POOL.TAKEOVER_STATUS.SEQUENCES n

theorem takeoverShown_status (wf : spWf regDefault s.regs = true) (n : Nat) :
    (s.takeoverShown n).get POOL.TAKEOVER_STATUS.STATE = 2 ∧ (s.takeoverShown n).get POOL.TAKEOVER_STATUS.SEQUENCES = n % 2 ^ 24 := by
  have wf' : spWf regDefault (s.put POOL.TAKEOVER_STATUS.STATE 2).regs = true := setReg_wf s wf _ _ _
  exact ⟨(get_put_apart wf' n (by decide)).trans (get_put_same s wf _ 2 0 (by decide)), get_put_same _ wf' _ n 0 (by decide)⟩

/-- The state that the end of a takeover leaves, the map being in host memory in `v`: the mirror that it read is merged (R405). -/
def State.takeoverDone (v : State) (src tgt n : Nat) (read : Bool) : State :=
  ((if read then v.mirrorMerged src tgt else v).setPool fun y => { y with
    takeover := none, kvPages := if read then y.kvPages.filter (·.1 ≠ src) else y.kvPages }).takeoverShown n

theorem takeoverDone_status {v : State} (logged : Keeps s v) (canon : s.canonical = true) (src tgt n : Nat) (read : Bool) :
    (v.takeoverDone src tgt n read).get POOL.TAKEOVER_STATUS.STATE = 2 ∧
      (v.takeoverDone src tgt n read).get POOL.TAKEOVER_STATUS.SEQUENCES = n % 2 ^ 24 := by
  have merged : Keeps s (if read then v.mirrorMerged src tgt else v) :=
    keeps_ite (fun _ => keeps_mirrorMerged logged src tgt) fun _ => logged
  exact takeoverShown_status (by rw [setPool_regs]; exact merged.regs (canonical_regs canon)) n

theorem takeoverDone_hmem (v : State) (src tgt n : Nat) (read : Bool) : (v.takeoverDone src tgt n read).hmem = v.hmem := by
  cases read
  · rfl
  · exact mirrorMerged_hmem v src tgt

theorem takeoverDone_kvPages (v : State) (src tgt n : Nat) : ∀ y ∈ (v.takeoverDone src tgt n true).pool.kvPages, y.1 ≠ src :=
  fun _ left => of_decide_eq_true (List.mem_filter.1 left).2

theorem exec_takeoverKvDone_none (none : s.pool.takeover = none) : exec .takeoverKvDone s = .next s := by
  show execTakeoverKvDone s = _
  rw [execTakeoverKvDone, none]

section done

variable {src m tgt : Nat} (taking : s.pool.takeover = some (src, m, tgt))
include taking

/-- Before DRAM is trained and the log scanned it waits (R56). -/
theorem exec_takeoverKvDone_waits (early : s.get SYS.DRAM_STATUS.TRAINED ≠ 0xFF ∨ s.flag TIER.LOG_SCAN_STATUS.DONE = false) :
    exec .takeoverKvDone s = .next s := by
  show execTakeoverKvDone s = _
  rw [execTakeoverKvDone, taking]
  exact if_pos (by simpa [or_assoc] using .inr early)

theorem exec_takeoverKvDone_ends (up : s.working = true) (trained : s.get SYS.DRAM_STATUS.TRAINED = 0xFF)
    (scanned : s.flag TIER.LOG_SCAN_STATUS.DONE = true) {x : Replay} {u v : State} {map : List (Nat × Seq)}
    (mirror : x = (s.flushAll (1280 + src)).mirrorReplay src m) (replay : (s.flushAll (1280 + src)).replayInto tgt x true = (u, map))
    (logged : v = u.replayLogged x map (s.pair POOL.TAKEOVER_MAP_LO.off)) :
    exec .takeoverKvDone s = .next (v.takeoverDone src tgt map.length x.kvdef.isSome) := by
  subst logged
  show execTakeoverKvDone s = _
  rw [execTakeoverKvDone, taking]
  dsimp only
  rw [if_neg (by simp [up, trained, scanned]), ← mirror, replay]
  rfl

end done

/-- Settles O50: frames by what the card takes of one that arrives, RESYNC and TAKEOVER_KV as writes, the end of a copy by what is left of it, the
end of a replay by the state it leaves. -/
theorem tandem : Obligations.Tandem := by
  intro s
  refine ⟨fun p f0 f t arr => ⟨fun y seen => ?repeated, fun fresh => ⟨fun ready => ?placed, fun early => ?waits⟩, mirReady_iff,
      applyMirror_stranger, fun on partner => ⟨applyMirror_noStandby on partner, fun r a kind one standby ha =>
        ⟨fun beyond => ?beyond, fun within newer => ?within⟩, applyMirror_kv on partner⟩⟩,
    fun p f0 f t arr => ⟨fun none => ?unasked, fun x asked typ member => ⟨fun fails => ?fails, fun u v done hu hv => ?done⟩⟩,
    fun m answers sound => completeMirror_answers answers sound,
    fun canon wr ph => ⟨exec_resync_refused wr ph, fun idle => ⟨_, exec_resync_takes wr ph canon idle, resyncBegun_queue s,
      fun r mirrored active => resyncBegun_region canon (by simp [State.resyncRegions, mirrored, active]),
      fun n mirrored => resyncBegun_tenant canon mirrored, resyncBegun_syncing canon⟩⟩,
    fun tenant num st up state => ?copied, fun src member tgt w x canon wr ph hsrc hmember htgt hw hx => ?takeover,
    exec_takeoverKvDone_none, fun src m tgt canon up taking i x u v map hi mirror replay hv => ?replayed⟩
  case repeated => rw [exec_mirrorWrite_arrives arr, State.takeMirror, once_repeated seen]
  case placed =>
    rw [exec_mirrorWrite_arrives arr, State.takeMirror, once_new fresh, if_pos ready]
    rfl
  case waits =>
    rw [exec_mirrorWrite_arrives arr, State.takeMirror, once_new fresh, if_neg (by simp [early])]
    rfl
  case beyond => rw [applyMirror_lines on partner kind standby, mirrorLines_beyond one beyond]
  case within => rw [applyMirror_lines on partner kind standby, mirrorLines_one one within ha newer]
  case unasked => rw [exec_mirrorAck_arrives arr, takeMirrorAck_none none]
  case fails => rw [exec_mirrorAck_arrives arr, takeMirrorAck_asked asked typ member, if_pos fails]
  case done =>
    subst hu hv
    rw [exec_mirrorAck_arrives arr, takeMirrorAck_asked asked typ member, if_neg (not_not_intro done)]
    rfl
  case copied =>
    rw [exec_resyncDone up]
    refine ⟨fun waits => ?_, fun u syncing records queue copying synced => ?_⟩
    · rw [resyncEnd_waits state waits]
    · rw [resyncEnd_synced state syncing records queue copying synced]
  case takeover =>
    subst hsrc hmember htgt hx
    have word : w = tkR.rwBits (s.reg POOL.TAKEOVER_KV.off) ||| BitVec.ofNat 32 (2 ^ 31) := hw
    obtain ⟨source, sender, target, go⟩ := takeoverWord_fields word
    exact ⟨exec_takeoverKv_refused wr ph word, fun cause idle fails => ⟨_, exec_takeoverKv_takes wr ph word canon idle,
      hTakeoverKv_act_shows canon go source sender target fails rfl⟩⟩
  case replayed =>
    subst hi
    have replayed := keeps_replayInto (keeps_flushAll (.refl s) (1280 + src)) tgt x true
    rw [replay] at replayed
    have logged : Keeps s v := hv ▸ keeps_replayLogged replayed x map _
    obtain ⟨state, sequences⟩ := takeoverDone_status logged canon src tgt map.length x.kvdef.isSome
    refine ⟨exec_takeoverKvDone_waits taking, fun trained scanned =>
      ⟨_, exec_takeoverKvDone_ends taking up trained scanned mirror replay hv, takeoverDone_hmem v src tgt _ _, state, sequences, rfl,
        fun kept => ?_, fun gone => ?_⟩⟩
    · rw [kept]
      exact takeoverDone_kvPages v src tgt map.length
    · rw [gone]
      exact ⟨rfl, rfl⟩

end Sys2Proof.Machine
end

section
/-! The step itself (R465, R483): the front command, or one tick of the always-on clock. -/

namespace Sys2Proof.Machine

theorem tick_held {s : State} (still : s.pw.held = true ∨ s.scanOpen = true) : s.tick = s := by
  unfold State.tick
  rw [if_pos (by simpa using still)]

theorem step_idle {s : State} (idle : s.pending = []) : step s = .next s.tick := by
  unfold step
  rw [idle]

/-- Settles O1: the queue's front and rest are read off the list. -/
theorem stepRunsFrontCommand : Obligations.StepRunsFrontCommand := by
  intro s c rest queue
  unfold step
  rw [queue]

/-- Settles O2: an empty queue passes a tick, which a card in reset or under the scan scope does not take; every command is `Loose`, which keeps
the queue. -/
theorem everyStepGoesOn : Obligations.EveryStepGoesOn := by
  refine ⟨fun s idle => ⟨step_idle idle, fun still => ?_⟩, fun c s => ?_⟩
  · rw [step_idle idle, tick_held still]
  · obtain ⟨t, answers, keeps⟩ := loose_exec (Keeps.refl s) c
    exact ⟨t, answers, keeps.pending⟩

end Sys2Proof.Machine
end

section
/-! Moves of queue pairs, COMMIT and RELEASE of regions (R353 to R357, R374), as writes of registers that only act. -/

namespace Sys2Proof.Machine

open Sys2Proof.Laws.Remote

variable {s : State} {q : Nat}

/-- CONFIGURE and RELEASED take a write of a command register of remote access, the pool, partitions and tenants (Table 21-19). -/
theorem serving_phaseOk (ph : s.serving = true) {off : Nat} (control : off ∈ [RDMA.QP_CTRL.off, RDMA.REGION_CTRL.off, POOL.REGION_CTRL.off,
    POOL.HOST_CTRL.off, PART.PARTITION_CTRL.off, PART.TENANT_CTRL.off]) (f : FieldRow) : s.phaseOk off f = true := by
  simp only [List.mem_cons, List.not_mem_nil, or_false] at control
  unfold State.phaseOk
  rcases serving_cases ph with h | h <;> rw [h] <;> rcases control with rfl | rfl | rfl | rfl | rfl | rfl <;> rfl

theorem qpCtrl_control : ControlReg RDMA.QP_CTRL.off qcR :=
  ⟨by decide, by decide, fun _ _ => rfl, fun _ => rfl, by decide, by decide⟩

theorem regionCtrl_control : ControlReg RDMA.REGION_CTRL.off rcR :=
  ⟨by decide, by decide, fun _ _ => rfl, fun _ => rfl, by decide, by decide⟩

/-! ### Moves -/

/-- Table 15-3: the states from which each move is allowed. -/
theorem moveAllowed_iff (st : Nat) : moveAllowed st qpRESET = true ∧ (moveAllowed st qpINIT = true ↔ st = qpRESET) ∧
    (moveAllowed st qpRTR = true ↔ st = qpINIT) ∧ (moveAllowed st qpRTS = true ↔ st = qpRTR ∨ st = qpSQD) ∧
    (moveAllowed st qpSQD = true ↔ st = qpRTS) ∧ (moveAllowed st qpERR = true ↔ st = qpINIT ∨ st = qpRTR ∨ st = qpRTS ∨ st = qpSQD) := by
  have between : qpINIT ≤ st ∧ st ≤ qpSQD ↔ st = qpINIT ∨ st = qpRTR ∨ st = qpRTS ∨ st = qpSQD := by
    simp only [qpINIT, qpRTR, qpRTS, qpSQD]
    omega
  refine ⟨rfl, beq_iff_eq, beq_iff_eq, ?_, beq_iff_eq, Iff.trans ?_ between⟩
  · exact (Bool.or_eq_true _ _).to_iff.trans (or_congr beq_iff_eq beq_iff_eq)
  · exact (Bool.and_eq_true _ _).to_iff.trans (and_congr decide_eq_true_iff decide_eq_true_iff)

/-- The row that asks for a move, with the state that it names. -/
def moveRows : List (Instr × Nat) :=
  [(.qpReset, qpRESET), (.qpInit, qpINIT), (.qpRtr, qpRTR), (.qpRts, qpRTS), (.qpSqd, qpSQD), (.qpErr, qpERR)]

theorem exec_moveRow {c : Instr} {n : Nat} (row : (c, n) ∈ moveRows) (s : State) : n < 8 ∧ exec c s = .next (s.writeQpCtrl n) := by
  simp only [moveRows, List.mem_cons, Prod.mk.injEq, List.not_mem_nil, or_false] at row
  rcases row with ⟨rfl, rfl⟩ | ⟨rfl, rfl⟩ | ⟨rfl, rfl⟩ | ⟨rfl, rfl⟩ | ⟨rfl, rfl⟩ | ⟨rfl, rfl⟩ <;> exact ⟨by decide, rfl⟩

theorem moveWord {n : Nat} (low : n < 8) : qcR.fieldBits (BitVec.ofNat 32 n) = BitVec.ofNat 32 n ∧ fieldGet (BitVec.ofNat 32 n) 0 3 = n ∧
    (BitVec.ofNat 32 n).toNat = n := by
  revert n
  decide

theorem hQpCtrl_chk {n : Nat} (low : n < 8) (old : Word) : hQpCtrl.chk s q old (BitVec.ofNat 32 n) =
    !(moveAllowed (s.qpState q) n && s.moveFields q (s.qpState q) n) := by
  unfold hQpCtrl
  dsimp only
  rw [(moveWord low).2.1]

section write

variable (wr : s.writable = true) (ph : s.serving = true) (sel : (s.reg RDMA.QP_SELECT.off).toNat = q) {n : Nat} (low : n < 8)
include wr ph sel low

theorem writeQpCtrl_takes (canon : s.canonical = true) (allowed : moveAllowed (s.qpState q) n = true)
    (fields : s.moveFields q (s.qpState q) n = true) :
    s.writeQpCtrl n = s.recorded (s.atBoundary (.qpMove q n)) RDMA.QP_CTRL.off q (BitVec.ofNat 32 n) := by
  obtain ⟨bits, next, -⟩ := moveWord low
  refine qpCtrl_control.takes wr (fun f _ => serving_phaseOk ph (by decide) f) sel canon hQpCtrl rfl bits ?_ ?_
  · rw [hQpCtrl_chk low, allowed, fields]
    rfl
  · exact congrArg (fun m => s.atBoundary (.qpMove q m)) next

theorem writeQpCtrl_refuses (refused : moveAllowed (s.qpState q) n = false ∨ s.moveFields q (s.qpState q) n = false) :
    s.writeQpCtrl n = s.illegal 0 causeState RDMA.QP_CTRL.off n := by
  obtain ⟨bits, -, nat⟩ := moveWord low
  refine (qpCtrl_control.refuses wr (fun f _ => serving_phaseOk ph (by decide) f) sel hQpCtrl bits ?_).trans (by rw [nat])
  rw [hQpCtrl_chk low]
  rcases refused with h | h <;> simp [h]

end write

/-! ### Regions -/

theorem exec_commitCmd (s : State) : exec .commitCmd s = .next (bar0 hRegionCtrl RDMA.REGION_CTRL.off 1#32 s) := rfl

theorem exec_regionRelease (s : State) : exec .regionRelease s = .next (bar0 hRegionCtrl RDMA.REGION_CTRL.off 2#32 s) := rfl

theorem hRegionCtrl_chk_commit (old : Word) : hRegionCtrl.chk s q old 1#32 = (s.rgState q != 0 || !(s.readEntry q).entryOk q) := by
  simp [hRegionCtrl, show fieldGet 1#32 0 1 = 1 by decide, show fieldGet 1#32 1 1 = 0 by decide]

theorem hRegionCtrl_chk_release (old : Word) : hRegionCtrl.chk s q old 2#32 = (s.rgState q != 1) := by
  simp [hRegionCtrl, show fieldGet 2#32 0 1 = 0 by decide, show fieldGet 2#32 1 1 = 1 by decide]

section region

variable (wr : s.writable = true) (ph : s.serving = true) (sel : (s.reg RDMA.REGION_SELECT.off).toNat = q)
include wr ph sel

theorem exec_commitCmd_takes (canon : s.canonical = true) (free : s.rgState q = 0) (ok : (s.readEntry q).entryOk q = true) :
    exec .commitCmd s = .next (s.recorded ((s.readEntry q).atBoundary (.regionCommit q)) RDMA.REGION_CTRL.off q 1#32) := by
  rw [exec_commitCmd, regionCtrl_control.takes wr (fun f _ => serving_phaseOk ph (by decide) f) sel canon hRegionCtrl rfl (v := 1#32)
    (by decide) (by rw [hRegionCtrl_chk_commit, free, ok]; rfl) rfl]
  rfl

theorem exec_commitCmd_refused (refused : s.rgState q ≠ 0 ∨ (s.readEntry q).entryOk q = false) :
    exec .commitCmd s = .next (s.illegal 0 causeState RDMA.REGION_CTRL.off 1) := by
  rw [exec_commitCmd, regionCtrl_control.refuses wr (fun f _ => serving_phaseOk ph (by decide) f) sel hRegionCtrl (v := 1#32) (by decide)
    (by rw [hRegionCtrl_chk_commit]; simpa using refused)]
  rfl

theorem exec_regionRelease_takes (canon : s.canonical = true) (valid : s.rgState q = 1) :
    exec .regionRelease s = .next (s.recorded (s.atBoundary (.regionRelease q)) RDMA.REGION_CTRL.off q 2#32) := by
  rw [exec_regionRelease, regionCtrl_control.takes wr (fun f _ => serving_phaseOk ph (by decide) f) sel canon hRegionCtrl rfl (v := 2#32)
    (by decide) (by rw [hRegionCtrl_chk_release, valid]; rfl) rfl]
  rfl

theorem exec_regionRelease_refused (other : s.rgState q ≠ 1) :
    exec .regionRelease s = .next (s.illegal 0 causeState RDMA.REGION_CTRL.off 2) := by
  rw [exec_regionRelease, regionCtrl_control.refuses wr (fun f _ => serving_phaseOk ph (by decide) f) sel hRegionCtrl (v := 2#32) (by decide)
    (by rw [hRegionCtrl_chk_release]; simpa using other)]
  rfl

end region

/-- Settles O45: each move is a write of QP_CTRL, each change of a region one of REGION_CTRL, taken or refused by the register's own check. -/
theorem queuePairsAndRegions : Obligations.QueuePairsAndRegions := by
  intro s q canon wr ph
  refine ⟨moveAllowed_iff, fun c n row sel => ?moves, fun sel => ⟨exec_commitCmd_takes wr ph sel canon, exec_commitCmd_refused wr ph sel,
    exec_regionRelease_takes wr ph sel canon, exec_regionRelease_refused wr ph sel⟩⟩
  case moves =>
    obtain ⟨low, asks⟩ := exec_moveRow row s
    rw [asks]
    exact ⟨fun allowed fields => by rw [writeQpCtrl_takes wr ph sel low canon allowed fields],
      fun refused => by rw [writeQpCtrl_refuses wr ph sel low refused]⟩

end Sys2Proof.Machine
end

section
/-! A tenant's key (R417, R420): what LOAD and CLEAR leave. -/

namespace Sys2Proof.Machine

open Sys2Proof.Laws.Tenant

variable {s : State} {t : Nat}

/-- The refusals of a LOAD in the order of their causes (R417). -/
theorem loadFail_eq (s : State) (t : Nat) : s.loadFail t =
    if s.tenState t ≠ 1 then 1 else if kvFind s.part.keys t ≠ none then 2 else if (s.keyData t).take 32 = (s.keyData t).drop 32 then 3
      else if (s.keyData t).take 32 = zeros 32 ∨ (s.keyData t).drop 32 = zeros 32 then 4 else 0 := by
  unfold State.loadFail
  simp only [ne_eq, Option.isSome_iff_ne_none]

theorem loadFail_lt (s : State) (t : Nat) : s.loadFail t < 8 := by
  rw [loadFail_eq]
  repeat' split
  all_goals decide

/-- The key table replaced, every register as it was. -/
def State.setKeys (s : State) (keys : List (Nat × List Byte)) : State := { s with part := { s.part with keys := keys } }

/-- What a LOAD of the key `k` that is not refused writes, after KEY_DATA is zeroed (R417). -/
def State.keyTaken (s : State) (t : Nat) (k : List Byte) : State :=
  ((s.setKeys (kvSet s.part.keys t k)).put PART.KEY_STATUS.LOADED 1 t).setReg PART.KEY_KCV.off (BitVec.ofNat 32 (kcv k)) t

/-- The words of KEY_DATA are other registers than KEY_STATUS and KEY_KCV. -/
theorem keyData_ne {i o : Nat} (low : i < 16) (other : o = PART.KEY_STATUS.off ∨ o = PART.KEY_KCV.off) :
    regKey (PART.KEY_DATA.off + 4 * i) t ≠ regKey o t := by
  rcases other with rfl | rfl <;>
  · simp only [regKey, PART.KEY_STATUS.off, PART.KEY_KCV.off, PART.KEY_DATA.off]
    omega

theorem keyStatus_ne_kcv : regKey PART.KEY_STATUS.off t ≠ regKey PART.KEY_KCV.off t := by
  simp only [regKey, PART.KEY_STATUS.off, PART.KEY_KCV.off]
  omega

section kept

variable (wf : spWf regDefault s.regs = true)
include wf

theorem put_refuseCause_keyData (cause : Nat) {i : Nat} (low : i < 16) :
    (s.put PART.KEY_STATUS.REFUSE_CAUSE cause t).reg (PART.KEY_DATA.off + 4 * i) t = s.reg (PART.KEY_DATA.off + 4 * i) t :=
  reg_setReg_other s wf _ _ _ (keyData_ne low (.inl rfl))

theorem keyTaken_keyData (k : List Byte) {i : Nat} (low : i < 16) :
    (s.keyTaken t k).reg (PART.KEY_DATA.off + 4 * i) t = s.reg (PART.KEY_DATA.off + 4 * i) t :=
  (reg_setReg_other _ (setReg_wf _ wf _ _ _) _ _ _ (keyData_ne low (.inr rfl))).trans
    (reg_setReg_other (s.setKeys _) wf _ _ _ (keyData_ne low (.inl rfl)))

theorem keyTaken_loaded (k : List Byte) : (s.keyTaken t k).get PART.KEY_STATUS.LOADED t = 1 :=
  (congrArg (fieldGet · _ _) (reg_setReg_other _ (setReg_wf _ wf _ _ _) _ _ _ keyStatus_ne_kcv)).trans
    (get_put_same _ wf PART.KEY_STATUS.LOADED 1 t (by decide))

theorem keyTaken_refuseCause (k : List Byte) :
    (s.keyTaken t k).get PART.KEY_STATUS.REFUSE_CAUSE t = s.get PART.KEY_STATUS.REFUSE_CAUSE t :=
  (congrArg (fieldGet · _ _) (reg_setReg_other _ (setReg_wf _ wf _ _ _) _ _ _ keyStatus_ne_kcv)).trans
    (get_put_fld (s.setKeys _) wf PART.KEY_STATUS.LOADED 1 t PART.KEY_STATUS.REFUSE_CAUSE rfl (by decide) (by decide))

theorem keyTaken_kcv (k : List Byte) : (s.keyTaken t k).reg PART.KEY_KCV.off t = BitVec.ofNat 32 (kcv k) :=
  reg_setReg_same _ (setReg_wf _ wf _ _ _) _ _ _

end kept

/-- LOAD zeroes KEY_DATA and shows its cause; the key is taken only when the cause is 0. -/
theorem keyLoad_act (wf : spWf regDefault s.regs = true) {cause : Nat} (fails : s.loadFail t = cause) :
    (hKeyCtrl.act s t 1#32).get PART.KEY_STATUS.REFUSE_CAUSE t = cause ∧
    (∀ i < 16, (hKeyCtrl.act s t 1#32).reg (PART.KEY_DATA.off + 4 * i) t = 0#32) ∧
    (cause ≠ 0 → (hKeyCtrl.act s t 1#32).part = s.part) ∧
    (cause = 0 → kvFind (hKeyCtrl.act s t 1#32).part.keys t = some (s.keyData t) ∧ (hKeyCtrl.act s t 1#32).get PART.KEY_STATUS.LOADED t = 1 ∧
      (hKeyCtrl.act s t 1#32).reg PART.KEY_KCV.off t = BitVec.ofNat 32 (kcv (s.keyData t))) := by
  obtain ⟨z, act, part, zero, zwf⟩ := key_load wf rfl fails
  generalize hKeyCtrl.act s t 1#32 = u at act ⊢
  have shown : (z.put PART.KEY_STATUS.REFUSE_CAUSE cause t).get PART.KEY_STATUS.REFUSE_CAUSE t = cause :=
    (get_put_same z zwf _ _ _ (by decide)).trans (Nat.mod_eq_of_lt (fails ▸ loadFail_lt s t))
  have held (i : Nat) (low : i < 16) := (put_refuseCause_keyData zwf cause (t := t) low).trans (zero i low)
  by_cases none : cause = 0
  · rw [if_neg (by simp [none])] at act
    obtain rfl : u = (z.put PART.KEY_STATUS.REFUSE_CAUSE cause t).keyTaken t (s.keyData t) := act
    have wf' := setReg_wf _ zwf PART.KEY_STATUS.off (fieldPut (z.reg PART.KEY_STATUS.off t) 1 3 cause) t
    exact ⟨(keyTaken_refuseCause wf' _).trans shown, fun i low => (keyTaken_keyData wf' _ low).trans (held i low), absurd none,
      fun _ => ⟨kvFind_kvSet _ _ _, keyTaken_loaded wf' _, keyTaken_kcv wf' _⟩⟩
  · rw [if_pos none] at act
    rw [act]
    exact ⟨shown, held, fun _ => part, fun zero => absurd zero none⟩

theorem keyClear_refused (needed : s.keyNeeded t = true) : hKeyCtrl.act s t 2#32 = s.put PART.KEY_STATUS.REFUSE_CAUSE 5 t := by
  unfold hKeyCtrl
  dsimp only
  rw [if_neg (by decide), if_pos (by decide), if_pos needed]

/-- Settles O52: KEY_CTRL takes both commands (`key_bit`), and its action is read off for each. -/
theorem tenantKeys : Obligations.TenantKeys := by
  intro s t canon wr ph sel mine
  obtain ⟨load, clear⟩ := key_bit canon wr ph sel mine
  have wf := canonical_regs canon
  refine ⟨?load, fun needed => by rw [clear, keyClear_refused needed], fun free => ?clear⟩
  case load =>
    rintro k cause rfl causeIs
    exact ⟨_, load, keyLoad_act wf ((loadFail_eq s t).trans causeIs.symm)⟩
  case clear =>
    obtain ⟨u, act, rest⟩ := key_clear wf free
    exact ⟨u, act ▸ clear, rest⟩

end Sys2Proof.Machine
end

section
/-! Sensors and the SMBus (R500, R501, R514, R515). -/

namespace Sys2Proof.Machine

open Sys2Proof.Laws.Physical

/-- What a sample leaves besides a trip: the sensors' values, the warning flags with SMB_ALERT, the trip bits and the hold of a card in reset
(R500, R501). -/
def State.sampled (s : State) (temps : List Int) (vin pin : List Nat) : State :=
  let warn := ((List.range 8).map fun g => if warnAfter temps vin (bits s.pw.warn g 1 == 1) g then 2 ^ g else 0).foldl (· + ·) 0
  { s with pw := { s.pw with temps := temps, vin := vin, pin := pin, warn := warn, smbAlert := warn != 0, trip := s.pw.trip ||| tripBits temps,
                             tripHold := s.pw.held && (tripBits temps != 0 || (s.pw.tripHold && !tripCool temps)) } }

/-- The lowest group that is at its trip level and had not tripped before. -/
def State.freshTrip (s : State) (temps : List Int) : Option Nat :=
  (List.range 8).find? fun g => bits (tripBits temps) g 1 == 1 && bits s.pw.trip g 1 == 0

section sample

variable {s : State} {temps : List Int} {vin pin : List Nat}

theorem exec_thermalSample (s : State) (temps : List Int) (vin pin : List Nat) : exec (.thermalSample temps vin pin) s =
    .next (match s.freshTrip temps with
      | none => s.sampled temps vin pin
      | some g => if s.up then (s.sampled temps vin pin).thermalTrip g else s.sampled temps vin pin) := by
  show execThermalSample temps vin pin s = _
  unfold execThermalSample State.freshTrip
  dsimp only
  generalize List.find? _ _ = fresh
  cases fresh <;> rfl

/-- A bit that is not 1 is 0. -/
theorem bit_ne_one {n k : Nat} : bits n k 1 ≠ 1 ↔ bits n k 1 = 0 := by
  have : bits n k 1 < 2 := Nat.mod_lt _ (by decide)
  omega

theorem freshTrip_none (latched : ∀ g < 8, bits (tripBits temps) g 1 = 1 → bits s.pw.trip g 1 = 1) : s.freshTrip temps = none := by
  refine List.find?_eq_none.mpr fun g low fresh => ?_
  obtain ⟨hot, cold⟩ : bits (tripBits temps) g 1 = 1 ∧ bits s.pw.trip g 1 = 0 := by simpa using fresh
  exact bit_ne_one.mpr cold (latched g (List.mem_range.mp low) hot)

theorem freshTrip_some {g : Nat} (low : g < 8) (hot : bits (tripBits temps) g 1 = 1) (cold : bits s.pw.trip g 1 = 0)
    (first : ∀ k < g, bits (tripBits temps) k 1 = 1 → bits s.pw.trip k 1 = 1) : s.freshTrip temps = some g := by
  refine find_fresh _ g low (by simp [hot, cold]) fun k below => ?_
  by_cases h : bits (tripBits temps) k 1 = 1
  · simp [first k below h]
  · simp [h]

end sample

/-! ### The SMBus -/

/-- What a READ_DWORD at an offset reads (Table 5-2): zero outside the subset. -/
def State.smbusRead (s : State) (off : Nat) : State × Word := if smbusMay off && off % 4 == 0 then s.readPath 2 off else (s, 0#32)

theorem exec_readDword {s : State} (running : s.pw.held = false) : exec .readDword s =
    .next ({ (s.smbusRead s.pw.smOffset).1 with
      pw := { (s.smbusRead s.pw.smOffset).1.pw with smOffset := (s.pw.smOffset + 4) % 2 ^ 24 } }.emit
        (.smbus (leBytes 4 (s.smbusRead s.pw.smOffset).2.toNat))) := by
  show execReadDword s = _
  unfold execReadDword
  rw [if_neg (by simp [running])]
  rfl

theorem exec_readDword_held {s : State} (held : s.pw.held = true) : exec .readDword s = .next (s.emit .smbusNack) := by
  show execReadDword s = _
  unfold execReadDword
  rw [if_pos held]

/-- Settles O60: a sample trips at the lowest fresh group, if any; a READ_DWORD reads through the SMBus path inside the subset alone. -/
theorem sensorsAndSmbus : Obligations.SensorsAndSmbus := by
  intro s
  refine ⟨?sample, ?levels, fun off => rfl, exec_readDword_held, ?read, rfl, telemetry_length s⟩
  case sample =>
    rintro temps vin pin warn u rfl tripped hold rfl rfl rfl
    refine ⟨fun latched => ?_, fun down => ?_, fun g low hot cold first up => ?_⟩ <;> rw [exec_thermalSample]
    · rw [freshTrip_none latched]
      rfl
    · cases s.freshTrip temps with
      | none => rfl
      | some g => dsimp only; rw [if_neg (by simp [down])]; rfl
    · rw [freshTrip_some low hot cold first]
      dsimp only
      rw [if_pos up]
      exact ⟨_, rfl, fun canon => trip_does (s.sampled temps vin pin) (canonical_regs canon) g⟩
  case levels =>
    intro temps g row
    refine tripBits_bit temps g ?_ ?_ <;>
    · simp only [List.mem_cons, Prod.mk.injEq, List.not_mem_nil, or_false] at row
      omega
  case read =>
    intro running
    refine ⟨_, _, _, exec_readDword running, rfl, fun may aligned => ?_, fun outside => ?_⟩ <;> unfold State.smbusRead
    · rw [if_pos (by simp [may, aligned])]
    · rw [if_neg (by simpa using fun may aligned => outside.elim (by simp [may]) (absurd aligned))]
      exact ⟨rfl, rfl⟩

end Sys2Proof.Machine
end

section
/-! The host-liveness watchdog turned on and off (R454 to R456). -/

namespace Sys2Proof.Machine

open Sys2Proof.Laws.Watchdog

variable {s : State} {key : Word}

/-! ### HOST_DISABLE: the two keys -/

/-- The first key dropped. -/
def State.keyGone (s : State) : State := { s with wd := { s.wd with key1 := none } }

/-- The register's one field is written by any value. -/
theorem hostDisable_written (s : State) (key : Word) :
    diR.fields = diR.fields.filter fun f => f.written (s.reg WDOG.HOST_DISABLE.off 0) key := rfl

theorem hostDisable_phase (ph : s.living = true) (f : FieldRow) : s.phaseOk WDOG.HOST_DISABLE.off f = true := by
  unfold State.phaseOk
  rcases living_cases ph with h | h | h <;> rw [h] <;> rfl

theorem hostDisable_key (key : Word) : fieldGet (diR.fieldBits key) 0 16 = fieldGet key 0 16 :=
  fieldGet_fieldBits key (f := ⟨0, 16, .wo, 0⟩) (by decide) (by decide)

theorem hHostDisable_chk_first (fresh : s.wd.key1 = none) (old : Word) :
    hHostDisable.chk s 0 old (diR.fieldBits key) = (fieldGet key 0 16 != 0x5D70) := by
  unfold hHostDisable
  dsimp only
  rw [fresh, hostDisable_key]

theorem hHostDisable_chk_second {a : Nat} (first : s.wd.key1 = some a) (old : Word) :
    hHostDisable.chk s 0 old (diR.fieldBits key) = (fieldGet key 0 16 != 0xA28F || decide (a + 1 < s.stroke)) := by
  unfold hHostDisable
  dsimp only
  rw [first, hostDisable_key]

theorem hHostDisable_act_first (right : fieldGet key 0 16 = 0x5D70) :
    hHostDisable.act s 0 (diR.fieldBits key) = { s with wd := { s.wd with key1 := some s.stroke } } := by
  unfold hHostDisable
  dsimp only
  rw [hostDisable_key, if_pos right]

theorem hHostDisable_act_second (right : fieldGet key 0 16 = 0xA28F) : hHostDisable.act s 0 (diR.fieldBits key) =
    (((({ s.keyGone with wd := { s.keyGone.wd with host := { s.keyGone.wd.host with running := false, served := false, starting := false } } } :
      State).put WDOG.HOST_CTRL.ENABLE 0).put WDOG.HOST_COUNT.COUNT 0).setReg WDOG.HOST_STATUS.off 0#32) := by
  unfold hHostDisable
  dsimp only
  rw [hostDisable_key, if_neg (by omega)]
  rfl

section disable

variable (wf : spWf regDefault s.regs = true) (pf : s.pf0 = true) (lax : s.flag ROLE.AUDIT_POLICY.STRICT = false)
include wf pf lax

theorem exec_hostDisable_locked (lock : s.flag WDOG.POLICY.LOCK = true) :
    exec (.hostDisable key) s = .next (s.keyGone.illegal 0 causeLocked WDOG.HOST_DISABLE.off key.toNat) :=
  congrArg Host.Outcome.next (dis_bar0 wf pf lax rfl (some causeLocked)
    (refuses_locked (hostDisable_written s key) ⟨_, List.mem_cons_self .., (dis_lock s _).trans lock⟩))

variable (ph : s.living = true) (unlocked : s.flag WDOG.POLICY.LOCK = false)
include ph unlocked

theorem exec_hostDisable_refused (wrong : hHostDisable.chk s 0 (s.reg WDOG.HOST_DISABLE.off) (diR.fieldBits key) = true) :
    exec (.hostDisable key) s = .next (s.keyGone.illegal 0 causeState WDOG.HOST_DISABLE.off key.toNat) :=
  congrArg Host.Outcome.next (dis_bar0 wf pf lax rfl (some causeState) (refuses_chk (hostDisable_written s key)
    (fun f _ => (dis_lock s f).trans unlocked) (fun f _ => hostDisable_phase ph f) wrong))

theorem exec_hostDisable_takes (right : hHostDisable.chk s 0 (s.reg WDOG.HOST_DISABLE.off) (diR.fieldBits key) = false) :
    exec (.hostDisable key) s = .next (s.recorded (hHostDisable.act s 0 (diR.fieldBits key)) WDOG.HOST_DISABLE.off 0 key) :=
  congrArg Host.Outcome.next (dis_bar0 wf pf lax rfl none (refuses_nothing (hostDisable_written s key)
    (fun f _ => (dis_lock s f).trans unlocked) (fun f _ => hostDisable_phase ph f) rfl right lax))

end disable

/-! ### HOST_CTRL.ENABLE -/

theorem exec_hostEnable (s : State) : exec .hostEnable s = .next (bar0 hHostCtrl WDOG.HOST_CTRL.off (wcR.rwBits (s.reg WDOG.HOST_CTRL.off) ||| 1#32) s) :=
  rfl

/-- The word that sets ENABLE keeps CLOCK and ACTION. -/
theorem hostEnable_word (o : Word) : fieldGet (wcR.fieldBits (wcR.rwBits o ||| 1#32)) 0 1 = 1 ∧
    fieldGet (wcR.fieldBits (wcR.rwBits o ||| 1#32)) 1 2 = fieldGet o 1 2 := by
  constructor
  · exact (fieldGet_fieldBits _ (f := ⟨0, 1, .w1s, 0⟩) (by decide) (by decide)).trans (fieldGet_bitOr _ (k := 0) (by decide))
  · apply Nat.eq_of_testBit_eq
    intro j
    rw [testBit_fieldGet, testBit_fieldGet]
    by_cases low : j < 2
    · rw [getLsbD_fieldBits _ _ (by decide), wc_rw]
      rcases (by omega : j = 0 ∨ j = 1) with rfl | rfl <;> simp [FieldRow.has]
    · simp [low]

theorem hostCtrl_locked (s : State) (f : FieldRow) : s.locked WDOG.HOST_CTRL.off f = (s.flag WDOG.POLICY.LOCK && f.acc == .rw) := rfl

/-- The fields that the word that sets ENABLE writes: ENABLE alone, which no lock bars. -/
theorem hostEnable_unlocked (s : State) (f : FieldRow) (written : f ∈ wcR.fields.filter fun f => f.written (s.reg WDOG.HOST_CTRL.off)
    (wcR.rwBits (s.reg WDOG.HOST_CTRL.off) ||| 1#32)) : s.locked WDOG.HOST_CTRL.off f = false := by
  obtain ⟨row, written⟩ := List.mem_filter.mp written
  have kept {g : FieldRow} (row : g ∈ wcR.fields) (keeps : g.keepsBits = true) :=
    fieldGet_rwOr (r := wcR) (s.reg WDOG.HOST_CTRL.off) (k := 0) (by decide) (by decide) row keeps
  rw [hostCtrl_locked, wc_written (kept (g := ⟨1, 1, .rw, 0⟩) (by decide) rfl) (kept (g := ⟨2, 1, .rw, 0⟩) (by decide) rfl) f row written]
  exact Bool.and_false _

theorem hostEnable_store (o : Word) : wcR.store o (wcR.rwBits o ||| 1#32) = o := store_bit (r := wcR) o (k := 0) (by decide) (by decide)

theorem hHostCtrl_chk (s : State) : hHostCtrl.chk s 0 (s.reg WDOG.HOST_CTRL.off) (wcR.fieldBits (wcR.rwBits (s.reg WDOG.HOST_CTRL.off) ||| 1#32)) =
    (s.get WDOG.HOST_TASKS.MASK == 0) := by
  obtain ⟨enable, others⟩ := hostEnable_word (s.reg WDOG.HOST_CTRL.off)
  unfold hHostCtrl
  dsimp only
  rw [enable, others]
  simp

section enable

variable (pf : s.pf0 = true) (key1 : s.wd.key1 = none) (ph : s.serving = true)
include pf key1 ph

theorem exec_hostEnable_refused (mask : s.get WDOG.HOST_TASKS.MASK = 0) : exec .hostEnable s =
    .next (s.illegal 0 causeState WDOG.HOST_CTRL.off (s.reg WDOG.HOST_CTRL.off &&& 6#32 ||| 1#32).toNat) := by
  rw [exec_hostEnable, bar0_of_refuses (r := wcR) pf key1 (by decide) (by decide)
    (refuses_chk rfl (hostEnable_unlocked s) (fun f _ => wc_phase ph f) ((hHostCtrl_chk s).trans (by rw [mask]; rfl))), wc_rw]

theorem exec_hostEnable_takes (wf : spWf regDefault s.regs = true) (lax : s.flag ROLE.AUDIT_POLICY.STRICT = false)
    (mask : s.get WDOG.HOST_TASKS.MASK ≠ 0) : exec .hostEnable s =
      .next (s.recorded (hHostCtrl.act s 0 (wcR.fieldBits (wcR.rwBits (s.reg WDOG.HOST_CTRL.off) ||| 1#32))) WDOG.HOST_CTRL.off 0
        (s.reg WDOG.HOST_CTRL.off &&& 6#32 ||| 1#32)) := by
  rw [exec_hostEnable, bar0_of_accepts (r := wcR) pf key1 (by decide)
    (refuses_nothing rfl (hostEnable_unlocked s) (fun f _ => wc_phase ph f) rfl ((hHostCtrl_chk s).trans (by simp [mask])) lax),
    accept_eq (h := hHostCtrl) rfl (by decide) (by decide), show s.selInst wcR = 0 from rfl, hostEnable_store, setReg_self s wf, wc_rw]

end enable

theorem hHostCtrl_act_enabled {v : Word} (on : s.flag WDOG.HOST_CTRL.ENABLE = true) : hHostCtrl.act s 0 v = s := by
  unfold hHostCtrl
  dsimp only
  rw [if_neg (by simp [on])]

theorem hHostCtrl_act_starts {v : Word} (enable : fieldGet v 0 1 = 1) (off : s.flag WDOG.HOST_CTRL.ENABLE = false) : hHostCtrl.act s 0 v =
    ((({ s with wd := { s.wd with host := ⟨true, s.get WDOG.HOST_PERIOD.UNITS, s.get WDOG.HOST_TASKS.MASK, false, true⟩ } } : State).put
      WDOG.HOST_CTRL.ENABLE 1).setReg WDOG.HOST_STATUS.off 1#32).put WDOG.HOST_COUNT.COUNT 0 := by
  unfold hHostCtrl
  dsimp only
  rw [if_pos (by simp [enable, off])]

/-- Settles O56: each key and ENABLE is one write, taken or refused by its register's own rule; the lock is asked before the phase. -/
theorem hostWatchdogSwitch : Obligations.HostWatchdogSwitch := by
  rintro s key w _ _ _ canon pf lax rfl rfl rfl
  have wf := canonical_regs canon
  refine ⟨fun ph unlocked => ⟨fun fresh right => ?first, fun fresh wrong => ?notFirst, fun a first => ⟨fun right soon => ?second,
    fun wrong => ?notSecond⟩⟩, exec_hostDisable_locked wf pf lax, ?enable⟩
  case first =>
    rw [exec_hostDisable_takes wf pf lax ph unlocked (by rw [hHostDisable_chk_first fresh, right]; rfl), hHostDisable_act_first right]
  case notFirst => exact exec_hostDisable_refused wf pf lax ph unlocked (by rw [hHostDisable_chk_first fresh]; simpa using wrong)
  case second =>
    rw [exec_hostDisable_takes wf pf lax ph unlocked (by rw [hHostDisable_chk_second first, right]; simpa using soon),
      hHostDisable_act_second right]
    rfl
  case notSecond => exact exec_hostDisable_refused wf pf lax ph unlocked (by rw [hHostDisable_chk_second first]; simpa using wrong)
  case enable =>
    rintro key1 ph rfl
    refine ⟨fun mask off => ?_, fun mask on => ?_, exec_hostEnable_refused pf key1 ph⟩ <;> rw [exec_hostEnable_takes pf key1 ph wf lax mask]
    · rw [hHostCtrl_act_starts (hostEnable_word _).1 off]
    · rw [hHostCtrl_act_enabled on]

end Sys2Proof.Machine
end

section
/-! Expiry, the grace timer and the crash save (R458 to R463, R466). -/

namespace Sys2Proof.Machine

open Sys2Proof.Laws.Watchdog

variable {s : State}

/-- A filter of the first numbers that one of them alone passes. -/
theorem filter_range_unique {n d : Nat} (low : d < n) {p : Nat → Bool} (only : ∀ k < n, p k = true ↔ k = d) : (List.range n).filter p = [d] := by
  rw [List.filter_congr (q := (· == d)) fun k below => Bool.eq_iff_iff.mpr ((only k (List.mem_range.mp below)).trans beq_iff_eq.symm),
    List.filter_beq, List.count_eq_one_of_mem List.nodup_range (List.mem_range.mpr low)]
  rfl

/-! ### What the dropped holds leave -/

theorem cutPort_hmem (s : State) (p : Nat) : (s.cutPort p).hmem = s.hmem := by
  unfold State.cutPort
  dsimp only
  split
  · rfl
  · exact List.foldlRecOn (motive := fun t : State => t.hmem = s.hmem) _ _ rfl fun _ kept _ _ => kept

theorem dropHolds_hmem (s : State) : s.dropHolds.hmem = s.hmem := by
  unfold State.dropHolds
  refine List.foldlRecOn (motive := fun t : State => t.hmem = s.hmem) _ _ rfl fun t kept i _ => ?_
  dsimp only
  split
  · exact (cutPort_hmem _ _).trans ((cutPort_hmem _ _).trans kept)
  · exact kept

theorem dropHolds_phase (wf : spWf regDefault s.regs = true) : s.dropHolds.phase = s.phase :=
  (dropHolds_regs s).get wf SYS.BRINGUP_PHASE.PHASE 0 (by decide) (by decide)

/-! ### An expiry -/

/-- An expiry of the core clock only drops the holds and starts the grace timer (R463). -/
theorem expire_core {missing seq : Nat} (fresh : s.wd.hdr = none) (z : State)
    (hz : z = { s with wd := { s.wd with hdr := some (s.newHdr 1 4 0 missing seq) } }) : s.expire false 4 0 missing seq =
      { z.dropHolds with wd := { z.dropHolds.wd with grace := some (z.get WDOG.GRACE.TICKS), qlimit := none, coreStop := true } } := by
  subst hz
  unfold State.expire
  rw [fresh]
  rfl

/-! ### The clock-stop monitor -/

/-- Of the clocks found stopped, those whose domain is RUNNING (R458). -/
def State.stoppedRunning (s : State) (stopped : List Nat) : List Nat :=
  (List.range 22).filter fun d => stopped.contains d && s.get CLK.DOMAIN_STATUS.STATE d == domRUNNING

section monitor

variable (up : s.up = true) (shut : s.scanOpen = false) {stopped : List Nat}
include up shut

theorem exec_clockStopCheck_none (none : s.stoppedRunning stopped = []) : exec (.clockStopCheck stopped) s = .next s := by
  show execClockStopCheck stopped s = _
  unfold execClockStopCheck
  rw [if_neg (by simp [up, shut])]
  change (match s.stoppedRunning stopped with | [] => _ | d :: _ => _) = _
  rw [none]

theorem exec_clockStopCheck_one {d : Nat} (one : s.stoppedRunning stopped = [d]) : exec (.clockStopCheck stopped) s =
    .next ((s.setReg WDOG.CLOCK_STATUS.off (s.reg WDOG.CLOCK_STATUS.off ||| BitVec.ofNat 32 (2 ^ d))).expire false 4 d s.sysMissing
      (s.get WDOG.SYS_TASKS.SEQ)) := by
  show execClockStopCheck stopped s = _
  unfold execClockStopCheck
  rw [if_neg (by simp [up, shut])]
  unfold State.stoppedRunning at one
  dsimp only
  rw [show (List.range 22).filter (fun d => stopped.contains d && s.get CLK.DOMAIN_STATUS.STATE d == 0) = [d] from one]
  rfl

end monitor

/-! ### The crystal, the power-down's limit and the end of grace -/

theorem exec_xtalFail (up : s.up = true) : exec .xtalFail s = .next (if s.flag WDOG.CLOCK_STATUS.XTAL_FAIL then s
    else ((s.put WDOG.CLOCK_STATUS.XTAL_FAIL 1).fault clsRESOURCE 0 0).event (some [0]) 0x47 0) := by
  show execXtalFail s = _
  unfold execXtalFail
  rw [up, apply_ite Host.Outcome.next]
  rfl

theorem exec_quiesceLimitExpiry (up : s.up = true) {h : CrashHdr} {n : Nat} (hdr : s.wd.hdr = some h) (limit : s.wd.qlimit = some n) :
    exec .quiesceLimitExpiry s = .next (if n ≤ 1 then
      ({ s with wd := { s.wd with hdr := some { h with quiesce := 2 }, qlimit := none } } : State).expireNow false else s) := by
  show execQuiesceLimitExpiry s = _
  unfold execQuiesceLimitExpiry State.qlimitDue State.quiesceLimit
  rw [up, hdr, limit]
  simp

theorem exec_crashDone (running : s.pw.held = false) (log : List Byte) :
    exec (.crashDone log) s = .next (if s.wd.coreStop then s else s.graceEnd log) := by
  show execCrashDone log s = _
  unfold execCrashDone
  rw [running]
  rfl

theorem exec_graceExpiry (running : s.pw.held = false) {n : Nat} (grace : s.wd.grace = some n) :
    exec .graceExpiry s = .next (if n ≤ 1 then s.graceEnd [] else s) := by
  show execGraceExpiry s = _
  unfold execGraceExpiry State.graceDue
  rw [running, grace]
  simp

/-- The crash header stands where it was written: log first, header last (R462). -/
theorem memByte_crashHeader (wf : spWf memDefault s.hmem = true) (base : Nat) (log : List Byte) (h : CrashHdr) (size fw k : Nat) (b : Byte)
    (byte : (crashHeader h size fw)[k]? = some b) :
    ((s.memWrite (base + 0x1100) log).memWrite base (crashHeader h size fw)).memByte (base + k) = b :=
  memByte_memWrite_same _ _ base (memWrite_hwf log s _ wf) (crashHeader_length h size fw) k b byte

/-- Settles O57: a first expiry by `first_expiry`, the monitor by the one clock its filter finds, the end of grace by `grace_end`, an expiry of the
core clock by what dropping the holds leaves. -/
theorem expiryAndGrace : Obligations.ExpiryAndGrace := by
  intro s canon running
  have wf := canonical_regs canon
  refine ⟨?first, fun up shut => ⟨fun stopped idle => ?idle, fun d low runs => ?stops⟩, fun up => ⟨fun ok => ?fails, fun failed => ?failed,
    fun h n hdr limit => ⟨fun due => ?limit, fun early => ?before⟩⟩, ?grace, fun n grace early => ?later, fun log core => ?noHandler, ?core⟩
  case first =>
    rintro host cause domain missing seq t fresh now clock rfl
    obtain ⟨z, noted, regs, hdr⟩ := hdr_set s (s.newHdr (if host then 2 else 1) cause domain missing seq)
    have enters : s.expire host cause domain missing seq = z.expireNow false :=
      noted ▸ expire_first fresh (fun quiet => now quiet.1 quiet.2.1 quiet.2.2) clock
    exact first_expiry wf z regs hdr _ (enters.trans (expireNow_false z))
  case idle =>
    refine exec_clockStopCheck_none up shut (List.filter_eq_nil_iff.mpr fun d low stops => ?_)
    obtain ⟨mem, runs⟩ := Bool.and_eq_true_iff.mp stops
    exact idle d (List.mem_range.mp low) (List.contains_iff_mem.mp mem) (beq_iff_eq.mp runs)
  case stops =>
    refine exec_clockStopCheck_one up shut (filter_range_unique low fun k _ => ?_)
    simp only [List.contains_cons, List.contains_nil, Bool.or_false, Bool.and_eq_true, beq_iff_eq]
    exact ⟨And.left, fun same => ⟨same, same ▸ runs⟩⟩
  case fails => rw [exec_xtalFail up, if_neg (by simp [ok])]
  case failed => rw [exec_xtalFail up, if_pos failed]
  case limit => rw [exec_quiesceLimitExpiry up hdr limit, if_pos due]
  case before => rw [exec_quiesceLimitExpiry up hdr limit, if_neg (by omega)]
  case later => rw [exec_graceExpiry running grace, if_neg (by omega)]
  case noHandler => rw [exec_crashDone running, if_pos core]
  case grace =>
    rintro log h n u head hdr grace alive rfl hu
    refine ⟨⟨s.graceEnd log, ?_, grace_end running hdr grace alive u hu⟩, ?_, fun base k b byte => ?_⟩
    · rw [exec_crashDone running, if_neg (by simp [alive])]
    · rintro rfl due
      exact ⟨s.graceEnd [], by rw [exec_graceExpiry running grace, if_pos due], grace_end running hdr grace alive u hu⟩
    · rw [hu, if_neg base]
      exact memByte_crashHeader (canonical_hmem canon) s.crashBase _ h _ _ k b byte
  case core =>
    rintro missing seq t fresh rfl
    rw [expire_core fresh _ rfl]
    exact ⟨rfl, rfl, dropHolds_phase (s := { s with wd := { s.wd with hdr := some (s.newHdr 1 4 0 missing seq) } }) wf, dropHolds_hmem _⟩

end Sys2Proof.Machine
end

section
/-! Stops, starts and gating of clock domains (R439 to R443). -/

namespace Sys2Proof.Machine

open Sys2Proof.Laws.Clocks

variable {s : State} {d : Nat}

/-- A bit that is kept neither rises nor falls. -/
theorem bit_steady (x : Nat) : (x == 1 && x == 0) = false ∧ (x == 0 && x == 1) = false := by
  rcases x with _ | _ | x <;> exact ⟨rfl, rfl⟩

/-- The word that sets STOP (bit 0) or START (bit 1) and keeps the RW fields. -/
abbrev domainWord (o : Word) (k : Nat) : Word := o &&& 0x1C#32 ||| BitVec.ofNat 32 (2 ^ k)

theorem domainStop_chk (s : State) (d : Nat) (o : Word) :
    hDomainCtrl.chk s d o (doR.fieldBits (domainWord o 0)) = !(s.dom d == domRUNNING && stoppable d && s.stopOk d) := by
  have kept := do_bit o 0
  rw [dom_chk s d o _ (do_set o 0 (by decide)) (do_clr o 0 1 (by decide) (by decide) (by decide)) (kept 2 (by decide) (by decide))
    (kept 3 (by decide) (by decide)) (kept 4 (by decide) (by decide)) rfl rfl rfl]
  simp only [bit_steady]
  simp [bne, Bool.or_assoc]

theorem domainStart_chk (s : State) (d : Nat) (o : Word) :
    hDomainCtrl.chk s d o (doR.fieldBits (domainWord o 1)) = !(s.dom d == domOFF && stoppable d) := by
  have kept := do_bit o 1
  rw [dom_chk s d o _ (do_clr o 1 0 (by decide) (by decide) (by decide)) (do_set o 1 (by decide)) (kept 2 (by decide) (by decide))
    (kept 3 (by decide) (by decide)) (kept 4 (by decide) (by decide)) rfl rfl rfl]
  simp only [bit_steady]
  simp [bne]

theorem domainStop_act (s : State) (d : Nat) (o : Word) :
    hDomainCtrl.act s d (doR.fieldBits (domainWord o 0)) = (s.setDom d domOFF).put CLK.DOMAIN_STATUS.PLL_LOCKED 0 d := by
  unfold hDomainCtrl
  dsimp only
  rw [if_pos (do_set o 0 (by decide))]

theorem domainStart_act (s : State) (d : Nat) (o : Word) :
    hDomainCtrl.act s d (doR.fieldBits (domainWord o 1)) = (s.setDom d domSTARTING).put CLK.DOMAIN_STATUS.PLL_LOCKED 0 d := by
  unfold hDomainCtrl
  dsimp only
  rw [if_neg (by rw [do_clr o 1 0 (by decide) (by decide) (by decide)]; decide), if_pos (do_set o 1 (by decide))]

theorem stoppable_iff (d : Nat) : stoppable d = true ↔ 11 ≤ d ∧ d ≤ 20 := by
  unfold stoppable
  simp

/-- The rule under which STOP, or START, is taken (R441). -/
theorem domainStop_ok_iff (s : State) (d : Nat) (o : Word) : hDomainCtrl.chk s d o (doR.fieldBits (domainWord o 0)) = false ↔
    (11 ≤ d ∧ d ≤ 20) ∧ s.dom d = domRUNNING ∧ s.stopOk d = true := by
  rw [domainStop_chk, Bool.not_eq_false', Bool.and_eq_true, Bool.and_eq_true, beq_iff_eq, stoppable_iff]
  tauto

theorem domainStart_ok_iff (s : State) (d : Nat) (o : Word) : hDomainCtrl.chk s d o (doR.fieldBits (domainWord o 1)) = false ↔
    (11 ≤ d ∧ d ≤ 20) ∧ s.dom d = domOFF := by
  rw [domainStart_chk, Bool.not_eq_false', Bool.and_eq_true, beq_iff_eq, stoppable_iff]
  tauto

section switch

variable (wr : s.writable = true) (ph : s.living = true) (sel : (s.reg CLK.DOMAIN_SELECT.off).toNat = d) {o : Word}
  (word : s.reg CLK.DOMAIN_CTRL.off d = o)
include wr ph sel word

theorem exec_domainStop_takes (canon : s.canonical = true) (range : 11 ≤ d ∧ d ≤ 20) (runs : s.dom d = domRUNNING) (ok : s.stopOk d = true) :
    exec .domainStop s = .next (s.recorded ((s.setDom d domOFF).put CLK.DOMAIN_STATUS.PLL_LOCKED 0 d) CLK.DOMAIN_CTRL.off d
      (o &&& 0x1C#32 ||| 1#32)) := by
  subst word
  rw [← domainStop_act s d (s.reg CLK.DOMAIN_CTRL.off d)]
  exact congrArg Host.Outcome.next (bit_sets (f := CLK.DOMAIN_CTRL.STOP) (r := doR) sel (by rw [do_rw]) (canonical_regs canon) wr (by decide)
    (by decide) (by decide) (fun _ _ => rfl) (live_dom ph) rfl ((domainStop_ok_iff s d _).mpr ⟨range, runs, ok⟩) rfl (by decide) (by decide))

theorem exec_domainStart_takes (canon : s.canonical = true) (range : 11 ≤ d ∧ d ≤ 20) (off : s.dom d = domOFF) : exec .domainStart s =
    .next (s.recorded ((s.setDom d domSTARTING).put CLK.DOMAIN_STATUS.PLL_LOCKED 0 d) CLK.DOMAIN_CTRL.off d (o &&& 0x1C#32 ||| 2#32)) := by
  subst word
  rw [← domainStart_act s d (s.reg CLK.DOMAIN_CTRL.off d)]
  exact congrArg Host.Outcome.next (bit_sets (f := CLK.DOMAIN_CTRL.START) (r := doR) sel (by rw [do_rw]) (canonical_regs canon) wr (by decide)
    (by decide) (by decide) (fun _ _ => rfl) (live_dom ph) rfl ((domainStart_ok_iff s d _).mpr ⟨range, off⟩) rfl (by decide) (by decide))

theorem exec_domainStop_refused (other : ¬ ((11 ≤ d ∧ d ≤ 20) ∧ s.dom d = domRUNNING ∧ s.stopOk d = true)) :
    exec .domainStop s = .next (s.illegal 0 causeState CLK.DOMAIN_CTRL.off (o &&& 0x1C#32 ||| 1#32).toNat) := by
  subst word
  exact congrArg Host.Outcome.next (bit_refused (f := CLK.DOMAIN_CTRL.STOP) (w := domainWord _ 0) (r := doR) sel (by rw [do_rw]) wr (by decide) (fun _ _ => rfl)
    (live_dom ph) (by decide) ((Bool.not_eq_false _).mp (mt (domainStop_ok_iff s d _).mp other)))

theorem exec_domainStart_refused (other : ¬ ((11 ≤ d ∧ d ≤ 20) ∧ s.dom d = domOFF)) :
    exec .domainStart s = .next (s.illegal 0 causeState CLK.DOMAIN_CTRL.off (o &&& 0x1C#32 ||| 2#32).toNat) := by
  subst word
  exact congrArg Host.Outcome.next (bit_refused (f := CLK.DOMAIN_CTRL.START) (w := domainWord _ 1) (r := doR) sel (by rw [do_rw]) wr (by decide) (fun _ _ => rfl)
    (live_dom ph) (by decide) ((Bool.not_eq_false _).mp (mt (domainStart_ok_iff s d _).mp other)))

end switch

/-! ### What keeps a domain from stopping (R441) -/

theorem stopOk_spoke (s : State) (low : 11 ≤ d) (high : d ≤ 18) :
    s.stopOk d = true ↔ s.get SPOKE.PORT_CTRL.MODE (d - 11) = 0 ∧ s.pairState ((d - 11) / 2) = 0 := by
  unfold State.stopOk
  rw [if_pos ⟨low, high⟩, Bool.and_eq_true, beq_iff_eq, beq_iff_eq]

theorem stopOk_sprocket (s : State) :
    s.stopOk 19 = true ↔ (∀ n < 4096, s.flag SRCH.NS_CTRL.ENABLE n = false) ∧ s.srch.entries = [] := by
  unfold State.stopOk
  rw [if_neg (by decide), if_pos rfl, Bool.and_eq_true, Bool.not_eq_true', List.any_eq_false, List.isEmpty_iff]
  simp only [List.mem_range, Bool.not_eq_true]

theorem stopOk_gear (s : State) : s.stopOk 20 = true ↔ (∀ n < 8, s.slotState n = 0 ∨ s.slotState n = 6) ∧
    ¬ ((s.load = ldHEADER_CHECK ∨ s.load = ldRECEIVING ∨ s.load = ldVERIFYING ∨ s.load = ldAPPLYING) ∧ leAt s.img.header 12 1 = 3) := by
  have loading : ldHEADER_CHECK ≤ s.load ∧ s.load ≤ ldAPPLYING ↔
      s.load = ldHEADER_CHECK ∨ s.load = ldRECEIVING ∨ s.load = ldVERIFYING ∨ s.load = ldAPPLYING := by
    simp only [ldHEADER_CHECK, ldRECEIVING, ldVERIFYING, ldAPPLYING]
    omega
  unfold State.stopOk
  rw [if_neg (by decide), if_neg (by decide), Bool.and_eq_true, List.all_eq_true]
  simp only [List.mem_range, Bool.or_eq_true, beq_iff_eq, Bool.not_eq_true', ← Bool.not_eq_true, Bool.and_eq_true, decide_eq_true_eq, loading]

/-! ### The start's end, the gate of flash, an overrun -/

section running

variable (up : s.up = true)
include up

theorem exec_domainRunning : exec (.domainRunning d) s =
    .next (if s.dom d = domSTARTING then (s.setDom d domRUNNING).put CLK.DOMAIN_STATUS.PLL_LOCKED 1 d else s) := by
  show execDomainRunning d s = _
  unfold execDomainRunning
  rw [up]
  by_cases h : s.dom d = domSTARTING <;> simp [h]

theorem exec_flashGate : exec .flashGate s = .next (if s.flag CLK.AUTO_GATE.FLASH = true ∧ s.dom 10 = domRUNNING ∧ s.tier.ops = [] ∧
    s.xingBusy 10 = false then s.setDom 10 domGATED else s) := by
  show execFlashGate s = _
  unfold execFlashGate State.nandIdle
  rw [up, apply_ite Host.Outcome.next]
  refine if_congr ?_ rfl rfl
  simp [and_assoc]

theorem exec_crossingOverrun (c : Nat) : exec (.crossingOverrun c) s = .next (if c < 11 then
    (s.setReg CLK.OVERRUN_STATUS.off (s.reg CLK.OVERRUN_STATUS.off ||| BitVec.ofNat 32 (2 ^ c))).sat CLK.OVERRUN_COUNT.COUNT 1 c else s) := by
  show execCrossingOverrun c s = _
  unfold execCrossingOverrun
  rw [up]
  by_cases low : c < 11
  · rw [if_neg (by simp; omega), if_pos low]
  · rw [if_pos (by simp; omega), if_neg low]

end running

/-- Settles O53: STOP and START by the register's rule on the selected domain; the rest by what each event asks of the domain. -/
theorem domainStopsAndStarts : Obligations.DomainStopsAndStarts := by
  intro s d kept
  refine ⟨?switch, stopOk_spoke s, stopOk_sprocket s, stopOk_gear s, fun up => ⟨fun starting => ?_, fun other => ?_, fun auto runs idle drained => ?_,
    fun keeps => ?_, fun c low => ?_, fun c high => ?_⟩⟩
  case switch =>
    rintro canon wr ph sel rfl
    exact ⟨fun low high => exec_domainStop_takes wr ph sel rfl canon ⟨low, high⟩,
      fun other => exec_domainStop_refused wr ph sel rfl fun ⟨⟨low, high⟩, runs, ok⟩ => by
        rcases other with h | h | h | h
        exacts [absurd low (by omega), absurd high (by omega), h runs, absurd ok (by simp [h])],
      fun low high => exec_domainStart_takes wr ph sel rfl canon ⟨low, high⟩,
      fun other => exec_domainStart_refused wr ph sel rfl fun ⟨⟨low, high⟩, off⟩ => by
        rcases other with h | h | h
        exacts [absurd low (by omega), absurd high (by omega), h off]⟩
  · rw [exec_domainRunning up, if_pos starting]
  · rw [exec_domainRunning up, if_neg other]
  · rw [exec_flashGate up, if_pos ⟨auto, runs, idle, drained⟩]
  · rw [exec_flashGate up, if_neg fun ⟨auto, runs, idle, drained⟩ => by simp [auto, runs, idle, drained] at keeps]
  · rw [exec_crossingOverrun up, if_pos low]
  · rw [exec_crossingOverrun up, if_neg (by omega)]

end Sys2Proof.Machine
end

section
/-! Isolation and resets of a clock domain and its crossings (R444, R445, Table 18-5). -/

namespace Sys2Proof.Machine

open Sys2Proof.Laws.Clocks

variable {s u : State} {d k b : Nat} {old : Word}

/-- The fields ISOLATE, RESET and XING_RESET of DOMAIN_CTRL by bit, and a value for one. -/
def ctrlRows : List (Nat × Nat) := [(2, 0), (2, 1), (3, 0), (3, 1), (4, 0), (4, 1)]

/-- The command that writes one of those fields. -/
def ctrlCommand (k b : Nat) : Instr := if k = 2 then .isolate (b == 1) else if k = 3 then .domainReset (b == 1) else .xingReset (b == 1)

theorem ctrlRows_cases (row : (k, b) ∈ ctrlRows) : (k = 2 ∨ k = 3 ∨ k = 4) ∧ (b = 0 ∨ b = 1) := by
  simp only [ctrlRows, List.mem_cons, Prod.mk.injEq, List.not_mem_nil, or_false] at row
  omega

theorem exec_ctrlCommand (row : (k, b) ∈ ctrlRows) (sel : (s.reg CLK.DOMAIN_SELECT.off).toNat = d) (word : s.reg CLK.DOMAIN_CTRL.off d = old) :
    exec (ctrlCommand k b) s = .next (bar0 hDomainCtrl CLK.DOMAIN_CTRL.off (fieldPut (old &&& 0x1C#32) k 1 b) s) := by
  subst sel word
  obtain ⟨rfl | rfl | rfl, rfl | rfl⟩ := ctrlRows_cases row <;> rfl

/-- The RW field `j` after the write of field `k`. -/
def ctrlBit (old : Word) (k b j : Nat) : Nat := if j = k then b else fieldGet old j 1

theorem ctrlBit_same (old : Word) (k b : Nat) : ctrlBit old k b k = b := if_pos rfl

theorem ctrl_low (row : (k, b) ∈ ctrlRows) {j : Nat} (low : j < 2) : fieldGet (fieldPut (old &&& 0x1C#32) k 1 b) j 1 = 0 := by
  obtain ⟨hk, hb⟩ := ctrlRows_cases row
  rw [do_put old k b j hk (by omega) (by omega), if_neg (by omega), if_pos low]

theorem ctrl_bit (row : (k, b) ∈ ctrlRows) {j : Nat} (rw : j = 2 ∨ j = 3 ∨ j = 4) :
    fieldGet (doR.fieldBits (fieldPut (old &&& 0x1C#32) k 1 b)) j 1 = ctrlBit old k b j := by
  obtain ⟨hk, hb⟩ := ctrlRows_cases row
  rw [do_fieldBits _ j (by omega), do_put old k b j hk (by omega) (by omega), if_neg (c := j < 2) (by omega)]
  rfl

theorem isolable_iff (d : Nat) : isolable d = true ↔ 10 ≤ d ∧ d ≤ 20 := by
  unfold isolable
  simp

/-- What refuses a change of one of the fields (Table 18-5): a domain without ISOLATED, a reset without ISOLATE, the end of ISOLATE under a reset,
a RESET that is not permitted now. -/
def State.ctrlBad (s : State) (d : Nat) (old : Word) (k b : Nat) : Prop :=
  fieldGet old k 1 ≠ b ∧ (isolable d = false ∨ (b = 1 ∧ k ≠ 2 ∧ fieldGet old 2 1 = 0) ∨
    (k = 2 ∧ b = 0 ∧ (fieldGet old 3 1 = 1 ∨ fieldGet old 4 1 = 1)) ∨ (k = 3 ∧ b = 1 ∧ s.resetOk d = false))

theorem ctrl_chk_iff (row : (k, b) ∈ ctrlRows) :
    hDomainCtrl.chk s d old (doR.fieldBits (fieldPut (old &&& 0x1C#32) k 1 b)) = true ↔ s.ctrlBad d old k b := by
  have low (j : Nat) (below : j < 2) := (do_fieldBits (fieldPut (old &&& 0x1C#32) k 1 b) j (by omega)).trans (ctrl_low row below)
  rw [dom_chk s d old _ (low 0 (by decide)) (low 1 (by decide)) (ctrl_bit row (by decide)) (ctrl_bit row (by decide)) (ctrl_bit row (by decide))
    rfl rfl rfl]
  unfold State.ctrlBad
  have set (j : Nat) : ¬ fieldGet old j 1 = 0 ↔ fieldGet old j 1 = 1 := by have := bool_bit old j; omega
  have clear (j : Nat) : ¬ fieldGet old j 1 = 1 ↔ fieldGet old j 1 = 0 := by have := bool_bit old j; omega
  obtain ⟨rfl | rfl | rfl, rfl | rfl⟩ := ctrlRows_cases row <;> simp [ctrlBit, bit_steady, set, clear, and_or_left, or_assoc]

/-! ### What a change that is taken does -/

/-- A reset of crossings that are not empty: emptied, marked dirty, and a unit fault (R445). -/
def State.cutCrossings (s : State) (d : Nat) : State :=
  ((((s.setReg CLK.XING_DIRTY.off (s.reg CLK.XING_DIRTY.off ||| BitVec.ofNat 32 (2 ^ d))).put
    CLK.XING_STATUS.IN_EMPTY 1 d).put CLK.XING_STATUS.OUT_EMPTY 1 d).fault clsUNIT d 0).event (some [0]) 0x40 (6 + d * 2 ^ 8)

/-- The domain after its fields ISOLATE and RESET were written (Table 18-5). -/
def State.domMoved (s : State) (d st iso rst : Nat) : State :=
  if st = domOFF then s
  else if rst = 1 then s.setDom d domIN_RESET
  else if st = domIN_RESET then s.setDom d domSTARTING
  else if iso = 1 ∧ (st = domRUNNING ∨ st = domGATED) then s.setDom d domISOLATED
  else if ¬ iso = 1 ∧ st = domISOLATED then s.setDom d domRUNNING
  else s

theorem domMoved_isolates (s : State) {st : Nat} (runs : st = domRUNNING ∨ st = domGATED) : s.domMoved d st 1 0 = s.setDom d domISOLATED := by
  rcases runs with rfl | rfl <;> rfl

theorem domMoved_resets (s : State) {st iso : Nat} (on : st ≠ domOFF) : s.domMoved d st iso 1 = s.setDom d domIN_RESET := by
  unfold State.domMoved
  rw [if_neg on, if_pos rfl]

theorem ctrl_act (row : (k, b) ∈ ctrlRows) {st : Nat} (at_ : u.dom d = st) :
    hDomainCtrl.act u d (doR.fieldBits (fieldPut (old &&& 0x1C#32) k 1 b)) =
      if (ctrlBit old k b 3 = 1 ∨ ctrlBit old k b 4 = 1) ∧ u.xingBusy d = true then
        (u.domMoved d st (ctrlBit old k b 2) (ctrlBit old k b 3)).cutCrossings d
      else u.domMoved d st (ctrlBit old k b 2) (ctrlBit old k b 3) := by
  have low (j : Nat) (below : j < 2) := (do_fieldBits (fieldPut (old &&& 0x1C#32) k 1 b) j (by omega)).trans (ctrl_low row below)
  exact dom_act u d _ (low 0 (by decide)) (low 1 (by decide)) (ctrl_bit row (by decide)) (ctrl_bit row (by decide)) (ctrl_bit row (by decide)) st at_

section write

variable (canon : s.canonical = true) (wr : s.writable = true) (ph : s.living = true ∨ s.phase = phFAULT)
  (sel : (s.reg CLK.DOMAIN_SELECT.off).toNat = d) (word : s.reg CLK.DOMAIN_CTRL.off d = old) (row : (k, b) ∈ ctrlRows)
include canon wr ph sel word row

theorem exec_ctrl_refused (bad : s.ctrlBad d old k b) :
    exec (ctrlCommand k b) s = .next (s.illegal 0 causeState CLK.DOMAIN_CTRL.off (fieldPut (old &&& 0x1C#32) k 1 b).toNat) := by
  rw [exec_ctrlCommand row sel word, (dom_bar0 (canonical_regs canon) wr ph sel word (ctrl_low row (by decide)) (ctrl_low row (by decide)) rfl).2
    ((ctrl_chk_iff row).mpr bad)]

theorem exec_ctrl_takes (ok : ¬ s.ctrlBad d old k b) (stored : u = s.setReg CLK.DOMAIN_CTRL.off (fieldPut old k 1 b) d) {st : Nat}
    (at_ : s.dom d = st) {iso rst xr : Nat} (h2 : ctrlBit old k b 2 = iso) (h3 : ctrlBit old k b 3 = rst) (h4 : ctrlBit old k b 4 = xr) :
    exec (ctrlCommand k b) s = .next (s.recorded (if (rst = 1 ∨ xr = 1) ∧ u.xingBusy d = true then (u.domMoved d st iso rst).cutCrossings d
      else u.domMoved d st iso rst) CLK.DOMAIN_CTRL.off d (fieldPut (old &&& 0x1C#32) k 1 b)) := by
  subst stored h2 h3 h4
  obtain ⟨hk, hb⟩ := ctrlRows_cases row
  have wf := canonical_regs canon
  rw [exec_ctrlCommand row sel word, (dom_bar0 wf wr ph sel word (ctrl_low row (by decide)) (ctrl_low row (by decide))
    (do_store old k b hk (by omega))).1 (by simpa using mt (ctrl_chk_iff row).mp ok), ctrl_act row ((dom_setReg wf d _).trans at_)]

end write

/-- Settles O54: each command writes one field of DOMAIN_CTRL, refused by `ctrlBad` or taken with what `domMoved` and the crossings make of it. -/
theorem isolationAndResets : Obligations.IsolationAndResets := by
  rintro s d old kept canon wr ph sel word rfl u k b _ row hu v rfl c hc
  obtain rfl : c = ctrlCommand k b := hc
  have refused := exec_ctrl_refused canon wr ph sel word.symm row
  have takes := @exec_ctrl_takes _ u _ _ _ _ canon wr ph sel word.symm row
  have here (low : 10 ≤ d) (high : d ≤ 20) : ¬ isolable d = false := by simp [(isolable_iff d).mpr ⟨low, high⟩]
  refine ⟨fun outside change => refused ⟨change, .inl ?_⟩, fun bare change set notIso => refused ⟨change, .inr (.inl ⟨set, notIso, bare⟩)⟩,
    fun iso clear on reset => refused ⟨by subst iso clear; omega, .inr (.inr (.inl ⟨iso, clear, reset⟩))⟩,
    fun rst set off no => refused ⟨by subst rst set; omega, .inr (.inr (.inr ⟨rst, set, no⟩))⟩,
    fun low high => ⟨?isolate, ?release, fun f hf => ⟨?reset, ?crossings⟩, ?start, ?crossingsEnd⟩⟩
  · rw [← Bool.not_eq_true, isolable_iff]
    omega
  case isolate =>
    rintro rfl rfl iso rst xr runs
    rw [takes (by simp [State.ctrlBad, here low high]) hu rfl (ctrlBit_same ..) rst xr, if_neg (by simp), domMoved_isolates u runs]
  case release =>
    rintro rfl rfl iso rst xr isolated
    rw [takes (by simp [State.ctrlBad, here low high, rst, xr]) hu isolated (ctrlBit_same ..) rst xr, if_neg (by simp)]
    rfl
  case reset =>
    rintro rfl rfl iso rst ok on
    rw [takes (by simp [State.ctrlBad, here low high, iso, ok]) hu rfl iso (ctrlBit_same ..) rfl, domMoved_resets u on, hf]
    simp only [true_or, true_and]
    rfl
  case crossings =>
    rintro rfl rfl iso rst xr isolated
    rw [takes (by simp [State.ctrlBad, here low high, iso]) hu isolated iso rst (ctrlBit_same ..), hf]
    simp only [or_true, true_and]
    rfl
  case start =>
    rintro rfl rfl rst iso xr reset
    rw [takes (by simp [State.ctrlBad, here low high]) hu reset iso (ctrlBit_same ..) xr, if_neg (by simp)]
    rfl
  case crossingsEnd =>
    rintro rfl rfl xr iso rst isolated
    rw [takes (by simp [State.ctrlBad, here low high]) hu isolated iso rst (ctrlBit_same ..), if_neg (by simp)]
    rfl

end Sys2Proof.Machine
end

section
/-! Lost stacks and faulty units (R471 to R474). -/

namespace Sys2Proof.Machine

/-! ### A lost stack -/

/-- A trained stack that has not failed. -/
def State.stackLives (s : State) (k : Nat) : Prop :=
  k < 8 ∧ bits (s.get SYS.DRAM_STATUS.TRAINED) k 1 = 1 ∧ bits (s.get ERR.STACK_STATUS.FAILED) k 1 = 0

/-- The stack marked as failed. -/
def State.stackMarked (s : State) (k : Nat) : State := s.put ERR.STACK_STATUS.FAILED (s.get ERR.STACK_STATUS.FAILED ||| 2 ^ k)

/-- The failure counted and reported, and its fates met (R472, Table 20-3). -/
def State.stackFated (s : State) (k : Nat) : State :=
  ((((s.stackMarked k).fault clsRESOURCE k 0).event none 0x41 k).stackFates k).sameCycle s.wk.latched.length

/-- Then the rebuild of the stack's tables begins (R473). -/
def State.stackLost (s : State) (k : Nat) : State :=
  { s.stackFated k with err := { (s.stackFated k).err with rebuilding := (s.stackFated k).err.rebuilding ++ [k] } }

section stack

variable {s : State} {k : Nat}

theorem execStackFailure_eq (s : State) (k : Nat) : execStackFailure k s =
    if !s.working || decide (8 ≤ k) || bits (s.get SYS.DRAM_STATUS.TRAINED) k 1 == 0 || bits (s.get ERR.STACK_STATUS.FAILED) k 1 == 1 then .next s
    else if !s.err.rebuilding.isEmpty || decide (6 < (s.stackMarked k).stacksLost) then .next (((s.stackLost k).fault clsFATAL k 0).enterFault)
    else .next (s.stackLost k) := by
  unfold execStackFailure State.stackLost State.stackFated State.stackMarked
  with_reducible rfl

theorem exec_stackFailure (working : s.working = true) (lives : s.stackLives k) : exec (.stackFailure k) s =
    .next (if s.err.rebuilding ≠ [] ∨ 6 < (s.stackMarked k).stacksLost then ((s.stackLost k).fault clsFATAL k 0).enterFault
      else s.stackLost k) := by
  obtain ⟨low, trained, whole⟩ := lives
  refine (execStackFailure_eq s k).trans ?_
  rw [if_neg (by simp [working, low, trained, whole])]
  generalize ((s.stackLost k).fault clsFATAL k 0).enterFault = fatal
  by_cases again : s.err.rebuilding ≠ [] ∨ 6 < (s.stackMarked k).stacksLost
  · rw [if_pos again, if_pos (by simpa using again)]
  · rw [if_neg again, if_neg (by simpa using again)]

theorem exec_stackFailure_dead (dead : ¬ s.stackLives k) : exec (.stackFailure k) s = .next s := by
  refine (execStackFailure_eq s k).trans (if_pos ?_)
  simp only [Bool.or_eq_true, decide_eq_true_eq, beq_iff_eq]
  unfold State.stackLives at dead
  rw [← bit_ne_one] at dead
  rw [← bit_ne_one]
  omega

end stack

theorem exec_tableRebuildDone {s : State} (working : s.working = true) (k : Nat) : exec (.tableRebuildDone k) s =
    .next { s with err := { s.err with rebuilding := s.err.rebuilding.filter (· ≠ k) } } := by
  show execTableRebuildDone k s = _
  unfold execTableRebuildDone
  rw [if_pos working]

/-! ### A unit's fault -/

section unit

variable {s : State} (working : s.working = true) {unit : RetireUnit} {index work chunk : Nat}
include working

theorem exec_unitFault_idle (idle : s.work work = none) :
    exec (.unitFault unit index work chunk) s = .next ((s.unitReport unit index 0 0).retire unit index) := by
  show execUnitFault unit index work chunk s = _
  unfold execUnitFault
  rw [working, idle]
  rfl

theorem exec_unitFault_serving {w : Work} {r : Run} (runs : s.work work = some w) (serves : w.run.find? (·.idx = chunk) = some r) :
    exec (.unitFault unit index work chunk) s =
      .next ((((s.unitReport unit index w.d.tid (tidSidInfo w.d.tid w.d.sid)).updWork w.id invalidated).cutRun w.id r dtUNIT_FAULT).retire
        unit index) := by
  show execUnitFault unit index work chunk s = _
  unfold execUnitFault
  rw [working, runs, Option.bind_some, serves]
  rfl

end unit

theorem invalidated_attn {w : Work} {a : AttnSt} (attn : w.aux = .attn a) : (invalidated w).aux = .attn { a with valid := false } := by
  unfold invalidated
  rw [attn]

/-- The count of each kind of unit, with the number that may be retired (R474). -/
def retireRows : List (RetireUnit × Fld × Nat) :=
  [(.tile, ERR.UNIT_RETIRED.TILES, 16), (.lane, ERR.UNIT_RETIRED.LANES, 4), (.encoder, ERR.UNIT_RETIRED.ENCODERS, 4),
    (.decoder, ERR.UNIT_RETIRED.DECODERS, 16)]

theorem retire_eq {unit : RetireUnit} {f : Fld} {limit : Nat} (row : (unit, f, limit) ∈ retireRows) (s : State) (index : Nat) :
    s.retire unit index = if s.get f < limit then s.put f (s.get f + 1) else (s.fault clsFATAL (index % 256) 0).enterFault := by
  simp only [retireRows, List.mem_cons, Prod.mk.injEq, List.not_mem_nil, or_false] at row
  rcases row with ⟨rfl, rfl, rfl⟩ | ⟨rfl, rfl, rfl⟩ | ⟨rfl, rfl, rfl⟩ | ⟨rfl, rfl, rfl⟩ <;> rfl

/-- Settles O58: a stack's failure by what it finds failed before, a unit's fault by the chunk that it finds on the unit and the limit of its kind. -/
theorem stacksAndUnits : Obligations.StacksAndUnits := by
  intro s working
  refine ⟨?failure, fun k dead => exec_stackFailure_dead ?_, exec_tableRebuildDone working, ?unit, fun w a => invalidated_attn, ?retire⟩
  case failure =>
    intro k u low trained whole marked hmarked hu t ht
    obtain rfl : marked = s.stackMarked k := hmarked
    obtain rfl : u = s.stackFated k := hu
    obtain rfl : t = s.stackLost k := ht
    rw [exec_stackFailure working ⟨low, trained, whole⟩]
    exact ⟨fun first left => by rw [if_neg (by simpa [first] using left)], fun again => by rw [if_pos again]⟩
  case unit =>
    rintro unit index work chunk tid info u rfl
    refine ⟨?_, ?_⟩
    · rintro idle rfl rfl
      exact exec_unitFault_idle working idle
    · rintro w r runs serves rfl rfl
      exact exec_unitFault_serving working runs serves
  case retire =>
    intro u unit f limit index row
    rw [retire_eq row]
    exact ⟨fun room => if_pos room, fun full => if_neg (Nat.not_lt.mpr full)⟩
  · rintro ⟨low, trained, whole⟩
    rcases dead with h | h | h
    exacts [absurd low (by omega), by omega, by omega]

end Sys2Proof.Machine
end

section
/-! Answers to the requester, its timers and its rate (R356, R360, R361, R365, R367, R369, R371, R372). -/

namespace Sys2Proof.Machine

variable {s u : State} {port q : Nat} {p : Packet}

/-! ### Answers -/

/-- A FLUSH is answered: it waits no more, and its DELIVER's covered pages are placed (R361). -/
def State.flushAnswered (u : State) (q psn : Nat) (f : Nat × Nat × Nat) : State :=
  let v := u.setQp { u.qp q with flushOut := (u.qp q).flushOut.filter (·.1 ≠ psn), out := (u.qp q).out.filter (·.psn ≠ psn) }
  (((if 0 < u.sprayPaths q then v else v.ackTo q psn).updWork f.2.1 fun w =>
    { w with aux := .deliver w.deliverSt.1 w.deliverSt.2.1 (max w.deliverSt.2.2 f.2.2) }).settleDeliver f.2.1).sayDrained q

/-- The packets that a SPRAY_ACK covers: those before its lowest missing PSN, and those of its bitmap (R369). -/
def sprayCovers (p : Packet) (n : Nat) : Bool :=
  before24 n p.basePsn || (before24 p.basePsn n && bits p.bitmap ((n + 2 ^ 24 - p.basePsn) % 2 ^ 24 - 1) 1 == 1 &&
    decide ((n + 2 ^ 24 - p.basePsn) % 2 ^ 24 ≤ 64))

/-- A sprayed QP after a SPRAY_ACK: what is covered is kept no more, unless it is a FLUSH (R369). -/
def Qp.sprayAcked (x : Qp) (p : Packet) : Qp :=
  { x with out := x.out.filter fun o => !sprayCovers p o.psn || x.flushOut.any (·.1 == o.psn)
           cumAck := if before24 x.cumAck p.msn then p.msn else x.cumAck
           lastAck := if before24 x.lastAck (add24 p.basePsn (2 ^ 24 - 1)) then add24 p.basePsn (2 ^ 24 - 1) else x.lastAck }

section answers

variable (arrives : s.packetFor port p = (s, some q)) (noted : u = s.noteCe q p)
include arrives

section noted
include noted

theorem exec_rdmaAck : exec (.rdmaAck port p) s = .next (if u.takesAnswers q = false then u
    else if p.syndrome = 0 then u.ackTo q p.psn
    else if p.syndrome = 1 then (u.ackTo q (add24 p.psn (2 ^ 24 - 1))).resendAll q
    else u.enterErr q (if (u.qp q).flushOut.any (·.1 = p.psn) then 4 else nakCause p.syndrome)) := by
  subst noted
  show execRdmaAck port p s = _
  unfold execRdmaAck
  rw [arrives]
  simp only [Bool.not_eq_true', apply_ite Host.Outcome.next]

theorem exec_flushResponse_unknown (unknown : (u.qp q).flushOut.find? (·.1 = p.psn) = none) : exec (.flushResponse port p) s = .next u := by
  subst noted
  show execFlushResponse port p s = _
  unfold execFlushResponse
  rw [arrives]
  dsimp only
  rw [unknown]

theorem exec_flushResponse {f : Nat × Nat × Nat} (known : (u.qp q).flushOut.find? (·.1 = p.psn) = some f) (takes : u.takesAnswers q = true) :
    exec (.flushResponse port p) s = .next (if p.syndrome ≠ 0 then u.enterErr q 4 else u.flushAnswered q p.psn f) := by
  subst noted
  show execFlushResponse port p s = _
  unfold execFlushResponse
  rw [arrives]
  dsimp only
  rw [known]
  dsimp only
  rw [takes, if_neg (by decide), apply_ite Host.Outcome.next]
  rfl

theorem exec_sprayAck_standard (standard : u.sprayPaths q = 0) : exec (.sprayAck port p) s =
    .next (if u.takesPackets q = true ∧ u.qpState q ≠ qpSQD then u.nakInvalid q p.psn else u) := by
  subst noted
  show execSprayAck port p s = _
  unfold execSprayAck
  rw [arrives]
  dsimp only
  rw [if_pos standard]

theorem exec_sprayAck (sprayed : 0 < u.sprayPaths q) : exec (.sprayAck port p) s =
    .next (if u.takesAnswers q = false then u else ((u.setQp ((u.qp q).sprayAcked p)).endMessages q).sayDrained q) := by
  subst noted
  show execSprayAck port p s = _
  unfold execSprayAck
  rw [arrives]
  dsimp only
  rw [if_neg sprayed.ne']
  simp only [Bool.not_eq_true', apply_ite Host.Outcome.next]
  rfl

end noted

theorem exec_cnp : exec (.cnp port p) s = .next (if s.takesPackets q = false then s else
    (s.sat RDMA.CNPS_RECEIVED.COUNT).setQp { s.qp q with
      target := (s.qp q).rate, raises := 0, bytes := 0
      rate := min portRate (max (1000 * s.get RDMA.CC_MIN_RATE.MBPS) ((s.qp q).rate * (2 ^ 21 - (s.qp q).alpha) / 2 ^ 21))
      alpha := ((1024 - s.get RDMA.CC_G.G_1024THS) * (s.qp q).alpha + s.get RDMA.CC_G.G_1024THS * 2 ^ 20) / 1024 }) := by
  show execCnp port p s = _
  unfold execCnp
  rw [arrives]
  simp only [Bool.not_eq_true', apply_ite Host.Outcome.next]
  rfl

end answers

theorem mem_sprayAcked_out {x : Qp} {o : OutPkt} (kept : o ∈ (x.sprayAcked p).out) : o ∈ x.out := (List.mem_filter.mp kept).1

theorem not_mem_sprayAcked_out {x : Qp} {o : OutPkt} (below : before24 o.psn p.basePsn = true)
    (noFlush : x.flushOut.any (·.1 == o.psn) = false) : o ∉ (x.sprayAcked p).out := by
  intro kept
  have := (List.mem_filter.mp kept).2
  rw [noFlush, sprayCovers, below, Bool.true_or] at this
  exact absurd this (by decide)

/-! ### Timers -/

section timers

variable (working : s.working = true)
include working

theorem exec_ackTimeout (live : s.qpState q = qpRTS ∨ s.qpState q = qpSQD) {mine : List OutPkt}
    (hmine : mine = (s.qp q).out.filter fun o => s.sprayPaths q == 0 || o.pkt.opcode == bthFlush) : exec (.ackTimeout q) s =
      .next (if mine = [] then s else if s.get RDMA.QP_RETRY.RETRY_COUNT q ≤ (s.qp q).tries then s.enterErr q 1
        else mine.foldl (fun s o => s.sendAgain q o.pkt) (s.setQp { s.qp q with tries := (s.qp q).tries + 1 })) := by
  subst hmine
  show execAckTimeout q s = _
  unfold execAckTimeout
  dsimp only
  generalize List.filter _ _ = mine
  by_cases none : mine = []
  · rw [if_pos none, if_pos (by simp [none])]
  · rw [if_neg none, if_neg (by simpa [working, none, or_iff_not_imp_left] using live), apply_ite Host.Outcome.next]

/-- The QP after a sprayed packet's time ran out: its path retired, the packet on the next one (R369). -/
def State.sprayRetried (s : State) (q psn : Nat) (o : OutPkt) : Qp :=
  let x : Qp := { s.qp q with retired := kvSet (s.qp q).retired o.path (s.stroke + 1024) }
  let path := x.pathFrom (s.sprayPaths q)
  { x with nextPath := (path + 1) % max 1 (s.sprayPaths q), out := x.out.map fun y =>
    if y.psn = psn then { y with path := path, tries := y.tries + 1, pkt := { o.pkt with path := path, udpSrc := s.udpSource q path } } else y }

theorem exec_sprayTimeout (live : s.qpState q = qpRTS ∨ s.qpState q = qpSQD) {psn : Nat} {o : OutPkt}
    (kept : (s.qp q).out.find? (fun o => o.psn = psn ∧ o.pkt.opcode = bthSpray) = some o) {x : Qp} {path : Nat} {pkt : Packet} {v : State}
    (hx : x = s.sprayRetried q psn o) (hpath : path = Qp.pathFrom { s.qp q with retired := x.retired } (s.sprayPaths q))
    (hpkt : pkt = { o.pkt with path := path, udpSrc := s.udpSource q path }) (hv : v = (s.setQp x).sendAgain q pkt) :
    exec (.sprayTimeout q psn) s = .next (if s.get RDMA.QP_RETRY.RETRY_COUNT q ≤ o.tries then s.enterErr q 1
      else if kvFind (s.qp q).retired o.path = none then v.rdmaEvent 0x13 0 (s.qpPort q) q 0 o.path (s.qpPd q) else v) := by
  subst hx hpath hpkt hv
  show execSprayTimeout q psn s = _
  unfold execSprayTimeout
  dsimp only
  rw [kept]
  dsimp only
  rw [if_neg (by simpa [working, or_iff_not_imp_left] using live)]
  simp only [Option.isNone_iff_eq_none, apply_ite Host.Outcome.next]
  rfl

theorem exec_pathRestored {path e : Nat} (retired : kvFind (s.qp q).retired path = some e) : exec (.pathRestored q path) s =
    .next (if s.stroke < e then s else
      (s.setQp { s.qp q with retired := kvDel (s.qp q).retired path }).rdmaEvent 0x14 0 (s.qpPort q) q 0 path (s.qpPd q)) := by
  show execPathRestored q path s = _
  unfold execPathRestored
  dsimp only
  rw [retired]
  simp only [working, Bool.not_true, Bool.false_or, decide_eq_true_eq, apply_ite Host.Outcome.next]

theorem exec_rateTimer (live : s.qpState q ≠ qpRESET) : exec (.rateTimer q) s = .next (s.setQp (Qp.raise
    { s.qp q with alpha := (1024 - s.get RDMA.CC_G.G_1024THS) * (s.qp q).alpha / 1024 } (1000 * s.get RDMA.CC_MIN_RATE.MBPS)
    (s.get RDMA.CC_RATES.ADD_RATE) (s.get RDMA.CC_RATES.HYPER_RATE))) :=
  if_neg (by simp [working, live])

/-! ### Port events -/

theorem exec_pfcStorm : exec (.pfcStorm port) s =
    .next (if s.etherPort port && s.flag RDMA.PORT_CTRL.PFC_ON port then s.portEvent 0x04 port 0 else s) := by
  show execPfcStorm port s = _
  unfold execPfcStorm
  rw [working, Bool.true_and]

theorem exec_fecDegraded (n : Nat) : exec (.fecDegraded port n) s =
    .next (if s.etherPort port && decide (s.get RDMA.FEC_LIMIT.COUNT < n) then s.portEvent 0x03 port n else s) := by
  show execFecDegraded port n s = _
  unfold execFecDegraded
  rw [working, Bool.true_and]

end timers

/-- A raise keeps the rate between MIN_RATE and the port's rate; the first five leave the target (R371). -/
theorem raise_bounds (x : Qp) (floor add hyper : Nat) : (x.raise floor add hyper).rate ≤ portRate ∧
    (floor ≤ portRate → floor ≤ (x.raise floor add hyper).rate) ∧ (x.raises < 5 → (x.raise floor add hyper).target = x.target) :=
  ⟨min_le_left _ _, fun within => le_min within (le_max_left _ _), fun few => if_pos few⟩

/-- Settles O47: each answer and each timer by the equation of its command, once the packet has found its QP. -/
theorem answersAndRates : Obligations.AnswersAndRates := by
  intro s u port p q
  refine ⟨fun arrives noted => ?answers, fun mine working live hmine => ?timeout, fun psn o working live kept => ?spray,
    fun path e working retired => ?path, fun working live => exec_rateTimer working live, raise_bounds, fun working => ?ports⟩
  case answers =>
    rw [exec_rdmaAck arrives noted, exec_cnp arrives]
    refine ⟨fun deaf => ⟨by rw [if_pos deaf], fun sprayed => by rw [exec_sprayAck arrives noted sprayed, if_pos deaf]⟩,
      fun standard => ?standard, fun takes => ?takes, exec_flushResponse_unknown arrives noted, fun f known takes => ?flush,
      fun shut => by rw [if_pos shut], fun takes => by rw [if_neg (by simp [takes])]⟩
    case standard =>
      rw [exec_sprayAck_standard arrives noted standard]
      exact ⟨fun takes open_ => by rw [if_pos ⟨takes, open_⟩], fun shut => by rw [if_neg fun h => shut.elim (by simp [h.1]) h.2]⟩
    case takes =>
      rw [if_neg (by simp [takes])]
      refine ⟨fun ack => by rw [if_pos ack], fun behind => by rw [if_neg (by omega), if_pos behind], fun nak noFlush => ?_, fun nak flush => ?_,
        fun sprayed => ⟨(u.qp q).sprayAcked p, ?_, rfl, rfl, fun o => mem_sprayAcked_out, fun o _ => not_mem_sprayAcked_out⟩⟩
      · rw [if_neg (by omega), if_neg (by omega), if_neg (by simp [noFlush])]
        rfl
      · rw [if_neg (by omega), if_neg (by omega), if_pos flush]
      · rw [exec_sprayAck arrives noted sprayed, if_neg (by simp [takes])]
    case flush =>
      rw [exec_flushResponse arrives noted known takes]
      refine ⟨fun bad => by rw [if_pos bad], ?_⟩
      rintro v fl out good rfl rfl rfl
      rw [if_neg (by simp [good])]
      rfl
  case timeout =>
    rw [exec_ackTimeout working live hmine]
    exact ⟨fun none => by rw [if_pos none], fun some full => by rw [if_neg some, if_pos full],
      fun some room => by rw [if_neg some, if_neg (by omega)]; rfl⟩
  case spray =>
    have equation := exec_sprayTimeout working live kept rfl rfl rfl rfl
    refine ⟨fun full => by rw [equation, if_pos full], ?_⟩
    rintro x v r path pkt out room rfl rfl rfl rfl rfl rfl
    rw [equation, if_neg (by omega)]
    exact ⟨fun fresh => by rw [if_pos fresh]; rfl, fun old => by rw [if_neg old]; rfl⟩
  case path =>
    rw [exec_pathRestored working retired]
    exact ⟨fun early => by rw [if_pos early], fun due => by rw [if_neg (by omega)]⟩
  case ports =>
    simp only [exec_pfcStorm working, exec_fecDegraded working]
    refine ⟨fun ether on => by rw [if_pos (by simp [ether, on])], fun off => ?_, fun n ether above => by rw [if_pos (by simp [ether, above])],
      fun n off => ?_⟩
    · rw [if_neg fun h => by rcases off with off | off <;> simp [off] at h]
    · rw [if_neg fun h => by
        rcases off with off | off
        · simp [off] at h
        · exact absurd (Bool.and_eq_true_iff.mp h).2 (by simpa using off)]

end Sys2Proof.Machine
end

section
/-! Host regions as the responder serves them (R357, R362): an access NAK ends the QP's DELIVERs by their IDs, and an ID that a READ_PAGES holds as
well ends that one, which leaves its target bytes undefined (R130). -/

namespace Sys2Proof.Machine

variable {s : State} {id : Nat} {w : Work}

/-- A READ_PAGES of one page that ends ABORTED_FAULT leaves its target bytes undefined (R130). -/
theorem latch_undefined (work : s.work id = some w) (ends : w.phase ≠ 2) (read : w.d.opcode = opREAD) (page : w.d.nb * w.d.nl = 1)
    (inTime : w.late s.stroke = false) (detail : Nat) :
    ∃ t : State, (s.latch id stFAULT detail 0).hmem = (t.undefTarget w.d 0).hmem ∧ t.hmem = s.hmem ∧ t.free = s.free := by
  have target (t : State) : (if w.d.opcode = opREAD ∧ (stFAULT = stFAULT ∨ stFAULT = stMEDIA ∨ stFAULT = stPOISON) then t.undefTargets w.d 0
      else t).hmem = (t.undefTarget w.d 0).hmem := by
    rw [if_pos ⟨read, .inl rfl⟩, State.undefTargets, page]
    rfl
  unfold State.latch
  rw [work]
  dsimp only
  rw [if_neg ends, inTime, Bool.and_false, if_neg Bool.false_ne_true]
  exact ⟨_, target _, rfl, rfl⟩

theorem sameCycle_hmem (s : State) (n : Nat) : (s.sameCycle n).hmem = s.hmem := rfl

theorem memByte_nextFree (s : State) (a : Nat) : s.nextFree.memByte a = s.memByte a := rfl

/-- The first byte of an undefined target is a free value. -/
theorem memByte_undefTarget (wf : spWf memDefault s.hmem = true) (d : Desc) :
    (s.undefTarget d 0).memByte (d.b 56 8) = Config.undefByte s.free 0 := by
  have size : ((List.range 65536).map (Config.undefByte s.free)).length ≤ 2 ^ 64 := by
    rw [List.length_map, List.length_range]
    decide
  have first : ((List.range 65536).map (Config.undefByte s.free))[0]? = some (Config.undefByte s.free 0) := by
    rw [List.getElem?_map, List.getElem?_range (by decide)]
    rfl
  unfold State.undefTarget
  rw [Nat.zero_mul, Nat.add_zero]
  generalize (List.range 65536).map (Config.undefByte s.free) = bytes at size first ⊢
  rw [memByte_nextFree]
  exact memByte_memWrite_same bytes s (d.b 56 8) wf size 0 _ first

/-! ### The counterexample: two descriptors with one ID -/

/-- A descriptor that runs, of one page, on QP 0, with its target at address 0; both kinds have the ID 0. -/
def twin (opcode : Nat) : Work :=
  { id := 0, fetched := 0, cq := 0, slot := 0, phase := 1, admitted := 0, active := true, startLen := 0, next := 0, run := [], ended := [], lead := 0,
    losses := [], flags := 0, stop := none, status := 0, detail := 0, extent := 0, results := [], newSid := 0, latchedAt := 0, riskDone := false,
    stream := false, held := false, planned := 0, epoch := none, writes := [], aux := .none,
    d := { tid := 1, sq := 0, count := 0, opcode := opcode, quiet := false, urgent := false, resultUnits := 0, sid := 1, notBefore := 0, deadline := 0,
           userTag := 0, resultAddr := 0, body := leBytes 4 0 ++ leBytes 4 1 ++ leBytes 2 0 ++ leBytes 2 1 ++ zeros 20 } }

/-- QP 0 in RTS, a READ_PAGES and a DELIVER of it with one ID. -/
def twinBase : State :=
  ({ State.reset with wk := { WorkSt.init with works := [twin opREAD, twin opDELIVER] } } : State).put RDMA.QP_STATUS.STATE qpRTS 0

theorem twinBase_hmem : spWf memDefault twinBase.hmem = true := rfl

/-- At the target stands a byte other than the free value that the card would leave. -/
def twinState : State := twinBase.memPut 0 (Config.undefByte 0 0 + 1#8)

/-- A WRITE to a region that is FREE. -/
def strayWrite : Packet :=
  { srcIp := 0, qpn := 0x100, opcode := bthOnly, psn := 0, ce := false, malformed := false, va := 0, rkey := 0, length := 1, offset := 0, msn := 0,
    first := true, last := true, path := 0, syndrome := 0, basePsn := 0, bitmap := 0, payload := [0#8] }

theorem twinState_stray : (twinState.qp 0).inMsgs = [] ∧
    twinState.hostRegion 0 strayWrite.rkey strayWrite.va strayWrite.payload.length 0 false = none := by
  constructor <;> decide

theorem twinState_hmem : spWf memDefault twinState.hmem = true := spPut_wf _ _ _ _ twinBase_hmem

theorem twinState_memByte : twinState.memByte 0 = Config.undefByte 0 0 + 1#8 := memByte_memPut_same _ twinBase_hmem 0 _

/-- The card when the NAK is sent and counted, and QP 0 in ERR. -/
def twinErr : State :=
  (((twinState.sat RDMA.ACCESS_VIOLATIONS.COUNT).rdmaEvent 0x21 0 (twinState.qpPort 0) 0 strayWrite.rkey 0 (twinState.qpPd 0)).respond 0 bthAck
    strayWrite.psn 3).markErr 0 6

theorem twinErr_frame : twinErr.hmem = twinState.hmem ∧ twinErr.free = 0 ∧ twinErr.work 0 = some (twin opREAD) := ⟨rfl, rfl, rfl⟩

/-- The NAK ends the QP's DELIVER by its ID, which is the READ_PAGES' too. -/
theorem twinState_nakAccess : (twinState.nakAccess 0 strayWrite 0).hmem = (twinErr.latch 0 stFAULT dtQP_ERROR 0).hmem := by
  have delivers : State.deliversOn (((twinState.sat RDMA.ACCESS_VIOLATIONS.COUNT).rdmaEvent 0x21 0 (twinState.qpPort 0) 0 strayWrite.rkey 0
    (twinState.qpPd 0)).respond 0 bthAck strayWrite.psn 3) 0 = [twin opDELIVER] := rfl
  unfold State.nakAccess State.enterErr
  rw [if_neg (by decide), delivers, List.foldl_cons, List.foldl_nil, if_pos (c := (twin opDELIVER).run = []) rfl]
  exact sameCycle_hmem _ _

/-- Refutes O46: the clause that a WRITE without a HOST region leaves host memory alone, in a state in which a READ_PAGES and a DELIVER have one ID. The
statement quantifies over every state, that one too, though the card gives no ID twice; a frame for it would need IDs that differ. -/
theorem not_hostRegions : ¬ Obligations.HostRegions := by
  intro holds
  obtain ⟨-, -, -, stray, -⟩ := holds twinState twinState twinState 0 strayWrite 0
  have kept : (twinState.nakAccess 0 strayWrite 0).hmem = twinState.hmem := (stray rfl twinState_stray.1 twinState_stray.2).2
  obtain ⟨same, free, work⟩ := twinErr_frame
  obtain ⟨u, undefined, hmem, freeU⟩ := latch_undefined work (by decide) rfl (by decide) rfl dtQP_ERROR
  have byte := memByte_undefTarget (s := u) (d := (twin opREAD).d) (by rw [hmem, same]; exact twinState_hmem)
  have chosen := twinState_memByte
  unfold State.memByte at byte chosen
  rw [← undefined, ← twinState_nakAccess, kept, freeU, free] at byte
  exact absurd (byte.symm.trans chosen) (by generalize Config.undefByte 0 0 = x; revert x; decide)

end Sys2Proof.Machine
end

section
/-! Regions and hosts of the pool (R378 to R381, R392, R405, R408). -/

namespace Sys2Proof.Machine

open Sys2Proof.Laws.Shared

variable {s : State} {r slot : Nat}

theorem up_of_writable (wr : s.writable = true) : s.up = true := by
  have pf := writable_pf0 wr
  unfold State.pf0 at pf
  simp_all

theorem working_of_serving (wr : s.writable = true) (ph : s.serving = true) : s.working = true := by
  unfold State.working
  rw [up_of_writable wr]
  rcases serving_cases ph with h | h <;> rw [h] <;> rfl

/-! ### REGION_CTRL -/

theorem poolRegionCtrl_control : ControlReg POOL.REGION_CTRL.off prR :=
  ⟨by decide, by decide, fun _ _ => rfl, fun _ => rfl, by decide, by decide⟩

/-- What refuses CREATE, DESTROY and TAKEOVER (R378, R379, R405). -/
theorem hPoolRegionCtrl_chk (s : State) (r : Nat) (old : Word) :
    (hPoolRegionCtrl.chk s r old 1#32 = false ↔ s.poolState r = 0) ∧
    (hPoolRegionCtrl.chk s r old 2#32 = false ↔ (s.poolState r ≠ 0 ∧ s.poolState r ≠ 4) ∧ s.hostsOn r = false ∧ s.xferOn r = false) ∧
    (hPoolRegionCtrl.chk s r old 4#32 = false ↔ s.poolState r = 2 ∧ s.flag POOL.TANDEM_STATUS.PARTNER_LOST = true) := by
  have bits : fieldGet 1#32 0 1 = 1 ∧ fieldGet 1#32 1 1 = 0 ∧ fieldGet 1#32 2 1 = 0 ∧ fieldGet 2#32 0 1 = 0 ∧ fieldGet 2#32 1 1 = 1 ∧
      fieldGet 2#32 2 1 = 0 ∧ fieldGet 4#32 0 1 = 0 ∧ fieldGet 4#32 1 1 = 0 ∧ fieldGet 4#32 2 1 = 1 := by decide
  unfold hPoolRegionCtrl
  simp [bits, and_assoc]

theorem createCmd_act (s : State) (r : Nat) : hPoolRegionCtrl.act s r 1#32 =
    if s.createCause r = 0 then s.createRegion r else s.put POOL.REGION_STATUS.REFUSE_CAUSE (s.createCause r) r := by
  unfold hPoolRegionCtrl
  dsimp only
  rw [if_pos (by decide)]

theorem destroy_act (s : State) (r : Nat) : hPoolRegionCtrl.act s r 2#32 =
    if s.poolFlash r then (((s.put POOL.REGION_STATUS.STATE 4 r).logRaw (1024 + r) (recPoolRelease r)).flushAll (1024 + r)).reclaim
    else s.put POOL.REGION_STATUS.STATE 4 r := by
  unfold hPoolRegionCtrl
  dsimp only
  rw [if_neg (by decide), if_pos (by decide)]

/-- A STANDBY region taken over: ACTIVE, with its lines forgotten (R405). -/
def State.takenOver (s : State) (r : Nat) : State := ((s.forgetLines r).put POOL.REGION_STATUS.STATE 1 r).put POOL.REGION_DEF.STANDBY 0 r

theorem takeover_act (s : State) (r : Nat) : hPoolRegionCtrl.act s r 4#32 =
    if s.poolFlash r then (s.takenOver r).logRaw (1024 + r) ((s.takenOver r).defineRecord r false) else s.takenOver r := by
  unfold hPoolRegionCtrl
  dsimp only
  rw [if_neg (by decide), if_neg (by decide), if_pos (by decide)]
  rfl

theorem takenOver_poolState (wf : spWf regDefault s.regs = true) : (s.takenOver r).poolState r = 1 :=
  (get_put_reg _ (setReg_wf _ wf _ _ _) POOL.REGION_DEF.STANDBY 0 r POOL.REGION_STATUS.STATE r
    (key_ne (by decide) (by decide) (by decide))).trans (get_put_same (s.forgetLines r) wf POOL.REGION_STATUS.STATE 1 r (by decide))

theorem put_refuseCause_poolState (wf : spWf regDefault s.regs = true) (cause : Nat) :
    (s.put POOL.REGION_STATUS.REFUSE_CAUSE cause r).poolState r = s.poolState r :=
  get_put_fld s wf POOL.REGION_STATUS.REFUSE_CAUSE cause r POOL.REGION_STATUS.STATE rfl (by decide) (by decide)

/-- The commands of REGION_CTRL, with the words that they write. -/
def regionRows : List (Instr × Word) := [(.createCmd, 1#32), (.destroy, 2#32), (.takeover, 4#32)]

theorem exec_regionRow {c : Instr} {v : Word} (row : (c, v) ∈ regionRows) (s : State) :
    prR.fieldBits v = v ∧ exec c s = .next (bar0 hPoolRegionCtrl POOL.REGION_CTRL.off v s) := by
  obtain ⟨create, destroy, takeover⟩ := pr_bits
  have bit (f : Fld) (reg : findReg f.off = some prR) := bit_eq (h := hPoolRegionCtrl) (s := s) (f := f) reg (by decide)
  simp only [regionRows, List.mem_cons, Prod.mk.injEq, List.not_mem_nil, or_false] at row
  rcases row with ⟨rfl, rfl⟩ | ⟨rfl, rfl⟩ | ⟨rfl, rfl⟩
  exacts [⟨create, congrArg Host.Outcome.next (bit POOL.REGION_CTRL.CREATE (by decide))⟩,
    ⟨destroy, congrArg Host.Outcome.next (bit POOL.REGION_CTRL.DESTROY (by decide))⟩,
    ⟨takeover, congrArg Host.Outcome.next (bit POOL.REGION_CTRL.TAKEOVER (by decide))⟩]

section command

variable (wr : s.writable = true) (ph : s.serving = true) (sel : (s.reg POOL.REGION_SELECT.off).toNat = r) {c : Instr} {v : Word}
  (row : (c, v) ∈ regionRows)
include wr ph sel row

theorem exec_regionRow_takes (canon : s.canonical = true) (ok : hPoolRegionCtrl.chk s r (s.reg POOL.REGION_CTRL.off r) v = false) :
    exec c s = .next (s.recorded (hPoolRegionCtrl.act s r v) POOL.REGION_CTRL.off r v) := by
  obtain ⟨bits, write⟩ := exec_regionRow row s
  rw [write, poolRegionCtrl_control.takes wr (fun f _ => serving_phaseOk ph (by decide) f) sel canon hPoolRegionCtrl rfl bits ok rfl]

theorem exec_regionRow_refused (bad : hPoolRegionCtrl.chk s r (s.reg POOL.REGION_CTRL.off r) v ≠ false) :
    exec c s = .next (s.illegal 0 causeState POOL.REGION_CTRL.off v.toNat) := by
  obtain ⟨bits, write⟩ := exec_regionRow row s
  rw [write, poolRegionCtrl_control.refuses wr (fun f _ => serving_phaseOk ph (by decide) f) sel hPoolRegionCtrl bits
    (Bool.eq_true_of_not_eq_false bad)]

end command

/-! ### The end of a DESTROY -/

/-- What a destroyed region leaves, before its status is FREE (R379). -/
def State.regionGone (s : State) (r : Nat) : State := if s.poolFlash r then (s.dropRegion r).eraseChain (1024 + r) else s.dropRegion r

theorem regionGone_wf (wf : spWf regDefault s.regs = true) : spWf regDefault (s.regionGone r).regs = true := by
  unfold State.regionGone
  split
  · exact (keeps_eraseChain (keeps_dropRegion (Keeps.refl s) r) (1024 + r)).regs wf
  · exact (keeps_dropRegion (Keeps.refl s) r).regs wf

theorem exec_destroyDone (working : s.working = true) (r : Nat) : exec (.destroyDone r) s = .next (if s.poolState r = 4 then
    ((s.regionGone r).put POOL.REGION_STATUS.STATE 0 r).put POOL.REGION_STATUS.MIRROR_STATE 0 r else s) := by
  show execDestroyDone r s = _
  unfold execDestroyDone State.regionGone
  by_cases destroying : s.poolState r = 4
  · rw [if_neg (by simp [working, destroying]), if_pos destroying]
  · rw [if_pos (by simp [destroying]), if_neg destroying]

/-- A region's status made FREE, and not that of another. -/
theorem freed_poolState (wf : spWf regDefault s.regs = true) (r : Nat) : ∀ t : State,
    t = (s.put POOL.REGION_STATUS.STATE 0 r).put POOL.REGION_STATUS.MIRROR_STATE 0 r →
      t.poolState r = 0 ∧ t.mirState r = 0 ∧ ∀ j ≠ r, t.poolState j = s.poolState j := by
  rintro t rfl
  have wf' : spWf regDefault (s.put POOL.REGION_STATUS.STATE 0 r).regs = true := setReg_wf s wf _ _ _
  refine ⟨?_, get_put_same _ wf' POOL.REGION_STATUS.MIRROR_STATE 0 r (by decide), fun j other => ?_⟩
  · exact (get_put_fld _ wf' POOL.REGION_STATUS.MIRROR_STATE 0 r POOL.REGION_STATUS.STATE rfl (by decide) (by decide)).trans
      (get_put_same s wf POOL.REGION_STATUS.STATE 0 r (by decide))
  · have apart (f : Fld) (reg : f.off = POOL.REGION_STATUS.off) : Apart f r POOL.REGION_STATUS.STATE j :=
      apart_of_inst (by rw [reg]; decide) (by decide) other
    exact (get_put_apart wf' 0 (apart _ rfl)).trans (get_put_apart wf 0 (apart _ rfl))

/-! ### HOST_CTRL -/

/-- Another enabled slot holds the HID that the word gives (R381). -/
def State.hidTaken (s : State) (r : Nat) (val : Word) : Prop :=
  fieldGet val 31 1 = 1 ∧ ∃ n < 64, n ≠ r ∧ s.flag POOL.HOST_CTRL.ENABLE n = true ∧ s.get POOL.HOST_CTRL.HID n = fieldGet val 0 12

theorem hPoolHost_chk_iff (s : State) (r : Nat) (old val : Word) : hPoolHost.chk s r old (hcR.fieldBits val) = true ↔ s.hidTaken r val := by
  unfold hPoolHost State.hidTaken
  dsimp only
  rw [hc31, hc0, Bool.and_eq_true, beq_iff_eq, List.any_eq_true]
  simp only [List.mem_range, Bool.and_eq_true, bne_iff_ne, beq_iff_eq, and_assoc]

section host

variable (wr : s.writable = true) (ph : s.serving = true) (sel : (s.reg POOL.HOST_SELECT.off).toNat = r) {val : Word}
include wr ph sel

theorem exec_hostCtrl_takes (wf : spWf regDefault s.regs = true) (free : ¬ s.hidTaken r val) {w : Word}
    (hw : w = fieldPut (fieldPut (s.reg POOL.HOST_CTRL.off r) 0 12 (fieldGet val 0 12)) 31 1 (fieldGet val 31 1)) : exec (.hostCtrl val) s =
      .next (s.recorded ((s.setReg POOL.HOST_CTRL.off w r).atBoundary (.hostCtrl r w)) POOL.HOST_CTRL.off r val) := by
  refine congrArg Host.Outcome.next ((bar0_stores (h := hPoolHost) (r := hcR) sel rfl hw.symm wr (by decide) (fun _ _ => rfl)
    (fun f _ => serving_phaseOk ph (by decide) f) rfl (by simpa using mt (hPoolHost_chk_iff s r _ val).mp free) rfl (by decide) (by decide)).trans ?_)
  unfold hPoolHost
  dsimp only
  rw [reg_setReg_same s wf]

theorem exec_hostCtrl_refused (taken : s.hidTaken r val) :
    exec (.hostCtrl val) s = .next (s.illegal 0 causeState POOL.HOST_CTRL.off val.toNat) :=
  congrArg Host.Outcome.next (bar0_refused wr (by decide) (by decide) (refuses_state (h := hPoolHost) (r := hcR) _ (fun _ _ => rfl)
    (fun f _ => serving_phaseOk ph (by decide) f) ((show s.selInst hcR = r from sel) ▸ (hPoolHost_chk_iff s r _ val).mpr taken)))

end host

/-! ### A slot that drains, and a release -/

theorem exec_hostDrainDone (up : s.up = true) : exec (.hostDrainDone r) s = .next (s.drainEnd r) := by
  show execHostDrainDone r s = _
  rw [execHostDrainDone, if_pos up]

/-- Nothing is held: FREE once the last recall has ended. -/
theorem drainEnd_empty (draining : s.hostState r = 2) (empty : (s.pool.dir.any fun e => e.holders.contains r) = false) : s.drainEnd r =
    if (s.pool.snoops.any fun y => y.slot = r) = true then s else s.put POOL.HOST_STATUS.STATE 0 r := by
  have unheld : (s.pool.dir.filter fun e => e.holders.contains r) = [] := by
    rw [List.filter_eq_nil_iff]
    exact List.any_eq_false.mp empty
  unfold State.drainEnd
  dsimp only
  rw [if_neg (by simp [draining]), unheld]
  by_cases recalls : (s.pool.snoops.any fun y => y.slot = r) = true
  · rw [if_neg fun h => h.2 recalls, if_pos recalls]
    rfl
  · rw [if_pos ⟨rfl, recalls⟩, if_neg recalls]
    rfl

/-- What the host still holds is recalled. -/
theorem drainEnd_holding (draining : s.hostState r = 2) {lines : List Nat}
    (held : lines = (s.pool.dir.filter fun e => e.holders.contains r).map (·.line)) (holds : lines ≠ []) :
    s.drainEnd r = (lines.filter fun l => ¬ s.mirWaits l).foldl (fun s l => s.snoop l r 2 0) s := by
  subst held
  unfold State.drainEnd
  dsimp only
  rw [if_neg (by simp [draining]), if_neg fun h => holds h.1]

/-- A release under way ends: the slot has no access, and nothing of the release is left (R380). -/
theorem endRelease_ends (under : (s.pool.releasing.any fun x => x.1 = slot ∧ x.2.1 = r) = true) : (s.endRelease slot r).regs = s.regs ∧
    (s.endRelease slot r).accessOf r slot = 0 ∧
    (∀ x ∈ (s.endRelease slot r).pool.added, x ∈ s.pool.added ∧ ¬ (x.1 = slot ∧ x.2.1 = r)) ∧
    (∀ x ∈ (s.endRelease slot r).pool.releasing, x ∈ s.pool.releasing ∧ ¬ (x.1 = slot ∧ x.2.1 = r)) := by
  unfold State.endRelease
  rw [if_pos under]
  refine ⟨rfl, accessOf_zero (fun listed => ?_) fun x mem => of_decide_eq_true (List.mem_filter.mp mem).2,
    fun x mem => (List.mem_filter.mp mem).imp_right of_decide_eq_true, fun x mem => (List.mem_filter.mp mem).imp_right of_decide_eq_true⟩
  have gone : (slot, r) ∈ if s.listed r slot ≠ 0 then s.pool.gone ++ [(slot, r)] else s.pool.gone := by
    rw [if_pos (show s.listed r slot ≠ 0 from listed)]
    exact List.mem_append_right _ (List.mem_singleton_self _)
  exact gone

/-- Settles O49: REGION_CTRL and HOST_CTRL by their own rules; the ends of a DESTROY, a drain and a release by what they find. -/
theorem poolRegionsAndHosts : Obligations.PoolRegionsAndHosts := by
  intro s r canon wr ph
  have wf := canonical_regs canon
  have up := up_of_writable wr
  have working := working_of_serving wr ph
  refine ⟨fun sel => ?commands, fun destroying => ?destroyed, fun other => ?_, fun val w sel hw => ?host, fun draining ended empty => ?_,
    fun draining recalls empty => ?_, fun lines draining held holds => ?_, fun other => ?_, ?releases⟩
  case commands =>
    have takes {c : Instr} {v : Word} (row : (c, v) ∈ regionRows) := exec_regionRow_takes wr ph sel row canon
    have refused {c : Instr} {v : Word} (row : (c, v) ∈ regionRows) := exec_regionRow_refused wr ph sel row
    obtain ⟨create, destroy, takeover⟩ := hPoolRegionCtrl_chk s r (s.reg POOL.REGION_CTRL.off r)
    refine ⟨fun free ok => ?_, ?_, fun used => refused (v := 1#32) (by decide) (mt create.mp used), fun used kept hosts xfer => ?_,
      fun bar => ?_, ?_, fun bar => ?_⟩
    · rw [takes (by decide) (create.mpr free), createCmd_act, if_pos ok]
    · rintro t free bad rfl
      exact ⟨by rw [takes (by decide) (create.mpr free), createCmd_act, if_neg bad], (put_refuseCause_poolState wf _).trans free, rfl⟩
    · rw [takes (by decide) (destroy.mpr ⟨⟨used, kept⟩, hosts, xfer⟩), destroy_act]
      exact ⟨fun dram => by rw [if_neg (by simp [dram])], fun flash => by rw [if_pos flash]⟩
    · refine refused (v := 2#32) (by decide) (mt destroy.mp ?_)
      rintro ⟨⟨used, kept⟩, hosts, xfer⟩
      simp [used, kept, hosts, xfer] at bar
    · rintro t standby lost rfl
      refine ⟨takenOver_poolState wf, ?_⟩
      rw [takes (by decide) (takeover.mpr ⟨standby, lost⟩), takeover_act]
      exact ⟨fun dram => by rw [if_neg (by simp [dram])]; rfl, fun flash => by rw [if_pos flash]; rfl⟩
    · refine refused (v := 4#32) (by decide) (mt takeover.mp ?_)
      rintro ⟨standby, lost⟩
      simp [standby, lost] at bar
  case destroyed =>
    obtain ⟨free, mirror, others⟩ := freed_poolState (regionGone_wf (r := r) wf) r _ rfl
    exact ⟨_, s.regionGone r, by rw [exec_destroyDone working, if_pos destroying], free, mirror, rfl, others⟩
  case host =>
    refine ⟨fun free => exec_hostCtrl_takes wr ph sel wf (fun taken => ?_) hw, fun n low on other enabled same =>
      exec_hostCtrl_refused wr ph sel ⟨on, n, low, other, enabled, same⟩⟩
    obtain ⟨on, n, low, other, enabled, same⟩ := taken
    rcases free with clear | free
    · omega
    · exact free n low other enabled same
  case releases =>
    intro slot c ends under
    refine ⟨s.endRelease slot r, ?_, endRelease_ends under⟩
    rcases ends with ⟨rfl, due⟩ | ⟨hid, x, rfl, rfl, found⟩
    · exact congrArg Host.Outcome.next (if_pos (by rw [up, due]; rfl))
    · show execDcReleaseAck hid r s = _
      rw [execDcReleaseAck, found]
      exact congrArg Host.Outcome.next (if_pos up)
  · rw [exec_destroyDone working, if_neg other]
  · rw [exec_hostDrainDone up, drainEnd_empty draining empty, if_neg (by simp [ended])]
  · rw [exec_hostDrainDone up, drainEnd_empty draining empty, if_pos recalls]
  · rw [exec_hostDrainDone up, drainEnd_holding draining held holds]
  · rw [exec_hostDrainDone up]
    exact congrArg Host.Outcome.next (if_pos other)

end Sys2Proof.Machine
end

section
/-! Partitions and tenants, their resets and drains (R409 to R411, R414, R427, R430 to R432). -/

namespace Sys2Proof.Machine

open Sys2Proof.Laws.Tenant

variable {s u : State} {p t : Nat}

/-! ### PARTITION_CTRL and TENANT_CTRL -/

theorem partitionCtrl_control : ControlReg PART.PARTITION_CTRL.off paR :=
  ⟨by decide, by decide, fun _ _ => rfl, fun _ => rfl, by decide, by decide⟩

theorem tenantCtrl_control : ControlReg PART.TENANT_CTRL.off teR :=
  ⟨by decide, by decide, fun _ _ => rfl, fun _ => rfl, by decide, by decide⟩

/-- The command bits of the three words that one set bit of a control register gives. -/
theorem commandBits : (fieldGet 1#32 0 1 = 1 ∧ fieldGet 1#32 1 1 = 0 ∧ fieldGet 1#32 2 1 = 0) ∧
    (fieldGet 2#32 0 1 = 0 ∧ fieldGet 2#32 1 1 = 1 ∧ fieldGet 2#32 2 1 = 0) ∧
    fieldGet 4#32 0 1 = 0 ∧ fieldGet 4#32 1 1 = 0 ∧ fieldGet 4#32 2 1 = 1 := by decide

/-- What refuses CREATE and DESTROY of a partition (R409, R410, R432). -/
theorem hPartitionCtrl_chk (s : State) (p : Nat) (old : Word) :
    (hPartitionCtrl.chk s p old 1#32 = false ↔ p ≠ 0 ∧ s.partCreated p = false) ∧ (hPartitionCtrl.chk s p old 2#32 = false ↔ p ≠ 0) := by
  unfold hPartitionCtrl
  simp [commandBits]

theorem partitionCreate_act (s : State) (p : Nat) : hPartitionCtrl.act s p 1#32 = s.atBoundary (.partCreate p) := by
  unfold hPartitionCtrl
  simp [commandBits]

theorem partitionDestroy_act (s : State) (p : Nat) : hPartitionCtrl.act s p 2#32 =
    if s.partCreated p = true ∧ s.partInUse p = false then s.atBoundary (.partDestroy p) else s := by
  unfold hPartitionCtrl
  simp [commandBits]

/-- What refuses CREATE, DESTROY and RESET of a tenant (R411, R414, R427, R432). -/
theorem hTenantCtrl_chk (s : State) (t : Nat) (old : Word) :
    (hTenantCtrl.chk s t old 1#32 = false ↔ t ≠ 0 ∧ s.tenState t = 0) ∧ (hTenantCtrl.chk s t old 2#32 = false ↔ t ≠ 0) ∧
    (hTenantCtrl.chk s t old 4#32 = false ↔ t ≠ 0 ∧ s.tenState t = 1) := by
  unfold hTenantCtrl
  simp [commandBits]

theorem tenantCreate_act (s : State) (t : Nat) : hTenantCtrl.act s t 1#32 =
    if s.createFail t = 0 then (s.put PART.TENANT_STATUS.REFUSE_CAUSE 0 t).atBoundary (.tenantCreate t)
    else s.put PART.TENANT_STATUS.REFUSE_CAUSE (s.createFail t) t := by
  unfold hTenantCtrl
  dsimp only
  rw [if_pos (by decide)]

theorem tenantDestroy_act (s : State) (t : Nat) : hTenantCtrl.act s t 2#32 =
    if s.tenState t ≠ 1 then s.put PART.TENANT_STATUS.REFUSE_CAUSE 1 t
    else if s.mayDestroy t = false then s.put PART.TENANT_STATUS.REFUSE_CAUSE 4 t
    else (s.put PART.TENANT_STATUS.REFUSE_CAUSE 0 t).startReset t false true := by
  unfold hTenantCtrl
  dsimp only
  rw [if_neg (by decide), if_pos (by decide)]
  simp only [Bool.not_eq_true']

theorem tenantReset_act (s : State) (t : Nat) : hTenantCtrl.act s t 4#32 = s.startReset t false false := by
  unfold hTenantCtrl
  dsimp only
  rw [if_neg (by decide), if_neg (by decide), if_pos (by decide)]

/-- The commands of PARTITION_CTRL, with the words that they write. -/
def partitionRows : List (Instr × Word) := [(.partitionCreate, 1#32), (.partitionDestroy, 2#32)]

/-- The commands of TENANT_CTRL, with the words that they write. -/
def tenantRows : List (Instr × Word) := [(.tenantCreate, 1#32), (.tenantDestroy, 2#32), (.tenantReset, 4#32)]

theorem exec_partitionRow {c : Instr} {v : Word} (row : (c, v) ∈ partitionRows) (s : State) :
    paR.fieldBits v = v ∧ exec c s = .next (bar0 hPartitionCtrl PART.PARTITION_CTRL.off v s) := by
  have bit (f : Fld) (reg : findReg f.off = some paR) := bit_eq (h := hPartitionCtrl) (s := s) (f := f) reg (by decide)
  simp only [partitionRows, List.mem_cons, Prod.mk.injEq, List.not_mem_nil, or_false] at row
  rcases row with ⟨rfl, rfl⟩ | ⟨rfl, rfl⟩
  exacts [⟨by decide, congrArg Host.Outcome.next (bit PART.PARTITION_CTRL.CREATE (by decide))⟩,
    ⟨by decide, congrArg Host.Outcome.next (bit PART.PARTITION_CTRL.DESTROY (by decide))⟩]

theorem exec_tenantRow {c : Instr} {v : Word} (row : (c, v) ∈ tenantRows) (s : State) :
    teR.fieldBits v = v ∧ exec c s = .next (bar0 hTenantCtrl PART.TENANT_CTRL.off v s) := by
  have bit (f : Fld) (reg : findReg f.off = some teR) := bit_eq (h := hTenantCtrl) (s := s) (f := f) reg (by decide)
  simp only [tenantRows, List.mem_cons, Prod.mk.injEq, List.not_mem_nil, or_false] at row
  rcases row with ⟨rfl, rfl⟩ | ⟨rfl, rfl⟩ | ⟨rfl, rfl⟩
  exacts [⟨by decide, congrArg Host.Outcome.next (bit PART.TENANT_CTRL.CREATE (by decide))⟩,
    ⟨by decide, congrArg Host.Outcome.next (bit PART.TENANT_CTRL.DESTROY (by decide))⟩,
    ⟨by decide, congrArg Host.Outcome.next (bit PART.TENANT_CTRL.RESET (by decide))⟩]

section command

variable (wr : s.writable = true) (ph : s.serving = true) {c : Instr} {v : Word}
include wr ph

section partition

variable (sel : (s.reg PART.PARTITION_SELECT.off).toNat = p) (row : (c, v) ∈ partitionRows)
include sel row

theorem exec_partitionRow_takes (canon : s.canonical = true) (ok : hPartitionCtrl.chk s p (s.reg PART.PARTITION_CTRL.off p) v = false) :
    exec c s = .next (s.recorded (hPartitionCtrl.act s p v) PART.PARTITION_CTRL.off p v) := by
  obtain ⟨bits, write⟩ := exec_partitionRow row s
  rw [write, partitionCtrl_control.takes wr (fun f _ => serving_phaseOk ph (by decide) f) sel canon hPartitionCtrl rfl bits ok rfl]

theorem exec_partitionRow_refused (bad : hPartitionCtrl.chk s p (s.reg PART.PARTITION_CTRL.off p) v ≠ false) :
    exec c s = .next (s.illegal 0 causeState PART.PARTITION_CTRL.off v.toNat) := by
  obtain ⟨bits, write⟩ := exec_partitionRow row s
  rw [write, partitionCtrl_control.refuses wr (fun f _ => serving_phaseOk ph (by decide) f) sel hPartitionCtrl bits
    (Bool.eq_true_of_not_eq_false bad)]

end partition

section tenant

variable (sel : (s.reg PART.TENANT_SELECT.off).toNat = t) (row : (c, v) ∈ tenantRows)
include sel row

theorem exec_tenantRow_takes (canon : s.canonical = true) (ok : hTenantCtrl.chk s t (s.reg PART.TENANT_CTRL.off t) v = false) :
    exec c s = .next (s.recorded (hTenantCtrl.act s t v) PART.TENANT_CTRL.off t v) := by
  obtain ⟨bits, write⟩ := exec_tenantRow row s
  rw [write, tenantCtrl_control.takes wr (fun f _ => serving_phaseOk ph (by decide) f) sel canon hTenantCtrl rfl bits ok rfl]

theorem exec_tenantRow_refused (bad : hTenantCtrl.chk s t (s.reg PART.TENANT_CTRL.off t) v ≠ false) :
    exec c s = .next (s.illegal 0 causeState PART.TENANT_CTRL.off v.toNat) := by
  obtain ⟨bits, write⟩ := exec_tenantRow row s
  rw [write, tenantCtrl_control.refuses wr (fun f _ => serving_phaseOk ph (by decide) f) sel hTenantCtrl bits
    (Bool.eq_true_of_not_eq_false bad)]

end tenant

end command

/-! ### Registers returned to their After-power-up words -/

theorem spGet_of_unlisted {α : Type} {d : Nat → α} {k : Nat} {l : List (Nat × α)} (unlisted : ∀ x ∈ l, x.1 ≠ k) : spGet d l k = d k := by
  induction l with
  | nil => rfl
  | cons x l ih =>
    obtain ⟨head, tail⟩ := List.forall_mem_cons.mp unlisted
    rw [spGet, if_neg (Ne.symm head), ih tail, ite_self]

/-- A register all of whose entries a filter takes out reads as after power-up. -/
theorem reg_filtered {keep : Nat × Word → Bool} {o : Nat} (regs : s.regs = u.regs.filter keep) (out : ∀ w, keep (regKey o p, w) = false) :
    s.reg o p = regDefault (regKey o p) := by
  refine (congrArg (spGet regDefault · _) regs).trans (spGet_of_unlisted ?_)
  rintro ⟨k, w⟩ mem rfl
  exact absurd (List.mem_filter.mp mem).2 (by simp [out w])

theorem regDefault_row {o : Nat} {r : RegRow} (low : o < 0x1000000) (special : o ≠ CLK.DOMAIN_STATUS.off ∧ o ≠ PART.PARTITION_STATUS.off)
    (id : ¬ (SYS.UNIQUE_ID.off ≤ o ∧ o < SYS.UNIQUE_ID.off + 16)) (row : findReg o = some r) : regDefault (regKey o p) = r.resetWord := by
  unfold regDefault
  dsimp only
  rw [regKey_off p low, if_neg special.1, if_neg special.2, if_neg id, row]

/-! ### A partition at the boundary -/

/-- The budgets of a partition, shadow and live. -/
def partFlds : List Fld := shadowFlds ++ budgetFlds

theorem clearPart_wf (wf : spWf regDefault u.regs = true) (p : Nat) : spWf regDefault (u.clearPart p).regs = true := spWf_filter _ _ _ wf

/-- The budgets lie among the registers that `clearPart` takes out, and are 0 after power-up. -/
theorem partFlds_rows : ∀ f ∈ partFlds, PART.BUDGET_DRAM.off ≤ f.off ∧ f.off < PART.SWITCH_CTRL.off ∧ f.off ≠ CLK.DOMAIN_STATUS.off ∧
    ¬ (SYS.UNIQUE_ID.off ≤ f.off ∧ f.off < SYS.UNIQUE_ID.off + 16) ∧ (findReg f.off).map (·.resetWord) = some 0#32 := by decide

theorem partFlds_low {f : Fld} (mem : f ∈ partFlds) : f.off < 0x1000000 ∧ f.off ≠ PART.PARTITION_STATUS.off := by
  obtain ⟨above, below, -⟩ := partFlds_rows f mem
  exact ⟨below.trans (by decide), fun same => absurd above (by rw [same]; decide)⟩

theorem clearPart_get {f : Fld} (mem : f ∈ partFlds) : (u.clearPart p).get f p = 0 := by
  obtain ⟨above, below, clock, id, row⟩ := partFlds_rows f mem
  obtain ⟨low, status⟩ := partFlds_low mem
  obtain ⟨r, row, zero⟩ := Option.map_eq_some_iff.mp row
  have word : (u.clearPart p).reg f.off p = 0#32 := by
    refine (reg_filtered (u := u) rfl fun w => ?_).trans ((regDefault_row low ⟨clock, status⟩ id row).trans zero)
    simp [regKey_inst p low, regKey_off p low, above, below]
  unfold State.get
  rw [word, fieldGet]
  simp

/-- The partition's status and its budgets once its registers are cleared and its status written. -/
theorem cleared_partition (wf : spWf regDefault u.regs = true) (made : Nat) {v : State}
    (regs : v.regs = ((u.clearPart p).put PART.PARTITION_STATUS.CREATED made p).regs) :
    v.get PART.PARTITION_STATUS.CREATED p = made % 2 ∧ v.shadow p = Res6.zero ∧ v.budget p = Res6.zero := by
  have same (f : Fld) : v.get f p = ((u.clearPart p).put PART.PARTITION_STATUS.CREATED made p).get f p := by
    unfold State.get State.reg
    rw [regs]
  have zero (f : Fld) (mem : f ∈ partFlds) : v.get f p = 0 := by
    obtain ⟨low, status⟩ := partFlds_low mem
    rw [same, get_put_apart (clearPart_wf wf p) made (apart_of_off (by decide) low status), clearPart_get mem]
  refine ⟨(same _).trans (get_put_same _ (clearPart_wf wf p) PART.PARTITION_STATUS.CREATED made p (by decide)), ?_, ?_⟩
  · simp only [State.shadow, zero _ (show PART.BUDGET_DRAM.NEXT ∈ partFlds by decide), zero _ (show PART.BUDGET_FLASH.NEXT ∈ partFlds by decide),
      zero _ (show PART.BUDGET_ENGINE.NEXT ∈ partFlds by decide), zero _ (show PART.BUDGET_SEARCH.NEXT ∈ partFlds by decide),
      zero _ (show PART.BUDGET_SPOKE.NEXT ∈ partFlds by decide), zero _ (show PART.BUDGET_POOL.NEXT ∈ partFlds by decide), Res6.zero]
  · simp only [State.budget, zero _ (show PART.BUDGET_DRAM_LIVE.LIVE ∈ partFlds by decide),
      zero _ (show PART.BUDGET_FLASH_LIVE.LIVE ∈ partFlds by decide), zero _ (show PART.BUDGET_ENGINE_LIVE.LIVE ∈ partFlds by decide),
      zero _ (show PART.BUDGET_SEARCH_LIVE.LIVE ∈ partFlds by decide), zero _ (show PART.BUDGET_SPOKE_LIVE.LIVE ∈ partFlds by decide),
      zero _ (show PART.BUDGET_POOL_LIVE.LIVE ∈ partFlds by decide), Res6.zero]

theorem createPart_made (wf : spWf regDefault u.regs = true) (p : Nat) : (u.createPart p).partCreated p = true ∧ p ∈ (u.createPart p).parts ∧
    (u.createPart p).shadow p = Res6.zero ∧ (u.createPart p).budget p = Res6.zero := by
  obtain ⟨made, budgets⟩ := cleared_partition (p := p) wf 1 (v := u.createPart p) rfl
  refine ⟨decide_eq_true made, ?_, budgets⟩
  unfold State.parts State.createPart
  simp

theorem destroyPart_gone (wf : spWf regDefault u.regs = true) (p : Nat) : (u.destroyPart p).partCreated p = false ∧
    p ∉ (u.destroyPart p).parts ∧ (u.destroyPart p).shadow p = Res6.zero ∧ (u.destroyPart p).budget p = Res6.zero := by
  obtain ⟨gone, budgets⟩ := cleared_partition (p := p) wf 0 (v := u.destroyPart p) rfl
  refine ⟨decide_eq_false (by rw [gone]; decide), ?_, budgets⟩
  unfold State.parts State.destroyPart
  simp

theorem actNow_partDestroy (u : State) (p : Nat) : u.actNow (.partDestroy p) = if u.partInUse p = true then u else u.destroyPart p := rfl

/-! ### A tenant at the boundary -/

/-- The state whose registers of tenant `t`'s settings are at their After-power-up words (R411). -/
def State.settingsCleared (u : State) (t : Nat) : State :=
  { u with regs := u.regs.filter fun x => !(settingOf t x.1 && !createKeeps (x.1 % 0x1000000)), live := u.live.filter fun x => !settingOf t x.1 }

/-- A tenant's settings cleared, its status ACTIVE and its partition in force; its caps are not in force yet. -/
def State.tenantPlaced (u : State) (t : Nat) : State :=
  ((u.settingsCleared t).put PART.TENANT_STATUS.STATE 1 t).put PART.TENANT_PARTITION.LIVE (u.get PART.TENANT_PARTITION.NEXT t) t

theorem actNow_tenantCreate (free : u.tenState t = 0) (ok : u.createFail t = 0) :
    u.actNow (.tenantCreate t) = (u.tenantPlaced t).setLive PART.TENANT_CAPS.off (u.reg PART.TENANT_CAPS.off t) t := by
  show u.createTenant t = _
  unfold State.createTenant
  dsimp only
  rw [if_neg (not_not_intro free), if_neg (not_not_intro ok)]
  rfl

theorem settingOf_seqCap (t : Nat) : settingOf t (regKey XLAT.SEQ_CAP.off t) = true := by
  have row : inRingWindow XLAT.SEQ_CAP.off = false ∧
      ((findReg XLAT.SEQ_CAP.off).any fun r => r.sel.any fun o => tenantSelects.contains o) = true := by decide
  obtain ⟨ring, row⟩ := row
  unfold settingOf
  dsimp only
  rw [regKey_off t (by decide), regKey_inst t (by decide), if_neg (by simp [ring]), beq_self_eq_true, Bool.true_and]
  cases found : findReg XLAT.SEQ_CAP.off with
  | none => simp [found] at row
  | some r => simpa [found] using row

theorem settingsCleared_seqCap (u : State) (t : Nat) : (u.settingsCleared t).get XLAT.SEQ_CAP.CAP t = 0 := by
  have word : (u.settingsCleared t).reg XLAT.SEQ_CAP.off t = regDefault (regKey XLAT.SEQ_CAP.off t) := by
    refine reg_filtered (u := u) rfl fun w => ?_
    rw [settingOf_seqCap, regKey_off t (by decide)]
    rfl
  obtain ⟨r, row, zero⟩ := Option.map_eq_some_iff.mp
    (show (findReg XLAT.SEQ_CAP.off).map (·.resetWord) = some 0#32 by decide)
  rw [regDefault_row (by decide) (by decide) (by decide) row, zero] at word
  show fieldGet ((u.settingsCleared t).reg XLAT.SEQ_CAP.off t) _ _ = 0
  rw [word]
  decide

theorem canonical_live (canon : s.canonical = true) : spWf regDefault s.live = true := by
  simp only [State.canonical, Bool.and_eq_true] at canon
  exact canon.1.1.1.2

theorem tenantPlaced_shows (wf : spWf regDefault u.regs = true) (t : Nat) : (u.tenantPlaced t).tenState t = 1 ∧
    (u.tenantPlaced t).get PART.TENANT_PARTITION.LIVE t = u.get PART.TENANT_PARTITION.NEXT t ∧ (u.tenantPlaced t).get XLAT.SEQ_CAP.CAP t = 0 := by
  have wf₀ : spWf regDefault (u.settingsCleared t).regs = true := spWf_filter _ _ _ wf
  have wf₁ : spWf regDefault ((u.settingsCleared t).put PART.TENANT_STATUS.STATE 1 t).regs = true := setReg_wf _ wf₀ _ _ _
  have other (g : Fld) (low : g.off < 0x1000000) (o : g.off ≠ PART.TENANT_PARTITION.off) : (u.tenantPlaced t).get g t =
      ((u.settingsCleared t).put PART.TENANT_STATUS.STATE 1 t).get g t := get_put_apart wf₁ _ (apart_of_off (by decide) low o)
  refine ⟨(other _ (by decide) (by decide)).trans (get_put_same _ wf₀ PART.TENANT_STATUS.STATE 1 t (by decide)), ?_, ?_⟩
  · exact (get_put_same _ wf₁ PART.TENANT_PARTITION.LIVE _ t (by decide)).trans (Nat.mod_eq_of_lt (fieldGet_lt _ _ 7))
  · rw [other _ (by decide) (by decide), get_put_apart wf₀ _ (apart_of_off (by decide) (by decide) (by decide)), settingsCleared_seqCap]

/-- The tenant created: ACTIVE, with its partition and caps live and no sequences (R411). -/
theorem tenant_created (canon : u.canonical = true) (numbered : t ≠ 0) {v : State}
    (made : v = (u.tenantPlaced t).setLive PART.TENANT_CAPS.off (u.reg PART.TENANT_CAPS.off t) t) :
    v.tenState t = 1 ∧ v.partOf t = u.get PART.TENANT_PARTITION.NEXT t ∧ v.liveReg PART.TENANT_CAPS.off t = u.reg PART.TENANT_CAPS.off t ∧
      v.get XLAT.SEQ_CAP.CAP t = 0 := by
  obtain ⟨active, part, capless⟩ := tenantPlaced_shows (canonical_regs canon) t
  have live : spWf regDefault (u.tenantPlaced t).live = true := spWf_filter _ _ _ (canonical_live canon)
  have seen (g : Fld) : v.get g t = (u.tenantPlaced t).get g t := by
    unfold State.get State.reg
    rw [made, State.setLive_regs]
  refine ⟨(seen _).trans active, by rw [State.partOf, if_neg numbered, seen, part], ?_, (seen _).trans capless⟩
  rw [made, State.liveReg, State.setLive_live]
  exact spGet_spPut_same _ _ _ _ live

/-! ### Drains -/

/-- A tenant's rings held off: none of their reads is under way. -/
def quietRing (t : Nat) (x : Nat × SqSt) : Nat × SqSt := if x.1 / 8 = t then (x.1, { x.2 with inFetch := 0 }) else x

/-- A drain begins: the tenant's state shows it, the drain is noted, and its rings fetch no more (R427). -/
def State.drainBegun (s : State) (t : Nat) (flr gone : Bool) : State :=
  { s.put PART.TENANT_STATUS.STATE (if gone then 3 else 2) t with
    part := { s.part with drains := s.part.drains ++ [⟨t, s.stroke, flr, gone⟩] }
    ring := { s.ring with sq := s.ring.sq.map (quietRing t) } }

theorem startReset_draining (under : s.draining t = true) (flr gone : Bool) : s.startReset t flr gone = s := if_pos under

theorem startReset_begins (idle : s.draining t = false) (flr gone : Bool) : s.startReset t flr gone =
    (((s.wk.works.filter (·.d.tid = t)).map (·.id)).foldl (fun v id => v.resetWork id flr) (s.drainBegun t flr gone)).sameCycle
      s.wk.latched.length :=
  if_neg (by simp [idle])

theorem drainBegun_shows (wf : spWf regDefault s.regs = true) (t : Nat) (flr gone : Bool) :
    (s.drainBegun t flr gone).tenState t = (if gone then 3 else 2) ∧ (s.drainBegun t flr gone).draining t = true ∧
    ∀ x ∈ (s.drainBegun t flr gone).ring.sq, x.1 / 8 = t → x.2.inFetch = 0 := by
  refine ⟨?_, ?_, ?_⟩
  · refine (get_put_same s wf PART.TENANT_STATUS.STATE (if gone then 3 else 2) t (by decide)).trans ?_
    cases gone <;> rfl
  · unfold State.draining State.drainBegun
    simp
  · rintro x mem mine
    obtain ⟨y, -, rfl⟩ := List.mem_map.mp mem
    unfold quietRing at mine ⊢
    split at mine
    · rw [if_pos ‹_›]
    · contradiction

theorem exec_flrVf (pf : s.pf0 = true) {vf : Nat} (low : 0 < vf) (high : vf < 1024) {t : Nat} (bound : t = s.get FN.VF_BIND.TID vf)
    {clear : State} (cleared : clear = { s with msix := s.msix.filter fun c => c.1 / 2 ^ 16 ≠ vf }) : exec (.flrVf vf) s = .next
      (if t = 0 ∨ s.tenState t ≠ 1 then clear
        else ({ clear with part := { clear.part with vfCrs := clear.part.vfCrs ++ [vf] } }.startReset t true false)) := by
  subst bound cleared
  refine congrArg Host.Outcome.next (if_neg ?_)
  simp [pf, low.ne']
  omega

theorem exec_resetDrainExpiry (working : s.working = true) (t : Nat) :
    exec (.resetDrainExpiry t) s = .next (if s.drainDue t = true then s.expireDrain t else s) := by
  show execResetDrainExpiry t s = _
  rw [execResetDrainExpiry, working, Bool.true_and]

theorem drainDue_iff (s : State) (t : Nat) :
    s.drainDue t = true ↔ ∃ d ∈ s.part.drains, d.tid = t ∧ d.since + s.get PART.RESET_DRAIN.STROKES ≤ s.stroke := by
  unfold State.drainDue
  simp only [List.any_eq_true, Bool.and_eq_true, beq_iff_eq, decide_eq_true_eq]

/-- Settles O51: PARTITION_CTRL and TENANT_CTRL by their own rules, the boundary's actions by the registers that they clear and write, the drains
by what begins and ends them. -/
theorem tenantsAndPartitions : Obligations.TenantsAndPartitions := by
  intro s p t canon wr ph selP selT
  have wf := canonical_regs canon
  have takesP {c : Instr} {v : Word} (row : (c, v) ∈ partitionRows) := exec_partitionRow_takes wr ph selP row canon
  have refusedP {c : Instr} {v : Word} (row : (c, v) ∈ partitionRows) := exec_partitionRow_refused wr ph selP row
  have takesT {c : Instr} {v : Word} (row : (c, v) ∈ tenantRows) := exec_tenantRow_takes wr ph selT row canon
  have refusedT {c : Instr} {v : Word} (row : (c, v) ∈ tenantRows) := exec_tenantRow_refused wr ph selT row
  obtain ⟨createP, destroyP⟩ := hPartitionCtrl_chk s p (s.reg PART.PARTITION_CTRL.off p)
  obtain ⟨createT, destroyT, resetT⟩ := hTenantCtrl_chk s t (s.reg PART.TENANT_CTRL.off t)
  refine ⟨⟨fun numbered free => ?_, fun bar => ?_, fun numbered made unused => ?_, fun numbered bar => ?_, fun zero => ?_⟩,
    fun u v canonU _ => ?boundary, ?create, fun u v canonU numbered _ free ok made => tenant_created canonU numbered.ne' (made.trans (actNow_tenantCreate free ok)), ?destroy,
    ⟨fun numbered active => ?_, fun bar => ?_⟩, fun n flr gone => ⟨fun under => startReset_draining under flr gone, fun idle => ?drain⟩,
    fun vf tid clear low high bound cleared => ?flr, fun tid working => ?expiry⟩
  case boundary =>
    refine ⟨?_, ?_, fun used => by rw [actNow_partDestroy, if_pos used]⟩
    · rintro rfl
      exact createPart_made (canonical_regs canonU) p
    · rintro rfl unused
      rw [actNow_partDestroy, if_neg (by simp [unused])]
      exact destroyPart_gone (canonical_regs canonU) p
  case create =>
    intro cause causeIs
    have fails : s.createFail t = cause := by
      rw [causeIs]
      unfold State.createFail
      simp only [Bool.not_eq_true']
    refine ⟨fun numbered free bad => ?_, fun numbered free ok => ?_, fun bar => refusedT (v := 1#32) (by decide) (mt createT.mp ?_)⟩
    · rw [takesT (by decide) (createT.mpr ⟨numbered, free⟩), tenantCreate_act, fails, if_neg bad]
    · rw [takesT (by decide) (createT.mpr ⟨numbered, free⟩), tenantCreate_act, fails, if_pos ok]
    · rintro ⟨numbered, free⟩
      exact bar.elim numbered fun used => used free
  case destroy =>
    intro cause causeIs
    have act : hTenantCtrl.act s t 2#32 = if cause = 0 then (s.put PART.TENANT_STATUS.REFUSE_CAUSE 0 t).startReset t false true
        else s.put PART.TENANT_STATUS.REFUSE_CAUSE cause t := by
      rw [tenantDestroy_act, causeIs]
      by_cases other : s.tenState t ≠ 1
      · simp only [if_pos other, if_neg one_ne_zero]
      · by_cases owns : s.mayDestroy t = false
        · simp only [if_neg other, if_pos owns, if_neg (show ¬ 4 = 0 by decide)]
        · simp only [if_neg other, if_neg owns, if_pos]
    refine ⟨fun numbered bad => ?_, fun numbered ok => ?_, fun zero => refusedT (v := 2#32) (by decide) (mt destroyT.mp (not_not_intro zero))⟩
    · rw [takesT (by decide) (destroyT.mpr numbered), act, if_neg bad]
    · rw [takesT (by decide) (destroyT.mpr numbered), act, if_pos ok]
  case drain =>
    obtain ⟨state, draining, quiet⟩ := drainBegun_shows wf n flr gone
    exact ⟨s.drainBegun n flr gone, state, draining, rfl, quiet, startReset_begins idle flr gone⟩
  case flr =>
    have run := exec_flrVf (writable_pf0 wr) low high bound cleared
    refine ⟨fun unbound => by rw [run, if_pos unbound], fun numbered active => ?_⟩
    rw [run, if_neg (by simp [numbered, active])]
  case expiry =>
    refine ⟨fun due => ?_, fun early => ?_⟩
    · rw [exec_resetDrainExpiry working, if_pos ((drainDue_iff s tid).mpr due)]
    · rw [exec_resetDrainExpiry working, if_neg (mt (drainDue_iff s tid).mp ?_)]
      rintro ⟨d, mem, mine, due⟩
      exact absurd due (Nat.not_le.mpr (early d mem mine))
  · rw [takesP (by decide) (createP.mpr ⟨numbered, free⟩), partitionCreate_act]
  · refine refusedP (v := 1#32) (by decide) (mt createP.mp ?_)
    rintro ⟨numbered, free⟩
    exact bar.elim numbered fun made => by simp [free] at made
  · rw [takesP (by decide) (destroyP.mpr numbered), partitionDestroy_act, if_pos ⟨made, unused⟩]
  · rw [takesP (by decide) (destroyP.mpr numbered), partitionDestroy_act, if_neg]
    rintro ⟨made, unused⟩
    simp [made, unused] at bar
  · exact refusedP (v := 2#32) (by decide) (mt destroyP.mp (not_not_intro zero))
  · rw [takesT (by decide) (resetT.mpr ⟨numbered, active⟩), tenantReset_act]
  · refine refusedT (v := 4#32) (by decide) (mt resetT.mp ?_)
    rintro ⟨numbered, active⟩
    exact bar.elim numbered fun other => other active

end Sys2Proof.Machine
end

section
/-! Lines of the pool under host requests, writebacks and snoops (R375, R382, R384, R388 to R391, R398, R400). -/

namespace Sys2Proof.Machine

open Sys2Proof.Laws.Shared

variable {s u : State} {hid tag dpa slot kind r x : Nat} {d : List Byte} {m mv : Nat} {how : CxlHow} {q : PReq} {hs : DirEnt}

/-! ### A host's request -/

theorem exec_hostRow {c : Instr} (row : (c, kind, d, m, mv) ∈ [(Instr.cxlReadNocache ⟨hid, how⟩ tag dpa, 0, ([] : List Byte), 0, 0),
      (.cxlSharedRead ⟨hid, how⟩ tag dpa, 1, [], 0, 0), (.cxlOwnershipRead ⟨hid, how⟩ tag dpa, 2, [], 0, 0)] ∨
      (c = .cxlWrite ⟨hid, how⟩ tag dpa d m mv ∧ kind = 3)) (s : State) :
    kind < 4 ∧ exec c s = .next (s.hostReq ⟨hid, how⟩ tag kind dpa d m mv) := by
  simp only [List.mem_cons, Prod.mk.injEq, List.not_mem_nil, or_false] at row
  rcases row with (⟨rfl, rfl, rfl, rfl, rfl⟩ | ⟨rfl, rfl, rfl, rfl, rfl⟩ | ⟨rfl, rfl, rfl, rfl, rfl⟩) | ⟨rfl, rfl⟩ <;> exact ⟨by decide, rfl⟩

/-- A request of a host whose slot is known joins the queue. -/
def State.waitsWith (s : State) (q : PReq) : State := { s with pool := { s.pool with waiting := s.pool.waiting ++ [q] } }

section latched

variable (up : s.up = true) (link : s.pw.cxlLink = true)
include up link

theorem hostReq_fault (fault : s.phase = phFAULT) : s.hostReq ⟨hid, how⟩ tag kind dpa d m mv =
    s.refuseHost (s.hidOf hid) tag dpa (s.hostSlot (s.hidOf hid)) true false := by
  unfold State.hostReq
  dsimp only
  rw [if_neg (by simp [up, link]), if_pos fault]

theorem hostReq_unsupported (runs : s.phase ≠ phFAULT) (bar : how = .unsupported) : s.hostReq ⟨hid, how⟩ tag kind dpa d m mv =
    (s.sat POOL.FOREIGN_REQUESTS.COUNT).refuseHost (s.hidOf hid) tag dpa (s.hostSlot (s.hidOf hid)) (decide (kind < 3)) false := by
  unfold State.hostReq
  dsimp only
  rw [if_neg (by simp [up, link]), if_neg runs, if_pos bar]

theorem hostReq_foreign (runs : s.phase ≠ phFAULT) (ok : how ≠ .unsupported) (unknown : s.hostSlot (s.hidOf hid) = none) :
    s.hostReq ⟨hid, how⟩ tag kind dpa d m mv = s.foreign (s.hidOf hid) tag kind dpa none false := by
  unfold State.hostReq
  dsimp only
  rw [if_neg (by simp [up, link]), if_neg runs, if_neg ok, unknown]

theorem hostReq_waits (runs : s.phase ≠ phFAULT) (ok : how ≠ .unsupported) (found : s.hostSlot (s.hidOf hid) = some slot) :
    s.hostReq ⟨hid, how⟩ tag kind dpa d m mv =
      (s.waitsWith ⟨kind, slot, tag, dpa, d, m, mv, s.stroke, false, false, decide (how = .bad), none, false⟩).serveWaiting := by
  unfold State.hostReq
  dsimp only
  rw [if_neg (by simp [up, link]), if_neg runs, if_neg ok, found]
  rfl

end latched

theorem hostSlot_lt (found : s.hostSlot hid = some slot) : slot < 64 := by
  have mem : slot ∈ (List.range 64).filter fun n => s.hostState n != 0 && s.hostHid n == s.hidOf hid := by
    rcases Option.or_eq_some_iff.mp found with served | ⟨-, first⟩
    · exact List.mem_of_find?_eq_some served
    · exact List.mem_of_head? first
  exact List.mem_range.mp (List.mem_filter.mp mem).1

/-! ### A request that waits alone -/

theorem flatMap_filter_one {α β : Type} (f : α → β → Bool) (b : β) (l : List α) :
    (l.flatMap fun k => [b].filter (f k)) = (l.filter (f · b)).map fun _ => b := by
  induction l with
  | nil => rfl
  | cons a l ih =>
    rw [List.flatMap_cons, ih]
    by_cases h : f a b <;> simp [h]

/-- In one turn of the rotation each slot comes once. -/
theorem rotation_once (rot : Nat) {slot : Nat} (low : slot < 64) : ∀ k < 65, (slot == (rot + k) % 65) = true ↔ k = (slot + 65 - rot % 65) % 65 := by
  intro k below
  rw [beq_iff_eq]
  omega

theorem turnOrder_one (alone : u.pool.waiting = [q]) (request : isData q = false) (low : q.slot < 64) : u.turnOrder = [q] := by
  unfold State.turnOrder
  dsimp only
  rw [alone, List.filter_cons_of_neg (by simp [request]), List.filter_nil, List.nil_append, flatMap_filter_one]
  simp only [request, Bool.not_false, Bool.true_and]
  rw [filter_range_unique (Nat.mod_lt _ (by decide)) (rotation_once _ low)]
  rfl

theorem lineHead_one (alone : u.pool.waiting = [q]) (new : q.lined = false) : u.lineHead x = none := by
  unfold State.lineHead
  rw [alone]
  simp [new]

/-- A new request that nothing waits before is served as `tryReq` says (R384). -/
theorem serve_alone (alone : u.pool.waiting = [q]) (low : q.slot < 64) (row : q.kind < 4) (new : q.lined = false ∧ q.severe = false) :
    (∀ v, u.tryReq q = .served v → u.serveWaiting = (v.dropReq q).flushLines) ∧
    (∀ v, u.tryReq q = .given v → u.serveWaiting = ((v.dropReq q).put POOL.DIR_ROT.SLOT ((q.slot + 1) % 65)).flushLines) ∧
    (∀ v, u.tryReq q = .balance v → u.serveWaiting = v.flushLines) ∧
    (∀ v hard victim, u.tryReq q = .line v hard victim →
      u.serveWaiting = (v.swapReq q { q with severe := hard, victim := victim, lined := true }).flushLines) := by
  have request : isData q = false := decide_eq_false (Nat.not_le.mpr row)
  have turn := serveOne u q alone (turnOrder_one alone request low) (.inr (by rw [lineHead_one alone new.1]; rfl))
  rwa [new.2] at turn

/-! ### Table 16-5 -/

section directory

variable (line : x = lineOf q.dpa)
include line

/-- A line in I: a read without a copy and a write need no entry, the other reads one, for which a full set makes room (R388, R389). -/
theorem directory_invalid (invalid : s.dirEnt x = none) :
    s.directory r q 0 = .given (s.giveData r q 0) ∧
    (q.cur = false → s.directory r q 3 = .given (s.giveWrite r q)) ∧
    (s.dirRoom x = true → s.directory r q 1 = .given ((s.setDir x 1 [q.slot]).giveData r q 1) ∧
      s.directory r q 2 = .given ((s.setDir x 2 [q.slot]).giveData r q 2)) ∧
    (∀ t v, s.dirRoom x = false → q.victim = none → s.recallOldest x = (t, v) →
      s.directory r q 1 = .line t true v ∧ s.directory r q 2 = .line t true v) := by
  subst line
  unfold State.directory
  dsimp only
  rw [invalid]
  refine ⟨rfl, fun first => by simp [first], fun room => by simp [room], fun t v full new oldest => ?_⟩
  simp [full, State.makeRoom, new, oldest]

/-- A line in S: a reader joins the holders, unless they are too many; a writer and an owner have the others recalled first. -/
theorem directory_shared (entry : s.dirEnt x = some hs) (shared : hs.st = 1) {others : List Nat} (rest : others = hs.holders.filter (· ≠ q.slot)) :
    s.directory r q 0 = .given ((s.setDir x 1 hs.holders).giveData r q 0) ∧
    s.directory r q 1 = (if 16 ≤ others.length then .line (s.snoopInv x (s.unlisted r others)) false none
      else .given ((s.setDir x 1 (others ++ [q.slot])).giveData r q 1)) ∧
    s.directory r q 2 = (if others ≠ [] then .line (s.snoopInv x others) false none else .given ((s.setDir x 2 [q.slot]).giveData r q 2)) ∧
    s.directory r q 3 = (if others ≠ [] then .line (s.snoopInv x others) false none else .given ((s.giveWrite r q).metaState q)) := by
  subst line rest
  unfold State.directory
  dsimp only
  rw [entry]
  simp [shared]

/-- A line in E of another host: that host is snooped first. -/
theorem directory_owned (entry : s.dirEnt x = some hs) (owned : hs.st = 2) {g : Nat} (other : hs.holders.filter (· ≠ q.slot) = [g])
    (first : q.cur = false) :
    s.directory r q 0 = .line (s.snoop x g 0 0) false none ∧ s.directory r q 1 = .line (s.snoop x g 1 0) false none ∧
    s.directory r q 2 = .line (s.snoop x g 2 0) false none ∧ s.directory r q 3 = .line (s.snoop x g 2 0) false none := by
  subst line
  unfold State.directory
  dsimp only
  rw [entry]
  dsimp only
  rw [other]
  simp [owned, first, State.snoopInv]

/-- A line in E of the host that asks. -/
theorem directory_own (entry : s.dirEnt x = some hs) (owned : hs.st = 2) (mine : hs.holders = [q.slot]) :
    s.directory r q 0 = .given ((s.setDir x 2 [q.slot]).giveData r q 0) ∧
    s.directory r q 1 = .given ((s.setDir x 1 [q.slot]).giveData r q 1) ∧
    s.directory r q 2 = .given ((s.setDir x 2 [q.slot]).giveData r q 2) ∧ s.directory r q 3 = .given ((s.giveWrite r q).metaState q) := by
  subst line
  unfold State.directory
  dsimp only
  rw [entry]
  simp [owned, mine]

end directory

/-! ### Writebacks -/

section writeback

variable (up : s.up = true) (link : s.pw.cxlLink = true) (bad : Bool)
include up link

theorem exec_writeback_recall {y : Snoop} (found : s.snoopOf hid (lineOf dpa) = some y) : exec (.writeback hid dpa ⟨d, bad⟩) s =
    if s.phase = phRELEASED then .next (s.takeData 4 y.slot dpa d bad).flushLines
    else exec (.cxlWrite ⟨hid, if bad then .bad else .plain⟩ 0 dpa d (2 ^ 64 - 1) 0) s := by
  show execWriteback hid dpa ⟨d, bad⟩ s = _
  unfold execWriteback
  dsimp only
  rw [if_neg (by simp [up, link]), found]
  rfl

theorem exec_writeback_owner (noRecall : s.snoopOf hid (lineOf dpa) = none) (found : s.hostSlot hid = some slot) :
    exec (.writeback hid dpa ⟨d, bad⟩) s =
      if s.ownerWrites slot dpa = true then .next (((s.takeData 4 slot dpa d bad).setDir (lineOf dpa) 1 []).serveWaiting)
      else exec (.cxlWrite ⟨hid, if bad then .bad else .plain⟩ 0 dpa d (2 ^ 64 - 1) 0) s := by
  show execWriteback hid dpa ⟨d, bad⟩ s = _
  unfold execWriteback
  dsimp only
  rw [if_neg (by simp [up, link]), noRecall, found]
  rfl

theorem exec_writeback_foreign (noRecall : s.snoopOf hid (lineOf dpa) = none) (unknown : s.hostSlot hid = none) :
    exec (.writeback hid dpa ⟨d, bad⟩) s = exec (.cxlWrite ⟨hid, if bad then .bad else .plain⟩ 0 dpa d (2 ^ 64 - 1) 0) s := by
  show execWriteback hid dpa ⟨d, bad⟩ s = _
  unfold execWriteback
  dsimp only
  rw [if_neg (by simp [up, link]), noRecall, unknown]
  rfl

end writeback

theorem ownerWrites_held {e : DirEnt} (released : s.phase = phRELEASED) (active : s.hostState slot = 1) (window : s.poolRegion dpa = some r)
    (serves : s.poolState r = 1) (writes : s.accessOf r slot = 2) (entry : s.dirEnt (lineOf dpa) = some e) (owned : e.st = 2)
    (mine : e.holders = [slot]) : s.ownerWrites slot dpa = true := by
  unfold State.ownerWrites
  simp [released, active, window, serves, writes, entry, owned, mine]

theorem ownerWrites_released (other : s.phase ≠ phRELEASED) : s.ownerWrites slot dpa = false := by
  unfold State.ownerWrites
  simp [other]

/-! ### Snoop responses -/

/-- The card after a response to `y`: the snoop is no longer outstanding, and what waited for its recall is marked. -/
def State.snoopAnswered (v : State) (y : Snoop) : State :=
  v.setPool fun p =>
    { p with
      snoops := p.snoops.filter fun z => ¬ (z.slot = y.slot ∧ z.line = y.line)
      waiting := if y.who = 0 then markCur y.line p.waiting else p.waiting
      curDone := if y.kind = 0 ∧ y.who ≠ 0 then p.curDone ++ [(y.who - 1, y.line)] else p.curDone }

theorem exec_snoopResponse (up : s.up = true) {y : Snoop} (found : s.snoopOf hid (lineOf dpa) = some y) (bs : Option LineData) (keeps : Bool) :
    exec (.snoopResponse hid dpa bs keeps) s =
      .next (((((bs.elim s fun b => s.takeData 5 y.slot dpa b.bytes b.bad).afterSnoop y keeps).snoopAnswered y).drainEnd y.slot).serveWaiting) := by
  show execSnoopResponse hid dpa bs keeps s = _
  unfold execSnoopResponse
  rw [found]
  dsimp only
  rw [if_neg (by simp [up])]
  cases bs <;> rfl

/-- What a snoop's answer leaves of the line's holders. -/
theorem afterSnoop_eq {y : Snoop} {e : DirEnt} (entry : s.dirEnt y.line = some e) (keeps : Bool) : s.afterSnoop y keeps =
    if y.kind = 0 ∧ keeps = true then s else if y.kind = 1 ∧ keeps = true then s.setDir y.line 1 e.holders
    else s.setDir y.line e.st (e.holders.filter (· ≠ y.slot)) := by
  unfold State.afterSnoop
  rw [entry]

/-! ### Failed hosts -/

theorem exec_biTimeout (s : State) (slot dpa : Nat) : exec (.biTimeout slot dpa) s =
    .next (if s.working = true ∧ ∃ y ∈ s.pool.snoops, y.slot = slot ∧ y.line = lineOf dpa ∧ y.sent + s.get POOL.BI_TIMEOUT.STROKES < s.stroke
      then s.failHost slot else s) := by
  show execBiTimeout slot dpa s = _
  unfold execBiTimeout State.snoopDue
  simp only [Bool.and_eq_true, List.any_eq_true, beq_iff_eq, decide_eq_true_eq, and_assoc]

theorem exec_hostViral (working : s.working = true) (low : slot < 64)
    (mine : ∀ n < 64, (s.hostState n = 1 ∨ s.hostState n = 2) ∧ s.hostHid n = s.hidOf hid ↔ n = slot) :
    exec (.hostViral hid) s = .next (s.failHost slot) := by
  show execHostViral hid s = _
  unfold execHostViral
  dsimp only
  rw [if_pos working, filter_range_unique low fun n below => Iff.trans (by simp) (mine n below)]
  rfl

theorem flushLines_none (sent : s.pool.mirNow = []) : s.flushLines = s := by
  unfold State.flushLines State.setPool
  dsimp only
  rw [sent]
  show ({ s with pool := { s.pool with mirNow := [] } } : State) = s
  rw [← sent]

theorem serveWaiting_none (alone : s.pool.waiting = []) (sent : s.pool.mirNow = []) : s.serveWaiting = s := by
  unfold State.serveWaiting
  rw [alone]
  exact flushLines_none sent

/-- Settles O48: a request that waits alone by `serveOne`, the directory by the state of the line, the rest by what each command finds. -/
theorem poolLines : Obligations.PoolLines := by
  intro s hid tag dpa slot data
  refine ⟨fun c kind d m mv how row up link => ?requests, fun q r x line => ⟨fun invalid => directory_invalid line invalid, ?shared, ?owned,
    fun hs entry owned mine => directory_own line entry owned mine⟩, fun bad up link => ?writebacks, fun y keeps bs v found up hv => ?response,
    fun y e keeps entry => ?holders, fun y working mem mine here due => ?_, fun early => ?_,
    fun working mine low => exec_hostViral working low mine, fun up => ⟨congrArg Host.Outcome.next (if_pos up), serveWaiting_none⟩⟩
  case requests =>
    obtain ⟨kinds, run⟩ := exec_hostRow row s
    rw [run]
    refine ⟨fun fault => ?_, fun runs bar => by rw [hostReq_unsupported up link runs bar],
      fun runs ok unknown => by rw [hostReq_foreign up link runs ok unknown], fun q u runs ok found hq hu => ?_⟩
    · rw [hostReq_fault up link fault]
      exact ⟨_, rfl⟩
    · subst hq
      have waits : s.hostReq ⟨hid, how⟩ tag kind dpa d m mv = u.serveWaiting := hu ▸ hostReq_waits up link runs ok found
      rw [waits]
      refine ⟨rfl, fun empty => ?_⟩
      have alone := serve_alone (u := u) (by rw [hu, empty]; rfl) (hostSlot_lt found) kinds ⟨rfl, rfl⟩
      obtain ⟨served, given, balance, waiting⟩ := alone
      exact ⟨fun v h => by rw [served v h], fun v h => by rw [given v h], fun v h => by rw [balance v h],
        fun v hard victim h => by rw [waiting v hard victim h]⟩
  case shared =>
    intro hs entry shared
    obtain ⟨read, share, own, write⟩ := directory_shared (s := s) (r := r) line entry shared rfl
    refine ⟨read, fun few => by rw [share, if_neg (by omega)], fun many => by rw [share, if_pos many], fun g holds other => ?_, fun mine => ?_⟩
    · have recalled : hs.holders.filter (· ≠ q.slot) ≠ [] := List.ne_nil_of_mem (List.mem_filter.mpr ⟨holds, decide_eq_true other⟩)
      exact ⟨by rw [own, if_pos recalled], by rw [write, if_pos recalled]⟩
    · have alone : hs.holders.filter (· ≠ q.slot) = [] := by simp [mine]
      exact ⟨by rw [own, if_neg (not_not_intro alone)], by rw [write, if_neg (not_not_intro alone)]⟩
  case owned =>
    intro hs g entry owned holder other first
    exact directory_owned line entry owned (by rw [holder, filter_ne_self g q.slot other]) first
  case writebacks =>
    refine ⟨fun y found released => by rw [exec_writeback_recall up link bad found, if_pos released],
      fun e r noRecall found released active window serves writes entry owned mine => ?_, fun write => ?_⟩
    · rw [exec_writeback_owner up link bad noRecall found, if_pos (ownerWrites_held released active window serves writes entry owned mine)]
    · rcases write with other | ⟨noRecall, unknown | ⟨found, bar⟩⟩
      · cases outstanding : s.snoopOf hid (lineOf dpa) with
        | some y => rw [exec_writeback_recall up link bad outstanding, if_neg other]
        | none => cases known : s.hostSlot hid with
          | none => exact exec_writeback_foreign up link bad outstanding known
          | some g => rw [exec_writeback_owner up link bad outstanding known, ownerWrites_released other, if_neg Bool.false_ne_true]
      · exact exec_writeback_foreign up link bad noRecall unknown
      · rw [exec_writeback_owner up link bad noRecall found, bar, if_neg Bool.false_ne_true]
  case response =>
    subst hv
    cases bs <;> exact ⟨_, exec_snoopResponse up found _ keeps, rfl, rfl, rfl⟩
  case holders =>
    rw [afterSnoop_eq entry]
    refine ⟨fun cur stays => if_pos ⟨cur, stays⟩, fun shares stays => ?_, fun leaves => ?_⟩
    · rw [if_neg (by simp [shares]), if_pos ⟨shares, stays⟩]
    · rw [if_neg, if_neg]
      all_goals
        rintro ⟨kind, stays⟩
        simp [kind, stays] at leaves
  · rw [exec_biTimeout, if_pos ⟨working, y, mem, mine, here, due⟩]
  · rw [exec_biTimeout, if_neg]
    rintro ⟨-, y, mem, mine, here, due⟩
    exact absurd due (Nat.not_lt.mpr (early y mem mine here))

end Sys2Proof.Machine
end
